-- ==== Sys2Proof/Word.lean ====
section
/-! DEFINITION. The word types of the hub's formats (00_scope.md R6, R7) and nothing else. -/

namespace Sys2Proof

/-- A 32-bit word of a packet, record, message or image. -/
abbrev Word := BitVec 32

/-- A byte of an image, a frame or a road burst. -/
abbrev Byte := BitVec 8

end Sys2Proof
end

