-- ==== Sys2Proof/Syntax.lean ====
section
/-! DEFINITION. The commands of the hub, one constructor per row of spec/opcode_table.json, and the data the world
brings with each. An operand dt is the interval in picoseconds of CLK25 time since the previous command
(assumption-log row 2); it stands where a rule uses the instant. -/

namespace Sys2Proof

/-! ### What the world brings -/

/-- The supply rails with a monitor (22_pads_electrical.md R537). -/
inductive Rail where
  | vmain | van | vioH | vioM | vkeep | vphy
  deriving DecidableEq, Repr, Inhabited

/-- What ends a reset (R522): RESET_N released, or a rail risen to a level in mV. -/
inductive Release where
  | resetN
  | rail (r : Rail) (mv : Nat)
  deriving DecidableEq, Repr, Inhabited

/-- One strap measurement (R37, R39): where the pad stands in mV at the end of the drive check, and the raw reading. -/
structure StrapReading where
  checkMv : Nat
  raw     : BitVec 16
  deriving DecidableEq, Repr, Inhabited

/-- A flash device on the image port as the loader meets it (R91–R94): whether it answers discovery, whether its SFDP
is present, whether it offers 8D-8D-8D, whether it drives its strobe, whether its SFDP reports command-omitted continuous read,
the read command and the dummy cycles that SFDP gives for the IMG_CK in use, the density in bytes, and its content. -/
structure FlashDev where
  answers : Bool
  sfdp    : Bool
  octal   : Bool
  strobe  : Bool
  cmdOmitted : Bool
  readCmd : Nat
  dummy   : Nat
  density : Nat
  bytes   : List Byte
  deriving DecidableEq, Repr, Inhabited

/-- A spill device as discovery meets it (R361): its answer, its 8D-8D-8D mode, its density, the pages whose lines one
block holds and its spare blocks. -/
structure SpillDev where
  answers : Bool
  octal   : Bool
  density : Nat
  blockPages : Nat
  spare   : Nat
  readCmd : Nat
  dummy   : Nat
  deriving DecidableEq, Repr, Inhabited

/-- One place of the spill journals as they are read at start (R363–R365): what each device that answers holds there, the twelve
words of the milepost checkpoint and the eight of the entry. -/
structure JournalEntry where
  copies : List (List Word × List Word)
  deriving DecidableEq, Repr, Inhabited

/-- The readout of one triad at one instant (R104, R106, R113): three raw axis readings, the overload flag of each axis
and the die temperature in 0.01 °C. -/
structure TriadReading where
  x : Int
  y : Int
  z : Int
  overload : Bool
  temp : Int
  deriving DecidableEq, Repr, Inhabited

/-- What one modulator clock of a filter window sees: the voltages on the positive and the negative PGA bus and, of an AC
recipe, across the sense resistor of the partner modulator (R220, R236), in nV. -/
structure ConvSample where
  pos   : Int
  neg   : Int
  sense : Int
  deriving DecidableEq, Repr, Inhabited

/-- What ends a conversion (R237): the samples of its filter window, clock by clock, after those of the 124 clocks before it that
the sinc5 stage still weighs; two windows for an output of schemes 1 and 3 (R229), the two conversions of a TRIGONLY recipe's
offset step (R244), and a gain step of two sources (R144). -/
structure ConvResult where
  windows : List (List ConvSample)
  deriving DecidableEq, Repr, Inhabited

/-- Why a conversion runs (R249). -/
inductive ConvKind where
  | grid | injected | calOffset | calGain
  deriving DecidableEq, Repr, Inhabited

/-- One slot of a road as the road engine hears it (R280): the code groups that arrive in the slot, from the first preamble
group on, ten bits each with the first bit on the line as the most significant; and how many groups came outside any slot or
echo frame since the slot before. -/
structure SlotRx where
  groups : List (BitVec 10)
  stray  : Nat
  deriving DecidableEq, Repr, Inhabited

/-- A burst in the echo window (R267): its code groups, and the arrival of its timing point at the port in units of 0.1 ns after
the grid mark (R266, R290). -/
structure UpRx where
  groups : List (BitVec 10)
  arrive : Nat
  deriving DecidableEq, Repr, Inhabited

/-- Where a finding lies: a line of the memory die (R303); for a read from spill or from the Footpath ring, a line or a word
of one of the packets that are read, counted from 0 in the order of the read; for the copy of the ring (R333), a word of the ring
packet of that number. -/
inductive Place where
  | die (line : Nat)
  | spill (packet line : Nat)
  | ring (packet word : Nat)
  | copy (packet word : Nat)
  deriving DecidableEq, Repr, Inhabited

/-- What a read or the scrub meets: a line with so many of its 36 symbols in error, or a word of the ring with so many of its
39 bits, and, from three on, whether the code detects it (R324, R330). -/
structure LineFinding where
  place : Place
  errors : Nat
  caught : Bool
  deriving DecidableEq, Repr, Inhabited

/-- A command with what the reads that it makes meet (R325). -/
structure Reads (α : Type) where
  what : α
  findings : List LineFinding
  deriving DecidableEq, Repr, Inhabited

/-- An operand of a command that comes so much CLK25 time, in ps, after the one before it. -/
structure After (α : Type) where
  dt : Nat
  what : α
  deriving DecidableEq, Repr, Inhabited

/-- A packet to open (R308): producer number of R341, source tag, reserved words, low 32 bits of its first mark. -/
structure OpenReq where
  producer : Nat
  tag      : Word
  maxWords : Nat
  mark     : Word
  deriving DecidableEq, Repr, Inhabited

/-- The identity of a PTP port (IEEE 1588-2019): its clock and its number. -/
structure PortId where
  clock : BitVec 64
  port  : BitVec 16
  deriving DecidableEq, Repr, Inhabited

/-- A PTP Announce as received on a port (R379): the sender, the data that the algorithm of clause 9.3 compares, the port of the
hub on which it came, and its interval. -/
structure Announce where
  sender    : PortId
  priority1 : BitVec 8
  clockClass : BitVec 8
  accuracy  : BitVec 8
  variance  : BitVec 16
  priority2 : BitVec 8
  grandmaster : BitVec 64
  steps     : Nat
  seq       : BitVec 16
  rxPort    : Fin 2
  logInterval : Int
  deriving DecidableEq, Repr, Inhabited

/-- Where a Delay_Resp comes from (R380): the port of the hub on which it came, its domain and its sender. -/
structure RespFrom where
  port   : Fin 2
  domain : Fin 2
  sender : PortId
  deriving DecidableEq, Repr, Inhabited

/-- A Sync or Follow_Up as received: sender, sequence, two-step flag, origin time and correction in ns. -/
structure SyncMsg where
  sender   : PortId
  seq      : BitVec 16
  twoStep  : Bool
  origin   : Nat
  correction : Int
  logInterval : Int
  deriving DecidableEq, Repr, Inhabited

/-- What auto-negotiation finds at the far end of a link (R395): the transmit amplitudes that the partner can use. -/
structure LinkPartner where
  at24 : Bool
  at10 : Bool
  deriving DecidableEq, Repr, Inhabited

/-- An Ethernet frame on an uplink port: its bytes after the preamble, FCS left out, and whether the FCS was good. -/
structure EthFrame where
  bytes  : List Byte
  fcsGood : Bool
  deriving DecidableEq, Repr, Inhabited

/-- How a two-wire read or write ends (R433–R437): with STOP or a repeated START after an acknowledge bit; with a repeated START in
place of one; by the nine-clock recovery of a controller that was reset; or not at all, the bus stopped at a bit of the next byte. -/
inductive TwEnd where
  | stop | repeatedStart | brokenAck | recovery
  | unfinished (bit : Fin 8)
  deriving DecidableEq, Repr, Inhabited

/-- What happens to an attention call on the bus (R441), and in ns how long after its start the bus is next free where it fails. -/
inductive CallOutcome where
  | acknowledged
  | notAcknowledged (freeNs : Nat)
  | lostArbitration (freeNs : Nat)
  deriving DecidableEq, Repr, Inhabited

/-- What the checks of a wake meet (R517, R519): the retention regions whose contents did not last, each with the signature that it
now gives (0 the pointer and 1 the milepost region of bank P, 2 and 3 those of bank Q, 4–16 the banks of FAILED bits 2–14), and what
the scrub of the control region meets. -/
structure WakeCheck where
  sigs  : List (Nat × Word)
  lines : List LineFinding
  deriving DecidableEq, Repr, Inhabited

/-- What retention banks P and Q hold in two copies (R328): the write pointer, a reader's cursor, its milepost counter, and the
completion-ring pointers. -/
inductive Twin where
  | write
  | cursor (r : Fin 11)
  | count (r : Fin 11)
  | ringFirst
  | ringLast
  deriving DecidableEq, Repr, Inhabited

/-- What was found since the last mark (R328, R330): pointers and counters of which one copy reads another value, with that value;
a pointer of the Footpath ring that was uncorrectable; and what the roll-up unit's reads and the copy of the ring met (R325, R333,
R357). -/
structure PointerCheck where
  struck : List (Twin × Word)
  ring     : Bool
  found    : List LineFinding
  deriving DecidableEq, Repr, Inhabited

/-- Measurements of a memory-die bank (R526): T_RET in ms scaled to 85 °C. -/
abbrev BankRet := Nat

/-! ### The commands -/

/-- One constructor per row of spec/opcode_table.json, in the table's order. -/
inductive Instr where
  | resetRelease (dt : Nat) (why : Release)
  | resetAssert (lowNs : Nat)
  | railBrownout (r : Rail) (mv : Nat) (belowNs : Nat)
  | clk25Stop (stoppedNs : Nat)
  | startUp (clkRanNs : Nat) (slacks : List Nat)
  | memoryDieInitDone (failing : List Nat)
  | rngHealthTest (pass : Bool)
  | strapScan (dt : Nat) (rs : List StrapReading)
  | strapHold (dt : Nat) (rs : List StrapReading)
  | mode0Burst (dt : Nat)
  | strapRescan (dt : Nat) (rs : List StrapReading)
  | liveStrapRead (dt : Nat) (r12 r13 r14 : StrapReading)
  | supplyTrip (mv : Nat) (belowNs : Nat)
  | supplyClear (mv : Nat) (aboveNs : Nat)
  | busRelease (dt : Nat)
  | imgrelRise (dt : Nat)
  | loadAttempt (dt : Nat) (src : Fin 2) (dev : FlashDev)
  | imageHoldRetry (dt : Nat)
  | islandReady (island : Fin 12) (ok : Bool)
  | reloadImage (c : Fin 6)
  | gridMark (chk : PointerCheck)
  | laybyEntryDone (dt : Nat) (chk : WakeCheck)
  | reportPeriod
  | inertialInstant (triads : List TriadReading)
  | triadFault (src : Fin 6) (code : Word)
  | triadFaultClear (dt : Nat) (src : Fin 6)
  | triadSettled (dt : Nat) (src : Fin 6)
  | feBlankAssert (dt : Nat)
  | feBlankRelease (dt : Nat)
  | blankGuardEnd (dt : Nat)
  | strapdownSample
  | calBlockEnd (dt : Nat) (ch : Fin 6)
  | calUpdate (ch : Fin 6)
  | recordPeriodEnd
  | waveRecordWrite
  | heaveStats
  | feCalStepDue (dt : Nat) (ch : Fin 32) (gain : Bool)
  | calRestore (c : Fin 6)
  | calRestoreTimeout (dt : Nat)
  | slam
  | crest
  | drop
  | capsize
  | tilt
  | drift
  | eventPass
  | feConversionStart (dt : Nat) (ch : Fin 32) (kind : ConvKind)
  | feConversionEnd (dt : Nat) (ch : Fin 32) (r : ConvResult)
  | feTrigEdge (dt : Nat)
  | complianceTrip (dt : Nat) (ch : Fin 32)
  | clampEvent (pin : Fin 48) (nanoamp : Nat)
  | roadStart (r : Fin 8)
  | markLaunch (r : Fin 8)
  | slotFrame (r : Fin 8) (pos : Fin 64) (rx : SlotRx)
  | echoFrame (r : Fin 8) (rx : UpRx)
  | enumReply (r : Fin 8) (rx : UpRx)
  | ackFrame (r : Fin 8) (before : Nat) (groups : List (BitVec 10)) (arrive after : Nat)
  | echoWindowEnd (r : Fin 8)
  | nodeLost (r : Fin 8) (pos : Fin 64)
  | delayCycleEnd (r : Fin 8)
  | packetOpen (req : OpenReq)
  | packetClose (tag : Word)
  | rewindTakeEffect (rd : Fin 11)
  | flushTakeEffect (rd : Fin 11)
  | scrub (findings : List LineFinding)
  | reductionRelease (job : Reads Nat)
  | reductionComplete (job : Nat)
  | spillPageCommit (stream : Reads (Fin 3))
  | spillDeviceFail (dev : Fin 4) (cause : Fin 5)
  | spillRollup
  | spillDiscoveryDone (devs : List SpillDev) (journal : List JournalEntry)
  | ptpAnnounce (domain : After (Fin 2)) (m : Announce)
  | ptpSync (dt : Nat) (domain : Fin 2) (m : SyncMsg)
  | ptpFollowUp (dt : Nat) (domain : Fin 2) (m : SyncMsg)
  | ptpDelayReq (dt : Nat) (domain : Fin 2)
  | ptpDelayResp (src : RespFrom) (seq : BitVec 16) (receiveTime : Nat) (correction : Int) (logInterval : Int)
  | announceReceiptTimeout (dt : Nat) (domain : Fin 2)
  | syncTimeout (dt : Nat) (domain : Fin 2)
  | ppsEdge (dt : Nat) (rising : Bool) (widthNs : Nat)
  | ppsTimeout (dt : Nat)
  | scheduledActionDue (dt : Nat) (index : Nat) (chk : Reads WakeCheck)
  | linkUp (port : After (Fin 2)) (partner : LinkPartner)
  | linkDown (port : Fin 2)
  | frameReceive (dt : Nat) (port : Fin 2) (f : EthFrame)
  | macAgeOut (dt : Nat) (index : Nat)
  | arpReceive (port : Fin 2) (f : EthFrame)
  | arpRetry (dt : Nat) (c : Fin 4)
  | arpRefresh (dt : Nat) (c : Fin 4)
  | icmpEcho (dt : Nat) (port : Fin 2) (f : EthFrame)
  | controlDatagram (port : Fin 2) (f : EthFrame)
  | streamDatagram (dt : Nat) (c : Fin 4) (findings : List LineFinding)
  | heartbeat (dt : Nat) (c : Fin 4)
  | hselFall (dt : Nat) (findings : List LineFinding)
  | hselRise (dt : Nat) (edges : Nat) (hsdi : List Bool)
  | twRead (dt : Nat) (addr : BitVec 7) (bytesRead : Nat) (ending : TwEnd) (findings : List LineFinding)
  | twWrite (dt : Nat) (addr : BitVec 7) (bytes : List Byte) (ending : TwEnd)
  | twStretchEnd (dt : Nat)
  | twRepeatedStart
  | twBusTimeout (dt : Nat)
  | fragmentTimeout (dt : Nat) (c : Fin 2)
  | attentionCall (dt : Nat) (out : CallOutcome)
  | attnRetry (dt : Nat) (out : CallOutcome)
  | twWakeMatch (dt : Nat) (addr : BitVec 7) (read : Bool) (chk : WakeCheck)
  | wakePadRise (dt : Nat) (highNs : Nat) (chk : WakeCheck)
  | wakePadFall (dt : Nat)
  | dropComparator (dt : Nat) (chk : WakeCheck)
  | capsizeComparator (dt : Nat) (chk : WakeCheck)
  | holdExpiry (dt : Nat)
  | messageAccept (c : Fin 6)
  | where_ (c : Fin 6)
  | ack (c : Fin 6)
  | rewind (c : Fin 6)
  | flush (c : Fin 6)
  | vote (c : Fin 6)
  | lockDecision
  | lockLeaseEnd (dt : Nat) (lock : Fin 8)
  | calRead (c : Fin 6)
  | identity (c : Fin 6)
  | marginRead (c : Fin 6)
  | serviceWindow (c : Fin 6)
  | serviceWindowEnd (dt : Nat)
  | ppsLabel (c : Fin 6)
  | launch (c : Reads (Fin 6))
  | pinSet (e : Fin 8)
  | pinOut (e : Fin 8)
  | pinIn (e : Fin 8)
  | pinPull (e : Fin 8)
  | pinPush (e : Fin 8)
  | pinWait (dt : Nat) (e : Fin 8)
  | pinJmp (e : Fin 8)
  | pinMov (e : Fin 8)
  | pinFlag (e : After (Fin 8))
  | pinStamp (dt : Nat) (e : Fin 8)
  | reservedOpHalt (e : Fin 8)
  | txhFill (e : Fin 8)
  | rxhDrain (e : Fin 8)
  | rxIdleClose (e : Fin 8)
  | slackMeasurement (slacks : List Nat)
  | retentionTest (tret : List BankRet)
  | memsResonanceTest (src : Fin 5) (resPpm : Int) (qTenths : Nat)
  | lifeHour (meanCaseC : Int) (dieMaxC : Int)
  | diagAddr (value : BitVec 16)
  | diagData
  | bypass
  | egressPortFree (port : After (Fin 2))
  | islandRunning (dt : Nat) (island : Fin 12)
  | padLevelChange (pad : Fin 16) (high : Bool)
  | spillPageReadback (dev : Fin 4) (symbols : List Nat) (eraseSlow : Bool) (eraseTime eraseCount : Nat)
  deriving DecidableEq, Repr, Inhabited

end Sys2Proof
end

