-- ==== Sys2Proof/Decode.lean ====
section
/-! DEFINITION. Words of the table. spec/opcode_table.json gives none of its rows a bit ("fields": []), so no word spells a
command: the table's rows are events and operations of the interface. The sixteen-bit words of the pin engines
(19_pin_engines.md R488) are data of the image, decoded where the engines run. -/

namespace Sys2Proof

/-- The command that a word spells by the table's bits: none, since the table gives no row any. -/
def decodeTableWord (_nbits _w : Nat) : Option Instr := none

end Sys2Proof
end

