-- ==== Sys2Proof/Machine/Bits.lean ====
section
/-! DEFINITION. Bit fields, byte order, wrapping comparison and list access: the plain notation of 00_scope.md R6, R7
and R9 that every other file of the machine uses. -/

namespace Sys2Proof.Machine

/-- Field [hi:lo] of a word, bits numbered from 0 at the least significant end (R6). -/
def fld (w : Word) (hi lo : Nat) : Nat := w.toNat / 2 ^ lo % 2 ^ (hi - lo + 1)

/-- Bit i of a number (R6). -/
def bitOf (n i : Nat) : Bool := n / 2 ^ i % 2 == 1

/-- One where the flag is set. -/
def b2n (b : Bool) : Nat := if b then 1 else 0

/-- A number as a 32-bit word; only its low 32 bits stay. -/
def word (n : Nat) : Word := BitVec.ofNat 32 n

/-- An integer as a 32-bit two's-complement word. -/
def wordI (i : Int) : Word := BitVec.ofInt 32 i

/-- A value v placed at bit lo of a word, as a number. -/
def at_ (v lo : Nat) : Nat := v * 2 ^ lo

/-- Saturation of a count at w bits. -/
def satN (w n : Nat) : Nat := min n (2 ^ w - 1)

/-- Saturation of a signed quantity at w bits. -/
def satI (w : Nat) (i : Int) : Int := max (-(2 ^ (w - 1) : Nat)) (min i ((2 ^ (w - 1) : Nat) - 1))

/-- a is later than b, as 32-bit wrapping quantities (R9). -/
def later32 (a b : Word) : Bool := decide (0 < (a - b).toInt)

/-- a is later than b, as 16-bit wrapping quantities (R9). -/
def later16 (a b : BitVec 16) : Bool := decide (0 < (a - b).toInt)

/-- Grid mark b is at or after grid mark a: indices of 48 bits, compared by signed difference (R9, R369). -/
def markLe (a b : Nat) : Bool := decide (0 ≤ (BitVec.ofNat 48 b - BitVec.ofNat 48 a).toInt)

/-- Grid mark b is later than grid mark a (R9, R369). -/
def markLt (a b : Nat) : Bool := decide (0 < (BitVec.ofNat 48 b - BitVec.ofNat 48 a).toInt)

/-- The difference a − b of two indices as a 40-bit signed number (R389). -/
def diff40 (a b : Nat) : Int := (BitVec.ofNat 40 a - BitVec.ofNat 40 b).toInt

/-- Element i of a list, or the default. -/
def nth {α : Type} [Inhabited α] (l : List α) (i : Nat) : α := l.getD i default

/-- The four bytes of a word, least significant first (R7). -/
def bytesOf (w : Word) : List Byte :=
  [BitVec.ofNat 8 w.toNat, BitVec.ofNat 8 (w.toNat / 2 ^ 8), BitVec.ofNat 8 (w.toNat / 2 ^ 16),
   BitVec.ofNat 8 (w.toNat / 2 ^ 24)]

/-- A number read from bytes, least significant first (R7). -/
def leNat : List Byte → Nat
  | [] => 0
  | b :: bs => b.toNat + 256 * leNat bs

/-- A number read from bytes, most significant first (network order, R7). -/
def beNat (bs : List Byte) : Nat := bs.foldl (fun n b => n * 256 + b.toNat) 0

/-- n bytes of a number, least significant first. -/
def leBytes : Nat → Nat → List Byte
  | 0, _ => []
  | k + 1, v => BitVec.ofNat 8 v :: leBytes k (v / 256)

/-- n bytes of a number, most significant first. -/
def beBytes (n v : Nat) : List Byte := (leBytes n v).reverse

/-- Words read from bytes, four at a time (R7); a last group of fewer bytes is dropped. -/
def wordsOf : List Byte → List Word
  | b0 :: b1 :: b2 :: b3 :: bs => word (leNat [b0, b1, b2, b3]) :: wordsOf bs
  | _ => []

/-- Bytes of a list of words (R7). -/
def bytesOfWords (ws : List Word) : List Byte := ws.flatMap bytesOf

/-- The bits of words on the clocked serial port: within a word the least significant byte first, within a byte the most
significant bit first (R427). -/
def serialBits (ws : List Word) : List Bool := (bytesOfWords ws).flatMap fun b => (List.range 8).map fun i => b.getLsbD (7 - i)

/-- A byte from its eight bits on the wire, most significant first (R427). -/
def serialByte (bs : List Bool) : Byte := BitVec.ofNat 8 (bs.foldl (fun n b => 2 * n + if b then 1 else 0) 0)

/-- The whole bytes of bits on the wire (R427). -/
def serialBytes : List Bool → List Byte
  | a :: b :: c :: d :: e :: f :: g :: h :: bs => serialByte [a, b, c, d, e, f, g, h] :: serialBytes bs
  | _ => []

/-- The whole words of bits on the wire (R427). -/
def serialWords (bs : List Bool) : List Word := wordsOf (serialBytes bs)

/-- A list cut into groups of n, with fuel; the last group may be shorter. -/
def chunksF {α : Type} (n : Nat) : Nat → List α → List (List α)
  | 0, _ => []
  | _ + 1, [] => []
  | f + 1, l => l.take n :: chunksF n f (l.drop n)

/-- A list cut into groups of n. -/
def chunks {α : Type} (n : Nat) (l : List α) : List (List α) := chunksF n l.length l

/-- The numbers below n whose bit is set in m. -/
def setBits (n m : Nat) : List Nat := (List.range n).filter fun i => bitOf m i

/-- The number whose set bits are the numbers of the list. -/
def maskOf (n : Nat) (f : Nat → Bool) : Nat := ((List.range n).map fun i => b2n (f i) * 2 ^ i).sum

/-- Division rounded up. -/
def ceilDiv (a b : Nat) : Nat := (a + b - 1) / b

/-- Integer division rounded to the nearest, ties away from zero. -/
def roundDiv (a : Int) (b : Nat) : Int :=
  if 0 ≤ a then (2 * a + b) / (2 * b) else -((2 * (-a) + b) / (2 * b))

/-- Padding of a word list with zeros to a multiple of n words. -/
def padTo (n : Nat) (ws : List Word) : List Word :=
  ws ++ List.replicate (ceilDiv ws.length n * n - ws.length) 0

/-- A 24-bit two's-complement value and a condition code as a sample word (R10). -/
def sampleWord (v : Int) (code : Nat) : Word := word ((BitVec.ofInt 24 v).toNat * 256 + code)

/-- The 24-bit value of a sample word (R10). -/
def sampleVal (w : Word) : Int := (BitVec.ofNat 24 (w.toNat / 256)).toInt

/-- The condition code of a sample word (R10). -/
def sampleCode (w : Word) : Nat := w.toNat % 256

/-- The bytes of section id, none where it is absent. -/
def rawSect (raw : List (Nat × List Byte)) (id : Nat) : List Byte :=
  match raw.find? (·.1 == id) with
  | some e => e.2
  | none => []

end Sys2Proof.Machine
end

