-- ==== Sys2Proof/Machine/Crypto.lean ====
section
/-! DEFINITION. The checks and algorithms that 03_route_image.md R80, 10_roads.md R270 and 18_secrecy.md R473 name:
CRC-32C, CRC-16, SHA-256 and HMAC (FIPS 180-4, FIPS 198-1), HKDF (RFC 5869), AES-256-GCM (FIPS 197, SP 800-38D) and
ECDSA and ECDH on P-256 (FIPS 186-5, SP 800-56A). The constants are those of the standards the rules cite, PRESUMED:
assumption-log row 7. -/

namespace Sys2Proof.Machine

/-! ### CRC -/

/-- One bit of a reflected CRC with polynomial p. -/
def crcBitsR : Nat → Nat → Nat → Nat
  | 0, _, c => c
  | k + 1, p, c => crcBitsR k p (if c % 2 = 1 then (c / 2) ^^^ p else c / 2)

/-- Bytes into a reflected CRC with polynomial p, from a state; it looks at the state before each byte, so that a long run of
bytes evaluates byte by byte. -/
def crcBytesR (p : Nat) : List Byte → Nat → Nat
  | [], c => c
  | b :: bs, 0 => crcBytesR p bs (crcBitsR 8 p b.toNat)
  | b :: bs, c + 1 => crcBytesR p bs (crcBitsR 8 p ((c + 1) ^^^ b.toNat))

/-- CRC-32C of bytes (R80): polynomial 0x1EDC6F41 reflected, initial value and final exclusive-OR all ones. -/
def crc32c (bs : List Byte) : Word := word (crcBytesR 0x82F63B78 bs 0xFFFFFFFF ^^^ 0xFFFFFFFF)

/-! ### SHA-256 and HMAC -/

/-- Round constants of SHA-256. -/
def sha256K : List Word :=
  [0x428a2f98, 0x71374491, 0xb5c0fbcf, 0xe9b5dba5, 0x3956c25b, 0x59f111f1, 0x923f82a4, 0xab1c5ed5] ++
  [0xd807aa98, 0x12835b01, 0x243185be, 0x550c7dc3, 0x72be5d74, 0x80deb1fe, 0x9bdc06a7, 0xc19bf174] ++
  [0xe49b69c1, 0xefbe4786, 0x0fc19dc6, 0x240ca1cc, 0x2de92c6f, 0x4a7484aa, 0x5cb0a9dc, 0x76f988da] ++
  [0x983e5152, 0xa831c66d, 0xb00327c8, 0xbf597fc7, 0xc6e00bf3, 0xd5a79147, 0x06ca6351, 0x14292967] ++
  [0x27b70a85, 0x2e1b2138, 0x4d2c6dfc, 0x53380d13, 0x650a7354, 0x766a0abb, 0x81c2c92e, 0x92722c85] ++
  [0xa2bfe8a1, 0xa81a664b, 0xc24b8b70, 0xc76c51a3, 0xd192e819, 0xd6990624, 0xf40e3585, 0x106aa070] ++
  [0x19a4c116, 0x1e376c08, 0x2748774c, 0x34b0bcb5, 0x391c0cb3, 0x4ed8aa4a, 0x5b9cca4f, 0x682e6ff3] ++
  [0x748f82ee, 0x78a5636f, 0x84c87814, 0x8cc70208, 0x90befffa, 0xa4506ceb, 0xbef9a3f7, 0xc67178f2]

/-- Initial hash value of SHA-256. -/
def sha256H : List Word :=
  [0x6a09e667, 0xbb67ae85, 0x3c6ef372, 0xa54ff53a, 0x510e527f, 0x9b05688c, 0x1f83d9ab, 0x5be0cd19]

/-- Rotation right. -/
def rotr (w : Word) (n : Nat) : Word := w.rotateRight n

/-- Message schedule: the newest sixteen words first, extended k times. -/
def shaExtend : Nat → List Word → List Word
  | 0, ws => ws
  | k + 1, ws =>
    let w15 := ws.getD 14 0
    let w2 := ws.getD 1 0
    let s0 := rotr w15 7 ^^^ rotr w15 18 ^^^ (w15 >>> 3)
    let s1 := rotr w2 17 ^^^ rotr w2 19 ^^^ (w2 >>> 10)
    shaExtend k ((ws.getD 15 0 + s0 + ws.getD 6 0 + s1) :: ws)

/-- One round of SHA-256. -/
def shaRound (st : List Word) (kw : Word × Word) : List Word :=
  match st with
  | [a, b, c, d, e, f, g, h] =>
    let s1 := rotr e 6 ^^^ rotr e 11 ^^^ rotr e 25
    let ch := (e &&& f) ^^^ (~~~e &&& g)
    let t1 := h + s1 + ch + kw.1 + kw.2
    let s0 := rotr a 2 ^^^ rotr a 13 ^^^ rotr a 22
    let mj := (a &&& b) ^^^ (a &&& c) ^^^ (b &&& c)
    [t1 + (s0 + mj), a, b, c, d + t1, e, f, g]
  | _ => st

/-- Words of a block, most significant byte first. -/
def beWords (bs : List Byte) : List Word := (chunks 4 bs).map fun g => word (beNat g)

/-- One block of SHA-256. -/
def shaBlock (h : List Word) (block : List Byte) : List Word :=
  let ws := (shaExtend 48 (beWords block).reverse).reverse
  let r := (sha256K.zip ws).foldl shaRound h
  List.zipWith (· + ·) h r

/-- Padding of FIPS 180-4. -/
def shaPad (bs : List Byte) : List Byte :=
  bs ++ [0x80] ++ List.replicate ((119 - bs.length % 64) % 64) 0 ++ beBytes 8 (bs.length * 8)

/-- SHA-256. -/
def sha256 (bs : List Byte) : List Byte :=
  ((chunks 64 (shaPad bs)).foldl shaBlock sha256H).flatMap fun w => beBytes 4 w.toNat

/-- HMAC-SHA-256. -/
def hmac (key msg : List Byte) : List Byte :=
  let k0 := if 64 < key.length then sha256 key else key
  let k := k0 ++ List.replicate (64 - k0.length) 0
  sha256 (k.map (· ^^^ 0x5C) ++ sha256 (k.map (· ^^^ 0x36) ++ msg))

/-- HKDF-SHA-256 with an output of 32 bytes. -/
def hkdf32 (ikm salt info : List Byte) : List Byte := hmac (hmac salt ikm) (info ++ [1])

/-! ### AES-256 and GCM -/

/-- Multiplication by x in the field of AES. -/
def xtime (a : Nat) : Nat := if 128 ≤ a then ((a * 2) ^^^ 0x11B) % 256 else a * 2

/-- Product in the field of AES, bit by bit of b. -/
def gfMulF : Nat → Nat → Nat → Nat
  | 0, _, _ => 0
  | k + 1, a, b => (if b % 2 = 1 then a else 0) ^^^ gfMulF k (xtime a) (b / 2)

/-- Product in the field of AES. -/
def gfMul (a b : Nat) : Nat := gfMulF 8 a b

/-- Inverse in the field of AES: the 254th power. -/
def gfInv (a : Nat) : Nat :=
  let a2 := gfMul a a
  let a4 := gfMul a2 a2
  let a8 := gfMul a4 a4
  let a16 := gfMul a8 a8
  let a32 := gfMul a16 a16
  let a64 := gfMul a32 a32
  let a128 := gfMul a64 a64
  gfMul a2 (gfMul a4 (gfMul a8 (gfMul a16 (gfMul a32 (gfMul a64 a128)))))

/-- Rotation of a byte to the left. -/
def rotl8 (a n : Nat) : Nat := (a * 2 ^ n) % 256 + a / 2 ^ (8 - n)

/-- S-box of AES. -/
def sbox (a : Nat) : Nat :=
  let i := gfInv a
  i ^^^ rotl8 i 1 ^^^ rotl8 i 2 ^^^ rotl8 i 3 ^^^ rotl8 i 4 ^^^ 0x63

/-- Exclusive-OR of two equally long lists of numbers. -/
def xorL (a b : List Nat) : List Nat := List.zipWith (· ^^^ ·) a b

/-- Key schedule of AES-256: words so far, newest first, with the round constant; i is the index of the next word. -/
def aesExpand : Nat → Nat → Nat → List (List Nat) → List (List Nat)
  | 0, _, _, ws => ws
  | k + 1, i, rc, ws =>
    let prev := ws.getD 0 []
    let w8 := ws.getD 7 []
    if i % 8 = 0 then
      let r := (prev.drop 1 ++ prev.take 1).map sbox
      let r := r.mapIdx fun j x => if j = 0 then x ^^^ rc else x
      aesExpand k (i + 1) (xtime rc) (xorL w8 r :: ws)
    else if i % 8 = 4 then aesExpand k (i + 1) rc (xorL w8 (prev.map sbox) :: ws)
    else aesExpand k (i + 1) rc (xorL w8 prev :: ws)

/-- Fifteen round keys of 16 bytes. -/
def aesKeys (key : List Byte) : List (List Nat) :=
  let ws := (aesExpand 52 8 1 (chunks 4 (key.map (·.toNat))).reverse).reverse
  (chunks 4 ws).map fun g => g.flatten

/-- ShiftRows on a column-major state. -/
def shiftRows (st : List Nat) : List Nat :=
  (List.range 16).map fun i => st.getD ((i + 4 * (i % 4)) % 16) 0

/-- MixColumns. -/
def mixColumns (st : List Nat) : List Nat :=
  (chunks 4 st).flatMap fun c =>
    let a := c.getD 0 0
    let b := c.getD 1 0
    let d := c.getD 2 0
    let e := c.getD 3 0
    [xtime a ^^^ (xtime b ^^^ b) ^^^ d ^^^ e, a ^^^ xtime b ^^^ (xtime d ^^^ d) ^^^ e,
     a ^^^ b ^^^ xtime d ^^^ (xtime e ^^^ e), (xtime a ^^^ a) ^^^ b ^^^ d ^^^ xtime e]

/-- AES-256 of one block. -/
def aesBlock (keys : List (List Nat)) (block : List Nat) : List Nat :=
  let st := xorL block (keys.getD 0 [])
  let st := (keys.drop 1).take 13 |>.foldl (fun st k => xorL (mixColumns (shiftRows (st.map sbox))) k) st
  xorL (shiftRows (st.map sbox)) (keys.getD 14 [])

/-- One step of GHASH's product, from the most significant bit of x down. -/
def ghashMulF : Nat → Nat → Nat → Nat → Nat
  | 0, _, _, z => z
  | k + 1, x, v, z =>
    let z := if x / 2 ^ k % 2 = 1 then z ^^^ v else z
    let v := if v % 2 = 1 then (v / 2) ^^^ (0xE1 * 2 ^ 120) else v / 2
    ghashMulF k x v z

/-- GHASH of whole blocks. -/
def ghash (h : Nat) (blocks : List (List Byte)) : Nat :=
  blocks.foldl (fun y b => ghashMulF 128 (y ^^^ beNat b) h 0) 0

/-- Bytes padded with zeros to whole blocks of 16. -/
def pad16 (bs : List Byte) : List Byte := bs ++ List.replicate ((16 - bs.length % 16) % 16) 0

/-- AES-256-GCM decryption with a 96-bit IV: the plaintext and the tag that the data gives. -/
def gcmDecrypt (key iv aad ct : List Byte) : List Byte × List Byte :=
  let ks := aesKeys key
  let enc (c : Nat) : List Nat := aesBlock ks ((iv ++ beBytes 4 c).map (·.toNat))
  let h := beNat ((aesBlock ks (List.replicate 16 0)).map (BitVec.ofNat 8))
  let stream := (List.range (ceilDiv ct.length 16)).flatMap fun i => enc (i + 2)
  let pt := List.zipWith (fun (c : Byte) k => c ^^^ BitVec.ofNat 8 k) ct stream
  let lens := beBytes 8 (aad.length * 8) ++ beBytes 8 (ct.length * 8)
  let s := ghash h (chunks 16 (pad16 aad ++ pad16 ct ++ lens))
  let tag := List.zipWith (fun (a : Byte) k => a ^^^ BitVec.ofNat 8 k) (beBytes 16 s) (enc 1)
  (pt, tag)

/-! ### P-256 -/

/-- The prime of the field of P-256. -/
def p256p : Nat := 0xffffffff00000001000000000000000000000000ffffffffffffffffffffffff
/-- The order of the base point of P-256. -/
def p256n : Nat := 0xffffffff00000000ffffffffffffffffbce6faada7179e84f3b9cac2fc632551
/-- The coefficient b of P-256. -/
def p256b : Nat := 0x5ac635d8aa3a93e7b3ebbd55769886bc651d06b0cc53b0f63bce3c3e27d2604b
/-- The base point of P-256. -/
def p256g : Nat × Nat :=
  (0x6b17d1f2e12c4247f8bce6e563a440f277037d812deb33a0f4a13945d898c296,
   0x4fe342e2fe1a7f9b8ee7eb4a7c0f9e162bce33576b315ececbb6406837bf51f5)

/-- Power modulo m, over k bits of the exponent. -/
def powModF : Nat → Nat → Nat → Nat → Nat
  | 0, _, _, _ => 1
  | k + 1, b, e, m =>
    let r := powModF k (b * b % m) (e / 2) m
    if e % 2 = 1 then r * b % m else r

/-- Inverse modulo a prime. -/
def invMod (a m : Nat) : Nat := powModF 256 (a % m) (m - 2) m

/-- Sum of two points; none is the point at infinity. -/
def ecAdd (a b : Option (Nat × Nat)) : Option (Nat × Nat) :=
  match a, b with
  | none, q => q
  | q, none => q
  | some (x1, y1), some (x2, y2) =>
    if x1 = x2 ∧ (y1 + y2) % p256p = 0 then none
    else
      let l :=
        if x1 = x2 then (3 * x1 * x1 + p256p - 3) * invMod (2 * y1) p256p % p256p
        else (y2 + p256p - y1) * invMod (x2 + p256p - x1) p256p % p256p
      let x3 := (l * l + 2 * p256p - x1 - x2) % p256p
      some (x3, (l * (x1 + p256p - x3) + p256p - y1) % p256p)

/-- Multiple of a point over k bits. -/
def ecMulF : Nat → Nat → Option (Nat × Nat) → Option (Nat × Nat)
  | 0, _, _ => none
  | k + 1, d, q =>
    let r := ecMulF k (d / 2) (ecAdd q q)
    if d % 2 = 1 then ecAdd q r else r

/-- Multiple of a point. -/
def ecMul (d : Nat) (q : Option (Nat × Nat)) : Option (Nat × Nat) := ecMulF 256 d q

/-- The coordinates name a point of P-256 other than the point at infinity. -/
def onCurve (x y : Nat) : Bool :=
  decide (x < p256p) && decide (y < p256p) && y * y % p256p == (x * x * x + (p256p - 3) * x + p256b) % p256p

/-- ECDSA verification with SHA-256. -/
def ecdsaVerify (x y r s : Nat) (msg : List Byte) : Bool :=
  if onCurve x y && decide (0 < r) && decide (r < p256n) && decide (0 < s) && decide (s < p256n) then
    let e := beNat (sha256 msg)
    let w := invMod s p256n
    match ecAdd (ecMul (e * w % p256n) (some p256g)) (ecMul (r * w % p256n) (some (x, y))) with
    | none => false
    | some (vx, _) => vx % p256n == r
  else false

/-- The x-coordinate of d × (x, y) as 32 bytes, most significant first (SP 800-56A). -/
def ecdhZ (d x y : Nat) : List Byte :=
  match ecMul d (some (x, y)) with
  | none => List.replicate 32 0
  | some (zx, _) => beBytes 32 zx

end Sys2Proof.Machine
end

