-- ==== Sys2Proof/Machine/F32.lean ====
section
/-! DEFINITION. IEEE 754 binary32 (00_scope.md R14) as exact arithmetic: values of words as integers in units of
2^−149, and rounding of an exact quotient or of the root of one to the nearest word, ties to even. The specification
names the format and not the rounding: assumption-log row 6. -/

namespace Sys2Proof.Machine

/-- The quiet NaN that the hub writes for a value without data (R351, R358). -/
def f32Nan : Word := 0x7FC00000

/-- The quiet NaN of an uncorrectable line (R326). -/
def f32Lost : Word := 0x7FC00041

/-- Biased exponent of a word. -/
def f32Exp (w : Word) : Nat := fld w 30 23
/-- Fraction field of a word. -/
def f32Frac (w : Word) : Nat := fld w 22 0
/-- The word is a NaN. -/
def f32IsNan (w : Word) : Bool := f32Exp w == 255 && f32Frac w != 0
/-- The word is a finite number. -/
def f32Finite (w : Word) : Bool := f32Exp w != 255

/-- Value of a finite word in units of 2^−149; an infinity counts as a number beyond every finite one. -/
def f32Int (w : Word) : Int :=
  let m : Nat := if f32Exp w = 0 then f32Frac w else (2 ^ 23 + f32Frac w) * 2 ^ (f32Exp w - 1)
  if w.msb then -(m : Int) else m

/-- a < b as numbers; false where one is a NaN. -/
def f32Lt (a b : Word) : Bool := !f32IsNan a && !f32IsNan b && decide (f32Int a < f32Int b)
/-- a ≤ b as numbers; false where one is a NaN. -/
def f32Le (a b : Word) : Bool := !f32IsNan a && !f32IsNan b && decide (f32Int a ≤ f32Int b)

/-- Quotient rounded to the nearest integer, ties to even. -/
def roundEven (a b : Nat) : Nat :=
  let q := a / b
  let r := a % b
  if 2 * r < b then q else if b < 2 * r then q + 1 else q + q % 2

/-- Word of a sign and a magnitude of m × 2^e with m at most 2^24 and e at least −149. -/
def f32Pack (neg : Bool) (m : Nat) (e : Int) : Word :=
  let (m, e) := if m = 2 ^ 24 then (2 ^ 23, e + 1) else (m, e)
  let s := at_ (b2n neg) 31
  if m < 2 ^ 23 then word (s + m)
  else if 104 < e then word (s + at_ 255 23)
  else word (s + at_ (e + 150).toNat 23 + (m - 2 ^ 23))

/-- Exponent e of a/b such that a / b = m × 2^e with 2^23 ≤ m < 2^24, not below −149. -/
def f32Scale (a b : Nat) : Int :=
  let d : Int := (a.log2 : Int) - b.log2
  let ge : Bool := if 0 ≤ d then b * 2 ^ d.toNat ≤ a else b ≤ a * 2 ^ (-d).toNat
  let e := if ge then d else d - 1
  max (e - 23) (-149)

/-- The word nearest to n / d, ties to even. -/
def f32OfRat (n : Int) (d : Nat) : Word :=
  if n = 0 ∨ d = 0 then 0
  else
    let a := n.natAbs
    let e := f32Scale a d
    let m := if 0 ≤ e then roundEven a (d * 2 ^ e.toNat) else roundEven (a * 2 ^ (-e).toNat) d
    f32Pack (decide (n < 0)) m e

/-- One step of the bitwise square root: bits from b down, root so far r. -/
def isqrtF : Nat → Nat → Nat → Nat
  | 0, _, r => r
  | b + 1, n, r => if (r + 2 ^ b) * (r + 2 ^ b) ≤ n then isqrtF b n (r + 2 ^ b) else isqrtF b n r

/-- Integer square root, rounded down. -/
def isqrt (n : Nat) : Nat := isqrtF (n.log2 / 2 + 1) n 0

/-- The word nearest to the square root of n / d, from 60 bits of the root. -/
def f32OfSqrt (n d : Nat) : Word :=
  if n = 0 ∨ d = 0 then 0
  else
    let k := 120 + 2 * (d.log2 + 1)
    f32OfRat (isqrt (n * 2 ^ k / d) : Int) (2 ^ (k / 2))

/-- Product of two finite words, rounded once. -/
def f32Mul (a b : Word) : Word := f32OfRat (f32Int a * f32Int b) (2 ^ 298)

/-- Sum of two finite words, rounded once. -/
def f32Add (a b : Word) : Word := f32OfRat (f32Int a + f32Int b) (2 ^ 149)

/-- Negation of a word. -/
def f32Neg (a : Word) : Word := a ^^^ 0x80000000

/-- Magnitude of a word. -/
def f32Abs (a : Word) : Word := a &&& 0x7FFFFFFF

/-- An integer as binary32. -/
def f32OfInt (i : Int) : Word := f32OfRat i 1

/-- A finite word times k / d, rounded to the nearest integer, ties away from zero. -/
def f32ToInt (w : Word) (k d : Nat) : Int := roundDiv (f32Int w * k) (2 ^ 149 * d)

end Sys2Proof.Machine
end

