-- ==== Sys2Proof/Machine/Flags.lean ====
section
/-! DEFINITION. The flag computations of the formats: the ranking of condition codes (00_scope.md R11, R12), the codes
a roll-up uses (13_placement.md R356), the backlog band (12_causeway.md R318) and the STATUS bits of a response
(16_host_serial.md R420). -/

namespace Sys2Proof.Machine

/-- Rank of a condition code in the order of R12: the lower the number the higher it ranks. -/
def codeRank (c : Nat) : Nat :=
  if c = 0x41 then 1 else if c = 0x50 then 2 else if c = 0x30 then 3 else if c = 0x20 then 4 else if c = 0x22 then 5
  else if c = 0x21 then 6 else if c = 0x23 then 7 else if c = 0x31 then 8 else if c = 0x10 then 9
  else if c = 0x11 then 10 else if c = 0x40 then 11 else if 1 ≤ c ∧ c ≤ 6 then 12 else 13

/-- Of two codes that apply to one sample, the one that ranks higher (R12). -/
def worse (a b : Nat) : Nat := if codeRank b < codeRank a then b else a

/-- The single code of a sample to which every code of the list applies (R12). -/
def worstCode (cs : List Nat) : Nat := cs.foldl worse 0

/-- The code where a condition holds, normal otherwise. -/
def codeIf (b : Bool) (c : Nat) : Nat := if b then c else 0

/-- A condition code that R11 defines. -/
def codeDefined (c : Nat) : Bool :=
  [0x00, 0x01, 0x02, 0x03, 0x04, 0x05, 0x06, 0x10, 0x11, 0x20, 0x21, 0x22, 0x23, 0x30, 0x31, 0x40, 0x41, 0x50].contains c

/-- A word with this code is used in a roll-up or a reduction (R356). -/
def codeUsed (c : Nat) : Bool := c ≤ 6 || c == 0x10 || c == 0x23 || c == 0x40

/-- Backlog band of a count of lines, with the cursor in spill or not (R318). -/
def bandOf (backlog : Nat) (inSpill : Bool) : Nat :=
  if inSpill then 3
  else if backlog = 0 then 0
  else if backlog ≤ 4095 then 1
  else if backlog ≤ 1048575 then 2
  else 3

/-- STATUS of a response header line (R420). -/
def statusBits (rejected data inBusy outMsg asleep footpath : Bool) (band : Nat) : Nat :=
  at_ (b2n rejected) 7 + at_ (b2n data) 6 + at_ (b2n inBusy) 5 + at_ (b2n outMsg) 4 + at_ (b2n asleep) 3 +
    at_ (b2n footpath) 2 + band % 4

/-- COUNT of a roll-up interval (R358). -/
def countWord (used excl : Nat) (lost robust late beyond : Bool) : Word :=
  word (at_ (satN 14 used) 18 + at_ (satN 14 excl) 4 + at_ (b2n lost) 3 + at_ (b2n robust) 2 + at_ (b2n late) 1 +
    b2n beyond)

end Sys2Proof.Machine
end

