-- ==== Sys2Proof/Config.lean ====
section
/-! DEFINITION. What one device or one implementation fixes and the specification does not: constants and functions
with no body that anything can evaluate. A claim that holds of the model holds whatever their values are.
Assumption-log rows 3 (device values), 4 (free values), 5 (numeric functions). -/

namespace Sys2Proof.Config

/-! ### Per-device values (00_scope.md R3–R5, 18_secrecy.md R474) -/

/-- The serial number less one: R4 forbids 0 and all ones, so the serial is this value plus one. -/
opaque serialPred : Fin (18446744073709551613 + 1)
/-- The serial number of this hub (R4): never 0 and never all ones. -/
def serial : BitVec 64 := BitVec.ofNat 64 (serialPred.val + 1)
/-- Device public key, X coordinate (R3 PUBX). -/
opaque pubX : BitVec 256
/-- Device public key, Y coordinate (R3 PUBY). -/
opaque pubY : BitVec 256
/-- Device private key (R474). -/
opaque privKey : Nat
/-- Device secret of 256 bits (R474). -/
opaque deviceSecret : BitVec 256
/-- How the calibration key of R155 is derived from the device secret is not stated (R474). -/
opaque calKeyOf : BitVec 256 → List Byte
/-- Voltage point of each island set at final test (21_ageing.md R528). -/
opaque finalTestPoint : Nat → Fin 16
/-- Island voltage in mV at a voltage point (R532 VDD_MV): the table of points is not given. -/
opaque pointMillivolt : Nat → Nat → BitVec 16

/-! ### Free values: one per counter reading (assumption-log row 4) -/

/-- A free 32-bit value, fresh for each reading of the counter. -/
opaque freeWord : Nat → Word
/-- A free choice, fresh for each reading of the counter. -/
opaque freeBool : Nat → Bool
/-- A free integer, fresh for each reading of the counter. -/
opaque freeInt : Nat → Int
/-- A free natural number, fresh for each reading of the counter. -/
opaque freeNat : Nat → Nat
/-- What a read meets whose command brings no findings (12_causeway.md R325). -/
opaque freeFindings : Nat → List LineFinding
/-- A draw of the random source (18_secrecy.md R479). -/
opaque randomWord : Nat → Word

/-! ### Numeric functions whose arithmetic the specification leaves open (assumption-log row 5) -/

/-- Coefficient k of the factory cubic in die temperature that stage 1 takes from the reading of an axis (R106), in units
of 2^−96 LSB of the source; the temperature is in units of 0.01 °C. Per device. -/
opaque tempBias : (src axis k : Nat) → Int
/-- Coefficient k of the factory cubic in die temperature that stage 1 multiplies the reading of an axis by (R106), in units
of 2^−96. Per device. -/
opaque tempScale : (src axis k : Nat) → Int
/-- Element of the factory alignment matrix of a triad (R107), in units of 2^−96. Per device. -/
opaque alignment : (src row col : Nat) → Int
/-- Weight of stage 4 (R109) for templates other than 0 and 5, and of the internal chains of R160 (templates 12 and 13), at j
instants from the reference instant, in units of 2^−96. The responses are linear-phase, so that one weight stands for both
sides; the weights are not stated. -/
opaque tap : (template rate j : Nat) → Int
/-- The strapdown solution (R160–R162): which output (0 roll, 1 pitch, 2 heading, 3 heave, 4 surge, 5 sway; 6, 7, 8 velocity
along the level frame's X, Y and down, R131; 9, 10, 11 the statistics of DRIFT, R177), the reference grid mark and the
recent inputs, newest first. -/
opaque strapdown : (which mark : Nat) → (inputs : List (List Int)) → Word
/-- σ of one block mean against the reference (R136), in the unit of the channel's biases times 2^96: the rules do not give
the weight of a block against the prior. -/
opaque blockSigma : (ch : Nat) → Int
/-- σ of term k of a front-end channel after the accepted steps (R144, R146), newest first, and with the prior σ of
a restore where there was one (R158): how it is formed is not stated. -/
opaque stepSigma : (term : Nat) → (steps : List (List Word)) → (prior : List Word) → Word
/-- C2 of a front-end channel (R144): the reference ratio against its factory history, per device. -/
opaque refHistory : (steps : List (List Word)) → Word
/-- The tilt of a mean specific force of 0, to which arccos(−f̄Z / |f̄|) gives no value (R177). -/
opaque noTilt : Word
/-- RESIDUAL of an accelerometer channel of which no bias is observed (R137): not stated. -/
opaque calResidual : (ch : Nat) → (sigma : List Word) → Nat
/-- Real functions on binary32 whose rounding is not stated: which function, and its arguments. -/
opaque realFn : (which : Nat) → (args : List Word) → Word
/-- What stands for a quotient or a logarithm that has no value (R229, R252): divisor or argument 0 or negative. -/
opaque overZero : (argument : Int) → Int
/-- The value of an assigned channel that has no word yet, or none without a fault code (R253). -/
opaque noWord : (ch mark : Nat) → Int
/-- The sample value of a curve whose y or OUT_LSB is no finite number, or whose OUT_LSB is 0 (R252). -/
opaque noCount : (y lsb : Word) → Int
/-- Weight of an intermediate sample of a filter window (R237), which lies so far from the nearer end of the window: the weighting
is fixed and symmetric and not stated. In units of 2^−96. -/
opaque firWeight : (win fromEnd : Nat) → Int
/-- Factory ratio of two gains (R223, R225) in units of 2^−96. Per device. -/
opaque gainRatio : (before after : Nat) → Int
/-- Factory ratio of a gain step (R144): source 0 for the internal reference, in units of 2^−96 V. Per device. -/
opaque factoryRatio : (source gain : Nat) → Int
/-- The value of a source, in A or V for one volt of its gain step (R144, R218), in units of 2^−96. Per device. -/
opaque refPath : (source gain : Nat) → Int
/-- The value of a source before its first gain step, for its nominal value (R218), in units of 2^−96 A or V. Per device. -/
opaque sourceValue : (source : Nat) → (nominal : Int) → Int
/-- The rate correction that the slew law of R373 asks for: present rate and offset (ns). -/
opaque slewRate : (rate offset : Int) → Int
/-- The rate a PTP domain's clock takes to follow its master (R381): present rate and offset (ns). -/
opaque ptpSlew : (rate offset : Int) → Int
/-- The signature of a retention bank (R517): the spec gives no formula. -/
opaque retentionSignature : (bank mark : Nat) → Word
/-- Where page k lies on each device of the stripe set, and where the journal entry of a SEQ lies: spec/13_placement.md R361 and
R363 give no address (assumption-log row 85). -/
opaque spillAddr : Nat → Nat
opaque journalAddr : Nat → Nat

end Sys2Proof.Config
end

