-- ==== Sys2Proof/Machine/Image.lean ====
section
/-! DEFINITION. A route image as the islands hold it once it is prepared: every section of 03_route_image.md R76 as
plain data, field by field as the chapters' tables name them. The bytes of each section stay beside their parsed form,
because R201, R261, R283 and R499 ask whether a section changed. -/

namespace Sys2Proof.Machine

/-- Header of an image (R74). -/
structure Header where
  nsect : Nat
  enc : Bool
  signed : Bool
  totalLen : Nat
  rollback : Nat
  imageId : Word
  minStep : Nat
  minRom : Nat
  target : BitVec 64
  deriving DecidableEq, Repr, Inhabited

/-- Section-table entry (R75). -/
structure SectEntry where
  id : Nat
  ver : Nat
  offset : Nat
  length : Nat
  crc : Word
  deriving DecidableEq, Repr, Inhabited

/-- Stream entry of section 0x02 (R119). -/
structure Stream where
  source : Nat
  axes : Nat
  template : Nat
  rate : Nat
  view : Nat
  pktSamples : Nat
  fp : Bool
  credit : Nat
  deriving DecidableEq, Repr, Inhabited

/-- The calibration block of section 0x02 (R153). -/
structure CalBlock where
  enable : Nat
  lat : Word
  height : Word
  field : Word
  decl : Word
  accTau : Nat
  magTau : Nat
  gyrWin : Nat
  feOffPer : Nat
  feGainPer : Nat
  hvMin : Nat
  hvMax : Nat
  hvStart : Nat
  hvUp : Nat
  hvDown : Nat
  deriving DecidableEq, Repr, Inhabited

/-- Section 0x02 (R118). -/
structure Inertial where
  streams : List Stream
  blankGuard : Nat
  magBlank : Bool
  cal : CalBlock
  deriving DecidableEq, Repr, Inhabited

/-- A recipe of section 0x03 (R233), with its fingerprint RFP. -/
structure Recipe where
  ch : Nat
  view : Nat
  lead : Nat
  auto : Bool
  gain : Nat
  gainMin : Nat
  rate : Nat
  pinP : Nat
  pinN : Nat
  exaPin : Nat
  exbPin : Nat
  retPin : Nat
  exaSrc : Nat
  exbSrc : Nat
  istep : Nat
  acf : Nat
  pre : Nat
  vexMv : Nat
  biasPin : Nat
  ibias : Nat
  grd0 : Nat
  grd1 : Nat
  retVb : Bool
  vexLoad : Nat
  discharge : Nat
  curve : Nat
  refch1 : Nat
  refch2 : Nat
  param : Word
  outLsb : Word
  cmLo : Nat
  cmHi : Nat
  ow : Bool
  blank : Bool
  basic : Bool
  pktSamples : Nat
  credit : Nat
  rfp : Word
  deriving DecidableEq, Repr, Inhabited

/-- A scan entry (R243). -/
structure ScanEntry where
  ch : Nat
  mod : Nat
  win : Nat
  phase : Nat
  xsettle : Nat
  nocal : Bool
  trigOnly : Bool
  deriving DecidableEq, Repr, Inhabited

/-- Section 0x03 (R232, R242). -/
structure FrontEnd where
  vbiasMv : Nat
  recipes : List Recipe
  scan : List ScanEntry
  fblankGuard : Nat
  injMax : Nat
  trigMask : Word
  injCredit : Nat
  deriving DecidableEq, Repr, Inhabited

/-- Channel entry of section 0x04 (R282). -/
structure ChanEntry where
  ch : Nat
  rate : Nat
  mode : Nat
  phase : Nat
  pktSamples : Nat
  view : Nat
  credit : Nat
  deriving DecidableEq, Repr, Inhabited

/-- Node entry of section 0x04 (R282). -/
structure NodeEntry where
  pos : Nat
  uid : BitVec 64
  maker : Nat
  model : Nat
  mpay : List Byte
  mlen : Nat
  chans : List ChanEntry
  deriving DecidableEq, Repr, Inhabited

/-- Road entry of section 0x04 (R281). -/
structure RoadEntry where
  road : Nat
  strict : Bool
  nodes : List NodeEntry
  deriving DecidableEq, Repr, Inhabited

/-- Motion entry of section 0x05 (R183). -/
structure MotionEntry where
  kind : Nat
  view : Nat
  pktSamples : Nat
  credit : Nat
  deriving DecidableEq, Repr, Inhabited

/-- Reduction entry of section 0x05 (R348). -/
structure RedEntry where
  kind : Nat
  op : Nat
  view : Nat
  insrc : Word
  period : Nat
  deadline : Nat
  scale : Word
  credit : Nat
  deriving DecidableEq, Repr, Inhabited

/-- Section 0x05 (R183). -/
structure Products where
  motion : List MotionEntry
  red : List RedEntry
  deriving DecidableEq, Repr, Inhabited

/-- Recogniser entry of section 0x06 (R185): words 2–7 as they stand. -/
structure Recog where
  view : Nat
  en : Bool
  hold : Nat
  w : List Word
  deriving DecidableEq, Repr, Inhabited

/-- Engine entry of section 0x07 (R203). -/
structure WmEngine where
  engine : Nat
  nstate : Nat
  init : Nat
  transBase : Nat
  view : Nat
  fp : Bool
  initVote : Nat
  deriving DecidableEq, Repr, Inhabited

/-- Transition entry of section 0x07 (R204). -/
structure WmTrans where
  next : Nat
  logic : Nat
  used : Bool
  condA : Nat
  condB : Nat
  actN : Nat
  actFirst : Nat
  deriving DecidableEq, Repr, Inhabited

/-- Section 0x07 (R203): conditions and actions as their two words (R194, R197). -/
structure Waymarks where
  engines : List WmEngine
  trans : List WmTrans
  conds : List (Word × Word)
  acts : List (Word × Word)
  flagsInit : Word
  evCredit : Nat
  deriving DecidableEq, Repr, Inhabited

/-- Engine entry of section 0x08 (R503). -/
structure PinEng where
  engine : Nat
  start : Nat
  wrapBottom : Nat
  wrapTop : Nat
  group : Nat
  divInt : Nat
  divFrac : Nat
  outBase : Nat
  outCount : Nat
  setBase : Nat
  setCount : Nat
  inBase : Nat
  sensePad : Nat
  outRight : Bool
  inRight : Bool
  view : Nat
  rxMax : Nat
  rxIdle : Nat
  rxWords : Nat
  rxPkts : Nat
  credit : Nat
  deriving DecidableEq, Repr, Inhabited

/-- Section 0x08 (R503). -/
structure Pins where
  pinDir : BitVec 16
  pinLevel : BitVec 16
  pullEn : BitVec 16
  pullUp : BitVec 16
  store : List (BitVec 16)
  engines : List PinEng
  phrases : List (Nat × List Word)
  deriving DecidableEq, Repr, Inhabited

/-- Client entry of section 0x09 (R405). -/
structure ClientEntry where
  addr : Word
  port : Nat
  role : Nat
  slotted : Bool
  viewset : Nat
  window : Nat
  rate : Nat
  deriving DecidableEq, Repr, Inhabited

/-- Launch entry of section 0x09 (R407). -/
structure LaunchEntry where
  used : Bool
  tb : Nat
  port : Nat
  client : Nat
  host : Bool
  periodic : Bool
  maxDgram : Nat
  periodMs : Nat
  phaseUs : Nat
  deriving DecidableEq, Repr, Inhabited

/-- The time block of section 0x09 with its defaults applied (R387). -/
structure TimeBlock where
  n0Domain : Nat
  n1Domain : Nat
  n0Transport : Nat
  n1Transport : Nat
  ppsFalling : Bool
  tc : Bool
  lockNs : Nat
  unlockUs : Nat
  stepUs : Nat
  deriving DecidableEq, Repr, Inhabited

/-- The network block of section 0x09 with its defaults applied (R404). -/
structure NetBlock where
  mac : List Byte
  ipaddr : Word
  prefixLen : Nat
  gateway : Word
  streamPort : Nat
  ctrlPort : Nat
  heartbeat : Nat
  deriving DecidableEq, Repr, Inhabited

/-- Section 0x09 (R387, R404, R405, R407, R438, R466). -/
structure ClientTable where
  vsetRole : List Nat
  time : TimeBlock
  net : NetBlock
  clients : List ClientEntry
  launches : List LaunchEntry
  attnAddr : Nat
  attnRetry : Nat
  attnTries : Nat
  causeMask : Nat
  defined : List Nat
  vsets : List (List Nat)
  deriving DecidableEq, Repr, Inhabited

/-- Plan entry of section 0x0B (R342): view classes and jobs as the numbers whose bit is set. -/
structure Plan where
  plan : Nat
  laneRoads : Nat
  laneSpill : Nat
  run : List Nat
  laneRun : List Nat
  masks : List (List Nat)
  deriving DecidableEq, Repr, Inhabited

/-- A curve table of section 0x0C (R254). -/
structure CurveTab where
  curve : Nat
  ch : Nat
  vals : List Word
  deriving DecidableEq, Repr, Inhabited

/-- A committed or staged image. -/
structure Image where
  hdr : Header
  raw : List (Nat × List Byte)
  masks : List Nat
  inertial : Inertial
  fe : Option FrontEnd
  roads : List RoadEntry
  products : Products
  recogs : List Recog
  wm : Option Waymarks
  pins : Option Pins
  clients : ClientTable
  age1 : Nat
  classmap : List Nat
  modemask : Nat
  plans : List Plan
  curves : List CurveTab
  kcmd : Option (List Byte)
  keyHash : Option (List Byte)
  credit15 : Nat
  deriving DecidableEq, Repr, Inhabited

end Sys2Proof.Machine
end

