-- ==== Sys2Proof/Machine/State.lean ====
section
/-! DEFINITION. Everything the specification gives the hub to remember, as plain data, and its value after reset. Each
field's comment ends with the rule that names it and its reset value; "model" marks a field that is the model's own.
Register reset values that the rules do not give are zero or empty: assumption-log row 1. -/

namespace Sys2Proof.Machine

/-- The four modes, and what holds before the first mode is decided (R505, R512). -/
inductive Mode where
  | highway | lane | footpath | layby
  deriving DecidableEq, Repr, Inhabited

/-- How far start-up has come (R522, R523). -/
inductive Phase where
  | inReset    -- RESET_N low, a rail out of range, or CLK25 stopped
  | clkWait    -- t = 0 has passed; CLK25 must run for 1 ms
  | starting   -- step 1 done: strap scan, random source tests, memory die initialisation
  | running    -- the first image has committed (m0)
  deriving DecidableEq, Repr, Inhabited

/-- What a step can stop with. -/
inductive Fault where
  | illFormed  -- raised by a meaning whose operands name no event of the interface (WellFormed): safe, nothing is claimed of such a term
  deriving DecidableEq, Repr

/-- Refusals: a command without a meaning. -/
inductive Refusal where
  | notModelled (mnemonic : String)  -- raised by Dispatch alone, for a command not modelled yet: safe
  deriving DecidableEq, Repr

/-! ### Packets and readers (12_causeway.md) -/

/-- A packet in the Causeway, in spill or in the ring. -/
structure Packet where
  typ : Nat            -- TYPE (R306)
  tag : Word           -- SRCTAG (R305)
  mark : Nat           -- grid mark of the first instant; its low 32 bits are header word3 (R305)
  words : List Word    -- payload from word 4 on (R305)
  gap : Bool           -- GAP flag (R307)
  subst : Bool         -- SUBST flag (R307)
  late : Bool          -- LATE flag (R307)
  producer : Nat       -- producer number (R341)
  start : Nat          -- first line in the die (R304)
  lines : Nat          -- lines held (R304, R308)
  gmp : Nat            -- global milepost, 0 while open (R308)
  mps : List (Nat × Word)  -- reader mileposts taken at close (R314)
  inCw : Bool          -- its lines still hold it (R310)
  page : Option Nat    -- SEQ of the page that committed it to spill (R362)
  lost : Nat           -- GAP cause once it is held nowhere (R336); 0 while held
  held : Bool          -- covered by a held region (R198)
  klass : Nat          -- retention class (R353, R354)
  bad : List Nat       -- its lines found uncorrectable (R326)
  want : Nat           -- payload words its stream plans (R308, R122)
  rate : Nat           -- rate code of its channel, k + 6 for 2^k S/s (R119); 0 where it holds no samples
  badWords : List Nat  -- words found uncorrectable in the ring (R330)
  deriving DecidableEq, Repr, Inhabited

/-- A reader record waiting at a cursor (R316, R336): product kind and words 4–7. -/
structure Ins where
  kind : Nat
  w4 : Word
  w5 : Word
  w6 : Word
  w7 : Word
  mark : Nat
  deriving DecidableEq, Repr, Inhabited

/-- The DISCONTINUITY with cause 0x03 that waits in TW's delivery (R333): the milepost at which it stands, the record, and
the milepost at which delivery goes on after it. -/
structure Jump where
  pos : Word
  ins : Ins
  dest : Word
  deriving DecidableEq, Repr, Inhabited

/-- TW's Causeway cursor during a stay in Footpath (R332): its milepost, the lines delivered of that packet, LAST of its GAP
record, the records that stand further on, and the counter before entry. -/
structure CwCursor where
  next : Word
  part : Option Word       -- milepost of a packet whose delivery has begun (R323)
  lineOff : Nat
  gapTo : Option Word
  jumps : List Jump
  skip : Option (Word × Word)
  count : Word
  deriving DecidableEq, Repr, Inhabited

/-- What stands at a reader's cursor. -/
inductive Item where
  | ins (i : Ins)                       -- a reader record that waits (R316)
  | gap (first last : Word) (cause : Nat)  -- a GAP that the cursor meets (R321)
  | pkt (p : Packet) (mp : Word)        -- the next packet
  | jump (j : Jump)                     -- the DISCONTINUITY before the ring copies (R333)
  | nothing
  deriving DecidableEq, Repr, Inhabited

/-- A pending request of a reader (R319, R320, R323): a rewind's milepost or none for a flush, its client and CMP. -/
structure PendReq where
  rewindTo : Option Word
  client : Nat
  cmp : BitVec 16
  deriving DecidableEq, Repr, Inhabited

/-- A reader (R313, R314). -/
structure Reader where
  count : Word             -- milepost counter, last milepost given (R314); reset 0
  next : Word              -- cursor: milepost of the packet to deliver next (R314); reset 1
  part : Option Word       -- milepost of a packet whose delivery has begun (R323, R423); reset none
  lineOff : Nat            -- lines already delivered of it, or of the record at the cursor (R423, R429); reset 0
  delivered : Word         -- last milepost delivered (R460); reset 0
  acked : Word             -- last milepost acknowledged (R461); reset 0
  peak : Nat               -- peak backlog since it was read (R318); reset 0
  inserts : List Ins       -- reader records waiting at the cursor (R316); reset empty
  pend : Option PendReq    -- pending rewind or flush (R323); reset none
  gapTo : Option Word      -- LAST of the GAP record delivered (R321); reset none
  lastKnown : Word         -- LAST_KNOWN (R315); reset 0
  jumps : List Jump        -- TW: ring copies that wait further on (R333); reset empty
  skip : Option (Word × Word)  -- TW: ring copies that it had received in Footpath, the first and one past the last (R333); reset none
  saved : Option CwCursor  -- TW in Footpath: its Causeway cursor (R332); reset none
  deriving DecidableEq, Repr, Inhabited

/-- A credit account (R311). -/
structure Account where
  balance : Nat      -- in 1/4096 line (R311: 1.25 × CREDIT / 1024 lines a mark); reset 0
  credit : Nat       -- CREDIT of the producer (R86); reset 0
  largest : Nat      -- largest packet in lines (R311); reset 0
  beyond : Nat         -- lines in overdraft in this 600 s period (R312); reset 0
  deriving DecidableEq, Repr, Inhabited

/-- Statistics of one axis over one interval (R356, R358). -/
structure AxisStat where
  used : Nat           -- words used
  excl : Nat           -- words excluded
  sum : Int            -- of the used values
  sq : Int             -- sum of their squares
  least : Int          -- smallest
  most : Int           -- largest
  lost : Bool          -- an excluded word carried 0x41
  robust : Bool        -- a used word carried 0x02 or 0x05
  late : Bool          -- a used word carried 0x40
  beyond : Bool          -- a used word carried 0x23
  deriving DecidableEq, Repr, Inhabited

/-- A roll-up accumulator (R357): the intervals taken, oldest first, each with its number and one entry per axis. -/
structure RollAcc where
  tag : Word
  rate : Nat           -- rate code of the raw channel
  axes : Nat
  klass : Nat          -- retention class of the raw packets
  first : Nat          -- grid mark of the first word taken
  last : Nat           -- grid mark of the last word taken
  pkts : Nat           -- raw packets that gave words
  cells : List (Nat × List AxisStat)
  deriving DecidableEq, Repr, Inhabited

/-- The Causeway, the completion ring and the Footpath ring. -/
structure Causeway where
  wptr : Nat               -- write pointer, a line of banks 0–23 (R310, R328); reset 0
  opens : List Packet      -- open packets (R308); reset empty
  closed : List Packet     -- closed packets in close order, held or lost (R308, R309); reset empty
  gmp : Nat                -- global milepost of the newest close, 64 bits (R308); reset 0
  readers : List Reader    -- readers 0–10 (R313); reset eleven readers at zero
  ring : List Packet       -- Footpath ring, oldest first (R330); reset empty
  ringLost : Nat           -- ring packets overwritten unread in Footpath (R339 code 0x08); reset 0
  accounts : List Account  -- producers 0–15 (R311, R341); reset sixteen empty accounts
  overdraft : Nat          -- OVERDRAFT of CAUSEWAY-REPORT (R341); reset 0
  uncorr : Nat             -- UNCORR of CAUSEWAY-REPORT (R341); reset 0
  corr : List Nat          -- corrected count of banks 0–31 (R325); reset zeros
  uncorr24 : List (List Nat)  -- marks of uncorrectable lines in the last 24 h, per bank (R327); reset empty
  retired : List Nat       -- retired banks (R327, R530); reset empty
  dieRetired : Bool        -- the memory die is retired (R327); reset false
  lostDue : Option (Nat × Nat)  -- overwritten before spill and not yet reported: oldest global milepost, count (R310); reset none
  resetDue : Nat           -- cause of the Causeway's clearing that the next mark brings, 0 none (R328); reset 0
  rollq : List Packet      -- class 3 packets overwritten, for the roll-up unit (R357); reset empty
  roll3 : List RollAcc     -- class 3 roll-up accumulators, least recently used first (R357); reset empty
  badLines : List Nat      -- lines found uncorrectable and not rewritten since (R326); reset empty
  preM0 : List Packet      -- records made before the first commit, written at m0 (R99); reset empty
  other : List (Twin × Word)  -- pointers and counters whose copy in bank P or Q differs from the one that runs, with its value (R328); reset empty
  deriving DecidableEq, Repr, Inhabited

/-! ### Spill and reduction (13_placement.md) -/

/-- What the hub puts on an xSPI port, transfer by transfer (R91, R92, R94, R95): frequencies in kHz. -/
inductive BusOp where
  | exitCont                               -- the continuous-read exit sequence of JESD216
  | resetPair (octal : Bool)               -- 0x66, 0x99 in 8D-8D-8D or in 1S-1S-1S form
  | wait (us : Nat)
  | sfdp (khz cmd addrBytes dummy : Nat)   -- SFDP and its Basic Flash Parameter Table, 1S-1S-1S
  | enterOctal                             -- the sequence that SFDP lists for 8D-8D-8D mode
  | readOctal (khz cmd dummy : Nat)        -- reading in 8D-8D-8D
  | readSingle (khz cmd addrBytes : Nat)   -- reading in 1S-1S-1S
  | float                                  -- every pad of the port to high impedance
  deriving DecidableEq, Repr, Inhabited

/-- The commands of a transfer descriptor (R365, R367); their codes are those that a device's SFDP gives. -/
inductive PortCmd where
  | program | status | read | erase
  deriving DecidableEq, Repr, Inhabited

/-- A transfer descriptor of the spill port (R367). -/
structure Desc where
  dev : Nat
  cmd : PortCmd
  addr : Nat
  len : Nat           -- bytes
  share : Option (Nat × Nat)  -- page lines that it moves: every D-th one, from this one on (R361)
  data : List Word    -- words that it writes to the journal (R363, R364)
  word : Bool         -- WORD: the select is released between 32-bit words
  cont : Bool         -- CONT: the select stays asserted into the next descriptor
  deriving DecidableEq, Repr, Inhabited

/-- A spill device (R361, R366, R532). -/
structure SpillUnit where
  state : Nat         -- 0 in the stripe set, 1 removed, 2 not fitted (R532); reset 2
  density : Nat       -- density found, bytes (R361); reset 0
  blockPages : Nat    -- pages whose lines a block of it holds (R530); reset 0
  retiredBlocks : Nat -- RETIRED (R532); reset 0
  spare : Nat         -- SPARE blocks left (R532); reset 0
  eraseTime : Nat     -- mean erase time, 0.1 ms (R526, R532); reset 0
  eraseCount : Nat    -- mean erase count per block (R526, R532); reset 0
  reads : List (Nat × Nat × Nat)  -- mark, lines and corrected symbols of the readbacks of 24 h (R526, R532); reset empty
  ops : List BusOp    -- what discovery put on its select at the last start (R91, R92, R361); reset empty
  deriving DecidableEq, Repr, Inhabited

/-- A committed page (R363, R364). -/
structure Page where
  seq : Nat
  page : Nat
  stream : Nat
  devmask : Nat
  npkt : Nat
  first : Option (Nat × Nat)  -- global milepost and mark of the first packet that starts in it
  tail : Option Nat           -- global milepost of the packet that goes on into a later page (R362)
  checkpoint : List Word
  deriving DecidableEq, Repr, Inhabited

/-- The spill pager and its roll-up unit. -/
structure Spill where
  done : Bool              -- discovery and journal recovery complete (R523, R365); reset false
  devs : List SpillUnit    -- SPL_SEL0–3 (R361); reset not fitted
  lostPages : Nat          -- usable pages lost to retired blocks (R530); reset 0
  pages : List Page        -- pages in committed use, ascending SEQ (R365); reset empty
  carry : List (Option (Nat × Nat))  -- per stream, the packet that goes on into the next page and its lines stored (R362); reset three none
  seq : Nat                -- SEQ of the last page committed (R363); reset 0
  check : List Word        -- values of the last checkpoint, readers 0–10 (R364); reset zeros
  nextPage : Nat           -- next page index of the circle (R533); reset 0
  fault : Bool             -- a device was removed since the reset: fault bit 5 (R366); reset false
  stages : List Bool       -- roll-up stages 1–3 active (R355); reset false
  descs : List Desc        -- descriptors that the pager's last action had the port execute, in order (R367); reset empty
  sel : Option Nat         -- select that CONT holds asserted (R367); reset none
  selects : List (Nat × Nat)  -- how the selects were asserted for these descriptors: device and bytes moved each time (R367); reset empty
  density : Nat            -- density used on every device, bytes (R361); reset 0
  drive : Bool             -- the hub drives the port's pads (R361); reset false
  used : List Nat          -- pages programmed since their block was erased (R365); reset empty
  alarm : Bool             -- STORE-FULL alarm: fault bit 3 (R355); reset false
  stalled : Bool           -- pager stalled at F = 100 % (R355); reset false
  laneRun : Bool           -- the pager is running in Lane (R361); reset false
  accs : List RollAcc      -- class 0, 1 and 2 roll-up accumulators, least recently used first (R357); reset empty
  deriving DecidableEq, Repr, Inhabited

/-- A released instance of a reduction job (R349). -/
structure JobInst where
  job : Nat
  entry : RedEntry         -- the plan it was released under (R350)
  first : Nat              -- first mark of its period
  release : Nat            -- release mark
  deadline : Nat           -- release mark plus DEADLINE
  core : Nat               -- job core that runs it, 1–7; 0 while it waits
  deriving DecidableEq, Repr, Inhabited

/-- The instance is on a job core (R349). -/
def JobInst.running (i : JobInst) : Bool := i.core != 0

/-- The reduction cores (R349). -/
structure Reduce where
  insts : List JobInst     -- released instances (R349); reset empty
  next : List (Nat × Nat)  -- first mark of each running job's next period (R350); reset empty
  deriving DecidableEq, Repr, Inhabited

/-! ### Time (14_time.md) -/

/-- The state of a PTP domain's clock (R381, R393). -/
inductive NState where
  | noSource | acquiring | locked | holdover
  deriving DecidableEq, Repr, Inhabited

/-- A foreign master (R379; clause 9.3 of IEEE 1588-2019): a sender of Announce messages. -/
structure Foreign where
  newest : Announce        -- its newest Announce
  heard : List Nat         -- CLK25 times of its Announces in the window of qualification, ps, newest first
  deriving DecidableEq, Repr, Inhabited

/-- One PTP domain and its time base TB-Nx. -/
structure Ptp where
  st : NState              -- state (R381); reset no source
  acc : Nat                -- TB-Nx in 10^-24 s (R369); reset 0
  rate : Int               -- rate correction, 10^-12 (R381); reset 0
  master : Option PortId   -- the selected master (R379); reset none
  grand : BitVec 64        -- identity of its grandmaster (R381); reset 0
  foreign : List Foreign   -- foreign masters heard (R379); reset empty
  offset : Int             -- last offsetFromMaster, ns (R393); reset 0
  good : Nat               -- consecutive Syncs within LOCK_NS (R381); reset 0
  badRun : Nat             -- consecutive Syncs beyond UNLOCK_US (R381); reset 0
  lastSync : Nat           -- CLK25 time of the last Sync, ps (R381); reset 0
  syncIv : Int             -- logSyncInterval in use (R379); reset 0
  lastAnn : Nat            -- CLK25 time of the last Announce, ps (R381); reset 0
  annIv : Int              -- logAnnounceInterval in use (R379); reset 0
  twoStep : Option (BitVec 16 × Nat × Int)  -- Sync that waits for its Follow_Up: sequence, t2 and correction (R379); reset none
  msDiff : Int             -- last t2 − t1 − correction, ns; model; reset 0
  delaySeq : BitVec 16     -- sequence of the last Delay_Req (R379); reset 0
  t3 : List (Option Nat)   -- its egress time on TB-Nx at UPA and UPB, ns (R380); reset two none
  pathDelay : Int          -- mean path delay, ns (R379); reset 0
  delayIv : Int            -- logMinDelayReqInterval in use (R379); reset 0
  rateHist : List Int      -- rate corrections of the last marks while locked (R378, R381); reset empty
  deriving DecidableEq, Repr, Inhabited

/-- PPS capture (R384–R386). -/
structure Pps where
  st : Nat                 -- PPSSTATE: 0 no edges, 1 acquiring, 2 locked, 3 locked and labelled (R393); reset 0
  count : BitVec 16        -- edge count (R384); reset 0
  last : Nat               -- CLK25 time of the last edge, ps (R385); reset 0
  run : Nat                -- edges in the run (R385); reset 0
  falling : Bool           -- the edge captured (R384); reset false
  err : Int                -- PPS_ERR, ns (R393); reset 0
  label : Option (Nat × BitVec 16) -- applied label: second and the edge it names (R386); reset none
  pendLabels : List (Nat × BitVec 16 × Nat × BitVec 16)  -- second, edge, client, CMP of labels that wait for an edge (R386); reset empty
  deriving DecidableEq, Repr, Inhabited

/-- A source of TB-G (R377, R393 GSRC). -/
inductive GSrc where
  | n0 | n1 | pps
  deriving DecidableEq, Repr, Inhabited

/-- A scheduled action (R390): a launch of a launch entry. -/
structure Action where
  tb : Nat                 -- 0 TB-N0, 1 TB-N1, 2 TB-G
  t : Nat                  -- instant in ns on that time base, full form
  entry : Nat              -- launch entry
  periodic : Bool          -- one of the entry's own sequence (R416)
  stepped : Bool           -- a step of its time base passed its instant (R391)
  alarm : Bool             -- it has raised a TIME alarm (R392, R508)
  deriving DecidableEq, Repr, Inhabited

/-- The TIME island's clocks. -/
structure Time where
  ps : Nat                 -- CLK25 time since power-on, ps (R369); reset 0
  lBase : Nat              -- CLK25 time at the last release of RESET_N, from which TB-L counts (R369); reset 0
  gIdx : Nat               -- TB-G grid marks counted on past 48 bits; the low 48 bits are the grid-mark index (R369, R371); reset 0
  gAcc : Nat               -- time since that mark in 10^-24 s of TB-G (R369, R371); reset 0
  gRate : Int              -- rate correction of TB-G, 10^-12 (R371, R373); reset 0
  gSrc : Option GSrc       -- source that disciplines TB-G (R377); reset none
  gOffset : Int            -- TB-G minus its source at the last measurement, ns (R393); reset 0
  holdFrom : Nat           -- CLK25 time at which holdover began, ps (R393 HOLD_S); reset 0
  rates : List Int         -- rate corrections at the last marks under a source, newest first (R378); reset empty
  refused : List GSrc      -- sources refused because TB-G leads them (R376); reset empty
  stepDue : Option (Nat × Nat)  -- index of the first mark after a step due at the next mark and its distance, 10^-24 s (R374); reset none
  prevIdx : Option Nat     -- last index issued before a step not yet reported (R393); reset none
  issued : Nat             -- grid marks issued, for counts of marks (R375); reset 0
  n : List Ptp             -- TB-N0 and TB-N1 (R369); reset two domains without source
  pps : Pps                -- PPS source (R384); reset without edges
  acts : List Action       -- scheduled actions, at most 32 (R390); reset empty
  deriving DecidableEq, Repr, Inhabited

/-! ### Straps, supplies, fuses, image port (02, 03, 18, 22) -/

/-- Fuses (R67, R87, R475). -/
structure Fuses where
  keyHash : Option (List Byte)  -- Keeper key hash (R475); reset none
  sealBlown : Bool         -- seal fuse blown (R67); reset false
  rollback : Nat           -- fused rollback count, 0–64 (R87); reset 0
  deriving DecidableEq, Repr, Inhabited

/-- Straps (R35–R72). -/
structure Straps where
  codes : List Nat         -- codes in force of STRAP0–15 (R42, R44, R46); reset zeros
  accepted : Bool          -- the reset-time set is accepted (R40); reset false
  prev : Option (List (Option Nat))  -- codes of the scan before, none where invalid (R40); reset none
  firstScan : Option Nat   -- CLK25 time of the first scan, ps (R41); reset none
  hold : Bool              -- strap hold (R41); reset false
  holdFrom : Nat           -- CLK25 time at which hold began, ps (R41); reset 0
  holdTime : Nat           -- time spent in hold, 100 ms units (R71 HOLD); reset 0
  failed : Nat             -- lowest-numbered failed strap of the latest scan (R41); reset 0
  pulses : Nat             -- pulses of the burst in progress (R41); reset 0
  invalid : BitVec 16      -- INVALID of the accepted set (R46, R71); reset 0
  readings : List (BitVec 16)  -- raw readings of the last scan or triple (R37, R71); reset zeros
  rescan : List (Option Nat)   -- result of the last rescan of STRAP0–11 and STRAP15 (R43); reset empty
  liveRun : Option (List Nat × Nat)  -- latest triple and how often it agreed (R44); reset none
  livePend : Option (List Nat)       -- triple to commit at the next grid mark (R44); reset none
  refused : List (List Nat)          -- triples refused and recorded (R69); reset empty
  tripped : Bool           -- supply comparator tripped: fault bit 0 (R57); reset false
  deriving DecidableEq, Repr, Inhabited

/-- An image load in progress (R85–R89). -/
structure Load where
  trigger : Nat            -- TRIGGER of R99
  src : Nat                -- source being read or prepared
  tried : Nat              -- sources of the order already tried (R82)
  reply : Option (Nat × BitVec 16)  -- client and CMP of a RELOAD-IMAGE (R98)
  staged : Option Image    -- validated image that the islands prepare (R89)
  ready : List Nat         -- islands that have reported ready (R89)
  commit : Option Nat      -- commit mark m once named (R89)
  deriving DecidableEq, Repr, Inhabited

/-- The image port and the loader. -/
structure ImagePort where
  rel : Bool               -- IMGREL_N high (R95); reset true (50 kΩ pull-up, R535)
  riseAt : Option Nat      -- CLK25 time of the last rise while its 1 ms runs, ps (R96); reset none
  drive : Bool             -- the hub drives the image bus (R95, R97); reset false
  ckKhz : Nat              -- IMG_CK in use, kHz (R60, R92); reset 0, no clock
  ops : List BusOp         -- what the hub has put on the bus since the last attempt began (R91, R92, R94, R95); reset empty
  octal : Bool             -- 8D-8D-8D reading selected (R92); reset false
  cont : Bool              -- continuous read entered (R94); reset false
  window : List (Option Nat)  -- block held by each half of the prefetch buffer (R94); reset two empty
  load : Option Load       -- load in progress (R89, R98); reset none
  hold : Bool              -- image hold (R83); reset false
  lastEnd : Nat            -- CLK25 time at which the last attempt ended, ps (R83); reset 0
  inForce : Option Image   -- image in force (R89); reset none
  before : Option Image    -- image in force before it (R20); reset none
  since : Nat              -- mark from which the image in force holds (R20); reset 0
  deriving DecidableEq, Repr, Inhabited

/-! ### Inertial, calibration, motion products, recognisers (04, 05, 06) -/

/-- A stage 3 sample of a source as the stream chains see it. -/
structure Inp where
  v : List Int             -- X, Y, Z in LSB of the source
  code : Nat               -- source-triad code of the vector (R100, R115)
  ok : Bool                -- running, settled and not faulted (R117, R126)
  blank : Bool             -- blanked (R125)
  beyond : Bool              -- beyond the rated range (R127)
  deriving DecidableEq, Repr, Inhabited

/-- A triad's readout (R100, R117, R126). -/
structure Triad where
  powered : Bool           -- R128; reset false
  settled : Bool           -- R126; reset false
  fault : Bool             -- readout fault present (R117); reset false
  temp : Int               -- die temperature as filtered, 0.01 °C in units of 2^−96 (R106); reset 0
  measured : Bool          -- it has been measured since the triad was powered (R106); reset false
  resPpm : Int             -- resonance or drive frequency against factory, ppm (R526, R532); reset 0
  qTenths : Nat            -- Q in 0.1 % of factory (R532); reset 1000
  moved : Bool             -- R530 calibration weighting in force; reset false
  resSettled : Int         -- resonance at the channel's last settled update (R530); reset 0
  deriving DecidableEq, Repr, Inhabited

/-- What a stream keeps between instants (R110, R125, R126). -/
structure StreamSt where
  num : Nat                -- stream number (R119)
  entry : Stream           -- its entry, kept while its last windows close (R20)
  since : Nat              -- instant from which the stream exists, moved on by the instants that a step of TB-G skips (R126, R375); reset 0
  first : Nat              -- first reference instant it writes (R126, R375); reset 0
  ends : Option Nat        -- first instant that a commit or a mode change took from it (R20, R128); reset none
  lastGood : List Word     -- last output of each axis that did not carry 0x30 (R125); reset empty
  deriving DecidableEq, Repr, Inhabited

/-- A calibration channel (R147, R151, R155). -/
structure CalCh where
  st : Nat                 -- state 0 cold, 1 converging, 2 settled, 3 disturbed (R147); reset 0
  terms : List Word        -- C0–C8 in force (R155); reset zeros
  was : List Word          -- C0–C8 in force before the mark since (R107, R150); reset zeros
  since : Nat              -- mark at which terms came into force (R107, R150); reset 0
  sigma : List Word        -- S0–S8 (R155); reset zeros
  prior : List Word        -- prior mean of C0–C8 (R136, R158); reset factory terms, zeros
  priorSigma : List Word   -- prior σ where a restore gave one (R158); reset empty
  unobs : BitVec 9         -- UNOBS (R151); reset 0
  residual : Nat           -- RESIDUAL (R152); reset 0xFFFF
  updates : Nat            -- UPDATES (R151); reset 0
  accepted : Nat           -- accepted in this period (R151); reset 0
  discarded : Nat          -- discarded in this period (R151); reset 0
  total : Nat              -- accepted since cold (R147); reset 0
  blocks : List (List Int)  -- accepted blocks, newest first: end mark, mean, heading, roll, pitch (R131, R136); reset empty
  steps : List (List Word) -- FE: accepted samples, newest first, 1 for gain in front of each (R144); reset empty
  est : List Word          -- FE: weighted means of offset and gain, and C2, in force or not (R144); reset factory terms
  next : List (Nat × List Word × List Word)  -- marks, terms and σ that come into force (R150); reset empty
  lowRun : Nat             -- consecutive updates at or below the settle limit (R147); reset 0
  offRun : Nat             -- consecutive updates with the same discrepancy, out of cold (R147); reset 0
  wasSettled : Bool        -- restored from settled (R158); reset false
  gainOk : Bool            -- FE: a gain step has been accepted (R147); reset false
  updAt : Nat              -- mark of the last 600 s update (R129); reset 0
  skipAt : Option Nat      -- commit mark of a restore: an update that falls due there is discarded (R158); reset none
  deriving DecidableEq, Repr, Inhabited

/-- A staged calibration restore (R157). -/
structure Restore where
  client : Nat
  words : List Word        -- record words staged, in order
  frags : Nat              -- fragments staged
  last : Nat               -- CLK25 time of the last fragment, ps
  verified : Bool          -- the whole record verified; islands prepare (R158)
  ready : List Nat         -- islands that prepared it (R158)
  commit : Option Nat      -- commit mark (R158)
  cmp : BitVec 16          -- CMP of the last fragment
  acc : Nat                -- its ACC (R455)
  deriving DecidableEq, Repr, Inhabited

/-- A 60 s block: the sums of R131, in module-frame axes and units of 2^−96 LSB, and what R132 asks of it. -/
structure BlockNote where
  start : Nat              -- first mark
  n : List Nat             -- inputs summed, per triad
  sums : List (List Int)   -- sums of the inputs before sea calibration, turned into the attitude at the first instant
  rot : List (List Int)    -- rotation since the first instant, from GYR-L, in units of 2^−96
  mid : List (List Int)    -- the same up to the midpoint
  event : Bool             -- SLAM, DROP or CAPSIZE event, or CAPSIZE active
  beyond : List Bool         -- ACC-A and GYR-L overload
  fault : List Bool        -- readout fault, per triad
  blanked : Nat            -- MAG inputs blanked
  inputs : Nat             -- MAG inputs
  taken : List Nat         -- channels that have formed their sums of it
  whole : Bool             -- the block was complete
  deriving DecidableEq, Repr, Inhabited

/-- The INERTIAL island and the calibration. -/
structure Motion where
  triads : List Triad      -- sources 0–5 (R100); reset six unpowered
  last : Option Nat        -- newest instant sampled (R104); reset none
  instant : Nat            -- instants since grid mark 0, 8 per mark (R122); reset 0
  robust : List Bool       -- ACC-F and GYR-F take the robust triad (R113, R114); reset false
  dwell : List Nat         -- consecutive instants that allow the return (R114); reset 0
  hist : List (List Inp)   -- inputs of sources 0–7, newest first (R105); reset empty
  streams : List StreamSt  -- streams of section 0x02 (R119); reset empty
  cal : List CalCh         -- 39 channels, CALCH 0–6 and 0x20–0x3F (R155); reset cold
  restore : Option Restore -- the one restore held (R157); reset none
  calSnaps : List (Nat × BitVec 16)  -- clients whose CAL-READ waits for its snapshot (R156); reset empty
  block : BlockNote        -- the block in progress (R132); reset nothing noted
  blockDone : BlockNote    -- the block that ended last (R132); reset nothing noted
  corner : Nat             -- heave corner index in force (R142, R143); reset 4 (HV_START default, R153)
  cornerNext : Option Nat  -- corner that takes effect with the next record (R143); reset none
  downRun : Nat            -- consecutive records below HV_DOWN (R143); reset 0
  steady : Nat             -- consecutive records without a corner step (R147); reset 0
  coverage : Nat           -- MAG heading coverage in degrees (R141); reset 0
  magLast : List Int       -- last uncorrected module-frame reading of MAG that was not blanked, LSB in units of 2^−96 (R125, R131); reset zeros
  dpsi : Int               -- heading uncertainty that MAG reports, rad in units of 2^−96 (R140); reset π
  deriving DecidableEq, Repr, Inhabited

/-- A record period whose displacement values are complete (R168, R172). -/
structure RecDone where
  first : Nat              -- its first grid mark
  disp : List (List Word)  -- heave, surge, sway, an impairment mark and magnetic heading of each instant, oldest first
  atts : List (List Word)  -- roll, pitch, true and magnetic heading of each instant, oldest first
  broken : Bool            -- it contains an entry into or exit from Footpath (R186)
  corner : Nat             -- heave corner index (R143)
  par : List Word          -- LAT and DECL at its first mark (R187)
  pstat : Word             -- flags gathered (R166)
  imp : Nat                -- impaired input instants (R167)
  ended : Bool             -- R143 has been applied
  waveDone : Bool          -- its wave record was written or is not due
  statsDone : Bool         -- its heave statistics were written
  deriving DecidableEq, Repr, Inhabited

/-- A motion product entry at work (R183, R187): from which mark its packets may start, and the first mark a commit took
from it. -/
structure ProdEntry where
  entry : MotionEntry
  since : Nat
  ends : Option Nat
  deriving DecidableEq, Repr, Inhabited

/-- The motion products (R160–R173). -/
structure Prod where
  inputs : List (List Int) -- recent strapdown inputs, newest first (R160); reset empty
  inFlags : List Word      -- the PSTAT flags of those inputs, newest first (R166); reset empty
  decls : List (Nat × Word) -- DECL and the mark from which it holds, newest first (R161, R187); reset empty
  lastIn : Option Nat      -- mark of the newest input (R160); reset none
  att : List Word          -- last attitude value: roll, pitch, true and magnetic heading (R161); reset zeros
  lastDisp : Option (Nat × List Word)  -- last displacement value and its mark (R163); reset none
  disp : List (List Word)  -- displacement values of the record, newest first (R162); reset empty
  atts : List (Nat × List Word)  -- attitude values with their marks, newest first (R131, R168, R173); reset empty
  recFirst : Option Nat    -- first mark of the record period in progress (R168); reset none
  breaks : List Nat        -- marks of recent entries into and exits from Footpath (R186); reset empty
  recCorner : Nat          -- its corner (R143); reset 4
  recPar : List Word       -- LAT and DECL at its first mark (R187); reset zeros
  nextPar : List Word      -- LAT and DECL at the first mark of the newest record period (R187); reset zeros
  recPstat : Word          -- PSTAT gathered for it (R166); reset 0
  recImp : Nat             -- impaired input instants in it (R167); reset 0
  recDone : Option RecDone -- the period that ended last (R172); reset none
  entries : List ProdEntry -- product entries at work (R183, R187); reset empty
  lastHm0 : Option Word    -- Hm0 of the last valid wave record (R177); reset none
  deriving DecidableEq, Repr, Inhabited

/-- A recogniser (R174–R182). -/
structure RecSt where
  active : Bool            -- condition active (R175); reset false
  onRun : Nat              -- consecutive instants, updates or windows towards the onset (R177); reset 0
  offRun : Nat             -- the same towards the end (R177); reset 0
  seq : Nat                -- SEQ (R179); reset 0
  suppressed : Nat         -- SUPPRESSED (R176); reset 0
  lastWritten : Option Nat -- mark of the last written onset or single event (R176); reset none
  written : Bool           -- the onset of the active condition was written (R176); reset false
  onsetAt : Nat            -- instant of the onset, in 122.07 µs instants (R180); reset 0
  peak : Int               -- peak or lowest magnitude so far, LSB squared (R180); reset 0
  peakAt : Nat             -- its instant (R180); reset 0
  peakW : List Word        -- sample words at the peak (R180); reset empty
  wave : List Word         -- CREST: heave values since the opening up-crossing (R177); reset empty
  prevHeave : Word         -- CREST: the value before (R177); reset 0
  seenAt : Option Nat      -- instant, mark or window last evaluated; model; reset none
  deriving DecidableEq, Repr, Inhabited

/-! ### Waymark engines (07) -/

/-- A waymark engine (R188, R191). -/
structure WmSt where
  st : Nat                 -- state (R188); reset 0
  timer : Nat              -- count of marks issued at the state timer's start (R191, R375); reset 0
  vote : Nat               -- vote (R506); reset 0
  seq : Nat                -- SEQ of its event packets (R206); reset 0
  skipped : Nat            -- SKIPPED (R206); reset 0
  emitMark : Option Nat    -- mark of its last EMIT (R199); reset none
  deriving DecidableEq, Repr, Inhabited

/-- A held region (R198). -/
structure Region where
  view : Nat
  first : Nat
  last : Nat
  deriving DecidableEq, Repr, Inhabited

/-- The WAYMARK island. -/
structure Way where
  eng : List WmSt          -- W0–W15 (R188); reset sixteen at state 0
  flags : Word             -- F0–F31 (R192); reset 0
  regions : List Region    -- held regions, at most 16 of them open; closed ones for packets opened later (R198); reset empty
  evq : List (List Word)   -- events waiting to be offered: words 4–7, the active conditions after them and the mark (R181, R190, R194); reset empty
  carried : Nat            -- events offered in this mark (R190); reset 0
  notOffered : Nat         -- events that found 64 waiting (R190); reset 0
  planSel : Option Nat     -- plan selected by a pass, in force from the next mark (R64); reset none
  plan : Option Nat        -- plan in force (R64); reset none
  recs : List RecSt        -- recognisers 0–5 (R174); reset six inactive
  lastProd : List (Option (List Word))  -- words of the last packet written of kinds 0x01–0x04 (R195); reset none
  deriving DecidableEq, Repr, Inhabited

/-! ### Front end (08, 09) -/

/-- A conversion in progress (R237, R241). -/
structure Conv where
  kind : ConvKind
  start : Nat              -- CLK25 time at which its occupancy began, ps
  pos : Nat                -- TB-G position at which its occupancy began, in 10^-24 s from mark 0 (R236)
  len : Nat                -- its occupancy in 10^-24 s (R237)
  refMark : Nat            -- grid mark of its reference instant (R16, R238)
  refOff : Nat             -- its distance after that mark in 10^-24 s of TB-G
  trig : Nat               -- trigger time, ps (R250)
  src : Nat                -- 1 FE_TRIG, 2 INJECT (R251)
  engine : Nat             -- waymark engine of an INJECT (R251)
  late : Bool              -- R250
  blanked : Bool           -- R258
  tripped : Bool           -- R255
  clamped : Bool           -- R231
  recipe : Recipe          -- the recipe it runs under (R20, R261)
  scan : ScanEntry
  gain : Nat               -- gain code in force at its start (R223)
  held : List Int          -- precharge levels of the two buses at its first conversion, nV (R213)
  srcs : List Int          -- measured values of EXA_SRC and EXB_SRC in A or V, units of 2^-96 (R218)
  coef : List Word         -- coefficients of its curve in the image it began under (R20, R254)
  lat : Word               -- LAT of that image (R252)
  refs : List (Nat × Word) -- assigned channels that its curve uses, with their RFP (R20, R253)
  stale : Bool             -- a commit has come since it began (R228, R261)
  dropped : Bool           -- its reference instant belongs to another plan or to no running one (R20, R260, R261)
  deriving DecidableEq, Repr, Inhabited

/-- What the windows of a conversion give (R225, R256, R257). -/
structure Meas where
  volts : List Int         -- voltage of each window, units of 2^-96 V, before calibration
  sense : List Int         -- voltage across the sense resistor of each window (R220)
  gain : Nat               -- gain code in force at the end (R224)
  steps : Nat              -- gain steps in the windows (R225)
  above : Bool             -- a sample exceeded FS at a gain that could not step down (R257)
  cm : Bool                -- the common mode, or an input, left its range (R256)
  low : Bool               -- below FS / 8 at the gain in force (R227)
  bus : List (List Int)    -- mean voltages of the two buses over each window, nV (R213)
  last : List Int          -- voltages of the two buses at the last clock, nV (R216)
  deriving DecidableEq, Repr, Inhabited

/-- A word of a front-end channel as curves and blanked words use it (R253, R258). -/
structure FeWord where
  pos : Nat                -- TB-G position of its reference instant, in 10^-24 s from mark 0
  rfp : Word               -- fingerprint of its recipe
  word : Word              -- the sample word
  y : Word                 -- its value in the output unit
  p : Option Word          -- sea pressure of curve 41
  deriving DecidableEq, Repr, Inhabited

/-- A conversion that has ended and whose word waits for an assigned channel's (R253). -/
structure FeWait where
  ch : Nat
  conv : Conv
  meas : Meas
  ow : Bool                -- the channel is flagged open wire at this output (R255)
  deriving DecidableEq, Repr, Inhabited

/-- A front-end channel (R224–R258). -/
structure FeCh where
  gain : Nat               -- gain code in force (R223, R228); reset 0
  lowRun : Nat             -- consecutive low words (R227); reset 0
  pend : Option (Nat × Nat × Nat)  -- pending trigger: time, source, engine (R248); reset none
  overrun : Nat            -- overrun count (R248); reset 0
  injSeq : Nat             -- SEQ of its injection packets (R251); reset 0
  ow : Bool                -- flagged open wire (R255); reset false
  owClean : Nat            -- consecutive outputs without a trip (R255); reset 0
  words : List FeWord      -- its words, newest first (R253, R258); reset empty
  conv : Option Conv       -- conversion in progress of the plan in force (R237); reset none
  old : List Conv          -- conversions in progress of plans before it (R20, R261); reset empty
  held : List (List Int)   -- levels at which each conversion of the last output held the two buses in its discharge step, nV (R213); reset empty
  dueOff : Bool            -- offset step due (R249); reset false
  dueGain : Bool           -- gain step due (R249); reset false
  offAt : Option Nat       -- mark at which the last offset step fell due (R144); reset none
  gainAt : Option Nat      -- mark at which the last gain step fell due (R144); reset none
  lastV : Option Int       -- voltage of its last scheduled output, units of 2^-96 V (R144); reset none
  rev : List (Int × Int)   -- offset steps that wait for the next scheduled output: the one before, reversed result (R144); reset empty
  srcs : List Int          -- measured values of EXA_SRC and EXB_SRC in A or V, units of 2^-96; empty before a gain step (R218); reset empty
  pre : List Int           -- levels that tracking precharge holds on the two buses, nV (R213); reset 2.5 V, 2.5 V
  cm21 : Bool              -- had a 0x21 word since the last periodic record (R259); reset false
  stage : Nat              -- gain-step schedule: 0, 1 for /2, 2 for /4 (R530); reset 0
  drift : Int              -- drift of C2 or of the source, 0.01 ppm per 30 days (R530); reset 0
  calmFrom : Nat           -- mark since which the drift has stayed below 1 ppm per 30 days (R530); reset 0
  deriving DecidableEq, Repr, Inhabited

/-- The front-end die and the FRONT island. -/
structure Fe where
  ch : List FeCh           -- FE0–FE31; reset thirty-two idle
  waiting : List FeWait    -- ended conversions whose words wait, in the order they ended (R253); reset empty
  poweredAt : Nat          -- CLK25 time at which the die was powered, ps (R257); reset 0
  blank : Bool             -- FE_BLANK asserted (R258); reset false
  blankEnd : Option Nat    -- CLK25 time at which the recipes' blank interval ends, ps (R258); reset none
  magEnd : Option Nat      -- CLK25 time at which MAG's ends, ps (R125); reset none
  lastTrig : Option Nat    -- CLK25 time of the last FE_TRIG edge, ps (R247); reset none
  inj : List Nat           -- marks of the injected conversions accepted (R247); reset empty
  refused : Nat            -- triggers refused (R247, R259); reset 0
  clamps : List Nat        -- clamp events per pin (R231, R259); reset zeros
  guards : List Int        -- AGRD0, AGRD1 in nV (R216); reset 2.5 V, 2.5 V
  deriving DecidableEq, Repr, Inhabited

/-! ### Roads (10, 11) -/

/-- A command to a node (R268, R271). -/
structure Cmd where
  op : Nat
  payload : List Byte
  deriving DecidableEq, Repr, Inhabited

/-- A node of a road as the hub knows it. -/
structure Node where
  pos : Nat
  admitted : Bool          -- R276, R299
  wasAdmitted : Bool       -- its slot stays reserved (R278)
  uid : BitVec 64
  maker : BitVec 16
  model : BitVec 16
  nch : Nat
  caps : BitVec 8
  chans : List ChanEntry   -- channels in force
  staged : Option (List ChanEntry)  -- channels staged for the next toggle (R283)
  slotM : Nat              -- M_p of its slot (R278)
  plan : Option Nat        -- M_p of its slot in the layout of an image being prepared, which a loss leaves in place (R278, R296)
  mpay : List Byte         -- MAKER payload staged last (R271, R282)
  stepDue : Bool           -- a delay step of it waits to be staged (R296, R301)
  delay : Int              -- d_p, ps (R289)
  pred : Int               -- prediction P_p, ps (R293)
  means : List (Nat × Int) -- cycle and mean delay, newest first (R293)
  got : List Int           -- valid, non-outlier delays of this cycle (R293)
  latch : Option Int       -- latch offset in force, ps (R289)
  latchSt : Option Int     -- latch offset staged
  txoff : Option Nat       -- TXOFF in force (R278)
  txoffSt : Option Nat     -- TXOFF staged
  seq : Nat                -- SEQ of its newest command (R272)
  acked : Nat              -- last ACK seen
  queue : List Cmd         -- commands not yet sent
  cur : Option (Cmd × Nat × Nat × Nat)  -- command outstanding: SEQ, sendings, mark of the last sending (R273)
  empty : Nat              -- consecutive marks without /S/ in its slot (R298)
  lastSlot : Nat           -- last mark with a SLOT frame (R302)
  noEcho : Nat             -- consecutive cycles without a valid echo (R298)
  echoed : Bool            -- a valid echo came in this cycle
  outRun : Option (List Int × Nat)  -- outlier and confirmations, and how many to come (R292)
  outMark : Nat            -- mark of the outlier (R302)
  agree : Nat              -- last mark whose echo agreed (R302)
  outliers : Nat           -- OUTLIERS (R302)
  adm : Option (List Int × Nat × Nat)  -- admission echoes: valid delays, sent, round (R300)
  joinMark : Nat           -- mark of the ENUM reply (R302)
  lateFrom : Option Nat    -- first mark from which its words carry 0x40 (R301)
  justMode : List Nat      -- channels with MODE whose first value comes next (R346)
  join : Nat               -- 1 joined at road start, 2 joined mid-run, until its channels are sampled (R300); 0 after
  deriving DecidableEq, Repr, Inhabited

/-- A road engine. -/
structure Road where
  on : Bool                -- launches MARKs (R277); reset false
  stopAt : Nat             -- CLK25 time of the last MARK launched, or of m0, ps (R277); reset 0
  dmax : Int               -- D_max in force, ps (R289, R294); reset 0
  dmaxSt : Option Int      -- D_max of the next toggle (R295); reset none
  epoch : Bool             -- EPOCH (R271, R274); reset false
  toggleFrom : Option Nat  -- first mark at which the staged settings may toggle (R295); reset none
  imgCommit : Option Nat   -- staging for an image commit; toggle at its mark (R274, R296); reset none
  prep : Bool              -- a staged image is prepared, whose node list counts (R283, R296); reset false
  staging : Bool           -- a command of an image commit has been staged on this road (R296); reset false
  cycle : Nat              -- measurement cycle in progress (R291, R293); reset 0
  offsets : Bool           -- R294 waits to be applied (R294, R301); reset false
  deferred : Option Nat    -- offsets or first settings wait to be staged; first mark of their toggle (R295, R296); reset none
  nodes : List Node        -- nodes known, by position; reset empty
  enumPos : Option Nat     -- position offered next (R277); reset none
  enumWait : Bool          -- an ENUM of this mark waits for its reply; reset false
  enumRetry : Bool         -- a reply with a bad CRC is asked for again (R275); reset false
  unanswered : Nat         -- consecutive unanswered ENUMs (R277); reset 0
  tries : Nat              -- consecutive ENUMs without an accepted reply (R277); reset 0
  midRun : Bool            -- enumeration goes on after a mid-run offer (R300); reset false
  started : Bool           -- enumeration at road start has ended (R287); reset false
  admitNext : Option Nat   -- position whose ADMIT is due (R277); reset none
  echoPos : Option Nat     -- position asked for an ECHO in this mark (R275); reset none
  echoRetry : Option Nat   -- an ECHO with a bad CRC is asked for again (R275); reset none
  hold : Nat               -- HOLD of this mark's ECHO or ENUM, 50 ns (R268); reset 0
  launchAt : Nat           -- instant of its MARK timing point in 0.1 ns after the mark (R290); reset 0
  enumAt : Nat             -- instant t_E of its ENUM timing point (R277); reset 0
  ackPos : Option Nat      -- node without a slot whose ACK the window waits for (R273); reset none
  burst : List (List Byte) -- frames of the last downstream burst, the bytes between /S/ and /T/ (R265); reset empty
  line : List (BitVec 10)  -- the code groups of that burst on the line (R264, R265); reset empty
  launched : Option Nat    -- mark of the last MARK launched (R267); reset none
  dirty : Bool             -- a setting was staged since the last toggle (R295); reset false
  cause : Nat              -- SAMPLING cause with which its channels resume (R338); reset 3, the first commit
  lostDecl : List Nat      -- declared positions lost: fault bit 6 (R299); reset empty
  viol : Nat               -- R287 counters; reset 0
  hdrFail : Nat
  missing : Nat
  cmdRetry : Nat
  cmdFail : Nat
  stray : Nat
  epochLate : Nat
  refused : Nat
  nfault : Nat
  deriving DecidableEq, Repr, Inhabited

/-! ### Uplink (15) -/

/-- What a stream datagram took from its client's reader, for its return when the link fails (R417). -/
structure Back where
  client : Nat
  next : Word              -- the cursor before it
  delivered : Word         -- last milepost delivered before it
  gapTo : Option Word      -- LAST of the GAP record delivered before it
  seq : Word               -- SEQ before it
  used : List Ins          -- reader records it carries
  deriving DecidableEq, Repr, Inhabited

/-- A frame at an egress port: its priority class of R399 and its bytes after the preamble, FCS left out. -/
structure Egress where
  prio : Nat
  bytes : List Byte
  fcsGood : Bool
  back : Option Back       -- a stream datagram's return (R417)
  ctrl : Bool              -- it carries an outbound slot (R450)
  fwd : Bool               -- forwarded from the other port (R399)
  ptpIn : Option Nat       -- CLK25 time of ingress of a message that the transparent clock corrects, ps (R383)
  delayReq : Option (Nat × BitVec 16)  -- the domain and the sequence of a Delay_Req of the hub (R380)
  alarm : Bool             -- it belongs to a launch that raised a TIME alarm (R508)
  deriving DecidableEq, Repr, Inhabited

/-- An uplink port. -/
structure UpPort where
  link : Bool              -- linked (R397); reset false
  amp24 : Bool             -- runs at 2.4 Vpp (R395); reset false
  req24 : Bool             -- sets the clause 98 request for 2.4 Vpp (R395); reset false
  queue : List Egress      -- frames that wait (R399); reset empty
  tx : Option Egress       -- frame on the wire (R399); reset none
  fcsErr : Nat             -- R418 counters; reset 0
  discards : Nat
  unknown : Nat
  arpConf : Nat
  skipped : Nat
  deriving DecidableEq, Repr, Inhabited

/-- Address resolution of an uplink client (R402). -/
structure Arp where
  mac : Option (List Byte) -- resolved address; reset none
  misses : Nat             -- unanswered refreshes; reset 0
  last : Nat               -- CLK25 time of the last request, ps; reset 0
  asked : Bool             -- a request is unanswered; reset false
  deriving DecidableEq, Repr, Inhabited

/-- What stream delivery keeps for an uplink client (R409–R412). -/
structure UpClient where
  seq : Word               -- SEQ of the last datagram (R410); reset 0
  lastSent : Nat           -- CLK25 time of the last datagram, ps (R412); reset 0
  sent : List (Nat × Nat)  -- CLK25 time and wire bits of recent datagrams (R411); reset empty
  flight : List (Word × Nat) -- mileposts and lines sent and not acknowledged (R411); reset empty
  frag : Option (Packet × Nat)  -- packet in KIND 0x2 datagrams and the fragment to send next (R410); reset none
  guestBacklog : Nat       -- backlog at the last grid mark (R471); reset 0
  deriving DecidableEq, Repr, Inhabited

/-- The UPLINK island. -/
structure Uplink where
  ports : List UpPort      -- UPA, UPB; reset two without link
  macs : List (List Byte × Nat × Nat)  -- learned address, port, CLK25 time, at most 64 (R398); reset empty
  arps : List Arp          -- U0–U3 (R402); reset unresolved
  clients : List UpClient  -- U0–U3 (R410); reset four at zero
  ipId : BitVec 16         -- identification of the last datagram (R401); reset 0
  pings : List Nat         -- CLK25 times of ICMP answers in the last second (R402); reset empty
  launchSkip : List Nat    -- SKIPPED per launch entry (R409, R416); reset zeros
  occRef : List Nat        -- occurrence last refused, per periodic launch entry (R416); reset zeros
  deriving DecidableEq, Repr, Inhabited

/-! ### Host ports and mailboxes (16, 17) -/

/-- An item of the reader's delivery in the response in progress (R423), its lines in this response, the lines of it that were
delivered before, and whether these end with its last line. -/
structure Took where
  item : Item
  lines : Nat
  before : Nat
  whole : Bool
  deriving DecidableEq, Repr, Inhabited

/-- What the next response of a port carries: CONTENT, CONT_LINES, FRAG, NFRAG, whole lines, what it takes of the reader and
whether it ends the outbound message (R423, R425). -/
structure Body where
  content : Nat
  cont : Nat
  frag : Nat
  nfrag : Nat
  ws : List Word
  took : List Took
  last : Bool
  msg : List Word
  deriving DecidableEq, Repr, Inhabited

/-- What a host port (HS or TW) keeps. -/
structure Port where
  rseq : BitVec 16         -- RSEQ (R419); reset 0
  rej : BitVec 8           -- REJ (R419); reset 0
  tout : BitVec 8          -- TOUT (R419); reset 0
  result : Nat             -- RESULT of the last accepted request (R422); reset 0
  rejected : Bool          -- REJECTED (R420); reset false
  nextOp : Nat             -- what the next response carries: 0 data, 2 message, 3 nothing (R425); reset 0
  resp : List Word         -- response in progress; reset empty
  shifted : List Bool      -- bits that HSDO carried in the last exchange (R427, R428); reset empty
  lines : Nat              -- LINES of that response; reset 0
  content : Nat            -- CONTENT of that response; reset 0
  msgLast : Bool           -- it carries the outbound message's last fragment (R425); reset false
  isOpen : Bool            -- HSEL_N low, or a transaction addressed to the hub is open; reset false
  tooSoon : Bool           -- HSEL_N fell less than 1 µs after it rose (R428); reset false
  riseAt : Option Nat      -- CLK25 time of the last rise of HSEL_N, ps (R428); reset none
  bytesRead : Nat          -- two-wire read: bytes the controller clocks out (R434); reset 0
  ending : TwEnd           -- two-wire: how the transaction ends (R433); reset stop
  stretch : Bool           -- TWSCL held low before a response (R434); reset false
  asmWords : List Word     -- inbound message being assembled (R426); reset empty
  asmNext : Nat            -- fragment expected next; reset 0
  asmN : Nat               -- fragments of that message; reset 0
  asmAt : Nat              -- CLK25 time of its last fragment, ps; reset 0
  outFrag : Nat            -- fragment of the outbound message sent next (R425); reset 0
  bufLines : Option Nat    -- Guest: lines in the port buffer since the last grid mark (R471); reset none
  took : List Took         -- what the response in progress takes of the reader's delivery (R429, R434); reset empty
  from_ : Word             -- the reader's cursor at its snapshot (R421); reset 0
  outMsg : List Word       -- outbound message whose fragments are being sent (R425); reset empty
  body : Body              -- what the response in progress carries (R419); reset empty
  again : Option Body      -- clocked serial port: data lines of a rejected frame, carried again by the next response (R429); reset none
  deriving DecidableEq, Repr, Inhabited

/-- An attention call (R439). -/
structure Call where
  cause : Nat
  code : BitVec 16
  engine : Nat
  deriving DecidableEq, Repr, Inhabited

/-- Attention calls (R440, R441). -/
structure Attn where
  c4 : Option Call         -- waiting call of cause 0x4 (R440); reset none
  c3 : Option Call         -- of cause 0x3; reset none
  c1 : Option Call         -- of cause 0x1; reset none
  calls : List Call        -- queued waymark CALLs, at most 8 (R440); reset empty
  cur : Option (Call × Nat) -- call being tried and attempts made (R441); reset none
  retryAt : Nat            -- CLK25 time of the next attempt, ps (R441); reset 0
  told : Bool              -- TW's outbound slot held a message at the last grid mark (R439); reset false
  seq : Nat                -- calls made, modulo 16 (R439); reset 0
  bytes : List Byte        -- the last call put on the bus; reset empty
  khz : Nat                -- clock rate in kHz that the last call was put on the bus with (R51, R441); reset 0
  deriving DecidableEq, Repr, Inhabited

/-- A reply or notice that is due in order (R450): CMP answered, TYPE answered, ACC, and, once it can be built, the TYPE
it is sent with and its words from word 2, one list per fragment. -/
structure Rep where
  cmp : BitVec 16
  typ : Nat
  acc : Nat
  body : Option (Nat × List (List Word))
  deriving DecidableEq, Repr, Inhabited

/-- A message that waits behind the outbound slot (R450): one message, or the fragments left of a sequence. -/
structure Out where
  msgs : List (List Word)
  release : Nat            -- Guest: mark from which it is visible (R452); 0 at once
  deriving DecidableEq, Repr, Inhabited

/-- A client's mailbox (R444, R450, R454). -/
structure Client where
  inSlot : Option (List Word)   -- inbound slot (R444); reset none
  seen : Option Nat        -- Guest: mark at which acceptance shows (R452); reset none
  work : List (List Word × Nat)  -- accepted messages to handle, with ACC (R449); reset empty
  reps : List Rep          -- replies due, in order of acceptance (R450); reset empty
  outSlot : Option (List Word)  -- outbound slot (R444); reset none
  outQ : List Out          -- messages that wait, at most four places (R450); reset empty
  guestQ : List Out        -- Guest: built messages not yet released (R452); reset empty
  nextIn : Option (BitVec 16)   -- NEXT_IN (R454); reset unset
  nextOut : BitVec 16      -- NEXT_OUT (R454); reset 1
  kfloor : Option (BitVec 16)   -- KFLOOR (R456); reset none
  lastCmp : Option (BitVec 16)  -- CMP of the latest message accepted (R455); reset none
  lastReply : Option (BitVec 16 × List (List Word))  -- its reply as built (R455); reset none
  accs : List (Nat × List Word) -- uplink Guest: ACCEPTED messages and the mark at which they go (R452); reset empty
  dropped : Nat            -- DROPPED (R460); reset 0
  vote : Nat               -- vote (R506); reset 0
  deriving DecidableEq, Repr, Inhabited

/-- A lock (R462). -/
structure Lock where
  holder : Option Nat      -- reset free
  ends : Nat               -- lease end on TB-L, ns; reset 0
  deriving DecidableEq, Repr, Inhabited

/-! ### Pin engines (19) -/

/-- How an engine stands (R492, R495, R499). -/
inductive PinRun where
  | absent | parked | running | halted | stopped
  deriving DecidableEq, Repr, Inhabited

/-- An open receive packet (R496). -/
structure RxPkt where
  mark : Nat
  phrase : Nat
  stamp : Word
  data : List Word
  lastMark : Nat
  deriving DecidableEq, Repr, Inhabited

/-- A pin engine (R484). -/
structure PinSt where
  run : PinRun             -- reset absent
  pc : Nat                 -- PC (R484); reset 0
  c0 : Word                -- C0 (R484); reset 0
  c1 : Word                -- C1 (R484); reset 0
  osr : Word               -- OSR (R484); reset 0
  osrN : Nat               -- bits remaining in OSR (R484); reset 0
  isr : Word               -- ISR (R484); reset 0
  isrN : Nat               -- bits shifted into ISR (R484); reset 0
  txh : Option Word        -- TXH (R484); reset empty
  rxh : Option (Word × Bool)  -- RXH and whether it is a stamp (R484, R494); reset empty
  phrase : Option (Nat × Nat)  -- phrase running and the index of its next word (R493); reset none
  stall : Nat              -- STALL of R502; reset 0
  gridAt : Option Nat      -- mark whose common instant a WAIT waits for (R488); reset none
  stampAt : Option Word    -- stamp of the first clock edge of a STAMP that stalls (R494); reset none
  rx : Option RxPkt        -- open receive packet (R497); reset none
  seq : Nat                -- SEQ of its receive packets (R496); reset 0
  deriving DecidableEq, Repr, Inhabited

/-- The PIN island. -/
structure Pin where
  eng : List PinSt         -- PE0–PE7; reset absent
  level : BitVec 16        -- output levels kept (R491); reset 0
  dir : BitVec 16          -- directions, 1 output (R491, R492); reset 0
  input : BitVec 16        -- levels seen at the pads from outside (R486); reset 0
  flags : BitVec 8         -- PF0–PF7 (R490); reset 0
  flagEdge : Option Nat    -- island clock edge of the last change of a flag, in 10 ns of CLK25 time (R490); reset none
  flagWas : BitVec 8       -- PF0–PF7 before that edge (R490); reset 0
  flagActs : List (Nat × Nat)  -- ACTION and flag of the changes at that edge (R490); reset empty
  restartAt : Option Nat   -- mark of the synchronous restart due (R498); reset none
  pullEn : BitVec 16       -- pull resistors enabled (R503); reset 0
  pullUp : BitVec 16       -- pull-up where enabled (R503); reset 0
  deriving DecidableEq, Repr, Inhabited

/-! ### Modes, ageing, test access (20, 21, 22) -/

/-- A hold in force (R508): source 1–5 as WAKE-REPORT, 6 start; level; and its end, a CLK25 time in ps once it is known
(for the start hold a count of marks issued). -/
structure Hold where
  src : Nat
  level : Mode
  ends : Option Nat
  deriving DecidableEq, Repr, Inhabited

/-- What a mode decision found (R513): CAUSE, fault bits, FLOOR, CVOTES, WVOTES, the fault logic's vote, and the highest hold
with its source. -/
structure Snap where
  cause : Nat
  faults : Nat
  floor : Nat
  cvotes : Nat
  wvotes : Nat
  fvote : Nat
  hold : Nat
  holdSrc : Nat
  deriving DecidableEq, Repr, Inhabited

/-- Status of an island (R559). -/
inductive IslSt where
  | off | retention | waking | running
  deriving DecidableEq, Repr, Inhabited

/-- How the memory die stands (R505, R514, R517). -/
inductive DieSt where
  | off | active | selfRefresh | unpowered
  deriving DecidableEq, Repr, Inhabited

/-- Modes and power. -/
structure Power where
  phase : Phase            -- R522, R523; reset in reset
  rails : List Bool        -- rails within range, in the order of Rail (R537); reset all
  resetN : Bool            -- RESET_N high (R522); reset low
  clkOk : Bool             -- CLK25 runs (R546); reset true
  memDone : Bool           -- memory die initialised (R523); reset false
  die : DieSt              -- the memory die (R505); reset off
  session : Option Word    -- SESSION (R460, R479); reset none
  mode : Option Mode       -- mode in force (R505); reset none
  modeBefore : Option Mode -- mode in force before it (R31, R128); reset none
  modeAt : Nat             -- mark at which the mode in force came (R16, R31, R128); reset 0
  change : Option (Mode × Nat)  -- pending changeover and its mark (R509); reset none
  layby : Nat              -- consecutive decisions that gave Layby (R509); reset 0
  entering : Option Nat    -- Layby entry in progress: its mark (R517); reset none
  entryMark : Nat          -- mark of the last Layby entry (R340); reset 0
  entryAt : Nat            -- CLK25 time of the last Layby entry, ps (R159); reset 0
  wakeHeld : Option Nat    -- wake source held during entry (R517); reset none
  waking : Option Nat      -- wake sequence in progress: SOURCE (R519); reset none
  wakeAt : Nat             -- CLK25 time at which its source arrived, ps (R518); reset 0
  failed : BitVec 16       -- FAILED of that wake (R340); reset 0
  uncorr : Nat             -- UNCORR of that wake (R340); reset 0
  scrubDue : Bool          -- the scrub of the rest of the memory die that follows a wake is due (R519); reset false
  holds : List Hold        -- holds in force (R508); reset empty
  snap : Snap              -- what the decision behind the pending change or Layby entry found (R513); reset zeros
  fromHigh : Bool          -- the Footpath stay began from Highway or Lane (R515); reset false
  ceiled : Bool            -- the ceiling imposed the mode of the last decision (R513); reset false
  reported : Nat           -- mark of the last periodic reports (R341); reset 0
  islands : List IslSt     -- twelve islands (R505, R559); reset off
  mode0 : Bool             -- MODE0 (R512); reset low
  mode1 : Bool             -- MODE1 (R512); reset low
  wakePad : Bool           -- WAKE high (R508); reset false
  service : Option Nat     -- end of the Service window on TB-L, ns (R480); reset none
  kcmd : Option (List Byte)  -- Keeper command key in force (R478); reset none
  exhausted : BitVec 12    -- islands with an exhausted margin: fault bit 2 (R531); reset 0
  deriving DecidableEq, Repr, Inhabited

/-- What the ageing planner keeps of an island (R526–R532). -/
structure Margin where
  point : Nat              -- voltage point (R527); reset the point of final test
  fstep : Nat              -- clock steps below nominal (R527); reset 0
  slack : Nat              -- last slack, 0.01 % (R532); reset 0
  day : List (Nat × Nat)   -- marks and slacks of the last 24 h (R528, R532); reset empty
  low : Nat                -- consecutive measurements below 4 % at P15 and FMAX (R531); reset 0
  move : Option (Bool × Bool)  -- planned move: clock step?, up? (R529); reset none
  deriving DecidableEq, Repr, Inhabited

/-- The ageing planner (R526–R533). -/
structure Ageing where
  isl : List Margin        -- twelve islands; reset at final-test points
  bankSt : List Nat        -- bank STATE (R532); reset 0
  tret : List Nat          -- T_RET of each bank, ms (R526); reset 0
  refresh : List Nat       -- refresh interval of each bank, ms (R530); reset 32
  corr24 : List (List Nat) -- marks of the lines corrected in the last 24 h, per bank (R532); reset empty
  corrScrub : List Nat     -- corrected count of each bank in this scrub interval (R530); reset 0
  scrubH : Nat             -- scrub interval in force, h (R325, R530); reset 24
  calm : Nat               -- consecutive calm scrub intervals (R530); reset 0
  poweredH : Nat           -- POWERED_H (R532); reset 0
  tmax : Int               -- TMAX (R532); reset -128
  dieT : Int               -- highest die temperature of the last hour, °C (R530); reset 25
  lifeNum : Nat            -- weighted hours × 1000 (R533); reset 0
  srcDrift : List Int      -- IEX0–3, VEX0–1 against factory, 0.1 ppm (R532); reset 0
  snaps : List (Nat × BitVec 16)  -- clients whose MARGIN-READ waits for its snapshot (R532); reset empty
  deriving DecidableEq, Repr, Inhabited

/-- The test access port (R558, R559). -/
structure Tap where
  addr : BitVec 16         -- DIAG_ADDR (R559); reset 0
  data : Word              -- DIAG_DATA register (R559); reset 0
  ir : BitVec 4            -- instruction register (R559); reset 0xF (BYPASS)
  bypass : Bool            -- bypass register (R559); reset 0
  sigs : List Word         -- last signatures: pointer and milepost region of bank P, then of bank Q, then the banks of FAILED bits 2–14 (R517, R559); reset zeros
  deriving DecidableEq, Repr, Inhabited

/-! ### The whole -/

/-- The state of the hub, and the commands that wait. -/
structure State where
  pending : List Instr     -- commands waiting, first in first out; model; reset empty
  free : Nat               -- counter behind the free values; model; reset 0 (DESIGN CHOICE, row 4)
  power : Power
  time : Time
  fuses : Fuses
  straps : Straps
  port : ImagePort
  cw : Causeway
  spill : Spill
  red : Reduce
  mot : Motion
  prod : Prod
  way : Way
  fe : Fe
  roads : List Road
  up : Uplink
  hs : Port
  tw : Port
  attn : Attn
  clients : List Client
  locks : List Lock
  pin : Pin
  age : Ageing
  tap : Tap
  deriving DecidableEq, Repr, Inhabited

/-! ### Reset -/

/-- A reader before the first packet (R314). -/
def Reader.init : Reader :=
  { count := 0, next := 1, part := none, lineOff := 0, delivered := 0, acked := 0, peak := 0, inserts := [], pend := none,
    gapTo := none, lastKnown := 0, jumps := [], skip := none, saved := none }

/-- An unpowered triad. -/
def Triad.init : Triad :=
  { powered := false, settled := false, fault := false, temp := 0, measured := false, resPpm := 0, qTenths := 1000,
    moved := false, resSettled := 0 }

/-- A cold calibration channel (R147, R152). -/
def CalCh.init : CalCh :=
  { st := 0, terms := List.replicate 9 0, was := List.replicate 9 0, since := 0, sigma := List.replicate 9 0,
    prior := List.replicate 9 0, priorSigma := [], unobs := 0, residual := 0xFFFF, updates := 0,
    accepted := 0, discarded := 0, total := 0, blocks := [], steps := [], est := List.replicate 9 0, next := [], lowRun := 0,
    offRun := 0, wasSettled := false, gainOk := false, updAt := 0, skipAt := none }

/-- A calibration channel with these factory terms. -/
def CalCh.cold (terms : List Word) : CalCh :=
  let t := (terms ++ List.replicate 9 0).take 9
  { CalCh.init with terms := t, was := t, prior := t, est := t }

/-- Factory terms of channel entry i (R135, R143, R144): no correction; the corner of HV_START; gain and ratio 1. -/
def factoryTerms (i : Nat) : List Word :=
  if i < 6 then [] else if i = 6 then [0x3C23D70A] else [0, 0x3F800000, 0x3F800000]

/-- An idle front-end channel. -/
def FeCh.init : FeCh :=
  { gain := 0, lowRun := 0, pend := none, overrun := 0, injSeq := 0, ow := false, owClean := 0, words := [], conv := none, old := [], held := [],
    dueOff := false, dueGain := false, offAt := none, gainAt := none, lastV := none, rev := [], srcs := [],
    pre := [2500000000, 2500000000], cm21 := false, stage := 0, drift := 0, calmFrom := 0 }

/-- A mailbox after RESET_N (R454). -/
def Client.init : Client :=
  { inSlot := none, seen := none, work := [], reps := [], outSlot := none, outQ := [], guestQ := [],
    nextIn := none, nextOut := 1, kfloor := none, lastCmp := none, lastReply := none, accs := [], dropped := 0, vote := 0 }

/-- An uplink port without link. -/
def UpPort.init : UpPort :=
  { link := false, amp24 := false, req24 := false, queue := [], tx := none, fcsErr := 0, discards := 0, unknown := 0, arpConf := 0,
    skipped := 0 }

/-- A response without lines. -/
def Body.none_ : Body :=
  { content := 0, cont := 0, frag := 0, nfrag := 0, ws := [], took := [], last := false, msg := [] }

/-- A host port after reset. -/
def Port.init : Port :=
  { rseq := 0, rej := 0, tout := 0, result := 0, rejected := false, nextOp := 0, resp := [], shifted := [], lines := 0, content := 0,
    msgLast := false, isOpen := false, tooSoon := false, riseAt := none, bytesRead := 0, ending := .stop,
    stretch := false, asmWords := [], asmNext := 0, asmN := 0, asmAt := 0, outFrag := 0, bufLines := none,
    took := [], from_ := 0, outMsg := [], body := Body.none_, again := none }

/-- A PTP domain without source. -/
def Ptp.init : Ptp :=
  { st := .noSource, acc := 0, rate := 0, master := none, grand := 0, foreign := [], offset := 0, good := 0, badRun := 0,
    lastSync := 0, syncIv := 0, lastAnn := 0, annIv := 0, twoStep := none, msDiff := 0, delaySeq := 0, t3 := [none, none],
    pathDelay := 0, delayIv := 0, rateHist := [] }

/-- A road that launches nothing. -/
def Road.init : Road :=
  { on := false, stopAt := 0, dmax := 0, dmaxSt := none, epoch := false, toggleFrom := none, imgCommit := none,
    prep := false, staging := false, cycle := 0, offsets := false, deferred := none, nodes := [], enumPos := none, enumWait := false, enumRetry := false, unanswered := 0, tries := 0,
    midRun := false, started := false, admitNext := none, echoPos := none, echoRetry := none, hold := 0, launchAt := 0,
    enumAt := 0, ackPos := none, burst := [], line := [], launched := none, dirty := false, cause := 3, lostDecl := [], viol := 0, hdrFail := 0, missing := 0, cmdRetry := 0,
    cmdFail := 0, stray := 0, epochLate := 0, refused := 0, nfault := 0 }

/-- A recogniser at rest. -/
def RecSt.init : RecSt :=
  { active := false, onRun := 0, offRun := 0, seq := 0, suppressed := 0, lastWritten := none, written := false,
    onsetAt := 0, peak := 0, peakAt := 0, peakW := [], wave := [], prevHeave := 0,
    seenAt := none }

/-- A pin engine that no image gives. -/
def PinSt.init : PinSt :=
  { run := .absent, pc := 0, c0 := 0, c1 := 0, osr := 0, osrN := 0, isr := 0, isrN := 0, txh := none, rxh := none,
    phrase := none, stall := 0, gridAt := none, stampAt := none, rx := none, seq := 0 }

/-- Power after reset: every rail in range, RESET_N still low. -/
def Power.init : Power :=
  { phase := .inReset, rails := List.replicate 6 true, resetN := false, clkOk := true, memDone := false, die := .off,
    session := none, mode := none, modeBefore := none, modeAt := 0, change := none, layby := 0, entering := none, entryMark := 0,
    entryAt := 0, wakeHeld := none, waking := none, failed := 0, holds := [], snap := default, wakeAt := 0, uncorr := 0, scrubDue := false, reported := 0,
    fromHigh := false, ceiled := false, islands := List.replicate 12 .off, mode0 := false, mode1 := false,
    wakePad := false, service := none, kcmd := none, exhausted := 0 }

/-- The clocks after VKEEP (R371). -/
def Time.init : Time :=
  { ps := 0, lBase := 0, gIdx := 0, gAcc := 0, gRate := 0, gSrc := none, gOffset := 0, holdFrom := 0, rates := [], refused := [],
    stepDue := none, prevIdx := none, issued := 0, n := [Ptp.init, Ptp.init],
    pps := { st := 0, count := 0, last := 0, run := 0, falling := false, err := 0, label := none,
             pendLabels := [] },
    acts := [] }

/-- Straps before the first scan. -/
def Straps.init : Straps :=
  { codes := List.replicate 16 0, accepted := false, prev := none, firstScan := none, hold := false, holdFrom := 0,
    holdTime := 0, failed := 0, pulses := 0, invalid := 0, readings := List.replicate 16 0,
    rescan := [], liveRun := none, livePend := none, refused := [], tripped := false }

/-- The image port after reset. -/
def ImagePort.init : ImagePort :=
  { rel := true, riseAt := none, drive := false, ckKhz := 0, ops := [], octal := false, cont := false, window := [none, none], load := none,
    hold := false, lastEnd := 0, inForce := none, before := none, since := 0 }

/-- The Causeway after initialisation. -/
def Causeway.init : Causeway :=
  { wptr := 0, opens := [], closed := [], gmp := 0, readers := List.replicate 11 Reader.init, ring := [], ringLost := 0,
    accounts := List.replicate 16 { balance := 0, credit := 0, largest := 0, beyond := 0 }, overdraft := 0, uncorr := 0,
    corr := List.replicate 32 0, uncorr24 := List.replicate 32 [], retired := [], dieRetired := false, lostDue := none, resetDue := 0,
    rollq := [], roll3 := [], badLines := [], preM0 := [], other := [] }

/-- A select without a device. -/
def SpillUnit.none_ : SpillUnit :=
  { state := 2, density := 0, blockPages := 0, retiredBlocks := 0, spare := 0, eraseTime := 0, eraseCount := 0,
    reads := [], ops := [] }

/-- The spill pager before discovery. -/
def Spill.init : Spill :=
  { done := false, devs := List.replicate 4 SpillUnit.none_, lostPages := 0, pages := [], carry := [none, none, none],
    seq := 0, check := List.replicate 11 0, nextPage := 0, fault := false, stages := [false, false, false], descs := [], sel := none, selects := [], density := 0, drive := false, used := [], alarm := false, stalled := false,
    laneRun := false, accs := [] }

/-- The 3 × 3 unit matrix in units of 2^−96. -/
def unit3 : List (List Int) := [[2 ^ 96, 0, 0], [0, 2 ^ 96, 0], [0, 0, 2 ^ 96]]

/-- A block with nothing noted. -/
def BlockNote.init : BlockNote :=
  { start := 0, n := List.replicate 6 0, sums := List.replicate 6 [0, 0, 0], rot := unit3, mid := unit3, event := false, beyond := [false, false], fault := List.replicate 6 false, blanked := 0, inputs := 0, taken := [],
    whole := false }

/-- The INERTIAL island after reset. -/
def Motion.init : Motion :=
  { triads := List.replicate 6 Triad.init, last := none, instant := 0, robust := [false, false], dwell := [0, 0],
    hist := List.replicate 8 [], streams := [], cal := (List.range 39).map fun i => CalCh.cold (factoryTerms i), restore := none, calSnaps := [],
    block := BlockNote.init, blockDone := BlockNote.init, corner := 4, cornerNext := none, downRun := 0, steady := 0, coverage := 0, magLast := [0, 0, 0], dpsi := 0x3243F6A8885A308D313198A2E }

/-- Motion products after reset. -/
def Prod.init : Prod :=
  { inputs := [], inFlags := [], decls := [], lastIn := none, att := [0, 0, 0, 0], lastDisp := none, disp := [], atts := [],
    recFirst := none, breaks := [], recCorner := 4, recPar := [0, 0], nextPar := [0, 0], recPstat := 0, recImp := 0, recDone := none,
    entries := [], lastHm0 := none }

/-- The WAYMARK island after reset. -/
def Way.init : Way :=
  { eng := List.replicate 16 { st := 0, timer := 0, vote := 0, seq := 0, skipped := 0, emitMark := none }, flags := 0,
    regions := [], evq := [], carried := 0, notOffered := 0, planSel := none, plan := none,
    recs := List.replicate 6 RecSt.init, lastProd := List.replicate 4 none }

/-- The front end after reset. -/
def Fe.init : Fe :=
  { ch := List.replicate 32 FeCh.init, waiting := [], poweredAt := 0, blank := false, blankEnd := none, magEnd := none,
    lastTrig := none, inj := [], refused := 0, clamps := List.replicate 48 0, guards := [2500000000, 2500000000] }

/-- The UPLINK island after reset. -/
def Uplink.init : Uplink :=
  { ports := [UpPort.init, UpPort.init], macs := [],
    arps := List.replicate 4 { mac := none, misses := 0, last := 0, asked := false },
    clients := List.replicate 4 { seq := 0, lastSent := 0, sent := [], flight := [], frag := none, guestBacklog := 0 },
    ipId := 0, pings := [], launchSkip := List.replicate 16 0, occRef := List.replicate 16 0 }

/-- No attention call. -/
def Attn.init : Attn :=
  { c4 := none, c3 := none, c1 := none, calls := [], cur := none, retryAt := 0, told := false, seq := 0, bytes := [], khz := 0 }

/-- The PIN island after power-on: every pad high impedance (R492). -/
def Pin.init : Pin :=
  { eng := List.replicate 8 PinSt.init, level := 0, dir := 0, input := 0, flags := 0, flagEdge := none, flagWas := 0, flagActs := [], restartAt := none, pullEn := 0,
    pullUp := 0 }

/-- The ageing planner of a new hub. -/
def Ageing.init : Ageing :=
  { isl := (List.range 12).map fun i =>
      { point := (Config.finalTestPoint i).val, fstep := 0, slack := 0, day := [], low := 0, move := none },
    bankSt := List.replicate 32 0, tret := List.replicate 32 0, refresh := List.replicate 32 32,
    corr24 := List.replicate 32 [], corrScrub := List.replicate 32 0, scrubH := 24, calm := 0, poweredH := 0, tmax := -128, dieT := 25,
    lifeNum := 0, srcDrift := List.replicate 6 0, snaps := [] }

/-- The test access port in Test-Logic-Reset. -/
def Tap.init : Tap :=
  { addr := 0, data := 0, ir := 0xF, bypass := false, sigs := List.replicate 17 0 }

/-- The hub right after reset: supplies up and CLK25 running, RESET_N still low, no fuse blown, nothing stored. -/
def State.reset : State :=
  { pending := [], free := 0, power := Power.init, time := Time.init,
    fuses := { keyHash := none, sealBlown := false, rollback := 0 }, straps := Straps.init, port := ImagePort.init,
    cw := Causeway.init, spill := Spill.init, red := { insts := [], next := [] }, mot := Motion.init,
    prod := Prod.init, way := Way.init, fe := Fe.init, roads := List.replicate 8 Road.init, up := Uplink.init,
    hs := Port.init, tw := Port.init, attn := Attn.init, clients := List.replicate 6 Client.init,
    locks := List.replicate 8 { holder := none, ends := 0 }, pin := Pin.init, age := Ageing.init,
    tap := Tap.init }

end Sys2Proof.Machine
end

