-- ==== Sys2Proof/Machine/Operands.lean ====
section
/-! DEFINITION. What a strap code selects (02_straps.md), who a client is (18_secrecy.md R465), and the layouts of
header words, source tags, identities and message words that every family shares. -/

namespace Sys2Proof.Machine

/-! ### Strap readings (R37–R39) -/

/-- The acceptance windows of R38 in Ω, code by code; code 0xF has no upper bound. -/
def strapWindows : List (Nat × Nat) :=
  [(0, 30), (291, 309), (601, 639), (970, 1030), (1426, 1514), (1940, 2060), (2590, 2750), (3376, 3584)] ++
  [(4287, 4553), (5451, 5789), (6936, 7365), (8817, 9363), (11155, 11845), (14259, 15141), (18527, 19673)]

/-- Whether the resistance that a raw reading implies, R = 10 kΩ × raw / (2^16 − raw), lies in [lo, hi] (R37, R38). -/
def inWindow (raw lo hi : Nat) : Bool := lo * (65536 - raw) ≤ 10000 * raw && 10000 * raw ≤ hi * (65536 - raw)

/-- Whether it is 100 kΩ or above (R38, code 0xF). -/
def isOpenStrap (raw : Nat) : Bool := 100000 * (65536 - raw) ≤ 10000 * raw

/-- The drive check found the pad being driven: above 150 mV with the 10.0 kΩ path open (R39). -/
def padDriven (r : StrapReading) : Bool := decide (150 < r.checkMv)

/-- The code of a reading; none where it is invalid (R38, R39). -/
def strapCode (r : StrapReading) : Option Nat :=
  if padDriven r then none
  else if isOpenStrap r.raw.toNat then some 0xF
  else strapWindows.findIdx? fun w => inWindow r.raw.toNat w.1 w.2

/-- The codes that the table of strap n marks reserved (R48–R67). -/
def strapReserved (n c : Nat) : Bool :=
  match n with
  | 1 | 8 | 10 | 12 => 9 ≤ c && c ≤ 14
  | 3 | 4 | 5 => c == 13 || c == 14
  | 6 => 12 ≤ c && c ≤ 14
  | _ => false

/-- The straps of the reset-time set (R40). -/
def resetStraps : List Nat := [0, 1, 2, 3, 4, 5, 6, 7, 8, 9, 10, 11, 15]

/-- Code in force of strap n. -/
def State.strap (s : State) (n : Nat) : Nat := nth s.straps.codes n

/-! ### Roles (R49, R51, R405, R465): 0 Keeper, 1 Operator, 2 Guest, 3 Service -/

/-- Role of HS under a STRAP1 code; none where the port is disabled (R49). -/
def hsRoleOf (c : Nat) : Option Nat :=
  match c with
  | 1 | 2 => some 2
  | 3 | 4 => some 1
  | 5 | 6 => some 0
  | 7 | 8 => some 3
  | _ => none

/-- HSDO is driven while HSEL_N is high (R49). -/
def hsDrivenOf (c : Nat) : Bool := c == 2 || c == 4 || c == 6 || c == 8

/-- Role of TW under a STRAP3 code; none where the port is disabled (R51). -/
def twRoleOf (c : Nat) : Option Nat :=
  if 1 ≤ c ∧ c ≤ 12 then
    match (c - 1) % 4 with
    | 0 => some 2
    | 1 => some 1
    | 2 => some 0
    | _ => some 3
  else none

/-- The client entry of Ui in the image in force, none where it is unused (R405). -/
def State.clientEntry (s : State) (i : Nat) : Option ClientEntry :=
  match s.port.inForce with
  | none => none
  | some im =>
    match im.clients.clients[i]? with
    | none => none
    | some e => if e.addr = 0 then none else some e

/-- Role of client c (0–3 U0–U3, 4 HS, 5 TW); none where it is no client now (R465). -/
def State.roleOf (s : State) (c : Nat) : Option Nat :=
  if c < 4 then (s.clientEntry c).map (·.role)
  else if c = 4 then hsRoleOf (s.strap 1)
  else if c = 5 then twRoleOf (s.strap 3)
  else none

/-- STRAP1 selects a driven code (R432). -/
def State.hsDriven (s : State) : Bool := hsDrivenOf (s.strap 1)

/-! ### Other straps -/

/-- The level at which HSCK idles: true where it is high (R48, STRAP0 bit 1). -/
def State.hsckIdle (s : State) : Bool := bitOf (s.strap 0) 1

/-- HSDI is sampled on rising edges of HSCK, and HSDO changes on the other edges (R48, STRAP0 bits [1:0]). -/
def State.hsdiRising (s : State) : Bool := (s.strap 0) % 4 == 0 || (s.strap 0) % 4 == 3

/-- HSDO changes on rising edges of HSCK (R48). -/
def State.hsdoRising (s : State) : Bool := !s.hsdiRising

/-- The bits of HSDI that the hub samples in so many edges of HSCK since HSEL_N fell: the first edge leaves the idle level
(R48). -/
def State.hsdiBits (s : State) (edges : Nat) : Nat := if s.hsdiRising == s.hsckIdle then edges / 2 else (edges + 1) / 2

/-- Words of a clocked serial frame (R48). -/
def State.frameWords (s : State) : Nat :=
  match s.strap 0 / 4 with
  | 0 => 16
  | 1 => 64
  | 2 => 256
  | _ => 1024

/-- IMG_CK in kHz for 8D-8D-8D reading (R60). -/
def State.imgCk (s : State) : Nat := 200000 / 2 ^ (s.strap 9 % 4)

/-- SPL_CK in kHz; 0 where no spill device is fitted (R61). -/
def State.splCk (s : State) : Nat :=
  if 1 ≤ s.strap 10 ∧ s.strap 10 ≤ 4 then 200000 else if 5 ≤ s.strap 10 ∧ s.strap 10 ≤ 8 then 100000 else 0

/-- Two-wire target address (R50). -/
def State.twAddr (s : State) : Nat := 0x60 + s.strap 2

/-- Clock rate in kHz of the attention calls; 0 where TW is disabled (R51). -/
def State.attnKhz (s : State) : Nat :=
  match (s.strap 3 + 3) / 4 with
  | 1 => 100
  | 2 => 400
  | 3 => 1000
  | _ => 0

/-- Advertised amplitudes of a port: 0 both, 1 2.4 Vpp only, 2 1.0 Vpp only, 3 the port is disabled (R54). -/
def State.upAmp (s : State) (port : Nat) : Nat :=
  if s.strap 4 = 0xC then 3
  else if s.strap 4 = 0xF then (if port = 0 then 0 else 3)
  else if port = 0 then s.strap 4 / 4 else s.strap 4 % 4

/-- Sources of TB-G in order of priority (R55). -/
def gOrder (c : Nat) : List GSrc :=
  match c with
  | 0 => [.n0, .n1, .pps]
  | 1 => [.n0, .pps, .n1]
  | 2 => [.n1, .n0, .pps]
  | 3 => [.n1, .pps, .n0]
  | 4 => [.pps, .n0, .n1]
  | 5 => [.pps, .n1, .n0]
  | 6 => [.n0, .n1]
  | 7 => [.n1, .n0]
  | 8 => [.n0, .pps]
  | 9 => [.pps, .n0]
  | 10 => [.n0]
  | 11 => [.n1]
  | 12 => [.pps]
  | _ => []

/-- STRAP6 with code 0xF acting as 0x5 (R56). -/
def State.strap6 (s : State) : Nat := if s.strap 6 = 0xF then 5 else s.strap 6

/-- Mode floor (R56). -/
def State.floor (s : State) : Option Mode :=
  match s.strap6 / 4 with
  | 1 => some .footpath
  | 2 => some .lane
  | _ => none

/-- VMAIN falling threshold in mV (R56). -/
def State.supplyThreshold (s : State) : Nat :=
  match s.strap6 % 4 with
  | 0 => 3100
  | 1 => 3300
  | 2 => 3600
  | _ => 4400

/-- Wave-record period in s (R58). -/
def State.wavePeriod (s : State) : Nat :=
  match s.strap 7 % 4 with
  | 0 => 1800
  | 1 => 1200
  | 2 => 600
  | _ => 3600

/-- Product set of the wave record (R58). -/
def State.productSet (s : State) : Nat := s.strap 7 / 4

/-- Roads enabled: ROAD0 to ROAD(n − 1) (R59). -/
def State.roadsEnabled (s : State) : Nat := if s.strap 8 ≤ 8 then s.strap 8 else 0

/-- Image source order (R60). -/
def State.sourceOrder (s : State) : List Nat :=
  match s.strap 9 / 4 with
  | 0 => [1]
  | 1 => [1, 0]
  | 2 => [0]
  | _ => [0, 1]

/-- Spill devices fitted (R61). -/
def State.spillFitted (s : State) : Nat :=
  if s.strap 10 ≤ 4 then s.strap 10 else if s.strap 10 ≤ 8 then s.strap 10 - 4 else 0

/-- A signed direction of the structure frame: axis 0 X, 1 Y, 2 Z, and its sign. -/
abbrev Dir := Nat × Int

/-- The structure-frame directions of the module axes x, y, z (R62). -/
def orientation (c : Nat) : Dir × Dir × Dir :=
  match c with
  | 0x0 => ((0, 1), (1, -1), (2, -1))
  | 0x1 => ((1, 1), (0, 1), (2, -1))
  | 0x2 => ((0, -1), (1, 1), (2, -1))
  | 0x3 => ((1, -1), (0, -1), (2, -1))
  | 0x4 => ((0, 1), (1, 1), (2, 1))
  | 0x5 => ((1, 1), (0, -1), (2, 1))
  | 0x6 => ((0, -1), (1, -1), (2, 1))
  | 0x7 => ((1, -1), (0, 1), (2, 1))
  | 0x8 => ((1, 1), (2, 1), (0, 1))
  | 0x9 => ((2, -1), (1, 1), (0, 1))
  | 0xA => ((1, -1), (2, 1), (0, -1))
  | 0xB => ((2, -1), (1, -1), (0, -1))
  | 0xC => ((0, -1), (2, 1), (1, 1))
  | 0xD => ((2, -1), (0, -1), (1, 1))
  | 0xE => ((0, 1), (2, 1), (1, -1))
  | _ => ((2, -1), (0, 1), (1, -1))

/-- The rotation of R62 on a vector of the module frame: the matrix whose columns are the three directions. -/
def rotate (c : Nat) (x y z : Int) : List Int :=
  let (dx, dy, dz) := orientation c
  (List.range 3).map fun k =>
    (if dx.1 = k then dx.2 * x else 0) + (if dy.1 = k then dy.2 * y else 0) + (if dz.1 = k then dz.2 * z else 0)

/-- Plan that a STRAP12 code selects, none for no strap selection (R63). -/
def planOfCode (c : Nat) : Option Nat := if c ≤ 7 then some c else none

/-- Commissioning operation (R53, R67). -/
def State.commissioning (s : State) : Bool := s.strap 15 == 0 && !s.fuses.sealBlown

/-- Seal request (R67). -/
def State.sealRequest (s : State) : Bool := s.strap 15 == 0xB && !s.fuses.sealBlown

/-- Sealed operation: the fuse, or any strap code but the two deliberate ones (R67). -/
def State.sealedOp (s : State) : Bool := !s.commissioning && !s.sealRequest

/-- Whether host clients of the Service role are served now (R53, R480). -/
def State.serviceOpen (s : State) : Bool :=
  (match s.power.service with
    | some e => decide ((s.time.ps - s.time.lBase) / 1000 < e)
    | none => false) || s.commissioning

/-! ### Words of the formats -/

/-- Source tag (R305). -/
def srcTag (origin road node chan kind view : Nat) : Word :=
  word (at_ origin 28 + at_ road 25 + at_ node 19 + at_ chan 15 + at_ kind 8 + view)

/-- Source tag of the packets of inertial stream number n (R121). -/
def streamTag (n : Nat) (st : Stream) : Word := srcTag 0 0 st.source st.axes n st.view
/-- Source tag of a recipe's packets: channel 0 for the scan (R235), channel 1 for injected conversions (R251). -/
def recipeTag (r : Recipe) (injected : Bool) : Word := srcTag 1 0 r.ch (b2n injected) 0 r.view
/-- Source tag of a road channel (R285). -/
def roadTag (road pos : Nat) (c : ChanEntry) : Word := srcTag 2 road pos c.ch 0 c.view
/-- Source tag of a pin engine's receive packets (R496). -/
def pinTag (engine view : Nat) : Word := srcTag 3 0 engine 0 0 view
/-- Source tag of a product (R165, R351). -/
def productTag (kind view : Nat) : Word := srcTag 4 0 0 0 kind view
/-- Source tag of an event (R179, R206). -/
def eventTag (kind view : Nat) : Word := srcTag 5 0 0 0 kind view

/-- Origin class of a source tag (R305). -/
def tagOrigin (t : Word) : Nat := fld t 31 28
/-- Product kind of a source tag (R305). -/
def tagKind (t : Word) : Nat := fld t 14 8
/-- View class of a source tag (R305). -/
def tagView (t : Word) : Nat := fld t 7 0

/-- Header word0 of a packet (R305): DAMAGED is set at delivery. -/
def headWord0 (p : Packet) (damaged : Bool) : Word :=
  word (at_ 1 28 + at_ p.typ 24 + at_ (b2n p.gap) 23 + at_ (b2n p.subst) 22 + at_ (b2n p.late) 21 +
    at_ (b2n damaged) 20 + (4 + p.words.length) % 2 ^ 14)

/-- Identity word of a client in a role (R447). -/
def identWord (client role : Nat) : Word := word (at_ client 8 + role)

/-- Lines of a payload: header and payload in whole lines (R304). -/
def linesOf (payloadWords : Nat) : Nat := ceilDiv (4 + payloadWords) 4

/-- Lines of one bank of the memory die (R303). -/
def bankLines : Nat := 2097152
/-- Lines of the Causeway (R303). -/
def cwLines : Nat := 50331648
/-- Lines of the Footpath ring (R330). -/
def ringLines : Nat := 262144

/-- Marks in one report period (R341). -/
def reportMarks : Nat := 614400

/-- Mode as a vote level: 1 Highway, 2 Lane, 3 Footpath (R506). -/
def modeOfVote (v : Nat) : Option Mode :=
  match v with
  | 1 => some .highway
  | 2 => some .lane
  | 3 => some .footpath
  | _ => none

/-- Rank of a mode: Highway highest (R505). -/
def modeRank : Mode → Nat
  | .highway => 3
  | .lane => 2
  | .footpath => 1
  | .layby => 0

/-- Mode as FROM and TO of MODE-CHANGE: 3 stands for Layby (R513). -/
def modeField : Mode → Nat
  | .highway => 0
  | .lane => 1
  | .footpath => 2
  | .layby => 3

end Sys2Proof.Machine
end

