-- ==== Sys2Proof/Machine/Ops.lean ====
section
/-! DEFINITION. The named operations that every family shares: the clocks (14_time.md R369, R371, R373), free values,
admission to readers (R313, R331, R335, R467), the allocator (R308, R310, R311), closing (R308, R314, R331, R332), the
records of 12_causeway.md R334–R341, what a reader delivers next (R316–R321), and mailboxes (R444–R458). -/

namespace Sys2Proof.Machine

/-! ### Clocks (R369, R373) -/

/-- One grid mark in 10^−24 s (R16: 976.5625 µs). -/
def markAcc : Nat := 976562500 * 10 ^ 12

/-- One nanosecond in 10^−24 s. -/
def nsAcc : Nat := 10 ^ 15

/-- What dt ps of CLK25 time add to a time base with a rate correction in 10^−12, in 10^−24 s. -/
def scaleAcc (dt : Nat) (rate : Int) : Nat := ((dt : Int) * ((10 : Int) ^ 12 + rate)).toNat

/-- The clocks dt ps later: every time base counts from CLK25 (R22, R369). -/
def Time.advance (t : Time) (dt : Nat) : Time :=
  { t with
    ps := t.ps + dt
    gAcc := t.gAcc + scaleAcc dt t.gRate
    n := t.n.map fun p => { p with acc := p.acc + scaleAcc dt p.rate } }

/-- The network time bases and TB-G count: CLK25 runs and VKEEP is present (R371, R546). -/
def State.clocked (s : State) : Bool := s.power.clkOk && nth s.power.rails 4

/-- The hub dt ps later; while CLK25 stands or VKEEP is absent no time base of R371 counts. -/
def State.advance (s : State) (dt : Nat) : State :=
  { s with time := if s.clocked then s.time.advance dt else { s.time with ps := s.time.ps + dt } }

/-- CLK25 time in ps. -/
def State.now (s : State) : Nat := s.time.ps

/-- TB-L in ns (R369). -/
def State.tbL (s : State) : Nat := (s.time.ps - s.time.lBase) / 1000

/-- The grid mark in progress: the index of the last mark issued (R16). -/
def State.mark (s : State) : Nat := s.time.gIdx

/-- TB-G in the full nanosecond form of R389. -/
def State.gNs (s : State) : Nat := (s.time.gIdx * markAcc + s.time.gAcc) / nsAcc

/-- TB-Nx in ns (R389). -/
def State.nNs (s : State) (x : Nat) : Nat := (nth s.time.n x).acc / nsAcc

/-- A time base of a scheduled action in ns: 0 TB-N0, 1 TB-N1, 2 TB-G (R389, R407). -/
def State.tbNs (s : State) (tb : Nat) : Nat := if tb < 2 then s.nNs tb else s.gNs

/-- A duration in ps. -/
def msPs (n : Nat) : Nat := n * 10 ^ 9
/-- A duration of n s in ps. -/
def secPs (n : Nat) : Nat := n * 10 ^ 12
/-- A duration of n µs in ps. -/
def usPs (n : Nat) : Nat := n * 10 ^ 6

/-! ### Free values (assumption-log row 4) -/

/-- A fresh free word. -/
def State.takeWord (s : State) : Word × State := (Config.freeWord s.free, { s with free := s.free + 1 })
/-- A fresh free choice. -/
def State.takeBool (s : State) : Bool × State := (Config.freeBool s.free, { s with free := s.free + 1 })
/-- A fresh free natural number. -/
def State.takeNat (s : State) : Nat × State := (Config.freeNat s.free, { s with free := s.free + 1 })

/-- What a read meets, where the command does not bring it (R325). -/
def State.takeFindings (s : State) : List LineFinding × State := (Config.freeFindings s.free, { s with free := s.free + 1 })

/-! ### The mode in force -/

/-- The hub runs an image: the first commit has come (R523). -/
def State.running (s : State) : Bool := s.power.phase == .running

/-- The mode in force is m. -/
def State.inMode (s : State) (m : Mode) : Bool := s.power.mode == some m

/-- The mode in force is Highway or Lane. -/
def State.full (s : State) : Bool := s.inMode .highway || s.inMode .lane

/-- The mode in force samples and stores: Highway, Lane or Footpath. -/
def State.awake (s : State) : Bool := s.full || s.inMode .footpath

/-- Layby entry is in progress, from a mode that fills the Causeway (R517). -/
def State.entryFull (s : State) : Bool :=
  s.power.entering.isSome && (s.power.modeBefore == some .highway || s.power.modeBefore == some .lane)

/-- Packets close into the Causeway or the ring now; before m0 and in Layby they wait (R99, R340). Until Layby entry is complete
the hub still stores what was sampled before (R517). -/
def State.storing (s : State) : Bool := s.running && (s.awake || s.power.entering.isSome) && s.power.waking.isNone

/-- Packets close into the Causeway, not into the ring (R332). -/
def State.seats (s : State) : Bool := s.full || s.entryFull

/-! ### Admission to readers -/

/-- The plan in force (R64). -/
def State.planEntry (s : State) : Option Plan :=
  match s.port.inForce, s.way.plan with
  | some im, some p => im.plans.find? (·.plan == p)
  | _, _ => none

/-- View class v is in the view of client c: its view set, and for U0–U3 the mask of the plan in force (R467, R343). -/
def State.viewHas (s : State) (c v : Nat) : Bool :=
  match s.port.inForce, s.roleOf c with
  | some im, some role =>
    let set := if c < 4 then (s.clientEntry c).map (·.viewset) else some (nth im.clients.vsetRole role)
    let inSet := match set with
      | some k => (nth im.clients.vsets k).contains v
      | none => false
    let masked := if c < 4 then
        match s.planEntry with
        | some p => (nth p.masks c).contains v
        | none => false
      else true
    inSet && masked
  | _, _ => false

/-- Retention class of a view class (R353). -/
def State.classOf (s : State) (v : Nat) : Nat :=
  match s.port.inForce with
  | some im => nth im.classmap v
  | none => 0

/-- Retention class under which a packet is kept (R353, R354). -/
def State.packetClass (s : State) (p : Packet) : Nat :=
  if p.held || tagOrigin p.tag == 3 || tagOrigin p.tag == 6 || p.typ == 3 then 0 else s.classOf (tagView p.tag)

/-- The packet is one that the Footpath mirror copies (R331). -/
def State.mirrored (s : State) (p : Packet) : Bool :=
  let o := tagOrigin p.tag
  let k := tagKind p.tag
  o == 6 || (o == 4 && (k == 1 || k == 4)) || (o == 5 && (k == 0x12 || k == 0x13 || k == 0x15)) ||
    match s.port.inForce with
    | none => false
    | some im =>
      (o == 0 && (match im.inertial.streams[k]? with
        | some st => st.fp
        | none => false)) ||
      (o == 1 && (match im.fe with
        | some fe => fe.recipes.any fun r => r.ch == fld p.tag 24 19 && r.basic
        | none => false)) ||
      (o == 5 && (match im.wm with
        | some wm => wm.engines.any fun e => k == 0x20 + e.engine && e.fp
        | none => false))

/-- The jobs that the plan in force runs in the mode in force (R343). -/
def State.placedJobs (s : State) : List Nat :=
  match s.planEntry with
  | none => []
  | some p => if s.inMode .highway then p.run else if s.inMode .lane then p.laneRun else []

/-- Reader RC takes the inputs of placed jobs (R313, R348). -/
def State.jobInput (s : State) (p : Packet) : Bool :=
  match s.port.inForce with
  | none => false
  | some im => p.typ == 1 && s.placedJobs.any fun j =>
      match im.products.red[j]? with
      | some e => e.insrc == (p.tag &&& 0xFFFFFF00)
      | none => false

/-- Whether reader RC admits a packet (R313, R335): the inputs of placed jobs, and of the system records WAKE-REPORT and those that
go to the internal readers. -/
def State.rcAdmits (s : State) (p : Packet) : Bool :=
  s.jobInput p || (tagOrigin p.tag == 6 && tagKind p.tag != 5 && tagKind p.tag != 6)

/-- Whether a host client's reader admits a packet (R335, R467, R313). -/
def State.hostAdmits (s : State) (c : Nat) (p : Packet) : Bool :=
  match s.roleOf c with
  | none => false
  | some role =>
    if tagOrigin p.tag = 6 then
      if tagKind p.tag = 8 then true
      else if tagKind p.tag = 5 ∨ tagKind p.tag = 6 then s.viewHas c (tagView p.tag)
      else role != 2
    else if c = 5 ∧ tagOrigin p.tag < 4 then false
    else s.viewHas c (tagView p.tag)

/-- Whether reader r admits a packet that closes now (R313, R331, R335, R467). -/
def State.admits (s : State) (r : Nat) (p : Packet) : Bool :=
  if r < 6 then s.hostAdmits r p
  else if r = 6 then s.packetClass p != 3
  else if r = 7 then s.rcAdmits p
  else if r = 8 then s.mirrored p
  else false

/-! ### Readers' packets (R313, R314) -/

/-- Milepost that a reader gave a packet. -/
def Packet.mpOf (p : Packet) (r : Nat) : Option Word := (p.mps.find? (·.1 == r)).map (·.2)

/-- The packet is held: in the Causeway, in spill or in the ring (R320). -/
def Packet.isHeld (p : Packet) : Bool := p.lost == 0

/-- Mileposts from the cursor to the newest close, or to the record that stands before it (R333). -/
def Reader.ahead (rd : Reader) : Nat :=
  match rd.jumps with
  | j :: _ => (j.pos - rd.next).toNat
  | [] => (rd.count + 1 - rd.next).toNat

/-- Distance of a milepost from the cursor. -/
def Reader.dist (rd : Reader) (m : Word) : Nat := (m - rd.next).toNat

/-- Packets among which reader r finds its own: TW in Footpath reads the ring (R332). -/
def Causeway.pool (cw : Causeway) (r : Nat) : List Packet :=
  if r = 5 ∧ (nth cw.readers 5).saved.isSome then cw.ring else cw.closed

/-- The held packets from reader r's cursor to the newest close, each with its distance from the cursor. -/
def Causeway.aheadOf (cw : Causeway) (r : Nat) : List (Nat × Packet) :=
  let rd := nth cw.readers r
  (cw.pool r).filterMap fun p =>
    match p.mpOf r with
    | some m => if p.isHeld && decide (rd.dist m < rd.ahead) then some (rd.dist m, p) else none
    | none => none

/-! ### What stands at a cursor (R316, R320–R323) -/

/-- The first distance at which a held packet lies. -/
def firstHeld (l : List (Nat × Packet)) : Option (Nat × Packet) :=
  l.foldl (fun a d => match a with
    | none => some d
    | some b => if d.1 < b.1 then some d else some b) none

/-- The last distance below n at which no packet is held, from n down. -/
def lastMissing (held : List Nat) : Nat → Nat
  | 0 => 0
  | n + 1 => if held.contains n then lastMissing held n else n

/-- Cause of a GAP at a milepost (R336): the cause kept with the packet, 0x05 for one before the reader's first milepost, 0x03
for one lost in a reset, 0x04 for one that a stay in Footpath voided. -/
def Causeway.missCause (cw : Causeway) (r : Nat) (m : Word) : Nat :=
  let rd := nth cw.readers r
  match (cw.closed.find? fun p => p.mpOf r == some m) with
  | some p => if p.lost = 0 then 4 else p.lost
  | none => if rd.count.toNat ≤ (rd.count - m).toNat then 5 else if later32 m rd.lastKnown then 4 else 3

/-- What stands at a cursor with nothing more before it. -/
def Reader.atEnd (rd : Reader) : Item :=
  match rd.jumps with
  | j :: _ => .jump j
  | [] => .nothing

/-- How many mileposts from the cursor on the last GAP record covers (R321). -/
def Reader.covered (rd : Reader) : Nat :=
  match rd.gapTo with
  | some l => if rd.dist l < 65536 then rd.dist l + 1 else 0
  | none => 0

/-- The packet whose delivery to reader r has begun: it completes first, overtaken or not (R322, R323). A packet that the ring
has dropped is gone. -/
def Causeway.begun (cw : Causeway) (r : Nat) : Option (Packet × Word) :=
  match (nth cw.readers r).part with
  | some m => ((cw.pool r).find? fun p => p.mpOf r == some m).map fun p => (p, m)
  | none => none

/-- What reader r delivers next (R316, R320, R321, R322, R333). -/
def Causeway.nextItem (cw : Causeway) (r : Nat) : Item :=
  let rd := nth cw.readers r
  match cw.begun r, rd.inserts with
  | some (p, m), _ => .pkt p m
  | none, i :: _ => .ins i
  | none, [] =>
    let held := cw.aheadOf r
    let f := rd.covered
    let gap : Item := .gap (rd.next + word f)
      (rd.next + word (f + lastMissing ((held.map (·.1)).map (· - f)) (min 65536 (rd.ahead - f)))) (cw.missCause r (rd.next + word f))
    match firstHeld held with
    | some (d, p) => if d ≤ f then .pkt p (rd.next + word d) else gap
    | none => if rd.ahead ≤ f then rd.atEnd else gap

/-- Lines already delivered of the item at the cursor of reader r. -/
def Causeway.offset (cw : Causeway) (r : Nat) : Nat :=
  let rd := nth cw.readers r
  if rd.part.isSome && (cw.begun r).isNone then 0 else rd.lineOff

/-! ### Backlog (R318) -/

/-- Lines of the held packets from the cursor to the newest close, what is delivered of a packet begun left out (R318). -/
def Causeway.backlogRaw (cw : Causeway) (r : Nat) : Nat :=
  let rd := nth cw.readers r
  let all := (rd.count + 1 - rd.next).toNat
  let sum := ((cw.pool r).map fun p => match p.mpOf r with
    | some m =>
      let d := rd.dist m
      let void := (rd.jumps.any fun j => decide (rd.dist j.pos ≤ d) && decide (d < rd.dist j.dest)) ||
        rd.skip.any fun k => decide (rd.dist k.1 ≤ d) && decide (d < rd.dist k.2)
      if p.isHeld && decide (d < all) && !void then p.lines else 0
    | none => 0).sum
  match cw.begun r with
  | some (p, _) => if p.isHeld then sum - rd.lineOff else sum
  | none => sum

/-- Backlog count of reader r (R318). -/
def Causeway.backlog (cw : Causeway) (r : Nat) : Nat := min (cw.backlogRaw r) 0xFFFFFF

/-- The packet is held in spill only (R320). -/
def Packet.onlySpill (p : Packet) : Bool := p.isHeld && p.page.isSome && !p.inCw

/-- The cursor of reader r is in spill: the next packet that it delivers is held there only (R318, R320). -/
def Causeway.cursorInSpill (cw : Causeway) (r : Nat) : Bool :=
  match cw.begun r, firstHeld (cw.aheadOf r) with
  | some (p, _), _ => p.onlySpill
  | none, some (_, p) => p.onlySpill
  | none, none => false

/-- Backlog band of reader r (R318). -/
def Causeway.band (cw : Causeway) (r : Nat) : Nat := bandOf (cw.backlog r) (cw.cursorInSpill r)

/-! ### Credits (R311, R312) -/

/-- Saturation of an account in 1/4096 line (R311). -/
def Account.cap (a : Account) : Nat := max (5 * a.credit * 1024) (2 * a.largest * 4096)

/-- Debit of n lines, counting those in overdraft (R311, R312). -/
def Account.debit (a : Account) (n : Nat) : Account :=
  if a.credit = 0 ∧ a.largest = 0 then a
  else if n * 4096 ≤ a.balance then { a with balance := a.balance - n * 4096 }
  else { a with balance := 0, beyond := a.beyond + ceilDiv (n * 4096 - a.balance) 4096 }

/-- What a grid mark adds (R311): 1.25 × CREDIT / 1024 lines, saturating. -/
def Account.refill (a : Account) : Account := { a with balance := min (a.balance + 5 * a.credit) a.cap }

/-- Debit of a producer's account; the lines in overdraft also count for OVERDRAFT (R312, R341). -/
def Causeway.debit (cw : Causeway) (producer n : Nat) : Causeway :=
  let a := nth cw.accounts producer
  { cw with
    accounts := cw.accounts.modify producer (·.debit n)
    overdraft := cw.overdraft + ((a.debit n).beyond - a.beyond) }

/-! ### The allocator (R308, R310) -/

/-- Two runs of lines overlap. -/
def overlap (a n b m : Nat) : Bool := decide (a < b + m) && decide (b < a + n)

/-- Where a run of n lines may start at or after p, past open packets and retired banks, with fuel (R308, R310). -/
def placeF : Nat → List Packet → List Nat → Nat → Nat → Nat
  | 0, _, _, p, _ => p
  | f + 1, opens, ret, p, n =>
    if cwLines < p + n then placeF f opens ret 0 n
    else
      match ret.find? fun b => overlap p n (b * bankLines) bankLines with
      | some b => placeF f opens ret ((b + 1) * bankLines) n
      | none =>
        match opens.find? fun o => overlap p n o.start o.lines with
        | some o => placeF f opens ret (o.start + o.lines) n
        | none => p

/-- Start of a run of n lines at the write pointer (R310). -/
def Causeway.place (cw : Causeway) (n : Nat) : Nat :=
  placeF (2 * cw.opens.length + 2 * cw.retired.length + 4) cw.opens (cw.retired.filter (· < 24)) cw.wptr n

/-- A packet whose lines the allocator takes (R310, R357, R362): a class 3 packet is rolled up, a spilled one stays in spill, any
other that is still unspilled is lost with cause 0x02; but the pager, where it works, has put a packet that a HOLD covers into its
open page before (DESIGN CHOICE, assumption-log row 89). -/
def Packet.overrun (pager : Bool) (p : Packet) : Packet :=
  if p.page.isSome || (pager && p.held) then { p with inCw := false }
  else if p.klass = 3 then { p with inCw := false, lost := 1 }
  else { p with inCw := false, lost := 2 }

/-- The packets of the Causeway whose lines a run takes. -/
def Causeway.takes (cw : Causeway) (start n : Nat) : List Packet :=
  cw.closed.filter fun p => p.inCw && overlap start n p.start p.lines

/-- Reservation of n lines from start: every packet there leaves the Causeway, class 3 packets into their accumulators, and
the pointer moves past (R308, R310, R357); the pager takes held packets where it works (R362). -/
def Causeway.reserve (cw : Causeway) (pager : Bool) (start n : Nat) : Causeway :=
  let gone := cw.takes start n
  let lost := gone.filter fun p => (p.overrun pager).lost == 2 && p.lost != 2
  { cw with
    wptr := start + n
    lostDue := match cw.lostDue with
      | some (o, k) => some (o, k + lost.length)
      | none => lost.head?.map fun p => (p.gmp, lost.length)
    closed := cw.closed.map fun p => if p.inCw && overlap start n p.start p.lines then p.overrun pager else p
    rollq := cw.rollq ++ gone.filter fun p => p.klass == 3 && p.lost == 0 && p.page.isNone && decide (tagOrigin p.tag < 3) && p.typ == 1
    badLines := cw.badLines.filter fun l => !(decide (start ≤ l) && decide (l < start + n)) }

/-! ### Closing (R308, R309, R314) -/

/-- An injection packet (R251): one sample word and its circumstances. -/
def Packet.injected (p : Packet) : Bool := tagOrigin p.tag == 1 && fld p.tag 18 15 != 0

/-- The sample words of a data packet of origin class 0–2; of an injection packet its first word (R251, R307). -/
def Packet.sampleWords (p : Packet) : List Word :=
  if tagOrigin p.tag < 3 ∧ p.typ = 1 then (if p.injected then p.words.take 1 else p.words) else []

/-- Late and substituted flags as the sample words give them (R307). -/
def Packet.flagged (p : Packet) : Packet :=
  { p with
    late := p.late || p.sampleWords.any fun w => sampleCode w == 0x40
    subst := p.subst || p.typ == 3 || p.sampleWords.any fun w => sampleCode w == 0x50 }

/-- The mileposts that the admitting readers give a closing packet (R314). -/
def newMps (adm : Nat → Bool) (rds : List Reader) : List (Nat × Word) :=
  (List.range rds.length).filterMap fun r => if adm r then some (r, (nth rds r).count + 1) else none

/-- The readers' counters after a close (R314). -/
def countUp (adm : Nat → Bool) (rds : List Reader) : List Reader :=
  rds.mapIdx fun r rd => if adm r then { rd with count := rd.count + 1 } else rd

/-- Peaks brought up to the present backlogs (R318). -/
def Causeway.peaks (cw : Causeway) : Causeway :=
  { cw with readers := cw.readers.mapIdx fun r rd => { rd with peak := max rd.peak (cw.backlog r) } }

/-- The ring with one packet more: the oldest ones go when it is full (R330, R331, R332). -/
def ringFit : Nat → List Packet → List Packet × List Packet
  | 0, l => ([], l)
  | f + 1, l =>
    if (l.map (·.lines)).sum ≤ ringLines then ([], l)
    else match l with
      | [] => ([], [])
      | p :: r => let (a, b) := ringFit f r; (p :: a, b)

/-- A packet that TW had not received when the ring took its place (R339 code 0x08). -/
def unreadByTw (tw : Reader) (p : Packet) : Bool :=
  match p.mpOf 5 with
  | some m => decide (tw.dist m < tw.ahead)
  | none => false

/-- A packet into the ring (R330). -/
def Causeway.toRing (cw : Causeway) (p : Packet) : Causeway :=
  let (gone, stay) := ringFit (cw.ring.length + 1) (cw.ring ++ [p])
  { cw with
    ring := stay
    ringLost := cw.ringLost + (gone.filter (unreadByTw (nth cw.readers 5))).length }

/-- A packet closed into the Causeway: next global milepost, mileposts of the readers that admit it, completion entry, and
a copy in the ring where FM admits it (R308, R314, R331). The internal readers RC and FM, which resume within 1 µs of a close,
have passed it at once (R313), so only SP can hold its lines (R310; DEDUCED, assumption-log row 42). -/
def Causeway.closeIn (cw : Causeway) (adm : Nat → Bool) (p : Packet) : Causeway :=
  let q := { p with gmp := cw.gmp + 1, mps := newMps adm cw.readers, inCw := true }
  let cw := { cw with gmp := cw.gmp + 1, closed := cw.closed ++ [q], readers := countUp adm cw.readers }
  let cw := (if adm 8 then cw.toRing { q with mps := [] } else cw).peaks
  { cw with readers := (cw.readers.modify 7 fun rd => { rd with next := rd.count + 1 }).modify 8 fun rd => { rd with next := rd.count + 1 } }

/-- A packet closed into the ring in Footpath: only TW's counter gives it a milepost (R332). -/
def Causeway.closeRing (cw : Causeway) (adm : Nat → Bool) (p : Packet) : Causeway :=
  let tw (r : Nat) : Bool := r == 5 && adm 5
  let q := { p with mps := newMps tw cw.readers, inCw := false }
  ({ cw with readers := countUp tw cw.readers }.toRing q).peaks

/-- A record of 12_causeway.md as a packet of producer 15 (R334, R359). -/
def recPacket (kind view mark : Nat) (ws : List Word) : Packet :=
  { typ := 2, tag := srcTag 6 0 0 0 kind view, mark := mark, words := ws, gap := false, subst := false, late := false,
    producer := 15, start := 0, lines := linesOf ws.length, gmp := 0, mps := [], inCw := false, page := none, lost := 0,
    held := false, klass := 0, bad := [], want := ws.length, rate := 0, badWords := [] }

/-- A packet of a producer as it opens (R308): no payload yet. -/
def openPacket (producer : Nat) (tag : Word) (mark want : Nat) : Packet :=
  { typ := 1, tag := tag, mark := mark, words := [], gap := false, subst := false, late := false, producer := producer,
    start := 0, lines := linesOf want, gmp := 0, mps := [], inCw := false, page := none, lost := 0, held := false,
    klass := 0, bad := [], want := want, rate := 0, badWords := [] }

/-- A whole packet with its payload. -/
def wholePacket (producer : Nat) (tag : Word) (mark : Nat) (ws : List Word) : Packet :=
  { openPacket producer tag mark ws.length with words := ws }

/-- The IMAGE-LOAD records that wait for the first commit: the last four (R99). -/
def keepFour (ps : List Packet) : List Packet :=
  let loads := ps.filter fun p => tagOrigin p.tag == 6 && tagKind p.tag == 0x11
  let drop := loads.length - 4
  (ps.foldl (fun (a : List Packet × Nat) p =>
    if tagOrigin p.tag == 6 && tagKind p.tag == 0x11 then
      (if a.2 < drop then (a.1, a.2 + 1) else (a.1 ++ [p], a.2))
    else (a.1 ++ [p], a.2)) ([], 0)).1

/-- Lines for a packet taken in the Causeway (R308, R310). -/
def Causeway.seat (cw : Causeway) (pager : Bool) (p : Packet) : Causeway × Packet :=
  let start := cw.place p.lines
  (cw.reserve pager start p.lines, { p with start := start })

/-- The spill pager can take packets: it has devices and has not stalled (R355, R361, R366). -/
def State.pagerWorks (s : State) : Bool := s.spill.done && !s.spill.stalled && s.spill.devs.any (·.state == 0)

/-- A held region, open or closed, covers a packet (R198). -/
def State.inRegion (s : State) (p : Packet) : Bool :=
  s.way.regions.any fun r => r.view == tagView p.tag && markLe r.first p.mark && markLe p.mark r.last

/-- A product packet that closes is the last of its kind (R195). -/
def State.noteProd (s : State) (p : Packet) : State :=
  if tagOrigin p.tag = 4 ∧ 1 ≤ tagKind p.tag ∧ tagKind p.tag ≤ 4 then
    { s with way := { s.way with lastProd := s.way.lastProd.set (tagKind p.tag - 1) (some ([headWord0 p false, p.tag, 0, word p.mark] ++ p.words)) } }
  else s

/-- One packet opened, written and closed at once in the mode in force: into the Causeway, into the ring in Footpath, or
kept until the hub stores again (R99, R308, R332, R340). -/
def State.writePacket (s : State) (p : Packet) : State :=
  let p := { p.flagged with lines := linesOf p.words.length, held := s.inRegion p }
  if s.storing then
    let s := s.noteProd p
    let p := { p with klass := s.packetClass p }
    let adm (r : Nat) : Bool := s.admits r p
    if s.seats then
      let (cw, q) := (s.cw.debit p.producer p.lines).seat s.pagerWorks p
      { s with cw := cw.closeIn adm q }
    else { s with cw := (s.cw.debit p.producer p.lines).closeRing adm p }
  else { s with cw := { s.cw with preM0 := keepFour (s.cw.preM0 ++ [p]) } }

/-- A system record written whole (R334, R359). -/
def State.writeRec (s : State) (kind mark : Nat) (ws : List Word) : State := s.writePacket (recPacket kind 0xFF mark ws)

/-- Records written in order. -/
def State.writePackets (s : State) (ps : List Packet) : State := ps.foldl State.writePacket s

/-! ### Records (R337–R341) -/

/-- The SAMPLING record (R338). -/
def samplingRec (event cause : Nat) (tag : Word) (mark : Nat) : Packet :=
  recPacket 6 (tagView tag) mark [word (at_ event 24 + at_ cause 16), tag, word mark, 0]

/-- The ERROR record (R339). -/
def errorRec (code unit : Nat) (d0 d1 : Word) (count mark : Nat) : Packet :=
  recPacket 7 0xFF mark [word (at_ code 24 + at_ unit 16), d0, d1, word (satN 32 count)]

/-- Writes an ERROR record. -/
def State.writeError (s : State) (code unit : Nat) (d0 d1 : Word) (count : Nat) : State :=
  s.writePacket (errorRec code unit d0 d1 count s.mark)

/-- The ERROR record of the packets overwritten before spill and not yet reported (R310). -/
def State.flushLost (s : State) : State :=
  match s.cw.lostDue with
  | none => s
  | some (oldest, n) =>
    if s.storing then
      { s with cw := { s.cw with lostDue := none } }.writeError 0x03 0 (word oldest) 0 n
    else s

/-- Writes a SAMPLING record. -/
def State.writeSampling (s : State) (event cause : Nat) (tag : Word) (mark : Nat) : State :=
  s.writePacket (samplingRec event cause tag mark)

/-! ### Open packets (R308, R309) -/

/-- The open packet of a source tag. -/
def Causeway.openOf (cw : Causeway) (tag : Word) : Option Packet := cw.opens.find? (·.tag == tag)

/-- Rate code of the channel whose packets carry a tag (R119, R233, R282). -/
def State.rateOf (s : State) (tag : Word) : Nat :=
  match tagOrigin tag with
  | 0 => match s.mot.streams.find? (·.num == tagKind tag) with
    | some st => st.entry.rate
    | none => 0
  | 1 => match (s.port.inForce.bind (·.fe)).bind fun fe => fe.recipes.find? (·.ch == fld tag 24 19) with
    | some r => r.rate
    | none => 0
  | 2 => match (nth s.roads (fld tag 27 25)).nodes.find? (·.pos == fld tag 24 19) with
    | some nd => match nd.chans.find? (·.ch == fld tag 18 15) with
      | some c => c.rate
      | none => 0
    | none => 0
  | _ => 0

/-- A packet opened for writing: lines are reserved, the header line is written (R308, R311). In Footpath the ring takes it
at close (R332). -/
def State.openFor (s : State) (p : Packet) : State :=
  if s.storing then
    let p := { p with held := s.inRegion p, rate := s.rateOf p.tag }
    let p := { p with klass := s.packetClass p }
    if s.seats then
      let (cw, q) := (s.cw.debit p.producer 1).seat s.pagerWorks p
      { s with cw := { cw with opens := cw.opens ++ [q] } }
    else { s with cw := { s.cw.debit p.producer 1 with opens := s.cw.opens ++ [p] } }
  else s

/-- Payload words appended to the open packet of a tag, each full line debited (R308, R311). -/
def Causeway.append (cw : Causeway) (tag : Word) (ws : List Word) : Causeway :=
  match cw.openOf tag with
  | none => cw
  | some p =>
    let n := p.words.length
    { cw.debit p.producer ((n + ws.length) / 4 - n / 4) with
      opens := cw.opens.map fun q => if q.tag == tag then { q with words := q.words ++ ws } else q }

/-- Words for a source tag: the packet opens with the first of them (R308). -/
def State.append (s : State) (producer : Nat) (tag : Word) (mark want : Nat) (ws : List Word) : State :=
  let s := match s.cw.openOf tag with
    | some _ => s
    | none => s.openFor (openPacket producer tag mark want)
  { s with cw := s.cw.append tag ws }

/-- The open packet of a tag closes, short with GAP set where it does not hold what it plans (R307, R308, R309). A packet
without a word only gives its lines back. -/
def State.closeOpen (s : State) (tag : Word) (short : Bool) : State :=
  match s.cw.openOf tag with
  | none => s
  | some p =>
    let s := { s with cw := { s.cw with opens := s.cw.opens.filter (·.tag != tag) } }
    if p.words.isEmpty then s
    else
      let p := { p.flagged with gap := p.gap || short, lines := linesOf p.words.length }
      let s := s.noteProd p
      let adm (r : Nat) : Bool := s.admits r p
      let cw := s.cw.debit p.producer (b2n (p.words.length % 4 != 0))
      if s.seats then { s with cw := cw.closeIn adm p }
      else { s with cw := cw.closeRing adm p }

/-- The open packet of a tag closes, with GAP set where it holds less than it plans (R307). -/
def State.closePacket (s : State) (tag : Word) : State :=
  match s.cw.openOf tag with
  | none => s
  | some p => s.closeOpen tag (decide (p.words.length < p.want))

/-- Words of instant number idx of a block of pkt instants of axes words each (R122): the packet opens with the block's
first instant, or inside the block with GAP set and room for the rest; a packet of an earlier block closes first. -/
def State.putBlock (s : State) (producer : Nat) (tag : Word) (mark idx pkt axes : Nat) (ws : List Word) : State :=
  let s := if idx = 0 then s.closePacket tag else s
  let s := match s.cw.openOf tag with
    | some _ => s
    | none => s.openFor { openPacket producer tag mark ((pkt - idx) * axes) with gap := idx != 0 }
  { s with cw := s.cw.append tag ws }

/-- Every open packet that a condition selects closes short (R307, R375, R514, R517). -/
def State.closeShort (s : State) (sel : Packet → Bool) : State :=
  ((s.cw.opens.filter sel).map (·.tag)).foldl (fun s t => s.closeOpen t true) s

/-! ### What a reader delivers (R316–R322, R326, R336) -/

/-- A packet as the reader writes it (R305, R314, R326): header with its milepost, payload padded to whole lines, each
uncorrectable line replaced. -/
def Packet.image (p : Packet) (mp : Word) : List Word :=
  let fill : Word := if tagOrigin p.tag < 4 then 0x00000041 else f32Lost
  let ws := padTo 4 ([headWord0 p (!p.bad.isEmpty || !p.badWords.isEmpty), p.tag, mp, word p.mark] ++ p.words)
  let ws := ws.mapIdx fun i w => if 4 ≤ i && p.badWords.contains i then fill else w
  (chunks 4 ws).zipIdx.flatMap fun (l, i) =>
    if i != 0 && p.bad.contains i then List.replicate 4 fill else l

/-- A reader record (R316, R336): kind 0x01 GAP to 0x04 DISCONTINUITY, with the milepost of the packet that follows. -/
def insWords (i : Ins) (next : Word) : List Word :=
  [headWord0 (recPacket i.kind 0xFF i.mark [i.w4, i.w5, i.w6, i.w7]) false, srcTag 6 0 0 0 i.kind 0xFF, next, word i.mark,
   i.w4, i.w5, i.w6, i.w7]

/-- A GAP record as reader r inserts it at a grid mark (R321, R336). -/
def gapIns (r mark : Nat) (first last : Word) (cause : Nat) : Ins :=
  { kind := 1, w4 := word (at_ cause 24 + at_ r 16), w5 := first, w6 := last, w7 := 0, mark := mark }

/-- The words of an item, whole lines (R304, R316). -/
def Item.words (it : Item) (r mark : Nat) : List Word :=
  match it with
  | .ins i => insWords i 0
  | .gap f l c => insWords (gapIns r mark f l c) f
  | .pkt p m => p.image m
  | .jump j => insWords j.ins j.dest
  | .nothing => []

/-- The milepost of the packet that follows the records at a cursor (R316). -/
def Causeway.following (cw : Causeway) (r : Nat) : Word :=
  let rd := nth cw.readers r
  match firstHeld (cw.aheadOf r), rd.jumps with
  | some (d, _), _ => rd.next + word d
  | none, j :: _ => j.dest
  | none, [] => rd.count + 1

/-- The words of the item at the cursor of reader r. -/
def Causeway.itemWords (cw : Causeway) (r mark : Nat) : List Word :=
  match cw.nextItem r with
  | .ins i => insWords i (cw.following r)
  | .gap f l c =>
    insWords (gapIns r mark f l c) (cw.following r)
  | it => it.words r mark

/-- The last milepost delivered once the record before the copies is: copies that TW had received in Footpath count as
delivered (R333). -/
def Jump.before (j : Jump) (delivered : Word) : Word := if j.dest = j.ins.w6 then delivered else j.dest - 1

/-- The cursor of TW past the copies that it had received in Footpath, which count as delivered, once it stands at the first of
them (R333). -/
def Reader.skipCopies (rd : Reader) : Reader :=
  match rd.skip with
  | some (a, b) => if rd.next = a ∧ a ≠ b then { rd with next := b, delivered := b - 1, skip := none } else rd
  | none => rd

/-- A reader once the item at its cursor is delivered whole (R314, R321). -/
def Reader.pass (rd : Reader) (it : Item) : Reader :=
  match it with
  | .ins _ => { rd with inserts := rd.inserts.drop 1, lineOff := 0, part := none }
  | .gap f l _ => { rd with gapTo := some l, next := f, lineOff := 0, part := none }
  | .pkt _ m => { rd with next := m + 1, delivered := m, lineOff := 0, part := none }.skipCopies
  | .jump j => { rd with jumps := rd.jumps.drop 1, next := j.dest, delivered := j.before rd.delivered, gapTo := none, lineOff := 0,
                         part := none }
  | .nothing => rd

/-- Reader r once k lines, but not the last one, of the item at its cursor are delivered (R423): a packet begun completes
first (R323), and a record begun stays the first that waits. -/
def Reader.begin_ (rd : Reader) (it : Item) (r mark k : Nat) : Reader :=
  match it with
  | .ins _ => { rd with lineOff := k }
  | .gap f l c => { rd.pass it with inserts := gapIns r mark f l c :: rd.inserts, lineOff := k }
  | .pkt _ m => { rd with part := some m, lineOff := k }
  | .jump j => { rd.pass it with inserts := j.ins :: rd.inserts, lineOff := k }
  | .nothing => rd

/-- The reader at a Causeway cursor kept for it (R332). -/
def Reader.atCursor (rd : Reader) (c : CwCursor) : Reader :=
  { rd with next := c.next, part := c.part, lineOff := c.lineOff, gapTo := c.gapTo, jumps := c.jumps, skip := c.skip }

/-- The reader's cursor as it is kept over a stay in Footpath (R332). -/
def Reader.cursor (rd : Reader) : CwCursor :=
  { next := rd.next, part := rd.part, lineOff := rd.lineOff, gapTo := rd.gapTo, jumps := rd.jumps, skip := rd.skip, count := rd.count }

/-- One reader changed. -/
def Causeway.onReader (cw : Causeway) (r : Nat) (f : Reader → Reader) : Causeway :=
  { cw with readers := cw.readers.modify r f }

/-- The cursor of reader r moves past the item it stands at. -/
def Causeway.pass (cw : Causeway) (r : Nat) : Causeway := cw.onReader r (·.pass (cw.nextItem r))

/-- The lines that reader r would deliver from its cursor, at most n, with fuel: each four words, and how many of the
first ones continue a packet begun earlier. -/
def Causeway.linesF : Nat → Causeway → Nat → Nat → Nat → List (List Word)
  | 0, _, _, _, _ => []
  | f + 1, cw, r, mark, n =>
    if n = 0 then []
    else
      let ls := (chunks 4 (cw.itemWords r mark)).drop (cw.offset r)
      match cw.nextItem r with
      | .nothing => []
      | _ => if n ≤ ls.length then ls.take n else ls ++ Causeway.linesF f (cw.pass r) r mark (n - ls.length)

/-- At most n lines of reader r's delivery in order (R423). -/
def Causeway.deliverLines (cw : Causeway) (r mark n : Nat) : List (List Word) := Causeway.linesF (n + 1) cw r mark n

/-- Leading lines that continue a packet begun earlier (R419 CONT_LINES). -/
def Causeway.contLines (cw : Causeway) (r mark n : Nat) : Nat :=
  if cw.offset r = 0 then 0 else min n ((cw.itemWords r mark).length / 4 - cw.offset r)

/-- A reader record put at the cursor of reader r (R316). -/
def Causeway.insert (cw : Causeway) (r : Nat) (i : Ins) : Causeway :=
  cw.onReader r fun rd => { rd with inserts := rd.inserts ++ [i] }

/-! ### Mailboxes (R444–R458) -/

/-- One client changed. -/
def State.onClient (s : State) (c : Nat) (f : Client → Client) : State := { s with clients := s.clients.modify c f }

/-- A message from the hub (R445): TYPE in its 8 bits, CMP, the identity of the receiving client and the words from word 2. -/
def mailWords (typ : Nat) (cmp : BitVec 16) (ident : Word) (body : List Word) : List Word :=
  let len := body.length + 3
  let ws := [word (at_ cmp.toNat 16 + at_ len 8 + typ % 256), ident] ++ body
  ws ++ [crc32c (bytesOfWords ws)]

/-- Identity of client c as the hub sets it (R447). -/
def State.identOf (s : State) (c : Nat) : Word := identWord c ((s.roleOf c).getD 0)

/-- Word 2 of a reply (R458). -/
def replyWord (cmp : BitVec 16) (acc result : Nat) : Word := word (at_ cmp.toNat 16 + at_ acc 8 + result)

/-- Word 2 of an ABORTED notice (R453). -/
def abortWord (cmp : BitVec 16) (typ cause : Nat) : Word := word (at_ cmp.toNat 16 + at_ typ 8 + cause)

/-- Messages that wait, at most four places: the oldest is discarded and counted when a fifth would wait (R450). -/
def Client.enqueue (c : Client) (o : Out) : Client :=
  match c.outSlot with
  | none =>
    match o.msgs with
    | [] => c
    | [m] => { c with outSlot := some m }
    | m :: r => { c with outSlot := some m, outQ := { o with msgs := r } :: c.outQ }
  | some _ =>
    if c.outQ.length < 4 then { c with outQ := c.outQ ++ [o] }
    else { c with outQ := c.outQ.drop 1 ++ [o], dropped := satN 16 (c.dropped + 1) }

/-- The slot is released: the next message passes into it (R450). -/
def Client.release (c : Client) : Client :=
  match c.outQ with
  | [] => { c with outSlot := none }
  | o :: q =>
    match o.msgs with
    | [] => { c with outSlot := none, outQ := q }
    | [m] => { c with outSlot := some m, outQ := q }
    | m :: r => { c with outSlot := some m, outQ := { o with msgs := r } :: q }

/-- The messages of a reply, numbered from NEXT_OUT (R450, R454). -/
def buildMsgs (ident : Word) (next : BitVec 16) (typ : Nat) : List (List Word) → List (List Word)
  | [] => []
  | b :: bs => mailWords typ next ident b :: buildMsgs ident (next + 1) typ bs

/-- IMAGE_ID of the image in force, 0 where there is none. -/
def State.imageId (s : State) : Word :=
  match s.port.inForce with
  | some im => im.hdr.imageId
  | none => 0

/-- Holder of lock k now: a lease that has ended frees it (R462). -/
def State.lockHolder (s : State) (k : Nat) : Option Nat :=
  let l := nth s.locks k
  match l.holder with
  | some c => if l.ends ≤ s.tbL then none else some c
  | none => none

/-- Word 3 of a LOCK or UNLOCK reply (R462). -/
def State.lockWord (s : State) (k : Nat) : Word :=
  match s.lockHolder k with
  | some c => word (at_ (ceilDiv ((nth s.locks k).ends - s.tbL) (10 ^ 9)) 16 + at_ c 8 + k)
  | none => word (at_ 0xFF 8 + k)

/-- What a reply presents when it is built: the vote held (R457), the locks (R462) and IMAGE_ID in force (R457) of that instant
(R464); every other body is as it was made. -/
def State.present (s : State) (c typ : Nat) (body : List Word) : List Word :=
  match body with
  | [w, x] =>
    [w, match typ with
      | 0x85 => word (nth s.clients c).vote
      | 0x86 | 0x87 => s.lockWord (fld x 7 0)
      | 0x8C => s.imageId
      | _ => x]
  | _ => body

/-- The replies at the head of a client's list that can be built now are built in order, with fuel (R450, R452, R453); now gives
what a body presents at that instant. For a Guest, rel is the mark from which they are visible. -/
def Client.buildF (now : Nat → List Word → List Word) : Nat → Client → Word → Bool → Nat → Client
  | 0, c, _, _, _ => c
  | f + 1, c, ident, guest, rel =>
    match c.reps with
    | [] => c
    | r :: rs =>
      match r.body with
      | none => c
      | some (typ, bodies) =>
        let c := { c with reps := rs }
        let ms := buildMsgs ident c.nextOut typ (bodies.map (now typ))
        let c := { c with nextOut := c.nextOut + BitVec.ofNat 16 bodies.length,
                          lastReply := if 0x80 ≤ typ ∧ r.acc ≤ 3 ∧ c.lastCmp = some r.cmp then some (r.cmp, ms) else c.lastReply }
        let o : Out := { msgs := ms, release := rel }
        let c := if guest then { c with guestQ := c.guestQ ++ [o] } else c.enqueue o
        Client.buildF now f c ident guest rel

/-- A client with every reply built that is due (R450). -/
def Client.build (c : Client) (now : Nat → List Word → List Word) (ident : Word) (guest : Bool) (rel : Nat) : Client :=
  Client.buildF now (c.reps.length + 1) c ident guest rel

/-- Builds what is due for client c. A Guest's replies show one mark after acceptance (R452). -/
def State.buildReps (s : State) (c : Nat) : State :=
  let guest := s.roleOf c == some 2
  s.onClient c fun cl => cl.build (s.present c) (s.identOf c) guest (max (s.mark + 1) ((cl.seen.getD 0) + 1))

/-- A reply due at the end of client c's list. -/
def State.pushRep (s : State) (c : Nat) (r : Rep) : State :=
  (s.onClient c fun cl => { cl with reps := cl.reps ++ [r] }).buildReps c

/-- A reply with RESULT and its payload, built as soon as the earlier ones are (R450, R458): 0xC0–0xC7 carry none. -/
def State.reply (s : State) (c : Nat) (cmp : BitVec 16) (typ acc result : Nat) (payload : List Word) : State :=
  s.pushRep c { cmp := cmp, typ := typ, acc := acc,
                body := some (typ + 0x80, [replyWord cmp acc result :: (if 0xC0 ≤ result then [] else payload)]) }

/-- A reply that is built later (R461, R98). -/
def State.pendReply (s : State) (c : Nat) (cmp : BitVec 16) (typ acc : Nat) : State :=
  s.pushRep c { cmp := cmp, typ := typ, acc := acc, body := none }

/-- The first reply of a list that waits for the body of message CMP takes it. -/
def resolveFirst (cmp : BitVec 16) (typ : Nat) (f : Rep → Nat × List (List Word)) : List Rep → List Rep
  | [] => []
  | r :: rs => if r.cmp == cmp && r.typ == typ && r.body.isNone then { r with body := some (f r) } :: rs
    else r :: resolveFirst cmp typ f rs

/-- The reply to message CMP of client c becomes due with these bodies (R450). -/
def State.resolve (s : State) (c : Nat) (cmp : BitVec 16) (typ : Nat) (f : Rep → Nat × List (List Word)) : State :=
  (s.onClient c fun cl => { cl with reps := resolveFirst cmp typ f cl.reps }).buildReps c

/-- The reply to message CMP of client c is resolved with a RESULT and a payload. -/
def State.resolveResult (s : State) (c : Nat) (cmp : BitVec 16) (typ result : Nat) (payload : List Word) : State :=
  s.resolve c cmp typ fun r =>
    (typ + 0x80, [replyWord cmp r.acc result :: (if 0xC0 ≤ result then [] else payload)])

/-- The reply to message CMP of client c becomes an ABORTED notice (R453). -/
def State.abort (s : State) (c : Nat) (cmp : BitVec 16) (typ cause : Nat) : State :=
  s.resolve c cmp typ fun _ => (0x71, [[abortWord cmp typ cause]])

/-- ABORTED for every accepted message of client c whose reply is not built, those not yet handled included (R453). -/
def State.abortAll (s : State) (c cause : Nat) : State :=
  (s.onClient c fun cl =>
    { cl with
      work := []
      reps := cl.reps.map fun r =>
        if r.body.isNone then { r with body := some (0x71, [[abortWord r.cmp r.typ cause]]) } else r }).buildReps c

/-! ### Fault bits (R196) -/

/-- TB-G is in holdover: sources are listed and none disciplines it (R378). -/
def State.holdover (s : State) : Bool := !(gOrder (s.strap 5)).isEmpty && s.time.gSrc.isNone

/-- The fault bits of R196 present: 0 supply comparator, 1 memory die retired, 2 timing margin exhausted, 3 STORE-FULL,
4 TB-G holdover, 5 spill device removed, 6 declared road node lost. -/
def State.faultBits (s : State) : Nat :=
  b2n s.straps.tripped + at_ (b2n s.cw.dieRetired) 1 + at_ (b2n (s.power.exhausted != 0)) 2 +
    at_ (b2n s.spill.alarm) 3 + at_ (b2n s.holdover) 4 + at_ (b2n s.spill.fault) 5 +
    at_ (b2n (s.roads.any fun r => !r.lostDecl.isEmpty)) 6

/-- A ceiling fault is present: bits 0, 1 or 2 (R507). -/
def State.ceiling (s : State) : Bool := s.straps.tripped || s.cw.dieRetired || s.power.exhausted != 0

/-- The steward's fault logic holds a Footpath vote (R507). -/
def State.faultVote (s : State) : Bool := s.cw.dieRetired || s.power.exhausted != 0

/-! ### Attention calls (R438–R440) -/

/-- The host-port block takes attention calls: some byte of it is not zero (R438), and TW is enabled (R52). -/
def State.attnOn (s : State) : Bool :=
  match s.port.inForce with
  | none => false
  | some im => im.clients.attnTries != 0 && (s.roleOf 5).isSome

/-- Raises a call of cause 0x1, 0x3 or 0x4 where CAUSEMASK enables it; it replaces the one that waits (R440). -/
def State.raiseCall (s : State) (cause : Nat) (code : BitVec 16) : State :=
  match s.port.inForce with
  | none => s
  | some im =>
    let bit := if cause = 1 then 0 else if cause = 3 then 1 else 2
    if s.attnOn && bitOf im.clients.causeMask bit then
      let k : Call := { cause := cause, code := code, engine := 0 }
      let a := s.attn
      { s with attn := if cause = 4 then { a with c4 := some k } else if cause = 3 then { a with c3 := some k }
                       else { a with c1 := some k } }
    else s

/-- Outcome of a total meaning. -/
abbrev Result := Host.Outcome State Fault Refusal

end Sys2Proof.Machine
end

