-- ==== Sys2Proof/Machine/Real.lean ====
section
/-! DEFINITION. Real arithmetic in fixed point: an integer stands for that number of units of 2^−96. The rules that give a
formula (R133, R136–R141, R168, R169, R173, R177, R252) are computed with it and rounded to the format at the end; the rules
do not give the width in between: assumption-log row 6. -/

namespace Sys2Proof.Machine

/-- The number 1. -/
def fxOne : Int := 2 ^ 96

/-- An integer quotient n / d. -/
def fxRat (n : Int) (d : Nat) : Int := n * fxOne / d

/-- Product. -/
def fxMul (a b : Int) : Int := a * b / fxOne

/-- Quotient; 0 where the divisor is 0. -/
def fxDiv (a b : Int) : Int := if b = 0 then 0 else a * fxOne / b

/-- Square root of a number that is not negative. -/
def fxSqrt (a : Int) : Int := isqrt (a.toNat * 2 ^ 96)

/-- The number that a finite binary32 word stands for. -/
def fxOf (w : Word) : Int := f32Int w / 2 ^ 53

/-- The binary32 word nearest to a number. -/
def fxWord (a : Int) : Word := f32OfRat a (2 ^ 96)

/-- π. -/
def fxPi : Int := 0x3243F6A8885A308D313198A2E

/-- ln 2. -/
def fxLn2 : Int := 0xB17217F7D1CF79ABC9E3B398

/-- Terms of the sine series after the term t of degree 2j + 1, x2 the square of the angle. -/
def sinSeries : Nat → Int → Int → Nat → Int
  | 0, _, _, _ => 0
  | f + 1, x2, t, j =>
    let u := -(fxMul t x2) / ((2 * j + 2) * (2 * j + 3) : Nat)
    u + sinSeries f x2 u (j + 1)

/-- Sine of an angle in radians. -/
def fxSin (x : Int) : Int :=
  let r := (x + fxPi) % (2 * fxPi) - fxPi
  r + sinSeries 32 (fxMul r r) r 0

/-- Cosine of an angle in radians. -/
def fxCos (x : Int) : Int := fxSin (x + fxPi / 2)

/-- Terms of the arctangent series from degree 2j + 1 on: p is (−1)^j t^(2j + 1). -/
def atanSeries : Nat → Int → Int → Nat → Int
  | 0, _, _, _ => 0
  | f + 1, t2, p, j => p / ((2 * j + 1 : Nat) : Int) + atanSeries f t2 (-(fxMul p t2)) (j + 1)

/-- The tangent of half the angle whose tangent is t. -/
def halfTan (t : Int) : Int := fxDiv t (fxOne + fxSqrt (fxOne + fxMul t t))

/-- Arctangent of a number between 0 and 1. -/
def fxAtan (t : Int) : Int :=
  let h := halfTan (halfTan (halfTan t))
  8 * atanSeries 40 (fxMul h h) h 0

/-- Angle in radians, −π to π, of the point (x, y) given in any one unit; 0 for the origin. -/
def fxAtan2 (y x : Int) : Int :=
  let a : Int := x.natAbs
  let b : Int := y.natAbs
  let q := if a = 0 ∧ b = 0 then 0 else if b ≤ a then fxAtan (fxDiv b a) else fxPi / 2 - fxAtan (fxDiv a b)
  let h := if x < 0 then fxPi - q else q
  if y < 0 then -h else h

/-- Terms of the exponential series after the term t of degree j. -/
def expSeries : Nat → Int → Int → Nat → Int
  | 0, _, _, _ => 0
  | f + 1, x, t, j =>
    let u := fxMul t x / ((j + 1 : Nat) : Int)
    u + expSeries f x u (j + 1)

/-- Exponential. -/
def fxExp (x : Int) : Int :=
  let k := x / fxLn2
  let e := fxOne + expSeries 40 (x % fxLn2) fxOne 0
  if 0 ≤ k then e * 2 ^ k.toNat else e / 2 ^ (-k).toNat

/-- Terms of the inverse hyperbolic tangent series from degree 2j + 1 on: p is t^(2j + 1). -/
def atanhSeries : Nat → Int → Int → Nat → Int
  | 0, _, _, _ => 0
  | f + 1, t2, p, j => p / ((2 * j + 1 : Nat) : Int) + atanhSeries f t2 (fxMul p t2) (j + 1)

/-- Natural logarithm of a quotient of positive integers; 0 where one is 0. -/
def fxLnRat (n d : Nat) : Int :=
  if n = 0 ∨ d = 0 then 0
  else
    let k : Int := (n.log2 : Int) - d.log2
    let m : Int := if 0 ≤ k then (n : Int) * fxOne / ((d : Int) * 2 ^ k.toNat) else (n : Int) * fxOne * 2 ^ (-k).toNat / d
    let t := fxDiv (m - fxOne) (m + fxOne)
    k * fxLn2 + 2 * atanhSeries 48 (fxMul t t) t 0

/-- Natural logarithm of a positive number. -/
def fxLn (a : Int) : Int := fxLnRat a.toNat (2 ^ 96)

/-- Degrees to radians. -/
def fxRad (a : Int) : Int := fxMul a fxPi / 180

/-- Radians to degrees. -/
def fxDeg (a : Int) : Int := fxDiv (a * 180) fxPi

/-! ### Vectors and matrices -/

/-- Scalar product. -/
def dotV (a b : List Int) : Int := ((a.zip b).map fun p => fxMul p.1 p.2).sum

/-- A matrix, given by its rows, times a vector. -/
def matVec (m : List (List Int)) (v : List Int) : List Int := m.map (dotV · v)

/-- Columns of a matrix of n columns as rows. -/
def transposeN (n : Nat) (m : List (List Int)) : List (List Int) := (List.range n).map fun k => m.map fun r => nth r k

/-- A 3 × 3 matrix transposed. -/
def transpose3 (m : List (List Int)) : List (List Int) := transposeN 3 m

/-- Product of 3 × 3 matrices. -/
def matMul3 (a b : List (List Int)) : List (List Int) := a.map fun r => (transpose3 b).map (dotV r)

/-- Sum of two vectors. -/
def addV (a b : List Int) : List Int := (a.zip b).map fun p => p.1 + p.2

/-- Difference of two vectors. -/
def subV (a b : List Int) : List Int := (a.zip b).map fun p => p.1 - p.2

/-- Length of a vector. -/
def lenV (v : List Int) : Int := isqrt ((v.map fun x => x.natAbs * x.natAbs).sum)

/-- The rotation by a vector of angles in radians (Rodrigues' formula). -/
def rotBy (w : List Int) : List (List Int) :=
  let a := lenV w
  if a = 0 then unit3
  else
    let u := w.map fun x => fxDiv x a
    let (x, y, z) := (nth u 0, nth u 1, nth u 2)
    let (c, s) := (fxCos a, fxSin a)
    let k := fxOne - c
    [[c + fxMul k (fxMul x x), fxMul k (fxMul x y) - fxMul s z, fxMul k (fxMul x z) + fxMul s y],
     [fxMul k (fxMul x y) + fxMul s z, c + fxMul k (fxMul y y), fxMul k (fxMul y z) - fxMul s x],
     [fxMul k (fxMul x z) - fxMul s y, fxMul k (fxMul y z) + fxMul s x, c + fxMul k (fxMul z z)]]

/-- The matrix that takes north–east–down vectors to the structure frame at heading ψ, pitch θ and roll φ in radians, applied
in that order (R161). -/
def eulerMat (roll pitch heading : Int) : List (List Int) :=
  let (cr, sr) := (fxCos roll, fxSin roll)
  let (cp, sp) := (fxCos pitch, fxSin pitch)
  let (ch, sh) := (fxCos heading, fxSin heading)
  [[fxMul cp ch, fxMul cp sh, -sp],
   [fxMul sr (fxMul sp ch) - fxMul cr sh, fxMul sr (fxMul sp sh) + fxMul cr ch, fxMul sr cp],
   [fxMul cr (fxMul sp ch) + fxMul sr sh, fxMul cr (fxMul sp sh) - fxMul sr ch, fxMul cr cp]]

/-- One column of a Gauss–Jordan elimination: row k becomes the pivot row, and the others lose their entry in column k. -/
def elimCol (rows : List (List Int)) (k : Nat) : List (List Int) :=
  let p := (nth rows k).map fun x => fxDiv x (nth (nth rows k) k)
  rows.mapIdx fun i r => if i = k then p else subV r (p.map fun x => fxMul (nth r k) x)

/-- The inverse of a positive definite n × n matrix with the solution for a right-hand side in front: n rows of 1 + n
numbers. -/
def solveN (n : Nat) (a : List (List Int)) (b : List Int) : List (List Int) :=
  let rows := a.mapIdx fun i r => r ++ [nth b i] ++ (List.range n).map fun j => if i = j then fxOne else 0
  ((List.range n).foldl elimCol rows).map (·.drop n)

/-! ### Spectra (R168) -/

/-- Weight j of a Hann window over n instants. -/
def hannAt (n j : Nat) : Int := (fxOne - fxCos (2 * fxPi * j / n)) / 2

/-- Bin k of the transform of a windowed segment, real and imaginary part. -/
def hannBin (xs : List Int) (k : Nat) : Int × Int :=
  let n := xs.length
  let ws := xs.mapIdx fun j x => (fxMul (hannAt n j) x, 2 * fxPi * (j * k % n : Nat) / n)
  ((ws.map fun p => fxMul p.1 (fxCos p.2)).sum, -(ws.map fun p => fxMul p.1 (fxSin p.2)).sum)

end Sys2Proof.Machine
end

