-- ==== Sys2Proof/Machine/Inertial.lean ====
section
/-! DEFINITION. Inertial sensing and filter chains (04_inertial.md): the five stages at every 8192 Hz instant, the
crossover, the streams' words, readout faults and settling. -/

namespace Sys2Proof.Machine

/-! ### The triads (R100, R112, R126–R128) -/

/-- Rated range of a source in its own LSB (R100). -/
def ratedLsb (src : Nat) : Nat :=
  match src with
  | 3 => 7500000
  | 5 => 6000000
  | _ => 8000000

/-- Rated range of the sensitive triad of a fused source in the fused source's LSB (R117, R128). -/
def sensitiveLsb (src : Nat) : Nat := if src = 6 then 1000000 else 600000

/-- Code of a word that no other condition marks (R100). -/
def normalCode (src : Nat) : Nat := if src = 2 then 3 else if src = 5 then 6 else 0

/-- The sensitive and the robust triad of fused channel f: 0 ACC-F, 1 GYR-F (R112). -/
def sensitiveOf (f : Nat) : Nat := if f = 0 then 0 else 3
/-- The robust triad of a fused channel (R112). -/
def robustOf (f : Nat) : Nat := if f = 0 then 1 else 4

/-- Leave and return thresholds in the LSB of a triad (R112): 1.84 g and 1.60 g, 138 °/s and 120 °/s. -/
def leaveLsb (src : Nat) : Nat :=
  match src with
  | 0 => 7360000
  | 1 => 920000
  | 3 => 6900000
  | _ => 552000
/-- Return threshold of a robust triad in its LSB (R112). -/
def returnLsb (src : Nat) : Nat := if src = 1 then 800000 else 480000

/-- A triad is powered in a mode (R128). -/
def poweredIn (m : Mode) (src : Nat) : Bool :=
  match m with
  | .highway => true
  | .lane => true
  | .footpath => src == 0 || src == 3 || src == 5
  | .layby => false

/-- A triad's readout is usable: powered, settled and not faulted (R117, R126). -/
def Triad.ok (t : Triad) : Bool := t.powered && t.settled && !t.fault

/-- The triads as a mode powers them: a triad that comes up has to settle (R126, R128). -/
def powerTriads (ts : List Triad) (m : Mode) : List Triad :=
  ts.mapIdx fun i t =>
    if poweredIn m i then
      if t.powered then t else { t with powered := true, settled := false }
    else { t with powered := false, settled := false, measured := false }

/-! ### Stages 1–3 and the crossover (R105–R108, R112–R117) -/

/-- The terms of a channel that the instants of a mark use: those in force at that mark, though the last two instants of a
mark come after the next mark (R16, R107). -/
def CalCh.termsAt (c : CalCh) (mark : Nat) : List Word := if markLt mark c.since then c.was else c.terms

/-- Terms of a source's calibration channel at the instant in progress (R106, R107). -/
def Motion.termsOf (m : Motion) (src : Nat) : List Word := (nth m.cal src).termsAt (m.instant / 8)

/-- A die temperature measured (R106): at 1024 S/s, filtered with a time constant of 1 s. The first measurement after power-up
starts the filter; its form, one 1024th of the difference a sample, is the model's choice: assumption-log row 75. -/
def Triad.measure (t : Triad) (x : Int) : Triad :=
  if t.measured then { t with temp := t.temp + (x * fxOne - t.temp) / 1024 }
  else { t with temp := x * fxOne, measured := true }

/-- A cubic in t (R106). -/
def cubic (c : Nat → Int) (t : Int) : Int := c 0 + fxMul t (c 1 + fxMul t (c 2 + fxMul t (c 3)))

/-- LSB of a source for one unit of its bias terms, as a quotient: g, °/h and µT (R100, R135, R138, R140). -/
def lsbPerUnit (src : Nat) : Int × Nat :=
  match src with
  | 0 => (4000000, 1)
  | 1 => (500000, 1)
  | 2 => (40000, 1)
  | 3 => (50000, 3600)
  | 4 => (4000, 3600)
  | _ => (50000, 1)

/-- C0–C2 of a source's channel in LSB (R135, R138, R140). -/
def biasVec (src : Nat) (terms : List Word) : List Int :=
  (List.range 3).map fun a => fxOf (nth terms a) * (lsbPerUnit src).1 / (lsbPerUnit src).2

/-- M of R135 and I + W of R140. -/
def termMat (terms : List Word) : List (List Int) :=
  let c (k : Nat) : Int := fxOf (nth terms k)
  [[fxOne + c 3, c 6, c 7], [c 6, fxOne + c 4, c 8], [c 7, c 8, fxOne + c 5]]

/-- Temperature compensation of one reading (R106): the factory cubics at the filtered die temperature. -/
def compensate (t : Triad) (src : Nat) (r : TriadReading) : List Int :=
  [r.x, r.y, r.z].mapIdx fun a v =>
    fxMul (cubic (Config.tempScale src a) t.temp) (v * fxOne - cubic (Config.tempBias src a) t.temp)

/-- A number of LSB in units of 2^−96 as whole LSB. -/
def toLsb (v : List Int) : List Int := v.map fun x => roundDiv x (2 ^ 96)

/-- Stage 1 on one reading, in LSB on the triad's own axes (R106): temperature compensation, then the sea-calibration bias and
scale in force; MAG's terms belong to stage 2 (R107). The factory alignment, at most 0.05°, is not undone for the biases, and
the result is whole LSB: assumption-log row 75. -/
def stageOne (m : Motion) (src : Nat) (r : TriadReading) : List Int :=
  let v := compensate (nth m.triads src) src r
  let terms := m.termsOf src
  if src = 5 then toLsb v
  else toLsb ((subV v (biasVec src terms)).mapIdx fun a x => fxMul (fxOne + fxOf (nth terms (3 + a))) x)

/-- The uncorrected module-frame reading (R107, R135): the compensated reading through the factory alignment matrix. -/
def moduleReading (m : Motion) (src : Nat) (r : TriadReading) : List Int :=
  matVec ((List.range 3).map fun i => (List.range 3).map fun j => Config.alignment src i j) (compensate (nth m.triads src) src r)

/-- The corrected module-frame reading M (r − b), or (I + W)(r − h) of MAG (R107, R135, R138, R140). -/
def corrected (m : Motion) (src : Nat) (r : List Int) : List Int :=
  matVec (termMat (m.termsOf src)) (subV r (biasVec src (m.termsOf src)))

/-- Stages 2 and 3: the corrected reading in whole LSB (assumption-log row 75), and the mounting rotation (R107, R108). -/
def stageTwoThree (orient : Nat) (f : List Int) : List Int :=
  let w := toLsb f
  rotate orient (nth w 0) (nth w 1) (nth w 2)

/-- Some axis is at or above a limit in magnitude. -/
def anyAtOrAbove (v : List Int) (lim : Nat) : Bool := v.any fun x => decide (lim ≤ x.natAbs)

/-- Every axis is at or below a limit in magnitude. -/
def allAtOrBelow (v : List Int) (lim : Nat) : Bool := v.all fun x => decide (x.natAbs ≤ lim)

/-- The conditions on which a fused channel leaves its sensitive triad at an instant (R113). -/
def leaves (f : Nat) (sens rob : List Int) (sensOver : Bool) : Bool :=
  anyAtOrAbove sens (leaveLsb (sensitiveOf f)) || sensOver || anyAtOrAbove rob (leaveLsb (robustOf f))

/-- An instant that counts towards the return (R114). -/
def quiet (f : Nat) (rob : List Int) (sensOver : Bool) : Bool :=
  allAtOrBelow rob (returnLsb (robustOf f)) && !sensOver

/-- Dwell count and choice of a fused channel at an instant (R113, R114): true takes the robust triad. -/
def crossover (f : Nat) (robust : Bool) (dwell : Nat) (sens rob : List Int) (sensOver : Bool) : Bool × Nat :=
  let d := if quiet f rob sensOver then dwell + 1 else 0
  if robust then (decide (d < 8), d) else (leaves f sens rob sensOver, d)

/-- The triad a fused channel takes where one of its triads is faulted or unpowered (R117, R128). -/
def takesRobust (sensFault robFault footpath chosen : Bool) : Bool :=
  if footpath then false else if sensFault then true else if robFault then false else chosen

/-- A sensitive triad's vector in the LSB of the fused source (R100). R105 does not say where a fused vector is quantised:
each 8192 Hz input is rounded to that LSB here, before stage 4 (DESIGN CHOICE, assumption-log row 75). -/
def toFused (f : Nat) (v : List Int) : List Int :=
  v.map fun x => if f = 0 then roundDiv x 8 else roundDiv (x * 2) 25

/-- The input that a MAG vector gives: a blanked one takes the last vector that was not blanked (R125). -/
def blankInput (prev : Option Inp) (i : Inp) : Inp :=
  if i.blank then
    match prev with
    | some p => { i with v := p.v }
    | none => { i with v := [0, 0, 0] }
  else i

/-- The widest filter window in 8192 Hz instants: template 2 at 1/64 S/s (R109). -/
def windowMax : Nat := 16777217

/-- The inputs of one source with a new one in front. -/
def pushInp (l : List Inp) (i : Inp) : List Inp := (i :: l).take windowMax

/-- The direct input of a triad at an instant, from its uncorrected module-frame reading w (R105). -/
def directInput (m : Motion) (orient src : Nat) (r : TriadReading) (w : List Int) (blank : Bool) : Inp :=
  let v := stageTwoThree orient (corrected m src w)
  { v := v, code := normalCode src, ok := (nth m.triads src).ok, blank := blank,
    beyond := v.any fun x => decide (ratedLsb src < x.natAbs) || r.overload }

/-- The fused input (R112–R117, R128). What the crossover does while a triad only settles after power-up is not stated: a triad
that settles counts there as one that has faulted (DESIGN CHOICE, assumption-log row 75). -/
def fusedInput (m : Motion) (f : Nat) (footpath robust : Bool) (sens rob : Inp) : Inp :=
  let st := nth m.triads (sensitiveOf f)
  let rt := nth m.triads (robustOf f)
  let r := takesRobust (!st.ok) (!rt.ok) footpath robust
  let lim := if footpath || !rt.ok then sensitiveLsb (6 + f) else ratedLsb (6 + f)
  let v := if r then rob.v else toFused f sens.v
  { v := v, code := if f = 0 then (if r then 2 else 1) else (if r then 5 else 4), ok := if r then rt.ok else st.ok,
    blank := false, beyond := v.any fun x => decide (lim < x.natAbs) }

/-- Angles in radians that a GYR-L reading turns by in one instant (R131). -/
def turnOf (w : List Int) : List Int := w.map fun x => fxMul x fxPi / (50000 * 180 * 8192)

/-- A block with one instant more (R131, R132): w are the uncorrected module-frame readings, gyr the corrected one of GYR-L;
the readings of usable triads join the sums, turned back by the rotation so far. A blanked MAG reading comes already replaced by
the last one that was not blanked (R125). -/
def BlockNote.add (b : BlockNote) (instant : Nat) (w : List (List Int)) (gyr : List Int) (ok : List Bool) (rs : List TriadReading)
    (magBlank : Bool) : BlockNote :=
  { b with
    n := b.n.mapIdx fun i k => k + b2n (nth ok i)
    sums := b.sums.mapIdx fun i x => if nth ok i then addV x (matVec b.rot (nth w i)) else x
    rot := matMul3 b.rot (rotBy (turnOf gyr))
    mid := if instant = 8 * (b.start + 30720) then b.rot else b.mid
    beyond := [nth b.beyond 0 || (nth rs 0).overload, nth b.beyond 1 || (nth rs 3).overload]
    blanked := b.blanked + b2n magBlank
    inputs := b.inputs + 1 }

/-- The block an instant belongs to: the last two instants of a block come after the mark that begins the next (R16). -/
def Motion.noteBlock (m : Motion) (f : BlockNote → BlockNote) : Motion :=
  if m.instant < 8 * m.block.start then { m with blockDone := f m.blockDone } else { m with block := f m.block }

/-- The die temperatures of the powered triads, measured at each common instant (R106). -/
def Motion.takeTemps (m : Motion) (rs : List TriadReading) : Motion :=
  if m.instant % 8 = 0 then
    { m with triads := m.triads.mapIdx fun i t => if t.powered then t.measure (nth rs i).temp else t }
  else m

/-- Stages 1–3 and the crossover at one instant (R104, R105): die temperatures, histories, choices and dwell counts, and what
the calibration block takes of it (R131, R132). -/
def Motion.sense (m : Motion) (orient : Nat) (footpath magBlank : Bool) (rs : List TriadReading) : Motion :=
  let m := m.takeTemps rs
  let one := (List.range 6).map fun i => stageOne m i (nth rs i)
  let read (i : Nat) : List Int := moduleReading m i (nth rs i)
  let mag := if magBlank then m.magLast else read 5
  let w := ((List.range 5).map read) ++ [mag]
  let dir := (List.range 6).map fun i =>
    let d := directInput m orient i (nth rs i) (nth w i) (i == 5 && magBlank)
    if i = 5 then blankInput ((nth m.hist 5).head?) d else d
  let cross := (List.range 2).map fun f =>
    crossover f (nth m.robust f) (nth m.dwell f) (nth one (sensitiveOf f)) (nth one (robustOf f))
      (nth rs (sensitiveOf f)).overload
  let fus := (List.range 2).map fun f =>
    fusedInput m f footpath (nth cross f).1 (nth dir (sensitiveOf f)) (nth dir (robustOf f))
  let m := m.noteBlock fun b =>
    b.add m.instant w (corrected m 3 (nth w 3)) (m.triads.map (·.ok)) rs magBlank
  { m with
    robust := (List.range 2).map fun f =>
      takesRobust (!(nth m.triads (sensitiveOf f)).ok) (!(nth m.triads (robustOf f)).ok) footpath (nth cross f).1
    magLast := mag
    dwell := cross.map (·.2)
    hist := (List.range 8).map fun i => pushInp (nth m.hist i) (nth (dir ++ fus) i) }

/-! ### Stages 4 and 5 (R109–R111, R115, R122, R125–R127) -/

/-- Group delay of a template in output periods (R109). -/
def groupDelay (template : Nat) : Nat :=
  match template with
  | 0 => 0
  | 1 => 8
  | 2 => 16
  | 3 => 2
  | 4 => 4
  | 5 => 1
  | 6 => 8
  | 7 => 8
  | 8 => 8
  | 9 => 6
  | 10 => 16
  | _ => 4

/-- Output period of a rate code in 8192 Hz instants (R119). -/
def periodOf (rate : Nat) : Nat := 2 ^ (19 - rate)

/-- The len inputs of a filter window, oldest first: those that are missing, before the stream or the triad ran, take the first
available one (R126). R117 does not say what the inputs of a faulted triad count as: they take that input too, and stay as they
were read where the window holds no good one (DESIGN CHOICE, assumption-log row 75). -/
def windowInputs (len : Nat) (l : List Inp) : List Inp :=
  let w := l.reverse
  let first := ((w.find? (·.ok)).orElse fun _ => w.head?).getD default
  List.replicate (len - w.length) first ++
    (if first.ok then w.map fun i => if i.ok then i else { i with v := first.v } else w)

/-- Output of stage 4 on one axis from a whole window (R109): template 0 passes the input, template 5 is the triangular window
over two output periods, and every other template is a linear-phase filter whose weights are not stated. R109 gives no
rounding: the result is the nearest LSB (DESIGN CHOICE, assumption-log row 75). -/
def filterAxis (template rate : Nat) (w : List Int) : Int :=
  if template = 0 then nth w 0
  else if template = 5 then
    let p := periodOf rate
    roundDiv ((w.mapIdx fun j x => ((p - (max j p - min j p) : Nat) : Int) * x).sum) (p * p)
  else
    let g := w.length / 2
    roundDiv ((w.mapIdx fun j x => Config.tap template rate (max j g - min j g) * x).sum) (2 ^ 96)

/-- A filtered value as a sample word: saturated at the representable range (R100, R127). -/
def axisWord (v : Int) (lim : Nat) (codes : List Nat) : Word :=
  let sat := max (-8388607) (min 8388607 v)
  sampleWord sat (worstCode (codeIf (decide (lim < v.natAbs)) 0x23 :: codes))

/-- The words of one output instant of a stream from its window, newest first (R109–R117, R125–R127): half is half an output
period in instants, cut says that the window reached back before the stream. A fused word in Footpath whose span of half a period
reaches back to robust inputs from before the entry keeps R115's code 0x02 or 0x05, though R128 gives Footpath's words 0x01 or
0x04 (DESIGN CHOICE, assumption-log row 75). -/
def outputWords (st : Stream) (lim half g : Nat) (win : List Inp) (cut : Bool) (last : List Word) : List Word :=
  let w := windowInputs (2 * g + 1) win
  let blanked := win.any (·.blank)
  let settling := cut || win.any fun i => !i.ok
  let robust := (win.zipIdx.filter fun p => max p.2 g - min p.2 g ≤ half).any fun p => p.1.code == 2 || p.1.code == 5
  let src := if st.source = 6 then (if robust then 2 else 1) else if st.source = 7 then (if robust then 5 else 4)
    else normalCode st.source
  let axes := if st.axes = 3 then [0, 1, 2] else [st.axes]
  axes.mapIdx fun k a =>
    let x := axisWord (filterAxis st.template st.rate (w.map fun i => nth i.v a)) lim [codeIf settling 0x11, src]
    if blanked then sampleWord (sampleVal (nth last k)) 0x30 else x

/-- Reference instant of the output whose window closes at instant i, where the stream's grid has one (R110, R111). -/
def refInstant (st : Stream) (i : Nat) : Option Nat :=
  let p := periodOf st.rate
  let d := groupDelay st.template * p
  if d ≤ i ∧ (i - d) % p = 0 then some (i - d) else none

/-- Range that marks a word 0x23 (R117, R127, R128). -/
def overLimit (m : Motion) (footpath : Bool) (src : Nat) : Nat :=
  if src = 6 ∨ src = 7 then
    if footpath || !(nth m.triads (robustOf (src - 6))).ok then sensitiveLsb src else ratedLsb src
  else ratedLsb src

/-- A stream runs in a mode (R128). -/
def streamRuns (footpath : Bool) (st : Stream) : Bool := !footpath || st.fp

/-- The output of a stream at instant i: its words and reference instant (R109–R111); none once the stream has ended
(R20), and none of an instant before a step of TB-G (R375). What a window that spans a step takes for the skipped instants is not
stated: the inputs on both sides count as consecutive (DESIGN CHOICE, assumption-log row 75). -/
def streamOutput (m : Motion) (footpath : Bool) (i : Nat) (ss : StreamSt) : Option (Nat × List Word) :=
  let st := ss.entry
  match refInstant st i with
  | none => none
  | some ref =>
    if ref < ss.first || (match ss.ends with
      | some e => decide (e ≤ ref)
      | none => false) then none
    else
      let g := groupDelay st.template * periodOf st.rate
      let len := 2 * g + 1
      let have_ := i - ss.since + 1
      let win := (nth m.hist st.source).take (min len have_)
      some (ref, outputWords st (overLimit m footpath st.source) (periodOf st.rate / 2) g win
        (decide (win.length < len)) ss.lastGood)

/-- What a stream keeps of its words: those without 0x30 (R125). -/
def StreamSt.note (ss : StreamSt) (ws : List Word) : StreamSt :=
  if ws.any fun w => sampleCode w == 0x30 then ss else { ss with lastGood := ws }

/-- A stream has ended and its last window has closed (R20, R111). -/
def StreamSt.beyond (ss : StreamSt) (i : Nat) : Bool :=
  match ss.ends with
  | some e => decide (e + groupDelay ss.entry.template * periodOf ss.entry.rate ≤ i)
  | none => false

/-- A packet that the plan before or after a commit opened under the same tag closes first (R20). -/
def State.closeOther (s : State) (tag : Word) (ss : StreamSt) : State :=
  match s.cw.openOf tag with
  | some p =>
    if decide (8 * p.mark + 7 < ss.first) || (match ss.ends with
      | some e => decide (e ≤ 8 * p.mark)
      | none => false) then s.closeOpen tag true else s
  | none => s

/-- The mode that an instant follows is Footpath (R16, R31, R128): the last two instants of a mark come after the next mark, at
which another mode may come. What a stream's filter still holds at a stop is not written: assumption-log row 75. -/
def State.footpathAt (s : State) (i : Nat) : Bool :=
  if i < 8 * s.power.modeAt then s.power.modeBefore == some .footpath else s.inMode .footpath

/-- The output of the stream at place k of the list at instant i, written into its packet (R110, R121, R122); a stream that
has ended closes its packet short (R187). -/
def State.streamAt (s : State) (i k : Nat) : State :=
  let footpath := s.footpathAt i
  let ss := nth s.mot.streams k
  let st := ss.entry
  if ss.beyond i then s.closePacket (streamTag ss.num st)
  else if streamRuns footpath st then
    match streamOutput s.mot footpath i ss with
    | none => s
    | some (ref, ws) =>
      let s := { s with mot := { s.mot with streams := s.mot.streams.modify k (·.note ws) } }
      let s := s.closeOther (streamTag ss.num st) ss
      s.putBlock 8 (streamTag ss.num st) (ref / 8) (ref / periodOf st.rate % st.pktSamples) st.pktSamples
        (if st.axes = 3 then 3 else 1) ws
  else s

/-- The instant after i: past the marks that a step of TB-G skipped (R104, R374). -/
def nextInstant (i gIdx : Nat) : Nat := if (i + 1) % 8 = 0 then 8 * max gIdx ((i + 1) / 8) else i + 1

/-- The image whose settings an instant of a mark follows: the last two instants of a mark come after the next mark, which may
bring another image (R16, R20). -/
def ImagePort.imageAt (p : ImagePort) (mark : Nat) : Option Image := if markLt mark p.since then p.before else p.inForce

/-- The MAG input of the instant in progress is blanked (R125). -/
def State.magBlanked (s : State) : Bool :=
  (match s.port.imageAt (s.mot.instant / 8) with
    | some im => im.inertial.magBlank
    | none => false) && (s.fe.blank || s.fe.magEnd.isSome)

/-- The triads at an instant: those that the mode in force does not run go off after the last instant before it (R16, R128). -/
def State.triadsAt (s : State) (i : Nat) : Motion :=
  match s.power.mode with
  | some m => if i < 8 * s.power.modeAt then s.mot else { s.mot with triads := powerTriads s.mot.triads m }
  | none => s.mot

/-- The packets of the streams that a change of mode stopped close with the last instant before it (R31, R128). -/
def State.closeStopped (s : State) (i : Nat) : State :=
  if i + 1 = 8 * s.power.modeAt then
    (s.mot.streams.filter fun ss => !streamRuns (s.inMode .footpath) ss.entry || s.inMode .layby).foldl (fun s ss =>
      s.closeOpen (streamTag ss.num ss.entry) true) s
  else s

/-- An instant is sampled (R104, R128, R516): its mark is issued, and the mode that it follows samples. -/
def State.samples (s : State) (i : Nat) : Bool :=
  s.running && markLe (i / 8) s.mark && (s.awake || (s.power.entering.isSome && decide (i < 8 * s.power.modeAt)))

/-- INERTIAL_INSTANT (R104–R116): one 8192 Hz instant of a mark already issued, in a mode that samples. -/
def doInertialInstant (rs : List TriadReading) (s : State) : State :=
  let i := s.mot.instant
  if s.samples i then
    let m := (s.triadsAt i).sense (s.strap 11) (s.footpathAt i) s.magBlanked rs
    let s := { s with mot := m }
    let s := (List.range s.mot.streams.length).foldl (fun s k => s.streamAt i k) s
    { s with mot := { s.mot with instant := nextInstant i s.mark, last := some i,
                                 streams := s.mot.streams.filter fun ss => !ss.beyond i } }.closeStopped i
  else s

def execInertialInstant (triads : List TriadReading) (s : State) : Result :=
  if triads.length = 6 then .next (doInertialInstant triads s) else .fault .illFormed

/-! ### Readout faults and settling (R117, R126) -/

/-- A triad runs without a readout fault (R117). -/
def Triad.runs (t : Triad) : Bool := t.powered && !t.fault

/-- Recognisers whose input goes with a readout fault of a source (R174, R182): CAPSIZE, TILT and DRIFT take a fused channel in
Highway and Lane, which goes on with its other triad (R117), and the sensitive triad in Footpath (R160). -/
def Motion.recsOfTriad (m : Motion) (footpath : Bool) (src : Nat) : List Nat :=
  let alone (other : Nat) : Bool := footpath || !(nth m.triads other).runs
  match src with
  | 0 => 2 :: if alone 1 then [3, 4, 5] else []
  | 1 => if alone 0 then [3, 4, 5] else []
  | 2 => [0]
  | 3 => if alone 4 then [5] else []
  | 4 => if alone 3 then [5] else []
  | _ => [5]

/-- One triad changed. -/
def Motion.onTriad (m : Motion) (i : Nat) (f : Triad → Triad) : Motion := { m with triads := m.triads.modify i f }

end Sys2Proof.Machine
end

