-- ==== Sys2Proof/Machine/Products.lean ====
section
/-! DEFINITION. Motion products (06_motion_products.md R160–R173): strapdown inputs, attitude and displacement values, wave
records and heave statistics. The solution's own arithmetic is not stated (assumption-log row 5); what the records compute from
its values is done in fixed point (row 6). -/

namespace Sys2Proof.Machine

/-! ### PSTAT (R166, R167) -/

/-- The flags of two PSTAT words together and their impaired instants added. -/
def pstatAdd (a b : Word) : Word :=
  ((a ||| b) &&& 0x3FE00000) ||| word (satN 16 (fld a 15 0 + fld b 15 0))

/-- PSTAT as written (R166, R167): bit 21, kept inside the model for the heave channel, joins CALNS where the product uses
the heave chain; imp of drawn input instants are impaired. -/
def pstatFinal (p : Word) (heave : Bool) (imp drawn : Nat) : Word :=
  let p := if heave && bitOf p.toNat 21 then p ||| 0x04000000 else p
  let p := (p &&& 0x3FC00000) ||| word (satN 16 imp)
  let q := if bitOf p.toNat 22 || decide (drawn < 10 * imp) then 2
    else if bitOf p.toNat 27 || bitOf p.toNat 26 || bitOf p.toNat 25 || bitOf p.toNat 24 then 1 else 0
  p ||| word (at_ q 30)

/-- QUALITY of a PSTAT word (R166). -/
def pstatQuality (p : Word) : Nat := fld p 31 30

/-! ### Strapdown inputs (R160) -/

/-- Mean of numbers. -/
def meanI (l : List Int) : Int := l.sum / (l.length : Int)

/-- One internal chain on three axes: the weights are not stated. -/
def chainOf (m : Motion) (src template rate len scale : Nat) : List Int :=
  let w := windowInputs len ((nth m.hist src).take len)
  [0, 1, 2].map fun a => filterAxis template rate (w.map fun i => nth i.v a) * scale

/-- Specific force in 0.25 µg, angular rate in 10 µ°/s and field in 0.02 nT at 256 S/s; the field follows at 64 S/s (R160). -/
def strapInput (m : Motion) (footpath : Bool) (mark : Nat) (prev : Option (List Int)) : List Int :=
  let f := if footpath then chainOf m 0 12 14 129 1 else chainOf m 6 12 14 129 8
  let g := if footpath then chainOf m 3 12 14 129 2 else chainOf m 7 12 14 129 25
  let h := match prev with
    | some p => if mark % 16 = 0 then chainOf m 5 13 12 2049 1 else p.drop 6
    | none => chainOf m 5 13 12 2049 1
  f ++ g ++ h

/-- The PSTAT flags of one strapdown input: what the 32 instants of its 1/256 s say of force, rate and field (R166). A channel
that the product uses is ACC-A, GYR-L and MAG, and ACC-B or GYR-H where the robust triad is taken. Bits 21–18 are the model's
own: the heave channel is not settled, and force, rate and field are settling, faulted, blanked or missing (R175). -/
def State.strapFlags (s : State) : Word :=
  let footpath := s.inMode .footpath
  let of (src : Nat) := (nth s.mot.hist src).take 32
  let f := of (if footpath then 0 else 6)
  let g := of (if footpath then 3 else 7)
  let h := of 5
  let all := f ++ g ++ h
  let bad (l : List Inp) : Bool := l.isEmpty || l.any fun i => !i.ok || i.blank
  let robF := f.any fun i => i.code == 2
  let robG := g.any fun i => i.code == 5
  let unsettled (ch : Nat) : Bool := (nth s.mot.cal ch).st != 2
  word (at_ (b2n footpath) 29 + at_ (b2n (robF || robG)) 28 + at_ (b2n (all.any (·.beyond))) 27 +
    at_ (b2n (unsettled 0 || unsettled 3 || unsettled 5 || (robF && unsettled 1) || (robG && unsettled 4))) 26 +
    at_ (b2n ((nth s.mot.cal 5).st == 3 || decide (s.mot.coverage < 270))) 25 +
    at_ (b2n (bad f || bad g || bad h)) 24 + at_ (b2n (nth s.way.recs 3).active) 22 +
    at_ (b2n (unsettled 6)) 21 + at_ (b2n (bad f)) 20 + at_ (b2n (bad g)) 19 + at_ (b2n (bad h)) 18)

/-- Inputs kept: an hour, the longest window that a recogniser asks for (R185). -/
def inputsKept : Nat := 921600

/-- How many of the newest n inputs have OVER or GAPIN (R166, R167): a missing input counts as GAPIN. -/
def impairedIn (fl : List Word) (n : Nat) : Nat :=
  ((fl.take n).filter fun w => bitOf w.toNat 24 || bitOf w.toNat 27).length + (n - (fl.take n).length)

/-- ROBUST, OVER and GAPIN of the newest n inputs, and IMPAIRED, which saturates (R166). -/
def windowFlags (fl : List Word) (n : Nat) : Word :=
  let l := fl.take n
  let miss : Word := if l.length < n then 0x01000000 else 0
  ((l.foldl (· ||| ·) miss) &&& 0x19000000) ||| word (satN 16 (impairedIn fl n))

/-- FOOTPATH, CALNS, MAGDIST, CAPS and the heave channel's flag at n inputs, the newest skip of which are later (R166). -/
def instantFlags (fl : List Word) (skip n : Nat) : Word := ((fl.drop skip).take n).foldl (· ||| ·) 0 &&& 0x26600000

/-- Inputs that a value adds to what its packet or record draws on: its whole window where it is the first. -/
def newInputs (g n : Nat) (first : Bool) : Nat := if first then 2 * g + 1 else n

/-- Flags of a value whose window closes with the newest input and reaches g inputs to either side of its instant (R163, R166):
values follow every n inputs, so that a value that is not the first adds the newest n to what its packet draws on. -/
def flagsOf (fl : List Word) (g n : Nat) (first : Bool) : Word :=
  windowFlags fl (newInputs g n first) ||| instantFlags fl (g + 1 - n) n

/-- Input instants that k values draw on (R167). -/
def drawnOn (g n k : Nat) : Nat := 2 * g + 1 + n * (k - 1)

/-! ### Values (R161–R163) -/

/-- A value kept between two bounds; a NaN gives the lower one. -/
def clampW (lo hi w : Word) : Word := if f32Le lo w then (if f32Le w hi then w else hi) else lo

/-- An angle in degrees brought into [0, 360). -/
def wrap360 (w : Word) : Word :=
  let r := f32OfRat (f32Int w % (360 * 2 ^ 149)) (2 ^ 149)
  if r = 0x43B40000 then 0 else r

/-- ±180, ±90 as words (R161). -/
def w180 : Word := 0x43340000
/-- 90 as a word. -/
def w90 : Word := 0x42B40000

/-- The calibration block in force (R153). -/
def State.calBlock (s : State) : CalBlock :=
  match s.port.inForce with
  | some im => im.inertial.cal
  | none => default

/-- The corner ladder in 0.1 mHz (R142). -/
def cornerLadder : List Nat := [50, 59, 71, 84, 100, 119, 141, 168]

/-- A corner as C0, in Hz. -/
def cornerWord (i : Nat) : Word := f32OfRat ((nth cornerLadder i : Nat) : Int) 10000

/-- Roll, pitch, true and magnetic heading at a reference mark (R161). -/
def attitudeOf (inputs : List (List Int)) (ref : Nat) (decl : Word) : List Word :=
  let mag := wrap360 (Config.strapdown 2 ref inputs)
  [clampW (f32Neg w180) w180 (Config.strapdown 0 ref inputs), clampW (f32Neg w90) w90 (Config.strapdown 1 ref inputs),
   wrap360 (f32Add mag decl), mag]

/-- Heave, surge and sway at a reference mark under a corner (R162). -/
def displacementOf (inputs : List (List Int)) (ref corner : Nat) : List Word :=
  [3, 4, 5].map fun k => Config.strapdown k ref ([(corner : Int)] :: inputs)

/-- DECL at a mark (R161, R187). -/
def State.declAt (s : State) (mark : Nat) : Word :=
  match s.prod.decls.find? fun x => decide (x.1 ≤ mark) with
  | some x => x.2
  | none => s.calBlock.decl

/-- Roll, pitch, true and magnetic heading at a mark: the value formed there, or else what the solution gives now (R131,
R161, R168). -/
def State.attAt (s : State) (mark : Nat) : List Word :=
  match s.prod.atts.find? (·.1 == mark) with
  | some x => x.2
  | none => attitudeOf s.prod.inputs mark (s.declAt mark)

/-- A value of kind 0x01 or 0x02 written into its packet, whose first payload word is PSTAT (R122, R167): its window reaches
4g marks to either side of its reference mark, and values follow every 4n marks. -/
def State.putValue (s : State) (e : MotionEntry) (mark g n : Nat) (ws : List Word) : State :=
  let tag := productTag e.kind e.view
  let idx := mark / (4 * n) % e.pktSamples
  let s := if idx = 0 then s.closePacket tag else s
  let s := match s.cw.openOf tag with
    | some _ => s
    | none => s.openFor { openPacket 10 tag mark (1 + (e.pktSamples - idx) * 3) with gap := idx != 0 }
  let fresh := match s.cw.openOf tag with
    | some p => p.words.isEmpty
    | none => false
  let s := if fresh then { s with cw := s.cw.append tag [0] } else s
  let s := { s with cw := s.cw.append tag ws }
  { s with cw := { s.cw with opens := s.cw.opens.map fun p =>
      if p.tag == tag then
        let old := nth p.words 0
        let was := if bitOf old.toNat 26 && e.kind == 2 then old ||| 0x00200000 else old
        let acc := pstatAdd was (flagsOf s.prod.inFlags g n fresh)
        { p with words := p.words.set 0 (pstatFinal acc (e.kind == 2) (fld acc 15 0) (drawnOn g n ((p.words.length - 1) / 3))) }
      else p } }

/-- The entry at work of a kind that takes values of a mark (R187). -/
def State.prodEntry (s : State) (kind mark : Nat) : Option MotionEntry :=
  (s.prod.entries.find? fun e => e.entry.kind == kind && decide (e.since ≤ mark) &&
    (match e.ends with
      | some m => decide (mark < m)
      | none => true)).map (·.entry)

/-- Attitude values kept: those of the longest record and of the 128 s until its last displacement value (R58, R163). -/
def attsKept : Nat := 59776

/-- An attitude packet that a commit has ended closes short with its last value (R187): the next one after ref is not before the
commit's mark. -/
def State.endAttitude (s : State) (ref : Nat) : State :=
  let ended := s.prod.entries.filter fun e => e.entry.kind == 1 && (match e.ends with
    | some m => decide (m ≤ ref + 64)
    | none => false)
  let s := ended.foldl (fun s e => s.closeOpen (productTag 1 e.entry.view) true) s
  { s with prod := { s.prod with entries := s.prod.entries.filter fun e => !ended.contains e } }

/-- The attitude value whose window closes at mark q (R163, R187). -/
def State.attitudeAt (s : State) (q : Nat) : State :=
  if q % 64 = 0 ∧ 512 ≤ q then
    let ref := q - 512
    let v := attitudeOf s.prod.inputs ref (s.declAt ref)
    let s := { s with prod := { s.prod with att := v, atts := ((ref, v) :: s.prod.atts).take attsKept } }
    let s := match s.prodEntry 1 ref with
      | some e => s.putValue e ref 128 16 (v.take 3)
      | none => s
    s.endAttitude ref
  else s

/-- Marks of a record period (R168). -/
def State.recMarks (s : State) : Nat := s.wavePeriod * 1024

/-- A record period begins with the displacement value of its first mark (R168): the corner decided last takes effect (R143),
and LAT and DECL are those of that mark (R187). -/
def State.beginRecord (s : State) (ref : Nat) : State :=
  let corner := s.mot.cornerNext.getD s.mot.corner
  { s with
    mot := { s.mot with corner := corner, cornerNext := none }
    prod := { s.prod with recFirst := some ref, recCorner := corner, recPar := s.prod.nextPar, recPstat := 0, recImp := 0,
                          disp := [] } }

/-- A record period ends with its last displacement value (R168). -/
def State.endRecord (s : State) (first : Nat) : State :=
  let p := s.prod
  let d : RecDone :=
    { first := first, disp := p.disp.reverse,
      atts := (p.atts.reverse.filter fun x => decide (first ≤ x.1) && decide (x.1 < first + s.recMarks)).map (·.2),
      broken := p.breaks.any fun b => decide (first ≤ b) && decide (b < first + s.recMarks),
      corner := p.recCorner, par := p.recPar, pstat := p.recPstat, imp := p.recImp, ended := false, waveDone := false,
      statsDone := false }
  { s with prod := { p with recFirst := none, recDone := some d, disp := [],
                            breaks := p.breaks.filter fun b => decide (first + s.recMarks ≤ b) } }

/-- What the inputs at a displacement instant say of it: bit 0 some of the 64 of its own quarter second is impaired (R168),
bit 1 some is settling, faulted, blanked or missing (R175). -/
def State.dispMark (s : State) : Word :=
  let fl := windowFlags (s.prod.inFlags.drop 32705) 64
  word (b2n (decide (0 < fld fl 15 0)) + 2 * b2n (bitOf fl.toNat 24))

/-- The displacement value of a reference mark joins the wave record in progress, if one is (R163, R168), with its mark and the
magnetic heading of its instant. -/
def State.noteDisp (s : State) (ref : Nat) (v : List Word) : State :=
  let x := v ++ [s.dispMark, nth (s.attAt ref) 3]
  let p := { s.prod with lastDisp := some (ref, x) }
  let fl := flagsOf p.inFlags 32768 64 p.disp.isEmpty
  { s with prod := if p.recFirst.isSome then
      { p with disp := x :: p.disp, recPstat := pstatAdd p.recPstat fl
               recImp := p.recImp + impairedIn p.inFlags (newInputs 32768 64 p.disp.isEmpty) }
    else p }

/-- The wave record in progress ends with its last value (R168). -/
def State.closeRecord (s : State) (ref : Nat) : State :=
  match s.prod.recFirst with
  | some m => if ref + 256 = m + s.recMarks then s.endRecord m else s
  | none => s

/-- The displacement product's packet takes a value (R163). -/
def State.putDisp (s : State) (ref : Nat) (v : List Word) : State :=
  match s.prodEntry 2 ref with
  | some e => if s.full then s.putValue e ref 32768 64 v else s
  | none => s

/-- The displacement value whose reference mark is ref. -/
def State.displacement (s : State) (ref : Nat) : State :=
  let s := if ref % s.recMarks = 0 then s.beginRecord ref else s
  let v := displacementOf s.prod.inputs ref s.mot.corner
  ((s.noteDisp ref v).closeRecord ref).putDisp ref v

/-- The displacement value whose window closes at mark q (R162, R163). -/
def State.displacementAt (s : State) (q : Nat) : State :=
  if q % 256 = 0 ∧ 131072 ≤ q then s.displacement (q - 131072) else s

/-- STRAPDOWN_SAMPLE (R160–R163): the input of the mark, one per four marks, and the values whose windows it closes. After a
run of inputs breaks, the inputs before it are missing. -/
def doStrapdownSample (s : State) : State :=
  let q := s.mark
  if s.running && s.awake && q % 4 == 0 && s.prod.lastIn != some q then
    let joined := q != 0 && s.prod.lastIn == some (q - 4)
    let old := if joined then s.prod.inputs else []
    let oldF := if joined then s.prod.inFlags else []
    let c := s.calBlock
    let p := { s.prod with
      inputs := (strapInput s.mot (s.inMode .footpath) q old.head? :: old).take inputsKept
      inFlags := (s.strapFlags :: oldF).take inputsKept
      lastIn := some q
      decls := if (s.prod.decls.head?.map (·.2)) == some c.decl then s.prod.decls else ((q, c.decl) :: s.prod.decls).take 64
      nextPar := if q % s.recMarks = 0 then [c.lat, c.decl] else s.prod.nextPar }
    ({ s with prod := p }.attitudeAt q).displacementAt q
  else s

def execStrapdownSample (s : State) : Result := .next (doStrapdownSample s)

/-! ### Exact sums of binary32 values -/

/-- Sum of finite words in units of 2^−149. -/
def f32Sum (ws : List Word) : Int := (ws.map f32Int).sum

/-- Mean of finite words. -/
def f32Mean (ws : List Word) : Word := f32OfRat (f32Sum ws) (ws.length * 2 ^ 149)

/-- k times the standard deviation of finite words about their mean. -/
def f32Std (k : Nat) (ws : List Word) : Word :=
  let n := ws.length
  let q := (ws.map fun w => f32Int w * f32Int w).sum
  f32OfSqrt (k * k * (n * q - f32Sum ws * f32Sum ws).toNat) (n * n * 2 ^ 298)

/-! ### Zero up-crossing waves (R169, R177) -/

/-- A wave: its first instant, its instants at 4 S/s, crest and trough in units of 2^−149 m. -/
structure Wave where
  start : Nat
  n : Nat
  crest : Int
  trough : Int
  deriving DecidableEq, Repr, Inhabited

/-- Height of a wave in units of 2^−149 m. -/
def Wave.height (w : Wave) : Int := w.crest - w.trough
/-- Height in m. -/
def Wave.heightW (w : Wave) : Word := f32OfRat w.height (2 ^ 149)
/-- Period in s. -/
def Wave.periodW (w : Wave) : Word := f32OfRat w.n 4

/-- The wave that a run of heave values makes. -/
def waveOf (start : Nat) (hs : List Word) : Wave :=
  let v := hs.map f32Int
  { start := start, n := hs.length, crest := v.foldl max (nth v 0), trough := v.foldl min (nth v 0) }

/-- An up-crossing of zero between two values. -/
def upCross (prev cur : Word) : Bool := f32Lt prev 0 && f32Le 0 cur

/-- A wave that its closing up-crossing ends: not lower than CREST_MINH and not shorter than CREST_MINT (R177). -/
def waveCounts (minH minT : Word) (w : Wave) : Bool :=
  decide (f32Int minH ≤ w.height) && decide (4 * f32Int minT ≤ (w.n : Int) * 2 ^ 149)

/-- What the search for waves carries along. -/
structure WaveScan where
  prev : Word
  i : Nat
  cur : Option (Nat × List Word)
  out : List Wave
  deriving DecidableEq, Repr, Inhabited

/-- One heave value more. -/
def WaveScan.step (minH minT : Word) (a : WaveScan) (h : Word) : WaveScan :=
  let b := { a with prev := h, i := a.i + 1 }
  if upCross a.prev h then
    match a.cur with
    | none => { b with cur := some (a.i, [h]) }
    | some (j, ws) =>
      if waveCounts minH minT (waveOf j ws) then { b with cur := some (a.i, [h]), out := a.out ++ [waveOf j ws] }
      else { b with cur := some (j, ws ++ [h]) }
  else { b with cur := a.cur.map fun c => (c.1, c.2 ++ [h]) }

/-- The waves of a run of heave values. A crossing lies at the first value that is not negative, without interpolation between
samples (DESIGN CHOICE, assumption-log row 29). -/
def zeroWaves (minH minT : Word) (hs : List Word) : List Wave :=
  (hs.foldl (WaveScan.step minH minT) { prev := 0, i := 0, cur := none, out := [] }).out

/-- The highest wave, the first of those of one height. -/
def highest (ws : List Wave) : Option Wave :=
  ws.foldl (fun a w => match a with
    | none => some w
    | some b => if b.height < w.height then some w else some b) none

/-- The recogniser entry of the image in force, none where it does not run (R174, R185). -/
def State.recogOf (s : State) (r : Nat) : Option Recog :=
  match s.port.inForce with
  | none => none
  | some im =>
    match im.recogs[r]? with
    | some e => if e.en then some e else none
    | none => none

/-- The individual waves of a record, as CREST forms them (R169, R177). -/
def State.wavesOf (s : State) (d : RecDone) : List Wave :=
  let w := match s.recogOf 1 with
    | some e => e.w
    | none => []
  zeroWaves (nth w 0) (nth w 1) (d.disp.map fun v => nth v 0)

/-! ### The wave record (R168–R172) -/

/-- A segment of 800 instants is kept: at most 5 % of them are impaired (R168). -/
def segmentGood (bad : List Bool) : Bool := decide (100 * (bad.filter id).length ≤ 4000)

/-- Segments of a record of n instants, 800 instants from every 400th, and how many are kept (R168). -/
def segmentsKept (marks : List Bool) : Nat × Nat :=
  let n := marks.length
  let segs := (List.range (n / 400)).filter fun k => k * 400 + 800 ≤ n
  (segs.length, (segs.filter fun k => segmentGood ((marks.drop (k * 400)).take 800)).length)

/-- Heave, north and east displacement of an instant in m (R168): surge and sway turned by the true heading, the magnetic
heading plus the DECL of the record's first mark (R187). -/
def RecDone.axes (d : RecDone) (v : List Word) : List Int :=
  let a := fxRad (fxOf (nth v 4) + fxOf (nth d.par 1))
  let (su, sw) := (fxOf (nth v 1), fxOf (nth v 2))
  [fxOf (nth v 0), fxMul su (fxCos a) - fxMul sw (fxSin a), fxMul su (fxSin a) + fxMul sw (fxCos a)]

/-- The kept segments of a record, each 800 instants of heave, north and east (R168). -/
def RecDone.segments (d : RecDone) : List (List (List Int)) :=
  let xs := d.disp.map d.axes
  let bad := d.disp.map fun v => bitOf (nth v 3).toNat 0
  ((List.range (xs.length / 400)).filter fun k => k * 400 + 800 ≤ xs.length && segmentGood ((bad.drop (k * 400)).take 800)).map
    fun k => (xs.drop (k * 400)).take 800

/-- 1 / |H(f)|² at the centre of band i under a corner (R162, R168). -/
def highPassInv (corner i : Nat) : Int :=
  let r := fxRat (50 * (i + 4) : Nat) (nth cornerLadder corner)
  let r4 := fxMul (fxMul r r) (fxMul r r)
  let h := fxDiv (fxOne + r4) r4
  fxMul h h

/-- Densities of band i (R168): of heave, north and east, the quadrature spectra of heave with north and with east, and the
co-spectrum of north with east; one-sided, averaged over the kept segments and corrected. A periodic Hann window over 800
instants at 4 Hz has the power 300, so that 2 |X|² / (4 × 300) is a density. -/
def RecDone.band (d : RecDone) (segs : List (List (List Int))) (i : Nat) : List Int :=
  let parts := segs.map fun seg =>
    let x (k : Nat) : Int × Int := hannBin (seg.map fun v => nth v k) (i + 4)
    let (z, n, e) := (x 0, x 1, x 2)
    let co (a b : Int × Int) : Int := fxMul a.1 b.1 + fxMul a.2 b.2
    let quad (a b : Int × Int) : Int := fxMul a.1 b.2 - fxMul a.2 b.1
    [co z z, co n n, co e e, quad z n, quad z e, co n e]
  (List.range 6).map fun k => fxMul (highPassInv d.corner i) (meanI (parts.map fun p => nth p k) / 600)

/-- The densities of every band. -/
def RecDone.bands (d : RecDone) : List (List Int) := (List.range 128).map (d.band d.segments)

/-- S_0 … S_127 (R168). -/
def spectrumOf (bands : List (List Int)) : List Word := bands.map fun b => fxWord (nth b 0)

/-- Coefficient k of a band: a1, b1, a2, b2 (R169, the method of Longuet-Higgins, Cartwright and Smith); none where a divisor is
0. A wave that comes from a direction moves the hull towards the opposite one, a quarter period after its crest, so that the
quadrature spectrum of heave with north is positive for a wave from the north. -/
def coefOf (b : List Int) (k : Nat) : Option Word :=
  let hor := nth b 1 + nth b 2
  let first := fxSqrt (fxMul (nth b 0) hor)
  match k with
  | 0 => if first = 0 then none else some (fxWord (fxDiv (nth b 3) first))
  | 1 => if first = 0 then none else some (fxWord (fxDiv (nth b 4) first))
  | 2 => if hor = 0 then none else some (fxWord (fxDiv (nth b 1 - nth b 2) hor))
  | _ => if hor = 0 then none else some (fxWord (fxDiv (2 * nth b 5) hor))

/-- a1, b1, a2 and b2 of every band (R169): a band below 10⁻⁶ of the largest gives NaN. Without horizontal motion R169 states no
coefficient: w stands there, a free value. -/
def directionalOf (bands : List (List Int)) (s : List Word) (w : Word) : List Word :=
  let top := (s.map f32Int).foldl max 0
  (List.range 512).map fun k =>
    if f32Int (nth s (k % 128)) * 1000000 < top then f32Nan
    else (coefOf (nth bands (k % 128)) (k / 128)).getD (clampW 0xBF800000 0x3F800000 w)

/-- The S-weighted mean of coefficient k (0 a1, 1 b1) over the bands that are not NaN, none where there is none (R169). -/
def weightedMean (s dirs : List Word) (k : Nat) : Option Word :=
  let l := (s.zip ((dirs.drop (128 * k)).take 128)).filter fun p => !f32IsNan p.2
  let den := (l.map fun p => f32Int p.1).sum
  if den = 0 then none else some (f32OfRat (l.map fun p => f32Int p.1 * f32Int p.2).sum (den.toNat * 2 ^ 149))

/-- m0 as Σ S, and m2 as Σ (i + 4)² S, each in units of 2^−149 (R169). -/
def moments (s : List Word) : Int × Int :=
  (f32Sum s, (s.zipIdx.map fun p => ((p.2 + 4) * (p.2 + 4) : Nat) * f32Int p.1).sum)

/-- The band with the largest S, the lowest of those that tie (R169). -/
def peakBand (s : List Word) : Nat :=
  (s.zipIdx.foldl (fun (a : Int × Nat) p => if a.1 < f32Int p.1 then (f32Int p.1, p.2) else a) (-1, 0)).2

/-- Hm0 = 4 × sqrt(m0) (R169). -/
def hm0Of (s : List Word) : Word := f32OfSqrt (16 * (moments s).1.toNat) (200 * 2 ^ 149)

/-- A record without data: m0 is 0 or fewer than half the segments are kept (R169). -/
def RecDone.empty (d : RecDone) (s : List Word) : Bool :=
  let (n, kept) := segmentsKept (d.disp.map fun v => bitOf (nth v 3).toNat 0)
  decide ((moments s).1 = 0) || decide (2 * kept < n)

/-- Dm from A1 and B1 (R169). -/
def meanDirection (a b : Word) : Word := wrap360 (fxWord (fxDeg (fxAtan2 (fxOf b) (fxOf a))))

/-- Directional spread from A1 and B1 (R169). -/
def spreadOf (a b : Word) : Word := fxWord (fxDeg (fxSqrt (2 * (fxOne - lenV [fxOf a, fxOf b]))))

/-- Hm0, Tp, Tz, Dm, spread, Hmax, THmax and d (R169, R170): w stands where no individual wave gives a height or a period. -/
def RecDone.params (d : RecDone) (set : Nat) (s dirs : List Word) (ws : List Wave) (w : Word) : List Word :=
  let m := moments s
  let dm := match weightedMean s dirs 0, weightedMean s dirs 1 with
    | some a, some b => [meanDirection a b, spreadOf a b]
    | _, _ => [f32Nan, f32Nan]
  [hm0Of s, f32OfRat 200 (peakBand s + 4), f32OfSqrt (40000 * m.1.toNat) m.2.toNat] ++
    (if set = 2 then [f32Nan, f32Nan] else dm) ++
    (match highest ws with
      | some h => [h.heightW, h.periodW]
      | none => [w, w]) ++
    [f32Mean (d.disp.map fun v => nth v 0)]

/-- The payload of a wave record and Hm0 and d (R166–R171). -/
def State.waveRecord (s : State) (d : RecDone) (w : Word) : List Word × Word × Word :=
  let set := s.productSet
  let bands := d.bands
  let sp := spectrumOf bands
  let dirs := directionalOf bands sp w
  let ws := s.wavesOf d
  let nan := d.empty sp
  let (_, kept) := segmentsKept (d.disp.map fun v => bitOf (nth v 3).toNat 0)
  let listed := if set = 0 ∨ set = 2 then ws.take 2500 else []
  let fix (l : List Word) : List Word := if nan then l.map fun _ => f32Nan else l
  let par := fix (d.params set sp dirs ws w)
  let p0 := pstatFinal d.pstat true d.imp (drawnOn 32768 64 d.disp.length)
  let p0 := if listed.length < ws.length ∧ (set = 0 ∨ set = 2) then p0 ||| 0x00800000 else p0
  let p0 := if nan then (p0 &&& 0x3FFFFFFF) ||| 0x80000000 else p0
  let info := word (at_ set 30 + at_ (s.strap 7 % 4) 28 + at_ d.corner 24 + at_ kept 16 + listed.length)
  ([p0, info, 0, 0] ++ par ++ (if set < 3 then fix sp else []) ++ (if set < 2 then fix dirs else []) ++
    fix (listed.flatMap fun v => [v.heightW, v.periodW, f32OfRat v.start 4]), nth par 0, nth par 7)

/-- A wave record is due for the period that ended last: the period holds no entry into Footpath, no exit from it and no instant in
it (R172, R186, R187). -/
def State.waveDue (s : State) (d : RecDone) : Bool := (s.prodEntry 3 d.first).isSome && !d.broken && !bitOf d.pstat.toNat 29

/-- WAVE_RECORD_WRITE (R172): after grid mark m + (P + 128) × 1024, in Highway and Lane. -/
def doWaveRecordWrite (s : State) : State :=
  match s.prod.recDone with
  | none => s
  | some d =>
    match s.prodEntry 3 d.first with
    | some e =>
      if s.running && s.full && s.waveDue d && !d.waveDone && decide (d.first + (s.wavePeriod + 128) * 1024 ≤ s.mark) then
        let (w, s) := s.takeWord
        let (ws, hm0, _) := s.waveRecord d w
        let s := { s with prod := { s.prod with
          recDone := some { d with waveDone := true }
          lastHm0 := if pstatQuality (nth ws 0) < 2 then some hm0 else none } }
        s.writePacket (wholePacket 10 (productTag 3 e.view) d.first ws)
      else s
    | none => s

def execWaveRecordWrite (s : State) : Result := .next (doWaveRecordWrite s)

/-! ### Heave statistics (R173) -/

/-- H4S and DMEAN of a period (R173). -/
def RecDone.h4s (d : RecDone) : Word := f32Std 4 (d.disp.map fun v => nth v 0)
/-- Mean heave of a period (R173). -/
def RecDone.dmean (d : RecDone) : Word := f32Mean (d.disp.map fun v => nth v 0)

/-- Circular mean and circular standard deviation of headings in degrees, √(−2 ln R) with R the length of the mean of their unit
vectors (R173); none where there is no heading or R is 0. -/
def circular (heads : List Word) : Option (Word × Word) :=
  let a := heads.map fun h => fxRad (fxOf h)
  let (x, y) := (meanI (a.map fxCos), meanI (a.map fxSin))
  let r := lenV [x, y]
  if heads.isEmpty ∨ r = 0 then none
  else some (wrap360 (fxWord (fxDeg (fxAtan2 y x))), fxWord (fxDeg (fxSqrt (-(2 * fxLn r)))))

/-- ROLLRMS, PITCHRMS, HDGMEAN and HDGSPREAD of the attitude values of a period (R173); w stands where they are not stated: no
value, or headings without a mean. -/
def attitudeStats (atts : List (List Word)) (w : Word) : List Word :=
  let c := (circular (atts.map fun v => nth v 2)).getD (w, w)
  if atts.isEmpty then [w, w, w, w]
  else [f32Std 1 (atts.map fun v => nth v 0), f32Std 1 (atts.map fun v => nth v 1), c.1, c.2]

/-- The payload of the heave statistics record (R173); w stands where the period has no wave. -/
def State.statsRecord (s : State) (d : RecDone) (w : Word) : List Word :=
  let ws := s.wavesOf d
  [pstatFinal d.pstat true d.imp (drawnOn 32768 64 d.disp.length), word (at_ d.corner 28 + satN 16 ws.length), 0, 0, d.h4s,
   (match highest ws with
     | some h => h.heightW
     | none => w),
   (if ws.isEmpty then w else f32OfRat s.wavePeriod ws.length), d.dmean] ++ attitudeStats d.atts w

/-- HEAVE_STATS (R173): once per record period on the grid of R172, in Highway, Lane and Footpath. -/
def doHeaveStats (s : State) : State :=
  match s.prod.recDone with
  | none => s
  | some d =>
    match s.prodEntry 4 d.first with
    | some e =>
      if s.running && s.awake && !d.statsDone && decide (d.first + (s.wavePeriod + 128) * 1024 ≤ s.mark) then
        let (w, s) := s.takeWord
        let ws := s.statsRecord d w
        let s := { s with prod := { s.prod with recDone := some { d with statsDone := true } } }
        s.writePacket (wholePacket 10 (productTag 4 e.view) d.first ws)
      else s
    | none => s

def execHeaveStats (s : State) : Result := .next (doHeaveStats s)

end Sys2Proof.Machine
end

