-- ==== Sys2Proof/Machine/Recog.lean ====
section
/-! DEFINITION. The six recognisers and their event packets (06_motion_products.md R174–R182), and readout faults of the
triads they watch (04_inertial.md R117, R126). -/

namespace Sys2Proof.Machine

/-! ### Event packets (R179–R181) -/

/-- MODE of word 7 (R179). -/
def State.modeNow (s : State) : Nat :=
  match s.power.mode with
  | some m => modeField m
  | none => 0

/-- Recogniser r runs in the mode in force (R174, R186). -/
def State.recRuns (s : State) (r : Nat) : Bool :=
  s.running && (s.recogOf r).isSome && (s.full || (s.inMode .footpath && (r == 2 || r == 3 || r == 5)))

/-- One recogniser changed. -/
def State.onRec (s : State) (r : Nat) (f : RecSt → RecSt) : State :=
  { s with way := { s.way with recs := s.way.recs.modify r f } }

/-- The recognisers whose condition is active after an event of kind k of recogniser r (R194). -/
def Way.activeAfter (w : Way) (r k : Nat) : Nat :=
  maskOf 6 fun i => if i = r ∧ k ≠ 3 then k == 1 else (nth w.recs i).active

/-- The events at the end of the queue that an event of recogniser r of the same mark goes before (R181): those of higher
recognisers. Each holds words 4–7, the active conditions after it, and its mark. -/
def laterEvents (r : Nat) (mark : Word) (q : List (List Word)) : List (List Word) :=
  (q.reverse.takeWhile fun x => nth x 5 == mark && decide (r < fld (nth x 0) 31 28)).reverse

/-- Bit r of the active conditions of an event that follows another one. -/
def setActive (r : Nat) (on : Bool) (x : List Word) : List Word :=
  x.set 4 (if on then nth x 4 ||| word (2 ^ r) else nth x 4 &&& ~~~(word (2 ^ r)))

/-- An event of recogniser r and kind k waits to be offered to the engines, in ascending order of recogniser within its mark (R181,
R190); past 64 it is only counted. -/
def Way.offer (w : Way) (r k : Nat) (mark : Word) (ws : List Word) : Way :=
  if 64 ≤ w.evq.length then { w with notOffered := w.notOffered + 1 }
  else
    let l := laterEvents r mark w.evq
    let first := w.evq.take (w.evq.length - l.length)
    match l with
    | [] => { w with evq := first ++ [ws ++ [word (w.activeAfter r k), mark]] }
    | y :: _ =>
      let was := fld (nth y 0) 27 24
      let ev := setActive (fld (nth y 0) 31 28) (was == 2 || was == 4) (ws ++ [nth y 4, mark])
      let put (x : List Word) : List Word := if k = 3 then x else setActive r (k == 1) x
      { w with evq := first ++ put ev :: l.map put }

/-- A recogniser event written (R179): kind 1 onset, 2 end, 3 single, 4 forced end. In Footpath an onset of DROP, CAPSIZE or
DRIFT raises an attention call (R440). The event is written in the step that finds it; within one mark the engines see the events
in ascending order of recogniser (R181), and the packets are in that order where the commands come so (assumption-log row 78). -/
def State.writeEvent (s : State) (r kind mark off : Nat) (ws : List Word) : State :=
  match s.recogOf r with
  | none => s
  | some e =>
    let st := nth s.way.recs r
    let seq := (st.seq + 1) % 2 ^ 16
    let head := [word (at_ r 28 + at_ kind 24 + seq), word off, word (satN 32 st.suppressed), word (at_ s.modeNow 30)]
    let s := s.onRec r fun x =>
      { x with seq := seq, suppressed := 0, lastWritten := if kind = 1 ∨ kind = 3 then some mark else x.lastWritten }
    let s := s.writePacket (wholePacket 11 (eventTag (0x10 + r) e.view) mark (head ++ (ws ++ List.replicate 8 0).take 8))
    let s := { s with way := s.way.offer r kind (word s.mark) head }
    if kind = 1 ∧ s.inMode .footpath ∧ (r = 2 ∨ r = 3 ∨ r = 5) then s.raiseCall 3 (BitVec.ofNat 16 (0x10 + r)) else s

/-- Hold-off holds back an onset or single event at a mark (R176). -/
def RecSt.heldOff (st : RecSt) (hold mark : Nat) : Bool :=
  match st.lastWritten with
  | some m => decide (mark < m + hold)
  | none => false

/-- A SLAM, DROP or CAPSIZE event notes itself in the calibration block (R132). -/
def State.noteEvent (s : State) (r : Nat) : State :=
  if r = 0 ∨ r = 2 ∨ r = 3 then { s with mot := { s.mot with block := { s.mot.block with event := true } } } else s

/-- The onset of recogniser r (R175, R176): active from here on, written unless held off. -/
def State.onset (s : State) (r mark off inst : Nat) (ws : List Word) : State :=
  match s.recogOf r with
  | none => s
  | some e =>
    let s := s.noteEvent r
    let held := (nth s.way.recs r).heldOff e.hold mark
    let s := s.onRec r fun x =>
      { x with active := true, onRun := 0, offRun := 0, written := !held, onsetAt := inst,
               suppressed := if held then x.suppressed + 1 else x.suppressed }
    if held then s else s.writeEvent r 1 mark off ws

/-- The end of recogniser r (R176): written where its onset was. -/
def State.recEnd (s : State) (r kind mark off : Nat) (ws : List Word) : State :=
  let was := (nth s.way.recs r).written
  let s := s.noteEvent r
  let s := if was then s.writeEvent r kind mark off ws else s
  s.onRec r fun x => { x with active := false, onRun := 0, offRun := 0, written := false }

/-- An event instant after a mark, in 1/16 ns: the common instant plus k steps (R16), as mark and OFFSET (R179). -/
def eventAt (mark k : Nat) : Nat × Nat :=
  let t := 3906250 + k * 1953125
  (mark + t / 15625000, t % 15625000 / 16)

/-- Consecutive observations: one more, or none. -/
def runOf (hit : Bool) (n : Nat) : Nat := if hit then n + 1 else 0

/-! ### What each event packet carries (R180) -/

/-- The newest input of a source. -/
def State.newest (s : State) (src : Nat) : Option Inp := (nth s.mot.hist src).head?

/-- A vector as sample words (R100, R127). -/
def vecWords (src : Nat) (v : List Int) : List Word := v.map fun x => axisWord x (ratedLsb src) [normalCode src]

/-- The MAG words copied into an event. -/
def State.magWords (s : State) : List Word :=
  match s.newest 5 with
  | some i => i.v.map fun x => axisWord x (ratedLsb 5)
      [normalCode 5, codeIf (!i.ok) 0x11, codeIf i.blank 0x30]
  | none => [0, 0, 0]

/-- Component a of the ACC-C vector less its running mean over the instants at hand, at most 1 s, in 1/8192 LSB (R174). -/
def slamDelta (l : List Inp) (a : Nat) : Int :=
  let w := (l.take 8192).filter (·.ok)
  match l with
  | i :: _ => nth i.v a * 8192 - (w.map fun x => nth x.v a).sum * 8192 / (w.length : Int)
  | [] => 0

/-- Sum of squares. -/
def squares (v : List Int) : Nat := (v.map fun x => x.natAbs * x.natAbs).sum

/-- ACC-C in 1/8192 LSB for 1 g. -/
def slamG : Nat := 40000 * 8192
/-- ACC-A in LSB for 1 g (R100). -/
def accAG : Nat := 4000000

/-- The magnitude with square sq, in units of which one g holds g, reaches k/d of a binary32 limit. -/
def reaches (sq g : Nat) (lim : Word) (k d : Nat) : Bool :=
  decide (((f32Int lim).toNat * g * k) ^ 2 ≤ sq * (2 ^ 149 * d) ^ 2)

/-- A magnitude in g. -/
def gWord (sq g : Nat) : Word := f32OfSqrt sq (g * g)

/-- Mean of Z specific force over the newest n strapdown inputs, as a sum and its count. -/
def meanZ (inputs : List (List Int)) (n : Nat) : Int × Nat :=
  let l := inputs.take n
  ((l.map fun v => nth v 2).sum, l.length)

/-- Mean specific force over the newest n inputs, in g. -/
def meanForce (inputs : List (List Int)) (n : Nat) : List Word :=
  let l := inputs.take n
  (List.range 3).map fun a => f32OfRat (l.map fun v => nth v a).sum (l.length * accAG)

/-- Tilt in degrees, arccos(−f̄Z / |f̄|) (R177); a force of 0 has none, and the value is free there. -/
def tiltOf (f : List Word) : Word :=
  let x := f.map fxOf
  if x.all (· == 0) then clampW 0 w180 Config.noTilt
  else fxWord (fxDeg (fxAtan2 (lenV (x.take 2)) (-(nth x 2))))

/-- The three statistics of a DRIFT window and its FAILED bits (R177, R180). -/
def driftStats (e : Recog) (inputs : List (List Int)) (mark : Nat) : List Word × Nat :=
  let l := inputs.take ((nth e.w 0).toNat * 256)
  let rms := clampW 0 0x7F7FFFFF (Config.strapdown 9 mark l)
  let spread := clampW 0 0x7F7FFFFF (Config.strapdown 10 mark l)
  let turn := Config.strapdown 11 mark l
  ([rms, spread, turn], b2n (f32Lt (nth e.w 2) rms) * 2 + b2n (f32Lt rms (nth e.w 1)) +
    4 * b2n (f32Lt (nth e.w 3) spread) + 8 * b2n (f32Lt (nth e.w 4) (f32Abs turn)))

/-- Words 8–15 of an end or a forced end of recogniser r at instant inst (R180). -/
def State.endWords (s : State) (r inst : Nat) : List Word :=
  let st := nth s.way.recs r
  let att := s.prod.att
  match r with
  | 0 => gWord st.peak.toNat slamG :: (st.peakW ++
      [f32OfRat (inst - st.onsetAt : Nat) 8192, f32OfRat (st.peakAt - st.onsetAt : Nat) 8192,
       f32OfRat (inst - st.peakAt : Nat) 8192])
  | 2 =>
    let n := inst - st.onsetAt
    [gWord st.peak.toNat accAG, f32OfRat n 8192, f32OfRat (980665 * n * n) (2 * 100000 * 8192 * 8192)]
  | 3 =>
    let (z, n) := meanZ s.prod.inputs 256
    [nth att 0, nth att 1, f32OfRat z (n * accAG)] ++ s.magWords
  | 4 =>
    match s.recogOf 4 with
    | some e => [tiltOf (meanForce s.prod.inputs ((nth e.w 2).toNat * 256)), nth att 0, nth att 1, f32OfInt (nth e.w 2).toNat]
    | none => []
  | 5 =>
    match s.recogOf 5 with
    | some e =>
      let (st, failed) := driftStats e s.prod.inputs s.mark
      st ++ [word failed] ++ s.magWords
    | none => []
  | _ => []

/-- The forced end of recogniser r at the mark in progress (R182): afterwards detection starts afresh. -/
def State.forceEnd (s : State) (r : Nat) : State :=
  let st := nth s.way.recs r
  let s := if st.active then s.recEnd r 4 s.mark 0 (s.endWords r (8 * s.mark)) else s
  s.onRec r fun x => { RecSt.init with seq := x.seq, suppressed := x.suppressed, lastWritten := x.lastWritten,
                                       seenAt := x.seenAt }

/-- Forced ends of the recognisers that a condition selects, in ascending order (R181, R182). -/
def State.forceEnds (s : State) (sel : Nat → Bool) : State :=
  ((List.range 6).filter sel).foldl State.forceEnd s

/-! ### SLAM (R177) -/

/-- An active SLAM at instant i, whose squared difference is sq: its peak, and its end after so many quiet instants. -/
def State.slamActive (s : State) (e : Recog) (i sq : Nat) (ws : List Word) : State :=
  let st := nth s.way.recs 0
  let s := if st.peak < (sq : Int) then s.onRec 0 fun x => { x with peak := sq, peakAt := i, peakW := ws } else s
  let n := runOf (!reaches sq slamG (nth e.w 0) 4 5) st.offRun
  let s := s.onRec 0 fun x => { x with offRun := n }
  if (nth e.w 2).toNat ≤ n then s.recEnd 0 2 (eventAt (i / 8) (i % 8)).1 (eventAt (i / 8) (i % 8)).2 (s.endWords 0 i) else s

/-- A SLAM that is not active at instant i: its onset after so many instants at the threshold. -/
def State.slamIdle (s : State) (e : Recog) (i sq : Nat) (ws : List Word) : State :=
  let n := runOf (reaches sq slamG (nth e.w 0) 1 1) (nth s.way.recs 0).onRun
  let s := s.onRec 0 fun x => { x with onRun := n }
  if (nth e.w 1).toNat ≤ n then
    (s.onRec 0 fun x => { x with peak := sq, peakAt := i, peakW := ws }).onset 0 (eventAt (i / 8) (i % 8)).1
      (eventAt (i / 8) (i % 8)).2 i (gWord sq slamG :: ws)
  else s

/-- SLAM on the newest ACC-C instant. -/
def doSlam (s : State) : State :=
  match s.recogOf 0, s.mot.last, s.newest 2 with
  | some e, some i, some inp =>
    if s.recRuns 0 && (nth s.way.recs 0).seenAt != some i then
      let s := s.onRec 0 fun x => { x with seenAt := some i }
      let sq := squares ((List.range 3).map (slamDelta (nth s.mot.hist 2)))
      if inp.ok then
        if (nth s.way.recs 0).active then s.slamActive e i sq (vecWords 2 inp.v) else s.slamIdle e i sq (vecWords 2 inp.v)
      else s
    else s
  | _, _, _ => s

def execSlam (s : State) : Result := .next (doSlam s)

/-! ### CREST (R177) -/

/-- The height test of CREST (R177). -/
def crestHit (e : Recog) (hm0 : Option Word) (w : Wave) : Bool :=
  decide (f32Int (nth e.w 2) ≤ w.height) ||
    (match hm0 with
      | some h => nth e.w 3 != 0 && decide (f32Int (nth e.w 3) * f32Int h ≤ w.height * 2 ^ 149)
      | none => false)

/-- The event of a wave that passes both tests, unless the hold-off suppresses it (R173, R176). -/
def State.crestEvent (s : State) (e : Recog) (ref : Nat) (w : Wave) : State :=
  let at0 := eventAt ref 0
  if (nth s.way.recs 1).heldOff e.hold at0.1 then s.onRec 1 fun x => { x with suppressed := x.suppressed + 1 }
  else
    let rel := match s.prod.lastHm0 with
      | some m => if f32Int m ≤ 0 then f32Nan else f32OfRat w.height (f32Int m).toNat
      | none => f32Nan
    s.writeEvent 1 3 at0.1 at0.2
      [w.heightW, w.periodW, f32OfRat w.crest (2 ^ 149), f32OfRat w.trough (2 ^ 149), rel]

/-- An up-crossing with heave h, st as it was before it: the wave in progress ends, unless it is too small to count. -/
def State.crestUp (s : State) (e : Recog) (ref : Nat) (h : Word) (st : RecSt) : State :=
  let w := waveOf 0 st.wave
  if st.wave.isEmpty then s.onRec 1 fun x => { x with wave := [h] }
  else if waveCounts (nth e.w 0) (nth e.w 1) w then
    let s := s.onRec 1 fun x => { x with wave := [h] }
    if crestHit e s.prod.lastHm0 w then s.crestEvent e ref w else s
  else s.onRec 1 fun x => { x with wave := x.wave ++ [h] }

/-- A heave value of CREST. -/
def State.crestValue (s : State) (e : Recog) (ref : Nat) (v : List Word) : State :=
  if bitOf (nth v 3).toNat 1 then s
  else
    let h := nth v 0
    let st := nth s.way.recs 1
    let s := s.onRec 1 fun x => { x with prevHeave := h }
    if upCross st.prevHeave h then s.crestUp e ref h st
    else s.onRec 1 fun x => { x with wave := if x.wave.isEmpty then [] else x.wave ++ [h] }

/-- CREST on the newest heave value: an up-crossing closes the wave in progress, unless it is too small. -/
def doCrest (s : State) : State :=
  match s.recogOf 1, s.prod.lastDisp with
  | some e, some (ref, v) =>
    if s.recRuns 1 && (nth s.way.recs 1).seenAt != some ref then
      (s.onRec 1 fun x => { x with seenAt := some ref }).crestValue e ref v
    else s
  | _, _ => s

def execCrest (s : State) : Result := .next (doCrest s)

/-! ### DROP (R177) -/

/-- n marks last t ms or longer. -/
def marksReach (n t : Nat) : Bool := decide (t * 1024 ≤ n * 1000)

/-- An active DROP at common instant j: its lowest value, and its end after 50 ms above twice the threshold. -/
def State.dropActive (s : State) (e : Recog) (j sq : Nat) : State :=
  let st := nth s.way.recs 2
  let s := if (sq : Int) < st.peak then s.onRec 2 fun x => { x with peak := sq } else s
  let n := runOf (reaches sq accAG (nth e.w 0) 2 1 && decide (((f32Int (nth e.w 0)).toNat * accAG * 2) ^ 2 <
    sq * (2 ^ 149) ^ 2)) st.offRun
  let s := s.onRec 2 fun x => { x with offRun := n }
  if marksReach n 50 then s.recEnd 2 2 (eventAt (j / 8) 0).1 (eventAt (j / 8) 0).2 (s.endWords 2 j) else s

/-- A DROP that is not active at common instant j: its onset after DROP_T below the threshold. -/
def State.dropIdle (s : State) (e : Recog) (j sq : Nat) : State :=
  let st := nth s.way.recs 2
  let n := runOf (!reaches sq accAG (nth e.w 0) 1 1) st.onRun
  let low : Int := if n ≤ 1 then sq else min st.peak sq
  let s := s.onRec 2 fun x => { x with onRun := n, peak := low }
  if marksReach n (nth e.w 1).toNat then
    s.onset 2 (eventAt (j / 8) 0).1 (eventAt (j / 8) 0).2 j [gWord low.toNat accAG] else s

/-- DROP on the ACC-A vector of the common instant of the newest mark. -/
def doDrop (s : State) : State :=
  match s.recogOf 2, s.mot.last with
  | some e, some i =>
    let j := i - i % 8
    match (nth s.mot.hist 0)[i % 8]? with
    | some inp =>
      if s.recRuns 2 && (nth s.way.recs 2).seenAt != some j then
        let s := s.onRec 2 fun x => { x with seenAt := some j }
        if inp.ok then
          if (nth s.way.recs 2).active then s.dropActive e j (squares inp.v) else s.dropIdle e j (squares inp.v)
        else s
      else s
    | none => s
  | _, _ => s

def execDrop (s : State) : Result := .next (doDrop s)

/-! ### CAPSIZE and TILT (R177) -/

/-- What the newest strapdown input brings of a recogniser's input is neither settling, faulted, blanked nor missing (R174,
R175): bit 20 says so of the specific force, bit 24 of force, rate and field. Whether a whole window of CAPSIZE, TILT or DRIFT is
unusable is decided by this newest input alone (DESIGN CHOICE, assumption-log row 78). -/
def State.inputUsable (s : State) (bit : Nat) : Bool :=
  match s.prod.inFlags with
  | w :: _ => !bitOf w.toNat bit
  | [] => false

/-- A value of CAPSIZE at mark q: its end, or its onset, after CAPS_T at 16 updates/s. -/
def State.capsizeValue (s : State) (e : Recog) (q : Nat) : State :=
  let zn := meanZ s.prod.inputs 256
  let lim : Int := f32Int (nth e.w 0) * (accAG * zn.2 : Nat)
  let st := nth s.way.recs 3
  let need := 16 * (nth e.w 1).toNat
  if st.active then
    let k := runOf (decide (zn.1 * 2 ^ 149 ≤ -lim)) st.offRun
    let s := s.onRec 3 fun x => { x with offRun := k }
    if need ≤ k then s.recEnd 3 2 (eventAt q 0).1 (eventAt q 0).2 (s.endWords 3 (8 * q)) else s
  else
    let k := runOf (decide (lim ≤ zn.1 * 2 ^ 149)) st.onRun
    let s := s.onRec 3 fun x => { x with onRun := k }
    if need ≤ k then s.onset 3 (eventAt q 0).1 (eventAt q 0).2 (8 * q) (s.endWords 3 (8 * q)) else s

/-- CAPSIZE at 16 updates/s on the 1 s running mean of Z (R174). -/
def doCapsize (s : State) : State :=
  match s.recogOf 3, s.prod.lastIn with
  | some e, some q =>
    if s.recRuns 3 && q % 64 == 0 && (nth s.way.recs 3).seenAt != some q then
      let s := s.onRec 3 fun x => { x with seenAt := some q }
      let s := if (nth s.way.recs 3).active then s.noteEvent 3 else s
      if s.inputUsable 20 then s.capsizeValue e q else s
    else s
  | _, _ => s

def execCapsize (s : State) : Result := .next (doCapsize s)

/-- TILT each second on the mean over TILT_WIN, not while CAPSIZE is active (R177). -/
def doTilt (s : State) : State :=
  match s.recogOf 4, s.prod.lastIn with
  | some e, some q =>
    if s.recRuns 4 && q % 1024 == 0 && (nth s.way.recs 4).seenAt != some q then
      let s := s.onRec 4 fun x => { x with seenAt := some q }
      if s.inputUsable 20 && !(nth s.way.recs 3).active && decide ((nth e.w 2).toNat * 256 ≤ s.prod.inputs.length) then
        let t := tiltOf (meanForce s.prod.inputs ((nth e.w 2).toNat * 256))
        let (mark, off) := eventAt q 0
        if (nth s.way.recs 4).active then
          if f32Int t < f32Int (nth e.w 0) - f32Int (nth e.w 1) then s.recEnd 4 2 mark off (s.endWords 4 (8 * q)) else s
        else if f32Lt (nth e.w 0) t then s.onset 4 mark off (8 * q) (s.endWords 4 (8 * q))
        else s
      else s
    else s
  | _, _ => s

def execTilt (s : State) : Result := .next (doTilt s)

/-! ### DRIFT (R177) -/

/-- DRIFT at the end of each of its windows. -/
def doDrift (s : State) : State :=
  match s.recogOf 5 with
  | some e =>
    let q := s.mark
    let win := (nth e.w 0).toNat * 1024
    if s.recRuns 5 && win != 0 && q % win == 0 && q != 0 && (nth s.way.recs 5).seenAt != some q then
      let s := s.onRec 5 fun x => { x with seenAt := some q }
      if s.inputUsable 24 && decide (win / 4 ≤ s.prod.inputs.length) then
        let (_, failed) := driftStats e s.prod.inputs q
        let st := nth s.way.recs 5
        let need := (nth e.w 5).toNat
        if st.active then
          let k := runOf (failed == 0) st.offRun
          let s := s.onRec 5 fun x => { x with offRun := k }
          if need ≤ k then s.recEnd 5 2 q 0 (s.endWords 5 (8 * q)) else s
        else
          let k := runOf (failed != 0) st.onRun
          let s := s.onRec 5 fun x => { x with onRun := k }
          if need ≤ k then s.onset 5 q 0 (8 * q) (s.endWords 5 (8 * q)) else s
      else s
    else s
  | none => s

def execDrift (s : State) : Result := .next (doDrift s)

/-! ### Readout faults of the triads (R117, R126) -/

/-- TRIAD_FAULT (R117): an ERROR record, the calibration block notes it, and the recognisers on that triad end. A fault that
lasts is noted of every later block where it begins (R132). -/
def doTriadFault (src : Nat) (code : Word) (s : State) : State :=
  if (nth s.mot.triads src).powered && !(nth s.mot.triads src).fault then
    let s := s.forceEnds fun r => (s.mot.recsOfTriad (s.inMode .footpath) src).contains r
    let m := s.mot.onTriad src fun t => { t with fault := true }
    let s := { s with mot := { m with block := { m.block with fault := m.block.fault.set src true } } }
    s.writeError 0x01 src code 0 1
  else s

def execTriadFault (src : Fin 6) (code : Word) (s : State) : Result := .next (doTriadFault src.val code s)

/-- TRIAD_FAULT_CLEAR (R117): the triad settles again before its words are good. -/
def doTriadFaultClear (dt src : Nat) (s : State) : State :=
  let s := s.advance dt
  if (nth s.mot.triads src).fault then
    { s with mot := s.mot.onTriad src fun t => { t with fault := false, settled := false } }
  else s

def execTriadFaultClear (dt : Nat) (src : Fin 6) (s : State) : Result := .next (doTriadFaultClear dt src.val s)

/-- TRIAD_SETTLED (R126): the settling time has run out. -/
def doTriadSettled (dt src : Nat) (s : State) : State :=
  let s := s.advance dt
  let t := nth s.mot.triads src
  if t.powered && !t.fault then { s with mot := s.mot.onTriad src fun t => { t with settled := true } } else s

def execTriadSettled (dt : Nat) (src : Fin 6) (s : State) : Result := .next (doTriadSettled dt src.val s)

end Sys2Proof.Machine
end

