-- ==== Sys2Proof/Machine/Calib.lean ====
section
/-! DEFINITION. Calibration against the sea (05_sea_reference.md): blocks, updates, convergence states, the heave corner,
changes of terms and the calibration record. The fits are computed in fixed point; what the rules leave open of them is in
assumption-log rows 5, 76 and 87. -/

namespace Sys2Proof.Machine

/-! ### Channels (R129, R148, R153) -/

/-- CALCH of channel entry i (R129, R155). -/
def calchOf (i : Nat) : Nat := if i < 7 then i else 0x20 + (i - 7)

/-- Settle limit in the unit of RESIDUAL (R148, R152). -/
def settleLimit (i : Nat) : Nat :=
  match i with
  | 0 => 8
  | 1 => 30
  | 2 => 2000
  | 3 => 300
  | 4 => 1500
  | 5 => 500
  | 6 => 20
  | _ => 100

/-- Channel ch has a recipe whose scan entry sets NOCAL (R243). -/
def State.nocal (s : State) (ch : Nat) : Bool :=
  match s.port.inForce.bind (·.fe) with
  | some x => ((x.scan.find? (·.ch == ch)).map (·.nocal)).getD false
  | none => false

/-- The estimators of channel entry i are enabled (R153 ENABLE): a front-end channel has two, and it stays cold with its factory
terms where one of them is disabled, or under NOCAL (R243). -/
def State.calEnabled (s : State) (i : Nat) : Bool :=
  let e := s.calBlock.enable
  if i < 3 then bitOf e 0 else if i < 5 then bitOf e 1 else if i = 5 then bitOf e 2 else if i = 6 then bitOf e 3
  else bitOf e 4 && bitOf e 5 && !s.nocal (i - 7)

/-- The estimator of channel entry i < 7 runs in the mode in force (R159). -/
def State.calRuns (s : State) (i : Nat) : Bool :=
  s.running && s.calEnabled i && (s.full || (s.inMode .footpath && (i == 0 || i == 3 || i == 5 || i == 6)))

/-- One channel changed. -/
def State.onCal (s : State) (i : Nat) (f : CalCh → CalCh) : State :=
  { s with mot := { s.mot with cal := s.mot.cal.modify i f } }

/-- The CAL-UPDATE record (R151). -/
def calUpdateRec (i : Nat) (c : CalCh) (changed : Bool) (acc disc mark : Nat) : Packet :=
  recPacket 0x12 0xFF mark
    [word (at_ (calchOf i) 24 + at_ c.st 22 + at_ (b2n changed) 21 + at_ c.unobs.toNat 9), word c.residual,
     word (satN 32 c.updates), word (at_ (satN 16 disc) 16 + satN 16 acc)]

/-! ### The gravity reference (R133) -/

/-- The gravity reference in g at a latitude and a height (R133). -/
def gravityRef (lat height : Word) : Int :=
  let sl := fxSin (fxRad (fxOf lat))
  let s := fxMul sl sl
  let gamma0 := fxDiv (fxMul (fxRat 97803253359 (10 ^ 10)) (fxOne + fxMul (fxRat 193185265241 (10 ^ 14)) s))
    (fxSqrt (fxOne - fxMul (fxRat 669437999013 (10 ^ 14)) s))
  let h := fxOf height
  let gamma := if 0 ≤ h then gamma0 - h * 3086 / 10 ^ 9 else gamma0 - h * 2226 / 10 ^ 9
  fxDiv gamma (fxRat 980665 100000)

/-! ### Frames (R62, R131, R138) -/

/-- The module axes in structure axes (R62): row a is module axis a. -/
def moduleAxes (orient : Nat) : List (List Int) :=
  [rotate orient fxOne 0 0, rotate orient 0 fxOne 0, rotate orient 0 0 fxOne]

/-- A structure-frame vector in module axes. -/
def toModule (orient : Nat) (v : List Int) : List Int := matVec (moduleAxes orient) v

/-- A module-frame vector in structure axes. -/
def toStructure (orient : Nat) (v : List Int) : List Int := matVec (transpose3 (moduleAxes orient)) v

/-- Module axis a is vertical in the structure. -/
def upright (orient a : Nat) : Bool := nth (nth (moduleAxes orient) a) 2 != 0

/-! ### Blocks (R131, R132) -/

/-- Terms a channel estimates (R129). -/
def termCount (i : Nat) : Nat :=
  match i with
  | 0 => 9
  | 1 => 9
  | 5 => 9
  | _ => 3

/-- Blocks in the window that an estimate looks back over: 2 × ACC_TAU (R137), GYR_WIN (R138), 2 × MAG_TAU (as R137,
DEDUCED), in 60 s blocks; a triad whose resonance moved halves it, not below 1 h (R530). -/
def State.windowBlocks (s : State) (i : Nat) : Nat :=
  let c := s.calBlock
  let moved := (nth s.mot.triads i).moved
  let half (h : Nat) : Nat := if moved then max 60 (h * 30) else h * 60
  if i < 3 then 2 * half c.accTau else if i < 5 then half c.gyrWin else 120 * c.magTau

/-- The accepted blocks of the window, newest first. -/
def State.fitBlocks (s : State) (i : Nat) : List (List Int) := (nth s.mot.cal i).blocks.take (s.windowBlocks i)

/-- Mean of the vector of an accepted block: g, °/h or µT. -/
def meanOf (b : List Int) : List Int := (b.drop 1).take 3

/-- Roll and pitch of an accepted block, in radians. -/
def tiltAngles (b : List Int) : Int × Int := (fxRad (nth b 5), fxRad (nth b 6))

/-- The field reference in µT (R140): FIELD, or the mean magnitude of the accepted blocks, none before the first. -/
def State.fieldRef (s : State) : Option Int :=
  let c := nth s.mot.cal 5
  if f32Int s.calBlock.field = 0 then
    if c.blocks.isEmpty then none else some (meanI (c.blocks.map fun b => lenV (meanOf b)))
  else some (fxOf s.calBlock.field / 1000)

/-- M (v − b) with the terms of a list (R135, R140), v and b in the unit of the biases. -/
def applyTerms (terms : List Word) (v : List Int) : List Int :=
  matVec (termMat terms) (subV v ((terms.take 3).map fxOf))

/-- The block-mean field lies more than 5 % from the reference (R132). -/
def State.fieldOff (s : State) (v : List Int) : Bool :=
  match s.fieldRef with
  | none => false
  | some r => decide (r < 20 * ((lenV (applyTerms (nth s.mot.cal 5).terms v) - r).natAbs : Int))

/-- The mean of a triad over a block, turned into the module-frame attitude of its midpoint, before sea calibration, in the unit
of the channel's biases (R131). -/
def BlockNote.mean (b : BlockNote) (src : Nat) : List Int :=
  (matVec (transpose3 b.mid) (nth b.sums src)).map fun x => x * (lsbPerUnit src).2 / ((lsbPerUnit src).1 * nth b.n src)

/-- The mean acceleration over a block in g, in module axes: the change of level-frame velocity that the strapdown solution
gives, over 60 s (R131). -/
def State.blockAccel (s : State) (b : BlockNote) (roll pitch : Int) : List Int :=
  let v (mark k : Nat) : Int := fxOf (Config.strapdown (6 + k) mark s.prod.inputs)
  let level := (List.range 3).map fun k => fxDiv (v (b.start + 61440) k - v b.start k) (fxRat (60 * 980665) 100000)
  toModule (s.strap 11) (matVec (eulerMat roll pitch 0) level)

/-- The block mean of a channel with its heading, roll and pitch in degrees (R131): end mark, mean, magnetic heading, tilt. -/
def State.blockOf (s : State) (i : Nat) : List Int :=
  let b := s.mot.blockDone
  let att := s.attAt (b.start + 30720)
  let (roll, pitch) := (fxOf (nth att 0), fxOf (nth att 1))
  let v := b.mean i
  let v := if i < 3 then subV v (s.blockAccel b (fxRad roll) (fxRad pitch)) else v
  ((b.start + 61440 : Nat) : Int) :: v ++ [fxOf (nth att 3), roll, pitch]

/-- A block that R132 discards for a channel, v its mean. One in which the triad had no usable input contributes nothing
either (DEDUCED). -/
def State.discards (s : State) (i : Nat) (v : List Int) : Bool :=
  let b := s.mot.blockDone
  b.event || nth b.fault i || nth b.fault 3 || (i == 0 && nth b.beyond 0) || (i == 3 && nth b.beyond 1) || nth b.n i == 0 ||
    (i == 5 && (decide (b.inputs < 10 * b.blanked) || s.fieldOff v))

/-- CAL_BLOCK_END (R131, R132): the block that ended joins the channel's, or it is discarded. -/
def doCalBlockEnd (i : Nat) (s : State) : State :=
  let b := s.mot.blockDone
  if s.calRuns i && b.whole && !b.taken.contains i then
    let x := s.blockOf i
    let bad := s.discards i (meanOf x)
    let s := { s with mot := { s.mot with blockDone := { b with taken := i :: b.taken } } }
    if bad then s.onCal i fun c => { c with discarded := c.discarded + 1 }
    else s.onCal i fun c => { c with accepted := c.accepted + 1, total := c.total + 1, blocks := x :: c.blocks }
  else s

def execCalBlockEnd (dt : Nat) (ch : Fin 6) (s : State) : Result := .next (doCalBlockEnd ch.val (s.advance dt))

/-! ### The fits of ACC-A, ACC-B, ACC-C and MAG (R134–R137, R140, R141) -/

/-- Prior σ of term t of a channel (R136, R140), doubled for the scales of an accelerometer that moved (R530). -/
def State.priorSigma (s : State) (i t : Nat) : Word :=
  let c := nth s.mot.cal i
  let p := if c.priorSigma.isEmpty then
      (if i = 2 then f32OfRat 40 1000
       else if i = 5 then (if t < 3 then f32OfInt 2 else f32OfRat 2 100)
       else if t < 3 then f32OfRat 100 1000000 else f32OfRat 150 1000000)
    else nth c.priorSigma t
  if i < 3 ∧ 3 ≤ t ∧ t < 6 ∧ (nth s.mot.triads i).moved then f32OfRat (2 * f32Int p) (2 ^ 149) else p

/-- The forgetting time of a channel in half hours (R136, R140), halved for an accelerometer that moved but not below 1 h
(R530). -/
def State.forgetting (s : State) (i : Nat) : Nat :=
  if i < 3 then (if (nth s.mot.triads i).moved then max 2 s.calBlock.accTau else 2 * s.calBlock.accTau)
  else 2 * s.calBlock.magTau

/-- Weight of a block: 1 when it is new, forgotten exponentially (R136). -/
def State.blockWeight (s : State) (i : Nat) (b : List Int) : Int :=
  fxExp (-(((s.mark : Int) - nth b 0) * fxOne / (1843200 * s.forgetting i : Nat)))

/-- The reference of a fit in the unit of its block means: gravity, or the mean magnitude of the accepted blocks where LAT is a
NaN (R133, R134); the field (R140). -/
def State.fitRef (s : State) (i : Nat) : Int :=
  if i = 5 then s.fieldRef.getD 0
  else if f32IsNan s.calBlock.lat then meanI ((nth s.mot.cal i).blocks.map fun b => lenV (meanOf b))
  else gravityRef s.calBlock.lat s.calBlock.height

/-- |M (v − b)| at the prior and its derivatives by C0–C8 (R136). -/
def fitRow (prior : List Word) (v : List Int) : Int × List Int :=
  let w := subV v ((prior.take 3).map fxOf)
  let f := matVec (termMat prior) w
  let u := f.map fun x => fxDiv x (lenV f)
  let c (i j : Nat) : Int := if i = j then fxMul (nth u i) (nth w i) else fxMul (nth u i) (nth w j) + fxMul (nth u j) (nth w i)
  (lenV f, ((matVec (termMat prior) u).map fun x => -x) ++ [c 0 0, c 1 1, c 2 2, c 0 1, c 0 2, c 1 2])

/-- 1 / σ². -/
def invVar (sigma : Int) : Int := fxDiv fxOne (max 1 (fxMul sigma sigma))

/-- The blocks of a fit as weighted rows: weight over the variance of a block mean, distance from the reference, and
derivatives by the n terms. -/
def State.fitRows (s : State) (i n : Nat) : List (Int × Int × List Int) :=
  let ref := s.fitRef i
  (nth s.mot.cal i).blocks.map fun b =>
    let (a, j) := fitRow (nth s.mot.cal i).prior (meanOf b)
    (fxMul (s.blockWeight i b) (invVar (Config.blockSigma i)), ref - a, j.take n)

/-- The weighted least-squares solution with a prior of variances 1 / q (R136), the terms of held kept at it: n rows of the
change against the prior and the posterior covariance. -/
def solveFit (n : Nat) (q : List Int) (rows : List (Int × Int × List Int)) (held : List Nat) : List (List Int) :=
  let rows := rows.map fun (w, y, j) => (w, y, j.mapIdx fun k x => if held.contains k then 0 else x)
  solveN n ((List.range n).map fun a => (List.range n).map fun b =>
      (rows.map fun (w, _, j) => fxMul w (fxMul (nth j a) (nth j b))).sum + if a = b then nth q a else 0)
    ((List.range n).map fun a => (rows.map fun (w, y, j) => fxMul w (fxMul (nth j a) y)).sum)

/-- The changes of a fit of which the common scale is not calibrated (R134): the mean change of C3–C5 is taken out. -/
def withoutCommon (held : List Nat) (d : List Int) : List Int :=
  let k := meanI ((d.drop 3).take 3)
  d.mapIdx fun t x => if 3 ≤ t ∧ t < 6 ∧ !held.contains t then x - k else x

/-- What an estimator finds: the terms, their σ, and the terms held at their prior. -/
structure Estimate where
  terms : List Word
  sigma : List Word
  held  : List Nat
  deriving DecidableEq, Repr, Inhabited

/-- Nine words from at most nine numbers. -/
def nineWords (l : List Int) : List Word := ((l.map fxWord) ++ List.replicate 9 0).take 9

/-- The estimate of an accelerometer or MAG channel (R136, R140): the fit linearised at the prior. A term whose posterior σ
stays above half its prior σ is held at the prior, and the others are fitted beside it (DEDUCED). -/
def State.fitEstimate (s : State) (i : Nat) : Estimate :=
  let n := termCount i
  let c := nth s.mot.cal i
  let q := (List.range n).map fun t => invVar (fxOf (s.priorSigma i t))
  let rows := s.fitRows i n
  let sg := (solveFit n q rows []).mapIdx fun t r => fxSqrt (nth r (1 + t))
  let held := (List.range n).filter fun t => decide (fxOf (s.priorSigma i t) < 2 * nth sg t)
  let d := (solveFit n q rows held).map fun r => nth r 0
  let d := if i < 3 ∧ f32IsNan s.calBlock.lat then withoutCommon held d else d
  { terms := ((d.mapIdx fun t x => if held.contains t then nth c.prior t else fxWord (fxOf (nth c.prior t) + x)) ++
      List.replicate 9 0).take 9
    sigma := nineWords sg
    held := held }

/-! ### The gyroscopes (R138, R139) -/

/-- Earth rate in north, east and down axes at a latitude in degrees, in °/h (R138). -/
def earthRate (lat : Int) : List Int :=
  let w := 3600 * fxDeg (fxRat 7292115 (10 ^ 11))
  [fxMul w (fxCos (fxRad lat)), 0, -(fxMul w (fxSin (fxRad lat)))]

/-- The change of heading from one value to the next, degrees, the short way round. -/
def headingStep (a b : Int) : Int := (b - a + 180 * fxOne) % (360 * fxOne) - 180 * fxOne

/-- The mooring turn in °/h over blocks given newest first (R138): the change of magnetic heading, followed from block to
block, divided by the time between the first and the last. -/
def mooringTurn (l : List (List Int)) : Int :=
  let change := ((l.zip (l.drop 1)).map fun p => headingStep (nth p.2 4) (nth p.1 4)).sum
  let span := nth (l.head?.getD []) 0 - nth (l.getLast?.getD []) 0
  if span = 0 then 0 else change * 3686400 / span

/-- The remainder of a block's mean rate in °/h (R138): less the Earth rate and the mooring turn in module axes. -/
def State.gyroRest (s : State) (turn : Int) (b : List Int) : List Int :=
  let (roll, pitch) := tiltAngles b
  let e := eulerMat roll pitch (fxRad (nth b 4 + fxOf s.calBlock.decl))
  subV (meanOf b) (toModule (s.strap 11) (matVec e (addV (earthRate (fxOf s.calBlock.lat)) [0, 0, turn])))

/-- Noise density of a gyroscope in °/h/√Hz (R102, R139). -/
def gyroNoise (i : Nat) : Int := if i = 3 then fxRat 72 10 else fxRat 36 1

/-- σ of a gyroscope's bias (R139): noise over the accepted time in the window of n blocks, and for a horizontal axis the Earth
rate that a wrong heading turns into it. -/
def State.gyroSigma (s : State) (i n a : Nat) : Int :=
  let x := fxMul (gyroNoise i) (gyroNoise i) / (60 * n : Nat)
  let y := fxMul (fxMul (fxRat 150411 10000) (fxCos (fxRad (fxOf s.calBlock.lat)))) s.mot.dpsi
  if upright (s.strap 11) a then fxSqrt x else fxSqrt (x + fxMul y y)

/-- The estimate of a gyroscope channel (R138): the mean of the remainders over the window, with the σ of R139. What a prior and
its σ (R154, R158) are to this mean is not stated: it starts again without them, and the terms in force stay until its next
update (DESIGN CHOICE, assumption-log row 76). -/
def State.gyroEstimate (s : State) (i : Nat) : Estimate :=
  let l := s.fitBlocks i
  let rest := l.map (s.gyroRest (mooringTurn l))
  { terms := nineWords ((List.range 3).map fun a => meanI (rest.map fun v => nth v a))
    sigma := nineWords ((List.range 3).map (s.gyroSigma i l.length))
    held := [] }

/-! ### Estimates and residuals (R137, R139, R141, R152) -/

/-- The estimate of channel i at an update. -/
def State.estimate (s : State) (i : Nat) : Estimate := if i = 3 ∨ i = 4 then s.gyroEstimate i else s.fitEstimate i

/-- A number times k, rounded, as RESIDUAL (R152). -/
def residualOf (x : Int) (k : Nat) : Nat := min (roundDiv (x * k) (2 ^ 96)).toNat 0xFFFE

/-- The rms of |m| less the reference over the blocks of the window, in µT (R141). -/
def State.magRms (s : State) (terms : List Word) : Int :=
  let e := (s.fitBlocks 5).map fun b => lenV (applyTerms terms (meanOf b)) - s.fieldRef.getD 0
  fxSqrt (meanI (e.map fun x => fxMul x x))

/-- RESIDUAL of an estimate: the largest σ of the observed biases of an accelerometer in µg (R137), the largest σ of a
gyroscope's biases (R139), and the rms of MAG (R141). -/
def State.newResidual (s : State) (i : Nat) (e : Estimate) : Nat :=
  let sg := (List.range 3).map fun t => fxOf (nth e.sigma t)
  if i = 5 then residualOf (s.magRms e.terms) 10000
  else if i = 3 ∨ i = 4 then residualOf (sg.foldl max 0) 1000
  else
    let obs := (List.range 3).filter fun t => !e.held.contains t
    if obs.isEmpty then min (Config.calResidual i e.sigma) 0xFFFE else residualOf ((obs.map fun t => nth sg t).foldl max 0) 1000000

/-- Heading uncertainty in radians (R140): the larger hard-iron σ of the horizontal axes over the mean horizontal field of the
window; no change where there is no field. -/
def State.headingSigma (s : State) (e : Estimate) : Int :=
  let o := s.strap 11
  let h := (s.fitBlocks 5).map fun b =>
    let (roll, pitch) := tiltAngles b
    lenV ((matVec (transpose3 (eulerMat roll pitch 0)) (toStructure o (applyTerms e.terms (meanOf b)))).take 2)
  let sg := ((List.range 3).filter fun a => !upright o a).map fun a => fxOf (nth e.sigma a)
  if meanI h = 0 then s.mot.dpsi else fxDiv (sg.foldl max 0) (meanI h)

/-- Some estimate lies more than 4 σ from the terms in force (R147). -/
def departs (terms new sg : List Word) : Bool :=
  (List.range 9).any fun t => decide (4 * f32Int (nth sg t) < ((f32Int (nth new t) - f32Int (nth terms t)).natAbs : Int))

/-- Insertion into a rising list. -/
def insertUp (x : Nat) : List Nat → List Nat
  | [] => [x]
  | y :: ys => if x ≤ y then x :: y :: ys else y :: insertUp x ys

/-- Heading coverage in degrees: the smallest arc that holds every heading (R141). -/
def coverageOf (blocks : List (List Int)) : Nat :=
  match (blocks.map fun b => (roundDiv (nth b 4 * 1000) (2 ^ 96) % 360000).toNat).foldr insertUp [] with
  | [] => 0
  | a :: l =>
    let gaps := ((a :: l).zip (l ++ [a + 360000])).map fun p => p.2 - p.1
    (360000 - gaps.foldl max 0) / 1000

/-! ### Convergence (R147–R150) -/

/-- What an update decides: the state, whether new terms come into force, and whether the estimator restarts (R147, R149). -/
structure Verdict where
  st : Nat
  take_ : Bool
  restart : Bool
  deriving DecidableEq, Repr, Inhabited

/-- The run of updates with the same discrepancy (R147): it counts out of cold, and begins again with the estimator. -/
def CalCh.runOn (c : CalCh) (dep restart : Bool) : Nat := if dep && c.st != 0 && !restart then c.offRun + 1 else 0

/-- The state table of R147 for a channel in a state: enough data, most of the period discarded, an estimate that departs,
its residual against the limit, the run at or below it with this update, and what else being settled asks for. A channel that was
restored from settled settles at its first update that agrees (R158). -/
def verdict (c : CalCh) (enough most dep : Bool) (res lim low : Nat) (also : Bool) : Verdict :=
  match c.st with
  | 0 => if enough then ⟨1, true, false⟩ else ⟨0, false, false⟩
  | 3 =>
    if dep && decide (5 ≤ c.offRun) then ⟨1, true, true⟩
    else if most || dep then ⟨3, false, false⟩
    else ⟨if c.wasSettled ∨ (res ≤ lim ∧ also) then 2 else 1, true, false⟩
  | _ =>
    if most || dep then ⟨3, false, false⟩
    else if c.wasSettled then ⟨2, true, false⟩
    else if c.st = 2 then ⟨if 2 * lim < res then 1 else 2, true, false⟩
    else ⟨if 2 ≤ low ∧ also then 2 else 1, true, false⟩

/-- A triad's resonance reference once its channel has settled (R530). -/
def Motion.settleTriad (m : Motion) (i st : Nat) : Motion :=
  if st = 2 then m.onTriad i fun t => { t with moved := false, resSettled := t.resPpm } else m

/-- The other channel of the pairs whose terms change at one mark (R150). -/
def pairOf (i : Nat) : Option Nat :=
  match i with
  | 0 => some 1
  | 1 => some 0
  | 3 => some 4
  | 4 => some 3
  | _ => none

/-- The mark at which an update's terms come into force (R150): two marks after the block's end, with the other channel of the
pair where its terms still wait; the next mark where the update comes later than that (DESIGN CHOICE, assumption-log row
76). -/
def State.termsMark (s : State) (i base : Nat) : Nat :=
  let own := max (base + 2) (s.mark + 1)
  match pairOf i with
  | some j => ((nth s.mot.cal j).next.map (·.1)).foldl max own
  | none => own

/-- The terms that wait in a channel come into force at another mark. -/
def CalCh.moveNext (c : CalCh) (mark : Nat) : CalCh := { c with next := c.next.map fun x => (mark, x.2) }

/-- An update falls due at a restore's commit mark, and is discarded (R158). -/
def CalCh.skips (c : CalCh) (mark : Nat) : Bool := c.skipAt == some mark

/-- The channel after an update whose estimate is e, with the verdict v (R147, R149, R151). -/
def CalCh.updated (c : CalCh) (v : Verdict) (e : Estimate) (res low base mark : Nat) (dep : Bool) : CalCh :=
  { c with
    st := v.st
    sigma := if v.take_ then e.sigma else c.sigma
    prior := if v.restart then e.terms else c.prior
    blocks := if v.restart then [] else c.blocks
    unobs := if v.take_ then BitVec.ofNat 9 (maskOf 9 fun t => e.held.contains t) else c.unobs
    residual := if v.take_ then res else c.residual
    updates := if v.st = 0 then 0 else c.updates + 1
    accepted := 0
    discarded := 0
    next := if v.take_ && e.terms != c.terms then c.next ++ [(mark, e.terms, e.sigma)] else c.next
    lowRun := low
    offRun := c.runOn dep v.restart
    wasSettled := c.wasSettled && v.st != 2
    updAt := base }

/-- Channel i becomes c' in an update, the channel that it is paired with changing with it (R150), and the motion state takes
the coverage, the heading's σ and the channel's new state (R141, R151). -/
def State.takeUpdate (s : State) (i : Nat) (c' : CalCh) (changed : Bool) (mark cov : Nat) (dpsi : Int) : State :=
  let s := s.onCal i fun _ => c'
  let s := match pairOf i with
    | some j => if changed then s.onCal j (·.moveNext mark) else s
    | none => s
  { s with mot := ({ s.mot with coverage := cov, dpsi := dpsi }.settleTriad i c'.st) }

/-- CAL_UPDATE (R129, R136–R151): the 600 s update of channels 0–5, once per mark that is a multiple of 614,400. New terms
come into force two marks after the block's end. -/
def doCalUpdate (i : Nat) (s : State) : State :=
  let base := s.mark / reportMarks * reportMarks
  let c := nth s.mot.cal i
  if s.calRuns i && base != 0 && decide (c.updAt < base) then
    if c.skips base then s.onCal i fun c => { c with updAt := base, accepted := 0, discarded := 0 }
    else
      let gyro := i == 3 || i == 4
      let enough := if gyro then decide (60 ≤ c.total) && !f32IsNan s.calBlock.lat else decide (1 ≤ c.total)
      let e := s.estimate i
      let dep := departs c.terms e.terms e.sigma
      let res := s.newResidual i e
      let cov := if i = 5 then coverageOf (s.fitBlocks 5) else s.mot.coverage
      let low := if res ≤ settleLimit i then c.lowRun + 1 else 0
      let v := verdict c enough (decide (c.accepted < c.discarded)) dep res (settleLimit i) low (i != 5 || decide (270 ≤ cov))
      let mark := s.termsMark i base
      let changed := v.take_ && e.terms != c.terms
      let c' := c.updated v e res low base mark dep
      let dpsi := if i = 5 && v.take_ then s.headingSigma e else s.mot.dpsi
      (s.takeUpdate i c' changed mark cov dpsi).writePacket (calUpdateRec i c' changed c.accepted c.discarded (if changed then mark else base))
  else s

def execCalUpdate (ch : Fin 6) (s : State) : Result := .next (doCalUpdate ch.val s)

/-- A channel that changes to c' at a mark: the terms before stay known to the instants of earlier marks (R20, R107). -/
def CalCh.become (c c' : CalCh) (mark : Nat) : CalCh :=
  { c' with was := if c.since = mark then c.was else c.terms, since := mark }

/-- Terms whose mark has come take force (R150). -/
def CalCh.atMark (c : CalCh) (mark : Nat) : CalCh :=
  match c.next.filter fun x => markLe x.1 mark with
  | [] => c
  | l =>
    let x := l.getLast?.getD default
    c.become { c with terms := x.2.1, sigma := x.2.2, next := c.next.filter fun x => markLt mark x.1 } mark

/-- CAL_TERMS_CHANGE at a grid mark (R150). -/
def Motion.termsAtMark (m : Motion) (mark : Nat) : Motion := { m with cal := m.cal.map (·.atMark mark) }

/-! ### The heave chain (R142, R143) -/

/-- |d| exceeds HV_UP + 0.5 % of Hm0 (R143). -/
def exceedsUp (d hm0 : Word) (up : Nat) : Bool :=
  decide ((up : Int) * 2 ^ 149 + 5 * f32Int hm0 < 1000 * ((f32Int d).natAbs : Int))

/-- |d| is below HV_DOWN (R143). -/
def belowDown (d : Word) (down : Nat) : Bool := decide (1000 * (f32Int d).natAbs < down * 2 ^ 149)

/-- The corner that follows (R143), between HV_MIN and HV_MAX, and the run of records below HV_DOWN. R143 does not say whether
that run begins again after a step down: it does here (DESIGN CHOICE, assumption-log row 77). -/
def nextCorner (c : CalBlock) (corner run : Nat) (d hm0 : Word) : Nat × Nat :=
  let run := if belowDown d c.hvDown then run + 1 else 0
  let dest := if exceedsUp d hm0 c.hvUp then corner + 1 else if 3 ≤ run then corner - 1 else corner
  (max c.hvMin (min c.hvMax dest), if exceedsUp d hm0 c.hvUp || decide (3 ≤ run) then 0 else run)

/-- A record period without data, whose d is a NaN (R169): R147 does not say what it is to the heave channel. It is one
discarded result, and state, runs, terms and residual stay (DESIGN CHOICE, assumption-log row 77). -/
def State.heaveEmpty (s : State) : State :=
  let c := nth s.mot.cal 6
  let c' := { c with discarded := 0, accepted := 0, updates := if c.st = 0 then 0 else c.updates + 1 }
  (s.onCal 6 fun _ => c').writePacket (calUpdateRec 6 c' false 0 1 s.mark)

/-- The heave channel after a record period with mean d and Hm0 hm0: the corner it takes from the next record on, and its
state. The step is taken from the corner that waits for the next record where one does (R158). -/
def heaveStep (b : CalBlock) (m : Motion) (d hm0 : Word) : CalCh × Option Nat × Nat × Nat :=
  let c := nth m.cal 6
  let corner := m.cornerNext.getD m.corner
  let x := nextCorner b corner m.downRun d hm0
  let stepped := x.1 != corner
  let steady := if stepped then 0 else m.steady + 1
  let res := min (f32ToInt (f32Abs d) 1000 1).toNat 0xFFFE
  let low := if res ≤ 20 then c.lowRun + 1 else 0
  let v := verdict c true false false res 20 low (decide (3 ≤ steady))
  ({ c with
      st := v.st
      terms := (cornerWord x.1 :: d :: c.terms.drop 2).take 9
      residual := res
      updates := c.updates + 1
      total := c.total + 1
      lowRun := low
      wasSettled := c.wasSettled && v.st != 2
      accepted := 0
      discarded := 0 }, if stepped then some x.1 else m.cornerNext, x.2, steady)

/-- The heave channel's update at the end of a record period that began at mark first. CHANGED says that the corner steps; C1,
the last d, changes with every record and does not set it (DESIGN CHOICE, assumption-log row 77). -/
def State.heaveUpdate (s : State) (first : Nat) (d hm0 : Word) : State :=
  let x := heaveStep s.calBlock s.mot d hm0
  let stepped := x.2.1 != s.mot.cornerNext
  let s := s.onCal 6 fun _ => x.1
  let s := { s with mot := { s.mot with cornerNext := x.2.1, downRun := x.2.2.1, steady := x.2.2.2 } }
  s.writePacket (calUpdateRec 6 x.1 stepped 1 0 (if stepped then first + s.recMarks else s.mark))

/-- RECORD_PERIOD_END (R143, R147, R151): the corner is compared with the period's mean heave, once. -/
def doRecordPeriodEnd (s : State) : State :=
  match s.prod.recDone with
  | none => s
  | some r =>
    if s.calRuns 6 && !r.ended then
      let s := { s with prod := { s.prod with recDone := some { r with ended := true } } }
      let x := if s.full && s.waveDue r then s.waveRecord r 0 else ([], r.h4s, r.dmean)
      if (nth s.mot.cal 6).skips s.mark then s
      else if f32IsNan x.2.2 then s.heaveEmpty else s.heaveUpdate r.first x.2.2 x.2.1
    else s

def execRecordPeriodEnd (s : State) : Result := .next (doRecordPeriodEnd s)

/-! ### Changes from outside: commit, restore, Layby (R147, R154, R158, R159) -/

/-- A channel back to cold with its factory terms (R147). -/
def CalCh.reset (i : Nat) : CalCh := CalCh.cold (factoryTerms i)

/-- An estimator that restarts its sums with the terms in force as its prior (R154): a settled channel goes to
converging. -/
def CalCh.restart (c : CalCh) : CalCh :=
  { c with prior := c.terms, blocks := [], steps := [], total := 0, lowRun := 0, offRun := 0, st := if c.st = 2 then 1 else c.st }

/-- Which of LAT, HEIGHT, FIELD, DECL a channel's estimator uses (R133, R138, R140). -/
def calFieldsOf (i : Nat) (c : CalBlock) : List Word :=
  if i < 3 then [c.lat, c.height] else if i < 5 then [c.lat, c.decl] else if i = 5 then [c.field] else []

/-- The channels after a commit (R147, R153, R154): a disabled estimator's channel is cold, a changed field restarts the
estimators that use it, and a gyroscope without a latitude is cold. FE recipes' fingerprints are compared. -/
def calCommit (old new : CalBlock) (rfpOld rfpNew : List Word) (en : Nat → Bool) (mark i : Nat) (c : CalCh) : CalCh :=
  if !en i then c.become (CalCh.reset i) mark
  else if 7 ≤ i then (if nth rfpOld (i - 7) = nth rfpNew (i - 7) then c else c.become (CalCh.reset i) mark)
  else if (i == 3 || i == 4) && f32IsNan new.lat then c.become (CalCh.reset i) mark
  else if calFieldsOf i old = calFieldsOf i new then c
  else c.restart

/-- Fingerprints of the front-end recipes by channel (R155 RFP). -/
def rfpsOf (im : Option Image) : List Word :=
  (List.range 32).map fun ch =>
    match im with
    | none => 0
    | some im =>
      match im.fe with
      | none => 0
      | some fe =>
        match fe.recipes.find? (·.ch == ch) with
        | some r => r.rfp
        | none => 0

/-- The calibration record (R155) without its tag: header and 39 entries. -/
def State.calBody (s : State) : List Word :=
  let ser := Config.serial.toNat
  let id : Word := match s.port.inForce with
    | some im => im.hdr.imageId
    | none => 0
  let rfps := rfpsOf s.port.inForce
  [word (at_ 1 24 + at_ 39 16), word ser, word (ser / 2 ^ 32), word s.mark, id, 0, 0, 0] ++
    (s.mot.cal.zipIdx.flatMap fun (c, i) =>
      ([word (at_ (calchOf i) 24 + at_ c.st 14 + c.unobs.toNat), word c.residual, word (satN 32 c.updates),
        if i < 7 then 0 else nth rfps (i - 7)] ++ c.terms ++ c.sigma ++ [0, 0]))

/-- The tag of a calibration record (R155). -/
def calTag (body : List Word) : List Word :=
  wordsOf ((hmac (Config.calKeyOf Config.deviceSecret) (bytesOfWords body)).take 16)

/-- The calibration record (R155). -/
def State.calRecord (s : State) : List Word := s.calBody ++ calTag s.calBody

/-- The forty fragments of a calibration record (R156). -/
def calFragments (ws : List Word) : List (List Word) :=
  (List.range 40).map fun k => (ws.drop (24 * k)).take (if k = 39 then 12 else 24)

/-- SKIPPED (R157): the FE channels whose RFP differs from the recipe in force. -/
def State.calSkipped (s : State) (ws : List Word) : Nat :=
  let rfps := rfpsOf s.port.inForce
  maskOf 32 fun i => nth ws (8 + 24 * (7 + i) + 3) != nth rfps i

/-- The checks of R157 after the last fragment: the RESULT of the first failure, 0 where every one passes. -/
def calVerify (ws : List Word) : Nat :=
  let ser := Config.serial.toNat
  let entryBad (i : Nat) : Bool :=
    let w (k : Nat) : Word := nth ws (8 + 24 * i + k)
    fld (w 0) 31 24 != calchOf i || fld (w 0) 23 16 != 0 || fld (w 0) 13 9 != 0 || fld (w 1) 31 16 != 0 ||
      w 22 != 0 || w 23 != 0
  if ws.length ≠ 948 then 1
  else if fld (nth ws 0) 31 24 ≠ 1 ∨ fld (nth ws 0) 23 16 ≠ 39 then 2
  else if nth ws 1 ≠ word ser ∨ nth ws 2 ≠ word (ser / 2 ^ 32) then 3
  else if ws.drop 944 ≠ calTag (ws.take 944) then 4
  else if fld (nth ws 0) 15 0 ≠ 0 ∨ nth ws 5 ≠ 0 ∨ nth ws 6 ≠ 0 ∨ nth ws 7 ≠ 0 ∨ (List.range 39).any entryBad then 5
  else 0

/-- A restored channel (R158): the record's terms, prior and prior σ; a cold entry stays cold, any other converges. An update
that falls due at the commit mark is discarded. -/
def CalCh.restored (c : CalCh) (e : List Word) (mark : Nat) : CalCh :=
  let st := fld (nth e 0) 15 14
  let terms := (e.drop 4).take 9
  let sg := (e.drop 13).take 9
  c.become { c with
    st := if st = 0 then 0 else 1
    terms := terms, sigma := sg, prior := terms, priorSigma := sg, est := terms, steps := []
    unobs := BitVec.ofNat 9 (fld (nth e 0) 8 0)
    residual := if st = 0 then 0xFFFF else fld (nth e 1) 15 0
    updates := if st = 0 then 0 else (nth e 2).toNat
    accepted := 0, discarded := 0, total := 0, blocks := [], next := [], lowRun := 0, offRun := 0
    wasSettled := st == 2, gainOk := false, skipAt := some mark } mark

/-- The corner index nearest to a C0 (R142). -/
def cornerOfWord (w : Word) : Nat :=
  ((List.range 8).find? fun i => cornerWord i == w).getD 4

/-- A channel that a restore leaves as it is: a skipped FE channel (R158), one whose estimator is disabled (R153, R243), and a
gyroscope without a latitude, which stays cold (R134, R147). -/
def State.keepsCal (s : State) (skip i : Nat) : Bool :=
  (decide (7 ≤ i) && bitOf skip (i - 7)) || !s.calEnabled i || ((i == 3 || i == 4) && f32IsNan s.calBlock.lat)

/-- CAL_RESTORE_COMMIT (R158): every channel but those takes the record's terms at the mark, and every channel discards an update
that falls due there; the heave corner takes effect with
the next record (R143), between HV_MIN and HV_MAX. -/
def State.restoreCommit (s : State) (ws : List Word) : State :=
  let skip := s.calSkipped ws
  let m := s.mot
  let cal := m.cal.mapIdx fun i c =>
    if s.keepsCal skip i then { c with skipAt := some s.mark } else c.restored ((ws.drop (8 + 24 * i)).take 24) s.mark
  let m := { m with cal := cal }
  let b := s.calBlock
  { s with mot := if s.keepsCal skip 6 then m
      else { m with cornerNext := some (max b.hvMin (min b.hvMax (cornerOfWord (nth (nth cal 6).terms 0)))), downRun := 0,
                    steady := 0 } }

/-- The channels on a wake (R159): after more than 6 h of Layby a settled one converges; where the calibration bank failed,
every one is cold with its defaults, and the heave corner is HV_START again. -/
def Motion.calWake (m : Motion) (bankFailed long : Bool) (start : Nat) : Motion :=
  if bankFailed then
    { m with cal := (List.range 39).map CalCh.reset, corner := start, cornerNext := none, downRun := 0, steady := 0,
             dpsi := Motion.init.dpsi, coverage := 0 }
  else { m with cal := m.cal.map fun c => if long && c.st == 2 then { c with st := 1, lowRun := 0 } else c }

end Sys2Proof.Machine
end

