-- ==== Sys2Proof/Machine/Curves.lean ====
section
/-! DEFINITION. The curves of the front end (09_conversion.md R252), from a quantity, the assigned values and the
coefficients to the value in the output unit. R252 gives the formulas of curves 0, 24–31, 48 and 56–63 and the coefficients
of 16 and 17; the reference functions of IEC 60584-1, the form of IEC 60751, PSS-78 and the UNESCO 1983 algorithm are taken
from those standards (PRESUMED, assumption-log row 79). -/

namespace Sys2Proof.Machine

/-- A quotient; where the divisor is 0 it has no value, and a free one stands for it. -/
def ratio (a b : Int) : Int := if b = 0 then Config.overZero a else fxDiv a b

/-- A polynomial by its coefficients, the lowest degree first. -/
def poly : List Int → Int → Int
  | [], _ => 0
  | c :: cs, x => c + fxMul x (poly cs x)

/-- The argument between lo and hi at which a rising function reaches y, by n halvings. -/
def bisect (f : Int → Int) (y : Int) : Nat → Int → Int → Int
  | 0, lo, _ => lo
  | n + 1, lo, hi =>
    let m := (lo + hi) / 2
    if f m ≤ y then bisect f y n m hi else bisect f y n lo m

/-- A number clamped to a range, and whether it lay outside (R252). -/
def clampI (lo hi x : Int) : Int × Bool := (max lo (min hi x), decide (x < lo) || decide (hi < x))

/-- An integer. -/
def fxInt (n : Int) : Int := n * fxOne

/-! ### Curves 1–8, 16, 17 and 24–31: temperatures -/

/-- Output range of curves 1–8, 16 and 17 in °C (R252). -/
def tempRange (c : Nat) : Int × Int :=
  match c with
  | 1 => (250, 1820)
  | 2 => (-200, 1000)
  | 3 => (-210, 1200)
  | 4 => (-200, 1372)
  | 5 => (-200, 1300)
  | 6 => (-50, 1768)
  | 7 => (-50, 1768)
  | 8 => (-200, 400)
  | 16 => (-200, 850)
  | _ => (-200, 650)

/-- Resistance over R0 at a temperature (IEC 60751) with the coefficients of R252. -/
def rtdRatio (c : Nat) (t : Int) : Int :=
  let (a, b) := if c = 16 then (fxRat 39083 (10 ^ 7), fxRat (-5775) (10 ^ 10)) else (fxRat 39739 (10 ^ 7), fxRat (-5790) (10 ^ 10))
  let t2 := fxMul t t
  fxOne + fxMul a t + fxMul b t2 + (if t < 0 then fxMul (fxRat (-4183) (10 ^ 15)) (fxMul (t - fxInt 100) (fxMul t t2)) else 0)

/-- Curves 16 and 17: the temperature of a resistance over R0. -/
def rtdCurve (c : Nat) (x : Int) : Int × Bool :=
  let (lo, hi) := tempRange c
  let (x, out) := clampI (rtdRatio c (fxInt lo)) (rtdRatio c (fxInt hi)) x
  (bisect (rtdRatio c) x 100 (fxInt lo) (fxInt hi), out)

/-- The segments of the reference function of curves 1–8 (IEC 60584-1), ascending: the upper end in 10^−3 °C, and the
coefficients of the powers of t in mV, n × 10^−d as (n, d). -/
def tcSegments (c : Nat) : List (Int × List (Int × Nat)) :=
  match c with
  | 1 => [  -- type B
    (630615, [(0, 0), (-24650818346, 14), (59040421171, 16), (-13257931636, 19), (15668291901, 22), (-1694452924, 24),
      (62990347094, 29)]),
    (1820000, [(-38938168621, 10), (2857174747, 11), (-84885104785, 15), (15785280164, 17), (-16835344864, 20),
      (11109794013, 23), (-44515431033, 27), (98975640821, 31), (-93791330289, 35)])]
  | 2 => [  -- type E
    (0, [(0, 0), (58665508708, 12), (45410977124, 15), (-77998048686, 17), (-25800160843, 18), (-59452583057, 20),
      (-93214058667, 22), (-10287605534, 23), (-80370123621, 26), (-43979497391, 28), (-16414776355, 30),
      (-39673619516, 33), (-55827328721, 36), (-34657842013, 39)]),
    (1000000, [(0, 0), (5866550871, 11), (45032275582, 15), (28908407212, 18), (-33056896652, 20), (6502440327, 22),
      (-19197495504, 26), (-12536600497, 28), (21489217569, 31), (-14388041782, 34), (35960899481, 38)])]
  | 3 => [  -- type J
    (760000, [(0, 0), (50381187815, 12), (3047583693, 14), (-8568106572, 17), (13228195295, 20), (-17052958337, 23),
      (20948090697, 26), (-12538395336, 29), (15631725697, 33)]),
    (1200000, [(29645625681, 8), (-14976127786, 10), (31787103924, 13), (-31847686701, 16), (15720819004, 19),
      (-30691369056, 23)])]
  | 4 => [  -- type K
    (0, [(0, 0), (39450128025, 12), (23622373598, 15), (-32858906784, 17), (-49904828777, 19), (-67509059173, 21),
      (-57410327428, 23), (-31088872894, 25), (-10451609365, 27), (-19889266878, 30), (-16322697486, 33)]),
    (1372000, [(-17600413686, 12), (38921204975, 12), (18558770032, 15), (-99457592874, 18), (31840945719, 20),
      (-56072844889, 23), (56075059059, 26), (-32020720003, 29), (97151147152, 33), (-12104721275, 36)])]
  | 5 => [  -- type N
    (0, [(0, 0), (26159105962, 12), (10957484228, 15), (-93841111554, 18), (-46412039759, 21), (-26303357716, 22),
      (-22653438003, 24), (-76089300791, 27), (-93419667835, 30)]),
    (1300000, [(0, 0), (25929394601, 12), (1571014188, 14), (43825627237, 18), (-25261169794, 20), (64311819339, 23),
      (-10063471519, 25), (99745338992, 29), (-60863245607, 32), (20849229339, 35), (-30682196151, 39)])]
  | 6 => [  -- type R
    (1064180, [(0, 0), (528961729765, 14), (139166589782, 16), (-238855693017, 19), (356916001063, 22), (-462347666298, 25),
      (500777441034, 28), (-373105886191, 31), (157716482367, 34), (-281038625251, 38)]),
    (1664500, [(295157925316, 11), (-252061251332, 14), (159564501865, 16), (-764085947576, 20), (205305291024, 23),
      (-293359668173, 27)]),
    (1768100, [(152232118209, 9), (-268819888545, 12), (171280280471, 15), (-345895706453, 19), (-934633971046, 26)])]
  | 7 => [  -- type S
    (1064180, [(0, 0), (540313308631, 14), (12593428974, 15), (-232477968689, 19), (322028823036, 22), (-331465196389, 25),
      (255744251786, 28), (-125068871393, 31), (271443176145, 35)]),
    (1664500, [(132900444085, 11), (334509311344, 14), (654805192818, 17), (-164856259209, 20), (129989605174, 25)]),
    (1768100, [(146628232636, 9), (-258430516752, 12), (163693574641, 15), (-330439046987, 19), (-943223690612, 26)])]
  | 8 => [  -- type T
    (0, [(0, 0), (38748106364, 12), (44194434347, 15), (11844323105, 17), (20032973554, 18), (90138019559, 20),
      (22651156593, 21), (36071154205, 23), (38493939883, 25), (28213521925, 27), (14251594779, 29), (48768662286, 32),
      (1079553927, 33), (13945027062, 37), (79795153927, 41)]),
    (400000, [(0, 0), (38748106364, 12), (3329222788, 14), (20618243404, 17), (-21882256846, 19), (10996880928, 21),
      (-30815758772, 24), (4547913529, 26), (-27512901673, 30)])]
  | _ => []

/-- A polynomial of a segment at t °C, computed in thousands of °C. -/
def tcPoly (k : List (Int × Nat)) (t : Int) : Int :=
  poly (k.zipIdx.map fun p => fxRat (p.1.1 * 10 ^ (3 * p.2)) (10 ^ p.1.2)) (t / 1000)

/-- The voltage in mV of a thermocouple at t °C, its reference junction at 0 °C (IEC 60584-1); type K has an exponential term
above 0 °C. -/
def tcMillivolt (c : Nat) (t : Int) : Int :=
  let segs := tcSegments c
  let seg := (segs.find? fun x => decide (t * 1000 ≤ fxInt x.1)).getD (segs.getLast?.getD (0, []))
  let d := t - fxRat 1269686 10000
  tcPoly seg.2 t +
    (if c = 4 ∧ 0 < t then fxMul (fxRat 1185976 (10 ^ 7)) (fxExp (-(fxMul (fxRat 1183432 (10 ^ 10)) (fxMul d d)))) else 0)

/-- Where the reference function of curves 1–8 begins, in °C (IEC 60584-1). -/
def tcLowest (c : Nat) : Int :=
  match c with
  | 1 => 0
  | 3 => -210
  | 6 | 7 => -50
  | _ => -270

/-- Curves 1–8: the temperature of a voltage in V and a cold junction in °C, which is held within the reference function. -/
def thermocouple (c : Nat) (q t : Int) : Int × Bool :=
  let (lo, hi) := tempRange c
  let f := tcMillivolt c
  let (x, out) := clampI (f (fxInt lo)) (f (fxInt hi)) (1000 * q + f (clampI (fxInt (tcLowest c)) (fxInt hi) t).1)
  (bisect f x 100 (fxInt lo) (fxInt hi), out)

/-- Curves 24–31: the temperature of a thermistor, from a, b, c, RMIN and RMAX. -/
def thermistor (k : List Int) (q : Int) : Int × Bool :=
  let (r, out) := clampI (nth k 3) (nth k 4) q
  let l := if 0 < r then fxLn r else Config.overZero r
  (ratio fxOne (nth k 0 + fxMul (nth k 1) l + fxMul (nth k 2) (fxMul l (fxMul l l))) - fxRat 27315 100, out)

/-! ### Curves 40 and 41: the sea -/

/-- PSS-78: practical salinity of a conductivity ratio R, a temperature T68 in °C and a sea pressure in dbar. -/
def pss78 (r t p : Int) : Int :=
  let e (n : Int) (k : Nat) : Int := fxRat n (10 ^ k)
  let rt := poly [e 6766097 7, e 200564 7, e 1104259 10, e (-69698) 11, e 10031 13] t
  let rp := fxOne + ratio (fxMul p (poly [e 2070 8, e (-6370) 13, e 3989 18] p))
    (poly [fxOne, e 3426 5, e 4464 7] t + fxMul (e 4215 4 - fxMul (e 3107 6) t) r)
  let x := fxSqrt (ratio r (fxMul rp rt))
  poly [e 80 4, e (-1692) 4, e 253851 4, e 140941 4, e (-70261) 4, e 27081 4] x +
    fxMul (ratio (t - fxInt 15) (fxOne + fxMul (e 162 4) (t - fxInt 15)))
      (poly [e 5 4, e (-56) 4, e (-66) 4, e (-375) 4, e 636 4, e (-144) 4] x)

/-- Curve 40: salinity of a conductivity in S/m at a temperature in °C and a sea pressure in dbar. -/
def salinity (c t p : Int) : Int × Bool :=
  let (t, o1) := clampI (fxInt (-2)) (fxInt 35) t
  let (p, o2) := clampI 0 (fxInt 10000) p
  let (y, o3) := clampI (fxInt 2) (fxInt 42) (pss78 (fxDiv c (fxRat 42914 10000)) (fxMul (fxRat 100024 100000) t) p)
  (y, o1 || o2 || o3)

/-- Gravity of the UNESCO 1983 algorithm in m/s² at a latitude in degrees and a sea pressure in dbar. -/
def unescoGravity (lat p : Int) : Int :=
  let s := fxSin (fxRad lat)
  fxMul (fxRat 9780318 (10 ^ 6)) (poly [fxOne, fxRat 52788 (10 ^ 7), fxRat 236 (10 ^ 7)] (fxMul s s)) +
    fxMul (fxRat 1092 (10 ^ 9)) p

/-- Depth in m of the UNESCO 1983 algorithm. -/
def unescoDepth (lat p : Int) : Int :=
  ratio (poly [0, fxRat 972659 (10 ^ 5), fxRat (-22512) (10 ^ 9), fxRat 2279 (10 ^ 13), fxRat (-182) (10 ^ 17)] p)
    (unescoGravity lat p)

/-! ### Curves 48 and 56–63 -/

/-- Curve 48: oxygen of a voltage at a temperature in °C, from PARAM, q0 and TC. -/
def oxygen (param : Int) (k : List Int) (q t : Int) : Int × Bool :=
  let (t, out) := clampI (fxInt (-5)) (fxInt 45) t
  (fxMul (fxMul param (q - nth k 0)) (fxExp (fxMul (nth k 1) (fxInt 25 - t))), out)

/-- Linear interpolation in a list of points with rising q; beyond the last point, the last y. -/
def interpolate : List (Int × Int) → Int → Int
  | [], _ => 0
  | [a], _ => a.2
  | a :: b :: l, q => if q ≤ b.1 then a.2 + fxMul (fxDiv (q - a.1) (b.1 - a.1)) (b.2 - a.2) else interpolate (b :: l) q

/-- Curves 56–63: the table of (q, y) pairs. -/
def tableCurve (k : List Int) (q : Int) : Int × Bool :=
  let pts := (chunks 2 k).map fun p => (nth p 0, nth p 1)
  let (q, out) := clampI (pts.head?.getD (0, 0)).1 (pts.getLast?.getD (0, 0)).1 q
  (interpolate pts q, out)

/-! ### All curves -/

/-- What a curve gives: the value y as binary32, whether the quantity lay outside its range, and the sea pressure of curve
41. -/
structure CurveOut where
  y : Word
  out : Bool
  p : Option Word
  deriving DecidableEq, Repr, Inhabited

/-- A value that may lie outside the range. -/
def CurveOut.of (x : Int × Bool) : CurveOut := { y := fxWord x.1, out := x.2, p := none }

/-- The curve of a quantity q (R252): number, PARAM, coefficients, LAT, and the assigned values t and p. -/
def curveY (c : Nat) (param : Word) (coef : List Word) (lat : Word) (q t p : Int) : CurveOut :=
  let k := coef.map fxOf
  let m := fxOf param
  if c = 0 then { y := f32OfRat (q * f32Int param) (2 ^ 245), out := false, p := none }
  else if c ≤ 8 then .of (thermocouple c q t)
  else if c = 16 ∨ c = 17 then .of (rtdCurve c (ratio q m))
  else if c ≤ 31 then .of (thermistor k q)
  else if c = 40 then .of (salinity (fxMul q m) t p)
  else if c = 41 then
    let (x, out) := clampI 0 (fxInt 10000) (poly k q)
    { y := fxWord (unescoDepth (fxOf lat) x), out := out, p := some (fxWord x) }
  else if c = 48 then .of (oxygen m k q t)
  else .of (tableCurve k q)

end Sys2Proof.Machine
end

