-- ==== Sys2Proof/Machine/Sections.lean ====
section
/-! DEFINITION. The sections of a route image: their parse into plain data, and the checks of steps 10 and 11 of
03_route_image.md R85 that each chapter sets on its section's own bits. -/

namespace Sys2Proof.Machine

/-! ### Findings -/

/-- A check that failed: the step of R85, the RESULT of R99, the section, and the byte offset inside it. -/
structure Find where
  step : Nat
  code : Nat
  sect : Nat
  off : Nat
  deriving DecidableEq, Repr, Inhabited

/-- Nothing where a check holds, its finding where it does not. -/
def need (ok : Bool) (step code sect off : Nat) : List Find :=
  if ok then [] else [{ step := step, code := code, sect := sect, off := off }]

/-- Order of findings: by step, then by section, then by offset (assumption-log row 60). -/
def Find.key (f : Find) : Nat := (f.step * 256 + f.sect) * 2 ^ 32 + f.off

/-- The finding that the loader reports: the first in order (R85). -/
def firstFind (l : List Find) : Option Find :=
  l.foldl (fun a f => match a with
    | none => some f
    | some b => if f.key < b.key then some f else some b) none

/-- What a chapter's table says of a field: reserved, a code whose values from n on are reserved, or a range. -/
inductive FieldRule where
  | res (w hi lo : Nat)
  | codes (w hi lo n : Nat)
  | rng (w hi lo a b : Nat)
  deriving DecidableEq, Repr, Inhabited

/-- The rule on the words of an entry that starts at byte base of a section (R8, R85 steps 10 and 11). -/
def FieldRule.check (sect base : Nat) (ws : List Word) : FieldRule → List Find
  | .res w hi lo => need (fld (nth ws w) hi lo == 0) 10 0x0B sect (base + 4 * w + lo / 8)
  | .codes w hi lo n => need (decide (fld (nth ws w) hi lo < n)) 10 0x0B sect (base + 4 * w + lo / 8)
  | .rng w hi lo a b =>
    need (decide (a ≤ fld (nth ws w) hi lo) && decide (fld (nth ws w) hi lo ≤ b)) 11 0x11 sect (base + 4 * w + lo / 8)

/-- The rules of one entry. -/
def checkEntry (sect : Nat) (rules : List FieldRule) (e : Nat × List Word) : List Find :=
  rules.flatMap (FieldRule.check sect e.1 e.2)

/-- The rules of every entry of a list. -/
def checkEntries (sect : Nat) (rules : List FieldRule) (es : List (Nat × List Word)) : List Find :=
  es.flatMap (checkEntry sect rules)

/-- n entries of k words from word `start` on, each with its byte offset in the section. -/
def entriesAt (ws : List Word) (start k n : Nat) : List (Nat × List Word) :=
  ((chunks k ((ws.drop start).take (k * n))).zipIdx).map fun (e, i) => (4 * (start + k * i), e)

/-- A finding of step 11 with RESULT 0x11. -/
def range (ok : Bool) (sect off : Nat) : List Find := need ok 11 0x11 sect off

/-- Values rise strictly. -/
def ascending : List Nat → Bool
  | a :: b :: r => decide (a < b) && ascending (b :: r)
  | _ => true

/-- A power of two up to 4096. -/
def packPower (n : Nat) : Bool := (List.range 13).any fun k => n == 2 ^ k

/-- A binary32 value within limits given as fractions of d. -/
def f32Within (w : Word) (lo hi : Int) (d : Nat) : Bool := f32Le (f32OfRat lo d) w && f32Le w (f32OfRat hi d)

/-- Lines of a packet of n instants of a axes (R123). -/
def packLines (n axes : Nat) : Nat := 1 + ceilDiv (n * axes) 4

/-- The demand of R123 in lines per 1024 grid marks, at the rate code k + 6. -/
def packDemand (rate n axes : Nat) : Nat := ceilDiv (2 ^ rate * packLines n axes) (64 * n)

/-! ### Section 0x01 (R77) -/

/-- The sixteen masks. -/
def parseMasks (bs : List Byte) : List Nat := (chunks 2 bs).map leNat

/-- Its checks. -/
def checkMasks (bs : List Byte) : List Find :=
  range (bs.length == 32) 1 0 ++
  (parseMasks bs).zipIdx.flatMap fun (m, n) =>
    range (m != 0) 1 (2 * n) ++
    need (!((setBits 16 m).any (strapReserved n))) 10 0x0B 1 (2 * n)

/-! ### Section 0x02 (R118–R120, R153) -/

/-- Stream entry (R119). -/
def parseStream (e : List Word) : Stream :=
  { source := fld (nth e 0) 31 28, axes := fld (nth e 0) 27 24, template := fld (nth e 0) 23 20,
    rate := fld (nth e 0) 19 15, view := fld (nth e 0) 7 0, pktSamples := fld (nth e 1) 31 16,
    fp := bitOf (nth e 1).toNat 0, credit := (nth e 2).toNat }

/-- The calibration block's defaults (R153). -/
def CalBlock.default : CalBlock :=
  { enable := 0x3F, lat := f32Nan, height := 0, field := 0, decl := 0, accTau := 12, magTau := 24, gyrWin := 6,
    feOffPer := 60, feGainPer := 600, hvMin := 0, hvMax := 7, hvStart := 4, hvUp := 20, hvDown := 5 }

/-- The calibration block (R153). -/
def parseCal (e : List Word) : CalBlock :=
  { enable := fld (nth e 0) 5 0, lat := nth e 1, height := nth e 2, field := nth e 3, decl := nth e 4,
    accTau := fld (nth e 5) 31 24, magTau := fld (nth e 5) 23 16, gyrWin := fld (nth e 5) 15 8,
    feOffPer := fld (nth e 6) 31 16, feGainPer := fld (nth e 6) 15 0, hvMin := fld (nth e 7) 31 28,
    hvMax := fld (nth e 7) 27 24, hvStart := fld (nth e 7) 23 20, hvUp := fld (nth e 7) 19 12,
    hvDown := fld (nth e 7) 11 4 }

/-- Section 0x02, with its defaults where it is absent (R118). -/
def parseInertial (ws : List Word) : Inertial :=
  if ws.isEmpty then { streams := [], blankGuard := 0, magBlank := false, cal := CalBlock.default }
  else
    let n := fld (nth ws 0) 31 24
    { streams := (entriesAt ws 4 4 n).map fun e => parseStream e.2
      blankGuard := fld (nth ws 1) 15 8
      magBlank := bitOf (nth ws 1).toNat 0
      cal := if fld (nth ws 0) 15 0 = 0 then CalBlock.default else parseCal (ws.drop (4 + 4 * n)) }

/-- The rates at which a template may run, as rate codes (R109). -/
def templateRates (t : Nat) : Nat × Nat :=
  match t with
  | 0 => (19, 19)
  | 3 => (0, 18)
  | 4 => (16, 18)
  | 6 => (0, 12)
  | 7 | 8 => (13, 16)
  | 9 => (12, 18)
  | 10 => (0, 10)
  | _ => (0, 16)

/-- Axes of a stream (R119). -/
def Stream.nAxes (s : Stream) : Nat := if s.axes = 3 then 3 else 1

/-- PKT_SAMPLES below rate / 1024, above 1024 S/s (R120, R234). -/
def packTooShort (rate n : Nat) : Bool := decide (16 < rate) && decide (n < 2 ^ (rate - 16))

/-- The checks of a stream entry (R119, R120). -/
def checkStream (off : Nat) (s : Stream) : List Find :=
  let t := templateRates s.template
  range (packPower s.pktSamples) 2 (off + 6) ++
  range (decide (t.1 ≤ s.rate) && decide (s.rate ≤ t.2)) 2 off ++
  range (!(s.source == 2 && [1, 2, 6, 10].contains s.template)) 2 off ++
  range (!packTooShort s.rate s.pktSamples) 2 off ++
  range (!s.fp || [0, 3, 5, 6, 7].contains s.source) 2 (off + 4)

/-- The checks of the calibration block at a byte offset (R153). -/
def checkCal (off : Nat) (e : List Word) : List Find :=
  let c := parseCal e
  checkEntry 2 ([.rng 0 31 24 1 1, .res 0 23 8, .res 0 7 6, .rng 5 31 24 1 168, .rng 5 23 16 1 168, .rng 5 15 8 1 48,
    .res 5 7 0, .rng 6 31 16 1 3600, .rng 6 15 0 10 36000, .rng 7 31 28 0 7, .rng 7 27 24 c.hvMin 7,
    .rng 7 23 20 c.hvMin c.hvMax, .rng 7 19 12 1 255, .rng 7 11 4 1 c.hvUp, .res 7 3 0] ++
    (List.range 8).map fun i => .res (8 + i) 31 0) (off, e) ++
  range (f32IsNan c.lat || f32Within c.lat (-90) 90 1) 2 (off + 4) ++
  range (f32Within c.height (-12000) 3000 1) 2 (off + 8) ++
  range (f32Within c.field 0 0 1 || f32Within c.field 20000 70000 1) 2 (off + 12) ++
  range (f32Within c.decl (-180) 180 1) 2 (off + 16)

/-- The checks of section 0x02 (R118–R120, R153). -/
def checkInertial (ws : List Word) (len : Nat) : List Find :=
  if ws.isEmpty then []
  else
    let n := fld (nth ws 0) 31 24
    let calLen := fld (nth ws 0) 15 0
    let es := entriesAt ws 4 4 n
    checkEntry 2 [.rng 0 31 24 0 32, .res 0 23 16, .res 1 31 16, .res 1 7 1, .res 2 31 0, .res 3 31 0] (0, ws) ++
    range (calLen == 0 || calLen == 64) 2 0 ++
    range (len == 16 + 16 * n + calLen) 2 0 ++
    checkEntries 2 [.codes 0 31 28 8, .codes 0 27 24 4, .codes 0 23 20 12, .codes 0 19 15 20, .res 0 14 8, .res 1 15 1,
      .res 3 31 0] es ++
    es.flatMap (fun e => checkStream e.1 (parseStream e.2)) ++
    range (decide ((es.map fun e => (parseStream e.2).nAxes).sum ≤ 48)) 2 0 ++
    (if calLen = 0 then [] else checkCal (16 + 16 * n) (ws.drop (4 + 4 * n)))

/-! ### Section 0x03 (R232–R234, R242, R243) -/

/-- Recipe entry (R233). -/
def parseRecipe (e : List Word) : Recipe :=
  { ch := fld (nth e 0) 31 27, view := fld (nth e 0) 23 16, lead := fld (nth e 0) 15 14,
    auto := bitOf (nth e 0).toNat 13, gain := fld (nth e 0) 12 9, gainMin := fld (nth e 0) 8 5,
    rate := fld (nth e 0) 4 0, pinP := fld (nth e 1) 31 26, pinN := fld (nth e 1) 25 20,
    exaPin := fld (nth e 1) 19 14, exbPin := fld (nth e 1) 13 8, retPin := fld (nth e 1) 7 2,
    exaSrc := fld (nth e 2) 31 28, exbSrc := fld (nth e 2) 27 24, istep := fld (nth e 2) 23 20,
    acf := fld (nth e 2) 19 18, pre := fld (nth e 2) 17 16, vexMv := fld (nth e 2) 15 0,
    biasPin := fld (nth e 3) 31 26, ibias := fld (nth e 3) 25 24, grd0 := fld (nth e 3) 23 22,
    grd1 := fld (nth e 3) 21 20, retVb := bitOf (nth e 3).toNat 19, vexLoad := fld (nth e 3) 15 8,
    discharge := fld (nth e 3) 7 0, curve := fld (nth e 4) 31 24, refch1 := fld (nth e 4) 23 18,
    refch2 := fld (nth e 4) 17 12, param := nth e 5, outLsb := nth e 6, cmLo := fld (nth e 7) 31 24,
    cmHi := fld (nth e 7) 23 16, ow := bitOf (nth e 7).toNat 15, blank := bitOf (nth e 7).toNat 14,
    basic := bitOf (nth e 7).toNat 13, pktSamples := fld (nth e 8) 31 16, credit := (nth e 9).toNat,
    rfp := crc32c (bytesOfWords e) }

/-- Scan entry (R243). -/
def parseScan (e : List Word) : ScanEntry :=
  { ch := fld (nth e 0) 31 27, mod := fld (nth e 0) 25 23, win := fld (nth e 0) 22 19, phase := fld (nth e 0) 15 0,
    xsettle := fld (nth e 1) 31 20, nocal := bitOf (nth e 1).toNat 1, trigOnly := bitOf (nth e 1).toNat 0 }

/-- Section 0x03 (R232, R242). -/
def parseFrontEnd (ws : List Word) : Option FrontEnd :=
  if ws.isEmpty then none
  else
    let scan := ws.drop ((nth ws 1).toNat / 4)
    some
      { vbiasMv := fld (nth ws 3) 31 16
        recipes := (entriesAt ws 4 12 (fld (nth ws 0) 31 24)).map fun e => parseRecipe e.2
        scan := (entriesAt scan 4 4 (fld (nth scan 0) 31 24)).map fun e => parseScan e.2
        fblankGuard := fld (nth scan 0) 15 8
        injMax := fld (nth scan 0) 7 0
        trigMask := nth scan 1
        injCredit := (nth scan 2).toNat }

/-- A pin code names AIN0–AIN47 (R210). -/
def isPin (p : Nat) : Bool := decide (p < 48)
/-- A guarded pin (R215). -/
def guarded (p : Nat) : Bool := decide (40 ≤ p) && decide (p < 48)
/-- A pin code of R210 for a field that takes only pins or none. -/
def pinOrNone (p : Nat) : Bool := isPin p || p == 0x3F
/-- A current source (R233). -/
def isIex (src : Nat) : Bool := decide (1 ≤ src) && decide (src ≤ 4)

/-- The fields of R229 stand as the lead scheme requires. -/
def Recipe.leadOk (r : Recipe) : Bool :=
  match r.lead with
  | 0 => r.pinP != 0x3F && r.pinN != 0x3F && r.exaSrc != 7 && r.exbSrc == 0 && r.exbPin == 0x3F
  | 2 => r.exaSrc != 0 && isPin r.exaPin && r.pinP != 0x3F && r.pinN != 0x3F && r.exbSrc == 0 &&
      (if r.exaSrc = 7 then isPin r.exbPin && r.retPin == 0x3F else isPin r.retPin && r.exbPin == 0x3F)
  | _ => isIex r.exaSrc && isIex r.exbSrc && r.exaSrc != r.exbSrc && isPin r.exaPin && isPin r.exbPin &&
      isPin r.retPin && r.pinP != 0x3F && r.pinN != 0x3F

/-- The recipe uses VBIAS (R221). -/
def Recipe.usesVbias (r : Recipe) : Bool :=
  r.biasPin != 0x3F || (r.retVb && r.retPin != 0x3F) || r.pre == 1 || r.ibias != 0 || r.exaSrc == 7 || r.pinP == 0x31 || r.pinN == 0x31

/-- The curves of R252. -/
def curveListed (c : Nat) : Bool :=
  decide (c ≤ 8) || c == 16 || c == 17 || (decide (24 ≤ c) && decide (c ≤ 31)) || c == 40 || c == 41 || c == 48 ||
    (decide (56 ≤ c) && decide (c ≤ 63))

/-- A curve that requires REFCH1 (R252). -/
def curveNeedsRef (c : Nat) : Bool := (decide (1 ≤ c) && decide (c ≤ 8)) || c == 40 || c == 48

/-- A REFCH code: a channel or none (R233). -/
def refCode (c : Nat) : Bool := decide (c < 32) || c == 0x3F

/-- Findings of several checks, in their order. -/
def findings (l : List (List Find)) : List Find := l.flatten

/-- The checks of a recipe entry at a byte offset, under VBIAS_MV (R210, R215, R220, R221, R229, R233, R234). -/
def checkRecipe (vbias off : Nat) (r : Recipe) : List Find :=
  let current := isIex r.exaSrc || isIex r.exbSrc
  let volt := decide (5 ≤ r.exaSrc) && decide (r.exaSrc ≤ 7)
  findings [
    range (decide (r.gain ≤ 8)) 3 (off + 1),
    range (decide (r.gainMin ≤ r.gain) && (r.auto || r.gainMin == 0)) 3 off,
    range (decide (r.rate ≤ 18)) 3 off,
    range (isPin r.pinP || r.pinP == 0x31 || r.pinP == 0x3F) 3 (off + 7),
    range (isPin r.pinN || r.pinN == 0x30 || r.pinN == 0x31 || r.pinN == 0x3F) 3 (off + 6),
    range (pinOrNone r.exaPin && !guarded r.exaPin) 3 (off + 5),
    range (pinOrNone r.exbPin && !guarded r.exbPin) 3 (off + 5),
    range (pinOrNone r.retPin && !guarded r.retPin) 3 (off + 4),
    range (decide (r.exaSrc ≤ 7)) 3 (off + 11),
    range (decide (r.exbSrc ≤ 4)) 3 (off + 11),
    range (decide (r.istep ≤ 11) && (current || r.istep == 0)) 3 (off + 10),
    range (r.exaSrc == 7 || r.acf == 0) 3 (off + 10),
    range (decide (r.pre ≤ 2)) 3 (off + 10),
    range (if volt then decide (500 ≤ r.vexMv) && decide (r.vexMv ≤ 5000) else r.vexMv == 0) 3 (off + 8),
    range (pinOrNone r.biasPin && !guarded r.biasPin) 3 (off + 15),
    range (decide (r.ibias ≤ 2)) 3 (off + 15),
    range (decide (r.grd0 ≤ 2)) 3 (off + 14),
    range (decide (r.grd1 ≤ 2)) 3 (off + 14),
    range (decide (r.vexLoad ≤ 20)) 3 (off + 13),
    range (curveListed r.curve) 3 (off + 19),
    range (refCode r.refch1 && (!curveNeedsRef r.curve || r.refch1 != 0x3F)) 3 (off + 18),
    range (refCode r.refch2) 3 (off + 17),
    range (decide (r.cmLo ≤ 200)) 3 (off + 31),
    range (decide (r.cmLo < r.cmHi) && decide (r.cmHi ≤ 200)) 3 (off + 30),
    range (decide (1 ≤ r.pktSamples) && decide (r.pktSamples ≤ 4096)) 3 (off + 34),
    range r.leadOk 3 off,
    range (decide (0 < vbias) || !r.usesVbias) 3 off,
    range (r.exaSrc != 7 ||
    (decide (500 + r.vexMv ≤ 2 * vbias) && decide (2 * vbias + r.vexMv ≤ 9500))) 3 off,
    range (!packTooShort r.rate r.pktSamples) 3 off]

/-- The checks of section 0x03 on its own bits (R232–R234, R242, R243). -/
def checkFrontEnd (ws : List Word) (len : Nat) : List Find :=
  if ws.isEmpty then []
  else
    let n := fld (nth ws 0) 31 24
    let so := (nth ws 1).toNat
    let vb := fld (nth ws 3) 31 16
    let es := entriesAt ws 4 12 n
    let rs := es.map fun e => parseRecipe e.2
    let scan := ws.drop (so / 4)
    let ne := fld (nth scan 0) 31 24
    let ss := entriesAt scan 4 4 ne
    checkEntry 3 [.res 0 23 0, .rng 0 31 24 0 32, .res 3 15 0] (0, ws) ++
    range (so % 16 == 0 && decide (16 + 48 * n ≤ so)) 3 4 ++
    range (decide (so + (nth ws 2).toNat ≤ len)) 3 8 ++
    range (vb == 0 || (decide (500 ≤ vb) && decide (vb ≤ 4500))) 3 14 ++
    range (ascending (rs.map (·.ch))) 3 16 ++
    checkEntries 3 [.res 0 26 24, .res 1 1 0, .res 3 18 16, .res 4 11 0, .res 7 12 0, .res 8 15 0, .res 10 31 0,
      .res 11 31 0] es ++
    es.flatMap (fun e => checkRecipe vb e.1 (parseRecipe e.2)) ++
    checkEntry 3 [.res 0 23 16, .res 3 31 0] (so, scan) ++
    checkEntries 3 [.res 0 26 26, .res 0 18 16, .res 1 19 2, .res 2 31 0, .res 3 31 0]
      (ss.map fun e => (e.1 + so, e.2))

/-- The counts of the scan plan agree with the recipes: one entry for each recipe, in its order (R242, R246; step 17). -/
def checkScanCounts (ws : List Word) : List Find :=
  let so := (nth ws 1).toNat
  let scan := ws.drop (so / 4)
  let ne := fld (nth scan 0) 31 24
  let chs := (entriesAt ws 4 12 (fld (nth ws 0) 31 24)).map fun e => (parseRecipe e.2).ch
  need (ne == fld (nth ws 0) 31 24 && (nth ws 2).toNat == 16 + 16 * ne) 17 0x10 3 so ++
  need (((entriesAt scan 4 4 ne).map fun e => fld (nth e.2 0) 31 27) == chs) 17 0x10 3 (so + 16)

/-! ### Section 0x04 (R281, R282, R284) -/

/-- Channel entry (R282). -/
def parseChan (e : List Word) : ChanEntry :=
  { ch := fld (nth e 0) 31 28, rate := fld (nth e 0) 27 23, mode := fld (nth e 0) 22 19, phase := fld (nth e 0) 15 0,
    pktSamples := fld (nth e 1) 31 16, view := fld (nth e 1) 7 0, credit := (nth e 2).toNat }

/-- Node entry with its channels taken from the list of channel entries (R282). -/
def parseNode (chans : List ChanEntry) (e : List Word) : NodeEntry :=
  { pos := fld (nth e 0) 31 26, uid := BitVec.ofNat 64 ((nth e 2).toNat * 2 ^ 32 + (nth e 1).toNat),
    maker := fld (nth e 3) 31 16, model := fld (nth e 3) 15 0, mpay := bytesOfWords [nth e 4, nth e 5, nth e 6],
    mlen := fld (nth e 7) 31 24, chans := (chans.drop (fld (nth e 0) 15 0)).take (fld (nth e 0) 20 16) }

/-- Road entry with its nodes taken from the list of node entries (R281). -/
def parseRoad (nodes : List NodeEntry) (e : List Word) : RoadEntry :=
  { road := fld (nth e 0) 31 29, strict := bitOf (nth e 1).toNat 0,
    nodes := (nodes.drop (fld (nth e 0) 15 0)).take (fld (nth e 0) 23 16) }

/-- The road, node and channel entries of section 0x04 with their offsets (R281). -/
def roadParts (ws : List Word) : List (Nat × List Word) × List (Nat × List Word) × List (Nat × List Word) :=
  let nr := fld (nth ws 0) 31 24
  let nn := fld (nth ws 0) 15 0
  (entriesAt ws 4 4 nr, entriesAt ws (4 + 4 * nr) 8 nn, entriesAt ws (4 + 4 * nr + 8 * nn) 4 (fld (nth ws 1) 31 16))

/-- Section 0x04 (R281, R282). -/
def parseRoads (ws : List Word) : List RoadEntry :=
  let (rs, ns, cs) := roadParts ws
  let chans := cs.map fun e => parseChan e.2
  let nodes := ns.map fun e => parseNode chans e.2
  rs.map fun e => parseRoad nodes e.2

/-- The checks of section 0x04 on its own bits (R281, R282, R284). -/
def checkRoads (ws : List Word) (len : Nat) : List Find :=
  if ws.isEmpty then []
  else
    let nr := fld (nth ws 0) 31 24
    let nn := fld (nth ws 0) 15 0
    let nc := fld (nth ws 1) 31 16
    let (rs, ns, cs) := roadParts ws
    let chans := cs.map fun e => parseChan e.2
    let nodes := ns.map fun e => parseNode chans e.2
    checkEntry 4 [.rng 0 31 24 0 8, .res 0 23 16, .rng 0 15 0 0 512, .rng 1 31 16 0 8192, .res 1 15 0, .res 2 31 0,
      .res 3 31 0] (0, ws) ++
    range (len == 16 + 16 * nr + 32 * nn + 16 * nc) 4 0 ++
    range (ascending (rs.map fun e => fld (nth e.2 0) 31 29)) 4 16 ++
    checkEntries 4 [.res 0 28 24, .rng 0 23 16 0 64, .res 1 31 1, .res 2 31 0, .res 3 31 0] rs ++
    rs.flatMap (fun e =>
      range (decide (fld (nth e.2 0) 15 0 + fld (nth e.2 0) 23 16 ≤ nn)) 4 e.1 ++
      range (ascending ((parseRoad nodes e.2).nodes.map (·.pos))) 4 e.1) ++
    checkEntries 4 [.res 0 25 21, .rng 0 20 16 0 16, .rng 7 31 24 0 12, .res 7 23 0] ns ++
    ns.flatMap (fun e =>
      let nd := parseNode chans e.2
      range (decide (fld (nth e.2 0) 15 0 + fld (nth e.2 0) 20 16 ≤ nc)) 4 e.1 ++
      range (ascending (nd.chans.map (·.ch))) 4 e.1 ++
      range (nd.maker != 0 || nd.chans.all (·.mode == 0)) 4 e.1) ++
    checkEntries 4 [.rng 0 27 23 0 16, .res 0 18 16, .rng 1 31 16 1 4096, .res 1 15 8, .res 3 31 0] cs ++
    cs.flatMap (fun e => range (decide ((parseChan e.2).phase < 2 ^ (16 - (parseChan e.2).rate))) 4 e.1)

/-! ### Section 0x05 (R183, R184, R348, R352) -/

/-- Motion entry (R183). -/
def parseMotion (e : List Word) : MotionEntry :=
  { kind := fld (nth e 0) 31 24, view := fld (nth e 0) 7 0, pktSamples := fld (nth e 1) 31 16,
    credit := (nth e 2).toNat }

/-- Reduction entry (R348). -/
def parseRed (e : List Word) : RedEntry :=
  { kind := fld (nth e 0) 31 24, op := fld (nth e 0) 23 20, view := fld (nth e 0) 7 0, insrc := nth e 1,
    period := fld (nth e 2) 31 16, deadline := fld (nth e 2) 15 0, scale := nth e 3, credit := (nth e 4).toNat }

/-- Section 0x05 (R183, R348). -/
def parseProducts (ws : List Word) : Products :=
  let nm := fld (nth ws 0) 31 24
  { motion := (entriesAt ws 4 4 nm).map fun e => parseMotion e.2
    red := (entriesAt ws (4 + 4 * nm) 8 (fld (nth ws 0) 15 0)).map fun e => parseRed e.2 }

/-- MASK7 admits only codes of the non-directional set (R184). -/
def onlyNonDirectional (masks : List Nat) : Bool := (setBits 16 (nth masks 7)).all fun c => c / 4 == 2

/-- The checks of section 0x05 on its bits, with the calibration block and the masks it leans on (R183, R184, R352). -/
def checkProducts (ws : List Word) (len : Nat) (cal : CalBlock) (masks : List Nat) : List Find :=
  if ws.isEmpty then []
  else
    let nm := fld (nth ws 0) 31 24
    let nr := fld (nth ws 0) 15 0
    let ms := entriesAt ws 4 4 nm
    let rs := entriesAt ws (4 + 4 * nm) 8 nr
    let p := parseProducts ws
    checkEntry 5 [.rng 0 31 24 0 4, .res 0 23 16, .rng 0 15 0 0 128, .res 1 31 0, .res 2 31 0, .res 3 31 0] (0, ws) ++
    range (len == 16 + 16 * nm + 32 * nr) 5 0 ++
    checkEntries 5 [.rng 0 31 24 1 4, .res 0 23 8, .res 1 15 0, .res 3 31 0] ms ++
    range ((p.motion.map (·.kind)).Nodup) 5 16 ++
    ms.flatMap (fun e =>
      let m := parseMotion e.2
      range (if m.kind ≤ 2 then packPower m.pktSamples else m.pktSamples == 1) 5 (e.1 + 6) ++
      range (m.kind == 1 || bitOf cal.enable 3) 5 e.1 ++
      range (m.kind != 3 || !f32IsNan cal.lat || onlyNonDirectional masks) 5 e.1) ++
    checkEntries 5 [.rng 0 31 24 0x20 0x7F, .codes 0 23 20 3, .res 0 19 8, .rng 1 31 28 0 3, .rng 1 7 0 0 0,
      .rng 2 31 16 1 3600, .rng 2 15 0 1 65535, .res 5 31 0, .res 6 31 0, .res 7 31 0] rs ++
    range ((p.red.map (·.kind)).Nodup) 5 (16 + 16 * nm) ++
    rs.flatMap (fun e =>
      let r := parseRed e.2
      range (r.period != 0 && 3600 % r.period == 0) 5 (e.1 + 10) ++
      range (tagOrigin r.insrc != 0 || decide (fld r.insrc 18 15 ≤ 2)) 5 (e.1 + 5))

/-! ### Section 0x06 (R185) -/

/-- Recogniser entry (R185). -/
def parseRecog (e : List Word) : Recog :=
  { view := fld (nth e 0) 15 8, en := bitOf (nth e 0).toNat 0, hold := (nth e 1).toNat, w := (e.drop 2).take 6 }

/-- Section 0x06. -/
def parseRecogs (ws : List Word) : List Recog := (entriesAt ws 0 8 6).map fun e => parseRecog e.2

/-- An integer field of a recogniser lies within limits. -/
def intWithin (w : Word) (a b : Nat) : Bool := decide (a ≤ w.toNat) && decide (w.toNat ≤ b)

/-- Words 2–7 of an enabled recogniser are within range, word by word (R185). -/
def recogRanges (r : Nat) (w : List Word) : List Bool :=
  let a := nth w 0
  let b := nth w 1
  let c := nth w 2
  let d := nth w 3
  let e := nth w 4
  match r with
  | 0 => [f32Within a 2 200 1, intWithin b 1 64, intWithin c 8 8192]
  | 1 => [f32Within a 1 100 100, f32Within b 5 50 10, f32Within c 1 400 10, f32Within d 0 0 1 || f32Within d 12 40 10]
  | 2 => [f32Within a 5 80 100, intWithin b 20 5000]
  | 3 => [f32Within a 1 10 10, intWithin b 1 600]
  | 4 => [f32Within a 5 900 10, f32Within b 1 100 10 && f32Lt b a, intWithin c 10 3600]
  | _ => [intWithin a 300 3600 && 3600 % a.toNat == 0, f32Within b 0 1 1, f32Lt b c && f32Within c 0 5 1,
          f32Within d 1 180 1, f32Within e 1 3600 1, intWithin (nth w 5) 1 16]

/-- The words of an enabled recogniser that R185 reserves. -/
def recogReserved (r : Nat) : List Nat :=
  match r with
  | 0 | 4 => [5, 6, 7]
  | 1 => [6, 7]
  | 2 | 3 => [4, 5, 6, 7]
  | _ => []

/-- The checks of section 0x06 (R185). -/
def checkRecogs (ws : List Word) (len : Nat) : List Find :=
  if ws.isEmpty then []
  else
    range (len == 192) 6 0 ++
    (entriesAt ws 0 8 6).zipIdx.flatMap fun (e, i) =>
      let r := parseRecog e.2
      checkEntry 6 ([.rng 0 31 24 i i, .res 0 23 16, .res 0 7 1] ++
        (if r.en then recogReserved i else [1, 2, 3, 4, 5, 6, 7]).map fun w => .res w 31 0) e ++
      (if r.en then
        range (decide (r.hold ≤ 0x00FFFFFF)) 6 (e.1 + 4) ++
        ((recogRanges i r.w).zipIdx.flatMap fun (ok, k) => range ok 6 (e.1 + 8 + 4 * k))
      else [])

/-! ### Section 0x07 (R194, R197, R203, R204) -/

/-- Engine entry (R203). -/
def parseWmEngine (e : List Word) : WmEngine :=
  { engine := fld (nth e 0) 31 28, nstate := fld (nth e 0) 27 24 + 1, init := fld (nth e 0) 23 20,
    transBase := fld (nth e 0) 15 0, view := fld (nth e 1) 15 8, fp := bitOf (nth e 1).toNat 2,
    initVote := fld (nth e 1) 1 0 }

/-- Transition entry (R204). -/
def parseWmTrans (e : List Word) : WmTrans :=
  { next := fld (nth e 0) 31 28, logic := fld (nth e 0) 27 26, used := bitOf (nth e 0).toNat 25,
    condA := fld (nth e 0) 8 0, condB := fld (nth e 0) 17 9, actN := fld (nth e 1) 15 12,
    actFirst := fld (nth e 1) 9 0 }

/-- The engine, transition, condition and action entries of section 0x07 with their offsets (R203). -/
def wmParts (ws : List Word) :
    List (Nat × List Word) × List (Nat × List Word) × List (Nat × List Word) × List (Nat × List Word) :=
  let ne := fld (nth ws 0) 31 24
  let nt := fld (nth ws 0) 15 0
  let nc := fld (nth ws 1) 31 16
  let b := 4 + 4 * ne
  (entriesAt ws 4 4 ne, entriesAt ws b 2 nt, entriesAt ws (b + 2 * nt) 2 nc,
   entriesAt ws (b + 2 * nt + 2 * nc) 2 (fld (nth ws 1) 15 0))

/-- Section 0x07 (R203). -/
def parseWaymarks (ws : List Word) : Option Waymarks :=
  if ws.isEmpty then none
  else
    let (es, ts, cs, as) := wmParts ws
    some { engines := es.map fun e => parseWmEngine e.2, trans := ts.map fun e => parseWmTrans e.2,
           conds := cs.map fun e => (nth e.2 0, nth e.2 1), acts := as.map fun e => (nth e.2 0, nth e.2 1),
           flagsInit := nth ws 2, evCredit := (nth ws 3).toNat }

/-- The field rules of a condition of each type (R194). -/
def condRules (w0 w1 : Word) : List FieldRule :=
  match fld w0 31 28 with
  | 0 => [.res 0 27 0, .res 1 31 0]
  | 1 => [.rng 0 27 24 0 5, .res 0 19 0, .res 1 31 0]
  | 2 => [.codes 0 27 24 4, .rng 0 23 16 1 4, .res 0 15 14]
  | 3 => [.res 0 27 0, .rng 1 31 0 1 (2 ^ 32 - 1)]
  | 4 => [.res 0 27 24, .rng 1 31 0 1 (2 ^ 31), .rng 0 23 0 0 (w1.toNat - 1)]
  | 5 => [.res 0 27 5, .res 1 31 0]
  | 6 => [.res 0 27 3, .res 1 31 0]
  | 7 => [.res 0 27 8, .res 0 7 7, .res 1 31 0]
  | 8 => [.res 0 27 16, .res 1 31 0]
  | 9 => [.res 0 27 8, .res 1 31 0]
  | 10 => [.rng 0 27 24 0 5, .res 0 23 0, .res 1 31 0]
  | _ => [.codes 0 31 28 11]

/-- The field rules of an action of each type (R197). -/
def actRules (w0 : Word) : List FieldRule :=
  match fld w0 31 28 with
  | 0 => [.res 0 27 16]
  | 1 => [.res 0 27 24, .res 1 31 24]
  | 2 => [.res 0 27 2, .res 1 31 0]
  | 3 => [.res 0 27 8, .rng 1 31 0 0 511999]
  | 4 => [.res 0 27 5, .res 1 31 0]
  | 5 => [.res 0 27 7, .codes 0 6 5 3, .res 1 31 0]
  | 6 => [.res 0 27 16, .res 1 31 0]
  | 7 => [.res 0 27 3, .res 1 31 0]
  | 8 => [.res 0 27 11, .res 1 31 0]
  | _ => [.codes 0 31 28 9]

/-- The first transition index of each engine: the sum of 4 × NSTATE over the engines before it (R205). -/
def transBases (es : List WmEngine) : List Nat :=
  (es.foldl (fun (a : List Nat × Nat) e => (a.1 ++ [a.2], a.2 + 4 * e.nstate)) ([], 0)).1

/-- The checks of one transition of an engine with ns states (R204, R205). -/
def checkTrans (off ns nc na : Nat) (e : List Word) : List Find :=
  let t := parseWmTrans e
  if !t.used then range (nth e 0 == 0 && nth e 1 == 0) 7 off
  else
    checkEntry 7 [.res 0 24 18, .res 1 31 16, .res 1 11 10, .rng 1 15 12 0 8] (off, e) ++
    range (decide (t.next < ns)) 7 (off + 3) ++
    range (decide (t.condA < nc)) 7 off ++
    range (decide (t.condB < nc)) 7 (off + 1) ++
    range (t.logic != 0 || t.condB == 0) 7 (off + 1) ++
    range (decide (t.actFirst + t.actN ≤ na)) 7 (off + 4)

/-- The checks of section 0x07 on its own bits (R194, R197, R203–R205). -/
def checkWaymarks (ws : List Word) (len : Nat) : List Find :=
  if ws.isEmpty then []
  else
    let (es, ts, cs, as) := wmParts ws
    let engs := es.map fun e => parseWmEngine e.2
    let nt := fld (nth ws 0) 15 0
    let nc := fld (nth ws 1) 31 16
    let na := fld (nth ws 1) 15 0
    checkEntry 7 [.rng 0 31 24 0 16, .res 0 23 16, .rng 1 31 16 1 512, .rng 1 15 0 0 1024] (0, ws) ++
    range (len == 16 + 16 * fld (nth ws 0) 31 24 + 8 * (nt + nc + na)) 7 0 ++
    range (nt == (engs.map fun e => 4 * e.nstate).sum) 7 0 ++
    range (ascending (engs.map (·.engine))) 7 16 ++
    range (engs.map (·.transBase) == transBases engs) 7 16 ++
    checkEntries 7 [.res 0 19 16, .res 1 31 16, .res 1 7 3, .res 2 31 0, .res 3 31 0] es ++
    es.flatMap (fun e => range (decide ((parseWmEngine e.2).init < (parseWmEngine e.2).nstate)) 7 (e.1 + 2)) ++
    engs.flatMap (fun e => ((ts.drop e.transBase).take (4 * e.nstate)).flatMap fun t =>
      checkTrans t.1 e.nstate nc na t.2) ++
    cs.flatMap (fun e => checkEntry 7 (condRules (nth e.2 0) (nth e.2 1)) e) ++
    as.flatMap (fun e => checkEntry 7 (actRules (nth e.2 0)) e)

/-! ### Section 0x08 (R488, R503, R504) -/

/-- Engine entry (R503). -/
def parsePinEng (e : List Word) : PinEng :=
  { engine := fld (nth e 0) 31 29, start := fld (nth e 0) 28 23, wrapBottom := fld (nth e 0) 22 17,
    wrapTop := fld (nth e 0) 16 11, group := fld (nth e 0) 10 8, divInt := fld (nth e 1) 31 16,
    divFrac := fld (nth e 1) 15 8, outBase := fld (nth e 2) 31 28, outCount := fld (nth e 2) 27 23,
    setBase := fld (nth e 2) 22 19, setCount := fld (nth e 2) 18 16, inBase := fld (nth e 2) 15 12,
    sensePad := fld (nth e 2) 11 8, outRight := bitOf (nth e 2).toNat 7, inRight := bitOf (nth e 2).toNat 6,
    view := fld (nth e 3) 31 24, rxMax := fld (nth e 3) 23 12, rxIdle := fld (nth e 3) 11 0,
    rxWords := (nth e 4).toNat, rxPkts := fld (nth e 5) 31 16, credit := (nth e 6).toNat }

/-- The engine entries, phrase entries and phrase words of section 0x08 (R503). -/
def pinParts (ws : List Word) : List (Nat × List Word) × List (Nat × List Word) × List Word :=
  let ne := fld (nth ws 0) 31 24
  let np := fld (nth ws 0) 15 0
  (entriesAt ws 36 8 ne, entriesAt ws (36 + 8 * ne) 2 np, ws.drop (36 + 8 * ne + 2 * np))

/-- The program store: instruction i at bytes 16 + 2i (R503). -/
def storeOf (ws : List Word) : List (BitVec 16) :=
  ((ws.drop 4).take 32).flatMap fun w => [BitVec.ofNat 16 (fld w 15 0), BitVec.ofNat 16 (fld w 31 16)]

/-- Section 0x08 (R503). -/
def parsePins (ws : List Word) : Option Pins :=
  if ws.isEmpty then none
  else
    let (es, ps, pw) := pinParts ws
    some
      { pinDir := BitVec.ofNat 16 (fld (nth ws 1) 31 16), pinLevel := BitVec.ofNat 16 (fld (nth ws 1) 15 0),
        pullEn := BitVec.ofNat 16 (fld (nth ws 2) 31 16), pullUp := BitVec.ofNat 16 (fld (nth ws 2) 15 0),
        store := storeOf ws,
        engines := es.map fun e => parsePinEng e.2,
        phrases := ps.map fun e => (fld (nth e.2 0) 31 24, (pw.drop (nth e.2 1).toNat).take (fld (nth e.2 0) 15 0)) }

/-- Bits hi to lo of a store word. -/
def storeFld (w hi lo : Nat) : Nat := w / 2 ^ lo % 2 ^ (hi - lo + 1)

/-- A store word names an operation and operand codes that R488 and R489 define, or is unused (R504, RESULT 0x11). -/
def storeWordOk (w : Nat) : Bool :=
  let f := storeFld w
  match f 15 12 with
  | 0 => w == 0
  | 1 => decide (f 11 9 ≤ 3)
  | 2 | 3 => decide (f 11 9 ≤ 4) && decide (1 ≤ f 8 3) && decide (f 8 3 ≤ 32)
  | 4 | 5 | 10 => true
  | 6 => decide (f 11 10 ≤ 2) && (f 11 10 != 1 || decide (f 8 5 ≤ 7)) && (f 11 10 != 2 || f 9 5 == 0)
  | 7 => decide (f 11 9 ≤ 6)
  | 8 => decide (f 11 9 ≤ 4) && decide (f 8 6 ≤ 5) && decide (f 5 4 ≤ 2)
  | 9 => decide (f 11 10 ≤ 2)
  | _ => false

/-- The operand bits of a store word that R488's table does not name are 0 (R488, R8, RESULT 0x0B). -/
def storeBitsOk (w : Nat) : Bool :=
  let f := storeFld w
  match f 15 12 with
  | 4 | 5 | 10 => f 11 3 == 0
  | 6 => f 4 3 == 0
  | 8 => f 3 3 == 0
  | 9 => f 6 3 == 0
  | _ => true

/-- The pads that an engine owns (R491). -/
def PinEng.pads (e : PinEng) : List Nat :=
  (List.range e.outCount).map (· + e.outBase) ++ (List.range e.setCount).map (· + e.setBase)

/-- No two engines own one pad (R491). -/
def padsDistinct : List PinEng → Bool
  | [] => true
  | e :: r => r.all (fun f => e.pads.all fun p => !f.pads.contains p) && padsDistinct r

/-- The checks of section 0x08 on its own bits (R503, R504). -/
def checkPins (ws : List Word) (len : Nat) : List Find :=
  if ws.isEmpty then []
  else
    let (es, ps, pw) := pinParts ws
    let engs := es.map fun e => parsePinEng e.2
    let ne := fld (nth ws 0) 31 24
    let np := fld (nth ws 0) 15 0
    let nw := fld (nth ws 3) 15 0
    checkEntry 8 [.rng 0 31 24 0 8, .res 0 23 16, .rng 0 15 0 0 256, .res 3 31 16] (0, ws) ++
    range (len == 144 + 32 * ne + 8 * np + 4 * nw) 8 0 ++
    ((storeOf ws).zipIdx.flatMap fun (w, i) =>
      range (storeWordOk w.toNat) 8 (16 + 2 * i) ++ need (storeBitsOk w.toNat) 10 0x0B 8 (16 + 2 * i)) ++
    range (ascending (engs.map (·.engine))) 8 144 ++
    checkEntries 8 [.res 0 7 0, .rng 1 31 16 1 65535, .res 1 7 0, .rng 2 27 23 0 16, .rng 2 18 16 0 6, .res 2 5 0,
      .rng 3 23 12 1 4088, .res 5 15 0, .res 7 31 0] es ++
    es.flatMap (fun e =>
      let g := parsePinEng e.2
      range (decide (g.wrapBottom ≤ g.wrapTop)) 8 (e.1 + 1) ++
      range (decide (g.outBase + g.outCount ≤ 16) && decide (g.setBase + g.setCount ≤ 16)) 8 (e.1 + 10)) ++
    range (padsDistinct engs) 8 144 ++
    checkEntries 8 [.res 0 23 16, .rng 0 15 0 1 4096] ps ++
    range (ascending (ps.map fun e => fld (nth e.2 0) 31 24)) 8 (144 + 32 * ne) ++
    ps.flatMap (fun e => range (decide ((nth e.2 1).toNat + fld (nth e.2 0) 15 0 ≤ min nw pw.length)) 8 (e.1 + 4))

/-! ### Section 0x09 (R387, R388, R404, R405, R407, R408, R438, R466, R468) -/

/-- The value, or its default where it is 0. -/
def orDefault (v d : Nat) : Nat := if v = 0 then d else v

/-- Time block (R387). -/
def parseTime (e : List Word) : TimeBlock :=
  { n0Domain := fld (nth e 0) 31 24, n1Domain := fld (nth e 0) 23 16, n0Transport := fld (nth e 0) 15 14,
    n1Transport := fld (nth e 0) 13 12, ppsFalling := bitOf (nth e 0).toNat 1, tc := bitOf (nth e 0).toNat 0,
    lockNs := orDefault (fld (nth e 1) 31 16) 1000, unlockUs := orDefault (fld (nth e 1) 15 0) 10,
    stepUs := orDefault (fld (nth e 2) 31 16) 100 }

/-- Network block (R404); the derived address is 0x02, 0x00 and SERIAL_LO. -/
def parseNet (e : List Word) : NetBlock :=
  let mac := bytesOf (nth e 0) ++ (bytesOf (nth e 1)).take 2
  { mac := if mac.all (· == 0) then [0x02, 0x00] ++ beBytes 4 (Config.serial.toNat % 2 ^ 32) else mac
    ipaddr := nth e 2, prefixLen := fld (nth e 3) 31 24, gateway := nth e 4,
    streamPort := orDefault (fld (nth e 5) 31 16) 52410, ctrlPort := orDefault (fld (nth e 5) 15 0) 52411,
    heartbeat := orDefault (fld (nth e 6) 31 16) 10 }

/-- Client entry (R405). -/
def parseClient (e : List Word) : ClientEntry :=
  { addr := nth e 0, port := fld (nth e 1) 31 16, role := fld (nth e 1) 15 14, slotted := bitOf (nth e 1).toNat 13,
    viewset := fld (nth e 1) 7 0, window := fld (nth e 2) 31 16, rate := fld (nth e 2) 15 0 }

/-- Launch entry (R407). -/
def parseLaunch (e : List Word) : LaunchEntry :=
  { used := bitOf (nth e 0).toNat 29, tb := fld (nth e 0) 31 30, port := fld (nth e 0) 28 28,
    client := fld (nth e 0) 27 26, host := bitOf (nth e 0).toNat 25, periodic := bitOf (nth e 0).toNat 24,
    maxDgram := fld (nth e 0) 23 16, periodMs := (nth e 1).toNat, phaseUs := (nth e 2).toNat }

/-- The view classes whose bits are set in 8 words; 0xFF is never defined (R466). -/
def viewsOf (ws : List Word) : List Nat :=
  (List.range 255).filter fun v => bitOf (nth ws (v / 32)).toNat (v % 32)

/-- Section 0x09 (R387, R404, R405, R407, R438, R466). -/
def parseClients (ws : List Word) : ClientTable :=
  let a := nth ws 100
  { vsetRole := [fld (nth ws 1) 31 24, fld (nth ws 1) 23 16, fld (nth ws 1) 15 8, fld (nth ws 1) 7 0]
    time := parseTime (ws.drop 4)
    net := parseNet (ws.drop 12)
    clients := (entriesAt ws 20 4 4).map fun e => parseClient e.2
    launches := (entriesAt ws 36 4 16).map fun e => parseLaunch e.2
    attnAddr := fld a 31 25, attnRetry := fld a 23 16, attnTries := fld a 15 12, causeMask := fld a 2 0
    defined := viewsOf (ws.drop 104)
    vsets := (entriesAt ws 112 8 (fld (nth ws 0) 31 24)).map fun e => viewsOf e.2 }

/-- The subnet part of an address (R404). -/
def netPart (a : Word) (pre : Nat) : Nat := a.toNat / 2 ^ (32 - pre)

/-- An address elsewhere: not 0, not multicast and not 255.255.255.255, the broadcast address of every subnet (R408;
assumption-log row 60). -/
def farAddr (a : Word) : Bool := a != 0 && fld a 31 28 != 0xE && a != 0xFFFFFFFF

/-- An address that a host of the subnet may have: not the network's own nor its broadcast address either (R408). -/
def hostAddr (a : Word) (pre : Nat) : Bool :=
  farAddr a && a.toNat % 2 ^ (32 - pre) != 0 && a.toNat % 2 ^ (32 - pre) != 2 ^ (32 - pre) - 1

/-- The checks of a client entry that is used (R405, R408). -/
def checkClient (net : NetBlock) (off i : Nat) (c : ClientEntry) (launches : List LaunchEntry) : List Find :=
  let near := netPart c.addr net.prefixLen == netPart net.ipaddr net.prefixLen
  range (c.addr != net.ipaddr && (if near then hostAddr c.addr net.prefixLen else farAddr c.addr)) 9 off ++
  range (near || net.gateway != 0) 9 off ++
  range (decide (1 ≤ c.window)) 9 (off + 10) ++
  range (if c.slotted then c.rate == 0 else decide (1 ≤ c.rate) && decide (c.rate ≤ 1000)) 9 (off + 8) ++
  range (!c.slotted || launches.any fun l => l.used && l.client == i) 9 off

/-- The checks of a launch entry (R407, R408). -/
def checkLaunch (off : Nat) (e : List Word) (clients : List ClientEntry) : List Find :=
  let l := parseLaunch e
  if !l.used then range (e.all (· == 0)) 9 off
  else
    let c := nth clients l.client
    checkEntry 9 [.codes 0 31 30 3, .rng 0 23 16 1 255, .res 0 15 0, .res 3 31 0] (off, e) ++
    range (if l.periodic then decide (1 ≤ l.periodMs) && decide (l.periodMs ≤ 500000) else l.periodMs == 0) 9 (off + 4) ++
    range (if l.periodic then decide (l.phaseUs < l.periodMs * 1000) else l.phaseUs == 0) 9 (off + 8) ++
    range (c.addr != 0 && c.slotted) 9 (off + 3)

/-- The checks of the host-port block (R438). -/
def checkAttn (e : List Word) : List Find :=
  if (e.take 4).all (· == 0) then []
  else checkEntry 9 [.rng 0 31 25 0x08 0x77, .res 0 24 24, .rng 0 23 16 1 255, .rng 0 15 12 1 15, .res 0 11 3,
    .res 1 31 0, .res 2 31 0, .res 3 31 0] (400, e)

/-- The streams' view classes are in a view set that a Guest uses (R468). -/
def guestSees (t : ClientTable) (streams : List Stream) (set : Nat) : Bool :=
  streams.any fun st => (nth t.vsets set).contains st.view

/-- Every view set and every class in one is defined, and 0xFF never is (R466, R469). A VIEWSET that is not defined is a value
out of range, RESULT 0x11 (R469), before R408's 0x0D could be found (assumption-log row 60). -/
def checkViews (ws : List Word) (t : ClientTable) : List Find :=
  let nv := t.vsets.length
  range (!bitOf (nth ws 111).toNat 31) 9 447 ++
  ((List.range 4).flatMap fun k => range (decide (nth t.vsetRole k < nv)) 9 (7 - k)) ++
  (t.clients.zipIdx.flatMap fun (c, i) => range (c.addr == 0 || decide (c.viewset < nv)) 9 (84 + 16 * i)) ++
  (entriesAt ws 112 8 nv).flatMap fun e =>
    range ((viewsOf e.2).all t.defined.contains && !bitOf (nth e.2 7).toNat 31) 9 e.1

/-- The checks of section 0x09 that no strap decides (R387, R388, R404–R408, R438, R466, R468, R469). -/
def checkClients (ws : List Word) (len : Nat) (streams : List Stream) : List Find :=
  let t := parseClients ws
  let nv := fld (nth ws 0) 31 24
  let tb := t.time
  let net := t.net
  let used := t.clients.filter (·.addr != 0)
  findings [
    checkEntry 9 [.rng 0 31 24 1 64, .res 0 23 0, .res 2 31 0, .res 3 31 0] (0, ws),
    range (len == 448 + 32 * nv) 9 0,
    checkEntry 9 ([.codes 0 15 14 2, .codes 0 13 12 2, .res 0 11 2, .res 2 15 0] ++
    (List.range 5).map fun i => .res (3 + i) 31 0) (16, ws.drop 4),
    range (decide (tb.n0Domain ≤ 127) || tb.n0Domain == 0xFF) 9 19,
    range (decide (tb.n1Domain ≤ 127) || tb.n1Domain == 0xFF) 9 18,
    range (!(tb.n0Domain != 0xFF && tb.n0Domain == tb.n1Domain && tb.n0Transport == tb.n1Transport)) 9 16,
    range (decide (10 ≤ tb.lockNs)) 9 22,
    range (decide (10 ≤ tb.stepUs)) 9 26,
    range (decide (tb.lockNs ≤ tb.unlockUs * 1000)) 9 20,
    checkEntry 9 [.res 1 31 16, .rng 3 31 24 8 30, .res 3 23 0, .res 6 15 0, .res 7 31 0, .rng 6 31 16 0 3600]
    (48, ws.drop 12),
    range (!bitOf (nth net.mac 0).toNat 0) 9 48,
    range (hostAddr net.ipaddr net.prefixLen) 9 56,
    range (net.gateway == 0 || (net.gateway != net.ipaddr && hostAddr net.gateway net.prefixLen &&
    netPart net.gateway net.prefixLen == netPart net.ipaddr net.prefixLen)) 9 64,
    checkEntries 9 [.res 1 12 8, .res 3 31 0] (entriesAt ws 20 4 4),
    (t.clients.zipIdx.flatMap fun (c, i) => if c.addr = 0 then [] else checkClient net (80 + 16 * i) i c t.launches),
    range ((used.map (·.addr)).Nodup) 9 80,
    ((entriesAt ws 36 4 16).flatMap fun e => checkLaunch e.1 e.2 t.clients),
    checkAttn (ws.drop 100),
    checkViews ws t,
    (t.clients.zipIdx.flatMap fun (c, i) =>
    range (!(c.addr != 0 && c.role == 2 && guestSees t streams c.viewset)) 9 (84 + 16 * i))]

/-! ### Sections 0x0A and 0x0B (R342, R352, R353) -/

/-- Retention class of each view class (R353). -/
def parseClassmap (bs : List Byte) : List Nat :=
  (List.range 256).map fun v => (nth bs (16 + v / 4)).toNat / 4 ^ (v % 4) % 4

/-- The checks of section 0x0A (R352, R353). -/
def checkClasses (bs : List Byte) : List Find :=
  if bs.isEmpty then []
  else
    let ws := wordsOf (bs.take 16)
    range (bs.length == 80) 10 0 ++
    checkEntry 10 [.rng 0 31 16 1 65535, .res 0 15 0, .res 1 31 0, .res 2 31 0, .res 3 31 0] (0, ws) ++
    range (nth (parseClassmap bs) 255 == 0) 10 79

/-- The numbers whose bits are set in n words. -/
def bitsOfWords (ws : List Word) : List Nat :=
  ws.zipIdx.flatMap fun (w, i) => (setBits 32 w.toNat).map (· + 32 * i)

/-- Plan entry (R342). -/
def parsePlan (e : List Word) : Plan :=
  { plan := fld (nth e 0) 31 29, laneRoads := fld (nth e 0) 23 16, laneSpill := fld (nth e 0) 3 0,
    run := bitsOfWords ((e.drop 1).take 4), laneRun := bitsOfWords ((e.drop 5).take 4),
    masks := (List.range 4).map fun i => bitsOfWords ((e.drop (9 + 8 * i)).take 8) }

/-- Section 0x0B (R342). -/
def parsePlans (ws : List Word) : List Plan := (entriesAt ws 4 48 (fld (nth ws 0) 31 24)).map fun e => parsePlan e.2

/-- The checks of section 0x0B (R342, R352). -/
def checkPlans (ws : List Word) (len nred : Nat) : List Find :=
  let np := fld (nth ws 0) 31 24
  let es := entriesAt ws 4 48 np
  let ps := parsePlans ws
  checkEntry 11 [.rng 0 31 24 1 8, .res 0 23 16, .res 0 0 0, .res 1 31 0, .res 2 31 0, .res 3 31 0] (0, ws) ++
  range (len == 16 + 192 * np) 11 0 ++
  range (ps.any (·.plan == 0)) 11 0 ++
  range (ascending (ps.map (·.plan))) 11 16 ++
  checkEntries 11 ([.res 0 28 24, .res 0 15 4, .rng 0 3 0 1 12] ++
    (List.range 7).map fun i => .res (41 + i) 31 0) es ++
  es.flatMap (fun e =>
    let p := parsePlan e.2
    range (p.run.all fun j => decide (j < nred)) 11 (e.1 + 4) ++
    range (p.laneRun.all fun j => p.run.contains j) 11 (e.1 + 20) ++
    range (p.masks.all fun m => !m.contains 255) 11 (e.1 + 36))

/-! ### Section 0x0C (R254) -/

/-- Section 0x0C (R254). -/
def parseCurves (ws : List Word) : List CurveTab :=
  (entriesAt ws 4 4 (fld (nth ws 0) 31 16)).map fun e =>
    { curve := fld (nth e.2 0) 31 24, ch := fld (nth e.2 0) 23 16,
      vals := (ws.drop ((nth e.2 1).toNat / 4)).take ((nth e.2 2).toNat / 4) }

/-- Every second value of a list, from the first. -/
def evens : List Word → List Word
  | a :: _ :: r => a :: evens r
  | [a] => [a]
  | [] => []

/-- Words rise strictly as binary32 numbers. -/
def f32Ascending : List Word → Bool
  | a :: b :: r => f32Lt a b && f32Ascending (b :: r)
  | _ => true

/-- The checks of one directory entry and its table (R254). -/
def checkCurve (ws : List Word) (len : Nat) (e : Nat × List Word) : List Find :=
  let c := fld (nth e.2 0) 31 24
  let ch := fld (nth e.2 0) 23 16
  let npt := fld (nth e.2 0) 15 0
  let doff := (nth e.2 1).toNat
  let dlen := (nth e.2 2).toNat
  let shared := (decide (24 ≤ c) && decide (c ≤ 31)) || (decide (56 ≤ c) && decide (c ≤ 63))
  let table := decide (56 ≤ c) && decide (c ≤ 63)
  let vals := (ws.drop (doff / 4)).take (dlen / 4)
  range (shared || c == 41 || c == 48) 12 (e.1 + 3) ++
  range (if shared then ch == 0xFF else decide (ch ≤ 0x1F)) 12 (e.1 + 2) ++
  range (if table then decide (2 ≤ npt) else npt == 0) 12 e.1 ++
  range (doff % 16 == 0 && decide (doff + dlen ≤ len)) 12 (e.1 + 4) ++
  range (dlen == (if table then 8 * npt else if c = 41 then 16 else if c = 48 then 8 else 20)) 12 (e.1 + 8) ++
  FieldRule.check 12 e.1 e.2 (.res 3 31 0) ++
  range (vals.all f32Finite) 12 doff ++
  range (!table || f32Ascending (evens vals)) 12 doff ++
  range (!(shared && !table) || f32Lt (nth vals 3) (nth vals 4)) 12 doff

/-- The checks of section 0x0C (R254). -/
def checkCurves (ws : List Word) (len : Nat) : List Find :=
  if ws.isEmpty then []
  else
    let es := entriesAt ws 4 4 (fld (nth ws 0) 31 16)
    checkEntry 12 [.rng 0 31 16 1 80, .res 0 15 0, .res 1 31 0, .res 2 31 0, .res 3 31 0] (0, ws) ++
    range (decide (16 + 16 * fld (nth ws 0) 31 16 ≤ len)) 12 0 ++
    range ((es.map fun e => fld (nth e.2 0) 31 16).Nodup) 12 16 ++
    es.flatMap (checkCurve ws len)

/-! ### Section 0x0D (R476, R477) -/

/-- The checks of section 0x0D on its clear bits (R476). -/
def checkKeys (ws : List Word) (len : Nat) : List Find :=
  if ws.isEmpty then []
  else
    range (len == 176) 13 0 ++
    checkEntry 13 [.rng 0 31 24 1 1, .res 0 23 16, .rng 0 15 0 64 64, .res 1 31 0, .res 2 31 0, .res 3 31 0,
      .res 23 31 0] (0, ws)

/-- The Keeper command key that section 0x0D gives under the device key, none where it does not authenticate (R477).
aad is image bytes 0–31. -/
def unwrapKey (d : Nat) (serial : BitVec 64) (aad bs : List Byte) : Option (List Byte) :=
  let x := leNat ((bs.drop 16).take 32)
  let y := leNat ((bs.drop 48).take 32)
  if onCurve x y then
    let k := hkdf32 (ecdhZ d x y) (leBytes 8 serial.toNat)
      ([0x45, 0x4B, 0x52, 0x49, 0x20, 0x6B, 0x65, 0x79, 0x20, 0x77, 0x72, 0x61, 0x70, 0x20, 0x76, 0x31])
    let (pt, tag) := gcmDecrypt k ((bs.drop 80).take 12) aad ((bs.drop 96).take 64)
    let w0 := nth (wordsOf (pt.take 4)) 0
    if tag == (bs.drop 160).take 16 && fld w0 31 24 == 1 && fld w0 23 0 == 0 && ((pt.drop 4).take 28).all (· == 0) then
      some (pt.drop 32)
    else none
  else none

end Sys2Proof.Machine
end

