-- ==== Sys2Proof/Machine/Analog.lean ====
section
/-! DEFINITION. The analog path of a conversion (08_front_end.md, 09_conversion.md R236–R238): its lengths, the crosspoint
and the sources stage by stage, what two conversions may not share, and what its filter windows give. What the rules leave
open of them is in assumption-log row 80. -/

namespace Sys2Proof.Machine

/-! ### Occupancies (R237, R238, R244) -/

/-- Units of 10^−24 s: one modulator clock is 1/2048 mark (R236). -/
def clockAcc : Nat := markAcc / 2048

/-- A recipe takes two conversions per output (R229). -/
def twoConv (r : Recipe) : Bool := r.lead == 1 || r.lead == 3

/-- Filter window of a scan entry (R237). -/
def windowAcc (e : ScanEntry) : Nat := 2 ^ e.win * 32 * clockAcc

/-- The discharge step of a recipe (R212). -/
def dischargeAcc (r : Recipe) : Nat := r.discharge * 1000 * nsAcc

/-- Settling of a scan entry (R237). -/
def settleAcc (e : ScanEntry) : Nat := 160 * clockAcc + e.xsettle * 64000 * nsAcc

/-- Occupancy of one conversion (R237). -/
def oneAcc (r : Recipe) (e : ScanEntry) : Nat := 100 * nsAcc + dischargeAcc r + settleAcc e + windowAcc e

/-- Occupancy of an output (R237). -/
def occAcc (r : Recipe) (e : ScanEntry) : Nat := if twoConv r then 2 * oneAcc r e else oneAcc r e

/-- From the start of the occupancy to the reference instant (R238). -/
def leadAcc (r : Recipe) (e : ScanEntry) : Nat :=
  if twoConv r then (3 * oneAcc r e - windowAcc e) / 2 else oneAcc r e - windowAcc e / 2

/-- Occupancy of what a conversion runs for: a calibration step is one conversion, a TRIGONLY recipe's offset step two
(R244, R245). -/
def kindAcc (k : ConvKind) (r : Recipe) (e : ScanEntry) : Nat :=
  match k with
  | .grid => occAcc r e
  | .injected => occAcc r e
  | .calOffset => if e.trigOnly then 2 * oneAcc r e else oneAcc r e
  | .calGain => oneAcc r e

/-- The conversion is an output's. -/
def Conv.isOutput (v : Conv) : Bool := v.kind == .grid || v.kind == .injected

/-- Position of a conversion's reference instant. -/
def Conv.ref (v : Conv) : Nat := v.refMark * markAcc + v.refOff

/-- Position at which its occupancy ends. -/
def Conv.ends (v : Conv) : Nat := v.pos + v.len

/-- Modulators that a recipe occupies (R220, R243). -/
def modsOf (r : Recipe) (e : ScanEntry) : List Nat := if r.exaSrc = 7 then [e.mod, e.mod + 1] else [e.mod]

/-- Two recipes share a modulator. -/
def shareMod (r : Recipe) (e : ScanEntry) (r' : Recipe) (e' : ScanEntry) : Bool :=
  (modsOf r e).any fun m => (modsOf r' e').contains m

/-! ### What overlapping conversions may not share (R208, R209, R216, R222) -/

/-- Pins in an excitation or bias role (R208). -/
def Recipe.drives (r : Recipe) : List Nat :=
  ([r.exaPin, r.retPin, r.biasPin] ++ if r.lead = 3 then [] else [r.exbPin]).filter isPin
/-- Excitation sources of the recipe; an AC recipe uses both voltage sources (R220). -/
def Recipe.sources (r : Recipe) : List Nat := (if r.exaSrc = 7 then [5, 6] else [r.exaSrc, r.exbSrc]).filter (· != 0)
/-- Excitation current in µA while the recipe converts (R222, R229). -/
def Recipe.current (r : Recipe) : Nat :=
  (if isIex r.exaSrc then 2 ^ r.istep else 0) + (if isIex r.exbSrc && r.lead != 3 then 2 ^ r.istep else 0) +
    (if 5 ≤ r.exaSrc then r.vexLoad * 1000 else 0)

/-- One conversion of an occupancy: where it begins in it, its length, and the pins that it takes as inputs and drives. -/
structure ConvPart where
  start  : Nat
  len    : Nat
  inputs : List Nat
  drives : List Nat
  deriving DecidableEq, Repr, Inhabited

/-- The conversions of an occupancy, one after another (R208, R229, R244): scheme 3 senses EXB_PIN in its second one only, an
offset step runs conversion a, and a gain step takes no pin. -/
def Recipe.parts (k : ConvKind) (r : Recipe) (e : ScanEntry) : List ConvPart :=
  let one := oneAcc r e
  let a : ConvPart := { start := 0, len := one, inputs := [r.pinP, r.pinN].filter isPin, drives := r.drives }
  let b : ConvPart := { a with start := one, inputs := (if r.lead = 3 then [r.pinN, r.exbPin] else [r.pinP, r.pinN]).filter isPin }
  match k with
  | .calGain => [{ a with inputs := [], drives := [] }]
  | .calOffset => if e.trigOnly then [a, { a with start := one }] else [a]
  | _ => if twoConv r then [a, b] else [a]

/-- Two conversions at one time share no pin that either drives (R209). -/
def ConvPart.ok (a b : ConvPart) : Bool :=
  a.drives.all (fun p => !(b.drives ++ b.inputs).contains p) && b.drives.all (fun p => !a.inputs.contains p)

/-- Two recipes whose occupancies overlap share no source and no guard driver (R88, R216). -/
def sharesOk (a b : Recipe) : Bool :=
  a.sources.all (fun x => !b.sources.contains x) && (a.grd0 == 0 || b.grd0 == 0) && (a.grd1 == 0 || b.grd1 == 0)

/-- Two recipes whose outputs may overlap in any way share nothing that R88, R209 and R216 forbid. -/
def sharesEver (a b : Recipe × ScanEntry) : Bool :=
  sharesOk a.1 b.1 && (a.1.parts .grid a.2).all fun p => (b.1.parts .grid b.2).all p.ok

/-! ### The crosspoint (R208, R212, R213, R229) -/

/-- The stages of a conversion (R237). -/
inductive Stage where
  | breaking | discharge | settling | window | ended
  deriving DecidableEq, Repr, Inhabited

/-- The stage of a conversion at a TB-G position, and whether its second part has begun (R212, R237). -/
def Conv.stageAt (v : Conv) (pos : Nat) : Stage × Bool :=
  let one := oneAcc v.recipe v.scan
  let t := pos - v.pos
  let second := decide (one ≤ t)
  let u := t % one
  let d := 100 * nsAcc + dischargeAcc v.recipe
  if v.len ≤ t then (.ended, second)
  else if u < 100 * nsAcc then (.breaking, second)
  else if u < d then (.discharge, second)
  else if u < d + settleAcc v.scan then (.settling, second)
  else (.window, second)

/-- What the crosspoint connects together at step 3 of R212: the pins on the two buses, the sources with their pins, the pins at
VBIAS and at analog ground, and the buses that IBIAS ties to VBIAS through 10 MΩ (R221, R233). -/
structure Paths where
  pos    : Nat
  neg    : Nat
  force  : List (Nat × Nat)
  vbias  : List Nat
  ground : List Nat
  tiedP  : Bool
  tiedN  : Bool
  deriving DecidableEq, Repr, Inhabited

/-- The paths of the first or second part of a conversion (R144, R220, R229, R244): an offset step exchanges the inputs of
conversion a, a gain step takes the internal path and no pin. -/
def Conv.paths (v : Conv) (second : Bool) : Paths :=
  let r := v.recipe
  let b := second && v.isOutput
  let ins := if r.lead = 3 && b then (r.pinN, r.exbPin) else (r.pinP, r.pinN)
  let swap := v.kind == .calOffset && (!v.scan.trigOnly || second)
  let force :=
    if r.exaSrc = 7 then [(5, r.exaPin), (6, r.exbPin)]
    else if r.lead = 1 then (if b then [(r.exbSrc, r.exaPin), (r.exaSrc, r.exbPin)] else [(r.exaSrc, r.exaPin), (r.exbSrc, r.exbPin)])
    else if r.lead = 3 then [(if b then r.exbSrc else r.exaSrc, r.exaPin)]
    else if r.exaSrc = 0 then [] else [(r.exaSrc, r.exaPin)]
  let ret := [r.retPin].filter isPin
  if v.kind = .calGain then
    { pos := 0x3F, neg := 0x3F, force := [], vbias := [], ground := [], tiedP := false, tiedN := false }
  else
    { pos := if swap then ins.2 else ins.1, neg := if swap then ins.1 else ins.2, force := force.filter fun x => isPin x.2
      vbias := [r.biasPin].filter isPin ++ (if r.retVb then ret else []), ground := if r.retVb then [] else ret
      tiedP := r.ibias == 2, tiedN := r.ibias == 1 || r.ibias == 2 }

/-- What a pin is connected to (R208). -/
inductive PinUse where
  | posBus (mod : Nat) | negBus (mod : Nat) | source (src : Nat) | vbias | ground
  deriving DecidableEq, Repr, Inhabited

/-- What a conversion connects a pin to at a position: nothing before step 3 of R212. -/
def Conv.pinUse (v : Conv) (pos pin : Nat) : List PinUse :=
  let st := v.stageAt pos
  if st.1 = .settling ∨ st.1 = .window then
    let p := v.paths st.2
    (if p.pos = pin then [.posBus v.scan.mod] else []) ++ (if p.neg = pin then [.negBus v.scan.mod] else []) ++
      ((p.force.filter (·.2 == pin)).map fun x => .source x.1) ++ (if p.vbias.contains pin then [.vbias] else []) ++
      (if p.ground.contains pin then [.ground] else [])
  else []

/-- The buses that a conversion ties to VBIAS at a position (R221): positive, negative. -/
def Conv.tied (v : Conv) (pos : Nat) : Bool × Bool :=
  let st := v.stageAt pos
  if st.1 = .settling ∨ st.1 = .window then ((v.paths st.2).tiedP, (v.paths st.2).tiedN) else (false, false)

/-- The pins in a role of the conversion of the occupancy that runs at a position (R208, R231). -/
def Conv.rolePins (v : Conv) (pos : Nat) : List Nat :=
  let p := v.paths (v.stageAt pos).2
  ([p.pos, p.neg] ++ p.force.map (·.2) ++ p.vbias ++ p.ground).filter isPin

/-- What a source does (R144, R212): off, into the dummy load at the VBIAS level, into the internal reference path, or onto a
pin. -/
inductive SourceUse where
  | off | dummy | reference | onto (pin : Nat)
  deriving DecidableEq, Repr, Inhabited

/-- What a conversion does with a source at a position (R144, R212): in the discharge step of every conversion all current
sources of the recipe run into the dummy load. -/
def Conv.sourceUse (v : Conv) (pos src : Nat) : SourceUse :=
  let st := v.stageAt pos
  if !v.recipe.sources.contains src then .off
  else if st.1 = .discharge then (if isIex src then .dummy else .off)
  else if st.1 = .settling ∨ st.1 = .window then
    if v.kind = .calGain then .reference
    else match (v.paths st.2).force.find? (·.1 == src) with
      | some x => .onto x.2
      | none => .off
  else .off

/-! ### The filter window (R220, R223–R226, R237, R256, R257) -/

/-- Full scale of a gain code in nV (R223). -/
def fullScale (g : Nat) : Int := 2500000000 / 2 ^ g

/-- Drive frequency of an AC recipe in Hz (R220). -/
def driveHz (r : Recipe) : Nat := 1000 * 2 ^ r.acf

/-- Eighths of a half-cycle of the drive that have passed so long after it began (in 10^−24 s of TB-G), at a rate correction of
TB-G in 10^−12: the drive is divided from CLK25, against which TB-G runs at that rate (R220, R236). -/
def driveEighths (r : Recipe) (rate acc : Int) : Int := 16 * driveHz r * acc * 10 ^ 12 / ((10 ^ 12 + rate) * 10 ^ 24)

/-- Eighths of a half-cycle before clock j of a window. The drive is taken to begin a period with the window (DESIGN CHOICE,
assumption-log row 80). -/
def clockEighths (r : Recipe) (rate : Int) (j : Nat) : Int := driveEighths r rate ((j * clockAcc : Nat) : Int)

/-- Clock j of a window of n lies in its whole drive periods, which a recipe without AC has no need of (R220). -/
def inPeriods (r : Recipe) (rate : Int) (n j : Nat) : Bool :=
  r.exaSrc != 7 || decide (clockEighths r rate j / 16 < clockEighths r rate n / 16)

/-- How clock j counts in the mean: synchronously with the drive, without the first eighth of each half-cycle (R220). -/
def clockSign (r : Recipe) (rate : Int) (n j : Nat) : Int :=
  if r.exaSrc != 7 then 1
  else
    let x := clockEighths r rate j
    if !inPeriods r rate n j || x % 8 == 0 then 0 else if x / 8 % 2 = 0 then 1 else -1

/-- Level of a side of the AC pair in nV (R220): VBIAS with half of VEX above or below it, VEX0 (source 5) and VEX1 (source 6)
in antiphase. VEX0 is taken to begin with the upper level (DESIGN CHOICE, assumption-log row 80). -/
def driveLevel (vbiasMv : Nat) (r : Recipe) (src : Nat) (eighths : Int) : Int :=
  let up := (eighths / 8 % 2 == 0) == (src == 5)
  1000000 * (vbiasMv : Int) + (if up then 500000 else -500000) * (r.vexMv : Int)

/-- Clocks before a window that the sinc5 stage still weighs in its first intermediate sample: its response is 156 clocks
long (R237). -/
def sincTail : Nat := 124

/-- How often four can be picked from n. -/
def pick4 (n : Nat) : Nat := n * (n - 1) * (n - 2) * (n - 3) / 24

/-- The response of a sinc5 stage that decimates by 32, at k clocks: the coefficients of the fifth power of 1 + z + … + z^31
(R237). -/
def sinc5 (k : Nat) : Int :=
  if 156 ≤ k then 0
  else (([1, -5, 10, -10, 5] : List Int).zipIdx.map fun x =>
    if 32 * x.2 ≤ k then x.1 * (pick4 (k - 32 * x.2 + 4) : Int) else 0).sum

/-- The weight of a clock, counted from sincTail clocks before the window: that of each intermediate sample in which the sinc5
stage holds it (R237). In units of 2^−96. -/
def convWeight (win p : Nat) : Int :=
  let n := 2 ^ win
  ((List.range 5).map fun d =>
    let i := p / 32 + d - 4
    if p / 32 + d < 4 ∨ n ≤ i ∨ 32 * i + 31 + sincTail < p then 0
    else Config.firWeight win (min i (n - 1 - i)) * sinc5 (32 * i + 31 + sincTail - p) / 2 ^ 25).sum

/-- A voltage converted at a gain and referred to the gain at the start of the window (R225). -/
def referred (base g : Nat) (nv : Int) : Int :=
  if g = base then nv * fxOne else nv * 2 ^ g * Config.gainRatio base g / 2 ^ base

/-- The gain and the sums while the clocks of a window pass. -/
structure Sift where
  base  : Nat
  gain  : Nat
  steps : Nat
  last  : Option Nat
  fires : Bool
  above : Bool
  volts : Int
  sense : Int
  weight : Int
  deriving DecidableEq, Repr, Inhabited

/-- Clock p, counted from sincTail clocks before a window of n (R224, R225, R257): the predictor of either modulator steps the
gain at the next sample of the window, at intervals of at least 16 clocks; the 8 samples after a step are left out; a sample
beyond FS is clipped. -/
def Sift.next (r : Recipe) (rate : Int) (win n : Nat) (x : Sift) (p : Nat) (s : ConvSample) : Sift :=
  let j := p - sincTail
  let within := decide (sincTail ≤ p)
  let since := match x.last with
    | some l => j - l
    | none => 16
  let step := within && x.fires && r.auto && decide (r.gainMin < x.gain) && decide (16 ≤ since)
  let g := if step then x.gain - 1 else x.gain
  let last := if step then some j else x.last
  let omitted := match last with
    | some l => decide (j < l + 8)
    | none => false
  let fs := fullScale g
  let d := s.pos - s.neg
  let sense := if r.exaSrc = 7 then s.sense else 0
  let peak : Int := max d.natAbs sense.natAbs
  let clip (v : Int) : Int := referred x.base g (max (-fs) (min fs v))
  let u := if omitted || (!within && r.exaSrc == 7) then 0 else clockSign r rate n j
  let w := convWeight win p
  { x with
    gain := g, steps := x.steps + b2n step, last := last, fires := decide (9 * fs < 10 * peak)
    above := x.above || (within && decide (fs < peak) && !(r.auto && decide (r.gainMin < g)))
    volts := x.volts + u * fxMul w (clip d), sense := x.sense + u * fxMul w (clip sense), weight := x.weight + u.natAbs * w }

/-- A window sifted from a gain on. -/
def siftWindow (r : Recipe) (e : ScanEntry) (rate : Int) (g : Nat) (w : List ConvSample) : Sift :=
  w.zipIdx.foldl (fun x p => x.next r rate e.win (w.length - sincTail) p.2 p.1)
    { base := g, gain := g, steps := 0, last := none, fires := false, above := false, volts := 0, sense := 0, weight := 0 }

/-- A weighted mean in nV as a number of volts. -/
def meanVolts (sum weight : Int) : Int := ratio sum weight / 1000000000

/-- The mean common mode of a window lies outside CM_LO to CM_HI, or an input leaves 0.20–4.80 V at some clock (R256). -/
def cmOut (r : Recipe) (rate : Int) (w : List ConvSample) : Bool :=
  let w := w.drop sincTail
  let l := (w.zipIdx.filter fun p => inPeriods r rate w.length p.2).map fun p => p.1.pos + p.1.neg
  let lim (k : Nat) : Int := 2 * 25000000 * (k : Int) * l.length
  decide (l.sum < lim r.cmLo) || decide (lim r.cmHi < l.sum) ||
    w.any fun s => decide (min s.pos s.neg < 200000000) || decide (4800000000 < max s.pos s.neg)

/-- What the windows of a conversion give, under a rate correction of TB-G; the gain at the end of one is the gain of the
next. -/
def measure (r : Recipe) (e : ScanEntry) (rate : Int) (gain : Nat) (ws : List (List ConvSample)) : Meas :=
  let sifts := (ws.foldl (fun (x : Nat × List Sift) w =>
    let y := siftWindow r e rate x.1 w
    (y.gain, x.2 ++ [y])) (gain, [])).2
  let g := (sifts.getLast?.map (·.gain)).getD gain
  let volts := sifts.map fun x => meanVolts x.volts x.weight
  let sense := if r.exaSrc = 7 then sifts.map fun x => meanVolts x.sense x.weight else []
  let end_ := (ws.getLast?.getD []).getLast?.getD default
  { volts := volts, sense := sense, gain := g, steps := (sifts.map (·.steps)).sum, above := sifts.any (·.above)
    cm := ws.any (cmOut r rate)
    low := (volts ++ sense).all fun v => decide (8 * 1000000000 * v.natAbs < (fullScale g * fxOne).natAbs)
    bus := ws.map fun w => [meanI ((w.drop sincTail).map (·.pos)), meanI ((w.drop sincTail).map (·.neg))]
    last := [end_.pos, end_.neg] }

end Sys2Proof.Machine
end

