-- ==== Sys2Proof/Machine/FrontEnd.lean ====
section
/-! DEFINITION. The analog front end (08_front_end.md, 09_conversion.md): conversions, triggers, words, auto-ranging, blanking,
faults and the calibration steps of its channels. The choices where the rules are silent are in assumption-log rows 79, 80 and
81. -/

namespace Sys2Proof.Machine

/-! ### The plan in force -/

/-- Section 0x03 of the image in force. -/
def State.feOf (s : State) : Option FrontEnd := s.port.inForce.bind (·.fe)

/-- The recipe of channel ch. -/
def State.recipe (s : State) (ch : Nat) : Option Recipe := s.feOf.bind fun f => f.recipes.find? (·.ch == ch)

/-- The scan entry of channel ch. -/
def State.scan (s : State) (ch : Nat) : Option ScanEntry := s.feOf.bind fun f => f.scan.find? (·.ch == ch)

/-- The recipe in force of channel ch has the fingerprint of r (R155). -/
def State.sameRecipe (s : State) (ch : Nat) (r : Recipe) : Bool :=
  match s.recipe ch with
  | some x => x.rfp == r.rfp
  | none => false

/-- One channel changed. -/
def State.onFe (s : State) (ch : Nat) (f : FeCh → FeCh) : State := { s with fe := { s.fe with ch := s.fe.ch.modify ch f } }

/-- A recipe converts in the mode in force (R260). -/
def State.feRuns (s : State) (r : Recipe) : Bool := s.running && (s.full || (s.inMode .footpath && r.basic))

/-- The blank interval of the recipes holds (R258). -/
def State.feBlanked (s : State) : Bool := s.fe.blank || s.fe.blankEnd.isSome

/-- The conversions in progress of a channel: that of the plan in force, and those of plans before it (R261). -/
def FeCh.convs (c : FeCh) : List Conv := c.conv.toList ++ c.old

/-- Every conversion in progress of a channel changed. -/
def FeCh.onConvs (c : FeCh) (f : Conv → Conv) : FeCh := { c with conv := c.conv.map f, old := c.old.map f }

/-- The conversion of a channel that ends next. -/
def FeCh.ending (c : FeCh) : Option Conv :=
  c.convs.foldl (fun a v => match a with
    | some u => if v.ends < u.ends then some v else some u
    | none => some v) none

/-- A channel without a conversion that it has. -/
def FeCh.drop (c : FeCh) (v : Conv) : FeCh := if c.conv = some v then { c with conv := none } else { c with old := c.old.erase v }

/-- Conversions in progress. -/
def Fe.convs (f : Fe) : List Conv := f.ch.flatMap (·.convs)

/-- Where TB-G stands, in 10^−24 s from mark 0. -/
def State.gPos (s : State) : Nat := s.time.gIdx * markAcc + s.time.gAcc

/-- What a pin is connected to (R208): nothing where no conversion in progress uses it, which leaves it at high impedance. -/
def State.pinUse (s : State) (pin : Nat) : List PinUse :=
  s.fe.convs.flatMap fun v => v.pinUse s.gPos pin

/-- What a source does (R212). -/
def State.sourceUse (s : State) (src : Nat) : List SourceUse :=
  (s.fe.convs.map fun v => v.sourceUse s.gPos src).filter (· != .off)

/-- The level of VBIAS in mV, 0 where it is off (R221). -/
def State.vbiasMv (s : State) : Nat :=
  match s.feOf with
  | some f => f.vbiasMv
  | none => 0

/-- The buses of a modulator's PGA that are tied to VBIAS (R221): positive, negative. -/
def State.busTied (s : State) (mod : Nat) : Bool × Bool :=
  ((s.fe.convs.filter (·.scan.mod == mod)).map (·.tied s.gPos)).foldl (fun a b => (a.1 || b.1, a.2 || b.2)) (false, false)

/-- The level of a voltage source that is connected to a pin, in nV (R219, R220): VEX_MV, or a side of the AC pair. -/
def State.sourceLevel (s : State) (src : Nat) : Option Int :=
  (s.fe.convs.find? fun v => (5 ≤ src && src ≤ 6) && (match v.sourceUse s.gPos src with
    | .onto _ => true
    | _ => false)).map fun v =>
      if v.recipe.exaSrc = 7 then
        driveLevel s.vbiasMv v.recipe src (driveEighths v.recipe s.time.gRate
          ((s.gPos : Int) - (v.pos + oneAcc v.recipe v.scan - windowAcc v.scan : Nat)))
      else 1000000 * (v.recipe.vexMv : Int)

/-- What a guard driver does (R216): it follows an input of the modulator that converts, or holds a voltage in nV. -/
inductive GuardUse where
  | follows (mod : Nat) (positive : Bool)
  | holds (nv : Int)
  deriving DecidableEq, Repr, Inhabited

/-- The field of a recipe for a guard driver (R216, R233). -/
def Recipe.guard (r : Recipe) (g : Nat) : Nat := if g = 0 then r.grd0 else r.grd1

/-- What a guard driver does now (R216). -/
def State.guardUse (s : State) (g : Nat) : GuardUse :=
  match s.fe.convs.find? fun v => v.recipe.guard g != 0 with
  | some v => .follows v.scan.mod (v.recipe.guard g == 1)
  | none => .holds (nth s.fe.guards g)

/-! ### Grid-driven outputs (R238, R244) -/

/-- Period of a recipe's outputs in 10^−24 s (R233 RATE). -/
def feePeriod (r : Recipe) : Nat := if r.rate ≤ 16 then 2 ^ (16 - r.rate) * markAcc else markAcc / 2 ^ (r.rate - 16)

/-- Position of the first output (R244). -/
def feePhase (r : Recipe) (e : ScanEntry) : Nat := markAcc / 4 + (if r.rate ≤ 16 then e.phase * markAcc else 0)

/-- The grid-driven output whose occupancy begins at a position, within 10 ns (R238, R244): its reference position. -/
def gridOutput (r : Recipe) (e : ScanEntry) (pos : Nat) : Option Nat :=
  let ref := pos + leadAcc r e
  let t := feePeriod r
  let k := (ref + t / 2 - feePhase r e) / t
  let at_ := feePhase r e + k * t
  if feePhase r e ≤ ref + t / 2 ∧ max ref at_ - min ref at_ ≤ 10 * nsAcc then some at_ else none

/-- Where the next grid-driven occupancy of a recipe begins at or after a position (R249). -/
def nextGrid (r : Recipe) (e : ScanEntry) (pos : Nat) : Nat :=
  let l := leadAcc r e
  let t := feePeriod r
  let k := if pos + l ≤ feePhase r e then 0 else ceilDiv (pos + l - feePhase r e) t
  feePhase r e + k * t - l

/-- The first of the positions a, a + t, a + 2 t, … at or after a position, a itself where it comes later. -/
def nextOf (t a pos : Nat) : Nat := if pos ≤ a then a else a + ceilDiv (pos - a) t * t

/-- The grid mark to which an output's reference position belongs (R16): the instants after a common instant, up to the next,
belong to its mark. -/
def outMark (ref : Nat) : Nat := (ref - markAcc / 4) / markAcc

/-- A conversion in progress holds a modulator of the recipe. -/
def State.modBusy (s : State) (r : Recipe) (e : ScanEntry) : Bool := s.fe.convs.any fun v => shareMod r e v.recipe v.scan

/-- Recipes and scan entries of the plan in pairs. -/
def FrontEnd.pairs (f : FrontEnd) : List (Recipe × ScanEntry) := f.recipes.zip f.scan

/-- The whole occupancy ends before the next grid-driven occupancy of its modulators begins (R249). -/
def State.fitsGap (s : State) (r : Recipe) (e : ScanEntry) (occ : Nat) : Bool :=
  match s.feOf with
  | none => false
  | some f => f.pairs.all fun (r', e') =>
      e'.trigOnly || !shareMod r e r' e' || !s.feRuns r' || decide (s.gPos + occ ≤ nextGrid r' e' s.gPos)

/-- The grid-driven recipes of other channels whose next occupancy begins before one that begins now ends. -/
def State.comingGrid (s : State) (r : Recipe) (occ : Nat) : List (Recipe × ScanEntry) :=
  match s.feOf with
  | none => []
  | some f => f.pairs.filter fun (r', e') =>
      r'.ch != r.ch && !e'.trigOnly && s.feRuns r' && decide (nextGrid r' e' s.gPos < s.gPos + occ)

/-- Two spans share a moment. -/
def spansMeet (a la b lb : Nat) : Bool := decide (a < b + lb) && decide (b < a + la)

/-- No conversion of an occupancy of the recipe that begins now shares a pin that R209 forbids with one in progress, or with any
output of the grid-driven recipes to come. -/
def State.pinsFree (s : State) (kind : ConvKind) (r : Recipe) (e : ScanEntry) : Bool :=
  (r.parts kind e).all fun p =>
    s.fe.convs.all (fun v => (v.recipe.parts v.kind v.scan).all fun q =>
      p.ok q || !spansMeet (s.gPos + p.start) p.len (v.pos + q.start) q.len) &&
    (s.comingGrid r (kindAcc kind r e)).all fun g => (g.1.parts .grid g.2).all fun q =>
      p.ok q || !decide (nextOf (feePeriod g.1) (nextGrid g.1 g.2 s.gPos + q.start) (s.gPos + p.start) < s.gPos + p.start + p.len)

/-- A conversion in a gap breaks none of R209, R216 and R222 with what it could overlap: the conversions in progress and the
grid-driven ones that begin before it ends; one that would is held back to a later gap (DESIGN CHOICE, assumption-log row
81). -/
def State.compatible (s : State) (kind : ConvKind) (r : Recipe) (e : ScanEntry) : Bool :=
  let l := s.fe.convs.map (·.recipe) ++ (s.comingGrid r (kindAcc kind r e)).map (·.1)
  l.all (sharesOk r) && s.pinsFree kind r e && decide (r.current + (l.map (·.current)).sum ≤ 30000)

/-! ### Triggers (R247, R248, R260) -/

/-- A trigger is refused and counted. -/
def State.refuseTrig (s : State) : State := { s with fe := { s.fe with refused := s.fe.refused + 1 } }

/-- A trigger for one channel (R247, R248): src 1 FE_TRIG, 2 INJECT of an engine. -/
def State.trigger (s : State) (ch src engine : Nat) : State :=
  match s.recipe ch, s.feOf with
  | some r, some f =>
    let recent := s.fe.inj.filter fun m => decide (s.mark < m + 1024)
    if !s.feRuns r || decide (f.injMax ≤ recent.length) then s.refuseTrig
    else if ((nth s.fe.ch ch).pend).isSome then s.onFe ch fun c => { c with overrun := c.overrun + 1 }
    else
      { s with fe := { s.fe with inj := s.mark :: recent } }.onFe ch fun c => { c with pend := some (s.now, src, engine) }
  | _, _ => s

/-- FE_TRIG_EDGE (R247): an edge within 1 µs of the one before is ignored. -/
def doFeTrigEdge (dt : Nat) (s : State) : State :=
  let s := s.advance dt
  let early := match s.fe.lastTrig with
    | some t => decide (s.now < t + usPs 1)
    | none => false
  let s := { s with fe := { s.fe with lastTrig := some s.now } }
  match s.feOf with
  | some f => if early then s else (setBits 32 f.trigMask.toNat).foldl (fun s ch => s.trigger ch 1 0) s
  | none => s

def execFeTrigEdge (dt : Nat) (s : State) : Result := .next (doFeTrigEdge dt s)

/-! ### Start of a conversion (R212, R213, R227, R249, R250, R258) -/

/-- The gain steps up at the start of the recipe's next conversion after 64 low words (R227). -/
def gainUp (r : Recipe) (c : FeCh) : FeCh :=
  if r.auto && decide (64 ≤ c.lowRun) && decide (c.gain < r.gain) then { c with gain := c.gain + 1, lowRun := 0 } else c

/-- The precharge levels that PRE selects (R213), in nV. -/
def State.preLevels (s : State) (r : Recipe) (c : FeCh) : List Int :=
  if r.pre = 2 then c.pre
  else
    let x : Int := if r.pre = 1 then ((s.vbiasMv * 1000000 : Nat) : Int) else 2500000000
    [x, x]

/-- Coefficients of a curve for a channel in an image (R254). -/
def Image.curveVals (im : Image) (curve ch : Nat) : List Word :=
  match im.curves.find? fun c => c.curve == curve && (c.ch == ch || c.ch == 0xFF) with
  | some c => c.vals
  | none => []

/-- Coefficients of a curve for a channel in the image in force (R254). -/
def State.curveVals (s : State) (curve ch : Nat) : List Word :=
  match s.port.inForce with
  | none => []
  | some im => im.curveVals curve ch

/-- A curve that uses REFCH1 (R252). -/
def usesRef1 (c : Nat) : Bool := (decide (1 ≤ c) && decide (c ≤ 8)) || c == 40 || c == 48

/-- The assigned channels that a recipe's curve uses (R252, R253). -/
def usedRefs (r : Recipe) : List Nat :=
  ((if usesRef1 r.curve then [r.refch1] else []) ++ (if r.curve = 40 then [r.refch2] else [])).filter (· != 0x3F)

/-- Nominal value of an excitation source of a recipe in A or V (R218, R219). -/
def nominalOf (r : Recipe) (src : Nat) : Int := if isIex src then fxRat (2 ^ r.istep) 1000000 else fxRat r.vexMv 1000

/-- The measured values of the recipe's two sources (R218): those of its last gain step, before the first one what the device
knows from its trim. -/
def sourcesOf (r : Recipe) (c : FeCh) : List Int :=
  if c.srcs.isEmpty then [r.exaSrc, r.exbSrc].map fun x => Config.sourceValue x (nominalOf r x) else c.srcs

/-- The conversion that begins now: kind, reference mark and offset, and for an injected one its trigger. -/
def State.convOf (s : State) (kind : ConvKind) (r : Recipe) (e : ScanEntry) (c : FeCh) (mark off trig src engine : Nat) (late : Bool) :
    Conv :=
  { kind := kind, start := s.now, pos := s.gPos, len := kindAcc kind r e, refMark := mark, refOff := off, trig := trig,
    src := src, engine := engine, late := late, blanked := false, tripped := false, clamped := false, recipe := r, scan := e,
    gain := c.gain, held := s.preLevels r c, srcs := sourcesOf r c, coef := s.curveVals r.curve r.ch, lat := s.calBlock.lat,
    refs := (usedRefs r).map fun a => (a, ((s.recipe a).map (·.rfp)).getD 0), stale := false, dropped := false }

/-- The conversion of a grid-driven output with its reference position. -/
def State.gridConv (s : State) (r : Recipe) (e : ScanEntry) (c : FeCh) (ref : Nat) : Conv :=
  s.convOf .grid r e c (outMark ref) (ref - outMark ref * markAcc) 0 0 0 false

/-- The conversion of an injection or a calibration step. -/
def State.gapConv (s : State) (kind : ConvKind) (r : Recipe) (e : ScanEntry) (c : FeCh) (trig src engine : Nat) : Conv :=
  let ref := s.gPos + leadAcc r e
  s.convOf kind r e c (ref / markAcc) (ref % markAcc) trig src engine (kind == .injected && decide (usPs 2 < s.now - trig))

/-- Injected conversions that wait on a shared modulator and are not held by a blank interval: trigger time and channel (R249,
R258). -/
def State.waitingInj (s : State) (r : Recipe) (e : ScanEntry) : List (Nat × Nat) :=
  match s.feOf with
  | none => []
  | some f => f.pairs.filterMap fun (r', e') =>
      match (nth s.fe.ch r'.ch).pend with
      | some (t, _, _) => if shareMod r e r' e' && !(r'.blank && s.feBlanked) then some (t, r'.ch) else none
      | none => none

/-- The injected conversion of a channel is the first in order on its modulator (R249). -/
def State.firstInj (s : State) (r : Recipe) (e : ScanEntry) (t : Nat) : Bool :=
  (s.waitingInj r e).all fun p => decide (t < p.1) || (t == p.1 && decide (r.ch ≤ p.2))

/-- A calibration step of a channel is the first in order on its modulator (R249): no injection waits, offset before gain, and
by ascending channel; a step that a blank interval holds does not count (R258). -/
def State.firstCal (s : State) (r : Recipe) (e : ScanEntry) (gain : Bool) : Bool :=
  (s.waitingInj r e).isEmpty &&
    match s.feOf with
    | none => false
    | some f => f.pairs.all fun (r', e') =>
        let c := nth s.fe.ch r'.ch
        !shareMod r e r' e' || (r'.blank && s.feBlanked) ||
          (if gain then !c.dueOff && (!c.dueGain || decide (r.ch ≤ r'.ch)) else !c.dueOff || decide (r.ch ≤ r'.ch))

/-! ### Words (R225, R229, R251–R258) -/

/-- y / OUT_LSB to the nearest integer, ties away from zero, saturated at ±(2^23 − 1), and whether it was beyond (R252). Where
one of the two is no number, or OUT_LSB is 0, the count is not stated: a free value. -/
def toCounts (y lsb : Word) : Int × Bool :=
  let n := if f32IsNan y || !f32Finite lsb || f32Int lsb == 0 then Config.noCount y lsb
    else roundDiv (if lsb.msb then -(f32Int y) else f32Int y) (f32Int lsb).natAbs
  (max (-8388607) (min 8388607 n), decide (8388607 < n.natAbs))

/-- An assigned word with this code is unusable (R253). -/
def codeUnusable (c : Nat) : Bool := (decide (0x20 ≤ c) && decide (c ≤ 0x23)) || c == 0x30

/-- What an assigned channel gives a conversion (R253): the word used, none where there is none, and the code it passes on. -/
def State.assigned (s : State) (v : Conv) (ref : Nat × Word) : Option FeWord × Nat :=
  match (nth s.fe.ch ref.1).words.filter fun x => x.rfp == ref.2 && decide (x.pos ≤ v.ref) with
  | [] => (none, 0x11)
  | x :: l =>
    let k := sampleCode x.word
    if codeUnusable k then (l.find? fun y => !codeUnusable (sampleCode y.word), k) else (some x, 0)

/-- The assigned word of channel a among those a conversion uses: its value, its sea pressure where it has one, and the code it
passes on. Where no word gives a value, none is stated: a free value. -/
def State.assignedValue (s : State) (v : Conv) (a : Nat) : Int × Int × Nat :=
  match v.refs.find? (·.1 == a) with
  | none => (0, 0, 0)
  | some ref =>
    match s.assigned v ref with
    | (some w, k) => (fxOf w.y, fxOf (w.p.getD w.y), k)
    | (none, k) => (Config.noWord a v.refMark, Config.noWord a v.refMark, k)

/-- A voltage with the terms of its channel (R144): (V − C0) × C1. -/
def inputVolts (terms : List Word) (x : Int) : Int := fxMul (x - fxOf (nth terms 0)) (fxOf (nth terms 1))

/-- The quantity of an output (R229), from the voltages, those across the sense resistor of 10 Ω, and the measured sources. -/
def quantityOf (r : Recipe) (srcs volts sense : List Int) : Int :=
  let (va, vb) := (nth volts 0, nth volts 1)
  let (ia, ib) := (nth srcs 0, nth srcs 1)
  if r.lead = 1 then ratio (va + vb) (ia + ib)
  else if r.lead = 3 then ratio va ia - ratio vb ib
  else if r.exaSrc = 0 then va
  else if r.exaSrc = 7 then ratio (nth sense 0 / 10) va
  else ratio va ia

/-- The curve's value of a conversion that has ended, with the codes of the assigned words (R252, R253). -/
def State.feCurve (s : State) (w : FeWait) : CurveOut × List Nat :=
  let v := w.conv
  let r := v.recipe
  let terms := (nth s.mot.cal (7 + w.ch)).termsAt v.refMark
  let q := quantityOf r v.srcs (w.meas.volts.map (inputVolts terms)) w.meas.sense
  let a := if usesRef1 r.curve then s.assignedValue v r.refch1 else (0, 0, 0)
  let b := if r.curve = 40 then s.assignedValue v r.refch2 else (0, 0, 0)
  (curveY r.curve r.param v.coef v.lat q a.1 b.2.1, [a.2.2, b.2.2])

/-- The conversion began within 20 ms of the die being powered (R257). -/
def State.fePowering (s : State) (v : Conv) : Bool :=
  decide (s.fe.poweredAt ≤ v.start) && decide (v.start < s.fe.poweredAt + msPs 20)

/-- The last value of a recipe that carried none of 0x20, 0x30 and 0x41, or 0 (R258). -/
def repeated (c : FeCh) (r : Recipe) : Int :=
  match c.words.find? fun x => x.rfp == r.rfp && !([0x20, 0x30, 0x41].contains (sampleCode x.word)) with
  | some x => sampleVal x.word
  | none => 0

/-- The word of a conversion that has ended (R225, R250, R252–R258). -/
def State.feWord (s : State) (w : FeWait) : FeWord :=
  let v := w.conv
  let r := v.recipe
  let m := w.meas
  let of (n : Int) (k : Nat) (p : Option Word) : FeWord :=
    { pos := v.ref, rfp := r.rfp, word := sampleWord n k, y := f32OfRat (n * f32Int r.outLsb) (2 ^ 149), p := p }
  if v.blanked then of (repeated (nth s.fe.ch w.ch) r) (worse 0x30 (codeIf v.late 0x40)) none
  else
    let (x, codes) := s.feCurve w
    let (n, sat) := toCounts x.y r.outLsb
    let codes := [codeIf (r.ow && (v.tripped || w.ow)) 0x20, codeIf m.cm 0x21, codeIf v.clamped 0x22,
      codeIf (sat || x.out || m.above || (!r.ow && v.tripped)) 0x23, codeIf (decide (0 < m.steps)) 0x10,
      codeIf (s.fePowering v) 0x11, codeIf v.late 0x40] ++ codes
    of (if r.ow && v.tripped then 0 else n) (worstCode codes) x.p

/-- Index of a grid-driven output counted from the first instant of grid mark 0 (R122). -/
def outIndex (r : Recipe) (mark off : Nat) : Nat :=
  if r.rate ≤ 16 then mark / 2 ^ (16 - r.rate)
  else mark * 2 ^ (r.rate - 16) + (off - markAcc / 4) * 2 ^ (r.rate - 16) / markAcc

/-- An output written: into the channel's packet, or as an injection packet (R235, R251). -/
def State.feWrite (s : State) (ch : Nat) (v : Conv) (w : Word) : State :=
  let r := v.recipe
  match v.kind with
  | .injected =>
    let seq := ((nth s.fe.ch ch).injSeq + 1) % 65536
    let s := s.onFe ch fun c => { c with injSeq := seq }
    let lateness := if v.late then satN 32 ((v.start - v.trig) / 1000) else 0
    s.writePacket { wholePacket 9 (recipeTag r true) v.refMark
      [w, word (at_ v.src 28 + at_ v.engine 24 + seq), word (v.refOff / nsAcc), word lateness] with rate := r.rate }
  | _ => s.putBlock 9 (recipeTag r false) v.refMark (outIndex r v.refMark v.refOff % r.pktSamples) r.pktSamples 1 [w]

/-- The words that a channel keeps: those of the last 4096 marks, and before them the last one, the last one without a fault
code and the last one that a blanked word repeats (R253, R258). -/
def keepWords (l : List FeWord) : List FeWord :=
  let newest := (l.head?.map (·.pos)).getD 0
  let (near, far) := l.partition fun x => decide (newest < x.pos + 4096 * markAcc)
  let one (f : Nat → Bool) : List FeWord := (far.find? fun x => f (sampleCode x.word)).toList
  near ++ ((one fun _ => true) ++ (one fun k => !codeUnusable k) ++ one fun k => !([0x20, 0x30, 0x41].contains k)).eraseDups

/-- What a channel keeps of a word (R227, R253, R258, R259). -/
def FeCh.note (c : FeCh) (w : FeWait) (x : FeWord) : FeCh :=
  let k := sampleCode x.word
  { c with
    words := keepWords (x :: c.words)
    lowRun := if w.conv.stale then c.lowRun else if codeUnusable k || !w.meas.low then 0 else c.lowRun + 1
    cm21 := c.cm21 || k == 0x21 }

/-- An output of the recipe is in progress, or its word waits, so that its packet still takes the word (R20, R261). -/
def State.converting (s : State) (r : Recipe) : Bool :=
  let on (v : Conv) : Bool := v.recipe == r && v.isOutput && !v.dropped && markLt v.refMark s.mark
  (nth s.fe.ch r.ch).convs.any on || s.fe.waiting.any fun w => w.conv.recipe == r

/-- The packet of a recipe that is no longer sampled closes when its last output has been written (R20, R260, R261). -/
def State.closeTaken (s : State) (ch : Nat) (r : Recipe) : State :=
  if (s.recipe ch == some r && s.feRuns r) || s.converting r then s else s.closeOpen (recipeTag r false) true

/-- The word of an ended conversion is formed and written. -/
def State.feFinish (s : State) (w : FeWait) : State :=
  let x := s.feWord w
  let s := s.onFe w.ch fun c => c.note w x
  (s.feWrite w.ch w.conv x.word).closeTaken w.ch w.conv.recipe

/-- A word of an assigned channel with a reference instant at or before the conversion's own is still to come (R253). -/
def State.refPending (s : State) (v : Conv) : Bool :=
  !v.blanked && v.refs.any fun a =>
    (nth s.fe.ch a.1).convs.any (fun u => u.isOutput && !u.dropped && decide (u.ref ≤ v.ref)) || s.fe.waiting.any fun w => w.ch == a.1 && decide (w.conv.ref ≤ v.ref)

/-- The first ended conversion whose word can be formed: nothing it uses is to come, and no earlier one of its channel waits. -/
def State.readyWait (s : State) : Option FeWait :=
  s.fe.waiting.find? fun w => !s.refPending w.conv && s.fe.waiting.find? (·.ch == w.ch) == some w

/-- Words that can be formed are, at most n of them. -/
def State.drainFe : Nat → State → State
  | 0, s => s
  | n + 1, s =>
    match s.readyWait with
    | none => s
    | some w => State.drainFe n ({ s with fe := { s.fe with waiting := s.fe.waiting.erase w } }.feFinish w)

/-- The words that can be formed now. -/
def State.settleFe (s : State) : State := s.drainFe s.fe.waiting.length

/-- The words that wait are formed with what there is (Layby entry). -/
def State.flushFe (s : State) : State :=
  s.fe.waiting.foldl (fun s w => { s with fe := { s.fe with waiting := s.fe.waiting.erase w } }.feFinish w) s

/-- A grid-driven output at its planned time (R237, R250): one whose blank interval has begun runs no conversion, and its word
is written as soon as the words before it (R258). -/
def State.startGrid (s : State) (ch : Nat) (r : Recipe) (e : ScanEntry) : State :=
  match gridOutput r e s.gPos with
  | some ref =>
    if e.trigOnly then s
    else if r.blank && s.feBlanked then
      let c := nth s.fe.ch ch
      let w : FeWait := { ch := ch, conv := { s.gridConv r e c ref with blanked := true }, meas := default, ow := c.ow }
      { s with fe := { s.fe with waiting := s.fe.waiting ++ [w] } }.settleFe
    else
      s.onFe ch fun c =>
        let c := gainUp r c
        { c with conv := some (s.gridConv r e c ref) }
  | none => s

/-- An injected conversion in a gap (R249, R258). -/
def State.startInjected (s : State) (ch : Nat) (r : Recipe) (e : ScanEntry) : State :=
  match (nth s.fe.ch ch).pend with
  | some (t, src, eng) =>
    if !(r.blank && s.feBlanked) && s.firstInj r e t && s.fitsGap r e (kindAcc .injected r e) && s.compatible .injected r e then
      s.onFe ch fun c =>
        let c := gainUp r c
        { c with conv := some (s.gapConv .injected r e c t src eng), pend := none }
    else s
  | none => s

/-- An offset or gain calibration step in a gap (R144, R249); a recipe with NOCAL has none (R243). The gain of schemes 1 and 3
steps up at the start of a pair only (R228). -/
def State.startCal (s : State) (ch : Nat) (gain : Bool) (r : Recipe) (e : ScanEntry) : State :=
  let c := nth s.fe.ch ch
  let kind : ConvKind := if gain then .calGain else .calOffset
  if (if gain then c.dueGain else c.dueOff) && !e.nocal && !(r.blank && s.feBlanked) && s.firstCal r e gain &&
      s.fitsGap r e (kindAcc kind r e) && s.compatible kind r e then
    s.onFe ch fun c =>
      let c := if twoConv r then c else gainUp r c
      let c := { c with conv := some (s.gapConv kind r e c 0 0 0) }
      if gain then { c with dueGain := false } else { c with dueOff := false }
  else s

/-- What starts, of a channel that runs and whose modulator is free. -/
def State.startConv (s : State) (ch : Nat) (kind : ConvKind) (r : Recipe) (e : ScanEntry) : State :=
  match kind with
  | .grid => s.startGrid ch r e
  | .injected => s.startInjected ch r e
  | .calOffset => s.startCal ch false r e
  | .calGain => s.startCal ch true r e

/-- FE_CONVERSION_START (R237, R249): grid-driven outputs at their planned times, an injected one or a calibration step in a
gap, in the order of R249. In the blank interval a blankable output runs no conversion and no step or injection starts. -/
def doFeConversionStart (dt ch : Nat) (kind : ConvKind) (s : State) : State :=
  let s := s.advance dt
  match s.recipe ch, s.scan ch with
  | some r, some e =>
    if !s.feRuns r || s.modBusy r e || (nth s.fe.ch ch).conv.isSome then s else s.startConv ch kind r e
  | _, _ => s

def execFeConversionStart (dt : Nat) (ch : Fin 32) (kind : ConvKind) (s : State) : Result :=
  .next (doFeConversionStart dt ch.val kind s)

/-- Grid marks between the steps of a kind (R144), the gain steps of a drifting recipe more often (R530). -/
def State.stepMarks (s : State) (c : FeCh) (gain : Bool) : Nat :=
  if gain then s.calBlock.feGainPer * 1024 / 2 ^ c.stage else s.calBlock.feOffPer * 1024

/-- A step of the kind falls due again: its period has passed since the last one (R144). -/
def State.stepIsDue (s : State) (c : FeCh) (gain : Bool) : Bool :=
  match if gain then c.gainAt else c.offAt with
  | some m => decide (m + s.stepMarks c gain ≤ s.mark)
  | none => true

/-- FE_CAL_STEP_DUE (R144, R153, R243): an offset or gain step of a recipe that is calibrated falls due, once in its period. -/
def doFeCalStepDue (dt ch : Nat) (gain : Bool) (s : State) : State :=
  let s := s.advance dt
  match s.recipe ch, s.scan ch with
  | some r, some e =>
    if s.feRuns r && !e.nocal && bitOf s.calBlock.enable (if gain then 5 else 4) && s.stepIsDue (nth s.fe.ch ch) gain then
      s.onFe ch fun c =>
        if gain then { c with dueGain := true, gainAt := some s.mark } else { c with dueOff := true, offAt := some s.mark }
    else s
  | _, _ => s

def execFeCalStepDue (dt : Nat) (ch : Fin 32) (gain : Bool) (s : State) : Result := .next (doFeCalStepDue dt ch.val gain s)

/-! ### Faults (R255, R259) -/

/-- The FE-FAULT record (R259). -/
def State.feFault (s : State) (reason ch mark : Nat) : Packet :=
  recPacket 0x14 0xFF mark
    ([word (at_ reason 24 + at_ ch 19), word (maskOf 32 fun n => (nth s.fe.ch n).ow), word (maskOf 32 fun n => (nth s.fe.ch n).cm21),
      word (at_ (satN 16 (s.fe.ch.map (·.overrun)).sum) 16 + satN 16 s.fe.refused)] ++
      ((List.range 12).map fun i => word (leNat ((List.range 4).map fun j => BitVec.ofNat 8 (min 255 (nth s.fe.clamps (4 * i + j)))))))

/-- Counts of FE-FAULT since the previous periodic record start again (R259). -/
def Fe.newPeriod (f : Fe) : Fe :=
  { f with refused := 0, clamps := List.replicate 48 0, ch := f.ch.map fun c => { c with overrun := 0, cm21 := false } }

/-- Open-wire bookkeeping of an output (R255): whether the channel is flagged afterwards, its clean run, and the REASON of the
FE-FAULT record, 0 for none. -/
def owAfter (flag tripped : Bool) (clean : Nat) : Bool × Nat × Nat :=
  if tripped then (true, 0, if flag then 0 else 2)
  else if flag then (if 8 ≤ clean + 1 then (false, 0, 3) else (true, clean + 1, 0))
  else (false, 0, 0)

/-! ### Calibration steps (R144, R146, R147, R150, R151) -/

/-- The weighted means of a channel after a sample (R144): offset with weight 1/16, gain with weight 1/8; C2 with a gain. -/
def estAfter (est : List Word) (steps : List (List Word)) (gain : Bool) (x : Int) : List Word :=
  let mix (k d : Nat) : Word := fxWord ((fxOf (nth est k) * (d - 1 : Nat) + x) / (d : Int))
  if gain then (est.set 1 (mix 1 8)).set 2 (Config.refHistory steps) else est.set 0 (mix 0 16)

/-- RESIDUAL of a front-end channel in 0.1 ppm of full scale (R146, R152). -/
def feResidual (r : Recipe) (sg : List Word) : Nat :=
  let o := fxDiv (fxOf (nth sg 0)) (fxRat (fullScale r.gain) 1000000000)
  let g := fxOf (nth sg 1)
  residualOf (fxSqrt (fxMul o o + fxMul g g)) 10000000

/-- A front-end calibration channel after a step whose sample is x, or whose result is discarded (R144–R147): its sums, whatever
its state, and what the update decides. -/
def CalCh.stepped (c : CalCh) (r : Recipe) (enabled gain : Bool) (x : Option Int) (mark : Nat) : CalCh × Bool :=
  let steps := match x with
    | some v => ([word (b2n gain), fxWord v] :: c.steps).take 64
    | none => c.steps
  let est := match x with
    | some v => estAfter c.est steps gain v
    | none => c.est
  let sg := (List.range 9).map fun t => if t < 3 then clampW 0 0x7F7FFFFF (Config.stepSigma t steps c.priorSigma) else 0
  let offs := c.total + b2n (!gain && x.isSome)
  let gok := c.gainOk || (gain && x.isSome)
  let res := feResidual r sg
  let low := if res ≤ 100 then c.lowRun + 1 else 0
  let dep := x.isSome && departs c.terms est sg
  let v := verdict c (enabled && decide (4 ≤ offs) && gok) x.isNone dep res 100 low true
  let changed := v.take_ && est != c.terms
  ({ c with
      st := v.st, steps := if v.restart then [] else steps, est := est, total := offs, gainOk := gok, lowRun := low
      offRun := c.runOn dep v.restart, sigma := if v.take_ then sg else c.sigma
      residual := if v.take_ then res else c.residual, updates := if v.st = 0 then 0 else c.updates + 1
      next := if changed then c.next ++ [(mark, est, sg)] else c.next, wasSettled := c.wasSettled && v.st != 2 },
   changed)

/-- The update of a front-end channel after a step (R147, R150, R151); at a restore's commit mark it is discarded (R158). -/
def State.feCal (s : State) (ch : Nat) (r : Recipe) (gain : Bool) (x : Option Int) : State :=
  let i := 7 + ch
  let c := nth s.mot.cal i
  if c.skips s.mark then s
  else
    let mark := s.mark + 2
    let (c', changed) := c.stepped r (s.calEnabled i) gain x mark
    (s.onCal i fun _ => c').writePacket (calUpdateRec i c' changed (b2n x.isSome) (b2n x.isNone) (if changed then mark else s.mark))

/-- Thirty days in grid marks. -/
def thirtyDays : Nat := 30 * 86400 * 1024

/-- The gain-step schedule after a gain step (R530): drift beyond 2 ppm per 30 days runs the steps faster, below 1 ppm for
30 days slower again. -/
def FeCh.schedule (c : FeCh) (drift : Int) (mark : Nat) : FeCh :=
  let from_ := if drift.natAbs < 100 then c.calmFrom else mark
  if 200 < drift.natAbs then { c with drift := drift, stage := min 2 (c.stage + 1), calmFrom := from_ }
  else if from_ + thirtyDays ≤ mark ∧ 0 < c.stage then { c with drift := drift, stage := c.stage - 1, calmFrom := mark }
  else { c with drift := drift, calmFrom := from_ }

/-- A measured source against its factory value in 0.1 ppm (R526, R532). -/
def sourceDrift (r : Recipe) (src : Nat) (x : Int) : Int :=
  roundDiv ((ratio x (Config.sourceValue src (nominalOf r src)) - fxOne) * 10000000) (2 ^ 96)

/-- The measured sources of a recipe against their factory values (R526, R532). -/
def Ageing.noteSources (a : Ageing) (r : Recipe) (srcs : List Int) : Ageing :=
  let used := ([r.exaSrc, r.exbSrc].zip srcs).filter fun p => decide (1 ≤ p.1) && decide (p.1 ≤ 6)
  { a with srcDrift := used.foldl (fun l p => l.set (p.1 - 1) (sourceDrift r p.1 p.2)) a.srcDrift }

/-- Drifts measured at a gain step (R526, R530). How the trend over 30 days is formed is not stated: a free value. -/
def State.measureDrift (s : State) (ch : Nat) (r : Recipe) (srcs : List Int) : State :=
  let d := Config.freeInt s.free
  { s with free := s.free + 1, age := s.age.noteSources r srcs }.onFe ch fun c => { c.schedule d s.mark with srcs := srcs }

/-- A gain step that was accepted (R144, R218): the measured sources, and the gain sample, of which R144 asks one, from the
first source. -/
def State.gainStep (s : State) (ch : Nat) (v : Conv) (m : Meas) : State :=
  let r := v.recipe
  let srcs := ([r.exaSrc, r.exbSrc].zip m.volts).map fun p => fxMul p.2 (Config.refPath p.1 v.gain)
  let s := s.feCal ch r true (some (ratio (Config.factoryRatio r.exaSrc v.gain) (nth m.volts 0)))
  s.measureDrift ch r (if r.exaSrc = 0 ∨ r.exaSrc = 7 then [] else srcs)

/-- An offset step that was accepted (R144, R244): (a + b) / 2, with the normal and the reversed conversion of a TRIGONLY
recipe; otherwise the reversed result waits for the second scheduled output that brackets it. Where no output came before, or
the first one was blanked, there is no bracket, and the step is discarded (DESIGN CHOICE, assumption-log row 81). -/
def State.offsetStep (s : State) (ch : Nat) (v : Conv) (m : Meas) : State :=
  if v.scan.trigOnly then s.feCal ch v.recipe false (some ((nth m.volts 0 + nth m.volts 1) / 2))
  else
    match (nth s.fe.ch ch).lastV with
    | some a => s.onFe ch fun c => { c with rev := c.rev ++ [(a, nth m.volts 0)] }
    | none => s.feCal ch v.recipe false none

/-- The offset steps that a scheduled output brackets (R144): its voltage, none where it was blanked. -/
def State.bracket (s : State) (ch : Nat) (r : Recipe) (x : Option Int) : State :=
  let rev := (nth s.fe.ch ch).rev
  let s := s.onFe ch fun c => { c with rev := [], lastV := x }
  rev.foldl (fun s p => s.feCal ch r false (x.map fun v => ((p.1 + v) / 2 + p.2) / 2)) s

/-! ### End of a conversion (R213, R216, R224, R238, R249) -/

/-- A guard driver that a recipe of the image in force uses (R216). -/
def State.guardUsed (s : State) (g : Nat) : Bool :=
  match s.feOf with
  | some f => f.recipes.any fun r => r.guard g != 0
  | none => false

/-- The guards after a conversion (R216): a driver holds the last voltage of the bus that it followed; one that no committed recipe
uses stands at 2.5 V. -/
def State.guardsAfter (s : State) (r : Recipe) (last : List Int) : List Int :=
  (List.range 2).map fun g =>
    let f := r.guard g
    if !s.guardUsed g then 2500000000 else if f = 1 then nth last 0 else if f = 2 then nth last 1 else nth s.fe.guards g

/-- The levels at which each conversion of an occupancy held the buses (R213): with tracking precharge, each after the first
stood at what the one before it measured. -/
def heldLevels (v : Conv) (m : Meas) : List (List Int) :=
  v.held :: (m.bus.dropLast.map fun b => if v.recipe.pre = 2 then b else v.held)

/-- What a conversion leaves in the analog path (R213, R216, R224): the gain, the voltages for tracking precharge and the
guards. One that a commit has overtaken leaves the gain and the precharge as the commit set them (R213, R228). -/
def State.leavePath (s : State) (ch : Nat) (v : Conv) (m : Meas) : State :=
  let s := { s with fe := { s.fe with guards := s.guardsAfter v.recipe m.last } }
  s.onFe ch fun c =>
    let c := { c.drop v with held := heldLevels v m }
    if v.stale then c else { c with gain := m.gain, pre := m.bus.getLast?.getD c.pre }

/-- The end of an output: open-wire flag and FE-FAULT record, the offset steps it brackets, and its word, which may wait (R144,
R253, R255). -/
def State.endOutput (s : State) (ch : Nat) (v : Conv) (m : Meas) : State :=
  let c := nth s.fe.ch ch
  let (ow, clean, reason) := if v.recipe.ow then owAfter c.ow v.tripped c.owClean else (c.ow, c.owClean, 0)
  let same := s.sameRecipe ch v.recipe
  let s := if same then s.onFe ch fun c => { c with ow := ow, owClean := clean } else s
  let s := if same && v.kind == .grid then s.bracket ch v.recipe (if v.blanked then none else m.volts.head?) else s
  let s := { s with fe := { s.fe with waiting := s.fe.waiting ++ [{ ch := ch, conv := v, meas := m, ow := ow }] } }
  if same && reason != 0 then s.writePacket (s.feFault reason ch s.mark) else s

/-- The end of a calibration step: due again where it was blanked, discarded where it carries 0x20–0x23 (R146, R255, R258). A
trip flags the recipe open wire. -/
def State.endCal (s : State) (ch : Nat) (v : Conv) (m : Meas) (gain : Bool) : State :=
  let trip := v.recipe.ow && v.tripped
  let onset := trip && !(nth s.fe.ch ch).ow
  let s := if trip then s.onFe ch fun c => { c with ow := true, owClean := 0 } else s
  let s := if onset then s.writePacket (s.feFault 2 ch s.mark) else s
  if v.blanked then s.onFe ch fun c => if gain then { c with dueGain := true } else { c with dueOff := true }
  else if v.tripped || m.cm || v.clamped || m.above then s.feCal ch v.recipe gain none
  else if gain then s.gainStep ch v m
  else s.offsetStep ch v m

/-- What the end of a conversion brings; one whose plan is gone brings nothing (R20, R260, R261). -/
def State.endConv (s : State) (ch : Nat) (v : Conv) (m : Meas) : State :=
  if v.dropped then s.closeTaken ch v.recipe
  else
    match v.kind with
    | .grid => s.endOutput ch v m
    | .injected => s.endOutput ch v m
    | .calOffset => s.endCal ch v m false
    | .calGain => s.endCal ch v m true

/-- FE_CONVERSION_END (R238): the occupancy ends, and the word or the calibration sample is formed, with every word that waited
for this one (R253). Of a channel with conversions of two plans in progress it is the one whose occupancy ends first. -/
def doFeConversionEnd (dt ch : Nat) (x : ConvResult) (s : State) : State :=
  let s := s.advance dt
  match (nth s.fe.ch ch).ending with
  | none => s
  | some v =>
    let m := measure v.recipe v.scan s.time.gRate v.gain x.windows
    ((s.leavePath ch v m).endConv ch v m).settleFe

def execFeConversionEnd (dt : Nat) (ch : Fin 32) (r : ConvResult) (s : State) : Result :=
  .next (doFeConversionEnd dt ch.val r s)

/-! ### Compliance, clamps, blanking (R231, R255, R258, R125) -/

/-- COMPLIANCE_TRIP (R255): the conversion in progress notes it, and with it one of the plan before that still runs. -/
def doComplianceTrip (dt ch : Nat) (s : State) : State :=
  (s.advance dt).onFe ch fun c => c.onConvs fun v => { v with tripped := true }

def execComplianceTrip (dt : Nat) (ch : Fin 32) (s : State) : Result := .next (doComplianceTrip dt ch.val s)

/-- CLAMP_EVENT (R231): above 2 µA the conversions in which the pin has a role are marked, above 1 mA every one in progress. -/
def doClampEvent (pin na : Nat) (s : State) : State :=
  if 2000 < na then
    let f := s.fe
    { s with fe := { f with
        clamps := f.clamps.modify pin fun n => min 255 (n + 1)
        ch := f.ch.map (·.onConvs fun v =>
          if 1000000 < na || (v.rolePins s.gPos).contains pin then { v with clamped := true } else v) } }
  else s

def execClampEvent (pin : Fin 48) (nanoamp : Nat) (s : State) : Result := .next (doClampEvent pin.val nanoamp s)

/-- FE_BLANK_ASSERT (R125, R258): the blank intervals begin; conversions of blankable recipes in progress are marked. -/
def doFeBlankAssert (dt : Nat) (s : State) : State :=
  let s := s.advance dt
  { s with fe := { s.fe with
      blank := true, blankEnd := none, magEnd := none
      ch := s.fe.ch.map (·.onConvs fun v => if v.recipe.blank then { v with blanked := true } else v) } }

def execFeBlankAssert (dt : Nat) (s : State) : Result := .next (doFeBlankAssert dt s)

/-- A guard of n steps of 122.0703125 µs, in ps. -/
def guardPs (n : Nat) : Nat := n * 1220703125 / 10

/-- FE_BLANK_RELEASE (R125, R258): the guards run on; a guard of no step ends the interval. -/
def doFeBlankRelease (dt : Nat) (s : State) : State :=
  let s := s.advance dt
  if s.fe.blank then
    let g := match s.feOf with
      | some f => f.fblankGuard
      | none => 0
    let m := match s.port.inForce with
      | some im => im.inertial.blankGuard
      | none => 0
    let end_ (n : Nat) : Option Nat := if n = 0 then none else some (s.now + guardPs n)
    { s with fe := { s.fe with blank := false, blankEnd := end_ g, magEnd := end_ m } }
  else s

def execFeBlankRelease (dt : Nat) (s : State) : Result := .next (doFeBlankRelease dt s)

/-- BLANK_GUARD_END (R125, R258): an interval whose guard has run out ends. -/
def doBlankGuardEnd (dt : Nat) (s : State) : State :=
  let s := s.advance dt
  let keep (o : Option Nat) : Option Nat := match o with
    | some t => if t ≤ s.now then none else some t
    | none => none
  { s with fe := { s.fe with blankEnd := keep s.fe.blankEnd, magEnd := keep s.fe.magEnd } }

def execBlankGuardEnd (dt : Nat) (s : State) : Result := .next (doBlankGuardEnd dt s)

/-! ### Modes and commits (R213, R216, R228, R260, R261) -/

/-- A conversion in progress of a plan that stops at a mark: an output whose reference instant falls before the mark completes,
any other gives nothing, and a calibration step neither (R20, R159, R260, R261). -/
def Conv.stopAt (v : Conv) (mark : Nat) : Conv :=
  { v with dropped := v.dropped || !v.isOutput || !markLt v.refMark mark }

/-- Recipes that a condition selects stop at a mark (R260): their triggers are discarded and counted in REFUSED. No conversion
in progress is aborted (R248). -/
def Fe.stop (f : Fe) (sel : Nat → Bool) (mark : Nat) : Fe :=
  { f with
    refused := f.refused + ((List.range 32).filter fun n => sel n && ((nth f.ch n).pend).isSome).length
    ch := f.ch.mapIdx fun n c =>
      if sel n then { c.onConvs (·.stopAt mark) with pend := none, dueOff := false, dueGain := false, lastV := none, rev := [] }
      else c }

/-- The conversions that outlast Layby entry end with the islands' retention (R260, R516, R517; what becomes of them is not stated:
assumption-log row 81). -/
def Fe.halt (f : Fe) (mark : Nat) : Fe :=
  let f := f.stop (fun _ => true) mark
  { f with ch := f.ch.map fun c => { c with conv := none, old := [] } }

/-- The gain of a channel's recipe in an image (R228). -/
def Image.gainOf (im : Image) (ch : Nat) : Nat :=
  match im.fe with
  | some x => ((x.recipes.find? (·.ch == ch)).map (·.gain)).getD 0
  | none => 0

/-- A channel without calibration steps in an image (R243). -/
def Image.nocal (im : Image) (ch : Nat) : Bool :=
  match im.fe with
  | some x => ((x.scan.find? (·.ch == ch)).map (·.nocal)).getD true
  | none => true

/-- A channel after the commit of an image at a mark (R20, R213, R228, R243, R261): at its GAIN with a fresh precharge. Where
section 0x03 changes, the pending trigger goes, and the conversion in progress belongs to the old plan; where it does not, an
output whose reference instant falls at or after the mark takes its curve's coefficients and LAT from the new image. Where the
fingerprint changes, flag, schedule and measured sources go too. -/
def FeCh.commit (c : FeCh) (im : Image) (gain : Nat) (changed nocal sameRfp : Bool) (mark : Nat) : FeCh :=
  let passed (v : Conv) : Conv :=
    let v := { v with stale := true }
    if changed && v.isOutput then v.stopAt mark
    else if !v.isOutput && !sameRfp then { v with dropped := true }
    else if !changed && !markLt v.refMark mark then
      { v with coef := im.curveVals v.recipe.curve v.recipe.ch, lat := im.inertial.cal.lat }
    else v
  let c := if changed then { c with conv := none, old := c.convs.map passed } else c.onConvs passed
  let c := { c with
    gain := gain, lowRun := 0, pre := [2500000000, 2500000000], pend := if changed then none else c.pend
    dueOff := c.dueOff && !nocal, dueGain := c.dueGain && !nocal }
  if sameRfp then c
  else { c with ow := false, owClean := 0, injSeq := 0, stage := 0, drift := 0, dueOff := false, dueGain := false, offAt := none,
                gainAt := none, lastV := none, rev := [], srcs := [] }

/-- The front end after a commit (R213, R216, R228, R261). -/
def Fe.commit (f : Fe) (im : Image) (changed : Bool) (rfpOld rfpNew : List Word) (mark : Nat) : Fe :=
  let used (g : Nat) : Bool := match im.fe with
    | some x => x.recipes.any fun r => r.guard g != 0
    | none => false
  { f with
    refused := f.refused + (if changed then (f.ch.filter fun c => c.pend.isSome).length else 0)
    guards := (List.range 2).map fun g => if used g then nth f.guards g else 2500000000
    waiting := f.waiting.map fun w => { w with conv := { w.conv with stale := true } }
    ch := f.ch.mapIdx fun n c => c.commit im (im.gainOf n) changed (im.nocal n) (nth rfpOld n == nth rfpNew n) mark }

/-- The first mark of a recipe that is sampled from a position on (R31, R261): its first grid-driven output whose occupancy
begins there or later, after every conversion in progress on its modulators. -/
def State.firstTaken (s : State) (r : Recipe) (e : ScanEntry) (pos : Nat) : Nat :=
  let old := (s.fe.convs.filter fun v => shareMod r e v.recipe v.scan).map (·.ends)
  outMark (nextGrid r e (old.foldl max pos) + leadAcc r e)

/-- The first mark of a recipe that its plan has an output for from the mark at a position on: an output belongs to a mark from
its common instant on (R16). -/
def firstPlanned (r : Recipe) (e : ScanEntry) (pos : Nat) : Nat :=
  outMark (nextOf (feePeriod r) (feePhase r e) (pos + markAcc / 4))

/-- The tags of an image's recipes that run, each with the first mark sampled from a position on; a recipe converted only on a
trigger has its injection packets' tag and the mark of the position (R31, R260, R261). -/
def State.feFirst (s : State) (im : Image) (footpath : Bool) (pos : Nat) : List (Word × Nat) :=
  match im.fe with
  | none => []
  | some f => (f.pairs.filter fun p => !footpath || p.1.basic).map fun (r, e) =>
      (recipeTag r e.trigOnly, if e.trigOnly then pos / markAcc else s.firstTaken r e pos)

/-- The grid-driven recipes whose first outputs from a position on are not taken, because a conversion of the plan before holds
their modulator or their occupancy would have begun earlier (R261): tag, first mark not sampled, first mark sampled. -/
def State.feSkips (s : State) (im : Image) (footpath : Bool) (pos : Nat) : List (Word × Nat × Nat) :=
  match im.fe with
  | none => []
  | some f => (f.pairs.filter fun p => (!footpath || p.1.basic) && !p.2.trigOnly).filterMap fun (r, e) =>
      let a := firstPlanned r e pos
      let b := s.firstTaken r e pos
      if a < b then some (recipeTag r false, a, b) else none

end Sys2Proof.Machine
end

