-- ==== Sys2Proof/Machine/LineCode.lean ====
section
/-! DEFINITION. The 8b/10b code groups of a road (10_roads.md R264, R280): the encoder with its running disparity, and the
decoder with what it reports of a group. R264 takes the tables from IEEE 802.3 clause 36 and does not give them: PRESUMED,
assumption-log row 82. A group is written with its first bit, a, as the most significant of ten. -/

namespace Sys2Proof.Machine

/-- A code group on the line. -/
abbrev CodeGroup : Type := BitVec 10

/-- Six-bit code of the low five bits at negative running disparity. -/
def sixTable : List Nat :=
  [0x27, 0x1D, 0x2D, 0x31, 0x35, 0x29, 0x19, 0x38, 0x39, 0x25, 0x15, 0x34, 0x0D, 0x2C, 0x1C, 0x17,
   0x1B, 0x23, 0x13, 0x32, 0x0B, 0x2A, 0x1A, 0x3A, 0x33, 0x26, 0x16, 0x36, 0x0E, 0x2E, 0x1E, 0x2B]

/-- Four-bit code of the high three bits at negative running disparity. -/
def fourTable : List Nat := [0xB, 0x9, 0x5, 0xC, 0xD, 0xA, 0x6, 0xE]

/-- Ones among the low n bits. -/
def onesOf (n w : Nat) : Nat := ((List.range n).filter fun i => bitOf w i).length

/-- Running disparity, true when positive, after a sub-block of n bits (n 6 or 4), whether it is a valid one or not. -/
def disparityAfter (n w : Nat) (rd : Bool) : Bool :=
  let k := onesOf n w
  if n < 2 * k then true else if 2 * k < n then false
  else if w = (if n = 6 then 0x07 else 0x3) then true else if w = (if n = 6 then 0x38 else 0xC) then false else rd

/-- A sub-block of n bits for a running disparity, from its code at the negative one: unbalanced codes, and the balanced one
that begins with equal bits, come inverted at the positive one. -/
def subBlock (n w : Nat) (rd : Bool) : Nat :=
  if rd && (2 * onesOf n w != n || w == (if n = 6 then 0x38 else 0xC)) then 2 ^ n - 1 - w else w

/-- Six-bit code of x. -/
def sixOf (x : Nat) (rd : Bool) : Nat := subBlock 6 (nth sixTable x) rd

/-- The alternate code of y = 7, which avoids a run of five equal bits. -/
def alternate (x : Nat) (rd : Bool) : Bool := if rd then [11, 13, 14].contains x else [17, 18, 20].contains x

/-- Four-bit code of y after the six-bit code of x, at the disparity after that one. -/
def fourOf (x y : Nat) (rd : Bool) : Nat :=
  if y = 7 ∧ alternate x rd then (if rd then 0x8 else 0x7) else subBlock 4 (nth fourTable y) rd

/-- The group of two sub-blocks. -/
def groupOf (six four : Nat) : CodeGroup := BitVec.ofNat 10 (six * 16 + four)

/-- Running disparity after a group. -/
def groupDisparity (g : CodeGroup) (rd : Bool) : Bool := disparityAfter 4 (g.toNat % 16) (disparityAfter 6 (g.toNat / 16) rd)

/-- The data group of a byte. -/
def dataGroup (b : Byte) (rd : Bool) : CodeGroup :=
  let six := sixOf (b.toNat % 32) rd
  groupOf six (fourOf (b.toNat % 32) (b.toNat / 32) (disparityAfter 6 six rd))

/-- The special groups of R264 at negative running disparity: /K/ K28.5, /S/ K27.7, /T/ K29.7; inverted at the positive one. -/
def specials : List CodeGroup := [0x0FA, 0x368, 0x2E8]

/-- A special group: 0 /K/, 1 /S/, 2 /T/. -/
def specialGroup (k : Nat) (rd : Bool) : CodeGroup := if rd then ~~~(nth specials k) else nth specials k

/-- What the receiver sees in a group (R264, R280). -/
inductive Seen where
  | data (b : Byte) (wrong : Bool)
  | kay | start | stop
  | violation
  deriving DecidableEq, Repr, Inhabited

/-- The byte whose data group this is at a disparity. -/
def dataAt (g : CodeGroup) (rd : Bool) : Option Byte :=
  let (six, four) := (g.toNat / 16, g.toNat % 16)
  match (List.range 32).find? fun x => sixOf x rd == six with
  | none => none
  | some x => ((List.range 8).find? fun y => fourOf x y (disparityAfter 6 six rd) == four).map fun y => BitVec.ofNat 8 (y * 32 + x)

/-- One group read at a running disparity: a valid group of the other disparity keeps its value (R280). -/
def readGroup (g : CodeGroup) (rd : Bool) : Seen :=
  match dataAt g rd, dataAt g (!rd) with
  | some b, _ => .data b false
  | none, some b => .data b true
  | none, none =>
    if g = specialGroup 0 false ∨ g = specialGroup 0 true then .kay
    else if g = specialGroup 1 false ∨ g = specialGroup 1 true then .start
    else if g = specialGroup 2 false ∨ g = specialGroup 2 true then .stop
    else .violation

/-- A burst read from a running disparity on. -/
def readGroups : Bool → List CodeGroup → List Seen
  | _, [] => []
  | rd, g :: gs => readGroup g rd :: readGroups (groupDisparity g rd) gs

/-- The byte that a group decodes as, 0x00 where it is no data group, and whether it is a violation or a disparity error
(R280). -/
def Seen.byte : Seen → Byte × Bool
  | .data b w => (b, w)
  | _ => (0, true)

/-- The first frame of a burst: what follows /S/ up to /T/ or the end; none without /S/. Every burst starts with negative
running disparity (R264, R265). -/
def firstFrame (gs : List CodeGroup) : Option (List (Byte × Bool)) :=
  match (readGroups false gs).dropWhile (· != .start) with
  | [] => none
  | _ :: l => some ((l.takeWhile (· != .stop)).map Seen.byte)

/-- Groups with what follows them on the line: 0–2 the special groups, otherwise data. -/
def sendGroups : Bool → List (Nat ⊕ Byte) → List CodeGroup
  | _, [] => []
  | rd, x :: xs =>
    let g := match x with
      | .inl k => specialGroup k rd
      | .inr b => dataGroup b rd
    g :: sendGroups (groupDisparity g rd) xs

/-- A burst of frames on the line: a preamble of n /K/, then each frame as /S/, data groups and /T/ (R264, R265). -/
def burstGroups (n : Nat) (frames : List (List Byte)) : List CodeGroup :=
  sendGroups false (List.replicate n (.inl 0) ++ frames.flatMap fun f => [.inl 1] ++ f.map .inr ++ [.inl 2])

end Sys2Proof.Machine
end

