-- ==== Sys2Proof/Machine/Roads.lean ====
section
/-! DEFINITION. Roads (10_roads.md) and sampling in phase (11_in_phase.md): frames and commands, slots and sample words,
enumeration, echoes, latch offsets, losing and rejoining a node, and the ROAD-REPORT and NODE-TIMING records. -/

namespace Sys2Proof.Machine

/-! ### Access -/

/-- Road r. -/
def State.road (s : State) (r : Nat) : Road := nth s.roads r

/-- One road changed. -/
def State.onRoad (s : State) (r : Nat) (f : Road → Road) : State := { s with roads := s.roads.modify r f }

/-- One node changed. -/
def Road.onNode (rd : Road) (p : Nat) (f : Node → Node) : Road :=
  { rd with nodes := rd.nodes.map fun nd => if nd.pos = p then f nd else nd }

/-- One node of road r changed. -/
def State.onNode (s : State) (r p : Nat) (f : Node → Node) : State := s.onRoad r (·.onNode p f)

/-- The admitted node at a position (R276). -/
def Road.admittedAt (rd : Road) (p : Nat) : Option Node := rd.nodes.find? fun nd => nd.pos == p && nd.admitted

/-- The admitted nodes (R276). -/
def Road.admitted (rd : Road) : List Node := rd.nodes.filter (·.admitted)

/-- The node has a latch offset and a slot in force (R273, R279). -/
def Node.hasSlot (nd : Node) : Bool := nd.latch.isSome && nd.txoff.isSome

/-- The lowest position that is not admitted, 64 where every one is (R299). -/
def Road.lowestFree (rd : Road) : Nat := ((List.range 64).find? fun p => (rd.admittedAt p).isNone).getD 64

/-- The next position at or above p that is not admitted (R277, R300). -/
def Road.nextFree (rd : Road) (p : Nat) : Nat :=
  ((List.range 64).find? fun q => decide (p ≤ q) && (rd.admittedAt q).isNone).getD 64

/-- Road entry of an image (R281). -/
def Image.roadEntry (im : Image) (r : Nat) : Option RoadEntry := im.roads.find? (·.road == r)

/-- Node entry of an image (R282). -/
def Image.nodeEntry (im : Image) (r p : Nat) : Option NodeEntry :=
  (im.roadEntry r).bind fun e => e.nodes.find? (·.pos == p)

/-- The image whose node list counts on road r: the staged one while it is prepared (R283, R296). -/
def State.roadImage (s : State) (r : Nat) : Option Image :=
  if (s.road r).prep then (s.port.load.bind (·.staged)).or s.port.inForce else s.port.inForce

/-- Road r runs in the mode in force (R59, R343, R505). -/
def State.roadWanted (s : State) (r : Nat) : Bool :=
  s.running && decide (r < s.roadsEnabled) &&
    (s.inMode .highway || (s.inMode .lane && match s.planEntry with
      | some p => bitOf p.laneRoads r
      | none => false))

/-! ### Frames (R265–R270) -/

/-- One bit of CRC-16, most significant first (R270). -/
def crc16Bits : Nat → Nat → Nat
  | 0, c => c
  | k + 1, c => crc16Bits k (if 0x8000 ≤ c then (c * 2 ^^^ 0x1021) % 65536 else c * 2)

/-- CRC of road frames: polynomial 0x1021, initial value 0xFFFF, no reflection, no final exclusive-OR (R270). -/
def crc16 (bs : List Byte) : Nat := bs.foldl (fun c b => crc16Bits 8 (c ^^^ (b.toNat * 256))) 0xFFFF

/-- A frame with its CRC, least significant byte first (R270). -/
def withCrc (bs : List Byte) : List Byte := bs ++ leBytes 2 (crc16 bs)

/-- MARK (R268). -/
def markFrame (n : Nat) (epoch : Bool) (r echoPos hold : Nat) : List Byte :=
  withCrc ([0x11] ++ leBytes 2 n ++ leBytes 1 (at_ (b2n epoch) 3 + r) ++ leBytes 1 echoPos ++ leBytes 2 hold)

/-- CMD (R268). -/
def cmdFrame (pos seq : Nat) (c : Cmd) : List Byte :=
  withCrc ([0x21] ++ leBytes 1 pos ++ leBytes 1 seq ++ leBytes 1 c.op ++ leBytes 1 c.payload.length ++ c.payload)

/-- ENUM (R268). -/
def enumFrame (pos hold : Nat) : List Byte := withCrc ([0x31] ++ leBytes 1 pos ++ leBytes 2 hold)

/-- Length of a frame on the line, with /S/ and /T/, in ps: one group is 0.5 µs (R264, R278). -/
def framePs (f : List Byte) : Nat := (f.length + 2) * 500000

/-- The common instant after a grid mark, in ps (R16). -/
def commonPs : Int := 244140625

/-- T_M in ps (R267). -/
def Road.tM (rd : Road) : Int := commonPs - rd.dmax

/-- An interval in ps in units of 50 ns (R268), rounded. -/
def units50 (ps : Int) : Nat := (roundDiv ps 50000).toNat

/-- HOLD that brings a timing point back at 952.0 µs: from the instant t and for a one-way delay d, both ps (R267, R291). -/
def holdFor (t d : Int) : Nat := units50 (952000000 - t - 2 * d)

/-! ### Channels, slots and matching (R278, R279, R283, R347) -/

/-- A channel is due in mark n (R279). -/
def ChanEntry.dueIn (c : ChanEntry) (n : Nat) : Bool := n % 2 ^ (16 - c.rate) == c.phase

/-- M_p: the largest number of samples due in one mark (R278). -/
def sampleMax (cs : List ChanEntry) : Nat :=
  (cs.map fun c => (cs.filter fun d => d.dueIn c.phase).length).foldl max 0

/-- Positions with a slot and their M_p: while an image is prepared, those that its layout was staged with (R278, R296). -/
def Road.layout (rd : Road) : List (Nat × Nat) :=
  if rd.prep then rd.nodes.filterMap fun nd => nd.plan.map fun m => (nd.pos, m)
  else (rd.nodes.filter (·.wasAdmitted)).map fun nd => (nd.pos, nd.slotM)

/-- Start of the slot of position p, ps after the mark (R278). -/
def Road.slotStart (rd : Road) (p : Nat) : Int :=
  434000000 + (((rd.layout.filter fun x => x.1 < p).map fun x => (10 + 3 * x.2) * 500000).sum : Nat)

/-- Interval from latch instant to first preamble group that meets the slot, ps (R278). -/
def Road.txTarget (rd : Road) (nd : Node) : Int := rd.slotStart nd.pos + 500000 - commonPs - nd.pred

/-- A reported node against an entry: CAUSE of R287 (0 matches), and whether it takes the entry's channels (R283, R347). -/
def matchNode (e : Option NodeEntry) (uid : BitVec 64) (maker model nch : Nat) (reductions : Bool) : Nat × Bool :=
  match e with
  | none => (1, false)
  | some e =>
    if (e.maker = 0 ∨ e.maker = maker) ∧ (e.model = 0 ∨ e.model = model) ∧ e.chans.all (fun c => decide (c.ch < nch)) ∧
        (reductions ∨ e.chans.all (fun c => c.mode == 0)) then
      (if e.uid = 0 ∨ e.uid = uid then 0 else 2, true)
    else (3, false)

/-- The road's entry is STRICT (R281). -/
def Image.strict (im : Image) (r : Nat) : Bool :=
  match im.roadEntry r with
  | some e => e.strict
  | none => false

/-! ### Records (R287, R302) -/

/-- Words 4–15 of a ROAD-REPORT (R287). -/
def Road.reportWords (rd : Road) (r reason pos : Nat) (uid : BitVec 64) (maker model cause action : Nat) : List Word :=
  [word (at_ reason 24 + at_ r 21 + at_ rd.admitted.length 14 + at_ pos 8), word (satN 32 (rd.dmax.toNat / 1000)),
   word (satN 32 rd.viol), word (satN 32 rd.hdrFail), word (satN 32 rd.missing),
   word (at_ (satN 16 rd.cmdRetry) 16 + satN 16 rd.cmdFail), word (at_ (satN 16 rd.stray) 16 + satN 16 rd.epochLate),
   word (at_ (satN 16 rd.refused) 16 + satN 16 rd.nfault), word uid.toNat, word (uid.toNat / 2 ^ 32),
   word (at_ maker 16 + model), word (at_ cause 24 + at_ action 16)]

/-- Writes a ROAD-REPORT with reason 0x01 or 0x02. -/
def State.roadReport (s : State) (r reason : Nat) : State :=
  s.writeRec 0x15 s.mark ((s.road r).reportWords r reason 0 0 0 0 0 0)

/-- The counts of R287 since the previous periodic record begin again. -/
def Road.newPeriod (rd : Road) : Road :=
  { rd with viol := 0, hdrFail := 0, missing := 0, cmdRetry := 0, cmdFail := 0, stray := 0, epochLate := 0, refused := 0,
            nfault := 0 }

/-- Writes the ROAD-REPORT of a case of R283. -/
def State.compareReport (s : State) (r pos : Nat) (uid : BitVec 64) (maker model cause action : Nat) : State :=
  s.writeRec 0x15 s.mark ((s.road r).reportWords r 3 pos uid maker model cause action)

/-- Writes a NODE-TIMING record (R302) and starts the node's outlier count again. -/
def State.nodeTiming (s : State) (r : Nat) (nd : Node) (reason cause a b : Nat) (prev : Int) : State :=
  (s.writeRec 0x16 s.mark
    [word (at_ reason 24 + at_ r 21 + at_ nd.pos 15 + at_ cause 12), wordI nd.pred, word a, word b, wordI prev,
     wordI (s.road r).dmax, word (at_ (satN 16 nd.outliers) 16), 0]).onNode r nd.pos
    fun nd => { nd with outliers := 0 }

/-! ### Staging (R271, R289, R294, R295) -/

/-- A new command waits for a node; one of the same setting that is not yet sent is replaced (R295). -/
def Node.queueCmd (nd : Node) (c : Cmd) : Node :=
  { nd with queue := (nd.queue.filter fun q => !(q.op == c.op && (c.op != 4 || q.payload.head? == c.payload.head?))) ++ [c] }

/-- A staging command for a node. -/
def Road.stage (rd : Road) (p : Nat) (c : Cmd) : Road := { rd.onNode p (·.queueCmd c) with dirty := true }

/-- LATCH with offset l in ps (R271, R289). -/
def Road.stageLatch (rd : Road) (p : Nat) (l : Int) : Road :=
  (rd.stage p { op := 2, payload := leBytes 4 l.toNat }).onNode p fun nd => { nd with latchSt := some l }

/-- SLOT (R271, R278). -/
def Road.stageSlot (rd : Road) (p tx : Nat) : Road :=
  (rd.stage p { op := 3, payload := leBytes 2 tx }).onNode p fun nd => { nd with txoffSt := some tx }

/-- CHANNEL for a channel that is to run (R271). -/
def chanCmd (c : ChanEntry) : Cmd :=
  { op := 4, payload := leBytes 1 c.ch ++ leBytes 1 c.rate ++ leBytes 2 c.phase ++ leBytes 1 c.mode }

/-- CHANNEL that turns a channel off (R271). -/
def chanOff (ch : Nat) : Cmd := { op := 4, payload := leBytes 1 ch ++ [0xFF, 0, 0, 0] }

/-- D_max that will be in force (R295). -/
def Road.dNext (rd : Road) : Int := rd.dmaxSt.getD rd.dmax

/-- Farther apart than a limit. -/
def apart (a b lim : Int) : Bool := decide (lim < a - b) || decide (lim < b - a)

/-- A node's TXOFF restaged where the arrival has moved by more than 100 ns (R278). -/
def Road.restageSlot (rd : Road) (nd : Node) : Road :=
  match nd.txoffSt.or nd.txoff with
  | some tx => if apart (rd.txTarget nd) (tx * 50000 : Nat) 100000 then rd.stageSlot nd.pos (units50 (rd.txTarget nd)) else rd
  | none => rd

/-- A node's offsets restaged where they have moved: LATCH by more than 0.25 ns from the offset in force or staged, or at all where
D_max rises for a node that joins (R300); TXOFF as R278 says (R294). A node whose first offsets are not yet staged waits for
them. -/
def Road.restageNode (all : Bool) (rd : Road) (nd : Node) : Road :=
  match nd.latchSt.or nd.latch with
  | none => rd
  | some l =>
    let want := rd.dNext - nd.pred
    (if all || apart want l 250 then rd.stageLatch nd.pos want else rd).restageSlot nd

/-- Every admitted node restaged, where it must be or each one. -/
def Road.restage (rd : Road) (all : Bool) : Road := rd.admitted.foldl (Road.restageNode all) rd

/-- The toggle may come in the first MARK from n on by which every node has acknowledged (R295). -/
def Road.toggleFromMark (rd : Road) (n : Nat) : Road :=
  { rd with toggleFrom := some (match rd.toggleFrom with
      | some t => min t n
      | none => n) }

/-- D_new (R294): the largest prediction of the admitted nodes and of the lost ones that the list declares. -/
def Road.dNew (rd : Road) (declared : Nat → Bool) : Int :=
  ((rd.nodes.filter fun nd => nd.admitted || declared nd.pos).map (·.pred)).foldl max 0

/-- R294 applied: the next D_max, and the offsets it moves. A new D_max is itself staged for the toggle, also where no node's
offset moves with it (DEDUCED, assumption-log row 83). -/
def Road.newOffsets (rd : Road) (declared : Nat → Bool) : Road :=
  let d := rd.dNew declared
  let moves := decide (rd.dmax < d) || apart d rd.dmax 250
  { rd with dmaxSt := if moves then some d else none, dirty := rd.dirty || moves }.restage false

/-- The position has an entry in the node list that counts (R282). -/
def State.declared (s : State) (r : Nat) (p : Nat) : Bool :=
  match s.roadImage r with
  | some im => (im.nodeEntry r p).isSome
  | none => false

/-- A node compared with its position's entry in an image: CAUSE, ACTION, the channels it is to have, and its MAKER payload
(R282, R283). -/
def Image.compareNode (im : Image) (r : Nat) (nd : Node) : Nat × Nat × List ChanEntry × List Byte :=
  let e := im.nodeEntry r nd.pos
  let (cause, withCh) := matchNode e nd.uid nd.maker.toNat nd.model.toNat nd.nch (nd.caps.toNat % 2 == 1)
  let takes := withCh && (cause == 0 || !im.strict r)
  (cause, if takes then 2 else 1, if takes then (match e with
    | some e => e.chans
    | none => []) else [], if takes then (match e with
    | some e => e.mpay.take e.mlen
    | none => []) else [])

/-- MAKER for a node whose entry has a payload that was not the last one staged (R271, R282); one that no longer applies and is not
yet sent goes. -/
def Road.stageMaker (rd : Road) (nd : Node) (pay : List Byte) : Road :=
  if pay = nd.mpay then rd
  else if pay = [] then rd.onNode nd.pos fun x => { x with queue := x.queue.filter (·.op != 5), mpay := [] }
  else (rd.stage nd.pos { op := 5, payload := pay }).onNode nd.pos fun x => { x with mpay := pay }

/-- The first settings of an admitted node: LATCH, SLOT, CHANNEL and MAKER (R300). Where an image is prepared that has another
entry for the position, they belong to its commit (R20, R296). -/
def State.stageNode (s : State) (r : Nat) (nd : Node) : State :=
  let chans := nd.staged.getD []
  let pay := match s.roadImage r with
    | some im => (im.compareNode r nd).2.2.2
    | none => []
  let entryOf (o : Option Image) : Option NodeEntry := o.bind fun im => im.nodeEntry r nd.pos
  let other := entryOf (s.roadImage r) != entryOf s.port.inForce
  s.onRoad r fun rd =>
    let rd := { rd with staging := rd.staging || (rd.prep && other) }
    let rd := if rd.dNext < nd.pred then { rd with dmaxSt := some nd.pred }.restage true else rd.restage false
    let rd := rd.stageLatch nd.pos (rd.dNext - nd.pred)
    let rd := rd.stageSlot nd.pos (units50 (rd.txTarget nd))
    let rd := chans.foldl (fun rd c => rd.stage nd.pos (chanCmd c)) rd
    (rd.stageMaker nd pay).toggleFromMark s.mark

/-- The ROADS island has reported ready for a staged image (R274): from then to the commit mark it stages nothing more on a road
with commands of that commit, so that every one is acknowledged at the toggle (DEDUCED, assumption-log row 83). -/
def State.roadFrozen (s : State) (r : Nat) : Bool :=
  (s.road r).staging && match s.port.load with
    | some l => l.staged.isSome && l.ready.contains 4
    | none => false

/-- R294 applied to a road where it waits. -/
def Road.applyOffsets (rd : Road) (declared : Nat → Bool) : Road :=
  if rd.offsets then
    let rd := { rd with offsets := false }.newOffsets declared
    { rd with nodes := rd.nodes.map fun nd => { nd with stepDue := false } }
  else rd

/-- Offsets and first settings that waited are staged (R294, R295, R300). -/
def State.catchUp (s : State) (r : Nat) : State :=
  match (s.road r).deferred with
  | none => s
  | some t =>
    if s.roadFrozen r then s
    else
      let s := s.onRoad r fun rd =>
        let rd := { rd with deferred := none }.applyOffsets (s.declared r)
        if rd.dirty then rd.toggleFromMark t else rd
      ((s.road r).admitted.filter fun nd => nd.latch.isNone && nd.latchSt.isNone && nd.adm.isNone && nd.staged.isSome).foldl
        (fun s nd => s.stageNode r nd) s

/-- First settings, or offsets too, wait to be staged for a toggle from mark n on. -/
def Road.defer (rd : Road) (offsets : Bool) (n : Nat) : Road :=
  { rd with offsets := rd.offsets || offsets, deferred := some (match rd.deferred with
      | some t => min t n
      | none => n) }

/-- First settings, or offsets too, staged now, or as soon as the road may (R300, R301). -/
def State.stageSoon (s : State) (r : Nat) (offsets : Bool) : State := (s.onRoad r (·.defer offsets s.mark)).catchUp r

/-! ### Enumeration ends, losing a node (R277, R287, R298, R299) -/

/-- Enumeration ends. At road start the record is written and every node's settings are staged; mid-run the admission echoes
follow (R277, R287, R300). -/
def State.enumEnd (s : State) (r : Nat) : State :=
  let rd := s.road r
  let s := s.onRoad r fun rd =>
    { rd with enumPos := none, enumWait := false, enumRetry := false, unanswered := 0, tries := 0, midRun := false, started := true }
  if rd.started then s
  else
    (s.roadReport r 2).stageSoon r true

/-- The tag of a node's channel. -/
def Node.tags (r : Nat) (nd : Node) : List Word := nd.chans.map fun c => roadTag r nd.pos c

/-- The channels of a node stop: their packets close short and SAMPLING records name the first mark not sampled (R31, R299,
R338). -/
def State.stopNode (s : State) (r : Nat) (nd : Node) (cause mark : Nat) : State :=
  (nd.tags r).foldl (fun s t => (s.closeOpen t true).writeSampling 1 cause t mark) s

/-- Node p is declared lost (R299). -/
def State.loseNode (s : State) (r : Nat) (nd : Node) (cause : Nat) : State :=
  let s := s.stopNode r nd 2 (s.mark + 1)
  let s := s.onNode r nd.pos fun nd =>
    { nd with admitted := false, chans := [], staged := none, latch := none, latchSt := none, txoff := none, txoffSt := none
              queue := [], cur := none, adm := none, outRun := none, lateFrom := none, stepDue := false, mpay := [], join := 0, justMode := [], got := [] }
  let s := s.nodeTiming r nd 1 cause nd.lastSlot (s.mark + 1) 0
  let declared := match s.port.inForce with
    | some im => (im.nodeEntry r nd.pos).isSome
    | none => false
  let s := s.onRoad r fun rd =>
    { rd with lostDecl := if declared && !rd.lostDecl.contains nd.pos then rd.lostDecl ++ [nd.pos] else rd.lostDecl
              echoRetry := if rd.echoRetry == some nd.pos then none else rd.echoRetry
              ackPos := if rd.ackPos == some nd.pos then none else rd.ackPos }
  if (s.road r).admitNext = some nd.pos then (s.onRoad r fun rd => { rd with admitNext := none }).enumEnd r else s

/-- NODE_LOST (R298): 64 marks in a row without /S/ in the node's slot. -/
def doNodeLost (r p : Nat) (s : State) : State :=
  match (s.road r).admittedAt p with
  | some nd => if nd.hasSlot && decide (64 ≤ nd.empty) then s.loseNode r nd 1 else s
  | none => s

def execNodeLost (r : Fin 8) (pos : Fin 64) (s : State) : Result := .next (doNodeLost r.val pos.val s)

/-! ### Starting and stopping a road (R277, R343, R514) -/

/-- A staged image that changes section 0x04 is being prepared (R283, R296). -/
def State.roadsPrepare (s : State) : Bool :=
  match s.port.load.bind (·.staged), s.port.inForce with
  | some im, some old => rawSect im.raw 4 != rawSect old.raw 4
  | _, _ => false

/-- ROAD_START (R277): 1.05 s after the last MARK, or after m0, the road begins to launch and to enumerate; where an image is being
prepared, by its node list (R283, R296). -/
def doRoadStart (r : Nat) (s : State) : State :=
  let rd := s.road r
  if s.roadWanted r && !rd.on && decide (rd.stopAt + msPs 1050 ≤ s.now) then
    s.onRoad r fun rd =>
      { rd with on := true, nodes := [], enumPos := some 0, enumWait := false, enumRetry := false, unanswered := 0, tries := 0
                midRun := false, started := false, admitNext := none, echoPos := none, echoRetry := none, ackPos := none
                dmax := 0, dmaxSt := none, toggleFrom := none, imgCommit := none, prep := s.roadsPrepare, staging := false
                cycle := s.mark / 1024, offsets := false, deferred := none, dirty := false }
  else s

def execRoadStart (r : Fin 8) (s : State) : Result := .next (doRoadStart r.val s)

/-- Road r stops at a mark: its channels stop with a cause, and it launches nothing until it starts again (R277, R343, R514,
R517, R520). -/
def State.stopRoad (s : State) (r cause mark : Nat) : State :=
  let s := (s.road r).admitted.foldl (fun s nd => s.stopNode r nd cause mark) s
  s.onRoad r fun rd =>
    { rd with on := false, nodes := [], enumPos := none, enumWait := false, admitNext := none, echoPos := none
              echoRetry := none, ackPos := none, dmaxSt := none, toggleFrom := none, imgCommit := none, prep := false
              staging := false, offsets := false, deferred := none, dirty := false, cause := cause }

/-! ### EPOCH toggles (R271, R274, R295, R300, R301) -/

/-- Every admitted node has acknowledged all of its staged commands (R274); ADMIT is none (R271). -/
def Road.allAcked (rd : Road) : Bool :=
  rd.admitted.all fun nd => nd.queue.all (·.op == 1) && (match nd.cur with
    | some (c, _) => c.op == 1
    | none => true)

/-- A toggle is due in the MARK of n (R274, R295, R296). -/
def Road.toggleDue (rd : Road) (n : Nat) : Bool :=
  if rd.staging then false
  else match rd.imgCommit with
    | some m => rd.allAcked && decide (m ≤ n)
    | none => rd.dirty && rd.allAcked && match rd.toggleFrom with
      | some t => decide (t ≤ n)
      | none => false

/-- Channels of one list that the other does not number. -/
def chansNotIn (a b : List ChanEntry) : List ChanEntry := a.filter fun c => !(b.any fun d => d.ch == c.ch)

/-- Channels that the new list changes or adds. -/
def chansNew (old new : List ChanEntry) : List ChanEntry := new.filter fun c => !(old.contains c)

/-- One node takes its staged bank into force with the MARK of n (R271): its channels stop and resume with the records of R31,
and a node that joined mid-run is reported (R300). -/
def State.toggleNode (s : State) (r : Nat) (commit : Bool) (nd : Node) : State :=
  if nd.latch.isNone && nd.latchSt.isNone then s
  else
    let n := s.mark
    let old := nd.chans
    let new := nd.staged.getD old
    let cause := if nd.join = 2 then 2 else if nd.join = 1 then (s.road r).cause else 3
    let s := (chansNotIn old new).foldl (fun s c =>
      (s.closeOpen (roadTag r nd.pos c) true).writeSampling 1 (if commit then 3 else cause) (roadTag r nd.pos c) n) s
    let s := (old.filter fun c => !new.contains c).foldl (fun s c => s.closeOpen (roadTag r nd.pos c) true) s
    let s := (chansNotIn new old).foldl (fun s c => s.writeSampling 2 cause (roadTag r nd.pos c) n) s
    let s := s.onNode r nd.pos fun nd =>
      { nd with chans := new, staged := none, latch := nd.latchSt.or nd.latch, latchSt := none
                txoff := nd.txoffSt.or nd.txoff, txoffSt := none, lateFrom := if nd.stepDue then nd.lateFrom else none, join := 0
                justMode := nd.justMode ++ ((chansNew old new).filter (·.mode != 0)).map (·.ch) }
    if nd.join = 2 then s.nodeTiming r nd 2 0 nd.joinMark n 0 else s

/-- A declared position is admitted and sampling: it has a slot in force, and channels where its entry has some (R299). -/
def Road.samples (rd : Road) (e : NodeEntry) : Bool :=
  match rd.admittedAt e.pos with
  | some nd => nd.hasSlot && (e.chans.isEmpty || !nd.chans.isEmpty)
  | none => false

/-- Fault bit 6 clears once every declared position is admitted and sampling (R299). -/
def State.clearLost (s : State) (r : Nat) : State :=
  let decl := match s.port.inForce.bind fun im => im.roadEntry r with
    | some (e : RoadEntry) => e.nodes
    | none => []
  s.onRoad r fun rd => if decl.all rd.samples then { rd with lostDecl := [] } else rd

/-- EPOCH toggles where a toggle is due. -/
def State.toggleRoad (s : State) (r : Nat) : State :=
  let rd := s.road r
  if rd.toggleDue s.mark then
    let commit := rd.imgCommit.isSome
    let s := s.onRoad r fun rd =>
      { rd with epoch := !rd.epoch, dmax := rd.dNext, dmaxSt := none, toggleFrom := none, imgCommit := none, dirty := false }
    (rd.admitted.foldl (fun s nd => s.toggleNode r commit nd) s).clearLost r
  else s

/-! ### The downstream burst (R267, R273, R275, R291) -/

/-- The CMD that a node gets in mark n: a new one, or one sent again, with the count of sendings (R272, R273). -/
def Node.sendCmd (nd : Node) (n : Nat) : Option (Node × Bool × List Byte) :=
  match nd.cur with
  | some (c, sq, k, m) =>
    if (nd.hasSlot && decide (n < m + 2)) || decide (n ≤ m) then none
    else some ({ nd with cur := some (c, sq, k + 1, n) }, true, cmdFrame nd.pos sq c)
  | none =>
    match nd.queue with
    | [] => none
    | c :: q =>
      let sq := nd.seq % 255 + 1
      some ({ nd with seq := sq, queue := q, cur := some (c, sq, 1, n) }, false, cmdFrame nd.pos sq c)

/-- Sends the command of the node at p. -/
def Road.sendTo (rd : Road) (n p : Nat) : Road × List (List Byte) :=
  match (rd.admittedAt p).bind (·.sendCmd n) with
  | none => (rd, [])
  | some (nd, again, f) => ({ rd.onNode p fun _ => nd with cmdRetry := rd.cmdRetry + b2n again }, [f])

/-- The positions whose nodes have a CMD to get in mark n, those with a slot or those without. -/
def Road.cmdPositions (rd : Road) (n : Nat) (slot : Bool) : List Nat :=
  let l := (rd.admitted.filter fun nd => nd.hasSlot == slot && (nd.sendCmd n).isSome).map (·.pos)
  match rd.admitNext with
  | some p => if l.contains p then p :: l.filter (· != p) else l
  | none => l

/-- Up to two CMD frames, at most one of them to a node without a slot, whose ACK the echo window then waits for (R267,
R275). -/
def Road.pickCmds (rd : Road) (n : Nat) : Road × List (List Byte) × Option Nat :=
  let ack := (rd.cmdPositions n false).head?
  let (rd, fs) := match ack with
    | some p => rd.sendTo n p
    | none => (rd, [])
  let (rd, fs) := ((rd.cmdPositions n true).take (2 - fs.length)).foldl
    (fun (a : Road × List (List Byte)) p => let (rd, f) := a.1.sendTo n p; (rd, a.2 ++ f)) (rd, fs)
  (rd, fs, ack)

/-- The position that the ENUM of mark n offers (R277): the next one while enumeration runs, otherwise the lowest free one
in every mark whose index modulo 1024 is 512. -/
def Road.enumOffer (rd : Road) (n : Nat) : Option Nat :=
  match rd.enumPos with
  | some p => if rd.admitNext.isNone && decide (p < 64) then some p else none
  | none => if rd.started && n % 1024 == 512 && decide (rd.lowestFree < 64) then some rd.lowestFree else none

/-- The node whose ECHO mark n plans: a request repeated, a confirmation, an admission echo, or the schedule (R275, R291,
R292, R300). -/
def Road.echoPlan (rd : Road) (r n : Nat) : Option Nat :=
  match rd.echoRetry.filter fun p => (rd.admittedAt p).isSome with
  | some p => some p
  | none =>
    match rd.admitted.find? (fun nd => nd.outRun.isSome) with
    | some (nd : Node) => some nd.pos
    | none =>
      match (if rd.enumPos.isNone then rd.admitted.find? fun nd => nd.adm.isSome else none : Option Node) with
      | some (nd : Node) => some nd.pos
      | none => (rd.admittedAt ((n + 128 - r - 1) % 64)).map Node.pos

/-- Delay that the HOLD of an ENUM assumes: 1.15 µs beyond the last admitted node, 0 at position 0 (R277). -/
def Road.enumDelay (rd : Road) (p : Nat) : Int :=
  match ((rd.admitted.filter fun nd => nd.pos < p).map (·.delay)).getLast? with
  | some d => d + 1150000
  | none => 0

/-- The burst of mark n, with everything the hub must remember of it (R265, R267). -/
def Road.launch (rd : Road) (r n : Nat) (markPs : Nat) : Road :=
  let (rd, cmds, ack) := rd.pickCmds n
  let enum := if ack.isNone then rd.enumOffer n else none
  let echo := if ack.isNone && enum.isNone then rd.echoPlan r n else none
  let tM := rd.tM
  let echoHold := match echo.bind rd.admittedAt with
    | some nd => holdFor tM nd.pred
    | none => 0
  let mark := markFrame n rd.epoch r (echo.getD 0xFF) echoHold
  let tE := tM + (((mark :: cmds).map framePs).sum : Nat)
  let enumHold := match enum with
    | some p => holdFor tE (rd.enumDelay p)
    | none => 0
  let frames := mark :: cmds ++ (match enum with
    | some p => [enumFrame p enumHold]
    | none => [])
  { rd with
    burst := frames, line := burstGroups 6 frames
    launched := some n, stopAt := markPs + tM.toNat, launchAt := (tM / 100).toNat, enumAt := (tE / 100).toNat
    hold := if enum.isSome then enumHold else echoHold
    ackPos := ack, enumPos := enum.or rd.enumPos, enumWait := enum.isSome, enumRetry := false
    echoPos := echo, echoRetry := if echo.isSome then none else rd.echoRetry }

/-! ### The end of a measurement cycle (R293–R295, R298) -/

/-- Mean of a list of delays in ps. -/
def meanPs (l : List Int) : Int := if l.isEmpty then 0 else roundDiv l.sum l.length

/-- Cycle mean and prediction of a node (R293), and its count of cycles without a valid echo (R298). -/
def Node.endCycle (nd : Node) (c : Nat) : Node :=
  let nd' := if 4 ≤ nd.got.length then
      let m := meanPs nd.got
      let p := match nd.means.find? (fun x => x.1 + 4 == c) with
        | some (_, old) => m + (m - old) / 2
        | none => m
      { nd with delay := p, pred := p, means := ((c, m) :: nd.means).take 5 }
    else nd
  { nd' with got := [], echoed := false
             noEcho := if nd.echoed || decide (1024 * c < nd.joinMark) then 0 else nd.noEcho + 1 }

/-- The end of the cycle in progress (R293, R294, R298): predictions and losses. What D_new moves is staged from the next mark
on, after a toggle that falls due there, for a toggle at the start of the cycle after next (R295). -/
def State.cycleEnd (s : State) (r : Nat) : State :=
  let c := (s.road r).cycle
  let s := s.onRoad r fun rd =>
    { rd with cycle := c + 1, nodes := rd.nodes.map fun nd => if nd.admitted then nd.endCycle c else nd }
  let s := ((s.road r).admitted.filter fun nd => decide (2 ≤ nd.noEcho)).foldl (fun s nd => s.loseNode r nd 3) s
  if (s.road r).started then s.onRoad r (·.defer true (1024 * (c + 2))) else s

/-- A cycle whose last mark a step of TB-G has skipped ends with the first MARK after the step (R374; DEDUCED, assumption-log row
83). -/
def State.cycleSkipped (s : State) (r : Nat) : State :=
  if (s.road r).cycle < s.mark / 1024 then (s.cycleEnd r).onRoad r fun rd => { rd with cycle := s.mark / 1024 } else s

/-- CLK25 time of the grid mark in progress, ps. -/
def State.markPs (s : State) : Nat := s.now - s.time.gAcc / 10 ^ 12

/-- MARK_LAUNCH (R267): once in a mark, with the toggle due (R295). -/
def doMarkLaunch (r : Nat) (s : State) : State :=
  let rd := s.road r
  if rd.on && s.roadWanted r && rd.launched != some s.mark then
    let s := ((s.cycleSkipped r).toggleRoad r).catchUp r
    let s := if (s.road r).enumPos = some 64 ∧ (s.road r).admitNext = none then s.enumEnd r else s
    s.onRoad r fun rd => rd.launch r s.mark s.markPs
  else s

def execMarkLaunch (r : Fin 8) (s : State) : Result := .next (doMarkLaunch r.val s)

/-- The road launched a MARK in the mark in progress. -/
def State.launchedNow (s : State) (r : Nat) : Bool := (s.road r).on && (s.road r).launched == some s.mark

/-! ### Upstream frames (R266, R269, R270) -/

/-- The position in byte 0 of an upstream frame (R269). -/
def upPos (bs : List Byte) : Nat := (nth bs 0).toNat % 64

/-- A frame of the echo window of a kind and a length with its CRC (R269): its bytes, and whether the CRC is good; none where
the window holds no /S/, or a good frame of another kind. A frame that is too short fails its CRC. -/
def readUp (kind len : Nat) (rx : UpRx) : Option (List Byte × Bool) :=
  match firstFrame rx.groups with
  | none => none
  | some gs =>
    let bs := (gs.map (·.1)).take len
    let good := bs.length == len && bs == withCrc (bs.take (len - 2))
    if good && (nth bs 0).toNat / 64 != kind then none else some (bs, good)

/-! ### Acknowledgement (R272, R273) -/

/-- A good ACK and STAT from a node: the outstanding command is done where ACK shows its SEQ; a refused one is counted. The
ADMIT of an enumeration lets the next ENUM go (R277). -/
def Road.acked (rd : Road) (nd : Node) (ack : Nat) (stat : BitVec 8) : Road :=
  let rd := rd.onNode nd.pos fun nd => { nd with acked := ack }
  match nd.cur with
  | some (c, sq, _, _) =>
    if ack = sq then
      { rd.onNode nd.pos fun nd => { nd with cur := none } with
        refused := rd.refused + b2n (bitOf stat.toNat 4)
        admitNext := if c.op = 1 ∧ rd.admitNext = some nd.pos then none else rd.admitNext }
    else rd
  | none => rd

/-- ACK_FRAME (R273): in the echo window of a mark in which the hub addressed the node whose position the frame shows. A burst
outside the window (R267), and what comes in the window before and after the burst, is counted in STRAY (R280). -/
def doAckFrame (r : Nat) (before : Nat) (rx : UpRx) (after : Nat) (s : State) : State :=
  if s.launchedNow r then
    let inside := decide (9480000 ≤ rx.arrive) && decide (rx.arrive ≤ 9720000)
    let s := s.onRoad r fun rd => { rd with stray := rd.stray + before + after + (if inside then 0 else rx.groups.length) }
    match if inside then readUp 0 5 rx else none with
    | none => s
    | some (bs, good) =>
      if good then
        match (s.road r).admittedAt (upPos bs) with
        | some nd =>
          if (s.road r).ackPos = some (upPos bs) then s.onRoad r fun rd => rd.acked nd (nth bs 1).toNat (nth bs 2) else s
        | none => s
      else s.onRoad r fun rd => { rd with hdrFail := rd.hdrFail + 1 }
  else s

def execAckFrame (r : Fin 8) (before : Nat) (groups : List (BitVec 10)) (arrive after : Nat) (s : State) : Result :=
  .next (doAckFrame r.val before { groups := groups, arrive := arrive } after s)

/-! ### Slots (R279, R280, R301, R346) -/

/-- What a slot gives (R280): whether /S/ came, whether the header CRC is good, ACK, STAT, the samples with the number of their
groups in violation, and the groups discarded. -/
structure SlotIn where
  present : Bool
  crcGood : Bool
  ack     : Nat
  stat    : Byte
  samples : List (BitVec 24 × Nat)
  stray   : Nat
  deriving DecidableEq, Repr, Inhabited

/-- A sample of three groups (R269, R280). -/
def sampleOf (g : List (Byte × Bool)) : BitVec 24 × Nat := (BitVec.ofNat 24 (leNat (g.map (·.1))), (g.filter (·.2)).length)

/-- A slot read for a number of due samples (R269, R270, R280): the frame is taken by its place, whatever byte 0 says; a sample
without all of its three groups is missing. -/
def readSlot (rx : SlotRx) (due : Nat) : SlotIn :=
  match firstFrame rx.groups with
  | none => { present := false, crcGood := false, ack := 0, stat := 0, samples := [], stray := rx.stray }
  | some gs =>
    let head := (gs.take 5).map (·.1)
    { present := true, crcGood := head.length == 5 && head == withCrc (head.take 3), ack := (nth head 1).toNat, stat := nth head 2
      samples := ((chunks 3 ((gs.drop 5).take (3 * due))).filter (·.length == 3)).map sampleOf
      stray := rx.stray + ((gs.drop 5).length - 3 * due) }

/-- Codes that every word of a frame carries (R280, R301). -/
def slotCodes (rx : SlotIn) (epoch : Bool) (late : Bool) : List Nat :=
  if rx.present then
    (if rx.crcGood then
      [codeIf (bitOf rx.stat.toNat 5 != epoch) 0x31, codeIf (bitOf rx.stat.toNat 7) 0x11]
    else [0x31]) ++ [codeIf late 0x40]
  else [0x31, codeIf late 0x40]

/-- The word of the i-th due sample (R10, R280). -/
def slotWord (rx : SlotIn) (i : Nat) (codes : List Nat) (fresh : Bool) : Word :=
  let got := if rx.present then rx.samples[i]? else none
  match got with
  | some (v, bad) => sampleWord v.toInt (worstCode (codes ++ [codeIf (bad != 0) 0x31, codeIf fresh 0x11]))
  | none => sampleWord 0 (worstCode (codes ++ [0x31, codeIf fresh 0x11]))

/-- What a SLOT frame changes at its node and in the counts (R280, R287, R298). -/
def Road.slotSeen (rd : Road) (nd : Node) (rx : SlotIn) (n : Nat) : Road :=
  let good := rx.present && rx.crcGood
  let rd := { rd with
    viol := rd.viol + (rx.samples.map fun (x : BitVec 24 × Nat) => x.2).sum
    hdrFail := rd.hdrFail + b2n (rx.present && !rx.crcGood), missing := rd.missing + b2n (!rx.present)
    stray := rd.stray + rx.stray
    epochLate := rd.epochLate + b2n (good && bitOf rx.stat.toNat 5 != rd.epoch)
    nfault := rd.nfault + b2n (good && bitOf rx.stat.toNat 6) }
  let rd := rd.onNode nd.pos fun nd =>
    if rx.present then { nd with empty := 0, lastSlot := n } else { nd with empty := nd.empty + 1 }
  if good then rd.acked nd rx.ack rx.stat else rd

/-- SLOT_FRAME (R280): attributed by its slot; the node's due words, each with its code. -/
def doSlotFrame (r p : Nat) (rx : SlotRx) (s : State) : State :=
  match if s.launchedNow r then (s.road r).admittedAt p else none with
  | none => s.onRoad r fun rd => { rd with stray := rd.stray + rx.stray }
  | some nd =>
    if nd.hasSlot then
      let n := s.mark
      let due := nd.chans.filter (·.dueIn n)
      let late := match nd.lateFrom with
        | some f => decide (f ≤ n)
        | none => false
      let rx := readSlot rx due.length
      let codes := slotCodes rx (s.road r).epoch late
      let s := s.onRoad r fun rd => rd.slotSeen nd rx n
      let s := s.onNode r p fun nd => { nd with justMode := nd.justMode.filter fun ch => !(due.any fun c => c.ch == ch) }
      due.zipIdx.foldl (fun s (c, i) =>
        s.putBlock r (roadTag r p c) n (n / 2 ^ (16 - c.rate) % c.pktSamples) c.pktSamples 1
          [slotWord rx i codes (nd.justMode.contains c.ch)]) s
    else s.onRoad r fun rd => { rd with stray := rd.stray + rx.stray }

def execSlotFrame (r : Fin 8) (pos : Fin 64) (rx : SlotRx) (s : State) : Result := .next (doSlotFrame r.val pos.val rx s)

/-! ### Echoes (R290–R292, R300, R301) -/

/-- All within a span of 10 ns (R292). -/
def spanOk (l : List Int) : Bool := decide (l.foldl max (l.headD 0) - l.foldl min (l.headD 0) ≤ 10000)

/-- The delay differs from the prediction by more than 20 ns (R292). -/
def Node.outlier (nd : Node) (d : Int) : Bool := apart d nd.pred 20000

/-- Delay that an ECHO gives, in ps (R290). -/
def Road.echoDelay (rd : Road) (rx : UpRx) : Int :=
  (((rx.arrive * 100 : Nat) : Int) - (rd.launchAt * 100 : Nat) - (rd.hold * 50000 : Nat)) / 2

/-- An ECHO with a good CRC is valid (R292): the position asked, MARKB, and the echo window. -/
def echoValid (bs : List Byte) (arrive p n : Nat) : Bool :=
  upPos bs == p && (nth bs 1).toNat == n % 256 && decide (9480000 ≤ arrive) && decide (arrive ≤ 9720000)

/-- A delay step is accepted (R301). -/
def State.delayStep (s : State) (r : Nat) (nd : Node) (ds : List Int) : State :=
  let m := meanPs ds
  let s := s.onNode r nd.pos fun nd =>
    { nd with delay := m, pred := m, means := [], got := [], outRun := none, lateFrom := some (s.mark + 1), stepDue := true }
  let s := (s.onRoad r fun rd => { rd with dirty := true }).stageSoon r true
  match (s.road r).admittedAt nd.pos with
  | some nd' => s.nodeTiming r nd' 3 0 nd.agree nd.outMark nd.pred
  | none => s

/-- A confirmation echo, none where it was not valid (R292); one that is no outlier counts in its cycle (R293). -/
def State.confirmEcho (s : State) (r : Nat) (nd : Node) (l : List Int) (k : Nat) (d : Option Int) : State :=
  let l := l ++ d.toList
  let s := s.onNode r nd.pos fun x =>
    { x with echoed := x.echoed || d.isSome
             agree := match d with
               | some v => if nd.outlier v then x.agree else s.mark
               | none => x.agree
             got := (d.toList.filter fun v => !nd.outlier v) ++ x.got }
  if 1 < k then s.onNode r nd.pos fun nd => { nd with outRun := some (l, k - 1) }
  else if l.length = 4 ∧ spanOk l then
    match (s.road r).admittedAt nd.pos with
    | some x => s.delayStep r x l
    | none => s
  else
    s.onNode r nd.pos fun x =>
      { x with outRun := none, outliers := x.outliers + (l.filter nd.outlier).length }

/-- An admission echo, none where it was not valid (R300): eight valid ones settle the delay; two rounds without lose the
node. -/
def State.admitEcho (s : State) (r : Nat) (nd : Node) (l : List Int) (sent round : Nat) (d : Option Int) : State :=
  let l := l ++ d.toList
  let s := s.onNode r nd.pos fun x =>
    { x with echoed := x.echoed || d.isSome, adm := some (l, sent + 1, round), got := (d.toList.filter fun v => !nd.outlier v) ++ x.got }
  if sent + 1 < 8 then s
  else if l.length = 8 then
    let m := meanPs l
    let s := s.onNode r nd.pos fun x => { x with adm := none, delay := m, pred := m, agree := s.mark }
    s.stageSoon r false
  else if round = 1 then s.onNode r nd.pos fun x => { x with adm := some ([], 0, 2) }
  else s.loseNode r nd 3

/-- A valid planned echo: an outlier starts its confirmations, any other counts in the cycle (R292, R293). -/
def State.plannedEcho (s : State) (r : Nat) (nd : Node) (d : Int) : State :=
  s.onNode r nd.pos fun x =>
    if nd.outlier d then { x with echoed := true, outRun := some ([d], 3), outMark := s.mark }
    else { x with echoed := true, got := d :: x.got, agree := s.mark }

/-- The echo asked of a node has come, or has not (R292, R300). -/
def State.echoResult (s : State) (r : Nat) (nd : Node) (d : Option Int) : State :=
  match nd.outRun with
  | some (l, k) => s.confirmEcho r nd l k d
  | none =>
    match nd.adm with
    | some (l, sent, round) => if (s.road r).enumPos.isNone then s.admitEcho r nd l sent round d else s
    | none => match d with
      | some v => s.plannedEcho r nd v
      | none => s

/-- ECHO_FRAME (R292): one with a bad CRC is discarded. A planned ECHO is then asked for again (R275); a confirmation or an
admission echo counts as one that is not valid (R292, R300). -/
def doEchoFrame (r : Nat) (rx : UpRx) (s : State) : State :=
  match if s.launchedNow r then (s.road r).echoPos else none, readUp 2 4 rx with
  | some p, some (bs, good) =>
    let s' := s.onRoad r fun rd => { rd with echoPos := none, hdrFail := rd.hdrFail + b2n (!good) }
    match (s.road r).admittedAt p with
    | some nd =>
      if !good && nd.outRun.isNone && nd.adm.isNone then s'.onRoad r fun rd => { rd with echoRetry := some p }
      else s'.echoResult r nd (if good && echoValid bs rx.arrive p s.mark then some ((s.road r).echoDelay rx) else none)
    | none => s'
  | _, _ => s

def execEchoFrame (r : Fin 8) (rx : UpRx) (s : State) : Result := .next (doEchoFrame r.val rx s)

/-! ### Enumeration (R275–R277, R283, R300) -/

/-- One ENUM more without an accepted reply: four unanswered or sixteen not accepted end the enumeration; an offer is over at
once (R277). -/
def State.enumMiss (s : State) (r : Nat) (answered : Bool) : State :=
  let s := s.onRoad r fun rd =>
    { rd with enumWait := false, unanswered := if answered then 0 else rd.unanswered + 1, tries := rd.tries + 1 }
  let rd := s.road r
  if rd.started && !rd.midRun && !rd.enumRetry then
    s.onRoad r fun rd => { rd with enumPos := none, unanswered := 0, tries := 0 }
  else if 4 ≤ rd.unanswered ∨ 16 ≤ rd.tries then s.enumEnd r
  else s

/-- What an ENUM reply reports (R269). -/
structure EnumIn where
  uid   : BitVec 64
  maker : BitVec 16
  model : BitVec 16
  nch   : Nat
  caps  : BitVec 8
  hwrev : BitVec 8
  deriving DecidableEq, Repr, Inhabited

/-- The fields of an ENUM reply (R269). -/
def enumIn (bs : List Byte) : EnumIn :=
  let at_ (i n : Nat) : Nat := leNat ((bs.drop i).take n)
  { uid := BitVec.ofNat 64 (at_ 1 8), maker := BitVec.ofNat 16 (at_ 9 2), model := BitVec.ofNat 16 (at_ 11 2), nch := at_ 13 1,
    caps := nth bs 14, hwrev := nth bs 15 }

/-- The node is admitted at p: its ADMIT waits, and its channels are the entry's or none (R276, R283, R300). A position admitted
before takes its old slot back, whatever its channels (R278). -/
def Road.joinNode (rd : Road) (p n : Nat) (rx : EnumIn) (delay : Int) (chans : List ChanEntry) : Road :=
  let old := rd.nodes.find? (·.pos == p)
  let slot := match old with
    | some nd => if nd.wasAdmitted then nd.slotM else sampleMax chans
    | none => sampleMax chans
  let nd : Node :=
    { pos := p, admitted := true, wasAdmitted := true, uid := rx.uid, maker := rx.maker, model := rx.model, nch := rx.nch
      caps := rx.caps, chans := [], staged := some chans, slotM := slot, mpay := [], stepDue := false
      plan := if rd.prep then some (((old.bind (·.plan)).getD (sampleMax chans))) else none, delay := delay, pred := delay
      means := [], got := [], latch := none, latchSt := none, txoff := none, txoffSt := none, seq := 0, acked := 0
      queue := [{ op := 1, payload := leBytes 2 (holdFor rd.tM delay) }], cur := none, empty := 0, lastSlot := n, noEcho := 0
      echoed := false, outRun := none, outMark := 0, agree := n, outliers := 0
      adm := if rd.started then some ([], 0, 1) else none, joinMark := n, lateFrom := none, justMode := []
      join := if rd.started then 2 else 1 }
  let nodes := (rd.nodes.filter fun x => decide (x.pos < p)) ++ [nd] ++ rd.nodes.filter fun x => decide (p < x.pos)
  let rd := { rd with nodes := nodes }
  { rd with admitNext := some p, enumPos := some (rd.nextFree (p + 1)), enumWait := false, enumRetry := false
            unanswered := 0, tries := 0, midRun := rd.started }

/-- A good reply in time: the delay and the entry decide (R277, R283, R347). -/
def State.enumGood (s : State) (r p : Nat) (rx : EnumIn) (arrive : Nat) : State :=
  let rd := s.road r
  let delay : Int := (((arrive * 100 : Nat) : Int) - (rd.enumAt * 100 : Nat) - (rd.hold * 50000 : Nat)) / 2
  if 150000000 < delay then s.enumEnd r
  else
    let im := s.roadImage r
    let entry := im.bind fun i => i.nodeEntry r p
    let strict := match im with
      | some i => i.strict r
      | none => false
    let (cause, withCh) := matchNode entry rx.uid rx.maker.toNat rx.model.toNat rx.nch (rx.caps.toNat % 2 == 1)
    let ok := cause = 0 ∨ strict = false
    let s := if cause = 0 then s else
      s.compareReport r p rx.uid rx.maker.toNat rx.model.toNat cause (if ok then (if withCh then 2 else 1) else 0)
    if ok then
      let chans := if withCh then (match entry with
        | some e => e.chans
        | none => []) else []
      s.onRoad r fun rd => rd.joinNode p s.mark rx delay chans
    else s.enumEnd r

/-- ENUM_REPLY (R277): accepted between 948.0 and 961.0 µs, from the position offered; one with a bad CRC is asked for again
(R275). -/
def doEnumReply (r : Nat) (rx : UpRx) (s : State) : State :=
  let rd := s.road r
  match if s.launchedNow r && rd.enumWait then rd.enumPos else none, readUp 3 18 rx with
  | some p, some (bs, good) =>
    if good then
      if 9480000 ≤ rx.arrive ∧ rx.arrive ≤ 9610000 ∧ upPos bs = p then s.enumGood r p (enumIn bs) rx.arrive
      else if 9480000 ≤ rx.arrive ∧ rx.arrive ≤ 9720000 then s.enumMiss r true
      else s
    else (s.onRoad r fun rd => { rd with hdrFail := rd.hdrFail + 1, enumRetry := true }).enumMiss r true
  | _, _ => s

def execEnumReply (r : Fin 8) (rx : UpRx) (s : State) : Result := .next (doEnumReply r.val rx s)

/-! ### The end of the echo window (R273, R277, R298) -/

/-- The outstanding command of a node was sent eight times and is not acknowledged (R273). -/
def Node.givesUp (nd : Node) (n : Nat) : Bool :=
  match nd.cur with
  | some (_, _, k, m) => decide (8 ≤ k) && decide (m + b2n nd.hasSlot ≤ n)
  | none => false

/-- ECHO_WINDOW_END (R273): an ENUM or ECHO that did not come is settled, and commands sent eight times are given up. -/
def doEchoWindowEnd (r : Nat) (s : State) : State :=
  if s.launchedNow r then
    let rd := s.road r
    let s := if rd.enumWait then s.enumMiss r false else s
    let s := match rd.echoPos.bind rd.admittedAt with
      | some nd => (s.onRoad r fun rd => { rd with echoPos := none }).echoResult r nd none
      | none => s
    let gone := (s.road r).admitted.filter (·.givesUp s.mark)
    let s := gone.foldl (fun s nd =>
      (s.onRoad r fun rd => { rd with cmdFail := rd.cmdFail + 1 }).loseNode r nd 2) s
    s.onRoad r fun rd => { rd with ackPos := none }
  else s

def execEchoWindowEnd (r : Fin 8) (s : State) : Result := .next (doEchoWindowEnd r.val s)

/-- DELAY_CYCLE_END (R294): in the last mark of a cycle, once. -/
def doDelayCycleEnd (r : Nat) (s : State) : State :=
  if (s.road r).on && s.mark % 1024 == 1023 && (s.road r).cycle == s.mark / 1024 then s.cycleEnd r else s

def execDelayCycleEnd (r : Fin 8) (s : State) : Result := .next (doDelayCycleEnd r.val s)

/-! ### Image commits (R274, R283, R296, R299) -/

/-- The settings of one node staged for an image. -/
def Road.stageImageNode (rd : Road) (r : Nat) (im : Image) (nd : Node) : Road :=
  let (_, _, new, pay) := im.compareNode r nd
  let have_ := nd.staged.getD nd.chans
  let rd := rd.onNode nd.pos fun nd => { nd with staged := some new, plan := if rd.prep then some (sampleMax new) else none }
  if nd.latch.isNone && nd.latchSt.isNone then rd
  else
    let rd := (chansNotIn have_ new).foldl (fun rd c => rd.stage nd.pos (chanOff c.ch)) rd
    let rd := (chansNew have_ new).foldl (fun rd c => rd.stage nd.pos (chanCmd c)) rd
    rd.stageMaker nd pay

/-- The settings of an image staged on a road, with the slots of its layout (R278), and whether a command was staged. -/
def Road.stageImage (rd : Road) (r : Nat) (im : Image) : Road × Bool :=
  let was := rd.dirty
  let rd := rd.admitted.foldl (fun (rd : Road) nd => rd.stageImageNode r im nd) { rd with dirty := false }
  let rd := rd.admitted.foldl Road.restageSlot rd
  ({ rd with dirty := was || rd.dirty }, rd.dirty)

/-- The settings of an image staged on every road that runs (R274); from the first command on, its toggles wait for the commit
(R296). -/
def State.stageRoads (s : State) (im : Image) : State :=
  { s with roads := s.roads.mapIdx fun r rd =>
      if rd.on then
        let (rd, some_) := { rd with prep := true }.stageImage r im
        { rd with staging := some_ }
      else rd }

/-- The settings of the image in force staged again after a load that came to nothing (R511, R98), with its layout. -/
def State.unstageRoads (s : State) : State :=
  match s.port.inForce with
  | none => s
  | some im =>
    { s with roads := s.roads.mapIdx fun r rd =>
        if rd.prep then
          let (rd, some_) := { rd with prep := false, staging := false }.stageImage r im
          let rd := { rd with nodes := rd.nodes.map fun nd => { nd with plan := none } }
          if some_ || rd.dirty then rd.toggleFromMark s.mark else rd
        else rd }

/-- The ROADS island may report ready: every admitted node has acknowledged what was staged (R274). -/
def State.roadsReady (s : State) : Bool := s.roads.all fun rd => !rd.staging || rd.allAcked

/-- The commit of an image at the mark in progress that changes section 0x04, the new image in force already (R278, R283,
R296, R299). -/
def State.commitRoads (s : State) (im : Image) : State :=
  let s := (List.range 8).foldl (fun s r => (s.road r).admitted.foldl (fun s nd =>
    let (cause, action, _) := im.compareNode r nd
    if cause = 0 then s else s.compareReport r nd.pos nd.uid nd.maker.toNat nd.model.toNat cause action) s) s
  { s with roads := s.roads.mapIdx fun r rd =>
      let stay := rd.nodes.filter fun nd => nd.admitted || nd.plan.isSome || (im.nodeEntry r nd.pos).isSome
      let still := rd.lostDecl.filter fun p => match im.nodeEntry r p with
        | some e => !rd.samples e
        | none => false
      { rd with
        imgCommit := if rd.staging then some s.mark else rd.imgCommit
        prep := false
        staging := false
        nodes := stay.map fun nd =>
          { nd with wasAdmitted := nd.admitted || nd.plan.isSome
                    slotM := nd.plan.getD (sampleMax (nd.staged.getD nd.chans)), plan := none }
        lostDecl := still } }

end Sys2Proof.Machine
end

