-- ==== Sys2Proof/Machine/ImageCheck.lean ====
section
/-! DEFINITION. The validation of a route image: the header and the section table (03_route_image.md R74, R75, R79), and
steps 13 to 17 of R85 on the parsed image: straps (R68, R70), references, budgets (R86), capacity and the scan plan
(R88, R246). -/

namespace Sys2Proof.Machine

/-! ### Header and table -/

/-- The header (R74). -/
def parseHeader (bs : List Byte) : Header :=
  let w := wordsOf (bs.take 64)
  { nsect := fld (nth w 1) 23 16, enc := bitOf (nth w 1).toNat 1, signed := bitOf (nth w 1).toNat 0,
    totalLen := (nth w 2).toNat, rollback := fld (nth w 3) 7 0, imageId := nth w 4, minStep := fld (nth w 5) 15 8,
    minRom := fld (nth w 5) 7 0, target := BitVec.ofNat 64 ((nth w 7).toNat * 2 ^ 32 + (nth w 6).toNat) }

/-- The section table (R75). -/
def parseTable (bs : List Byte) (n : Nat) : List SectEntry :=
  (entriesAt (wordsOf (bs.take (64 + 16 * n))) 16 4 n).map fun e =>
    { id := fld (nth e.2 0) 31 24, ver := fld (nth e.2 0) 23 16, offset := (nth e.2 1).toNat,
      length := (nth e.2 2).toNat, crc := nth e.2 3 }

/-- The bytes of a section. -/
def sectBytes (bs : List Byte) (e : SectEntry) : List Byte := (bs.drop e.offset).take e.length

/-- Section identifiers that R76 defines. -/
def sectDefined (id : Nat) : Bool := (decide (1 ≤ id) && decide (id ≤ 13)) || id == 15

/-- Two entries share a byte. -/
def sectOverlap (a b : SectEntry) : Bool := overlap a.offset a.length b.offset b.length

/-- Steps 3 to 7, in the order of R85. The header is read before TOTAL_LEN is known, so it is the device's own bytes that count.
A TOTAL_LEN below the header's own 64 bytes counts as invalid at step 3 (DESIGN CHOICE, assumption-log row 60: R74 gives a
multiple of 16 and an upper limit). -/
def checkHeader (bs : List Byte) (dev : FlashDev) : List Find :=
  let w := wordsOf (dev.bytes.take 64)
  let h := parseHeader dev.bytes
  let es := parseTable bs h.nsect
  let tabEnd := 64 + 16 * h.nsect
  need (nth w 0 == 0x49524B45) 3 0x03 0 0 ++
  need (fld (nth w 1) 31 24 == 1) 3 0x03 0 7 ++
  need (h.totalLen % 16 == 0 && decide (64 ≤ h.totalLen) && decide (h.totalLen ≤ 0x01000000) &&
    decide (h.totalLen ≤ dev.density)) 3 0x03 0 8 ++
  need (fld (nth w 5) 31 16 == 0x8192) 4 0x04 0 22 ++
  need (decide (h.minStep ≤ 0x43)) 4 0x04 0 21 ++
  need (decide (h.minRom ≤ 3)) 4 0x04 0 20 ++
  need ((h.target == 0 || h.target == Config.serial) && (!h.enc || h.target != 0)) 5 0x05 0 24 ++
  need (crc32c (bs.take 32 ++ (bs.drop 64).take (16 * h.nsect)) == nth w 8) 6 0x06 0 32 ++
  need (decide (3 ≤ h.nsect) && decide (h.nsect ≤ 14) && decide (tabEnd ≤ h.totalLen)) 6 0x06 0 6 ++
  (es.zipIdx.flatMap fun (e, i) =>
    need (sectDefined e.id && e.ver == 1 && e.offset % 16 == 0 && decide (tabEnd ≤ e.offset) &&
      decide (e.offset + e.length ≤ h.totalLen) && (es.take i).all (fun f => decide (f.id < e.id) && !sectOverlap e f))
      6 0x06 0 (64 + 16 * i)) ++
  need ([1, 9, 11].all fun r => es.any (·.id == r)) 6 0x06 0 0 ++
  need (es.any (·.id == 13) == h.enc && es.any (·.id == 15) == h.signed) 6 0x06 0 4 ++
  need ((es.filter (·.id == 15)).all fun g => es.all fun e => decide (e.offset ≤ g.offset)) 6 0x06 0
    (64 + 16 * (h.nsect - 1)) ++
  es.flatMap fun e => need (crc32c (sectBytes bs e) == e.crc) 7 0x07 e.id 0

/-- Bytes from a position with n of them set to 0. -/
def zeroed (bs : List Byte) (start n : Nat) : List Byte := bs.take start ++ List.replicate n 0 ++ bs.drop (start + n)

/-- The signed message: the bytes before the signature section, TABLE_CRC and its own SECT_CRC taken as 0 (R79). -/
def signedMessage (bs : List Byte) (h : Header) (e : SectEntry) : List Byte :=
  zeroed (zeroed (bs.take e.offset) 32 4) (64 + 16 * (h.nsect - 1) + 12) 4

/-- The SHA-256 of the SEC 1 encoding of the key in a signature section (R79). -/
def keyHashOf (g : List Byte) : List Byte :=
  sha256 ([0x04] ++ ((g.drop 16).take 32).reverse ++ ((g.drop 48).take 32).reverse)

/-- Step 8: a signature where one is required, and a present one with ALG 0x01 verified (R78, R79, R85). -/
def checkSignature (bs : List Byte) (h : Header) (es : List SectEntry) (required : Bool) (fused : Option (List Byte)) :
    List Find :=
  match es.find? (·.id == 15) with
  | none => need (!required) 8 0x08 0 4
  | some e =>
    let g := sectBytes bs e
    need (nth g 3 == 1) 8 0x08 15 3 ++
    need (match fused with
      | some k => keyHashOf g == k
      | none => true) 8 0x09 15 16 ++
    need (ecdsaVerify (leNat ((g.drop 16).take 32)) (leNat ((g.drop 48).take 32)) (leNat ((g.drop 80).take 32))
      (leNat ((g.drop 112).take 32)) (signedMessage bs h e)) 8 0x08 15 80

/-- Step 9 (R87). -/
def checkRollback (h : Header) (fused : Nat) : List Find :=
  need (decide (h.rollback ≤ 64) && decide (fused ≤ h.rollback)) 9 0x0A 0 12

/-- The reserved fields of the header, the table and the signature section, and the padding (R73–R75, R78). -/
def checkHeaderReserved (bs : List Byte) (h : Header) (es : List SectEntry) : List Find :=
  let w := wordsOf (bs.take 64)
  let pads := ((bs.take h.totalLen).zipIdx.drop (64 + 16 * h.nsect)).filter fun (b, i) =>
    b != 0 && !es.any fun e => decide (e.offset ≤ i) && decide (i < e.offset + e.length)
  checkEntry 0 ([.res 1 15 2, .res 3 31 8] ++ (List.range 7).map fun i => .res (9 + i) 31 0) (0, w) ++
  checkEntries 0 [.res 0 15 0] (entriesAt (wordsOf (bs.take (64 + 16 * h.nsect))) 16 4 h.nsect) ++
  need pads.isEmpty 10 0x0B 0 ((pads.head?.map (·.2)).getD 0) ++
  (match es.find? (·.id == 15) with
   | none => []
   | some e =>
     let g := wordsOf (sectBytes bs e)
     range (e.length == 144) 15 0 ++ checkEntry 15 [.res 0 23 0, .res 1 31 0, .res 2 31 0, .res 3 31 0] (0, g))

/-! ### The parsed image -/

/-- A section's words. -/
def rawWords (raw : List (Nat × List Byte)) (id : Nat) : List Word := wordsOf (rawSect raw id)

/-- Rate at which a channel's packets of a retention class yield roll-up packets and their SUBSTITUTED records, in 1/1024
line per second (R356, R358, R359). -/
def rollRate (rate axes : Nat) : Nat := (linesOf (1 + 5 * axes * 16) + 2) * (if 6 ≤ rate then 64 else 2 ^ rate)

/-- The recipes of an image. -/
def Image.recipes (im : Image) : List Recipe :=
  match im.fe with
  | none => []
  | some fe => fe.recipes

/-- The budget of producer 15 (R359). -/
def Image.steward (im : Image) : Nat :=
  let low (v : Nat) : Bool := nth im.classmap v != 0
  let total :=
    ((im.inertial.streams.filter (low ·.view)).map fun st => rollRate st.rate st.nAxes).sum +
    ((im.recipes.filter (low ·.view)).map fun r => rollRate r.rate 1).sum +
    ((im.roads.flatMap fun r => r.nodes.flatMap fun nd => (nd.chans.filter (low ·.view)).map fun c => rollRate c.rate 1).sum)
  ceilDiv (2 * total) 1024 + 512

/-- The image that a validated byte sequence holds, the command key apart. -/
def parseImage (h : Header) (raw : List (Nat × List Byte)) (keyHash : Option (List Byte)) : Image :=
  let im : Image :=
    { hdr := h, raw := raw, masks := parseMasks (rawSect raw 1), inertial := parseInertial (rawWords raw 2),
      fe := parseFrontEnd (rawWords raw 3), roads := parseRoads (rawWords raw 4),
      products := parseProducts (rawWords raw 5), recogs := parseRecogs (rawWords raw 6),
      wm := parseWaymarks (rawWords raw 7), pins := parsePins (rawWords raw 8),
      clients := parseClients (rawWords raw 9), age1 := fld (nth (rawWords raw 10) 0) 31 16,
      classmap := parseClassmap (rawSect raw 10), modemask := fld (nth (rawWords raw 11) 0) 15 0,
      plans := parsePlans (rawWords raw 11), curves := parseCurves (rawWords raw 12), kcmd := none,
      keyHash := keyHash, credit15 := 0 }
  { im with credit15 := im.steward }

/-- Steps 10 and 11 over every section. A section that is present with less than one word has no room for any field and fails
step 11, where one that is absent is not used (R76). -/
def checkSections (im : Image) : List Find :=
  let len (id : Nat) : Nat := (rawSect im.raw id).length
  let most (id n : Nat) : List Find :=
    range (decide (len id ≤ n) && (decide (4 ≤ len id) || !im.raw.any (·.1 == id))) id 0
  findings [
    most 2 16384, most 3 1048576, most 4 262144, most 5 65536, most 6 4096, most 7 16384, most 8 65536, most 9 16384,
    most 10 256, most 11 65536, most 12 8388608, most 13 1024, checkMasks (rawSect im.raw 1), checkInertial (rawWords im.raw 2) (len 2),
    checkFrontEnd (rawWords im.raw 3) (len 3), checkRoads (rawWords im.raw 4) (len 4), checkProducts (rawWords
    im.raw 5) (len 5) im.inertial.cal im.masks, checkRecogs (rawWords im.raw 6) (len 6), checkWaymarks (rawWords
    im.raw 7) (len 7), checkPins (rawWords im.raw 8) (len 8), checkClients (rawWords im.raw 9) (len 9)
    im.inertial.streams, checkClasses (rawSect im.raw 10), checkPlans (rawWords im.raw 11) (len 11)
    im.products.red.length, checkCurves (rawWords im.raw 12) (len 12), checkKeys (rawWords im.raw 13) (len 13)]

/-! ### Step 13: straps (R68, R70, R205, R284, R388, R408, R438, R468, R469) -/

/-- The image holds a waymark CALL action (R205). -/
def Image.usesCall (im : Image) : Bool :=
  match im.wm with
  | none => false
  | some w => w.acts.any fun a => fld a.1 31 28 == 6

/-- The host-port block is all zeros (R438). -/
def Image.attnZero (im : Image) : Bool := (((rawWords im.raw 9).drop 100).take 4).all (· == 0)

/-- An uplink port is disabled by STRAP4 (R54). -/
def State.upDisabled (s : State) (port : Nat) : Bool := s.upAmp port == 3

/-- HS or TW is strapped to a role (R49, R51). -/
def State.strappedTo (s : State) (role : Nat) : Bool :=
  hsRoleOf (s.strap 1) == some role || twRoleOf (s.strap 3) == some role

/-- The checks of step 13. R469's two faults that a strap decides are found here, by R85's order, with R469's own codes
(assumption-log row 60). -/
def checkStraps (s : State) (im : Image) : List Find :=
  let c13 (ok : Bool) (sect off : Nat) : List Find := need ok 13 0x0C sect off
  let list5 := gOrder (s.strap 5)
  let twOff := (twRoleOf (s.strap 3)).isNone
  ((List.range 16).flatMap fun n =>
    c13 (bitOf (nth im.masks n) (s.strap n) || bitOf s.straps.invalid.toNat n) 1 (2 * n)) ++
  (im.roads.zipIdx.flatMap fun (r, i) => c13 (decide (r.road < s.roadsEnabled)) 4 (16 + 16 * i + 3)) ++
  c13 (!(im.usesCall && twOff)) 7 0 ++
  c13 (!(im.clients.time.n0Domain == 0xFF && list5.contains .n0)) 9 19 ++
  c13 (!(im.clients.time.n1Domain == 0xFF && list5.contains .n1)) 9 18 ++
  (im.clients.launches.zipIdx.flatMap fun (l, e) => c13 (!(l.used && s.upDisabled l.port)) 9 (144 + 16 * e + 3)) ++
  (im.clients.clients.zipIdx.flatMap fun (c, i) =>
    c13 (!(c.addr != 0 && s.upDisabled 0 && s.upDisabled 1)) 9 (80 + 16 * i)) ++
  c13 (im.attnZero || im.clients.attnAddr != s.twAddr) 9 403 ++
  c13 (im.attnZero || !twOff) 9 400 ++
  need (!(s.strappedTo 2 && guestSees im.clients im.inertial.streams (nth im.clients.vsetRole 2))) 13 0x11 9 5 ++
  need (!(s.strappedTo 0 && (rawSect im.raw 13).isEmpty)) 13 0x0D 9 7

/-! ### Step 14: references -/

/-- A finding of step 14. -/
def refd (ok : Bool) (sect off : Nat) : List Find := need ok 14 0x0D sect off

/-- Channels that an INJECT action names (R245). -/
def Image.injects (im : Image) : List Nat :=
  match im.wm with
  | none => []
  | some w => (w.acts.filter fun a => fld a.1 31 28 == 4).map fun a => fld a.1 4 0

/-- A chain of REFCH references from a channel, with fuel, comes back to it (R246). -/
def refLoops (rs : List Recipe) (target : Nat) : Nat → Nat → Bool
  | 0, _ => false
  | f + 1, ch =>
    match rs.find? (·.ch == ch) with
    | none => false
    | some r => [r.refch1, r.refch2].any fun x => x != 0x3F && (x == target || refLoops rs target f x)

/-- The coefficients of a recipe's curve are present (R234, R254). -/
def curvePresent (cs : List CurveTab) (r : Recipe) : Bool :=
  if r.curve = 41 ∨ r.curve = 48 then cs.any fun t => t.curve == r.curve && t.ch == r.ch
  else if (24 ≤ r.curve ∧ r.curve ≤ 31) ∨ (56 ≤ r.curve ∧ r.curve ≤ 63) then cs.any (·.curve == r.curve)
  else true

/-- The rate code and the input words of one period that a reduction entry's input gives; none where INSRC names
nothing declared (R348). -/
def Image.inputWords (im : Image) (e : RedEntry) : Option Nat :=
  let perRate (rate : Nat) : Nat := ceilDiv (2 ^ rate * e.period) 64
  let src (t : Word) : Bool := (t &&& 0xFFFFFF00) == e.insrc
  match tagOrigin e.insrc with
  | 0 => (im.inertial.streams.zipIdx.find? fun (st, n) => src (streamTag n st)).map fun p => perRate p.1.rate
  | 1 => (im.fe.bind fun fe => fe.recipes.find? fun r => src (recipeTag r false)).map fun r => perRate r.rate
  | 2 => ((im.roads.flatMap fun r => r.nodes.flatMap fun nd => nd.chans.map fun c => (roadTag r.road nd.pos c, c.rate)).find?
      fun t => src t.1).map fun t => perRate t.2
  | 3 => (im.pins.bind fun p => p.engines.find? fun e => src (pinTag e.engine e.view)).map fun g => g.rxWords * e.period
  | _ => none

/-- A condition's references (R205). -/
def condRefOk (im : Image) (c : Word × Word) : Bool :=
  match fld c.1 31 28 with
  | 1 | 10 => (nth im.recogs (fld c.1 27 24)).en
  | 2 => im.products.motion.any fun m => m.kind == fld c.1 23 16
  | _ => true

/-- An action's references (R205). -/
def actRefOk (im : Image) (a : Word × Word) : Bool :=
  match fld a.1 31 28 with
  | 1 => im.clients.defined.contains (fld a.1 23 16)
  | 3 => (nth im.clients.launches (fld a.1 7 0)).used
  | 4 => match im.fe with
    | some fe => fe.recipes.any fun r => r.ch == fld a.1 4 0
    | none => false
  | 6 => !im.attnZero
  | 7 => im.plans.any fun p => p.plan == fld a.1 2 0
  | 8 => match im.pins with
    | some p => p.engines.any (fun e => e.engine == fld a.1 10 8) && p.phrases.any fun q => q.1 == fld a.1 7 0
    | none => false
  | _ => true

/-- The checks of step 14 (R85, R469). -/
def checkRefs (im : Image) : List Find :=
  let view (v sect off : Nat) : List Find := refd (im.clients.defined.contains v) sect off
  (im.clients.clients.zipIdx.flatMap fun (c, i) =>
    refd (c.addr == 0 || c.role != 0 || !(rawSect im.raw 13).isEmpty) 9 (84 + 16 * i)) ++
  (im.inertial.streams.zipIdx.flatMap fun (st, i) => view st.view 2 (16 + 16 * i)) ++
  (match im.fe with
   | none => []
   | some fe =>
     let rs := fe.recipes
     let has (c : Nat) : Bool := c == 0x3F || rs.any (·.ch == c)
     (rs.zipIdx.flatMap fun (r, i) =>
       let o := 16 + 48 * i
       view r.view 3 (o + 2) ++
       refd (has r.refch1) 3 (o + 18) ++ refd (has r.refch2) 3 (o + 17) ++
       refd (curvePresent im.curves r) 3 (o + 19) ++
       refd (!refLoops rs r.ch 33 r.ch) 3 (o + 17) ++
       refd (!r.basic || [r.refch1, r.refch2].all fun c => c == 0x3F || rs.any fun q => q.ch == c && q.basic) 3 (o + 17) ++
       refd (r.curve != 41 || !f32IsNan im.inertial.cal.lat) 3 (o + 19)) ++
     refd ((setBits 32 fe.trigMask.toNat).all fun c => rs.any (·.ch == c)) 3 ((nth (rawWords im.raw 3) 1).toNat + 4)) ++
  (let (_, ns, cs) := roadParts (rawWords im.raw 4)
   let chans := cs.map fun e => parseChan e.2
   (cs.flatMap fun e => view (parseChan e.2).view 4 (e.1 + 4)) ++
   (ns.flatMap fun e => refd ((parseNode chans e.2).chans.all fun c => c.mode == 0 || bitOf im.modemask c.mode) 4 e.1)) ++
  (im.products.motion.zipIdx.flatMap fun (m, i) => view m.view 5 (16 + 16 * i)) ++
  (im.products.red.zipIdx.flatMap fun (r, j) =>
    let o := 16 + 16 * im.products.motion.length + 32 * j
    view r.view 5 o ++ refd (im.inputWords r).isSome 5 (o + 4)) ++
  (im.recogs.zipIdx.flatMap fun (r, i) => view r.view 6 (32 * i + 1)) ++
  (match im.wm with
   | none => []
   | some _ =>
     let (es, _, cs, as) := wmParts (rawWords im.raw 7)
     (es.flatMap fun e => view (parseWmEngine e.2).view 7 (e.1 + 5)) ++
     (cs.flatMap fun e => refd (condRefOk im (nth e.2 0, nth e.2 1)) 7 e.1) ++
     (as.flatMap fun e => refd (actRefOk im (nth e.2 0, nth e.2 1)) 7 e.1)) ++
  (match im.pins with
   | none => []
   | some p => p.engines.zipIdx.flatMap fun (e, i) => view e.view 8 (144 + 32 * i + 15))

/-! ### Steps 15 and 16: budgets (R86, R28, R352) -/

/-- A finding of step 15. -/
def enough (credit demand sect off : Nat) : List Find := need (decide (demand ≤ credit)) 15 0x0F sect off

/-- The largest wave record of a product set, in lines (R170, R171). -/
def waveLines (set : Nat) : Nat :=
  match set with
  | 0 => 2039
  | 1 => 164
  | 2 => 1911
  | _ => 4

/-- The demand of attitude or displacement at the rate code k + 6 (R167): PSTAT stands before the instants. -/
def motionPackDemand (rate n : Nat) : Nat := ceilDiv (2 ^ rate * (1 + ceilDiv (1 + n * 3) 4)) (64 * n)

/-- The demand of a motion entry in lines per 1024 marks (R86, R167, R171). -/
def State.motionDemand (s : State) (m : MotionEntry) : Nat :=
  match m.kind with
  | 1 => motionPackDemand 10 m.pktSamples
  | 2 => motionPackDemand 8 m.pktSamples
  | 3 => ceilDiv (waveLines s.productSet) s.wavePeriod
  | _ => ceilDiv 4 s.wavePeriod

/-- The checks of step 15. The demand of a wave record or of heave statistics follows STRAP7 (R171); a budget below it is found
here, with RESULT 0x0F, and not at step 13 (DESIGN CHOICE, assumption-log row 60: R85 gives step 13 every check whose outcome
depends on a strap code, and step 15 the demand). -/
def checkDemand (s : State) (im : Image) : List Find :=
  (im.inertial.streams.zipIdx.flatMap fun (st, i) =>
    enough st.credit (packDemand st.rate st.pktSamples st.nAxes) 2 (16 + 16 * i + 8)) ++
  (match im.fe with
   | none => []
   | some fe =>
     (fe.pairs.zipIdx.flatMap fun ((r, e), i) =>
       if e.trigOnly then [] else enough r.credit (packDemand r.rate r.pktSamples 1) 3 (16 + 48 * i + 36)) ++
     enough fe.injCredit (2 * fe.injMax) 3 ((nth (rawWords im.raw 3) 1).toNat + 8)) ++
  ((roadParts (rawWords im.raw 4)).2.2.flatMap fun e =>
    let c := parseChan e.2
    enough c.credit (packDemand c.rate c.pktSamples 1) 4 (e.1 + 8)) ++
  (im.products.motion.zipIdx.flatMap fun (m, i) => enough m.credit (s.motionDemand m) 5 (16 + 16 * i + 8)) ++
  (im.products.red.zipIdx.flatMap fun (r, j) =>
    enough r.credit (ceilDiv 3 r.period) 5 (16 + 16 * im.products.motion.length + 32 * j + 16)) ++
  (match im.wm with
   | none => []
   | some w =>
     let emits (e : WmEngine) : Bool := ((w.trans.drop e.transBase).take (4 * e.nstate)).any fun t =>
       t.used && ((w.acts.drop t.actFirst).take t.actN).any fun a => fld a.1 31 28 == 0
     enough w.evCredit (4096 * (w.engines.filter emits).length) 7 12) ++
  (match im.pins with
   | none => []
   | some p => p.engines.zipIdx.flatMap fun (e, i) =>
     enough e.credit (3 * e.rxPkts + ceilDiv e.rxWords 4) 8 (144 + 32 * i + 24))

/-- The budget of a producer in lines per 1024 marks (R86, R341). -/
def Image.budget (im : Image) (producer : Nat) : Nat :=
  if producer < 8 then
    ((im.roads.filter (·.road == producer)).flatMap fun r => r.nodes.flatMap fun nd => nd.chans.map (·.credit)).sum
  else match producer with
    | 8 => (im.inertial.streams.map (·.credit)).sum
    | 9 => match im.fe with
      | some fe => (fe.recipes.map (·.credit)).sum + fe.injCredit
      | none => 0
    | 10 => (im.products.motion.map (·.credit)).sum
    | 12 => match im.wm with
      | some w => w.evCredit
      | none => 0
    | 13 => match im.pins with
      | some p => (p.engines.map (·.credit)).sum
      | none => 0
    | 14 => (im.products.red.map (·.credit)).sum
    | 15 => im.credit15
    | _ => 0

/-- The largest packet of a producer in lines (R311). -/
def State.largest (s : State) (im : Image) (producer : Nat) : Nat :=
  let most (l : List Nat) : Nat := l.foldl max 0
  if producer < 8 then
    most ((im.roads.filter (·.road == producer)).flatMap fun r => r.nodes.flatMap fun nd =>
      nd.chans.map fun c => packLines c.pktSamples 1)
  else match producer with
    | 8 => most (im.inertial.streams.map fun st => packLines st.pktSamples st.nAxes)
    | 9 => match im.fe with
      | some fe => most ((if fe.injMax = 0 then 0 else 2) :: fe.pairs.map fun p =>
          if p.2.trigOnly then 0 else packLines p.1.pktSamples 1)
      | none => 0
    | 10 => most (im.products.motion.map fun m =>
        if m.kind ≤ 2 then 1 + ceilDiv (1 + m.pktSamples * 3) 4 else if m.kind = 3 then waveLines s.productSet else 4)
    | 11 => if im.recogs.any (·.en) then 4 else 0
    | 12 => if (match im.wm with
        | some w => w.evCredit
        | none => 0) = 0 then 0 else 4
    | 13 => match im.pins with
      | some p => most (p.engines.map fun e => 2 + ceilDiv e.rxMax 4)
      | none => 0
    | 14 => if im.products.red.isEmpty then 0 else 3
    | 15 => linesOf (1 + 5 * 3 * 16)
    | _ => 0

/-- Cost of an instance of a job in ns (R352). -/
def Image.jobCost (im : Image) (r : RedEntry) : Nat := 40000 + 2 * (im.inputWords r).getD 0

/-- The jobs of a plan need no more than n tenths of a core (R352). -/
def Image.jobsFit (im : Image) (jobs : List Nat) (tenths : Nat) : Bool :=
  decide ((jobs.map fun j => im.jobCost (nth im.products.red j) * (3600 / (nth im.products.red j).period)).sum ≤
    tenths * 10 ^ 8 * 3600)

/-- A finding of step 16. -/
def fits (ok : Bool) (sect off : Nat) : List Find := need ok 16 0x0E sect off

/-- The checks of step 16 (R28, R284, R352). -/
def checkCapacity (im : Image) : List Find :=
  let rate (r : RoadEntry) : Nat := (r.nodes.map fun nd => (nd.chans.map fun c => 2 ^ c.rate).sum).sum
  fits (decide (((List.range 16).map im.budget).sum ≤ 262144)) 0 0 ++
  (im.roads.zipIdx.flatMap fun (r, i) =>
    fits (decide (rate r ≤ 131072 * 64) && decide ((r.nodes.map fun nd => sampleMax nd.chans).sum ≤ 128)) 4
      (16 + 16 * i)) ++
  fits (decide ((im.roads.map rate).sum ≤ 524288 * 64)) 4 0 ++
  (im.plans.zipIdx.flatMap fun (p, i) =>
    fits (im.jobsFit p.run 42 && im.jobsFit p.laneRun 6) 11 (16 + 192 * i + 4)) ++
  fits (im.products.red.all fun r => decide (4 * im.jobCost r ≤ r.deadline * 1953125)) 11 0

/-! ### Step 17: the scan plan (R88, R145, R209, R216, R222, R245, R246) -/

/-- Where the first occupancy of a recipe's grid-driven outputs begins, modulo its period (R238, R244). -/
def gridStart (r : Recipe) (e : ScanEntry) : Nat :=
  let p := feePeriod r
  (feePhase r e % p + p - leadAcc r e % p) % p

/-- Distance from a position to the next start of a recipe's occupancy. -/
def toStart (t : Nat) (q : Recipe × ScanEntry) : Nat :=
  let p := feePeriod q.1
  (gridStart q.1 q.2 + p - t % p) % p

/-- A grid-driven occupancy of the recipe is under way at a position. -/
def activeAt (t : Nat) (q : Recipe × ScanEntry) : Bool :=
  let p := feePeriod q.1
  decide ((t % p + p - gridStart q.1 q.2) % p < occAcc q.1 q.2)

/-- Spans of la and lb that begin at a and b in two grid-driven recipes overlap somewhere: rates are powers of two, so the
shorter period divides the longer (R246). -/
def phasesMeet (p q : Recipe) (a la b lb : Nat) : Bool :=
  let m := min (feePeriod p) (feePeriod q)
  let d := (b % m + m - a % m) % m
  decide (d < la) || d == 0 || decide (m - d < lb)

/-- Grid-driven occupancies of two recipes overlap somewhere (R246). -/
def gridOverlap (a b : Recipe × ScanEntry) : Bool :=
  phasesMeet a.1 b.1 (gridStart a.1 a.2) (occAcc a.1 a.2) (gridStart b.1 b.2) (occAcc b.1 b.2)

/-- Two grid-driven recipes share nothing that R88, R209 and R216 forbid: no source and no guard driver where their occupancies
overlap, and no driven pin where two of their conversions do. -/
def gridShares (a b : Recipe × ScanEntry) : Bool :=
  (!gridOverlap a b || sharesOk a.1 b.1) &&
    (a.1.parts .grid a.2).all fun p => (b.1.parts .grid b.2).all fun q =>
      p.ok q || !phasesMeet a.1 b.1 (gridStart a.1 a.2 + p.start) p.len (gridStart b.1 b.2 + q.start) q.len

/-- A scan entry agrees with its recipe (R246 row 1). -/
def scanEntryOk (r : Recipe) (e : ScanEntry) : Bool :=
  decide (2 ≤ e.win) && decide (e.win ≤ 15) &&
  (if r.rate ≤ 16 then decide (e.phase < 2 ^ (16 - r.rate)) else e.phase == 0) &&
  (r.exaSrc != 7 || (e.mod % 2 == 0 && decide (2 * 10 ^ 21 / 2 ^ r.acf ≤ windowAcc e))) &&
  (!e.trigOnly || (r.rate == 0 && r.pktSamples == 1 && r.credit == 0))

/-- The roles of the pins of each conversion differ (R88, R208). -/
def pinsDistinct (r : Recipe) : Bool :=
  let d := r.drives
  if r.lead = 3 then
    ((d ++ [r.pinP, r.pinN]).filter isPin).Nodup && ((d ++ [r.pinN, r.exbPin]).filter isPin).Nodup
  else ((d ++ [r.pinP, r.pinN]).filter isPin).Nodup

/-- Every pair of a list. -/
def pairsOf {α : Type} : List α → List (α × α)
  | [] => []
  | a :: r => r.map (fun b => (a, b)) ++ pairsOf r

/-- The longest period of a list of recipes, at least one mark. -/
def longest (g : List (Recipe × ScanEntry)) : Nat := (g.map fun q => feePeriod q.1).foldl max markAcc

/-- The largest excitation current that triggered recipes can add in the modulators of a pair that are not busy (R220, R222):
one on each modulator, or an AC recipe on both. -/
def pairCurrent (trig : List (Recipe × ScanEntry)) (busy : List Nat) (m : Nat) : Nat :=
  let best (sel : Recipe × ScanEntry → Bool) : Nat := ((trig.filter fun q =>
    sel q && (modsOf q.1 q.2).all fun x => !busy.contains x).map fun q => q.1.current).foldl max 0
  let one (x : Nat) : Nat := best fun q => q.1.exaSrc != 7 && q.2.mod == x
  max (one m + one (m + 1)) (best fun q => q.1.exaSrc == 7 && q.2.mod == m)

/-- The total excitation current stays within 30 mA wherever a grid-driven occupancy begins or ends (R222), with what triggers
could add on the free modulators. -/
def currentOk (g trig : List (Recipe × ScanEntry)) : Bool :=
  let okAt (t : Nat) : Bool :=
    let on := g.filter (activeAt t)
    let busy := on.flatMap fun q => modsOf q.1 q.2
    decide ((on.map fun x => x.1.current).sum + ([0, 2, 4, 6].map (pairCurrent trig busy)).sum ≤ 30000)
  okAt 0 && g.all fun q => (List.range (longest g / feePeriod q.1)).all fun k =>
    let t := gridStart q.1 q.2 + k * feePeriod q.1
    okAt t && okAt (t + occAcc q.1 q.2)

/-- Distance from a position to the next start among recipes, at most cap. -/
def freeFrom (g : List (Recipe × ScanEntry)) (t cap : Nat) : Nat :=
  if g.any (activeAt t) then 0 else (g.map (toStart t)).foldl min cap

/-- The ends of occupancies that fall in a span of n from a position. -/
def endsIn (g : List (Recipe × ScanEntry)) (w n : Nat) : List Nat :=
  g.flatMap fun q =>
    let p := feePeriod q.1
    let e0 := w + ((gridStart q.1 q.2 + occAcc q.1 q.2) % p + p - w % p) % p
    (List.range (ceilDiv (w + n - e0) p)).map fun k => e0 + k * p

/-- A gap of at least l in the 1024 marks from a position (R245). -/
def gapIn (g : List (Recipe × ScanEntry)) (w l : Nat) : Bool :=
  let n := 1024 * markAcc
  (w :: endsIn g w n).any fun t => decide (l ≤ min (freeFrom g t n) (w + n - t))

/-- The free-gap length of a modulator (R245). -/
def gapLength (trig : List Nat) (on : List (Recipe × ScanEntry)) : Nat :=
  (on.map fun q =>
    max (if q.2.nocal then 0 else if q.2.trigOnly then 2 * oneAcc q.1 q.2 else oneAcc q.1 q.2)
      (if trig.contains q.1.ch then occAcc q.1 q.2 else 0)).foldl max 0

/-- Free slots of length l in 65,536 marks (R145). -/
def freeSlots (g : List (Recipe × ScanEntry)) (l : Nat) : Nat :=
  let h := longest g
  if g.isEmpty then 65536 * markAcc / l
  else ((endsIn g 0 h).map fun t => freeFrom g t h / l).sum * (65536 * markAcc / h)

/-- The calibration steps of a modulator's recipes fit its free slots (R145). The free slots in FE_OFF_PER are the average over
65,536 marks, and the steps the average of both periods, not those of any one span of FE_OFF_PER (DESIGN CHOICE, assumption-log
row 22). -/
def calStepsFit (cal : CalBlock) (on g : List (Recipe × ScanEntry)) (l : Nat) : Bool :=
  let n := (on.filter fun q => !q.2.nocal).length
  let offs := if bitOf cal.enable 4 then n else 0
  let gains := if bitOf cal.enable 5 then n else 0
  decide ((offs * cal.feGainPer + gains * cal.feOffPer) * 64 ≤ freeSlots g l * cal.feOffPer * cal.feGainPer)

/-- A modulator's gaps (R88, R145, R245). -/
def modulatorOk (im : Image) (fe : FrontEnd) (m : Nat) : Bool :=
  let on := fe.pairs.filter fun q => (modsOf q.1 q.2).contains m
  let g := on.filter fun q => !q.2.trigOnly
  let l := gapLength (setBits 32 fe.trigMask.toNat ++ im.injects) on
  l == 0 || ((List.range (longest g / markAcc)).all (fun n => gapIn g (n * markAcc) l) && calStepsFit im.inertial.cal on g l)

/-- The checks of step 17. Recipes that only a trigger or an INJECT action starts count as overlapping one another and the
grid-driven outputs on other modulators, so that pins, guards and sources that they share are refused at load (DESIGN CHOICE,
assumption-log row 22: R88 speaks of conversions that overlap and triggers come at any time). -/
def checkScan (im : Image) : List Find :=
  match im.fe with
  | none => []
  | some fe =>
    let so := (nth (rawWords im.raw 3) 1).toNat
    let bad (ok : Bool) (off : Nat) : List Find := need ok 17 0x10 3 off
    let g := fe.pairs.filter fun q => !q.2.trigOnly
    let named := setBits 32 fe.trigMask.toNat ++ im.injects
    let trig := fe.pairs.filter fun q => named.contains q.1.ch
    checkScanCounts (rawWords im.raw 3) ++
    (fe.pairs.zipIdx.flatMap fun (q, i) =>
      bad (scanEntryOk q.1 q.2) (so + 16 + 16 * i) ++ bad (pinsDistinct q.1) (16 + 48 * i)) ++
    bad (g.all fun q => decide (occAcc q.1 q.2 ≤ feePeriod q.1)) so ++
    bad ((pairsOf g).all fun (a, b) => !(shareMod a.1 a.2 b.1 b.2 && gridOverlap a b)) so ++
    bad ((pairsOf g).all fun (a, b) => gridShares a b) so ++
    bad ((pairsOf fe.pairs).all fun (a, b) => shareMod a.1 a.2 b.1 b.2 ||
      !(named.contains a.1.ch || named.contains b.1.ch) || sharesEver a b) so ++
    bad (currentOk g trig) so ++
    bad ((List.range 8).all (modulatorOk im fe)) so

end Sys2Proof.Machine
end

