-- ==== Sys2Proof/Machine/Straps.lean ====
section
/-! DEFINITION. Strap scans, strap hold, rescans, live straps and the supply comparator (02_straps.md). -/

namespace Sys2Proof.Machine

/-- The STRAP-SET record (R71). -/
def Straps.record (st : Straps) (reason : Nat) (invalid drift : Nat) (mark : Nat) : Packet :=
  let codes (from_ : Nat) : Word := word ((List.range 8).map fun i => at_ (nth st.codes (from_ + i)) (4 * i)).sum
  let readings := (List.range 8).map fun i =>
    word (at_ (nth st.readings (2 * i + 1)).toNat 16 + (nth st.readings (2 * i)).toNat)
  recPacket 0x10 0xFF mark
    ([word (at_ reason 24 + invalid), codes 0, codes 8] ++ readings ++ [word (at_ drift 16 + satN 16 st.holdTime)])

/-- Writes a STRAP-SET record (R71, R72). Its word3 is the mark of this step: the mark at which the set came into force, for
reason 0x05 the mark in which the rescan ended. Where the record reports a refusal and no new set comes into force (reasons
0x03, 0x04 and 0x06), it is the mark of the refusal or of the commit that found it (DESIGN CHOICE, assumption-log row 72). -/
def State.writeStraps (s : State) (reason invalid drift : Nat) : State :=
  s.writePacket (s.straps.record reason invalid drift s.mark)

/-- The code that strap n gives in a scan: none where the reading is invalid (R38, R39). -/
def scanCode (rs : List StrapReading) (n : Nat) : Option Nat := strapCode (nth rs n)

/-- A code of strap n that R40 accepts: valid and not reserved. -/
def goodCode (n : Nat) (c : Option Nat) : Bool :=
  match c with
  | some c => !strapReserved n c
  | none => false

/-- Strap n of the reset-time set fails a scan after another (R41). A valid code after an invalid reading counts as one that
differs from the scan before, which had none (DESIGN CHOICE, assumption-log row 72: the rule does not say). -/
def strapFails (prev : Option (List (Option Nat))) (cs : List (Option Nat)) (n : Nat) : Bool :=
  !goodCode n (nth cs n) || (match prev with
    | some p => nth p n != nth cs n
    | none => false)

/-- The start default of a live strap (R46). -/
def liveDefault (n : Nat) : Nat := if n = 12 then 8 else if n = 13 then 15 else 0

/-- Two scans agree on a good code of strap n (R40, R46). -/
def agreeing (prev cs : List (Option Nat)) (n : Nat) : Bool := goodCode n (nth cs n) && nth prev n == nth cs n

/-- The codes that two agreeing scans put in force, live straps at their defaults where they do not agree (R40, R46). -/
def acceptedCodes (prev cs : List (Option Nat)) : List Nat :=
  (List.range 16).map fun n =>
    if agreeing prev cs n then (nth cs n).getD 0 else if resetStraps.contains n then 0 else liveDefault n

/-- One scan of all sixteen straps: the lowest strap that failed, the readings, and whether the set is accepted (R40, R41). -/
def Straps.scan (st : Straps) (now : Nat) (rs : List StrapReading) : Straps :=
  let cs := (List.range 16).map (scanCode rs)
  let st := { st with
    readings := rs.map StrapReading.raw
    firstScan := some (st.firstScan.getD now)
    failed := ((resetStraps.find? (strapFails st.prev cs)).getD st.failed) }
  match st.prev with
  | some p =>
    if resetStraps.all (agreeing p cs) then
      { st with
        codes := acceptedCodes p cs
        invalid := BitVec.ofNat 16 (maskOf 16 fun n => !resetStraps.contains n && !agreeing p cs n)
        accepted := true, prev := some cs, hold := false, pulses := 0
        holdTime := if st.hold then (now - st.holdFrom) / msPs 100 else 0
        rescan := resetStraps.map fun n => nth cs n }
    else { st with prev := some cs }
  | none => { st with prev := some cs }

/-- The load that start-up begins once the set is accepted (R523 step 3). -/
def newLoad (trigger : Nat) (reply : Option (Nat × BitVec 16)) : Load :=
  { trigger := trigger, src := 0, tried := 0, reply := reply, staged := none, ready := [], commit := none }

/-- The UPLINK island comes up once the straps are known; where STRAP4 disables both ports it stays off (R54). -/
def State.uplinkByStrap (s : State) : State :=
  { s with power := { s.power with islands := s.power.islands.set 7 (if s.strap 4 = 0xC then .off else .running) } }

/-- A scan and what acceptance starts (R40, R523): the image load. MODE1 falls when strap hold ends (R512). -/
def State.strapScan (s : State) (rs : List StrapReading) : State :=
  let st := s.straps.scan s.now rs
  if st.accepted then
    { s with straps := st, port := { s.port with load := some (newLoad 1 none) },
             power := { s.power with mode0 := false, mode1 := false } }.uplinkByStrap
  else { s with straps := st }

/-- STRAP_SCAN: the scan of every 2 ms until acceptance or strap hold (R40). -/
def doStrapScan (dt : Nat) (rs : List StrapReading) (s : State) : State :=
  let s := s.advance dt
  if s.power.phase == .starting && !s.straps.accepted && !s.straps.hold then s.strapScan rs else s

/-- STRAP_SCAN (R40). -/
def execStrapScan (dt : Nat) (rs : List StrapReading) (s : State) : Result :=
  if rs.length = 16 then .next (doStrapScan dt rs s) else .fault .illFormed

/-- STRAP_HOLD: 100 ms without acceptance enters strap hold; in it each scan of every 100 ms may end it (R41). -/
def doStrapHold (dt : Nat) (rs : List StrapReading) (s : State) : State :=
  let s := s.advance dt
  match s.straps.firstScan with
  | none => s
  | some f =>
    if s.power.phase == .starting && !s.straps.accepted && decide (f + msPs 100 ≤ s.now) then
      let s := if s.straps.hold then s else
        { s with straps := { s.straps with hold := true, holdFrom := s.now },
                 power := { s.power with mode1 := true, mode0 := false } }
      s.strapScan rs
    else s

/-- STRAP_HOLD (R41). -/
def execStrapHold (dt : Nat) (rs : List StrapReading) (s : State) : Result :=
  if rs.length = 16 then .next (doStrapHold dt rs s) else .fault .illFormed

/-- MODE0_BURST: n + 1 pulses on MODE0, n the lowest strap that failed in the latest scan (R41). -/
def doMode0Burst (dt : Nat) (s : State) : State :=
  let s := s.advance dt
  if s.straps.hold then { s with straps := { s.straps with pulses := s.straps.failed + 1 } } else s

/-- MODE0_BURST (R41). -/
def execMode0Burst (dt : Nat) (s : State) : Result := .next (doMode0Burst dt s)

/-- STRAP_RESCAN: the result of a rescan, recorded where it differs from the one before it; it changes nothing else (R43). A
strap that reads invalid counts as one that differs from its accepted code, so that its DRIFT bit is set beside its INVALID
bit (DESIGN CHOICE, assumption-log row 72: the rule does not say). -/
def doStrapRescan (dt : Nat) (rs : List StrapReading) (s : State) : State :=
  let s := s.advance dt
  if s.awake then
    let res := resetStraps.map (scanCode rs)
    let st := { s.straps with
      rescan := res
      readings := (List.range 16).map fun n =>
        if resetStraps.contains n then (nth rs n).raw else nth s.straps.readings n }
    let differs (n : Nat) : Bool := resetStraps.contains n && scanCode rs n != some (nth st.codes n)
    let s' := { s with straps := st }
    if res == s.straps.rescan then s'
    else s'.writeStraps 5 (maskOf 16 fun n => resetStraps.contains n && (scanCode rs n).isNone) (maskOf 16 differs)
  else s

/-- STRAP_RESCAN (R43). -/
def execStrapRescan (dt : Nat) (rs : List StrapReading) (s : State) : Result :=
  if rs.length = 16 then .next (doStrapRescan dt rs s) else .fault .illFormed

/-- The committed live triple (R44). -/
def Straps.triple (st : Straps) : List Nat := [nth st.codes 12, nth st.codes 13, nth st.codes 14]

/-- The run of agreeing triples after one more (R44, R45): a triple with an invalid reading or a reserved code and the
committed triple break it. -/
def Straps.live (st : Straps) (r12 r13 r14 : StrapReading) : Straps :=
  let st := { st with readings := ((st.readings.set 12 r12.raw).set 13 r13.raw).set 14 r14.raw }
  match strapCode r12, strapCode r13, strapCode r14 with
  | some a, some b, some c =>
    let t := [a, b, c]
    if strapReserved 12 a || t == st.triple then { st with liveRun := none }
    else
      let n := match st.liveRun with
        | some (u, k) => if u == t then k + 1 else 1
        | none => 1
      { st with liveRun := some (t, n), livePend := if 3 ≤ n then some t else st.livePend }
  | _, _, _ => { st with liveRun := none }

/-- LIVE_STRAP_READ: the read of every 100 ms in Highway, Lane and Footpath (R44, R47). -/
def doLiveStrapRead (dt : Nat) (r12 r13 r14 : StrapReading) (s : State) : State :=
  let s := s.advance dt
  if s.awake then { s with straps := s.straps.live r12 r13 r14 } else s

/-- LIVE_STRAP_READ (R44). -/
def execLiveStrapRead (dt : Nat) (r12 r13 r14 : StrapReading) (s : State) : Result :=
  .next (doLiveStrapRead dt r12 r13 r14 s)

/-- A triple carries a code outside the sets of an image (R69). -/
def tripleRefused (masks t : List Nat) : Bool :=
  (List.range 3).any fun i => !bitOf (nth masks (12 + i)) (nth t i)

/-- The plan that a committed STRAP12 code selects comes into force, or a record with reason 0x04 where the image does not
define it (R63, R64). -/
def State.strapPlan (s : State) (im : Image) (code : Nat) : State :=
  match planOfCode code with
  | none => s
  | some p =>
    if im.plans.any (·.plan == p) then { s with way := { s.way with plan := some p, planSel := none } }
    else s.writeStraps 4 s.straps.invalid.toNat 0

/-- A live-strap commit at a grid mark (R44, R69), the closing of a Service window apart (R65). -/
def State.liveCommit (s : State) : State :=
  match s.straps.livePend, s.port.inForce with
  | some t, some im =>
    let s := { s with straps := { s.straps with livePend := none, liveRun := none } }
    if tripleRefused im.masks t then
      if s.straps.refused.contains t then s
      else { s with straps := { s.straps with refused := t :: s.straps.refused } }.writeStraps 3 0 0
    else
      let old := nth s.straps.codes 12
      let codes := s.straps.codes.take 12 ++ t ++ s.straps.codes.drop 15
      let s := { s with straps := { s.straps with codes := codes, invalid := s.straps.invalid &&& 0x8FFF } }
      let s := s.writeStraps 2 0 0
      if nth t 0 = old then s else s.strapPlan im (nth t 0)
  | _, _ => s

/-- SUPPLY_TRIP: VMAIN below the selected threshold for 10 ms (R57). -/
def doSupplyTrip (mv belowNs : Nat) (s : State) : State :=
  if s.straps.accepted && decide (mv < s.supplyThreshold) && decide (10000000 ≤ belowNs) then
    { s with straps := { s.straps with tripped := true } }
  else s

/-- SUPPLY_TRIP (R57). -/
def execSupplyTrip (mv : Nat) (belowNs : Nat) (s : State) : Result := .next (doSupplyTrip mv belowNs s)

/-- SUPPLY_CLEAR: VMAIN above the threshold plus 150 mV for 1 s (R57). -/
def doSupplyClear (mv aboveNs : Nat) (s : State) : State :=
  if s.straps.accepted && decide (s.supplyThreshold + 150 < mv) && decide (1000000000 ≤ aboveNs) then
    { s with straps := { s.straps with tripped := false } }
  else s

/-- SUPPLY_CLEAR (R57). -/
def execSupplyClear (mv : Nat) (aboveNs : Nat) (s : State) : Result := .next (doSupplyClear mv aboveNs s)

end Sys2Proof.Machine
end

