-- ==== Sys2Proof/Machine/Load.lean ====
section
/-! DEFINITION. The image port and the loader (03_route_image.md): bus release, load attempts, image hold, prepared
islands and the commit mark. The commit itself is an effect of GRID_MARK. -/

namespace Sys2Proof.Machine

/-! ### The bus (R91, R94, R95, R97) -/

/-- Continuous read is left by the exit sequence of JESD216 (R94). -/
def ImagePort.leaveCont (p : ImagePort) : ImagePort :=
  if p.cont then { p with cont := false, ops := p.ops ++ [.exitCont] } else p

/-- The device returns to its power-on state: steps 1 and 2 of R91 (R95). -/
def ImagePort.toPowerOn (p : ImagePort) : ImagePort :=
  { p with cont := false, octal := false, ops := p.ops ++ [.exitCont, .resetPair true, .resetPair false] }

/-- The pads of the image port go to high impedance, continuous read left before (R94, R95, R97). -/
def ImagePort.float (p : ImagePort) : ImagePort :=
  { p.leaveCont with drive := false, ckKhz := 0, ops := p.leaveCont.ops ++ [.float] }

/-- The image bus in Footpath and Layby: in high impedance (R97). -/
def State.floatImageBus (s : State) : State := if s.port.drive then { s with port := s.port.float } else s

/-! ### The record and the end of a load -/

/-- The IMAGE-LOAD record (R99). -/
def State.loadRecord (s : State) (result src trigger sect : Nat) (h : Option Header) (detail : Nat) : State :=
  s.writeRec 0x11 s.mark
    [word (at_ result 24 + at_ src 16 + at_ trigger 8 + sect),
     (match h with
      | some h => h.imageId
      | none => 0),
     word ((match h with
      | some h => at_ h.rollback 24 + b2n h.signed
      | none => 0) + at_ s.fuses.rollback 16 + at_ (b2n s.sealedOp) 1),
     word detail]

/-- The reply to a RELOAD-IMAGE whose load has ended (R98, R457). -/
def State.finishReload (s : State) (reply : Option (Nat × BitVec 16)) (result : Nat) : State :=
  match reply with
  | some (c, cmp) => s.resolveResult c cmp 0x0C result [s.imageId]
  | none => s

/-- A load ends without a commit: continuous read is left; image hold where no image is in force, the reply otherwise (R83,
R94, R98). -/
def State.endLoad (s : State) (l : Load) (result : Nat) : State :=
  let s := { s with port := { s.port.leaveCont with load := none, lastEnd := s.now } }
  if s.port.inForce.isNone then
    { s with port := { s.port with hold := true }, power := { s.power with mode0 := true, mode1 := true } }
  else s.finishReload l.reply result

/-- The source that a load reads now (R82). -/
def State.loadSource (s : State) (l : Load) : Nat := s.sourceOrder.getD l.tried 0xFF

/-- A source yields no committed image: its record, then the next source or the end of the load (R82, R99). Its attempt has
ended, so continuous read is left on its device before the next one is read (R94). -/
def State.sourceFailed (s : State) (l : Load) (result sect : Nat) (h : Option Header) (detail : Nat) : State :=
  let s := s.loadRecord result (s.loadSource l) l.trigger sect h detail
  let l' := { l with tried := l.tried + 1, staged := none, ready := [] }
  if l'.tried < s.sourceOrder.length then { s with port := { s.port.leaveCont with load := some l' } }
  else s.endLoad l' result

/-- A load in progress is abandoned: what was staged on the roads is undone, the record is written, and the load ends
(R95, R511). -/
def State.abandonLoad (s : State) (result : Nat) : State :=
  match s.port.load with
  | none => s
  | some l =>
    let h := l.staged.map (·.hdr)
    let s := if l.staged.isSome then s.unstageRoads else s
    (s.loadRecord result (s.loadSource l) l.trigger 0 h 0).endLoad l result

/-! ### Pads -/

/-- BUS_RELEASE: IMGREL_N goes low. The device returns to its power-on state, the bus floats, and a load that still reads
is abandoned (R95). A load that has not begun to read, as in the 1 ms before the hub may drive the bus, counts as one that still
reads: its record carries RESULT 0x14 and the source it would read next (DESIGN CHOICE, assumption-log row 74). -/
def doBusRelease (dt : Nat) (s : State) : State :=
  let s := s.advance dt
  let s := { s with port := { (if s.port.drive then (s.port.toPowerOn).float else s.port) with rel := false, riseAt := none } }
  match s.port.load with
  | some l => if l.staged.isNone then s.abandonLoad 0x14 else s
  | none => s

/-- BUS_RELEASE (R95). -/
def execBusRelease (dt : Nat) (s : State) : Result := .next (doBusRelease dt s)

/-- IMGREL_RISE: IMGREL_N goes high; the hub may drive the bus 1 ms later (R96). -/
def doImgrelRise (dt : Nat) (s : State) : State :=
  let s := s.advance dt
  if s.port.rel then s else { s with port := { s.port with rel := true, riseAt := some s.now } }

/-- IMGREL_RISE (R96). -/
def execImgrelRise (dt : Nat) (s : State) : Result := .next (doImgrelRise dt s)

/-- The hub may drive the image bus (R84, R96, R97). -/
def State.mayDrive (s : State) : Bool :=
  s.port.rel && (match s.port.riseAt with
    | some t => decide (t + msPs 1 ≤ s.now)
    | none => true)

/-- The halves of the prefetch buffer after a read in 2 KiB block b (R94). -/
def fetchBlock (w : List (Option Nat)) (b : Nat) : List (Option Nat) :=
  match w with
  | [h0, h1] => if h0 = some b then w else if h1 = some b then [some (b + 1), h1] else [some b, some (b + 1)]
  | _ => [some b, some (b + 1)]

/-! ### Validation -/

/-- The outcome of reading and validating one source: an image, or RESULT, FAILED_SECT, header and DETAIL (R85, R99). -/
inductive LoadOutcome where
  | good (im : Image)
  | bad (result sect : Nat) (h : Option Header) (detail : Nat)
  deriving Repr

/-- A finding as an outcome: its offset becomes an offset in the image (R99). -/
def Find.outcome (f : Find) (h : Header) (es : List SectEntry) : LoadOutcome :=
  let base := match es.find? (·.id == f.sect) with
    | some e => if f.sect = 0 then 0 else e.offset
    | none => 0
  .bad f.code f.sect (some h) (base + f.off)

/-- The steps of R85 on what a device holds. -/
def State.validate (s : State) (dev : FlashDev) : LoadOutcome :=
  if !dev.answers then .bad 0x01 0 none 0
  else if !dev.sfdp || decide (dev.density < 16384) then .bad 0x02 0 none 0
  else if dev.octal && !dev.strobe then .bad 0x03 0 none 0
  else
    let h := parseHeader dev.bytes
    let bs := dev.bytes.take h.totalLen ++ List.replicate (min h.totalLen 0x01000000 - dev.bytes.length) 0
    let es := parseTable bs h.nsect
    match (checkHeader bs dev).head? with
    | some f => f.outcome h es
    | none =>
      match (checkSignature bs h es (s.sealedOp || s.sealRequest) s.fuses.keyHash ++
          checkRollback h s.fuses.rollback).head? with
      | some f => f.outcome h es
      | none =>
        let raw := es.map fun e => (e.id, sectBytes bs e)
        let hash := (es.find? (·.id == 15)).map fun e => keyHashOf (sectBytes bs e)
        let im := parseImage h raw hash
        match firstFind (checkHeaderReserved bs h es ++ checkSections im) with
        | some f => f.outcome h es
        | none =>
          let key := if h.enc then unwrapKey Config.privKey Config.serial (bs.take 32) (rawSect raw 13) else none
          if h.enc && key.isNone then .bad 0x12 13 (some h) ((es.find? (·.id == 13)).map (·.offset) |>.getD 0)
          else
            let im := { im with kcmd := key }
            match firstFind (checkStraps s im) with
            | some f => f.outcome h es
            | none =>
              match firstFind (checkRefs im ++ checkDemand s im ++ checkCapacity im) with
              | some f => f.outcome h es
              | none =>
                match firstFind (checkScan im) with
                | some f => f.outcome h es
                | none => .good im

/-- The sequence before discovery: it returns a device to its power-on state (R91). -/
def resetOps : List BusOp := [.exitCont, .resetPair true, .resetPair false, .wait 100]

/-- Discovery in 1S-1S-1S at 12.5 MHz: SFDP by 0x5A with three address bytes and 8 dummy clocks (R92). -/
def discoverOps : List BusOp := [.sfdp 12500 0x5A 3 8]

/-- Reading: 8D-8D-8D at ck kHz with the command and the dummy cycles that SFDP gives, or 1S-1S-1S at 25 MHz with 0x13 and
four address bytes (R92). -/
def readOps (octal : Bool) (ck cmd dummy : Nat) : List BusOp :=
  if octal then [.enterOctal, .readOctal ck cmd dummy] else [.readSingle 25000 0x13 4]

/-- The device's SFDP can be used (R92). -/
def devUsable (dev : FlashDev) : Bool := dev.answers && dev.sfdp && decide (16384 ≤ dev.density)

/-- The hub's bus after a source has been read at IMG_CK of ck kHz: driven, the device in 8D-8D-8D and in continuous read where
it offers them (R91, R92, R94). -/
def ImagePort.afterRead (p : ImagePort) (ck : Nat) (dev : FlashDev) : ImagePort :=
  let n := ceilDiv (min (parseHeader dev.bytes).totalLen 0x01000000) 2048
  let octal := dev.octal && devUsable dev
  { p with
    riseAt := none, drive := true, octal := octal, cont := dev.cmdOmitted && devUsable dev
    ckKhz := if !devUsable dev then 12500 else if octal then ck else 25000
    ops := resetOps ++ discoverOps ++ (if devUsable dev then readOps octal ck dev.readCmd dev.dummy else [])
    window := if devUsable dev then (List.range n).foldl fetchBlock [none, none] else [none, none] }

/-- LOAD_ATTEMPT: the hub reads one source and validates it; a valid image goes to the islands (R82, R85, R89). A source that
is due while IMGREL_N is low, as after an island that failed to prepare, stays due until 1 ms after the next rise of IMGREL_N
(DESIGN CHOICE, assumption-log row 74: R82 does not say whether the load waits or ends). -/
def doLoadAttempt (dt : Nat) (src : Nat) (dev : FlashDev) (s : State) : State :=
  let s := s.advance dt
  match s.port.load with
  | none => s
  | some l =>
    if l.staged.isNone && s.straps.accepted && s.loadSource l == src && s.mayDrive then
      let out := s.validate dev
      let s := { s with port := s.port.afterRead s.imgCk dev }
      match out with
      | .bad result sect h detail => s.sourceFailed l result sect h detail
      | .good im =>
        let s := { s with port := { s.port with load := some { l with src := src, staged := some im, ready := [] } } }
        match s.port.inForce with
        | some old => if rawSect im.raw 4 = rawSect old.raw 4 then s else s.stageRoads im
        | none => s
    else s

/-- LOAD_ATTEMPT (R85). -/
def execLoadAttempt (dt : Nat) (src : Fin 2) (dev : FlashDev) (s : State) : Result :=
  .next (doLoadAttempt dt src.val dev s)

/-- IMAGE_HOLD_RETRY: in image hold, 10 s after the last attempt ended or 1 ms after a rising edge of IMGREL_N, the full
source order is tried again (R83). -/
def doImageHoldRetry (dt : Nat) (s : State) : State :=
  let s := s.advance dt
  let due := match s.port.riseAt with
    | some t => decide (t + msPs 1 ≤ s.now)
    | none => s.port.rel && decide (s.port.lastEnd + secPs 10 ≤ s.now)
  if s.port.hold && s.port.load.isNone && due then
    { s with port := { s.port with load := some (newLoad 3 none), riseAt := none } }
  else s

/-- IMAGE_HOLD_RETRY (R83). -/
def execImageHoldRetry (dt : Nat) (s : State) : Result := .next (doImageHoldRetry dt s)

/-! ### Preparing and the commit mark -/

/-- The steward names the commit mark once every island is ready: two marks after the last report; at a start not before
the memory die and the random source are ready (R89, R523). -/
def State.nameCommit (s : State) : State :=
  match s.port.load with
  | none => s
  | some l =>
    if l.staged.isSome && l.commit.isNone && (List.range 12).all (fun i => l.ready.contains i) &&
        (s.running || (s.power.memDone && s.power.session.isSome)) then
      { s with port := { s.port with load := some { l with commit := some (s.mark + 2) } } }
    else s

/-- An island has prepared the terms of a verified calibration restore, or has failed to (R157, R158): the restore commits at
the second mark after the last one. -/
def State.restoreReady (s : State) (island : Nat) (ok : Bool) : State :=
  match s.mot.restore with
  | none => s
  | some r =>
    if !r.verified || r.commit.isSome then s
    else if !ok then { s with mot := { s.mot with restore := none } }.resolveResult r.client r.cmp 0x09 0x07 [0]
    else
      let ready := if r.ready.contains island then r.ready else r.ready ++ [island]
      { s with mot := { s.mot with restore := some { r with
        ready := ready, commit := if (List.range 12).all (fun i => ready.contains i) then some (s.mark + 2) else none } } }

/-- An island has prepared its sections of a staged image, or has failed to (R89). -/
def State.imageReady (s : State) (l : Load) (im : Image) (island : Nat) (ok : Bool) : State :=
  if !ok then s.unstageRoads.sourceFailed l 0x13 0 (some im.hdr) 0
  else if island = 4 && !s.roadsReady then s
  else { s with port := { s.port with load := some { l with ready := l.ready ++ [island] } } }.nameCommit

/-- ISLAND_READY: what an island reports counts for a staged image until it has reported for that image, and for a verified
calibration restore otherwise (R89, R158). -/
def doIslandReady (island : Nat) (ok : Bool) (s : State) : State :=
  match s.port.load with
  | none => s.restoreReady island ok
  | some l =>
    match l.staged with
    | none => s.restoreReady island ok
    | some im =>
      if l.commit.isSome || l.ready.contains island then s.restoreReady island ok else s.imageReady l im island ok

/-- ISLAND_READY (R89). -/
def execIslandReady (island : Fin 12) (ok : Bool) (s : State) : Result := .next (doIslandReady island.val ok s)

end Sys2Proof.Machine
end

