-- ==== Sys2Proof/Machine/Store.lean ====
section
/-! DEFINITION. The Causeway's own commands (12_causeway.md) and placement, spill and roll-up (13_placement.md): opening and
closing, readers' requests, findings in memory, resets, roll-up units, reduction jobs and the spill pager. -/

namespace Sys2Proof.Machine

/-! ### Sample words of a closed packet -/

/-- The payload of a packet as an internal reader sees it: uncorrectable lines replaced (R326). -/
def Packet.readWords (p : Packet) : List Word := ((p.image 0).drop 4).take p.words.length

/-- Raw sample words: origin classes 0–2 in a data packet (R354, R356). -/
def Packet.isRaw (p : Packet) : Bool := decide (tagOrigin p.tag < 3) && p.typ == 1

/-- Axes of the instants of a raw packet (R119, R356). -/
def Packet.axes (p : Packet) : Nat := if tagOrigin p.tag = 0 ∧ fld p.tag 18 15 = 3 then 3 else 1

/-- Sample spacing in instants of 1/8192 s at a rate code (R119). -/
def spacing (rate : Nat) : Nat := 2 ^ (19 - min rate 19)

/-- Interval length in grid marks at a rate code (R356). -/
def intervalMarks (rate : Nat) : Nat := max 1024 (2 ^ (16 - min rate 16))

/-- The instants of a raw packet with their words, one per axis, as an internal reader sees them (R111, R326). -/
def Packet.samples (p : Packet) : List (Nat × List Word) :=
  if p.injected then [(8 * p.mark, p.readWords.take 1)]
  else (chunks p.axes p.readWords).zipIdx.map fun (ws, i) => (8 * p.mark + i * spacing p.rate, ws)

/-! ### Roll-up (R356–R358) -/

/-- Statistics of an axis before its first word. -/
def AxisStat.init : AxisStat :=
  { used := 0, excl := 0, sum := 0, sq := 0, least := 0, most := 0, lost := false, robust := false, late := false, beyond := false }

/-- One word into the statistics of its axis (R356, R358). -/
def AxisStat.take (a : AxisStat) (w : Word) : AxisStat :=
  let c := sampleCode w
  let v := sampleVal w
  if codeUsed c then
    { a with used := a.used + 1, sum := a.sum + v, sq := a.sq + v * v,
             least := if a.used = 0 then v else min a.least v, most := if a.used = 0 then v else max a.most v,
             robust := a.robust || c == 2 || c == 5, late := a.late || c == 0x40, beyond := a.beyond || c == 0x23 }
  else { a with excl := a.excl + 1, lost := a.lost || c == 0x41 }

/-- COUNT, MEAN, MIN, MAX and SD of an axis (R358). -/
def AxisStat.words (a : AxisStat) : List Word :=
  countWord a.used a.excl a.lost a.robust a.late a.beyond ::
    (if a.used = 0 then List.replicate 4 f32Nan
     else [f32OfRat a.sum a.used, f32OfInt a.least, f32OfInt a.most,
           f32OfSqrt (a.used * a.sq - a.sum * a.sum).toNat (a.used * a.used)])

/-- The words of one instant into the last interval of an accumulator, or into a new one. -/
def rollCells (cells : List (Nat × List AxisStat)) (iv : Nat) (ws : List Word) : List (Nat × List AxisStat) :=
  let take (l : List AxisStat) : List AxisStat := (l.zip ws).map fun (a, w) => a.take w
  match cells.getLast? with
  | some (k, l) =>
    if k = iv then cells.dropLast ++ [(k, take l)] else cells ++ [(iv, take (List.replicate ws.length AxisStat.init))]
  | none => [(iv, take (List.replicate ws.length AxisStat.init))]

/-- An accumulator for a raw packet that begins a run (R357). -/
def RollAcc.start (p : Packet) : RollAcc :=
  { tag := p.tag, rate := p.rate, axes := p.axes, klass := p.klass, first := p.mark, last := p.mark, pkts := 1, cells := [] }

/-- One instant into an accumulator; with it the accumulators closed because they hold 16 intervals (R357). -/
def RollAcc.take (x : RollAcc × List RollAcc) (d : Nat × List Word) : RollAcc × List RollAcc :=
  let (a, out) := x
  let len := 8 * intervalMarks a.rate
  let a := if a.cells.isEmpty then { a with first := d.1 / 8, pkts := 1 } else a
  let a := { a with cells := rollCells a.cells (d.1 / len) d.2, last := d.1 / 8 }
  if a.cells.length = 16 ∧ (d.1 + spacing a.rate) / len ≠ d.1 / len then ({ a with cells := [] }, out ++ [a]) else (a, out)

/-- The next raw packet continues the run of an accumulator (R357): it goes on in its last interval, or begins the one after it
where the accumulator holds fewer than 16. -/
def RollAcc.continues (a : RollAcc) (p : Packet) : Bool :=
  a.rate == p.rate && a.axes == p.axes &&
    (match a.cells.getLast? with
     | some (k, _) => p.mark / intervalMarks a.rate == k || (p.mark / intervalMarks a.rate == k + 1 && decide (a.cells.length < 16))
     | none => true)

/-- One raw packet into a unit's accumulators, least recently used first, at most 64: the accumulators after it and those
that close, in order (R357). -/
def rollIn (accs : List RollAcc) (p : Packet) : List RollAcc × List RollAcc :=
  let rest := accs.filter (·.tag != p.tag)
  let (a, closed) := match accs.find? (·.tag == p.tag) with
    | some a => if a.continues p then ({ a with pkts := a.pkts + 1, klass := p.klass }, []) else (RollAcc.start p, [a])
    | none => (RollAcc.start p, [])
  let (rest, closed) := if 64 ≤ rest.length then (rest.drop 1, closed ++ rest.take 1) else (rest, closed)
  let (a, out) := p.samples.foldl RollAcc.take (a, [])
  (if a.cells.isEmpty then rest else rest ++ [a], closed ++ out)

/-- The roll-up packet of an accumulator (R358). -/
def RollAcc.packet (a : RollAcc) : Packet :=
  let iv := (a.cells.head?.map (·.1)).getD 0
  { wholePacket 15 a.tag (iv * intervalMarks a.rate)
      (word (at_ a.cells.length 24 + at_ a.axes 16 + at_ a.rate 8) :: a.cells.flatMap fun c => c.2.flatMap AxisStat.words) with
    typ := 3, subst := true, rate := a.rate }

/-- Its SUBSTITUTED record (R337). -/
def RollAcc.record (a : RollAcc) : Packet :=
  recPacket 5 (tagView a.tag) a.first [a.tag, word a.last, word (at_ (satN 16 a.pkts) 16 + at_ a.klass 8), 0]

/-- Accumulators that close: each roll-up packet and its SUBSTITUTED record (R357, R359). -/
def State.writeRolls (s : State) (l : List RollAcc) : State :=
  l.foldl (fun s a => if a.cells.isEmpty then s else (s.writePacket a.packet).writePacket a.record) s

/-- One class 3 packet whose lines were taken, into the CAUSEWAY island's accumulators (R357). -/
def State.rollOne (s : State) (p : Packet) : State :=
  let (accs, out) := rollIn s.cw.roll3 p
  { s with cw := { s.cw with roll3 := accs } }.writeRolls out

/-- Class 3 packets whose lines were taken are rolled up, oldest first (R357). -/
def State.flushRollsF : Nat → State → State
  | 0, s => s
  | f + 1, s =>
    match s.cw.rollq with
    | [] => s
    | p :: q => State.flushRollsF f ({ s with cw := { s.cw with rollq := q } }.rollOne p)

/-- The roll-up unit of the CAUSEWAY island works off what the allocator has overwritten (R357). -/
def State.flushRolls (s : State) : State :=
  if s.storing then State.flushRollsF (s.cw.rollq.length + 64) s else s

/-- What the allocator has overwritten is reported and rolled up (R310, R357). -/
def State.settle (s : State) : State := s.flushLost.flushRolls

/-! ### Opening and closing (R308, R309) -/

/-- The whole grid-mark index of 32 low bits, looking back from the mark in progress. -/
def State.fullMark (s : State) (m : Word) : Nat := s.mark - (word s.mark - m).toNat

/-- PACKET_OPEN: a producer opens a packet and the allocator reserves its lines (R308, R310). -/
def doPacketOpen (q : OpenReq) (s : State) : State :=
  if s.storing && decide (q.producer < 16) && decide (1 ≤ q.maxWords) && decide (q.maxWords ≤ 16376) &&
      (s.cw.openOf q.tag).isNone then
    (s.openFor (openPacket q.producer q.tag (s.fullMark q.mark) q.maxWords)).settle
  else s

/-- PACKET_OPEN (R308). -/
def execPacketOpen (req : OpenReq) (s : State) : Result := .next (doPacketOpen req s)

/-- PACKET_CLOSE: the open packet of a source tag closes; it takes its global milepost and the mileposts of the readers that
admit it (R308, R309, R314). -/
def doPacketClose (tag : Word) (s : State) : State := if s.storing then (s.closePacket tag).settle else s

/-- PACKET_CLOSE (R308). -/
def execPacketClose (tag : Word) (s : State) : Result := .next (doPacketClose tag s)

/-! ### Requests of the readers (R319–R323, R461) -/

/-- The cursor of reader r stands at a packet boundary (R323), and no response of its port is under way. -/
def State.atBoundary (s : State) (r : Nat) : Bool :=
  s.cw.offset r == 0 && (r != 4 || s.hs.took.isEmpty) && (r != 5 || s.tw.took.isEmpty)

/-- A reader whose rewind to M takes effect (R320, R461). -/
def Reader.rewound (rd : Reader) (m : Word) : Reader :=
  { rd with next := m, gapTo := none, pend := none, skip := none, acked := if later32 rd.acked (m - 1) then m - 1 else rd.acked }

/-- What stream delivery keeps after a rewind to M: lines at and after M are to be sent again (R411). -/
def UpClient.rewound (u : UpClient) (m : Word) : UpClient := { u with flight := u.flight.filter fun x => later32 m x.1 }

/-- The port buffer of a Guest whose cursor a request has moved holds nothing until the next grid mark (R471). -/
def State.emptyBuffer (s : State) (r : Nat) : State :=
  let f (p : Port) : Port := { p with bufLines := p.bufLines.map fun _ => 0 }
  if r = 4 then { s with hs := f s.hs } else if r = 5 then { s with tw := f s.tw } else s

/-- REWIND_TAKE_EFFECT (R320, R323): at the packet boundary the cursor moves to M and the reply is built. -/
def doRewindTakeEffect (r : Nat) (s : State) : State :=
  match (nth s.cw.readers r).pend with
  | some q =>
    match q.rewindTo with
    | some m =>
      if s.atBoundary r then
        ({ s with
          cw := (s.cw.onReader r (·.rewound m)).peaks
          up := { s.up with clients := s.up.clients.modify r (·.rewound m) } }.emptyBuffer r).resolveResult q.client q.cmp 0x03 0x00 []
      else s
    | none => s
  | none => s

/-- REWIND_TAKE_EFFECT (R320). -/
def execRewindTakeEffect (rd : Fin 11) (s : State) : Result := .next (doRewindTakeEffect rd.val s)

/-- A reader whose flush takes effect: the cursor past the newest close, and the FLUSHED record (R319, R336). -/
def Reader.flushed (rd : Reader) (r lines mark : Nat) : Reader :=
  { rd with next := rd.count + 1, gapTo := none, pend := none, part := none, lineOff := 0, jumps := [], skip := none,
            inserts := rd.inserts ++ rd.jumps.map (·.ins) ++
              [{ kind := 2, w4 := word (at_ 1 24 + at_ r 16), w5 := rd.next, w6 := rd.count, w7 := word (satN 32 lines),
                 mark := mark }] }

/-- FLUSH_TAKE_EFFECT (R319, R323). -/
def doFlushTakeEffect (r : Nat) (s : State) : State :=
  match (nth s.cw.readers r).pend with
  | some q =>
    if q.rewindTo.isNone && s.atBoundary r then
      ({ s with cw := s.cw.onReader r (·.flushed r (s.cw.backlogRaw r) s.mark) }.emptyBuffer r).resolveResult q.client q.cmp 0x04 0x00 []
    else s
  | none => s

/-- FLUSH_TAKE_EFFECT (R319). -/
def execFlushTakeEffect (rd : Fin 11) (s : State) : Result := .next (doFlushTakeEffect rd.val s)

/-! ### Findings in memory (R325–R327) -/

/-- Grid marks of 24 h. -/
def dayMarks : Nat := 88473600

/-- Marks within the last 24 h. -/
def lastDay (now : Nat) (l : List Nat) : List Nat := l.filter fun m => decide (now < m + dayMarks)

/-- What the code makes of an error (R324, R330): one symbol of a line, or one bit of a ring word, is corrected, two are
detected, three or more are detected or miscorrected. -/
inductive Fate where
  | clean | corrected | detected | wrong
  deriving DecidableEq, Repr, Inhabited

/-- What the code makes of a finding (R324, R330). -/
def fateOf (f : LineFinding) : Fate :=
  if f.errors = 0 then .clean else if f.errors = 1 then .corrected
  else if f.errors = 2 || f.caught then .detected else .wrong

/-- A correctable error in a bank (R325, R530, R532). -/
def State.corrected (s : State) (bank : Nat) : State :=
  { s with
    cw := { s.cw with corr := s.cw.corr.modify bank (· + 1) }
    age := { s.age with
      corrScrub := s.age.corrScrub.modify bank (· + 1)
      corr24 := s.age.corr24.modify bank fun l => s.mark :: lastDay s.mark l } }

/-- An uncorrectable line damages the packet that holds it (R326). -/
def Packet.damage (p : Packet) (line : Nat) : Packet :=
  if p.start ≤ line ∧ line < p.start + p.lines ∧ 4 * (line - p.start) < 4 + p.words.length ∧
      !(p.bad.contains (line - p.start)) then
    { p with bad := p.bad ++ [line - p.start] }
  else p

/-- An uncorrectable line of the memory die, found for the first time (R326, R327, R328): how 1 a read, 2 the scrub. -/
def State.lostLine (s : State) (line how : Nat) : State :=
  let bank := line / bankLines
  let twin := if bank = 24 then line + 4 * bankLines else line - 4 * bankLines
  let both := (bank == 24 || bank == 28) && s.cw.badLines.contains twin
  let cw := { s.cw with
    badLines := s.cw.badLines ++ [line]
    uncorr := s.cw.uncorr + 1
    uncorr24 := s.cw.uncorr24.modify bank fun l => s.mark :: lastDay s.mark l
    closed := s.cw.closed.map fun (p : Packet) => if p.inCw then p.damage line else p
    opens := s.cw.opens.map fun (p : Packet) => p.damage line
    resetDue := if both then 4 else s.cw.resetDue }
  { s with cw := cw }.writeError 0x05 bank (word (line % bankLines)) (word how) 1

/-- The n-th packet that reader r delivers from its cursor on, 0 the first, with fuel (R325). -/
def Causeway.nthPacket : Nat → Causeway → Nat → Nat → Option (Packet × Word)
  | 0, _, _, _ => none
  | f + 1, cw, r, n =>
    match cw.nextItem r with
    | .nothing => none
    | .pkt p m => if n = 0 then some (p, m) else Causeway.nthPacket f (cw.pass r) r (n - 1)
    | _ => Causeway.nthPacket f (cw.pass r) r n

/-- The packet is the n-th of those that a read by reader r takes (R325). -/
def Causeway.readBy (cw : Causeway) (r n : Nat) (p : Packet) : Bool :=
  match Causeway.nthPacket (4 * n + (nth cw.readers r).inserts.length + 8) cw r n with
  | some (_, m) => p.mpOf r == some m
  | none => false

/-- A line or a word of a packet that could not be read from spill or from the ring (R326, R330, R366). -/
def Packet.unread (p : Packet) (ring : Bool) (k : Nat) : Packet :=
  if ring then (if p.badWords.contains k then p else { p with badWords := p.badWords ++ [k] })
  else if p.bad.contains k then p else { p with bad := p.bad ++ [k] }

/-- Words of a packet, payload word i on, replaced as far as it goes. -/
def Packet.put (p : Packet) (i : Nat) (ws : List Word) : Packet :=
  { p with words := p.words.mapIdx fun j w => if i ≤ j ∧ j < i + ws.length then nth ws (j - i) else w }

/-- Payload words of line k of a packet start at this one (R304): line 0 is its header. -/
def lineWord (k : Nat) : Nat := 4 * k - 4

/-- Closed and open packets, and those of the ring, changed where a condition holds. -/
def Causeway.edit (cw : Causeway) (ring : Bool) (sel : Packet → Bool) (f : Packet → Packet) : Causeway :=
  let g (p : Packet) : Packet := if sel p then f p else p
  if ring then { cw with ring := cw.ring.map g } else { cw with closed := cw.closed.map g, opens := cw.opens.map g }

/-- Four fresh free words. -/
def State.takeLine (s : State) : List Word × State :=
  ([Config.freeWord s.free, Config.freeWord (s.free + 1), Config.freeWord (s.free + 2), Config.freeWord (s.free + 3)],
   { s with free := s.free + 4 })

/-- A line of the memory die that is miscorrected (R324): payload words of the packet that holds it become free values; a header
line reads as its completion entry has it (R308; DESIGN CHOICE, assumption-log row 15). -/
def State.wrongLine (s : State) (line : Nat) : State :=
  let (ws, s) := s.takeLine
  let on (p : Packet) : Bool := (p.gmp == 0 || p.inCw) && decide (p.start < line) && decide (line < p.start + p.lines)
  { s with cw := s.cw.edit false on fun p => p.put (lineWord (line - p.start)) ws }

/-- An uncorrectable line k of the packets in spill that a condition selects (R326): the packet is damaged, and the line is
reported once. A line in spill has no bank: UNIT and DETAIL0 of the record are free values (DESIGN CHOICE, assumption-log row 90). -/
def State.lostInSpill (s : State) (how : Nat) (on : Packet → Bool) (k : Nat) : State :=
  if s.cw.closed.any fun (p : Packet) => on p && !(p.bad.contains k) then
    let (unit, s) := s.takeNat
    let (line, s) := s.takeWord
    { s with cw := s.cw.edit false on (·.unread false k) }.writeError 0x05 (unit % 256) line (word how) 1
  else s

/-- One finding, of the scrub (how 2) or of a read (how 1), of whose packets sel says which is the n-th (R324–R326, R330). -/
def State.finding (s : State) (how : Nat) (sel : Nat → Packet → Bool) (f : LineFinding) : State :=
  match f.place, fateOf f with
  | _, .clean => s
  | .die line, .corrected => if 32 * bankLines ≤ line then s else s.corrected (line / bankLines)
  | .die line, .wrong => if 32 * bankLines ≤ line then s else (s.corrected (line / bankLines)).wrongLine line
  | .die line, .detected => if 32 * bankLines ≤ line ∨ s.cw.badLines.contains line then s else s.lostLine line how
  | _, .corrected => s
  | .spill n k, .detected => s.lostInSpill how (fun p => sel n p && p.onlySpill) k
  | .spill n k, .wrong =>
    let (ws, s) := s.takeLine
    { s with cw := s.cw.edit false (fun p => sel n p && p.onlySpill && k != 0) (·.put (lineWord k) ws) }
  | .ring n k, .detected => { s with cw := s.cw.edit true (sel n) (·.unread true k) }
  | .ring n k, .wrong =>
    let (w, s) := s.takeWord
    { s with cw := s.cw.edit true (fun p => sel n p && decide (4 ≤ k)) (·.put (k - 4) [w]) }
  | .copy n k, .detected => { s with cw := { s.cw with ring := s.cw.ring.modify n (·.unread true k) } }
  | .copy n k, .wrong =>
    let (w, s) := s.takeWord
    { s with cw := { s.cw with ring := s.cw.ring.modify n fun p => if 4 ≤ k then p.put (k - 4) [w] else p } }

/-- No packet of a read is named. -/
def noPacket (_ : Nat) (_ : Packet) : Bool := false

/-- The findings of a read of selected packets (R325, R326). -/
def State.findings (s : State) (how : Nat) (sel : Nat → Packet → Bool) (fs : List LineFinding) : State :=
  fs.foldl (fun s f => s.finding how sel f) s

/-- How the select of a descriptor is asserted (R367): once for the transfer, or with WORD once for each 32-bit word; a select that
the one before it holds goes on. -/
def Desc.assert (d : Desc) (held : Bool) (runs : List (Nat × Nat)) : List (Nat × Nat) :=
  let parts := if d.word then List.replicate (d.len / 4) (d.dev, 4) else [(d.dev, d.len)]
  match held, runs.getLast?, parts with
  | true, some x, p :: ps => runs.dropLast ++ (x.1, x.2 + p.2) :: ps
  | _, _, _ => runs ++ parts

/-- The port executes descriptors one at a time: CONT holds the select for the next one, which must name the same device; a
descriptor that names another while a select is held is not executed (R367). -/
def Spill.run (sp : Spill) (d : Desc) : Spill :=
  if sp.sel.isSome && sp.sel != some d.dev then sp
  else { sp with descs := sp.descs ++ [d], sel := if d.cont then some d.dev else none,
                 selects := d.assert sp.sel.isSome sp.selects }

/-- A new action of the pager: its descriptors, each built once the one before it has been executed (R367). -/
def Spill.execute (sp : Spill) (ds : List Desc) : Spill := ds.foldl Spill.run { sp with descs := [], sel := none, selects := [] }

/-- The devices that hold lines of a page, in the order of the stripe set (R361, R363). -/
def Page.devs (pg : Page) : List Nat := (List.range 4).filter fun d => bitOf pg.devmask d

/-- Line i of a page is on the i-th device of its stripe set, counted modulo their number (R361). -/
def Page.deviceOf (pg : Page) (i : Nat) : Nat := nth pg.devs (i % max 1 pg.devs.length)

/-- The transfer of a page's lines on device number j of its stripe set: lines j, j + D, j + 2 D and so on (R361). -/
def Page.lineDesc (pg : Page) (cmd : PortCmd) (j : Nat) : Desc :=
  { dev := pg.deviceOf j, cmd := cmd, addr := Config.spillAddr pg.page, len := 18432 / max 1 pg.devs.length,
    share := some (j, pg.devs.length), data := [], word := false, cont := false }

/-- Descriptors that read a page from the devices that hold it (R361, R363, R366). -/
def Page.readDescs (pg : Page) : List Desc := (List.range pg.devs.length).map (pg.lineDesc .read)

/-- A reader whose next packet is held in spill only has its page read (R320, R367). -/
def State.fetchSpill (s : State) (r : Nat) : State :=
  match s.cw.nextItem r with
  | .pkt p _ =>
    if p.onlySpill then
      match s.spill.pages.find? fun pg => p.page == some pg.seq with
      | some pg => { s with spill := s.spill.execute pg.readDescs }
      | none => s
    else s
  | _ => s

/-- A read by reader r, with what it finds (R320, R325, R326). -/
def State.readFindings (s : State) (r : Nat) (fs : List LineFinding) : State :=
  (s.fetchSpill r).findings 1 (s.cw.readBy r) fs

/-- The unspilled packets with lines in a bank are lost with it (R327); spilled ones stay in spill. -/
def Packet.bankLost (p : Packet) (bank : Nat) : Packet :=
  if p.inCw && overlap p.start p.lines (bank * bankLines) bankLines then
    { p with inCw := false, lost := if p.page.isSome then p.lost else 6 }
  else p

/-- The memory die is retired: its unspilled packets are lost (R327). -/
def Packet.dieLost (p : Packet) : Packet :=
  if p.inCw then { p with inCw := false, lost := if p.page.isSome then p.lost else 6 } else p

/-- A bank is retired (R327, R530): st is its STATE of R532. -/
def State.retireBank (s : State) (bank st : Nat) : State :=
  if s.cw.retired.contains bank then s
  else
    let n := (s.cw.closed.filter fun (p : Packet) => p.inCw && p.page.isNone &&
      overlap p.start p.lines (bank * bankLines) bankLines).length
    let cw : Causeway := { s.cw with retired := s.cw.retired ++ [bank], closed := s.cw.closed.map (·.bankLost bank) }
    let dead := decide (4 < cw.retired.length)
    let cw : Causeway := if dead then { cw with dieRetired := true, closed := cw.closed.map Packet.dieLost } else cw
    { s with cw := cw, age := { s.age with bankSt := s.age.bankSt.set bank st } }.writeError 0x06 bank 0 0 n

/-- Banks with more than 16 uncorrectable lines within 24 h are retired, at a grid mark (R327). -/
def State.retireDue (s : State) : State :=
  (List.range 32).foldl (fun s b =>
    if 16 < (lastDay s.mark (nth s.cw.uncorr24 b)).length then s.retireBank b 1 else s) s

/-- The scrub interval of R530 after an interval with these corrected counts: hours, and calm intervals in a row. -/
def scrubPlan (h calm : Nat) (counts : List Nat) : Nat × Nat :=
  if counts.any fun n => decide (64 < n) then (if h ≤ 1 then 1 else if h = 3 then 1 else h / 2, 0)
  else if counts.all fun n => decide (n < 4) then
    (if calm = 6 then ((if h = 1 then 3 else min 24 (2 * h)), 0) else (h, calm + 1))
  else (h, 0)

/-- SCRUB: one pass over the Causeway and the working space, which ends a scrub interval (R325, R326, R530); the first one after a
wake is the background scrub of R519, which ends none (DEDUCED, assumption-log row 89). -/
def doScrub (fs : List LineFinding) (s : State) : State :=
  if s.full then
    let s := s.findings 2 noPacket fs
    if s.power.scrubDue then { s with power := { s.power with scrubDue := false } }
    else
      let (h, calm) := scrubPlan s.age.scrubH s.age.calm s.age.corrScrub
      { s with age := { s.age with scrubH := h, calm := calm, corrScrub := List.replicate 32 0 } }
  else s

/-- SCRUB (R325). -/
def execScrub (findings : List LineFinding) (s : State) : Result := .next (doScrub findings s)

/-! ### Resets of the Causeway and of the ring (R328–R330) -/

/-- The RESET record of reader r (R329, R336). -/
def resetIns (cause r : Nat) (rd : Reader) (check : Word) (mark : Nat) : Ins :=
  { kind := 3, w4 := word (at_ cause 24 + at_ r 16), w5 := rd.delivered, w6 := check + 1, w7 := rd.count + 1, mark := mark }

/-- A reader after a reset: its record is delivered next, and its cursor waits for the next close (R328). -/
def Reader.wasReset (rd : Reader) (i : Ins) : Reader :=
  { rd with next := rd.count + 1, part := none, lineOff := 0, gapTo := none, pend := none, jumps := [], skip := none,
            inserts := rd.inserts ++ rd.jumps.map (·.ins) ++ [i] }

/-- Readers that a condition selects receive a RESET record; their pending requests are answered with ABORTED cause 0x03
(R328, R461). -/
def State.resetReaders (s : State) (cause : Nat) (sel : Nat → Bool) : State :=
  let pend := (List.range 9).filterMap fun r => if sel r then (nth s.cw.readers r).pend else none
  let hit (r : Nat) (rd : Reader) : Reader :=
    if sel r then
      let x := rd.wasReset (resetIns cause r rd (nth s.spill.check r) s.mark)
      if cause = 3 then x
      else { x with saved := rd.saved.map fun c => { c with next := c.count + 1, part := none, lineOff := 0, gapTo := none, jumps := [], skip := none } }
    else rd
  let s := { s with
    cw := { s.cw with readers := s.cw.readers.mapIdx hit }
    up := { s.up with clients := s.up.clients.mapIdx fun c (u : UpClient) => if sel c then { u with frag := none } else u } }
  pend.foldl (fun s q => s.abort q.client q.cmp (if q.rewindTo.isSome then 0x03 else 0x04) 0x03) s

/-- A closed packet in a Causeway reset: lost unless it is spilled (R328). -/
def Packet.resetLost (p : Packet) : Packet :=
  if p.inCw then { p with inCw := false, lost := if p.page.isSome then p.lost else 3 } else p

/-- A reader's milepost counter at the larger of its two copies, by R9 (R328). -/
def Reader.larger (rd : Reader) (other : Word) : Reader :=
  { rd with count := if later32 other rd.count then other else rd.count }

/-- The two copies of each pointer and counter are made equal: milepost counters at the larger one (R328 step 4). -/
def Causeway.joinCopies (cw : Causeway) : Causeway :=
  { cw.other.foldl (fun (cw : Causeway) x => match x.1 with
      | .count r => cw.onReader r.val (·.larger x.2)
      | _ => cw) cw with other := [] }

/-- The copy of a pointer or counter that runs (R328): the completion ring holds the entries of the closed packets, of which the
model keeps the first and the last global milepost (DESIGN CHOICE, assumption-log row 89). -/
def Causeway.copyOf (cw : Causeway) : Twin → Word
  | .write => word cw.wptr
  | .cursor r => (nth cw.readers r.val).next
  | .count r => (nth cw.readers r.val).count
  | .ringFirst => word ((cw.closed.find? (·.inCw)).map (·.gmp) |>.getD 0)
  | .ringLast => word cw.gmp

/-- The copies that differ after some have been struck, and whether the comparison finds a mismatch (R328). -/
def Causeway.strike (cw : Causeway) (struck : List (Twin × Word)) : Causeway :=
  let other := struck.filter fun x => cw.copyOf x.1 != x.2
  { cw with other := other, resetDue := if other.isEmpty then cw.resetDue else 1 }

/-- The Causeway is reset (R328): cause 1 a mismatch, 2 the pointer bank, 4 completion entries. -/
def State.causewayReset (s : State) (cause : Nat) : State :=
  let s := { s with cw := s.cw.joinCopies }
  let n := (s.cw.closed.filter fun (p : Packet) => p.inCw && p.page.isNone).length
  let s := { s with cw := { s.cw with
    closed := s.cw.closed.map Packet.resetLost, wptr := 0, resetDue := 0, badLines := s.cw.badLines.filter (cwLines ≤ ·) } }
  (s.resetReaders cause fun r => decide (r < 9)).writeError 0x02 0 (word cause) 0 n

/-- The Footpath ring is reset (R330): the readers that read it receive a RESET record with cause 0x03. -/
def State.ringReset (s : State) : State :=
  let s := { s with cw := { s.cw with ring := [] } }
  if s.inMode .footpath then s.resetReaders 3 fun r => r == 5 || r == 7 else s

/-! ### Reports of the Causeway (R312, R341) -/

/-- Lines holding unspilled closed packets (R341 FILL). -/
def Causeway.fill (cw : Causeway) : Nat :=
  ((cw.closed.filter fun (p : Packet) => p.inCw && p.page.isNone).map (·.lines)).sum

/-- Words 8–23 of CAUSEWAY-REPORT: corrected counts, 16 bits each (R341). -/
def corrWords (l : List Nat) : List Word :=
  (chunks 2 l).map fun p => word (satN 16 (nth p 0) + at_ (satN 16 (nth p 1)) 16)

/-- Words 4–31 of CAUSEWAY-REPORT (R341). -/
def State.cwReport (s : State) : List Word :=
  [word (at_ 1 24 + at_ s.cw.retired.length 16 + s.age.scrubH), word (satN 32 s.cw.uncorr), word (satN 32 s.cw.overdraft),
   word (satN 32 s.cw.fill)] ++ corrWords s.cw.corr ++
  [word (satN 32 (nth s.cw.readers 6).peak), word (satN 32 (nth s.cw.readers 7).peak), word (satN 32 (nth s.cw.readers 8).peak),
   word (maskOf 16 fun p => decide (0 < (nth s.cw.accounts p).beyond)), 0, 0, 0, 0]

/-- The end of a 600 s period: an overdraft record for each producer that overdrew, the report, and new counts (R312, R341). -/
def State.cwPeriod (s : State) : State :=
  let words := s.cwReport
  let overs := (List.range 16).filterMap fun p =>
    if 0 < (nth s.cw.accounts p).beyond then some (p, (nth s.cw.accounts p).beyond) else none
  let s := { s with cw := { s.cw with
    accounts := s.cw.accounts.map fun (a : Account) => { a with beyond := 0 }
    uncorr := 0
    overdraft := 0
    corr := List.replicate 32 0
    readers := s.cw.readers.mapIdx fun r (rd : Reader) => if 6 ≤ r then { rd with peak := s.cw.backlog r } else rd } }
  (overs.foldl (fun (s : State) p => s.writeError 0x04 p.1 0 0 p.2) s).writeRec 0x09 s.mark words

/-! ### Reduction jobs (R348–R351) -/

/-- The entry of reduction job j in the image in force. -/
def State.redEntry (s : State) (j : Nat) : Option RedEntry := s.port.inForce.bind fun im => im.products.red[j]?

/-- First mark of the first whole period of a job that begins at or after mark n (R350). -/
def firstPeriod (e : RedEntry) (n : Nat) : Nat := ceilDiv n (e.period * 1024) * (e.period * 1024)

/-- The jobs that run now are those the plan in force places in the mode in force: those it starts begin with their first
whole period, those it does not run end (R343, R350). -/
def State.placeJobs (s : State) : State :=
  let next := s.placedJobs.filterMap fun j =>
    match s.redEntry j with
    | none => none
    | some e =>
      match s.red.next.find? (·.1 == j) with
      | some x => some x
      | none => some (j, firstPeriod e s.mark)
  { s with red := { s.red with next := next } }

/-- Job cores in the mode in force (R349). -/
def State.jobCores (s : State) : Nat := if s.inMode .highway then 7 else if s.inMode .lane then 1 else 0

/-- The released instance that a free core takes: the earliest deadline, the lower job on a tie (R349). -/
def pickInst (l : List JobInst) : Option JobInst :=
  (l.filter fun i => !i.running).foldl (fun a i => match a with
    | none => some i
    | some b => if i.deadline < b.deadline ∨ (i.deadline = b.deadline ∧ i.job < b.job) then some i else some b) none

/-- The lowest job core that runs no instance (R349). -/
def freeCore (cores : Nat) (l : List JobInst) : Option Nat :=
  ((List.range cores).map (· + 1)).find? fun c => l.all fun i => i.core != c

/-- Free cores take released instances (R349), with fuel. -/
def dispatchF : Nat → Nat → List JobInst → List JobInst
  | 0, _, l => l
  | f + 1, cores, l =>
    match freeCore cores l, pickInst l with
    | some c, some i => dispatchF f cores (l.map fun x => if x == i then { x with core := c } else x)
    | _, _ => l

/-- An instance on a core that the mode does not run waits again (R349, R505; DESIGN CHOICE, assumption-log row 89). -/
def JobInst.within (i : JobInst) (cores : Nat) : JobInst := if i.core ≤ cores then i else { i with core := 0 }

/-- Free cores of the mode in force take released instances (R349). -/
def State.dispatch (s : State) : State :=
  { s with red := { s.red with insts := dispatchF 7 s.jobCores (s.red.insts.map (·.within s.jobCores)) } }

/-- The packet is an input of a reduction entry (R348). -/
def RedEntry.inputOf (e : RedEntry) (p : Packet) : Bool := p.typ == 1 && e.insrc == (p.tag &&& 0xFFFFFF00)

/-- The input packets of a reduction entry that reader RC has received (R313, R348). -/
def State.inputsOf (s : State) (e : RedEntry) : List Packet :=
  s.cw.closed.filter fun (p : Packet) => e.inputOf p && (p.mpOf 7).isSome

/-- A stream has yet to write a word whose reference instant lies before instant b (R110, R111): its last such window has not
closed. -/
def StreamSt.owes (x : StreamSt) (now b : Nat) : Bool :=
  let p := periodOf x.entry.rate
  let b := match x.ends with
    | some e => min e b
    | none => b
  let last := (b - 1) / p * p
  decide (0 < b) && decide (x.first ≤ last) && decide (now ≤ last + groupDelay x.entry.template * p)

/-- An input packet of a reduction entry that holds an instant before mark fin is still to come (R349): it is open, or a word of
it is still in a filter, in a conversion or in a pin engine's open receive packet. -/
def State.inputOwed (s : State) (e : RedEntry) (fin : Nat) : Bool :=
  (s.cw.opens.any fun (p : Packet) => e.inputOf p && decide (p.mark < fin)) ||
    match tagOrigin e.insrc with
    | 0 => s.mot.streams.any fun x => x.num == tagKind e.insrc && x.owes s.mot.instant (8 * fin)
    | 1 =>
      let ch := fld e.insrc 24 19
      let c := nth s.fe.ch ch
      (c.conv.toList ++ c.old).any (fun v => decide (v.refMark < fin)) ||
        s.fe.waiting.any fun w => w.ch == ch && decide (w.conv.refMark < fin)
    | 3 => ((nth s.pin.eng (fld e.insrc 24 19)).rx).any fun k => decide (k.mark < fin)
    | _ => false

/-- REDUCTION_RELEASE: the instance of a job's next period, once reader RC has received every input packet that holds an
instant of it (R349); the findings are those of RC's reads of them (R325, R326). -/
def doReductionRelease (job : Nat) (fs : List LineFinding) (s : State) : State :=
  match s.red.next.find? (·.1 == job), s.redEntry job with
  | some (_, first), some e =>
    let fin := first + e.period * 1024
    if s.full && decide (fin ≤ s.mark) && !s.inputOwed e fin then
      let i : JobInst := { job := job, entry := e, first := first, release := s.mark, deadline := s.mark + e.deadline, core := 0 }
      let inputs := s.inputsOf e
      let s := s.findings 1 (fun n p => (inputs[n]?).any (·.gmp == p.gmp)) fs
      { s with
        red := { insts := s.red.insts ++ [i], next := s.red.next.map fun (x : Nat × Nat) => if x.1 = job then (job, fin) else x } }.dispatch
    else s
  | _, _ => s

/-- REDUCTION_RELEASE (R349). -/
def execReductionRelease (job : Reads Nat) (s : State) : Result := .next (doReductionRelease job.what job.findings s)

/-- Statistics of the input words of an instance. -/
structure RedStat where
  used : Nat
  excl : Nat
  sum : Int
  sq : Int
  least : Int
  most : Int
  peak : Nat          -- largest magnitude
  peakMark : Nat      -- grid mark of the first word that has it
  deriving DecidableEq, Repr, Inhabited

/-- One used value into the statistics. -/
def RedStat.use (a : RedStat) (v : Int) (mark : Nat) : RedStat :=
  let higher := a.used = 0 ∨ a.peak < v.natAbs
  { a with used := a.used + 1, sum := a.sum + v, sq := a.sq + v * v,
           least := if a.used = 0 then v else min a.least v, most := if a.used = 0 then v else max a.most v,
           peak := if higher then v.natAbs else a.peak, peakMark := if higher then mark else a.peakMark }

/-- One sample word into the statistics (R356). -/
def RedStat.sample (a : RedStat) (w : Word) (mark : Nat) : RedStat :=
  if codeUsed (sampleCode w) then a.use (sampleVal w) mark else { a with excl := a.excl + 1 }

/-- A pin receive packet into the statistics: every DATA word, those of uncorrectable lines excluded (R348). -/
def RedStat.pin (a : RedStat) (p : Packet) : RedStat :=
  ((p.words.drop 4).zipIdx.foldl fun (a : RedStat) (w, i) =>
    if p.bad.contains (2 + i / 4) then { a with excl := a.excl + 1 } else a.use w.toInt p.mark) a

/-- The input packets of an instance, as reader RC received them (R348, R349). -/
def State.redInputs (s : State) (i : JobInst) : List Packet := s.inputsOf i.entry

/-- Statistics over the input words of an instance's period. -/
def State.redStat (s : State) (i : JobInst) : RedStat :=
  let fin := i.first + i.entry.period * 1024
  let zero : RedStat := { used := 0, excl := 0, sum := 0, sq := 0, least := 0, most := 0, peak := 0, peakMark := 0 }
  (s.redInputs i).foldl (fun (x : RedStat) (p : Packet) =>
    if tagOrigin p.tag = 3 then
      (if i.first ≤ p.mark ∧ p.mark < fin then x.pin p else x)
    else
      p.samples.foldl (fun (x : RedStat) (d : Nat × List Word) =>
        if 8 * i.first ≤ d.1 ∧ d.1 < 8 * fin then d.2.foldl (fun a w => a.sample w (d.1 / 8)) x else x) x) zero

/-- The input was not sampled for part of the period (R351): one of the instants of its rate whose sample period reaches into the
period is missing. -/
def State.redPartial (s : State) (i : JobInst) : Bool :=
  let ps := s.cw.closed.filter i.entry.inputOf
  match ps.getLast? with
  | none => tagOrigin i.entry.insrc != 3
  | some p =>
    if tagOrigin p.tag = 3 || p.injected then false
    else
      let sp := spacing p.rate
      let a := 8 * i.first / sp * sp
      let b := 8 * (i.first + i.entry.period * 1024)
      let seen := (ps.map fun p => (p.samples.filter fun d => decide (a ≤ d.1) && decide (d.1 < b)).length).sum
      decide (seen < ceilDiv (b - a) sp)

/-- A value in LSB, the quotient n / d, scaled by SCALE (R351). -/
def scaledRat (scale : Word) (n : Int) (d : Nat) : Word :=
  if f32Finite scale then f32OfRat (n * f32Int scale) (d * 2 ^ 149) else Config.realFn 10 [scale, f32OfRat n d]

/-- The root of a quotient in LSB squared, scaled by SCALE (R351). -/
def scaledSqrt (scale : Word) (n d : Nat) : Word :=
  if f32Finite scale then
    let r := f32OfSqrt (n * (f32Int scale).natAbs ^ 2) (d * 2 ^ 298)
    if f32Int scale < 0 then f32Neg r else r
  else Config.realFn 10 [scale, f32OfSqrt n d]

/-- Words 8–11 of a reduction product (R351). -/
def redValues (op : Nat) (scale : Word) (a : RedStat) : List Word :=
  let none_ := a.used == 0
  match op with
  | 0 =>
    if none_ then List.replicate 4 f32Nan
    else [scaledRat scale a.sum a.used, scaledRat scale a.least 1, scaledRat scale a.most 1,
          scaledSqrt scale (a.used * a.sq - a.sum * a.sum).toNat (a.used * a.used)]
  | 1 => [if none_ then f32Nan else scaledSqrt scale a.sq.toNat a.used, 0, 0, 0]
  | _ => if none_ then [f32Nan, 0, 0, 0] else [scaledRat scale (a.peak : Int) 1, word a.peakMark, 0, 0]

/-- The product of an instance (R351). -/
def State.redPacket (s : State) (i : JobInst) : Packet :=
  let a := s.redStat i
  wholePacket 14 (productTag i.entry.kind i.entry.view) i.first
    ([word (at_ (b2n (decide (i.deadline < s.mark))) 31 + at_ (b2n (s.redPartial i)) 30 + satN 30 a.used),
      word (satN 32 a.excl), 0, 0] ++ redValues i.entry.op i.entry.scale a)

/-- REDUCTION_COMPLETE: the running instance of a job writes its product; its core takes the next (R349–R351). -/
def doReductionComplete (job : Nat) (s : State) : State :=
  match s.red.insts.find? fun i => i.running && i.job == job with
  | some i =>
    if s.full then
      ({ s with red := { s.red with insts := s.red.insts.erase i } }.dispatch.writePacket (s.redPacket i)).settle
    else s
  | none => s

/-- REDUCTION_COMPLETE (R350). -/
def execReductionComplete (job : Nat) (s : State) : Result := .next (doReductionComplete job s)

/-! ### The spill pager (R361–R366) -/

/-- Numbers of the devices in the stripe set. -/
def Spill.stripe (sp : Spill) : List Nat := (List.range 4).filter fun d => (nth sp.devs d).state == 0

/-- The smallest density that a start finds on the devices of the stripe set (R361). -/
def Spill.leastDensity (sp : Spill) : Nat :=
  match sp.stripe.map fun d => (nth sp.devs d).density with
  | [] => 0
  | d :: ds => ds.foldl min d

/-- Usable pages (R361, R530). -/
def Spill.usable (sp : Spill) : Nat := 63 * sp.density * sp.stripe.length / (64 * 18432) - sp.lostPages

/-- F has reached n per cent (R355). -/
def Spill.reached (sp : Spill) (n : Nat) : Bool := decide (n * sp.usable ≤ 100 * sp.pages.length)

/-- F is n per cent or less (R355). -/
def Spill.atMost (sp : Spill) (n : Nat) : Bool := decide (100 * sp.pages.length ≤ n * sp.usable)

/-- F in whole per cent (R360). -/
def Spill.percent (sp : Spill) : Nat := if sp.usable = 0 then 0 else 100 * sp.pages.length / sp.usable

/-- The packet is raw and held in spill (R355). -/
def Packet.rawInSpill (p : Packet) : Bool := p.isRaw && p.page.isSome && p.isHeld

/-- Raw packets of a class in spill, oldest first. -/
def State.spillRaw (s : State) (k : Nat) : List Packet := s.cw.closed.filter fun (p : Packet) => p.rawInSpill && p.klass == k

/-- Class 1 raw older than AGE1 (R353, R355). -/
def State.spillOld (s : State) : List Packet :=
  let age := ((s.port.inForce.map (·.age1)).getD 0) * 3686400
  (s.spillRaw 1).filter fun (p : Packet) => decide (p.mark + age < s.mark)

/-- What a roll-up stage works on, in its order (R355). -/
def State.stageWork (s : State) (stage : Nat) : List Packet :=
  match stage with
  | 0 => s.spillRaw 2
  | 1 => s.spillOld
  | _ => s.spillRaw 1 ++ s.spillRaw 0

/-- The stages of R355 after a change of F: started at 85, 95 and 98 %, stopped at 83, 93 and 96 % or when nothing remains. -/
def State.updateStages (s : State) : State :=
  let next (i start stop : Nat) : Bool :=
    !(s.stageWork i).isEmpty &&
      (if nth s.spill.stages i then !s.spill.atMost stop else s.spill.reached start)
  { s with spill := { s.spill with stages := [next 0 85 83, next 1 95 93, next 2 98 96] } }

/-- Mark of the oldest raw packet still in spill, low 32 bits (R360). -/
def State.oldestRaw (s : State) : Word :=
  match (s.cw.closed.filter Packet.rawInSpill).map (·.mark) with
  | [] => 0
  | m :: ms => word (ms.foldl min m)

/-- The STORE-FULL record (R360). -/
def State.storeFull (s : State) (stage : Nat) : State :=
  s.writeRec 0x0A s.mark
    [word (at_ stage 24 + at_ s.spill.percent 16), s.oldestRaw, word (satN 32 (s.spill.usable - s.spill.pages.length)), 0]

/-- After a change of F: stages, the alarm's end at 96 % and the stall at 100 % with no raw left (R355, R360). -/
def State.afterFill (s : State) : State :=
  let s := s.updateStages
  let s := if s.spill.alarm && s.spill.atMost 96 then { s with spill := { s.spill with alarm := false } }.storeFull 3 else s
  let full := decide (0 < s.spill.usable) && s.spill.reached 100 && !(s.cw.closed.any Packet.rawInSpill)
  if full && !s.spill.stalled then { s with spill := { s.spill with stalled := true } }.storeFull 2
  else if s.spill.stalled && !s.spill.reached 100 then { s with spill := { s.spill with stalled := false } }
  else s

/-- Packets that a stream of the pager takes next, in close order (R362). -/
def Causeway.toSpill (cw : Causeway) (stream : Nat) : List Packet :=
  cw.closed.filter fun (p : Packet) => p.isHeld && p.page.isNone && p.klass == stream

/-- A packet that the pager takes is still unspilled (R313, R361). -/
def Causeway.unspilled (cw : Causeway) : Bool := (List.range 3).any fun k => !(cw.toSpill k).isEmpty

/-- The pager runs in Lane: once FILL exceeds LANE_SPILL sixteenths of the Causeway, until no packet that it takes is unspilled,
and while held packets are unspilled (R361; DEDUCED, assumption-log row 41). -/
def State.laneRuns (s : State) : Bool :=
  let limit := ((s.planEntry.map (·.laneSpill)).getD 12) * (cwLines / 16)
  (s.cw.unspilled && (s.spill.laneRun || decide (limit < s.cw.fill))) ||
    s.cw.closed.any fun (p : Packet) => p.held && p.isHeld && p.page.isNone

/-- What a page takes: lines left in it, packets waiting with the lines of the first already stored. -/
structure PageFill where
  done : List Packet               -- packets whose last line it holds
  carry : Option (Nat × Nat)       -- the packet that goes on into the next page, and its lines stored so far
  npkt : Nat                       -- packets that start in it
  first : Option (Nat × Nat)       -- the first of them: global milepost and mark
  deriving DecidableEq, Repr, Inhabited

/-- The packet that goes on from the page before comes first, the others in close order (R362). -/
def carryFirst (carry : Option (Nat × Nat)) (ps : List Packet) : List Packet :=
  let on (p : Packet) : Bool := carry.any (·.1 == p.gmp)
  ps.filter on ++ ps.filter fun p => !on p

/-- Packets into a page of `room` lines (R362). -/
def fillPage : List Packet → Option (Nat × Nat) → Nat → PageFill
  | [], _, _ => { done := [], carry := none, npkt := 0, first := none }
  | p :: ps, carry, room =>
    let had := match carry with
      | some (g, n) => if g = p.gmp then n else 0
      | none => 0
    if room = 0 then { done := [], carry := none, npkt := 0, first := none }
    else if room < p.lines - had then
      { done := [], carry := some (p.gmp, had + room), npkt := b2n (had == 0),
        first := if had = 0 then some (p.gmp, p.mark) else none }
    else
      let r := fillPage ps none (room - (p.lines - had))
      { r with done := p :: r.done, npkt := r.npkt + b2n (had == 0),
               first := if had = 0 then some (p.gmp, p.mark) else r.first }

/-- The checkpoint after packets are committed: per reader the newest milepost (R364). -/
def checkAfter (old : List Word) (ps : List Packet) : List Word :=
  old.mapIdx fun r m => ps.foldl (fun m p => match p.mpOf r with
    | some k => if m = 0 ∨ later32 k m then k else m
    | none => m) m

/-- The block of its devices in which a page lies (R365, R530). -/
def Spill.blockOf (sp : Spill) (page : Nat) : Nat := page / max 1 (nth sp.devs (sp.stripe.headD 0)).blockPages

/-- A visible page lies in block b (R365). -/
def Spill.blockHeld (sp : Spill) (b : Nat) : Bool := sp.pages.any fun pg => sp.blockOf pg.page == b

/-- The next page of the circle that may be programmed, with fuel (R365, R533): one not programmed since its block was erased, or
one of a block without a visible page, which is erased first. -/
def Spill.freePage (sp : Spill) : Nat → Nat → Nat
  | 0, i => i
  | f + 1, i => if sp.used.contains i && sp.blockHeld (sp.blockOf i) then sp.freePage f ((i + 1) % max 1 sp.usable) else i

/-- A device is polled for its status, word by word (R365, R367). -/
def pollDesc (d : Nat) : Desc :=
  { dev := d, cmd := .status, addr := 0, len := 4, share := none, data := [], word := true, cont := false }

/-- Descriptors that erase blocks on every device of the stripe set (R365). -/
def Spill.eraseDescs (sp : Spill) (blocks : List Nat) : List Desc :=
  let size := max 1 (nth sp.devs (sp.stripe.headD 0)).blockPages
  blocks.flatMap fun b => sp.stripe.flatMap fun d =>
    [{ dev := d, cmd := .erase, addr := Config.spillAddr (b * size), len := 0, share := none, data := [], word := false, cont := false },
     pollDesc d]

/-- Blocks erased: their pages may be programmed again (R365). -/
def Spill.erased (sp : Spill) (blocks : List Nat) : Spill :=
  { sp with used := sp.used.filter fun i => !(blocks.contains (sp.blockOf i)) }

/-- The block of a page that is about to be programmed, where it must be erased first (R365). -/
def Spill.eraseFor (sp : Spill) (i : Nat) : List Nat := if sp.used.contains i then [sp.blockOf i] else []

/-- Reader SP's cursor: the first packet it has admitted that is not yet committed (R313, R362). -/
def Causeway.moveSp (cw : Causeway) : Causeway :=
  let left := cw.closed.find? fun (p : Packet) => p.isHeld && p.page.isNone && (p.mpOf 6).isSome
  cw.onReader 6 fun rd => { rd with next := match left with
    | some p => (p.mpOf 6).getD (rd.count + 1)
    | none => rd.count + 1 }

/-- The pager can commit a page now (R361, R366). -/
def State.pagerRuns (s : State) : Bool :=
  s.spill.done && !s.spill.stripe.isEmpty && !s.spill.stalled && decide (s.spill.pages.length < s.spill.usable) &&
    (s.inMode .highway || (s.inMode .lane && s.laneRuns))

/-- Low and high word of SEQ (R363). -/
def seqWords (seq : Nat) : List Word := [word seq, word (seq / 2 ^ 32)]

/-- The journal entry of a page (R363). Where no packet starts in the page, FIRST_GMP and FIRST_MARK are 0 (DESIGN CHOICE,
assumption-log row 89). -/
def Page.entryWords (pg : Page) : List Word :=
  let ws := seqWords pg.seq ++
    [word pg.page, word (at_ pg.stream 30 + at_ pg.devmask 26 + pg.npkt), word ((pg.first.map (·.1)).getD 0),
     word ((pg.first.map (·.2)).getD 0), 0]
  ws ++ [crc32c (bytesOfWords ws)]

/-- The milepost checkpoint of a page (R364): word 11 is the CRC over words 0–10 and the entry's SEQ. -/
def Page.checkWords (pg : Page) : List Word := pg.checkpoint ++ [crc32c (bytesOfWords (pg.checkpoint ++ seqWords pg.seq))]

/-- The descriptors of a page commit, in the order of R365: the page's lines on every device and each program confirmed, then
on every device the 48-byte checkpoint and, without releasing the select, the 32-byte journal entry (R361, R363, R364, R367;
DESIGN CHOICE, assumption-log row 85). -/
def commitDescs (pg : Page) : List Desc :=
  let data (j : Nat) : List Desc := [pg.lineDesc .program j, pollDesc (pg.deviceOf j)]
  let journal (d : Nat) : List Desc :=
    [{ dev := d, cmd := .program, addr := Config.journalAddr pg.seq, len := 48, share := none, data := pg.checkWords, word := false, cont := true },
     { dev := d, cmd := .program, addr := Config.journalAddr pg.seq + 48, len := 32, share := none, data := pg.entryWords, word := false,
       cont := false }, pollDesc d]
  (List.range pg.devs.length).flatMap data ++ pg.devs.flatMap journal

/-- SPILL_PAGE_COMMIT: the open page of a stream is committed with its checkpoint and journal entry (R362–R365); the findings
are those of reader SP's reads for it (R325). -/
def doSpillPageCommit (stream : Nat) (fs : List LineFinding) (s : State) : State :=
  if s.pagerRuns && !(s.cw.toSpill stream).isEmpty then
    let s := s.findings 1 noPacket fs
    let cands := carryFirst (nth s.spill.carry stream) (s.cw.toSpill stream)
    let f := fillPage cands (nth s.spill.carry stream) 1024
    let gs := f.done.map (·.gmp)
    let check := checkAfter s.spill.check f.done
    let idx := s.spill.freePage s.spill.usable (s.spill.nextPage % max 1 s.spill.usable)
    let erase := s.spill.eraseFor idx
    let descs := s.spill.eraseDescs erase
    let s := { s with spill := s.spill.erased erase }
    let pg : Page := { seq := s.spill.seq + 1, page := idx, stream := stream, devmask := maskOf 4 fun d => s.spill.stripe.contains d,
                       npkt := f.npkt, first := f.first, tail := f.carry.map (·.1), checkpoint := check }
    let commit (p : Packet) : Packet :=
      if p.isHeld && p.page.isNone && gs.contains p.gmp then { p with page := some pg.seq } else p
    let s := { s with
      cw := { s.cw with closed := s.cw.closed.map commit }.moveSp
      spill := { s.spill with
        pages := s.spill.pages ++ [pg], used := s.spill.used ++ [idx], seq := pg.seq, check := check, nextPage := (idx + 1) % max 1 s.spill.usable
        carry := s.spill.carry.set stream f.carry, laneRun := s.inMode .lane } }
    let s := { s with spill := s.spill.execute (descs ++ commitDescs pg) }
    let s := { s with spill := { s.spill with laneRun := s.inMode .lane && s.laneRuns } }
    s.afterFill
  else s

/-- SPILL_PAGE_COMMIT (R365). -/
def execSpillPageCommit (stream : Reads (Fin 3)) (s : State) : Result :=
  .next (doSpillPageCommit stream.what.val stream.findings s)

/-- A page still holds something: a packet committed by it, or one that goes on from it into a later page (R362, R365). -/
def Causeway.pageUsed (cw : Causeway) (pg : Page) : Bool :=
  cw.closed.any fun (p : Packet) => p.isHeld && (p.page == some pg.seq || (pg.tail == some p.gmp && p.page.isSome))

/-- Pages with nothing left in them are free, and a block without a visible page is erased, after the transfers of the action in
progress (R355, R365). -/
def State.freePages (s : State) (before : List Desc) : State :=
  let gone := s.spill.pages.filter fun pg => !s.cw.pageUsed pg
  let sp := { s.spill with pages := s.spill.pages.filter s.cw.pageUsed }
  let blocks := (gone.map fun pg => sp.blockOf pg.page).eraseDups.filter fun b => !sp.blockHeld b
  { s with spill := (sp.execute (before ++ sp.eraseDescs blocks)).erased blocks }

/-- A page without raw packets left, one of which was rolled up: what remains in it goes into the class 0 stream (R355). -/
def Causeway.carryOver (cw : Causeway) (seq : Nat) : Causeway :=
  if cw.closed.any fun (p : Packet) => p.page == some seq && p.rawInSpill then cw
  else
    let move (p : Packet) : Packet := if p.page == some seq && p.isHeld then { p with page := none, klass := 0 } else p
    { cw with closed := cw.closed.map move }

/-- The raw packet that the roll-up unit takes next and the stage it works for (R355): the oldest of the active stages. -/
def State.rollPick (s : State) : Option (Nat × Packet) :=
  let one (i : Nat) : List (Nat × Packet) :=
    if nth s.spill.stages i then
      (if i = 2 && !(s.spillRaw 1).isEmpty then (s.spillRaw 1).map fun (p : Packet) => (i, p) else (s.stageWork i).map fun (p : Packet) => (i, p))
    else []
  (one 0 ++ one 1 ++ one 2).foldl (fun a x => match a with
    | none => some x
    | some b => if x.2.gmp < b.2.gmp then some x else some b) none

/-- The packet that the roll-up unit takes, as the read of it leaves it (R325, R326). -/
def State.rollRead (s : State) (p : Packet) : Packet := (s.cw.closed.find? (·.gmp == p.gmp)).getD p

/-- SPILL_ROLLUP: the SPILL island's unit rolls up the oldest raw packet that a stage names (R355, R357); what its
read meets (R325) is a free value, since the command has no operand. -/
def doSpillRollup (s : State) : State :=
  if s.full && s.spill.done then
    match s.rollPick with
    | none => s
    | some (_, q) =>
      let (fs, s) := s.takeFindings
      let s := s.findings 1 (fun _ p => p.gmp == q.gmp) fs
      let p := s.rollRead q
      let reads := ((s.spill.pages.find? fun pg => p.page == some pg.seq).map Page.readDescs).getD []
      let (accs, out) := rollIn s.spill.accs p
      let gone (q : Packet) : Packet := if q.gmp == p.gmp then { q with inCw := false, lost := 1 } else q
      let s := { s with
        spill := { s.spill with accs := accs }
        cw := { s.cw with closed := s.cw.closed.map gone }.carryOver (p.page.getD 0) }
      let s := s.writeRolls out
      let s := s.freePages reads
      let s := if p.klass = 0 && !s.spill.alarm then { s with spill := { s.spill with alarm := true } }.storeFull 1 else s
      s.afterFill.settle
  else s

/-- SPILL_ROLLUP (R357). -/
def execSpillRollup (s : State) : Result := .next (doSpillRollup s)

/-- A device leaves the stripe set, with its ERROR record (R366). -/
def State.dropDevice (s : State) (dev cause : Nat) : State :=
  let s := { s with spill := { s.spill with
    devs := s.spill.devs.modify dev fun d => { d with state := 1 }, fault := true } }
  let kept := s.spill.stripe.isEmpty && ((s.cw.toSpill 0).length + (s.cw.toSpill 1).length + (s.cw.toSpill 2).length != 0)
  s.writeError 0x07 dev (word cause) 0 (b2n kept)

/-- SPILL_DEVICE_FAIL: a device failed a program, an erase or a transfer, or did not answer (R366). -/
def doSpillDeviceFail (dev cause : Nat) (s : State) : State :=
  if s.spill.done && (nth s.spill.devs dev).state == 0 && s.full then (s.dropDevice dev cause).afterFill else s

/-- SPILL_DEVICE_FAIL (R366): causes 1–3 of its table. -/
def execSpillDeviceFail (dev : Fin 4) (cause : Fin 5) (s : State) : Result :=
  if 1 ≤ cause.val ∧ cause.val ≤ 3 then .next (doSpillDeviceFail dev.val cause.val s) else .fault .illFormed

/-- A device passes discovery: it answers with a density of 16 KiB or more and offers 8D-8D-8D (R92, R361). -/
def passes (d : SpillDev) : Bool := d.answers && d.octal && decide (16384 ≤ d.density)

/-- A device as discovery leaves it: the sequences of R91 and R92 on its select, then 8D-8D-8D at SPL_CK (R61, R361, R532); what
the planner keeps of its wear stays (R526, R530). -/
def SpillUnit.found (u : SpillUnit) (d : SpillDev) (ck : Nat) : SpillUnit :=
  { u with
    state := 0, density := d.density, blockPages := d.blockPages, spare := d.spare
    ops := resetOps ++ discoverOps ++ (if passes d then readOps true ck d.readCmd d.dummy else []) }

/-- The words of a journal entry are whole and their CRC is good (R363). -/
def entryGood (ws : List Word) : Bool := ws.length == 8 && ws.getLast? == some (crc32c (bytesOfWords (ws.take 7)))

/-- The words of a checkpoint are whole and their CRC is good beside a SEQ (R364). -/
def checkGood (ws : List Word) (seq : Nat) : Bool :=
  ws.length == 12 && ws.getLast? == some (crc32c (bytesOfWords (ws.take 11 ++ seqWords seq)))

/-- The page that a place of the journals names (R363–R365): the first device whose entry is good gives it, and the checkpoint
belongs to it where one device holds both with good CRCs; none where no device's entry is good. -/
def journalPage (e : JournalEntry) : Option (Page × Option (List Word)) :=
  (e.copies.find? fun c => entryGood c.2).map fun c =>
    let w (i : Nat) : Nat := (nth c.2 i).toNat
    let seq := w 0 + w 1 * 2 ^ 32
    let check := ((e.copies.filter fun x => entryGood x.2).find? fun x => checkGood x.1 seq).map fun x => x.1.take 11
    ({ seq := seq, page := w 2, stream := fld (nth c.2 3) 31 30, devmask := fld (nth c.2 3) 29 26, npkt := fld (nth c.2 3) 11 0,
       first := if fld (nth c.2 3) 11 0 = 0 then none else some (w 4, w 5), tail := none,
       checkpoint := check.getD (List.replicate 11 0) }, check)

/-- The visible pages of a journal: good entries in unbroken sequence (R365). -/
def visiblePages : Option Nat → List JournalEntry → List (Page × Option (List Word))
  | _, [] => []
  | prev, e :: es =>
    match journalPage e with
    | some x => if prev.all fun k => x.1.seq == k + 1 then x :: visiblePages (some x.1.seq) es else []
    | none => []

/-- The checkpoint that a start takes: of the visible page with the highest SEQ whose checkpoint is good (R315, R364). -/
def startCheckpoint (vis : List (Page × Option (List Word))) : List Word :=
  ((vis.filterMap (·.2)).getLast?).getD (List.replicate 11 0)

/-- A reader that resumes from the journal: what it counted since the start moves up by LAST_KNOWN (R315). -/
def Reader.resume (rd : Reader) (k : Word) : Reader :=
  { rd with count := rd.count + k, next := rd.next + k, lastKnown := k,
            delivered := if rd.delivered = 0 then k else rd.delivered + k }

/-- A packet closed since the start, renumbered (R315). -/
def Packet.resume (p : Packet) (check : List Word) : Packet :=
  { p with mps := p.mps.map fun m => (m.1, m.2 + nth check m.1) }

/-- The DISCONTINUITY record of a start (R336, R525). -/
def startIns (r : Nat) (k : Word) (page mark : Nat) : Ins :=
  { kind := 4, w4 := word (at_ 1 24 + at_ r 16), w5 := k, w6 := k + 1, w7 := word page, mark := mark }

/-- The devices that discovery finds at the selects fitted, each unanswered one removed with cause 4 (R361, R366). -/
def State.findDevices (s : State) (devs : List SpillDev) : State :=
  let n := s.spillFitted
  let found := (List.range 4).map fun i =>
    if i < n then (nth s.spill.devs i).found (nth devs i) s.splCk else SpillUnit.none_
  let failed := (List.range n).filter fun i => !passes (nth devs i)
  let s := failed.foldl (fun s i => s.dropDevice i 4)
    { s with spill := { s.spill with devs := found, done := true, drive := !s.running || s.full } }
  { s with spill := { s.spill with density := s.spill.leastDensity } }

/-- A visible page with what the model kept of it over the reset: the packet that goes on from it (R362). -/
def Spill.kept (sp : Spill) (pg : Page) : Page := { pg with tail := (sp.pages.find? (·.seq == pg.seq)).bind (·.tail) }

/-- The spill state that the visible pages give (R363, R365). -/
def Spill.recover (sp : Spill) (vis : List Page) (check : List Word) : Spill :=
  { sp with
    pages := vis.map sp.kept
    used := sp.used ++ (vis.map (·.page)).filter fun i => !(sp.used.contains i)
    check := check
    seq := (vis.getLast?.map (·.seq)).getD 0
    nextPage := match vis.getLast? with
      | some e => (e.page + 1) % max 1 sp.usable
      | none => 0 }

/-- A packet stays if the page that committed it is visible (R365). -/
def onVisible (vis : List Page) (p : Packet) : Bool :=
  match p.page with
  | some q => vis.any (·.seq == q)
  | none => true

/-- The packets and the readers after recovery: mileposts resume from the checkpoint (R315, R365). -/
def Causeway.recover (cw : Causeway) (vis : List Page) (check : List Word) : Causeway :=
  { cw with
    closed := (cw.closed.filter (onVisible vis)).map fun (p : Packet) => if p.page.isSome then p else p.resume check
    readers := cw.readers.mapIdx fun r (rd : Reader) => rd.resume (nth check r) }

/-- The DISCONTINUITY that every reader but two is given after a recovery that found pages (R315, R525). -/
def Causeway.markResume (cw : Causeway) (check : List Word) (page mark : Nat) : Causeway :=
  { cw with readers := cw.readers.mapIdx fun r (rd : Reader) =>
      if r < 9 then { rd with inserts := rd.inserts ++ [startIns r (nth check r) page mark] } else rd }

/-- SPILL_DISCOVERY_DONE: devices found and failed, the journal recovered, mileposts resumed (R315, R361, R365, R525). -/
def doSpillDiscoveryDone (devs : List SpillDev) (journal : List JournalEntry) (s : State) : State :=
  if s.straps.accepted && !s.spill.done then
    let s := s.findDevices devs
    let found := if s.spill.stripe.isEmpty then [] else visiblePages none journal
    let vis := found.map (·.1)
    let check := startCheckpoint found
    let s := { s with spill := s.spill.recover vis check, cw := s.cw.recover vis check }
    match vis.getLast? with
    | some e => { s with cw := s.cw.markResume check e.page s.mark }.updateStages
    | none => s
  else s

/-- SPILL_DISCOVERY_DONE (R365). -/
def execSpillDiscoveryDone (devs : List SpillDev) (journal : List JournalEntry) (s : State) : Result :=
  .next (doSpillDiscoveryDone devs journal s)

end Sys2Proof.Machine
end

