-- ==== Sys2Proof/Machine/Ageing.lean ====
section
/-! DEFINITION. Ageing and margin planning (21_ageing.md): slack measurements and the steps they plan, retention of the
memory die, MEMS resonance, spill wear, design life, and the margin record. -/

namespace Sys2Proof.Machine

/-! ### Timing margin (R526–R531) -/

/-- FMAX of an island (R527): STEWARD 8, SPILL and WAYMARK 4, the others 0. -/
def fMax (i : Nat) : Nat := if i = 1 then 8 else if i = 6 ∨ i = 11 then 4 else 0

/-- Nominal clock of an island in Hz (01_journey.md R21). -/
def nominalHz (i : Nat) : Nat :=
  (([50000, 100000, 65536, 0, 200000, 400000, 200000, 100000, 100000, 100000, 200000, 50000].getD i 0) * 1000 +
    (if i = 3 then 67108864 else 0))

/-- An island's voltage point set at final test (R528). -/
def testPoint (i : Nat) : Nat := (Config.finalTestPoint i).val

/-- The step that a slack measurement plans (R528): clock step?, up?; `up` is towards more slack. -/
def planStep (i : Nat) (m : Margin) : Option (Bool × Bool) :=
  if m.slack < 800 then
    if m.point < 15 then some (false, true) else if m.fstep < fMax i then some (true, true) else none
  else if m.day.all fun x => decide (1400 < x.2) then
    if 0 < m.fstep then some (true, false) else if testPoint i < m.point then some (false, false) else none
  else none

/-- A planned step taken (R528). -/
def Margin.take (m : Margin) : Margin :=
  match m.move with
  | none => m
  | some (true, up) => { m with fstep := if up then m.fstep + 1 else m.fstep - 1, move := none }
  | some (false, up) => { m with point := if up then m.point + 1 else m.point - 1, move := none }

/-- A slack measurement of island i at a mark (R526, R528, R531): slacks of the last 24 h, the run below 4 % at P15 and FMAX,
and the step it plans. -/
def Margin.measure (m : Margin) (i slack mark : Nat) : Margin :=
  let m := { m with
    slack := slack
    day := (mark, slack) :: m.day.filter fun x => decide (mark < x.1 + dayMarks)
    low := if m.point = 15 ∧ m.fstep = fMax i ∧ slack < 400 then m.low + 1 else 0 }
  { m with move := planStep i m }

/-- Moves of islands with FMAX = 0 take place at once; PIN's waits for a grid mark without a running phrase, and the others
wait for the mode decision of a grid mark (R501, R529). -/
def Margin.settleMove (m : Margin) (i : Nat) : Margin := if fMax i = 0 && i != 9 then m.take else m

/-- The steps that wait for a grid mark; PIN's only where no phrase is running (R501, R529). -/
def State.takeMoves (s : State) : State :=
  let busy := s.pin.eng.any (·.phrase.isSome)
  { s with age := { s.age with isl := s.age.isl.mapIdx fun i m => if i == 9 && busy then m else m.take } }

/-- One slack measurement of every island (R526, R528, R531): three in a row below 4 % at P15 and FMAX exhaust an island. -/
def State.measureSlack (s : State) (slacks : List Nat) : State :=
  let isl := s.age.isl.mapIdx fun i m => (m.measure i (nth slacks i) s.mark).settleMove i
  let out := maskOf 12 fun i => decide (3 ≤ (nth isl i).low)
  { s with age := { s.age with isl := isl }, power := { s.power with exhausted := s.power.exhausted ||| BitVec.ofNat 12 out } }

/-- SLACK_MEASUREMENT: the steward measures in every mode that runs it (R526, R528). -/
def doSlackMeasurement (slacks : List Nat) (s : State) : State :=
  if s.running && s.awake then s.measureSlack slacks else s

/-- SLACK_MEASUREMENT (R528). -/
def execSlackMeasurement (slacks : List Nat) (s : State) : Result :=
  if slacks.length = 12 then .next (doSlackMeasurement slacks s) else .fault .illFormed

/-! ### Retention of the memory die (R526, R530) -/

/-- Refresh interval in ms for a T_RET (R530). -/
def refreshFor (dieT : Int) (tret : Nat) : Nat := max 8 (min (if dieT ≤ 85 then 32 else 16) (tret / 4))

/-- T_RET of one bank: its refresh interval, or its retirement where T_RET / 4 falls below 8 ms (R530). -/
def State.bankRet (s : State) (bank t : Nat) : State :=
  if s.cw.retired.contains bank then s
  else
    let s := { s with age := { s.age with tret := s.age.tret.set bank t, refresh := s.age.refresh.set bank (refreshFor s.age.dieT t) } }
    if t < 32 then s.retireBank bank 2 else s

/-- RETENTION_TEST, every 24 h in Highway and Lane (R526, R530). -/
def doRetentionTest (tret : List BankRet) (s : State) : State :=
  if s.running && s.full then (List.range 32).foldl (fun s b => s.bankRet b (nth tret b)) s else s

/-- RETENTION_TEST (R530). -/
def execRetentionTest (tret : List BankRet) (s : State) : Result :=
  if tret.length = 32 then .next (doRetentionTest tret s) else .fault .illFormed

/-! ### MEMS resonance and Q (R526, R530) -/

/-- The triad has moved since its channel's last settled update, or an accelerometer's Q has halved (R530). -/
def Triad.hasMoved (t : Triad) (src : Nat) : Bool :=
  decide (1000 < (t.resPpm - t.resSettled).natAbs) || (decide (src < 3) && decide (t.qTenths < 500))

/-- MEMS_RESONANCE_TEST: accelerometers in Highway and Lane, gyroscopes while their triad runs (R526). -/
def doMemsResonanceTest (src : Nat) (resPpm : Int) (qTenths : Nat) (s : State) : State :=
  if s.running && (if src < 3 then s.full else (nth s.mot.triads src).powered) then
    { s with mot := s.mot.onTriad src fun t =>
      let t := { t with resPpm := resPpm, qTenths := qTenths }
      { t with moved := t.moved || t.hasMoved src } }
  else s

/-- MEMS_RESONANCE_TEST (R526). -/
def execMemsResonanceTest (src : Fin 5) (resPpm : Int) (qTenths : Nat) (s : State) : Result :=
  .next (doMemsResonanceTest src.val resPpm qTenths s)

/-! ### Design life (R533) -/

/-- w(T) in thousandths: the table of R533 with linear interpolation, 1.0 below its first and 5.0 above its last entry. -/
def lifeWeight (t : Int) : Nat :=
  if t ≤ 25 then 1000
  else if t ≤ 45 then 1000 + 5 * (t - 25).toNat
  else if t ≤ 85 then 1100 + 10 * (t - 45).toNat
  else if t ≤ 105 then 1500 + 50 * (t - 85).toNat
  else if t ≤ 125 then 2500 + 125 * (t - 105).toNat
  else 5000

/-- LIFE_USED in 0.1 % (R532, R533): 131,490 weighted hours are 1000. -/
def Ageing.lifeUsed (a : Ageing) : Nat := satN 16 (a.lifeNum / 131490)

/-- LIFE_HOUR: the hour's mean case temperature and its highest die temperature (R532, R533); the nominal refresh interval
follows the die temperature (R530). -/
def doLifeHour (meanCaseC dieMaxC : Int) (s : State) : State :=
  let a := s.age
  { s with age := { a with
    poweredH := satN 32 (a.poweredH + 1)
    lifeNum := a.lifeNum + lifeWeight meanCaseC
    tmax := max a.tmax dieMaxC
    dieT := dieMaxC
    refresh := a.refresh.mapIdx fun b r => if nth a.tret b = 0 then (if dieMaxC ≤ 85 then 32 else 16)
      else if s.cw.retired.contains b then r else refreshFor dieMaxC (nth a.tret b) } }

/-- LIFE_HOUR (R533). -/
def execLifeHour (meanCaseC : Int) (dieMaxC : Int) (s : State) : Result := .next (doLifeHour meanCaseC dieMaxC s)

/-! ### Spill wear (R526, R530) -/

/-- A device after a readback: n blocks retired, replaced by spares while there are any (R530). -/
def SpillUnit.wear (u : SpillUnit) (mark lines corrected n eraseTime eraseCount : Nat) : SpillUnit :=
  { u with
    retiredBlocks := u.retiredBlocks + n
    spare := u.spare - n
    eraseTime := eraseTime
    eraseCount := eraseCount
    reads := (mark, lines, corrected) :: u.reads.filter fun x => decide (mark < x.1 + dayMarks) }

/-- SPILL_PAGE_READBACK: one visible page of a device is read; a line that needs four or more corrections, or an erase
beyond its maximum, retires a block, and without spares the usable pages fall (R526, R530). -/
def doSpillPageReadback (dev : Nat) (symbols : List Nat) (eraseSlow : Bool) (eraseTime eraseCount : Nat) (s : State) : State :=
  let u := nth s.spill.devs dev
  if s.running && s.full && s.spill.done && u.state == 0 then
    let n := b2n eraseSlow + b2n (symbols.any fun k => decide (4 ≤ k))
    let s := { s with spill := { s.spill with
      devs := s.spill.devs.set dev (u.wear s.mark symbols.length symbols.sum n eraseTime eraseCount)
      lostPages := s.spill.lostPages + (n - u.spare) * u.blockPages } }
    if u.spare < n then s.afterFill else s
  else s

/-- SPILL_PAGE_READBACK (R526). -/
def execSpillPageReadback (dev : Fin 4) (symbols : List Nat) (eraseSlow : Bool) (eraseTime eraseCount : Nat) (s : State) : Result :=
  .next (doSpillPageReadback dev.val symbols eraseSlow eraseTime eraseCount s)

/-! ### The margin record (R532) -/

/-- Island entry i (R532). -/
def Margin.words (m : Margin) (i : Nat) : List Word :=
  [word (at_ m.point 28 + at_ m.fstep 24 + 1000 * (15 - m.point + fMax i - m.fstep) / (15 + fMax i)),
   word (at_ (satN 16 m.slack) 16 + satN 16 ((m.day.map (·.2)).foldl min m.slack)),
   word (at_ (Config.pointMillivolt i m.point).toNat 16),
   word (nominalHz i * (16 - m.fstep) / 16000)]

/-- Bank word (R532). -/
def Ageing.bankWord (a : Ageing) (b mark : Nat) : Word :=
  word (at_ (nth a.bankSt b) 30 + at_ (satN 14 (nth a.tret b)) 16 + satN 16 (lastDay mark (nth a.corr24 b)).length)

/-- Spill entry (R532). -/
def SpillUnit.words (u : SpillUnit) (mark : Nat) : List Word :=
  let day := u.reads.filter fun x => decide (mark < x.1 + dayMarks)
  let lines := (day.map (·.2.1)).sum
  [word (at_ u.state 30 + satN 16 u.retiredBlocks), word (at_ (satN 16 u.spare) 16 + satN 16 u.eraseTime),
   word (satN 32 u.eraseCount), word (if lines = 0 then 0 else satN 32 ((day.map (·.2.2)).sum * 1000000 / lines))]

/-- Triad entry (R532). -/
def Triad.words (t : Triad) (src : Nat) : List Word :=
  if src = 5 then [0, 0] else [wordI t.resPpm, word (at_ (satN 16 t.qTenths) 16)]

/-- The mean of C2 − 1 over the recipes in force, in 0.01 ppm (R532). -/
def State.refDrift (s : State) : Int :=
  let c2 := match s.port.inForce.bind (·.fe) with
    | some fe => fe.recipes.map fun (r : Recipe) => f32Int (nth (nth s.mot.cal (7 + r.ch)).terms 2) - 2 ^ 149
    | none => []
  if c2.isEmpty then 0 else roundDiv (c2.sum * 10 ^ 8) (2 ^ 149 * c2.length)

/-- The margin record; its word 117, the rate of a trend whose forming is not stated, is a free value (R532). -/
def State.marginRecord (s : State) (rate : Word) : List Word :=
  let ser := Config.serial.toNat
  let a := s.age
  [word (at_ 1 24 + at_ 6 16), word ser, word (ser / 2 ^ 32), word s.mark, word a.poweredH,
   word (at_ a.lifeUsed 16 + at_ (BitVec.ofInt 8 (satI 8 a.tmax)).toNat 8), word s.power.exhausted.toNat, 0] ++
  ((List.range 12).flatMap fun i => (nth a.isl i).words i) ++
  ((List.range 32).map fun b => a.bankWord b s.mark) ++
  ((List.range 4).flatMap fun d => (nth s.spill.devs d).words s.mark) ++
  ((List.range 6).flatMap fun i => (nth s.mot.triads i).words i) ++
  [wordI (satI 32 s.refDrift), rate] ++ ((List.range 6).map fun i => wordI (satI 32 (nth a.srcDrift i))) ++
  [word (maskOf 32 fun n => decide (0 < (nth s.fe.ch n).stage)), 0, 0, 0]

/-- The six fragments of a margin record (R532). -/
def marginFragments (ws : List Word) : List (List Word) := (List.range 6).map fun k => (ws.drop (24 * k)).take (if k = 5 then 8 else 24)

end Sys2Proof.Machine
end

