-- ==== Sys2Proof/Machine/HostPort.lean ====
section
/-! DEFINITION. The clocked serial port, the two-wire port and attention calls (16_host_serial.md). Ports are the client
numbers of R313: 4 the clocked serial port HS, 5 the two-wire port TW. -/

namespace Sys2Proof.Machine

/-! ### The two ports -/

/-- State of a port. -/
def State.hostPort (s : State) (c : Nat) : Port := if c = 4 then s.hs else s.tw

/-- One port changed. -/
def State.onHost (s : State) (c : Nat) (f : Port → Port) : State :=
  if c = 4 then { s with hs := f s.hs } else { s with tw := f s.tw }

/-- The HOSTPORT island serves the ports: after the strap set is accepted, outside Layby, and once it runs (R41, R442,
R524). -/
def State.hostUp (s : State) : Bool :=
  s.straps.accepted &&
    match s.power.phase with
    | .starting => true
    | .running => s.awake && nth s.power.islands 8 == .running
    | _ => false

/-- During a wake the two-wire port is served as soon as the HOSTPORT island runs (R443). -/
def State.twWoken (s : State) : Bool :=
  s.straps.accepted && s.running && s.power.waking.isSome && nth s.power.islands 8 == .running

/-- The port is enabled and served (R49, R51, R442, R443). -/
def State.portOn (s : State) (c : Nat) : Bool := (s.roleOf c).isSome && (s.hostUp || (c == 5 && s.twWoken))

/-- The hub drives HSDO: while HSEL_N is low, and with a driven code of STRAP1 while it is high; otherwise the pad is high
impedance, as in Layby (R49, R442). -/
def State.hsdoDriven (s : State) : Bool := s.hs.isOpen || (s.portOn 4 && s.hsDriven)

/-- The data of the port's reader is served in the mode in force: HS in Highway and Lane, TW also in Footpath from the ring
(R420, R442). -/
def State.dataServed (s : State) (c : Nat) : Bool :=
  s.running && nth s.power.islands 5 == .running && (s.full || (c == 5 && s.inMode .footpath))

/-- Readers of a Service port deliver nothing without a window (R53). -/
def State.portServed (s : State) (c : Nat) : Bool := s.roleOf c != some 3 || s.serviceOpen

/-- Words that a fragment of the port carries at most (R426). -/
def State.fragWords (s : State) (c : Nat) : Nat := if c = 4 then s.frameWords - 4 else 32

/-- Fragments a message may have on the port (R426). -/
def maxFrags (c : Nat) : Nat := if c = 4 then 3 else 1

/-! ### Responses (R419–R423) -/

/-- What at most n lines take of a reader's delivery, with fuel (R423). -/
def Causeway.tookF : Nat → Causeway → Nat → Nat → Nat → List Took
  | 0, _, _, _, _ => []
  | f + 1, cw, r, mark, n =>
    if n = 0 then []
    else
      let left := (cw.itemWords r mark).length / 4 - cw.offset r
      match cw.nextItem r with
      | .nothing => []
      | it => { item := it, lines := min n left, before := cw.offset r, whole := decide (left ≤ n) } ::
          (if left < n then Causeway.tookF f (cw.pass r) r mark (n - left) else [])

/-- The item is a record that waits at the cursor. -/
def Item.isIns (it : Item) : Bool :=
  match it with
  | .ins _ => true
  | _ => false

/-- Reader r after k lines of an item are delivered at a grid mark (R429, R434). -/
def Reader.takeItem (rd : Reader) (r mark : Nat) (t : Took) (k : Nat) : Reader :=
  if k < t.lines ∨ !t.whole then rd.begin_ t.item r mark (t.before + min k t.lines) else rd.pass t.item

/-- Reader r after k lines of a response are delivered at a grid mark (R429, R434). -/
def Reader.takeLines (rd : Reader) (r mark : Nat) : List Took → Nat → Reader
  | [], _ => rd
  | t :: ts, k => if k = 0 then rd else (rd.takeItem r mark t k).takeLines r mark ts (k - t.lines)

/-- Reader records that k lines deliver whole. -/
def tookIns : List Took → Nat → Nat
  | [], _ => 0
  | t :: ts, k => if k < t.lines then 0 else b2n (t.item.isIns && t.whole) + tookIns ts (k - t.lines)

/-- The reader of a port after k lines of its response are delivered: from the cursor of the snapshot, from TW's Causeway
cursor where the hub has entered Footpath since, or, where a reset has moved the cursor, only the records (R328, R332,
R429). -/
def Reader.delivers (rd : Reader) (r mark : Nat) (p : Port) (k : Nat) : Reader :=
  let only := { rd with inserts := rd.inserts.drop (tookIns p.took k) }
  if rd.next = p.from_ then rd.takeLines r mark p.took k
  else match rd.saved with
    | some c =>
      if c.next = p.from_ then
        let x := (rd.atCursor c).takeLines r mark p.took k
        { x with next := rd.next, part := rd.part, lineOff := rd.lineOff, gapTo := rd.gapTo, jumps := rd.jumps,
                 saved := some { c with next := x.next, part := x.part, lineOff := x.lineOff, gapTo := x.gapTo, jumps := x.jumps } }
      else only
    | none => only

/-- The inbound slot of a client still holds a message; a Guest sees it until the mark at which acceptance shows (R420,
R452). -/
def State.inBusy (s : State) (c : Nat) : Bool :=
  (nth s.clients c).inSlot.isSome || (match (nth s.clients c).seen with
    | some m => decide (s.mark < m)
    | none => false)

/-- Data lines of a response, at most n (R423, R471). -/
def State.dataBody (s : State) (c n : Nat) : Body :=
  let n := match (s.hostPort c).bufLines with
    | some k => if s.roleOf c == some 2 then min n k else n
    | none => if s.roleOf c == some 2 then 0 else n
  let ls := s.cw.deliverLines c s.mark n
  if ls.isEmpty then Body.none_
  else { Body.none_ with content := 1, cont := s.cw.contLines c s.mark ls.length, ws := ls.flatten,
                         took := Causeway.tookF (ls.length + 1) s.cw c s.mark ls.length }

/-- The data lines of a rejected frame, which the next response carries again where the cursor still stands where it stood for
them (R429). -/
def State.again (s : State) (c : Nat) : Option Body :=
  let p := s.hostPort c
  p.again.filter fun b => (nth s.cw.readers c).next == p.from_ && b.took.head?.map (·.before) == some (s.cw.offset c)

/-- The next fragment of the outbound message (R425, R426). -/
def State.msgBody (s : State) (c : Nat) (m : List Word) : Body :=
  let k := s.fragWords c
  let i := if (s.hostPort c).outMsg == m then (s.hostPort c).outFrag else 0
  let n := ceilDiv m.length k
  { content := 2, cont := 0, frag := i, nfrag := n, ws := padTo 4 ((m.drop (i * k)).take k), took := [], last := i + 1 == n, msg := m }

/-- What the next response of a port carries; n lines at most (R423, R425). -/
def State.nextBody (s : State) (c n : Nat) : Body :=
  let data := if s.dataServed c && s.portServed c then (s.again c).getD (s.dataBody c n) else Body.none_
  match (s.hostPort c).nextOp with
  | 0 => data
  | 1 => match (nth s.clients c).outSlot with
    | some m => s.msgBody c m
    | none => data
  | _ => Body.none_

/-- The response header line (R419, R420). -/
def State.responseHead (s : State) (c : Nat) (b : Body) (rseq : BitVec 16) : List Word :=
  let p := s.hostPort c
  let served := s.dataServed c
  let show_ := served && s.portServed c
  let back := if show_ then s.cw.backlog c else 0
  let band := if show_ then s.cw.band c else 0
  [word (at_ back 8 + statusBits p.rejected (b.content == 1 && !b.ws.isEmpty) (s.inBusy c) (nth s.clients c).outSlot.isSome
      (!served) (s.inMode .footpath) band),
   word (at_ 1 28 + at_ b.content 24 + at_ p.result 16 + b.ws.length / 4),
   word (at_ (satN 16 b.cont) 16 + at_ b.frag 8 + b.nfrag),
   word (at_ p.rej.toNat 24 + at_ (if c = 5 then p.tout.toNat else 0) 16 + rseq.toNat)]

/-- A port builds its response (R419): n lines at most. -/
def State.buildResponse (s : State) (c n : Nat) : State :=
  let b := s.nextBody c n
  let rseq := (s.hostPort c).rseq + 1
  let head := s.responseHead c b rseq
  s.onHost c fun p =>
    { p with rseq := rseq, resp := head ++ b.ws, lines := b.ws.length / 4, content := b.content, msgLast := b.last,
             outMsg := if b.content = 2 then b.msg else p.outMsg, outFrag := if b.content = 2 then b.frag else p.outFrag,
             took := b.took, from_ := (nth s.cw.readers c).next, body := b, isOpen := true }

/-- k lines of the response in progress are delivered (R425, R429, R434). -/
def State.takeResponse (s : State) (c k : Nat) : State :=
  let p := s.hostPort c
  if p.content = 1 then
    ({ s with cw := s.cw.onReader c fun rd => rd.delivers c s.mark p k }).onHost c fun p => { p with bufLines := p.bufLines.map (· - k) }
  else if p.content = 2 ∧ p.lines ≤ k then
    if p.msgLast then
      (if (nth s.clients c).outSlot == some p.outMsg then s.onClient c Client.release else s).onHost c fun p =>
        { p with outFrag := 0, outMsg := [] }
    else s.onHost c fun p => { p with outFrag := p.outFrag + 1 }
  else s

/-- The exchange on a port is over. -/
def Port.shut (p : Port) : Port :=
  { p with isOpen := false, resp := [], lines := 0, content := 0, msgLast := false, took := [], body := Body.none_, tooSoon := false,
           stretch := false, bytesRead := 0 }

/-! ### Requests (R422, R424–R426) -/

/-- The header checks of R428 on a request header line. -/
def headerOk (w : List Word) : Bool :=
  let op := fld (nth w 0) 27 24
  fld (nth w 0) 31 28 == 1 && decide (op ≤ 3) && fld (nth w 0) 7 0 == 0 && fld (nth w 1) 31 16 == 0 && nth w 2 == 0 &&
    nth w 3 == 0 && (op == 1 || (fld (nth w 0) 23 8 == 0 && fld (nth w 1) 15 0 == 0))

/-- LEN of a request, 0 where it is no MSG (R424). -/
def reqLen (w : List Word) : Nat := if fld (nth w 0) 27 24 = 1 then fld (nth w 1) 15 0 else 0

/-- A whole message passes into the inbound slot of a client (R426, R452). -/
def State.arrive (s : State) (c : Nat) (m : List Word) : State :=
  s.onClient c fun cl => { cl with inSlot := some m,
                                   seen := if s.roleOf c == some 2 then some (s.mark + 1) else none }

/-- The partial message of a port is discarded (R426). -/
def Port.dropPart (p : Port) : Port := { p with asmWords := [], asmNext := 0, asmN := 0 }

/-- A MSG fragment (R426): RESULT of R422. -/
def State.takeFragment (s : State) (c frag n : Nat) (ws : List Word) : State :=
  let p := s.hostPort c
  let set (r : Nat) (s : State) : State := s.onHost c fun p => { p with result := r }
  let most := s.fragWords c
  if s.inBusy c then set 4 s
  else if n = 0 ∨ maxFrags c < n ∨ n ≤ frag ∨ ws.length = 0 ∨ most < ws.length ∨ (frag + 1 ≠ n ∧ ws.length ≠ most) then set 6 s
  else if 0 < frag ∧ (p.asmN ≠ n ∨ p.asmNext ≠ frag ∨ p.asmAt + secPs 1 < s.now) then set 3 (s.onHost c Port.dropPart)
  else
    let have_ := if frag = 0 then [] else p.asmWords
    if 32 < have_.length + ws.length then set 6 s
    else if frag + 1 = n then set 2 ((s.onHost c Port.dropPart).arrive c (have_ ++ ws))
    else set 1 (s.onHost c fun p =>
      { p with asmWords := have_ ++ ws, asmNext := frag + 1, asmN := n, asmAt := s.now })

/-- The command of an accepted request (R422, R425). -/
def State.latch (s : State) (c : Nat) (req : List Word) : State :=
  let set (op r : Nat) (s : State) : State := s.onHost c fun p => { p with nextOp := op, result := r }
  match fld (nth req 0) 27 24 with
  | 1 =>
    (s.takeFragment c (fld (nth req 0) 23 16) (fld (nth req 0) 15 8) ((req.drop 4).take (reqLen req))).onHost c fun p =>
      { p with nextOp := 0 }
  | 2 => if (nth s.clients c).outSlot.isSome then set 1 1 s else set 0 5 s
  | 3 => set 2 1 s
  | _ => set 0 0 s

/-- A host port that goes off in Layby: what was in progress on it is gone, its counters stay; a response in progress first
completes with the lines that it announced (R442, R505). -/
def Port.off (p : Port) : Port :=
  let q := p.dropPart
  if p.isOpen then q else { q.shut with nextOp := 0, outFrag := 0, outMsg := [], again := none, riseAt := none }

/-- A port whose exchange ended in Layby is off (R442). -/
def State.portRest (s : State) (c : Nat) : State :=
  if s.inMode .layby && s.power.waking.isNone then s.onHost c Port.off else s

/-! ### The clocked serial port (R427–R430) -/

/-- HSEL_FALL: the port builds its response and begins to shift it (R419, R428); the findings are those of the reads for it. -/
def doHselFall (dt : Nat) (fs : List LineFinding) (s : State) : State :=
  let s := s.advance dt
  if s.portOn 4 && !s.hs.isOpen then
    let s := if s.dataServed 4 then s.readFindings 4 fs else s
    let soon := match s.hs.riseAt with
      | some t => decide (s.now < t + usPs 1)
      | none => false
    let s := s.buildResponse 4 ((s.frameWords - 4) / 4)
    s.onHost 4 fun p => { p with tooSoon := soon, resp := padTo s.frameWords p.resp }
  else s

/-- HSEL_FALL (R419). -/
def execHselFall (dt : Nat) (findings : List LineFinding) (s : State) : Result := .next (doHselFall dt findings s)

/-- A frame of so many sampling edges is accepted (R428): whole words, at least N, not too soon, its header and its length
good. -/
def State.frameOk (s : State) (edges : Nat) (req : List Word) : Bool :=
  edges % 32 == 0 && decide (32 * s.frameWords ≤ edges) && !s.hs.tooSoon && headerOk req &&
    decide (4 + reqLen req ≤ s.frameWords) && (req.drop (4 + reqLen req)).all (· == 0)

/-- The last N words received (R428). -/
def lastWords (n : Nat) (ws : List Word) : List Word := (List.replicate n 0 ++ ws).drop ws.length

/-- What the hub drives onto HSDO in an exchange of n sampling edges: the bits of the response, then, strapped to a driven code,
HSDI delayed by the frame's length; a hub strapped to high impedance forwards nothing (R428, R431). -/
def hsdoBits (driven : Bool) (resp : List Word) (hsdi : List Bool) (n : Nat) : List Bool :=
  (serialBits resp ++ if driven then hsdi else []).take n

/-- The words of the bits that HSDI carried at n sampling edges (R427, R428). -/
def hsdiWords (hsdi : List Bool) (n : Nat) : List Word := serialWords ((hsdi ++ List.replicate n false).take n)

/-- The request frame of an exchange of n sampling edges: the last N words that HSDI carried (R428). -/
def State.hsReq (s : State) (hsdi : List Bool) (n : Nat) : List Word := lastWords s.frameWords (hsdiWords hsdi n)

/-- An accepted frame: its lines are delivered, and its command latches where the hub still takes requests (R428, R429, R442). -/
def State.takeFrame (s : State) (req : List Word) : State :=
  let s := s.takeResponse 4 s.hs.lines
  if s.inMode .layby then s else s.latch 4 req

/-- HSEL_RISE, after so many edges of HSCK of both kinds and with the bits that HSDI carried at the sampling edges: the frame is
accepted, or it is rejected and the same lines come again (R428, R429). -/
def doHselRise (dt edges : Nat) (hsdi : List Bool) (s : State) : State :=
  let s := s.advance dt
  if s.hs.isOpen then
    let bits := s.hsdiBits edges
    let req := s.hsReq hsdi bits
    let ok := s.frameOk bits req
    let s := if ok then s.takeFrame req else s
    (s.onHost 4 fun p =>
      { p.shut with rejected := !ok, rej := if ok then p.rej else p.rej + 1, riseAt := some s.now
                    again := if ok then none else if p.content = 1 then some p.body else p.again
                    shifted := hsdoBits s.hsDriven p.resp hsdi bits }).portRest 4
  else s

/-- HSEL_RISE (R428). -/
def execHselRise (dt edges : Nat) (hsdi : List Bool) (s : State) : Result := .next (doHselRise dt edges hsdi s)

/-! ### The two-wire port (R433–R437) -/

/-- The two-wire transaction that woke the hub has ended: its hold lasts 1 s more (R443, R508). -/
def State.twEnded (s : State) : State :=
  { s with power := { s.power with holds := s.power.holds.map fun (h : Hold) =>
    if h.src = 1 ∧ h.ends.isNone then { h with ends := some (s.now + secPs 1) } else h } }

/-- The hub's own address, with the port enabled and served (R433). -/
def State.twMine (s : State) (addr : BitVec 7) : Bool := s.portOn 5 && addr.toNat == s.twAddr

/-- A transaction is discarded: nothing latches, the cursor stays, REJECTED is set (R435, R436). -/
def State.discardTw (s : State) : State := ((s.onHost 5 fun p => { p.shut with rejected := true }).portRest 5).twEnded

/-- A new START on the bus ends a transaction that its controller left open; it is discarded (R435, R437). -/
def State.twStart (s : State) : State := if s.tw.isOpen && !s.tw.stretch then s.discardTw else s

/-- The hub drives TWSDA low: an open read that stopped at a bit of the response that is 0; the acknowledge bits aside (R434,
R437). -/
def State.twsdaLow (s : State) : Bool :=
  match s.tw.ending with
  | .unfinished i => s.tw.isOpen && !s.tw.stretch &&
      !(serialByte ((serialBits [nth s.tw.resp (s.tw.bytesRead / 4)]).drop (8 * (s.tw.bytesRead % 4)))).getLsbD (7 - i.val)
  | _ => false

/-- TW_READ: at the address match the hub builds its response and holds TWSCL for 40 µs (R433, R434). -/
def doTwRead (dt : Nat) (addr : BitVec 7) (bytesRead : Nat) (ending : TwEnd) (fs : List LineFinding) (s : State) : State :=
  let s := (s.advance dt).twStart
  if s.twMine addr && !s.tw.isOpen then
    let s := if s.dataServed 5 then s.readFindings 5 fs else s
    (s.buildResponse 5 255).onHost 5 fun p => { p with bytesRead := bytesRead, ending := ending, stretch := true }
  else s

/-- TW_READ (R433). -/
def execTwRead (dt : Nat) (addr : BitVec 7) (bytesRead : Nat) (ending : TwEnd) (findings : List LineFinding) (s : State) :
    Result :=
  .next (doTwRead dt addr bytesRead ending findings s)

/-- A read that ends normally: its whole lines are delivered, and its command is spent (R425, R434). -/
def State.finishRead (s : State) : State :=
  let k := min s.tw.lines ((s.tw.bytesRead - 16) / 16)
  let spent := s.tw.content != 2 || decide (s.tw.lines ≤ k)
  let s := s.takeResponse 5 k
  ((s.onHost 5 fun p => { p.shut with rejected := false, nextOp := if spent then 0 else p.nextOp }).portRest 5).twEnded

/-- TW_STRETCH_END: 40 µs after the match the response is clocked out; a read that ends with STOP or a repeated START after
its last byte delivers its lines, one that the nine-clock recovery ends is discarded, and one that has not ended stays open
(R434, R435, R437). -/
def doTwStretchEnd (dt : Nat) (s : State) : State :=
  let s := s.advance dt
  if s.tw.isOpen && s.tw.stretch then
    if s.tw.ending == .stop || s.tw.ending == .repeatedStart then s.finishRead
    else if s.tw.ending == .recovery then s.discardTw
    else s.onHost 5 fun p => { p with stretch := false }
  else s

/-- TW_STRETCH_END (R434). -/
def execTwStretchEnd (dt : Nat) (s : State) : Result := .next (doTwStretchEnd dt s)

/-- A write is accepted (R433): exactly 16 + 4 × LEN bytes and a good request header line. -/
def writeOk (bytes : List Byte) : Bool :=
  let ws := wordsOf bytes
  decide (16 ≤ bytes.length) && headerOk ws && bytes.length == 16 + 4 * reqLen ws

/-- TW_WRITE: a write that ends with STOP or a repeated START is accepted, and its command latches, or it is rejected; one
of no bytes is neither; one that does not end yet stays open. REJECTED stays until a response has carried it (R433, R435). -/
def doTwWrite (dt : Nat) (addr : BitVec 7) (bytes : List Byte) (ending : TwEnd) (s : State) : State :=
  let s := (s.advance dt).twStart
  if s.twMine addr && !s.tw.isOpen then
    if ending == .stop || ending == .repeatedStart then
      if bytes.isEmpty then s.twEnded
      else if writeOk bytes then (s.latch 5 (wordsOf bytes)).twEnded
      else s.discardTw
    else if ending == .recovery then s.discardTw
    else s.onHost 5 fun p => { p with isOpen := true, ending := ending, stretch := false }
  else s

/-- TW_WRITE (R433). -/
def execTwWrite (dt : Nat) (addr : BitVec 7) (bytes : List Byte) (ending : TwEnd) (s : State) : Result :=
  .next (doTwWrite dt addr bytes ending s)

/-- TW_REPEATED_START: a repeated START in place of an acknowledge bit discards the open transaction (R435). -/
def doTwRepeatedStart (s : State) : State := if s.tw.isOpen && !s.tw.stretch then s.discardTw else s

/-- TW_REPEATED_START (R435). -/
def execTwRepeatedStart (s : State) : Result := .next (doTwRepeatedStart s)

/-- TW_BUS_TIMEOUT: a line held low for 25 ms, or 35 ms without an SCL edge, while a transaction is open or the one that
woke the hub has not ended: counted in TOUT, and
the transaction is discarded (R436, R437). -/
def doTwBusTimeout (dt : Nat) (s : State) : State :=
  let s := s.advance dt
  if s.tw.isOpen || s.power.holds.any (fun (h : Hold) => h.src == 1 && h.ends.isNone) then
    s.discardTw.onHost 5 fun p => { p with tout := p.tout + 1 }
  else s

/-- TW_BUS_TIMEOUT (R436). -/
def execTwBusTimeout (dt : Nat) (s : State) : Result := .next (doTwBusTimeout dt s)

/-- FRAGMENT_TIMEOUT: 1 s without the next fragment discards the partial message of a port, with RESULT 0x03 (R426). -/
def doFragmentTimeout (dt c : Nat) (s : State) : State :=
  let s := s.advance dt
  let p := s.hostPort c
  if p.asmN ≠ 0 ∧ p.asmAt + secPs 1 ≤ s.now then s.onHost c fun p => { p.dropPart with result := 3 } else s

/-- FRAGMENT_TIMEOUT (R426): port 0 HS, 1 TW. -/
def execFragmentTimeout (dt : Nat) (c : Fin 2) (s : State) : Result := .next (doFragmentTimeout dt (4 + c.val) s)

/-! ### Attention calls (R438–R441) -/

/-- The call that goes next (R440). -/
def Attn.pick (a : Attn) : Option (Call × Attn) :=
  match a.c4, a.c3, a.c1, a.calls with
  | some k, _, _, _ => some (k, { a with c4 := none })
  | none, some k, _, _ => some (k, { a with c3 := none })
  | none, none, some k, _ => some (k, { a with c1 := none })
  | none, none, none, k :: q => some (k, { a with calls := q })
  | none, none, none, [] => none

/-- The four bytes of a call (R439). -/
def callBytes (k : Call) (hub seq : Nat) : List Byte :=
  [BitVec.ofNat 8 (at_ k.cause 4 + hub)] ++ leBytes 2 k.code.toNat ++ [BitVec.ofNat 8 (at_ k.engine 4 + seq)]

/-- The hub may become controller: TW enabled, a mode that takes messages, the bus free (R441, R442). -/
def State.mayCall (s : State) : Bool := s.portOn 5 && s.running && s.awake && !s.tw.isOpen

/-- How long after the start of a failed attempt the bus is next free, ps (R441). -/
def callFreePs : CallOutcome → Nat
  | .acknowledged => 0
  | .notAcknowledged n | .lostArbitration n => n * 1000

/-- An attempt at the call in hand, at the clock rate of STRAP3: acknowledged it is done; otherwise it is tried again ATTN_RETRY ms
after the bus is next free, or dropped and counted after ATTN_TRIES attempts (R51, R441). -/
def State.tryCall (s : State) (k : Call) (made : Nat) (out : CallOutcome) : State :=
  match s.port.inForce with
  | none => s
  | some im =>
    let s := { s with attn := { s.attn with khz := s.attnKhz } }
    if out == .acknowledged then { s with attn := { s.attn with cur := none } }
    else if im.clients.attnTries ≤ made + 1 then
      { s with attn := { s.attn with cur := none } }.onHost 5 fun p => { p with rej := p.rej + 1 }
    else
      { s with attn := { s.attn with cur := some (k, made + 1), retryAt := s.now + callFreePs out + msPs im.clients.attnRetry } }

/-- ATTENTION_CALL: the bus is free and the hub sends the next waiting call (R439–R441). -/
def doAttentionCall (dt : Nat) (out : CallOutcome) (s : State) : State :=
  let s := s.advance dt
  if s.mayCall && s.attn.cur.isNone then
    match s.attn.pick with
    | some (k, a) =>
      { s with attn := { a with bytes := callBytes k (s.strap 2) s.attn.seq, seq := (s.attn.seq + 1) % 16 } }.tryCall k 0 out
    | none => s
  else s

/-- ATTENTION_CALL (R441). -/
def execAttentionCall (dt : Nat) (out : CallOutcome) (s : State) : Result := .next (doAttentionCall dt out s)

/-- ATTN_RETRY: ATTN_RETRY ms after the bus is free again after a failed attempt the hub tries the call again (R441). -/
def doAttnRetry (dt : Nat) (out : CallOutcome) (s : State) : State :=
  let s := s.advance dt
  match s.attn.cur with
  | some (k, made) => if s.mayCall && decide (s.attn.retryAt ≤ s.now) then s.tryCall k made out else s
  | none => s

/-- ATTN_RETRY (R441). -/
def execAttnRetry (dt : Nat) (out : CallOutcome) (s : State) : Result := .next (doAttnRetry dt out s)

/-- At a grid mark: a message that has come to wait in TW's empty outbound slot raises a call of cause 0x1 (R439, R440), and
the buffer of a Guest's port is filled (R471). -/
def State.hostAtMark (s : State) : State :=
  let waits := (nth s.clients 5).outSlot.isSome
  let s := if waits && !s.attn.told then s.raiseCall 1 0 else s
  let s := { s with attn := { s.attn with told := waits } }
  let fill (c : Nat) (s : State) : State :=
    if s.roleOf c == some 2 then
      let n := if s.dataServed c then (s.cw.deliverLines c s.mark 255).length else 0
      s.onHost c fun p => { p with bufLines := some n }
    else s
  fill 5 (fill 4 s)

end Sys2Proof.Machine
end

