-- ==== Sys2Proof/Machine/Time.lean ====
section
/-! DEFINITION. Time bases and network time (14_time.md): the TIME-STATE record, the PTP domains, PPS, the discipline of
TB-G at a grid mark, and scheduled actions. -/

namespace Sys2Proof.Machine

/-! ### The time block in force (R387) -/

/-- The time block of the image in force, or both domains disabled and the defaults (R387). -/
def State.timeBlock (s : State) : TimeBlock :=
  match s.port.inForce with
  | some im => im.clients.time
  | none => { n0Domain := 0xFF, n1Domain := 0xFF, n0Transport := 0, n1Transport := 0, ppsFalling := false, tc := false,
              lockNs := 1000, unlockUs := 10, stepUs := 100 }

/-- STEP_US in ns. -/
def State.stepNs (s : State) : Int := (s.timeBlock.stepUs * 1000 : Nat)

/-- Domain x is enabled: its domainNumber is not 0xFF (R387). -/
def State.domainOn (s : State) (x : Nat) : Bool :=
  (if x = 0 then s.timeBlock.n0Domain else s.timeBlock.n1Domain) != 0xFF

/-- The UPLINK island runs (R397): Highway or Lane, and STRAP4 does not disable both ports (R54). -/
def State.uplinkOn (s : State) : Bool := s.full && s.strap 4 != 0xC && nth s.power.islands 7 == .running

/-! ### TIME-STATE (R393) -/

/-- GSRC (R393). -/
def gsrcField : Option GSrc → Nat
  | none => 0
  | some .n0 => 1
  | some .n1 => 2
  | some .pps => 3

/-- N0STATE (R393). -/
def nstField : NState → Nat
  | .noSource => 0
  | .acquiring => 1
  | .locked => 2
  | .holdover => 3

/-- GSTATE (R393): free-running, disciplined, holdover. -/
def State.gState (s : State) : Nat :=
  if (gOrder (s.strap 5)).isEmpty then 0 else if s.time.gSrc.isSome then 1 else 2

/-- HOLD_S (R393). -/
def State.holdS (s : State) : Nat := if s.holdover then satN 32 ((s.now - s.time.holdFrom) / 10 ^ 12) else 0

/-- Words 4–15 of TIME-STATE for a mark (R393). -/
def State.timeWords (s : State) (reason mark prev : Nat) : List Word :=
  let t := s.time
  let n0 := nth t.n 0
  let n1 := nth t.n 1
  [word (at_ reason 24 + at_ (gsrcField t.gSrc) 20 + at_ s.gState 18 + at_ (nstField n0.st) 16 +
      at_ (nstField n1.st) 14 + at_ t.pps.st 12),
   word s.holdS, word mark, word (mark / 2 ^ 32 % 2 ^ 16),
   wordI (if t.gSrc.isSome then satI 32 t.gOffset else 0), wordI (satI 32 t.gRate), word prev,
   word (at_ t.pps.count.toNat 16), wordI (if 2 ≤ t.pps.st then satI 32 t.pps.err else 0),
   wordI (satI 32 n0.offset), wordI (satI 32 n1.offset), 0]

/-- Writes a TIME-STATE record for the mark in progress (R393). -/
def State.writeTime (s : State) (reason : Nat) : State := s.writeRec 0x18 s.mark (s.timeWords reason s.mark 0)

/-! ### PTP domains (R379–R381) -/

/-- A scheduled action once a step has taken its time base from one value to another (R389, R391): passed where its instant, still to
come before, lies at or before the new value. -/
def Action.passed (a : Action) (tb before after : Nat) : Action :=
  { a with stepped := a.stepped || (a.tb == tb && decide (0 < diff40 a.t before) && decide (diff40 a.t after ≤ 0)) }

/-- The scheduled actions on time base x after a step of it (R391). -/
def Time.passActs (t : Time) (x before : Nat) : Time :=
  { t with acts := t.acts.map (·.passed x before ((nth t.n x).acc / nsAcc)) }

/-- One domain changed. -/
def Time.onN (t : Time) (x : Nat) (f : Ptp → Ptp) : Time := { t with n := t.n.modify x f }

/-- One domain of the hub changed; a change of its state is reported with reason 0x04 (R393). -/
def State.onN (s : State) (x : Nat) (f : Ptp → Ptp) : State :=
  let before := (nth s.time.n x).st
  let s := { s with time := s.time.onN x f }
  if (nth s.time.n x).st == before then s else s.writeTime 0x04

/-- Mean of the rate corrections of the last 64 s, or 0 (R378). -/
def meanRate (l : List Int) : Int := if l.isEmpty then 0 else roundDiv l.sum l.length

/-- 2^i seconds in ps. -/
def pow2Sec (i : Int) : Nat := if 0 ≤ i then secPs (2 ^ i.toNat) else 10 ^ 12 / 2 ^ (-i).toNat

/-- A domain that goes into holdover: its last rate frozen as in R378 (R381). -/
def Ptp.toHoldover (p : Ptp) : Ptp := { p with st := .holdover, rate := meanRate p.rateHist, good := 0, badRun := 0 }

/-- A domain that begins to acquire (R381). -/
def Ptp.toAcquiring (p : Ptp) : Ptp := { p with st := .acquiring, good := 0, badRun := 0, twoStep := none }

/-- The first list comes before the second, number by number. -/
def lexLt : List Nat → List Nat → Bool
  | a :: as, b :: bs => decide (a < b) || (a == b && lexLt as bs)
  | _, _ => false

/-- What describes a master's grandmaster, in the order of comparison (clause 9.3.4). -/
def gmKey (a : Announce) : List Nat :=
  [a.priority1.toNat, a.clockClass.toNat, a.accuracy.toNat, a.variance.toNat, a.priority2.toNat, a.grandmaster.toNat]

/-- How far a master is from its grandmaster and where it was heard (clause 9.3.4). -/
def pathKey (a : Announce) : List Nat := [a.steps, a.sender.clock.toNat, a.sender.port.toNat, a.rxPort.val]

/-- The data set comparison of clause 9.3.4 (R379; PRESUMED, assumption-log row 62): a is better than b. -/
def betterMaster (a b : Announce) : Bool :=
  if a.grandmaster = b.grandmaster then lexLt (pathKey a) (pathKey b) else lexLt (gmKey a) (gmKey b)

/-- An Announce noted for its sender: its instants within four announce intervals; one already heard on the other port counts
once (clause 9.3.2.4). -/
def hearForeign (l : List Foreign) (now : Nat) (m : Announce) : List Foreign :=
  let win := 4 * pow2Sec m.logInterval
  let rest := l.filter fun f => f.newest.sender != m.sender
  match l.find? fun f => f.newest.sender == m.sender with
  | some f =>
    if f.newest.seq = m.seq then l
    else rest ++ [{ newest := m, heard := now :: f.heard.filter fun t => decide (now ≤ t + win) }]
  | none => rest ++ [{ newest := m, heard := [now] }]

/-- A foreign master is qualified (R379; clause 9.3.2.5): two Announces within four announce intervals, fewer than 255 steps. -/
def Foreign.qualified (f : Foreign) (now : Nat) : Bool :=
  decide (f.newest.steps < 255) &&
    decide (2 ≤ (f.heard.filter fun t => decide (now ≤ t + 4 * pow2Sec f.newest.logInterval)).length)

/-- The best of the qualified foreign masters, among which the selected one stays (R379). -/
def Ptp.best (p : Ptp) (now : Nat) : Option Announce :=
  ((p.foreign.filter fun f => f.qualified now || p.master == some f.newest.sender).map (·.newest)).foldl (fun b a =>
    match b with
    | none => some a
    | some x => if betterMaster a x then some a else b) none

/-- The best master is selected; another one, or another grandmaster of the selected one, is acquired afresh (R381). -/
def Ptp.select (p : Ptp) (now : Nat) : Ptp :=
  match p.best now with
  | none => p
  | some m =>
    let q := { p with master := some m.sender, grand := m.grandmaster, annIv := m.logInterval }
    if p.master == some m.sender && p.grand == m.grandmaster && (p.st == .acquiring || p.st == .locked) then q
    else if p.master == some m.sender then q.toAcquiring
    else { q with lastAnn := now, lastSync := now, t3 := [none, none] }.toAcquiring

/-- A domain that has noted an Announce (R379). -/
def Ptp.heard (p : Ptp) (now : Nat) (m : Announce) : Ptp := { p with foreign := hearForeign p.foreign now m }

/-- An Announce in a domain (R379, R381). -/
def Ptp.announce (p : Ptp) (now : Nat) (m : Announce) : Ptp :=
  { p.heard now m with
           lastAnn := if p.master == some m.sender then now else p.lastAnn }.select now

/-- PTP_ANNOUNCE (R379, R381): a message with an interval outside −3 to +4, and every message while the domain is disabled or the
UPLINK island is off, changes nothing. -/
def doPtpAnnounce (dt : Nat) (x : Fin 2) (m : Announce) (s : State) : State :=
  let s := s.advance dt
  if s.uplinkOn && s.domainOn x && decide (-3 ≤ m.logInterval) && decide (m.logInterval ≤ 4) then
    s.onN x fun p => p.announce s.now m
  else s

def execPtpAnnounce (domain : After (Fin 2)) (m : Announce) (s : State) : Result :=
  .next (doPtpAnnounce domain.dt domain.what m s)

/-- The rate a locked domain takes: towards the slew, by at most 0.5 ppm per second since the last Sync (R381). -/
def limitedRate (old want : Int) (elapsedPs : Nat) : Int :=
  let lim : Int := (500000 * elapsedPs / 10 ^ 12 : Nat)
  max (old - lim) (min want (old + lim))

/-- The servo of R381 on one measurement: t2 − t1 − correction in ns. -/
def Ptp.measure (p : Ptp) (now : Nat) (tb : TimeBlock) (msDiff : Int) : Ptp :=
  let off := msDiff - p.pathDelay
  let p := { p with offset := off, msDiff := msDiff }
  let mag := off.natAbs
  match p.st with
  | .acquiring =>
    if tb.stepUs * 1000 < mag then
      { p with acc := ((p.acc : Int) - off * nsAcc).toNat, good := 0, lastSync := now, msDiff := msDiff - off, t3 := [none, none] }
    else
      let good := if mag ≤ tb.lockNs then p.good + 1 else 0
      { p with rate := Config.ptpSlew p.rate off, good := good, lastSync := now,
               st := if 16 ≤ good then .locked else .acquiring, badRun := 0 }
  | .locked =>
    let bad := if tb.unlockUs * 1000 < mag then p.badRun + 1 else 0
    let q := { p with badRun := bad, lastSync := now }
    if 4 ≤ bad then q.toHoldover
    else { q with rate := limitedRate p.rate (Config.ptpSlew p.rate off) (now - p.lastSync) }
  | _ => { p with lastSync := now }

/-- The hub takes a message of the selected master in domain x. -/
def State.hears (s : State) (x : Nat) (id : PortId) (iv : Int) : Bool :=
  s.uplinkOn && s.domainOn x && (nth s.time.n x).master == some id && decide (-7 ≤ iv) && decide (iv ≤ 1)

/-- One measurement of a domain (R381). A step of its clock passes over the scheduled actions on it whose instants lie at or
before the new value (R391). -/
def State.measureN (s : State) (x : Nat) (f : Ptp → Ptp) (msDiff : Int) : State :=
  let before := s.nNs x
  let step := (f (nth s.time.n x)).st == .acquiring &&
    decide (s.timeBlock.stepUs * 1000 < (msDiff - (f (nth s.time.n x)).pathDelay).natAbs)
  let s := s.onN x fun p => (f p).measure s.now s.timeBlock msDiff
  if step then { s with time := s.time.passActs x before } else s

/-- PTP_SYNC (R379–R381): a one-step Sync is measured, a two-step Sync waits for its Follow_Up. -/
def doPtpSync (dt : Nat) (x : Fin 2) (m : SyncMsg) (s : State) : State :=
  let s := s.advance dt
  if s.hears x m.sender m.logInterval then
    let t2 := s.nNs x
    if m.twoStep then
      s.onN x fun p => { p with twoStep := some (m.seq, t2, m.correction), syncIv := m.logInterval, lastSync := s.now }
    else
      s.measureN x (fun p => { p with syncIv := m.logInterval }) ((t2 : Int) - m.origin - m.correction)
  else s

def execPtpSync (dt : Nat) (domain : Fin 2) (m : SyncMsg) (s : State) : Result := .next (doPtpSync dt domain m s)

/-- PTP_FOLLOW_UP (R379): the waiting Sync of the same sequence is measured with the origin time given here. -/
def doPtpFollowUp (dt : Nat) (x : Fin 2) (m : SyncMsg) (s : State) : State :=
  let s := s.advance dt
  if s.hears x m.sender m.logInterval then
    match (nth s.time.n x).twoStep with
    | some (seq, t2, corr) =>
      if seq = m.seq then
        s.measureN x (fun p => { p with twoStep := none }) ((t2 : Int) - m.origin - corr - m.correction)
      else s
    | none => s
  else s

def execPtpFollowUp (dt : Nat) (domain : Fin 2) (m : SyncMsg) (s : State) : Result := .next (doPtpFollowUp dt domain m s)

/-- PTP_DELAY_RESP (R379, R380): the mean path delay from the last Sync and this exchange, by the egress timestamp of the port
through which the answer of the selected master comes; the interval that it gives is taken from −7 to +5. -/
def doPtpDelayResp (port x : Fin 2) (sender : PortId) (seq : BitVec 16) (t4 : Nat) (corr : Int) (iv : Int) (s : State) : State :=
  let p := nth s.time.n x
  match nth p.t3 port with
  | some t3 =>
    if s.uplinkOn && s.domainOn x && p.master == some sender && p.delaySeq == seq then
      s.onN x fun p => { p with
        t3 := [none, none]
        pathDelay := (p.msDiff + ((t4 : Int) - t3 - corr)) / 2
        delayIv := if -7 ≤ iv ∧ iv ≤ 5 then iv else p.delayIv }
    else s
  | none => s

def execPtpDelayResp (src : RespFrom) (seq : BitVec 16) (receiveTime : Nat) (correction : Int) (logInterval : Int) (s : State) :
    Result :=
  .next (doPtpDelayResp src.port src.domain src.sender seq receiveTime correction logInterval s)

/-- A domain without its selected master, which it has heard no more (R381). -/
def Ptp.dropMaster (p : Ptp) : Ptp :=
  { p with master := none, foreign := p.foreign.filter fun f => some f.newest.sender != p.master }

/-- The selected master is lost (R381): the next best one is selected, and without one a domain goes into holdover. -/
def Ptp.loseMaster (p : Ptp) (now : Nat) : Ptp :=
  let q := p.dropMaster
  if (q.best now).isSome then q.select now
  else if p.st == .noSource || p.st == .holdover then q else q.toHoldover

/-- ANNOUNCE_RECEIPT_TIMEOUT (R379, R381): three announce intervals without an Announce of the selected master. -/
def doAnnounceReceiptTimeout (dt : Nat) (x : Fin 2) (s : State) : State :=
  let s := s.advance dt
  let p := nth s.time.n x
  if p.master.isSome && decide (p.lastAnn + 3 * pow2Sec p.annIv ≤ s.now) then
    s.onN x fun p => p.loseMaster s.now
  else s

def execAnnounceReceiptTimeout (dt : Nat) (domain : Fin 2) (s : State) : Result :=
  .next (doAnnounceReceiptTimeout dt domain s)

/-- SYNC_TIMEOUT (R381): no Sync for four sync intervals. -/
def doSyncTimeout (dt : Nat) (x : Fin 2) (s : State) : State :=
  let s := s.advance dt
  let p := nth s.time.n x
  if (p.st == .locked || p.st == .acquiring) && decide (p.lastSync + 4 * pow2Sec p.syncIv ≤ s.now) then
    s.onN x Ptp.toHoldover
  else s

def execSyncTimeout (dt : Nat) (domain : Fin 2) (s : State) : Result := .next (doSyncTimeout dt domain s)

/-! ### PPS (R384–R386) -/

/-- An interval of 1 s ± 2 µs in ps (R385). -/
def ppsGood (iv : Nat) : Bool := decide (999998000000 ≤ iv) && decide (iv ≤ 1000002000000)

/-- An interval that leaves an edge within 10 µs of its expected instant (R385). -/
def ppsNear (iv : Nat) : Bool := decide (999990000000 ≤ iv) && decide (iv ≤ 1000010000000)

/-- The distance in ns from the nearest second (R385). -/
def nearSecond (x : Int) : Int :=
  let r := x % 10 ^ 9
  if 2 * r ≤ 10 ^ 9 then r else r - 10 ^ 9

/-- TB-G minus the grid second of an edge in ns (R370, R385): the labelled second, or the nearest multiple of 1024 marks. -/
def ppsOffset (g : Nat) (label : Option (Nat × BitVec 16)) : Int :=
  match label with
  | some (sec, _) => (g : Int) - sec * 10 ^ 9
  | none => nearSecond g

/-- PPS_ERR after TB-G has stepped forward by so many ns: the distance of the last edge from its grid second, on the new
timeline (R374, R385). -/
def Pps.afterStep (p : Pps) (ns : Int) : Pps :=
  if p.st < 2 then p else { p with err := if p.label.isSome then p.err + ns else nearSecond (p.err + ns) }

/-- The PPS source out of lock: its label is lost (R384, R385). -/
def Pps.unlock (p : Pps) (run : Nat) : Pps := { p with st := 1, run := run, label := none, err := 0 }

/-- A captured edge at CLK25 time now (ps) and TB-G time g (ns) (R384, R385). A label moves on by a second with each edge. -/
def Pps.edge (p : Pps) (now g : Nat) : Pps :=
  let iv := now - p.last
  let q := { p with count := p.count + 1, last := now }
  let q :=
    if 2 ≤ p.st then
      if ppsNear iv then { q with run := p.run + 1, label := p.label.map fun l => (l.1 + 1, q.count) } else q.unlock 1
    else
      let run := if 0 < p.run && ppsGood iv then p.run + 1 else 1
      { q with run := run, st := if 8 ≤ run then 2 else 1 }
  { q with err := if 2 ≤ q.st then ppsOffset g q.label else 0 }

/-- Labels that wait when PPS is not locked are answered with 0x03 (R386). -/
def State.dropLabel (s : State) : State :=
  s.time.pps.pendLabels.foldl (fun s x => s.resolveResult x.2.2.1 x.2.2.2 0x0E 0x03 [])
    { s with time := { s.time with pps := { s.time.pps with pendLabels := [] } } }

/-- A label at a locked edge: extrapolated, checked against R376 and applied (R386). -/
def State.applyOne (s : State) (x : Nat × BitVec 16 × Nat × BitVec 16) : State :=
  let p := s.time.pps
  let now : Int := (x.1 : Int) + (p.count - x.2.1).toInt
  let off := (s.gNs : Int) - now * 10 ^ 9
  if s.stepNs < off then s.resolveResult x.2.2.1 x.2.2.2 0x0E 0x02 []
  else
    let s := { s with time := { s.time with
      pps := { p with st := 3, label := some (now.toNat, p.count), err := off }
      gOffset := if s.time.gSrc == some GSrc.pps then off else s.time.gOffset } }
    (s.writeTime 0x06).resolveResult x.2.2.1 x.2.2.2 0x0E 0x00 []

/-- The labels that wait, at a locked edge, in the order in which they were accepted (R386). -/
def State.applyLabel (s : State) : State :=
  s.time.pps.pendLabels.foldl State.applyOne { s with time := { s.time with pps := { s.time.pps with pendLabels := [] } } }

/-- PPS_EDGE (R384–R386): an edge of the captured polarity of a pulse of at least 100 ns. -/
def doPpsEdge (dt : Nat) (rising : Bool) (widthNs : Nat) (s : State) : State :=
  let s := s.advance dt
  if decide (100 ≤ widthNs) && (rising != s.time.pps.falling) then
    let before := s.time.pps.st
    let p := s.time.pps.edge s.now s.gNs
    let s := { s with time := { s.time with
      pps := p, gOffset := if s.time.gSrc == some GSrc.pps then p.err else s.time.gOffset } }
    let s := if p.st == before then s else s.writeTime 0x04
    if 2 ≤ p.st then s.applyLabel else s.dropLabel
  else s

def execPpsEdge (dt : Nat) (rising : Bool) (widthNs : Nat) (s : State) : Result := .next (doPpsEdge dt rising widthNs s)

/-- PPS_TIMEOUT (R385): 1.00001 s without an edge. -/
def doPpsTimeout (dt : Nat) (s : State) : State :=
  let s := s.advance dt
  if decide (2 ≤ s.time.pps.st) && decide (s.time.pps.last + 1000010000000 ≤ s.now) then
    ({ s with time := { s.time with pps := s.time.pps.unlock 0 } }.writeTime 0x04).dropLabel
  else s

def execPpsTimeout (dt : Nat) (s : State) : Result := .next (doPpsTimeout dt s)

/-! ### TB-G at a grid mark (R370–R378) -/

/-- The instant of the next mark after the last one, in 10^−24 s of TB-G, and its index (R374). -/
def Time.nextMark (t : Time) : Nat × Nat :=
  match t.stepDue with
  | some (i, d) => (i, d)
  | none => (t.gIdx + 1, markAcc)

/-- CLK25 time in ps until TB-G reaches its next mark. -/
def Time.toMark (t : Time) : Nat := ceilDiv (t.nextMark.2 - t.gAcc) ((10 : Int) ^ 12 + t.gRate).toNat

/-- The clocks at the next grid mark (R16, R369, R374). -/
def Time.atMark (t : Time) : Time :=
  let (i, d) := t.nextMark
  let u := t.advance t.toMark
  let jump : Int := (((i - t.gIdx) * markAcc : Nat) : Int) - d
  { u with gIdx := i, gAcc := u.gAcc - d, issued := t.issued + 1, stepDue := none,
           pps := if t.stepDue.isSome then u.pps.afterStep (jump / nsAcc) else u.pps
           acts := if t.stepDue.isSome then t.acts.map (·.passed 2 ((t.gIdx * markAcc + u.gAcc) / nsAcc) ((i * markAcc + u.gAcc - d) / nsAcc))
             else t.acts
           prevIdx := if t.stepDue.isSome then some t.gIdx else none }

/-- A source is locked (R377, R381, R385). -/
def Time.usable (t : Time) : GSrc → Bool
  | .n0 => (nth t.n 0).st == .locked
  | .n1 => (nth t.n 1).st == .locked
  | .pps => decide (2 ≤ t.pps.st)

/-- TB-G minus a source in ns at this mark (R370, R385). -/
def Time.offsetOf (t : Time) : GSrc → Int
  | .n0 => (((t.gIdx * markAcc + t.gAcc : Nat) : Int) - (nth t.n 0).acc) / nsAcc
  | .n1 => (((t.gIdx * markAcc + t.gAcc : Nat) : Int) - (nth t.n 1).acc) / nsAcc
  | .pps => t.pps.err

/-- TB-G leads a source by more than STEP_US, so that it may not use it (R376); never an unlabelled PPS. -/
def Time.leads (t : Time) (stepNs : Int) (g : GSrc) : Bool :=
  (g != GSrc.pps || t.pps.label.isSome) && decide (stepNs < t.offsetOf g)

/-- The source of TB-G at this mark (R376, R377). -/
def Time.select (t : Time) (order : List GSrc) (stepNs : Int) : Option GSrc :=
  order.find? fun g => t.usable g && !t.leads stepNs g

/-- The sources that are refused at this mark: usable, before the selected one, and led by more than STEP_US (R376). -/
def Time.refusedNow (t : Time) (order : List GSrc) (stepNs : Int) : List GSrc :=
  (order.takeWhile fun g => !(t.usable g && !t.leads stepNs g)).filter fun g => t.usable g && t.leads stepNs g

/-- The rate correction by the slew law, changed by at most 0.01 ppm and kept within 1 ppm (R373). -/
def slewed (rate offset : Int) : Int :=
  let want := Config.slewRate rate offset
  max (-1000000) (min 1000000 (max (rate - 10000) (min want (rate + 10000))))

/-- The step of R374 for an offset in ns below −STEP_US: the first mark after it and its distance from this mark. -/
def Time.stepTo (t : Time) (offset : Int) : Nat × Nat :=
  let src : Nat := (((t.gIdx * markAcc + t.gAcc : Nat) : Int) - offset * nsAcc).toNat
  let m := ceilDiv (src + markAcc - t.gAcc) markAcc
  (m, m * markAcc - src + t.gAcc)

/-- The offset to act on: an unlabelled PPS that TB-G leads is stepped to the next multiple (R385). -/
def Time.actOn (t : Time) (stepNs : Int) (g : GSrc) : Int :=
  let o := t.offsetOf g
  if g == GSrc.pps && t.pps.label.isNone && decide (stepNs < o) then o - 10 ^ 9 else o

/-- TB-G under its source at this mark: slewed, or a step for the next mark (R373, R374). -/
def Time.steer (t : Time) (stepNs : Int) (g : GSrc) : Time :=
  let o := t.actOn stepNs g
  let t := { t with gOffset := t.offsetOf g }
  if o < -stepNs then { t with stepDue := some (t.stepTo o), rates := (t.gRate :: t.rates).take 65536 }
  else
    let r := slewed t.gRate o
    { t with gRate := r, rates := (r :: t.rates).take 65536 }

/-- TB-G at a mark (R373–R378): a source of the STRAP5 order, holdover at the frozen mean rate, or free-running. -/
def Time.discipline (t : Time) (order : List GSrc) (stepNs : Int) : Time :=
  let sel := t.select order stepNs
  let t := { t with refused := t.refusedNow order stepNs }
  match sel with
  | some g => { t with gSrc := some g }.steer stepNs g
  | none =>
    if order.isEmpty then { t with gSrc := none, gRate := 0, gOffset := 0 }
    else if t.gSrc.isSome then { t with gSrc := none, gRate := meanRate t.rates, gOffset := 0, holdFrom := t.ps }
    else { t with gOffset := 0 }

/-- Rate corrections of locked domains at this mark (R378, R381). -/
def Time.noteRates (t : Time) : Time :=
  { t with n := t.n.map fun p => if p.st == .locked then { p with rateHist := (p.rate :: p.rateHist).take 65536 } else p }

/-- TB-G's part of a grid mark with its records: reason 0x05 for each source newly refused, 0x02 for a change of source
(R376, R377, R393). -/
def State.tbgAtMark (s : State) : State :=
  let t := s.time
  let order := gOrder (s.strap 5)
  let u := t.noteRates.discipline order s.stepNs
  let s := { s with time := u }
  let s := (u.refused.filter fun g => !t.refused.contains g).foldl (fun s _ => s.writeTime 0x05) s
  if u.gSrc == t.gSrc then s else s.writeTime 0x02

/-- A stream after a step of TB-G (R375): its next packet holds only the instants from the first mark after it on. -/
def StreamSt.afterStep (x : StreamSt) (before mark : Nat) : StreamSt :=
  { x with since := x.since + 8 * (mark - (before + 1)), first := max x.first (8 * mark) }

/-- The INERTIAL island after a step of TB-G from mark before to mark (R104, R374, R375): no instant of a mark that was never
issued is sampled. -/
def Motion.afterStep (m : Motion) (before mark : Nat) : Motion :=
  { m with
    instant := if m.instant < 8 * (before + 1) then m.instant else max m.instant (8 * mark)
    streams := m.streams.map fun (x : StreamSt) => x.afterStep before mark }

/-- At the first mark after a step (R375): every open packet of a stream, product or road channel, which holds the instants up
to the mark before the step, closes with GAP set, and the TIME-STATE record of the step is written (R393). -/
def State.afterStep (s : State) : State :=
  match s.time.prevIdx with
  | some p =>
    let s := s.closeShort fun p => tagOrigin p.tag == 0 || tagOrigin p.tag == 2 || tagOrigin p.tag == 4
    { s with time := { s.time with prevIdx := none }, mot := s.mot.afterStep p s.mark }.writeRec 0x18 s.mark
      (s.timeWords 0x03 s.mark p)
  | none => s

/-- The edge that an image captures (R384): a change drops the lock and the label, the count goes on. -/
def Pps.setEdge (p : Pps) (falling : Bool) : Pps :=
  if p.falling == falling then p
  else { p with falling := falling, st := if p.st = 0 then 0 else 1, run := 0, label := none, err := 0 }

/-- The edge captured becomes this one, with the TIME-STATE record and the answer to a waiting label that this brings
(R384, R386, R393). -/
def State.setPpsEdge (s : State) (falling : Bool) : State :=
  let before := s.time.pps.st
  let s := { s with time := { s.time with pps := s.time.pps.setEdge falling } }
  if s.time.pps.st == before then s else (s.writeTime 0x04).dropLabel

/-- Domains that an image disables stop (R381), and a domain it enables begins without a source. -/
def State.setDomains (s : State) : State :=
  (List.range 2).foldl (fun s x =>
    if s.domainOn x then s
    else s.onN x fun p => { p with st := .noSource, rate := 0, master := none, good := 0, badRun := 0, twoStep := none, foreign := [], t3 := [none, none] }) s

/-! ### Scheduled actions (R389–R391) -/

/-- How an action is classified when it is set (R390). -/
inductive SetResult where
  | scheduled (t : Nat)   -- its instant in ns on its time base, full form
  | late (ns : Nat)       -- executes at once, late by so much
  | outOfWindow
  | noSource
  | full
  deriving DecidableEq, Repr, Inhabited

/-- Classification of an action on time base tb for an instant t (R389, R390). -/
def State.classify (s : State) (tb t : Nat) : SetResult :=
  let now := s.tbNs tb
  let d := diff40 t now
  if tb < 2 ∧ (nth s.time.n tb).st = .noSource then .noSource
  else if d < 0 then .late (-d).toNat
  else if 500 * 10 ^ 9 < d then .outOfWindow
  else if 32 ≤ s.time.acts.length then .full
  else .scheduled (now + d.toNat)

/-- An action is set (R390). -/
def State.addAct (s : State) (a : Action) : State := { s with time := { s.time with acts := s.time.acts ++ [a] } }

end Sys2Proof.Machine
end

