-- ==== Sys2Proof/Machine/Uplink.lean ====
section
/-! DEFINITION. The uplink ports (15_uplink.md): the switch, ARP and ICMP, stream datagrams, launches, the loss of a link,
and the frames that the ordinary clocks send (14_time.md R379, R383). -/

namespace Sys2Proof.Machine

/-! ### Addresses -/

/-- The network block of the image in force (R404). -/
def State.net (s : State) : NetBlock :=
  match s.port.inForce with
  | some im => im.clients.net
  | none => { mac := [], ipaddr := 0, prefixLen := 8, gateway := 0, streamPort := 52410, ctrlPort := 52411, heartbeat := 10 }

/-- The address that resolves client c: its own, or the gateway's for a client outside the subnet (R402). -/
def State.arpTarget (s : State) (c : Nat) : Option Word :=
  match s.clientEntry c with
  | none => none
  | some e =>
    let sh := 32 - s.net.prefixLen
    some (if e.addr >>> sh = s.net.ipaddr >>> sh then e.addr else s.net.gateway)

/-- Broadcast address. -/
def bcast : List Byte := List.replicate 6 0xFF

/-- One port changed. -/
def State.onPort (s : State) (p : Nat) (f : UpPort → UpPort) : State :=
  { s with up := { s.up with ports := s.up.ports.modify p f } }

/-- A port that is linked while the UPLINK island runs (R397). -/
def State.linked (s : State) (p : Nat) : Bool := s.uplinkOn && (nth s.up.ports p).link

/-- The port on which an address is learned (R398). -/
def State.learnedOn (s : State) (mac : List Byte) : Option Nat := (s.up.macs.find? (·.1 == mac)).map (·.2.1)

/-- Resolved address and port of client c, none where it is unresolved or learned on no linked port (R417). -/
def State.route (s : State) (c : Nat) : Option (List Byte × Nat) :=
  match (nth s.up.arps c).mac with
  | none => none
  | some m =>
    match s.learnedOn m with
    | some p => if s.linked p then some (m, p) else none
    | none => none

/-! ### Frames -/

/-- Ones-complement sum of 16-bit words, network order. -/
def onesSum : List Byte → Nat
  | a :: b :: r => a.toNat * 256 + b.toNat + onesSum r
  | [a] => a.toNat * 256
  | [] => 0

/-- End-around carries folded in. -/
def foldCarry (n : Nat) : Nat := let a := n % 65536 + n / 65536; let b := a % 65536 + a / 65536; b % 65536 + b / 65536

/-- Internet checksum of bytes. -/
def inetSum (bs : List Byte) : Nat := 65535 - foldCarry (onesSum bs)

/-- A frame padded to the shortest length, FCS left out (R394). -/
def padFrame (bs : List Byte) : List Byte := bs ++ List.replicate (60 - bs.length) 0

/-- An Ethernet frame. -/
def etherFrame (dst src : List Byte) (typ : Nat) (body : List Byte) : List Byte :=
  padFrame (dst ++ src ++ beBytes 2 typ ++ body)

/-- An IPv4 datagram of the hub (R401): IHL 5, TOS 0, DF set, TTL 64. -/
def ipDatagram (ident proto : Nat) (src dst : Word) (body : List Byte) : List Byte :=
  let h (sum : Nat) : List Byte := [0x45, 0] ++ beBytes 2 (20 + body.length) ++ beBytes 2 ident ++ beBytes 2 0x4000 ++
    [64, BitVec.ofNat 8 proto] ++ beBytes 2 sum ++ beBytes 4 src.toNat ++ beBytes 4 dst.toNat
  h (inetSum (h 0)) ++ body

/-- UDP over IPv4: the checksum is computed where asked, 0 otherwise (R403). -/
def udpBody (sum : Bool) (src dst : Word) (sport dport : Nat) (data : List Byte) : List Byte :=
  let n := 8 + data.length
  let h (c : Nat) : List Byte := beBytes 2 sport ++ beBytes 2 dport ++ beBytes 2 n ++ beBytes 2 c
  let c := inetSum (beBytes 4 src.toNat ++ beBytes 4 dst.toNat ++ [0, 17] ++ beBytes 2 n ++ h 0 ++ data)
  h (if sum then (if c = 0 then 65535 else c) else 0) ++ data

/-- A UDP datagram of the hub to a client (R401, R403), and the hub with its identification counted. -/
def State.udpTo (s : State) (mac : List Byte) (addr : Word) (sum : Bool) (sport dport : Nat) (data : List Byte) :
    State × List Byte :=
  let id := s.up.ipId + 1
  ({ s with up := { s.up with ipId := id } },
   etherFrame mac s.net.mac 0x0800 (ipDatagram id.toNat 17 s.net.ipaddr addr (udpBody sum s.net.ipaddr addr sport dport data)))

/-- Bits of a frame on the wire, FCS, preamble and gap included (R411). -/
def wireBits (bs : List Byte) : Nat := (bs.length + 24) * 8

/-- A frame of the hub itself. -/
def ownFrame (prio : Nat) (bs : List Byte) : Egress :=
  { prio := prio, bytes := bs, fcsGood := true, back := none, ctrl := false, fwd := false, ptpIn := none,
    delayReq := none, alarm := false }

/-! ### Egress (R392, R399, R383) -/

/-- ns until the earliest launch on a port, none where none is scheduled (R392). -/
def State.nextLaunch (s : State) (p : Nat) : Option Nat :=
  match s.port.inForce with
  | none => none
  | some im =>
    (s.time.acts.filter fun a => (nth im.clients.launches a.entry).port == p).foldl (fun m a =>
      let d := (diff40 a.t (s.tbNs a.tb)).toNat
      match m with
      | none => some d
      | some k => some (min k d)) none

/-- A frame may start: within 1.3 ms of a launch only one that ends before it, and every launched frame (R392). -/
def mayStart (launch : Option Nat) (e : Egress) : Bool :=
  e.prio == 2 || (match launch with
    | none => true
    | some d => decide (1300000 < d) || decide ((e.bytes.length + 12) * 800 ≤ d))

/-- The frame that a port starts next: the lowest priority number, the oldest of them (R399). -/
def pickFrame (launch : Option Nat) (q : List Egress) : Option Egress :=
  (q.filter (mayStart launch)).foldl (fun a e => match a with
    | none => some e
    | some b => if e.prio < b.prio then some e else some b) none

/-- The Ethertype of Annex E (R379). -/
def annexE (bs : List Byte) : Bool := beNat ((bs.drop 12).take 2) == 0x88F7

/-- Offset of the PTP message in a frame: Annex E, or Annex C on the event port, behind an IPv4 header of any length; none for
another frame (R379, R383). -/
def ptpOffset (bs : List Byte) : Option Nat :=
  let ihl := 4 * fld (word (nth bs 14).toNat) 3 0
  if annexE bs then some 14
  else if beNat ((bs.drop 12).take 2) = 0x0800 ∧ fld (word (nth bs 14).toNat) 7 4 = 4 ∧ 20 ≤ ihl ∧ nth bs 23 = 17 ∧
      beNat ((bs.drop 20).take 2) % 8192 = 0 ∧ beNat ((bs.drop (16 + ihl)).take 2) = 319 then some (22 + ihl)
  else none

/-- messageType of a PTP event message, 0 Sync, 1 Delay_Req, up to 3; none for another frame. -/
def ptpEvent (bs : List Byte) : Option Nat :=
  match ptpOffset bs with
  | none => none
  | some o => let t := (nth bs o).toNat % 16; if t < 4 ∧ o < bs.length then some t else none

/-- Bytes replaced from an offset on. -/
def putBytes (bs : List Byte) (off : Nat) (new : List Byte) : List Byte := bs.take off ++ new ++ bs.drop (off + new.length)

/-- The incremental update of a UDP checksum for replaced bytes (RFC 1624, R383). -/
def patchSum (sum : Nat) (old new : List Byte) : Nat :=
  if sum = 0 then 0
  else
    let c := 65535 - foldCarry ((65535 - sum) + (65535 - foldCarry (onesSum old)) + onesSum new)
    if c = 0 then 65535 else c

/-- Bytes of the PTP message at offset o replaced from its byte k on, and under Annex C the UDP checksum with them (R383). -/
def patchPtp (bs : List Byte) (o k : Nat) (new : List Byte) : List Byte :=
  let old := (bs.drop (o + k)).take new.length
  let bs' := putBytes bs (o + k) new
  if annexE bs then bs' else putBytes bs' (o - 2) (beBytes 2 (patchSum (beNat ((bs.drop (o - 2)).take 2)) old new))

/-- The residence time added to correctionField (R383). -/
def addResidence (bs : List Byte) (ps : Nat) : List Byte :=
  match ptpOffset bs with
  | none => bs
  | some o => patchPtp bs o 8 (beBytes 8 (beNat ((bs.drop (o + 8)).take 8) + ps * 65536 / 1000))

/-- The egress timestamp put into a Delay_Req as it leaves (R379, R380). -/
def stampEgress (bs : List Byte) (ns : Nat) : List Byte :=
  match ptpOffset bs with
  | none => bs
  | some o => patchPtp bs o 34 (beBytes 6 (ns / 10 ^ 9) ++ beBytes 4 (ns % 10 ^ 9))

/-- A frame as it leaves at CLK25 time now: a corrected message with its residence time (R383), a Delay_Req of the hub with its
egress timestamp (R380). -/
def State.leaving (s : State) (e : Egress) : Egress :=
  let e := match e.ptpIn with
    | some t => if e.fcsGood then { e with bytes := addResidence e.bytes (s.now - t) } else e
    | none => e
  match e.delayReq with
  | some (x, _) => { e with bytes := stampEgress e.bytes (s.nNs x) }
  | none => e

/-- A port starts a frame of its queue (R399). -/
def UpPort.start (p : UpPort) (e e' : Egress) : UpPort := { p with tx := some e', queue := p.queue.erase e }

/-- The egress time of a Delay_Req at the port where it leaves is kept for its answer (R380). -/
def State.noteEgress (s : State) (p : Nat) (e : Egress) : State :=
  match e.delayReq with
  | some (x, seq) =>
    if (nth s.time.n x).delaySeq = seq then { s with time := s.time.onN x fun n => { n with t3 := n.t3.set p (some (s.nNs x)) } } else s
  | none => s

/-- A free port starts the next waiting frame (R399). -/
def State.serve (s : State) (p : Nat) : State :=
  if s.linked p && (nth s.up.ports p).tx.isNone then
    match pickFrame (s.nextLaunch p) (nth s.up.ports p).queue with
    | some e => (s.onPort p (·.start e (s.leaving e))).noteEgress p e
    | none => s
  else s

/-- A frame for a port: it waits, and starts at once where the port is free (R399). Nothing is sent without a link. -/
def State.send (s : State) (p : Nat) (e : Egress) : State :=
  if s.linked p then (s.onPort p fun u => { u with queue := u.queue ++ [e] }).serve p else s

/-- A frame on every linked port. -/
def State.sendAll (s : State) (e : Egress) : State := (s.send 0 e).send 1 e

/-! ### Mailbox messages on the wire (R413, R450) -/

/-- A control datagram of the hub to client c (R413). -/
def State.sendControl (s : State) (c : Nat) (slot : Bool) (msg : List Word) : State :=
  match s.route c, s.clientEntry c with
  | some (m, p), some e =>
    let data := bytesOfWords ([word (at_ 1 28 + at_ 5 24 + at_ c 22), 0] ++ msg)
    let (s, bs) := s.udpTo m e.addr true s.net.ctrlPort e.port data
    let s := { s with up := { s.up with clients := s.up.clients.modify c fun (u : UpClient) => { u with lastSent := s.now } } }
    s.send p { ownFrame 3 bs with ctrl := slot }
  | _, _ => s

/-- The outbound slot of client c goes to the switch when its port can take it, which releases the slot (R450). -/
def State.pumpOne (s : State) (c : Nat) : State :=
  match (nth s.clients c).outSlot, s.route c with
  | some m, some (_, p) =>
    if (nth s.up.ports p).queue.any (·.ctrl) then s else (s.sendControl c true m).onClient c Client.release
  | _, _ => s

/-- The outbound slots of U0–U3 go to the switch as their ports can take them (R450). -/
def State.pump (s : State) : State := (List.range 4).foldl State.pumpOne s

/-- Launched frames still wait or leave on a port (R392). -/
def State.launching (s : State) (p : Nat) : Bool :=
  (nth s.up.ports p).queue.any (·.prio == 2) || (match (nth s.up.ports p).tx with
    | some e => e.prio == 2
    | none => false)

/-- A launch that raised a TIME alarm has yet to end: it waits, or one of its datagrams does, or is on the wire (R508). -/
def State.alarmOpen (s : State) : Bool :=
  s.time.acts.any (·.alarm) || s.up.ports.any fun (u : UpPort) => (u.queue ++ u.tx.toList).any (·.alarm)

/-- The launches that raised the TIME alarm have ended: the hold lasts 1 s more (R508). -/
def State.launchDone (s : State) : State :=
  if s.alarmOpen then s
  else
    { s with power := { s.power with holds := s.power.holds.map fun (h : Hold) =>
      if h.src = 2 ∧ h.ends.isNone then { h with ends := some (s.now + secPs 1) } else h } }

/-- EGRESS_PORT_FREE: the frame on the wire has left, and the next one starts (R399). -/
def doEgressPortFree (dt p : Nat) (s : State) : State :=
  let s := s.advance dt
  if s.linked p then ((s.onPort p fun u => { u with tx := none }).pump.serve p).launchDone else s

/-- EGRESS_PORT_FREE (R399). -/
def execEgressPortFree (port : After (Fin 2)) (s : State) : Result := .next (doEgressPortFree port.dt port.what.val s)

/-! ### Links (R395, R397, R417, R418) -/

/-- An ARP packet for IPv4 over Ethernet. -/
def arpPacket (op : Nat) (sha : List Byte) (spa : Word) (tha : List Byte) (tpa : Word) : List Byte :=
  beBytes 2 1 ++ beBytes 2 0x0800 ++ [6, 4] ++ beBytes 2 op ++ sha ++ beBytes 4 spa.toNat ++ tha ++ beBytes 4 tpa.toNat

/-- An ARP request of the hub (R402). -/
def State.arpRequest (s : State) (target : Word) : List Byte :=
  etherFrame bcast s.net.mac 0x0806 (arpPacket 1 s.net.mac s.net.ipaddr (List.replicate 6 0) target)

/-- The amplitude at which a port links, true for 2.4 Vpp (R54, R395): a port that advertises both runs at 2.4 Vpp when the partner
can, else at 1.0 Vpp; a partner that can use none that the port advertises does not link. -/
def linkAmp (adv : Nat) (p : LinkPartner) : Option Bool :=
  match adv with
  | 0 => if p.at24 then some true else if p.at10 then some false else none
  | 1 => if p.at24 then some true else none
  | 2 => if p.at10 then some false else none
  | _ => none

/-- LINK_UP: auto-negotiation, with the request for 2.4 Vpp where the port advertises both amplitudes; the port links at its
amplitude, sends its gratuitous ARP, and unresolved clients are asked for again (R395, R397, R402, R418). -/
def doLinkUp (dt p : Nat) (partner : LinkPartner) (s : State) : State :=
  let s := s.advance dt
  if s.uplinkOn && !(nth s.up.ports p).link then
    let s := s.onPort p fun u => { u with req24 := s.upAmp p == 0 }
    match linkAmp (s.upAmp p) partner with
    | none => s
    | some amp =>
      let s := s.onPort p fun u => { u with link := true, amp24 := amp, queue := [], tx := none }
      let s := { s with up := { s.up with arps := s.up.arps.map fun (a : Arp) => if a.mac.isNone then { a with asked := false } else a } }
      s.send p (ownFrame 3 (s.arpRequest s.net.ipaddr))
  else s

/-- LINK_UP (R397). -/
def execLinkUp (port : After (Fin 2)) (partner : LinkPartner) (s : State) : Result :=
  .next (doLinkUp port.dt port.what.val partner s)

/-- A datagram that never left goes back to its reader: the cursor to its first packet, SEQ as before it (R417). -/
def State.takeBack (s : State) (b : Back) : State :=
  let back (rd : Reader) : Reader := { rd with next := b.next, delivered := b.delivered, gapTo := b.gapTo, part := none, lineOff := 0,
                                               inserts := b.used ++ rd.inserts }
  { s with
    cw := (s.cw.onReader b.client back).peaks
    up := { s.up with clients := s.up.clients.modify b.client fun (u : UpClient) =>
      { u with seq := b.seq, frag := none, flight := u.flight.filter fun x => later32 b.next x.1 } } }

/-- A port loses its link: the addresses learned on it are forgotten, unsent stream datagrams go back, and clients that are
learned on no port are unresolved (R417). -/
def State.dropLink (s : State) (p : Nat) : State :=
  let gone := (nth s.up.ports p).queue.filterMap (·.back)
  let s := s.onPort p fun u => { u with link := false, amp24 := false, req24 := false, queue := [], tx := none }
  let macs := s.up.macs.filter (·.2.1 != p)
  let s := { s with up := { s.up with
    macs := macs
    arps := s.up.arps.map fun (a : Arp) =>
      match a.mac with
      | some m => if macs.any (·.1 == m) then a else { a with mac := none, misses := 0, asked := false }
      | none => a } }
  gone.reverse.foldl State.takeBack s

/-- LINK_DOWN (R417). -/
def doLinkDown (p : Nat) (s : State) : State := if (nth s.up.ports p).link then (s.dropLink p).launchDone else s

/-- LINK_DOWN (R417). -/
def execLinkDown (port : Fin 2) (s : State) : Result := .next (doLinkDown port.val s)

/-- The UPLINK island goes off: both links, the switch's table and the resolved addresses are gone (R397, R418). -/
def State.uplinkOff (s : State) : State :=
  let s := (s.dropLink 0).dropLink 1
  { s with up := { s.up with
    macs := []
    pings := []
    arps := List.replicate 4 { mac := none, misses := 0, last := 0, asked := false } } }

/-! ### The switch (R398–R400) -/

/-- Destination, source and Ethertype of a frame. -/
def frameDst (bs : List Byte) : List Byte := bs.take 6
/-- Source address. -/
def frameSrc (bs : List Byte) : List Byte := (bs.drop 6).take 6
/-- Ethertype. -/
def frameType (bs : List Byte) : Nat := beNat ((bs.drop 12).take 2)

/-- A group address. -/
def isGroup (mac : List Byte) : Bool := bitOf (nth mac 0).toNat 0

/-- The multicast addresses that also go to the hub (R398). -/
def hubGroups : List (List Byte) := [[0x01, 0x1B, 0x19, 0, 0, 0], [0x01, 0, 0x5E, 0, 0x01, 0x81]]

/-- A source address is learned on a port, in a table of 64 (R398). -/
def State.learn (s : State) (p : Nat) (src : List Byte) : State :=
  let rest := s.up.macs.filter (·.1 != src)
  if isGroup src || decide (64 ≤ rest.length) then s
  else { s with up := { s.up with macs := rest ++ [(src, p, s.now)] } }

/-- Bytes of forwarded frames that wait at a port. -/
def UpPort.fwdBytes (u : UpPort) : Nat := ((u.queue.filter (·.fwd)).map fun e => e.bytes.length + 4).sum

/-- A frame is forwarded to a port, or discarded where its 24 KiB are full (R399). -/
def State.forward (s : State) (p : Nat) (e : Egress) : State :=
  if !s.linked p then s
  else if decide (24576 < (nth s.up.ports p).fwdBytes + e.bytes.length + 4) then
    s.onPort p fun u => { u with discards := u.discards + 1 }
  else s.send p e

/-- The frame goes to the other uplink port (R398). -/
def State.goesAcross (s : State) (p : Nat) (dst : List Byte) : Bool :=
  if isGroup dst then true
  else if dst == s.net.mac then false
  else match s.learnedOn dst with
    | some q => q != p
    | none => true

/-- A frame as it is forwarded: the ingress time stays with a message that the transparent clock corrects (R383). The
switch's own delay is a free value of at most 16.8 µs (R398). -/
def State.crossing (s : State) (f : EthFrame) : Egress × State :=
  let ev := ptpEvent f.bytes
  let e : Egress := { prio := if ev.isSome then 1 else 4, bytes := f.bytes, fcsGood := f.fcsGood, back := none, ctrl := false,
                      fwd := true, ptpIn := none, delayReq := none, alarm := false }
  if s.timeBlock.tc && (ev == some 0 || ev == some 1) then
    let (k, s) := s.takeNat
    ({ e with ptpIn := some (s.now - k % 16800001) }, s)
  else (e, s)

/-- The lengths of a frame that the MAC takes, FCS included (R394). -/
def lengthOk (bs : List Byte) : Bool := decide (60 ≤ bs.length) && decide (bs.length ≤ 1518)

/-- FRAME_RECEIVE: a frame is learned and forwarded by the switch (R398–R400, R383); the hub's own part of it is the command
of its protocol. -/
def doFrameReceive (dt p : Nat) (f : EthFrame) (s : State) : State :=
  let s := s.advance dt
  if s.linked p && lengthOk f.bytes && frameSrc f.bytes != s.net.mac then
    let s := if f.fcsGood then s.learn p (frameSrc f.bytes) else s.onPort p fun u => { u with fcsErr := u.fcsErr + 1 }
    if s.goesAcross p (frameDst f.bytes) then
      let (e, s) := s.crossing f
      s.forward (1 - p) e
    else s
  else s

/-- FRAME_RECEIVE (R398). -/
def execFrameReceive (dt : Nat) (port : Fin 2) (f : EthFrame) (s : State) : Result := .next (doFrameReceive dt port.val f s)

/-- MAC_AGE_OUT: a learned address ages out after 300 s (R398). -/
def doMacAgeOut (dt index : Nat) (s : State) : State :=
  let s := s.advance dt
  match s.up.macs[index]? with
  | some m => if m.2.2 + secPs 300 ≤ s.now then { s with up := { s.up with macs := s.up.macs.eraseIdx index } } else s
  | none => s

/-- MAC_AGE_OUT (R398). -/
def execMacAgeOut (dt index : Nat) (s : State) : Result := .next (doMacAgeOut dt index s)

/-! ### ARP and ICMP (R402) -/

/-- A frame that the hub itself takes on a port: good, untagged, addressed to it, broadcast or to one of the two groups that
reach its internal port (R394, R398, R400). -/
def State.forHub (s : State) (p : Nat) (f : EthFrame) : Bool :=
  s.linked p && f.fcsGood && lengthOk f.bytes && frameSrc f.bytes != s.net.mac &&
    (frameDst f.bytes == s.net.mac || frameDst f.bytes == bcast || hubGroups.contains (frameDst f.bytes))

/-- ARP_RECEIVE: a request for the hub's address is answered, an answer resolves the clients that asked, and another station
that claims the hub's address is counted (R402). -/
def doArpReceive (p : Nat) (f : EthFrame) (s : State) : State :=
  let a := (f.bytes.drop 14).take 28
  if s.forHub p f && frameType f.bytes == 0x0806 && a.take 6 == beBytes 2 1 ++ beBytes 2 0x0800 ++ [6, 4] then
    let s := s.learn p (frameSrc f.bytes)
    let op := beNat ((a.drop 6).take 2)
    let sha := (a.drop 8).take 6
    let spa := word (beNat ((a.drop 14).take 4))
    let tpa := word (beNat ((a.drop 24).take 4))
    if spa = s.net.ipaddr then s.onPort p fun u => { u with arpConf := u.arpConf + 1 }
    else if op = 1 ∧ tpa = s.net.ipaddr then
      s.send p (ownFrame 3 (etherFrame sha s.net.mac 0x0806 (arpPacket 2 s.net.mac s.net.ipaddr sha spa)))
    else if op = 2 then
      let arps := s.up.arps.mapIdx fun c x =>
        if s.arpTarget c == some spa then { x with mac := some sha, misses := 0, asked := false } else x
      { s with up := { s.up with arps := arps } }.pump
    else s
  else s

/-- ARP_RECEIVE (R402). -/
def execArpReceive (port : Fin 2) (f : EthFrame) (s : State) : Result := .next (doArpReceive port.val f s)

/-- A request for client c on every linked port. -/
def State.askFor (s : State) (c : Nat) (f : Arp → Arp) : State :=
  match s.arpTarget c with
  | none => s
  | some t =>
    { s with up := { s.up with arps := s.up.arps.modify c fun a => { f a with last := s.now, asked := true } } }.sendAll
      (ownFrame 3 (s.arpRequest t))

/-- ARP_RETRY: an unresolved client is asked for once per second (R402). -/
def doArpRetry (dt c : Nat) (s : State) : State :=
  let s := s.advance dt
  let a := nth s.up.arps c
  if s.uplinkOn && a.mac.isNone && (!a.asked || decide (a.last + secPs 1 ≤ s.now)) then s.askFor c id else s

/-- ARP_RETRY (R402). -/
def execArpRetry (dt : Nat) (c : Fin 4) (s : State) : Result := .next (doArpRetry dt c.val s)

/-- ARP_REFRESH: a resolved entry is refreshed every 60 s; after three unanswered refreshes it is unresolved (R402). -/
def doArpRefresh (dt c : Nat) (s : State) : State :=
  let s := s.advance dt
  let a := nth s.up.arps c
  if s.uplinkOn && a.mac.isSome && decide (a.last + secPs 60 ≤ s.now) then
    let misses := a.misses + b2n a.asked
    if 3 ≤ misses then
      { s with up := { s.up with arps := s.up.arps.set c { mac := none, misses := 0, last := a.last, asked := false } } }
    else s.askFor c fun x => { x with misses := misses }
  else s

/-- ARP_REFRESH (R402). -/
def execArpRefresh (dt : Nat) (c : Fin 4) (s : State) : Result := .next (doArpRefresh dt c.val s)

/-- An IPv4 datagram that the hub accepts for itself (R401). -/
structure IpIn where
  src : Word
  dst : Word
  proto : Nat
  body : List Byte
  deriving DecidableEq, Repr, Inhabited

/-- The IPv4 datagram in a frame, where the hub accepts it for itself (R401). -/
def State.ipFor (s : State) (p : Nat) (f : EthFrame) : Option IpIn :=
  let ip := f.bytes.drop 14
  let len := beNat ((ip.drop 2).take 2)
  let dst := word (beNat ((ip.drop 16).take 4))
  let annexC := (s.domainOn 0 && s.timeBlock.n0Transport == 1) || (s.domainOn 1 && s.timeBlock.n1Transport == 1)
  if s.forHub p f && frameType f.bytes == 0x0800 && nth ip 0 == 0x45 && inetSum (ip.take 20) == 0 &&
      beNat ((ip.drop 6).take 2) % 16384 == 0 && decide (20 ≤ len) && decide (len ≤ ip.length) &&
      (dst == s.net.ipaddr || (annexC && dst == 0xE0000181)) then
    some { src := word (beNat ((ip.drop 12).take 4)), dst := dst, proto := (nth ip 9).toNat, body := (ip.take len).drop 20 }
  else none

/-- An ICMP message is answered if it is an echo request of at most 1472 data bytes, at most 8 in a second (R402). -/
def State.echo (s : State) (p : Nat) (f : EthFrame) (src : Word) (body : List Byte) : State :=
  let recent := s.up.pings.filter fun t => decide (s.now < t + secPs 1)
  if nth body 0 == 8 && nth body 1 == 0 && decide (8 ≤ body.length) && decide (body.length ≤ 1480) && inetSum body == 0 &&
      decide (recent.length < 8) then
    let rest := body.drop 4
    let sum := inetSum ([0, 0, 0, 0] ++ rest)
    let id := s.up.ipId + 1
    let s := { s with up := { s.up with ipId := id, pings := recent ++ [s.now] } }.learn p (frameSrc f.bytes)
    s.send p (ownFrame 3 (etherFrame (frameSrc f.bytes) s.net.mac 0x0800
      (ipDatagram id.toNat 1 s.net.ipaddr src ([0, 0] ++ beBytes 2 sum ++ rest))))
  else s

/-- ICMP_ECHO: what the hub accepts for itself with protocol 1 (R401, R402). -/
def doIcmpEcho (dt p : Nat) (f : EthFrame) (s : State) : State :=
  let s := s.advance dt
  (s.ipFor p f).elim s fun x => if x.proto = 1 then s.echo p f x.src x.body else s

/-- ICMP_ECHO (R402). -/
def execIcmpEcho (dt : Nat) (port : Fin 2) (f : EthFrame) (s : State) : Result := .next (doIcmpEcho dt port.val f s)

/-! ### Stream datagrams (R409–R412) -/

/-- What a launch writes into its datagrams (R409, R415). -/
structure LaunchMark where
  entry : Nat
  skipped : Nat
  late : Option Nat        -- its lateness in ns, none for one on time
  alarm : Bool             -- it raised a TIME alarm (R508)
  deriving DecidableEq, Repr, Inhabited

/-- Backlog that client c is shown in a datagram: a Guest's is that of the last grid mark (R409, R471). -/
def State.shownBacklog (s : State) (c : Nat) : Nat :=
  if s.roleOf c == some 2 then (nth s.up.clients c).guestBacklog else s.cw.backlog c

/-- The 16-byte header of a stream datagram (R409). -/
def State.streamHead (s : State) (c kind fragIdx count : Nat) (seq : Word) (l : Option LaunchMark) : List Word :=
  let back := s.shownBacklog c
  let (entry, launched, skipped, late) := match l with
    | some m => (m.entry, 1, m.skipped, m.late)
    | none => (0, 0, 0, none)
  [word (at_ 1 28 + at_ kind 24 + at_ c 22 + at_ (bandOf back (s.cw.cursorInSpill c)) 20 + at_ entry 16 + at_ launched 15 +
      at_ (b2n late.isSome) 14 + at_ fragIdx 8 + count),
   seq, word (at_ (satN 8 skipped) 24 + back), word (satN 32 (late.getD 0))]

/-- What one stream datagram carries (R410). -/
inductive DatagramLoad where
  | packets (cw : Causeway) (n : Nat) (lines : List Word) (used : List Ins) (flight : List (Word × Nat))
  | fragment (p : Packet) (mp : Word) (idx of : Nat) (lines : List Word)
  | nothing
  deriving DecidableEq, Repr, Inhabited

/-- The milepost in word2 of an item: its own, or that of the packet that follows a record (R316). -/
def Causeway.itemMp (cw : Causeway) (r : Nat) : Word :=
  match cw.nextItem r with
  | .pkt _ m => m
  | .gap f _ _ => f
  | _ => cw.following r

/-- Consecutive items of reader r that fit whole into `room` lines, with fuel (R410): the Causeway after them, their number,
words, the records among them and the lines that count for the window. -/
def Causeway.gather : Nat → Causeway → Nat → Nat → Nat → Causeway × Nat × List Word × List Ins × List (Word × Nat)
  | 0, cw, _, _, _ => (cw, 0, [], [], [])
  | f + 1, cw, r, mark, room =>
    let ws := cw.itemWords r mark
    let n := ws.length / 4
    match cw.nextItem r with
    | .nothing => (cw, 0, [], [], [])
    | it =>
      if room < n then (cw, 0, [], [], [])
      else
        let (cw', k, rest, used, fl) := Causeway.gather f (cw.pass r) r mark (room - n)
        let used' := match it with
          | .ins i => i :: used
          | _ => used
        (cw', k + 1, ws ++ rest, used', (cw.itemMp r, n) :: fl)

/-- What the next datagram to client c carries (R410). -/
def State.nextLoad (s : State) (c : Nat) : DatagramLoad :=
  let frag (p : Packet) (mp : Word) (k : Nat) : DatagramLoad :=
    let ws := p.image mp
    .fragment p mp k (ceilDiv (ws.length / 4) 91) ((ws.drop (364 * k)).take 364)
  match (nth s.up.clients c).frag with
  | some (p, k) => frag p ((p.mpOf c).getD 0) k
  | none =>
    match s.cw.nextItem c with
    | .nothing => .nothing
    | it =>
      let big := match it with
        | .pkt p m => decide (91 < (p.image m).length / 4)
        | _ => false
      if big then
        match it with
        | .pkt p m => frag p m 0
        | _ => .nothing
      else
        let (cw, k, ws, used, fl) := Causeway.gather 91 s.cw c s.mark 91
        .packets cw k ws used fl

/-- The return that a datagram of client c leaves with the switch (R417). -/
def State.backOf (s : State) (c : Nat) (used : List Ins) : Back :=
  let rd := nth s.cw.readers c
  { client := c, next := rd.next, delivered := rd.delivered, gapTo := rd.gapTo, seq := (nth s.up.clients c).seq, used := used }

/-- One datagram for client c goes to the switch on a port (R409–R411). -/
def State.emit (s : State) (c : Nat) (mac : List Byte) (p : Nat) (e : ClientEntry) (l : Option LaunchMark) : State :=
  let u := nth s.up.clients c
  let seq := u.seq + 1
  let prio := if l.isSome then 2 else 5
  let out (s : State) (kind fi n : Nat) (lines : List Word) (b : Back) (cw : Causeway) (f : UpClient → UpClient) : State :=
    let data := bytesOfWords (s.streamHead c kind fi n seq l ++ lines)
    let (s, bs) := s.udpTo mac e.addr false s.net.streamPort e.port data
    let keep := (nth s.up.clients c).sent.filter fun x => decide (s.now < x.1 + msPs 100)
    let count (u : UpClient) : UpClient := f { u with seq := seq, lastSent := s.now, sent := keep ++ [(s.now, wireBits bs)] }
    let s := { s with cw := cw, up := { s.up with clients := s.up.clients.modify c count } }
    s.send p { ownFrame prio bs with back := some b, alarm := l.any (·.alarm) }
  match s.nextLoad c with
  | .nothing => out s 3 0 0 [] (s.backOf c []) s.cw id
  | .packets cw n ws used fl => out s 1 0 n ws (s.backOf c used) cw fun u => { u with flight := u.flight ++ fl }
  | .fragment pk mp k n ws =>
    let last := k + 1 == n
    let move (rd : Reader) : Reader :=
      if last then rd.pass (.pkt pk mp) else rd.begin_ (.pkt pk mp) c s.mark (91 * (k + 1))
    out s 2 k n ws (s.backOf c []) (s.cw.onReader c move) fun u =>
      { u with flight := u.flight ++ [(mp, ws.length / 4)], frag := if last then none else some (pk, k + 1) }

/-- An idle datagram (R412). -/
def State.emitIdle (s : State) (c : Nat) (mac : List Byte) (p : Nat) (e : ClientEntry) (l : Option LaunchMark) : State :=
  let seq := (nth s.up.clients c).seq + 1
  let data := bytesOfWords (s.streamHead c 3 0 0 seq l)
  let b := s.backOf c []
  let (s, bs) := s.udpTo mac e.addr false s.net.streamPort e.port data
  let keep := (nth s.up.clients c).sent.filter fun x => decide (s.now < x.1 + msPs 100)
  let count (u : UpClient) : UpClient := { u with seq := seq, lastSent := s.now, sent := keep ++ [(s.now, wireBits bs)] }
  let s := { s with up := { s.up with clients := s.up.clients.modify c count } }
  s.send p { ownFrame (if l.isSome then 2 else 5) bs with back := some b, alarm := l.any (·.alarm) }

/-- Lines sent after the last milepost that client c has acknowledged (R411). -/
def State.inFlight (s : State) (c : Nat) : Nat :=
  (((nth s.up.clients c).flight.filter fun x => later32 x.1 (nth s.cw.readers c).acked).map (·.2)).sum

/-- The window of client c is open (R411). -/
def State.windowOpen (s : State) (c : Nat) (e : ClientEntry) : Bool := decide (s.inFlight c ≤ e.window * 64)

/-- Readers of a Service client deliver nothing without a window (R53). -/
def State.served (s : State) (c : Nat) : Bool := s.roleOf c != some 3 || s.serviceOpen

/-- The rate limit of an unslotted client lets a full datagram go (R411): what was sent in the last 100 ms leaves room, or
the frame sent last has had its time. -/
def State.rateOpen (s : State) (c : Nat) (e : ClientEntry) : Bool :=
  let sent := (nth s.up.clients c).sent.filter fun x => decide (s.now < x.1 + msPs 100)
  let bits := (sent.map (·.2)).sum
  decide (bits + 12304 ≤ e.rate * 1000) ||
    (match (nth s.up.clients c).sent.getLast? with
     | some (t, b) => decide (t + b * 10 ^ 8 / max 1 e.rate ≤ s.now) && decide (e.rate * 1000 < bits + 12304) &&
        (decide (e.rate * 1000 < 12304) || sent.isEmpty)
     | none => true)

/-- A port that can take one of the hub's own stream datagrams (R399). -/
def State.roomFor (s : State) (p : Nat) : Bool := s.linked p && !((nth s.up.ports p).queue.any (·.prio == 5))

/-- Client c's next stream datagram may go (R53, R399, R411). -/
def State.streamReady (s : State) (c : Nat) (e : ClientEntry) (p : Nat) : Bool :=
  !e.slotted && s.served c && s.roomFor p && s.windowOpen c e && s.rateOpen c e && s.nextLoad c != .nothing

/-- STREAM_DATAGRAM: where port, window, rate and link allow and the reader has something, an unslotted client gets a
datagram (R409–R411); the findings are those of the reads for it (R325, R326). -/
def doStreamDatagram (dt c : Nat) (fs : List LineFinding) (s : State) : State :=
  let s := s.advance dt
  match s.clientEntry c, s.route c with
  | some e, some (m, p) => if s.streamReady c e p then (s.readFindings c fs).emit c m p e none else s
  | _, _ => s

/-- STREAM_DATAGRAM (R411). -/
def execStreamDatagram (dt : Nat) (c : Fin 4) (findings : List LineFinding) (s : State) : Result :=
  .next (doStreamDatagram dt c.val findings s)

/-- No packet of client c is under way in fragments: nothing else travels between them (R410), an idle datagram neither
(DESIGN CHOICE, assumption-log row 84). -/
def State.betweenPackets (s : State) (c : Nat) : Bool := (nth s.up.clients c).frag.isNone

/-- HEARTBEAT: an unslotted client to which nothing was sent for HEARTBEAT seconds gets an idle datagram (R412). -/
def doHeartbeat (dt c : Nat) (s : State) : State :=
  let s := s.advance dt
  match s.clientEntry c, s.route c with
  | some e, some (m, p) =>
    if !e.slotted && s.served c && s.roomFor p && s.betweenPackets c &&
        decide ((nth s.up.clients c).lastSent + secPs s.net.heartbeat ≤ s.now) then s.emitIdle c m p e none
    else s
  | _, _ => s

/-- HEARTBEAT (R412). -/
def execHeartbeat (dt : Nat) (c : Fin 4) (s : State) : Result := .next (doHeartbeat dt c.val s)

/-! ### Launches (R415, R416) -/

/-- A launch entry of the image in force. -/
def State.launchEntry (s : State) (e : Nat) : Option LaunchEntry :=
  match s.port.inForce with
  | some im => match im.clients.launches[e]? with
    | some l => if l.used then some l else none
    | none => none
  | none => none

/-- Up to n datagrams of a launch (R415). -/
def State.launchN : Nat → State → Nat → List Byte → Nat → ClientEntry → LaunchMark → State
  | 0, s, _, _, _, _, _ => s
  | n + 1, s, c, m, p, e, l =>
    if s.windowOpen c e && s.nextLoad c != .nothing then State.launchN n (s.emit c m p e (some l)) c m p e l else s

/-- A launch counted as skipped (R415, R416). -/
def State.skipLaunch (s : State) (entry p : Nat) : State :=
  let s := { s with up := { s.up with launchSkip := s.up.launchSkip.modify entry fun n => satN 8 (n + 1) } }
  s.onPort p fun u => { u with skipped := u.skipped + 1 }

/-- A launch executes, late by so many ns or on time, after a TIME alarm or not (R390, R415). -/
def State.launch (s : State) (entry : Nat) (late : Option Nat) (alarm : Bool) : State :=
  match s.launchEntry entry with
  | none => s
  | some l =>
    match s.clientEntry l.client, s.route l.client with
    | some e, some (m, p) =>
      if p != l.port || !s.served l.client then s.skipLaunch entry l.port
      else
        let mk : LaunchMark := { entry := entry, skipped := nth s.up.launchSkip entry, late := late, alarm := alarm }
        let s := if s.windowOpen l.client e && s.nextLoad l.client != .nothing then
            State.launchN l.maxDgram s l.client m p e mk
          else if s.betweenPackets l.client then s.emitIdle l.client m p e (some mk) else s
        { s with up := { s.up with launchSkip := s.up.launchSkip.set entry 0 } }
    | _, _ => s.skipLaunch entry l.port

/-- The first occurrence of a periodic entry at or after `now` on its time base, in ns (R416). -/
def occurrence (l : LaunchEntry) (now : Nat) : Nat :=
  let per := l.periodMs * 1000000
  let ph := l.phaseUs * 1000
  if now ≤ ph then ph else ph + ceilDiv (now - ph) (max 1 per) * per

/-- A periodic entry without an occurrence set gets its next one, not before `least` on its time base; a refused occurrence is
skipped and counted once (R416). -/
def State.setOccurrence (s : State) (entry least : Nat) : State :=
  match s.launchEntry entry with
  | none => s
  | some l =>
    if l.periodic && !(s.time.acts.any fun a => a.entry == entry && a.periodic) then
      let t := occurrence l (max least (s.tbNs l.tb))
      match s.classify l.tb t with
      | .scheduled u => s.addAct { tb := l.tb, t := u, entry := entry, periodic := true, stepped := false, alarm := false }
      | _ =>
        if nth s.up.occRef entry = t then s
        else { s with up := { s.up with occRef := s.up.occRef.set entry t } }.skipLaunch entry l.port
    else s

/-- The periodic entries at a grid mark or at a commit (R416). -/
def State.setOccurrences (s : State) : State := (List.range 16).foldl (fun s e => s.setOccurrence e 0) s

/-- The launch entries that a commit changes lose the occurrence of their own sequence (R416). -/
def State.dropOccurrences (s : State) (old im : Image) : State :=
  let stays (a : Action) : Bool := !a.periodic || nth old.clients.launches a.entry == nth im.clients.launches a.entry
  { s with time := { s.time with acts := s.time.acts.filter stays } }

/-- What the reads for a launch find (R325, R326). -/
def State.launchFindings (s : State) (entry : Nat) (fs : List LineFinding) : State :=
  match s.launchEntry entry with
  | some l => s.readFindings l.client fs
  | none => s

/-- How late a scheduled action is in ns (R389, R391): negative before its instant. -/
def State.lag (s : State) (a : Action) : Int := -(diff40 a.t (s.tbNs a.tb))

/-- A scheduled action that is due executes: the launch, then the next occurrence of its sequence, which lies after this one
(R390–R392, R416). -/
def State.runAct (s : State) (a : Action) : State :=
  let late := (s.lag a).toNat
  let s := { s with time := { s.time with acts := s.time.acts.erase a } }
  let s := s.launch a.entry (if a.stepped || decide (0 < late) then some late else none) a.alarm
  if a.periodic then s.setOccurrence a.entry (a.t + 1) else s

/-! ### Messages of the ordinary clocks (R379, R380) -/

/-- A Delay_Req (R379): PTP version 2.1, the clock identity formed from the MAC address; its originTimestamp is put in as it
leaves. -/
def delayReq (domain : Nat) (mac : List Byte) (seq : BitVec 16) : List Byte :=
  [0x01, 0x12] ++ beBytes 2 44 ++ [BitVec.ofNat 8 domain, 0] ++ beBytes 2 0 ++ beBytes 8 0 ++ beBytes 4 0 ++
    (mac.take 3 ++ [0xFF, 0xFE] ++ mac.drop 3) ++ beBytes 2 1 ++ beBytes 2 seq.toNat ++ [1, 0x7F] ++
    List.replicate 10 0

/-- PTP_DELAY_REQ: a domain with a master sends its Delay_Req, timestamped at the egress of each port (R379, R380). -/
def doPtpDelayReq (dt x : Nat) (s : State) : State :=
  let s := s.advance dt
  let n := nth s.time.n x
  if s.uplinkOn && s.domainOn x && n.master.isSome then
    let seq := n.delaySeq + 1
    let dom := if x = 0 then s.timeBlock.n0Domain else s.timeBlock.n1Domain
    let msg := delayReq dom s.net.mac seq
    let s := { s with time := s.time.onN x fun p => { p with delaySeq := seq, t3 := [none, none] } }
    if (if x = 0 then s.timeBlock.n0Transport else s.timeBlock.n1Transport) = 0 then
      s.sendAll { ownFrame 1 (etherFrame (nth hubGroups 0) s.net.mac 0x88F7 msg) with delayReq := some (x, seq) }
    else
      let (s, bs) := s.udpTo (nth hubGroups 1) 0xE0000181 true 319 319 msg
      s.sendAll { ownFrame 1 bs with delayReq := some (x, seq) }
  else s

/-- PTP_DELAY_REQ (R379). -/
def execPtpDelayReq (dt : Nat) (domain : Fin 2) (s : State) : Result := .next (doPtpDelayReq dt domain.val s)

end Sys2Proof.Machine
end

