-- ==== Sys2Proof/Machine/Mail.lean ====
section
/-! DEFINITION. Mailbox messages (17_mailboxes.md): acceptance, the checks of R449, control mileposts, and the work of
every message of R457. MESSAGE_ACCEPT runs steps 1–6 of R449 and puts an accepted message among the client's work; the
command of its TYPE runs steps 7–9 on the oldest message of that work. -/

namespace Sys2Proof.Machine

/-! ### A message (R445–R447) -/

/-- CMP of a message (R445). -/
def msgCmp (m : List Word) : BitVec 16 := BitVec.ofNat 16 (fld (nth m 0) 31 16)
/-- TYPE of a message (R445). -/
def msgType (m : List Word) : Nat := fld (nth m 0) 7 0

/-- A message of this TYPE from this role carries a tag (R446). -/
def isTagged (role typ : Nat) : Bool := role == 0 && typ != 0x01 && typ != 0x0A

/-- Payload words of a request (R457). -/
def requestWords (typ : Nat) : Nat :=
  match typ with
  | 0x02 | 0x03 | 0x05 | 0x06 | 0x07 | 0x0D => 1
  | 0x0E => 2
  | 0x0F => 3
  | _ => 0

/-- LEN agrees with TYPE (R457, R459). -/
def lenAgrees (role : Nat) (m : List Word) : Bool :=
  if msgType m = 0x09 then m.length == (if fld (nth m 2) 7 0 = 39 then 20 else 32)
  else m.length == 2 + requestWords (msgType m) + (if isTagged role (msgType m) then 5 else 1)

/-- A reserved field of a request is set (R447, R457, R459). -/
def reservedSet (m : List Word) : Bool :=
  let w1 := nth m 1
  let w2 := nth m 2
  fld w1 31 16 != 0 || fld w1 7 2 != 0 ||
    match msgType m with
    | 0x05 => fld w2 31 2 != 0
    | 0x06 => fld w2 31 19 != 0
    | 0x07 => fld w2 31 3 != 0
    | 0x09 => fld w2 31 16 != 0 || fld w2 15 8 != 40
    | 0x0D => fld w2 31 16 != 0
    | 0x0F => fld w2 31 4 != 0
    | _ => false

/-- Roles that may send a TYPE (R457). -/
def mayRole (role typ : Nat) : Bool :=
  match typ with
  | 0x05 | 0x06 | 0x07 | 0x08 | 0x0E => role == 0 || role == 1
  | 0x09 | 0x0B | 0x0C | 0x0D => role == 0
  | _ => true

/-- The tag of a Keeper message verifies under the command key in force (R446, R478); never before SESSION is drawn
(R479). -/
def State.tagOk (s : State) (m : List Word) : Bool :=
  match s.power.kcmd, s.power.session with
  | some key, some ses =>
    let ser := Config.serial.toNat
    let n := m.length - 5
    (m.drop n).take 4 == wordsOf ((hmac key (bytesOfWords ([word ser, word (ser / 2 ^ 32), ses] ++ m.take n))).take 16)
  | _, _ => false

/-- Steps 1–5 of R449: the RESULT of the first failure. -/
def State.refusal (s : State) (c role : Nat) (m : List Word) : Option Nat :=
  let typ := msgType m
  if typ = 0 ∨ 0x0F < typ then some 0xC7
  else if fld (nth m 0) 15 8 ≠ m.length ∨ !lenAgrees role m ∨ reservedSet m then some 0xC3
  else if nth m 1 ≠ identWord c role then some 0xC5
  else if !mayRole role typ ∨ (role = 3 ∧ typ ≠ 0x0A ∧ !s.serviceOpen) then some 0xC0
  else if isTagged role typ ∧ !s.tagOk m then some 0xC4
  else none

/-! ### Control mileposts (R454–R456) -/

/-- ACC and the new NEXT_IN of a message that passed step 5 (R455, R456). -/
def Client.classify (cl : Client) (role typ : Nat) (cmp : BitVec 16) : Nat × Option (BitVec 16) :=
  let repeats := cl.lastCmp == some cmp && cl.nextIn == some (cmp + 1)
  let old := isTagged role typ && (match cl.kfloor with
    | some k => !later16 cmp k
    | none => false)
  if typ = 0x01 then
    (3, some (match cl.kfloor with
      | some k => if role = 0 ∧ later16 (k + 1) (cmp + 1) then k + 1 else cmp + 1
      | none => cmp + 1))
  else if repeats then (2, cl.nextIn)
  else if old then (4, cl.nextIn)
  else
    match cl.nextIn with
    | none => (0, some (cmp + 1))
    | some n => if cmp = n then (0, some (cmp + 1)) else if later16 cmp n then (1, some (cmp + 1)) else (4, cl.nextIn)

/-! ### Acceptance (R448, R452) -/

/-- The ACCEPTED message of an uplink client (R448, R458); a Guest's goes at the mark at which its acceptance shows (R452). -/
def State.accepted (s : State) (c : Nat) (cmp : BitVec 16) (acc : Nat) : State :=
  if c < 4 then
    let cl := nth s.clients c
    let n := match cl.nextIn with
      | some n => n.toNat
      | none => 0
    let m := mailWords 0x70 cmp (s.identOf c) [word (at_ n 16 + at_ acc 8)]
    match s.roleOf c == some 2, cl.seen with
    | true, some k => s.onClient c fun cl => { cl with accs := cl.accs ++ [(k, m)] }
    | _, _ => s.sendControl c false m
  else s

/-- The reply of the latest message goes out again, unchanged (R455). -/
def State.resend (s : State) (c : Nat) (cmp : BitVec 16) : State :=
  match (nth s.clients c).lastReply with
  | some (k, ms) =>
    if k = cmp then
      s.onClient c fun cl =>
        let o : Out := { msgs := ms, release := max (s.mark + 1) ((cl.seen.getD 0) + 1) }
        if s.roleOf c == some 2 then { cl with guestQ := cl.guestQ ++ [o] } else cl.enqueue o
    else s
  | none => s

/-- An accepted message with its ACC: refused, repeated, or put among the client's work (R449, R455). -/
def State.takeMessage (s : State) (c role : Nat) (m : List Word) : State :=
  let typ := msgType m
  let cmp := msgCmp m
  match s.refusal c role m with
  | some r => (s.accepted c cmp 0xFF).reply c cmp typ 0xFF r []
  | none =>
    let (acc, next) := (nth s.clients c).classify role typ cmp
    let s := s.onClient c fun cl =>
      { cl with
        nextIn := next
        lastCmp := if acc = 0 ∨ acc = 1 ∨ acc = 3 then some cmp else cl.lastCmp
        lastReply := if acc = 0 ∨ acc = 1 ∨ acc = 3 then none else cl.lastReply
        kfloor := if isTagged role typ ∧ (acc = 0 ∨ acc = 1) then some cmp else cl.kfloor }
    let s := s.accepted c cmp acc
    if acc = 2 then s.resend c cmp
    else if acc = 4 then s.reply c cmp typ 4 0xC6 []
    else (s.onClient c fun cl => { cl with work := cl.work ++ [(m, acc)] }).pendReply c cmp typ acc

/-- The port of client c takes messages now (R397, R442, R524). -/
def State.mailOn (s : State) (c : Nat) : Bool := if c < 4 then s.uplinkOn else s.hostUp

/-- MESSAGE_ACCEPT: the message in a client's inbound slot is taken; one whose CRC fails is discarded (R448). -/
def doMessageAccept (c : Nat) (s : State) : State :=
  match (nth s.clients c).inSlot with
  | none => s
  | some m =>
    if s.mailOn c then
      let s := s.onClient c fun cl => { cl with inSlot := none }
      if decide (3 ≤ m.length) && decide (m.length ≤ 32) &&
          m.getLast? == some (crc32c (bytesOfWords (m.take (m.length - 1)))) then
        match s.roleOf c with
        | some role => (s.takeMessage c role m).pump
        | none => s
      else s
    else s

/-- MESSAGE_ACCEPT (R448). -/
def execMessageAccept (c : Fin 6) (s : State) : Result := .next (doMessageAccept c.val s)

/-- The message of a control datagram to the hub (R413, R414): UDP header and lengths, checksum where one is present, header
and CRC. -/
def controlMessage (port : Nat) (src dst : Word) (udp : List Byte) : Option (List Word) :=
  let be (o : Nat) : Nat := beNat ((udp.drop o).take 2)
  let data := udp.drop 8
  let ws := wordsOf data
  let m := ws.drop 2
  let pseudo := beBytes 4 src.toNat ++ beBytes 4 dst.toNat ++ [0, 17] ++ beBytes 2 udp.length
  if 8 ≤ udp.length ∧ be 2 = port ∧ be 4 = udp.length ∧ (be 6 = 0 ∨ inetSum (pseudo ++ udp) = 0) ∧
      data.length = 8 + 4 * fld (nth m 0) 15 8 ∧ 3 ≤ m.length ∧ m.length ≤ 32 ∧
      fld (nth ws 0) 31 24 = 0x14 ∧ fld (nth ws 0) 23 0 = 0 ∧ nth ws 1 = 0 ∧
      m.getLast? = some (crc32c (bytesOfWords (m.take (m.length - 1)))) then some m
  else none

/-- The client whose ADDR a source address equals (R406). -/
def State.senderOf (s : State) (src : Word) : Option Nat :=
  (List.range 4).find? fun c => match s.clientEntry c with
    | some e => e.addr == src
    | none => false

/-- A UDP datagram for the hub: on the control port, a client's message passes to its inbound slot, and one from any other
address is discarded and counted (R406, R414, R418). -/
def State.takeControl (s : State) (p : Nat) (f : EthFrame) (x : IpIn) : State :=
  let s := s.learn p (frameSrc f.bytes)
  if beNat ((x.body.drop 2).take 2) ≠ s.net.ctrlPort then s
  else
    match s.senderOf x.src with
    | none => s.onPort p fun u => { u with unknown := u.unknown + 1 }
    | some c =>
      (controlMessage s.net.ctrlPort x.src x.dst x.body).elim s fun m => (doMessageAccept c s).arrive c m

/-- CONTROL_DATAGRAM: what the hub accepts for itself with protocol 17 (R401, R414). -/
def doControlDatagram (p : Nat) (f : EthFrame) (s : State) : State :=
  (s.ipFor p f).elim s fun x => if x.proto = 17 then s.takeControl p f x else s

/-- CONTROL_DATAGRAM (R414). -/
def execControlDatagram (port : Fin 2) (f : EthFrame) (s : State) : Result := .next (doControlDatagram port.val f s)

/-! ### Handling (R449 steps 7 to 9) -/

/-- What steps 4, 5, 7 and 8 of R449 give when a message is handled. -/
inductive Gate where
  | hold               -- a needed island still wakes (R459)
  | refuse (r : Nat)
  | go
  deriving DecidableEq, Repr, Inhabited

/-- Steps 4, 5, 7 and 8 of R449 at the moment of handling (R457, R459, R478, R480, R524). A LAUNCH from HS or TW needs no island,
since it is always refused (R463); the readers of U0 to U3 and HS are not served in Footpath, TW's is (R332, R442). -/
def State.gate (s : State) (c : Nat) (m : List Word) : Gate :=
  let typ := msgType m
  let role := (s.roleOf c).getD 0
  if typ = 0x0A then .go
  else if role = 3 ∧ !s.serviceOpen then .refuse 0xC0
  else if isTagged role typ ∧ !s.tagOk m then .refuse 0xC4
  else if !s.running then .refuse 0xC2
  else if s.power.waking.isSome then .hold
  else if typ = 0x0C then .go
  else if typ = 0x0F then
    if !s.full then .refuse 0xC1
    else if 4 ≤ c ∨ nth s.power.islands 7 = .running then .go
    else if nth s.power.islands 7 = .waking then .hold else .refuse 0xC2
  else if !s.awake then .refuse 0xC2
  else if typ ≤ 0x04 then
    if c ≠ 5 ∧ !s.full then .refuse 0xC2 else if nth s.power.islands 5 == .running then .go else .hold
  else .go

/-- The oldest message of a client's work leaves it. -/
def State.popWork (s : State) (c : Nat) : State := s.onClient c fun cl => { cl with work := cl.work.drop 1 }

/-- The oldest message of client c's work, where it has TYPE typ, is handled by k, refused or held (R449, R459). -/
def State.handle (s : State) (c typ : Nat) (k : List Word → BitVec 16 → State → State) : State :=
  match (nth s.clients c).work with
  | [] => s
  | (m, _) :: _ =>
    if msgType m = typ then
      match s.gate c m with
      | .hold => s
      | .refuse r => ((s.popWork c).resolveResult c (msgCmp m) typ r []).pump
      | .go => (k m (msgCmp m) (s.popWork c)).pump
    else s

/-- The place of a reply whose message gets none goes (R459, R156). -/
def State.dropRep (s : State) (c : Nat) (cmp : BitVec 16) (typ : Nat) : State :=
  (s.onClient c fun cl =>
    { cl with reps := (cl.reps.takeWhile fun r => !(r.cmp == cmp && r.typ == typ && r.body.isNone)) ++
                      (cl.reps.dropWhile fun r => !(r.cmp == cmp && r.typ == typ && r.body.isNone)).drop 1 }).buildReps c

/-! ### Locks (R462) -/

/-- A free lock. -/
def Lock.free : Lock := { holder := none, ends := 0 }

/-- One LOCK or UNLOCK decided: RESULT, lock number and the locks after it (R462). -/
def State.decideLock (s : State) (c : Nat) (m : List Word) : Nat × Nat × State :=
  let w := nth m 2
  let k := if msgType m = 0x06 then fld w 18 16 else fld w 2 0
  let h := s.lockHolder k
  let set (l : Lock) : State := { s with locks := s.locks.set k l }
  if msgType m = 0x06 then
    let lease := fld w 15 0
    if lease = 0 ∨ 3600 < lease then (3, k, s)
    else if h = none ∨ h = some c then
      (if h = none then 0 else 1, k, set { holder := some c, ends := s.tbL + lease * 10 ^ 9 })
    else (2, k, s)
  else if h = some c then (0, k, set Lock.free)
  else (1, k, s)

/-- A decided message: client, CMP, TYPE, RESULT and lock, or a refusal of R458. -/
abbrev Decided := Nat × BitVec 16 × Nat × Nat × Option Nat

/-- The LOCK and UNLOCK messages at the head of client c's work, decided in order, with fuel (R462). -/
def State.lockClientF : Nat → Nat → State → List Decided → State × List Decided
  | 0, _, s, ds => (s, ds)
  | f + 1, c, s, ds =>
    match (nth s.clients c).work with
    | (m, _) :: _ =>
      if msgType m = 0x06 ∨ msgType m = 0x07 then
        match s.gate c m with
        | .hold => (s, ds)
        | .refuse r => State.lockClientF f c (s.popWork c) (ds ++ [(c, msgCmp m, msgType m, r, none)])
        | .go =>
          let (r, k, s) := s.decideLock c m
          State.lockClientF f c (s.popWork c) (ds ++ [(c, msgCmp m, msgType m, r, some k)])
      else (s, ds)
    | [] => (s, ds)

/-- LOCK_DECISION: all LOCK and UNLOCK messages accepted since the last decision, in the order TW, HS, U0 to U3; every reply
shows the locks after the decision (R462). -/
def doLockDecision (s : State) : State :=
  let (s, ds) := [5, 4, 0, 1, 2, 3].foldl (fun (x : State × List Decided) c =>
    State.lockClientF ((nth x.1.clients c).work.length + 1) c x.1 x.2) (s, [])
  (ds.foldl (fun (s : State) (d : Decided) =>
    s.resolveResult d.1 d.2.1 d.2.2.1 d.2.2.2.1 (match d.2.2.2.2 with
      | some k => [s.lockWord k]
      | none => [])) s).pump

/-- LOCK_DECISION (R462). -/
def execLockDecision (s : State) : Result := .next (doLockDecision s)

/-- LOCK_LEASE_END: a lease ends on TB-L and the lock is freed (R462). -/
def doLockLeaseEnd (dt k : Nat) (s : State) : State :=
  let s := s.advance dt
  if (nth s.locks k).holder.isSome && (s.lockHolder k).isNone then { s with locks := s.locks.set k Lock.free } else s

/-- LOCK_LEASE_END (R462). -/
def execLockLeaseEnd (dt : Nat) (lock : Fin 8) (s : State) : Result := .next (doLockLeaseEnd dt lock.val s)

/-- Every lock of client c is freed (R462). -/
def State.freeLocks (s : State) (c : Nat) : State :=
  { s with locks := s.locks.map fun l => if l.holder == some c then Lock.free else l }

/-! ### WHERE (R453, R456, R460) -/

/-- Oldest reader milepost of reader r among held packets of one kind, NEWEST + 1 where there is none (R460). -/
def Causeway.oldest (cw : Causeway) (r : Nat) (sel : Packet → Bool) : Word :=
  match (cw.closed.filter fun (p : Packet) => p.isHeld && sel p).findSome? fun p => p.mpOf r with
  | some m => m
  | none => (nth cw.readers r).count + 1

/-- Payload of the WHERE reply (R460). -/
def State.whereWords (s : State) (c cleared : Nat) (locks : Nat) : List Word :=
  let rd := nth s.cw.readers c
  let cl := nth s.clients c
  let g := if s.roleOf c == some 0 then s.cw.gmp else 0
  [rd.delivered, rd.acked, rd.count, s.cw.oldest c (·.inCw), s.cw.oldest c (·.page.isSome),
   word (at_ (match cl.nextIn with
     | some n => n.toNat
     | none => 0) 16 + (cl.nextOut + 1).toNat),
   word (at_ (s.cw.backlog c) 8 + s.cw.band c), word (at_ (min (max rd.peak (s.cw.backlog c)) 0xFFFFFF) 8),
   s.power.session.getD 0, word (at_ (satN 16 cleared) 16 + cl.dropped), word locks, word g, word (g / 2 ^ 32)]

/-- Messages that a client's outbound side holds. -/
def Client.waiting (cl : Client) : Nat :=
  b2n cl.outSlot.isSome + ((cl.outQ ++ cl.guestQ).map (·.msgs.length)).sum

/-- The restore that client c stages is discarded before it is verified (R157). -/
def State.dropStaging (s : State) (c : Nat) : State :=
  match s.mot.restore with
  | some r => if r.client = c ∧ !r.verified then { s with mot := { s.mot with restore := none } } else s
  | none => s

/-- The client number of work whose reply will not be sent: no client has it. -/
def noClient : Nat := 6

/-- The work in progress of client c goes on without a reply (R453). -/
def State.orphan (s : State) (c : Nat) : State :=
  { s with
    cw := s.cw.onReader c fun rd => { rd with pend := rd.pend.map fun q => { q with client := noClient } }
    mot := { s.mot with restore := s.mot.restore.map fun r => if r.client = c ∧ r.verified then { r with client := noClient } else r }
    time := { s.time with pps := { s.time.pps with
      pendLabels := s.time.pps.pendLabels.map fun x => if x.2.2.1 = c then (x.1, x.2.1, noClient, x.2.2.2) else x } }
    port := { s.port with load := s.port.load.map fun l => { l with reply := l.reply.filter (·.1 != c) } } }

/-- WHERE on its client: what waits is cleared, earlier replies will not be sent, and the reply shows one instant (R453,
R456, R460). -/
def State.whereRun (s : State) (c : Nat) (cmp : BitVec 16) : State :=
  let cleared := (nth s.clients c).waiting
  let rel := maskOf 8 fun k => s.lockHolder k == some c
  let s := ((s.freeLocks c).dropStaging c).orphan c
  let s := s.onClient c fun cl =>
    { cl with outSlot := none, outQ := [], guestQ := [],
              reps := cl.reps.dropWhile fun r => !(r.cmp == cmp && r.typ == 0x01 && r.body.isNone) }
  let s := { s with
    mot := { s.mot with calSnaps := s.mot.calSnaps.filter fun x => x.1 != c }
    age := { s.age with snaps := s.age.snaps.filter fun x => x.1 != c } }
  let s := s.resolveResult c cmp 0x01 0x00 (s.whereWords c cleared rel)
  { s with cw := s.cw.onReader c fun rd => { rd with peak := s.cw.backlog c } }.onClient c fun cl => { cl with dropped := 0 }

/-- WHERE on the oldest message of a client's work (R456). -/
def doWhere (c : Nat) (s : State) : State := s.handle c 0x01 fun _ cmp s => s.whereRun c cmp

/-- WHERE (R456). -/
def execWhere (c : Fin 6) (s : State) : Result := .next (doWhere c.val s)

/-! ### ACK, REWIND, FLUSH (R461) -/

/-- ACK M on reader c: RESULT and the hub after it (R461). -/
def State.ackRun (s : State) (c : Nat) (m : Word) : Nat × State :=
  let rd := nth s.cw.readers c
  if !later32 m rd.acked then (2, s)
  else if later32 m rd.delivered then (1, s)
  else
    (0, { s with
      cw := s.cw.onReader c fun rd => { rd with acked := m }
      up := { s.up with clients := s.up.clients.modify c fun u => { u with flight := u.flight.filter fun x => later32 x.1 m } } })

/-- ACK (R461). -/
def doAck (c : Nat) (s : State) : State :=
  s.handle c 0x02 fun m cmp s =>
    let (r, s) := s.ackRun c (nth m 2)
    s.resolveResult c cmp 0x02 r []

/-- ACK (R461). -/
def execAck (c : Fin 6) (s : State) : Result := .next (doAck c.val s)

/-- A request becomes the pending one of reader c; the one it replaces is answered with 0x02 (R323, R461). -/
def State.pendOn (s : State) (c : Nat) (q : PendReq) : State :=
  let old := (nth s.cw.readers c).pend
  let s := { s with cw := s.cw.onReader c fun rd => { rd with pend := some q } }
  match old with
  | some o => s.resolveResult o.client o.cmp (if o.rewindTo.isSome then 0x03 else 0x04) 0x02 []
  | none => s

/-- REWIND M: refused where M is later than one past the last milepost delivered, otherwise pending (R320, R461). -/
def doRewind (c : Nat) (s : State) : State :=
  s.handle c 0x03 fun m cmp s =>
    if later32 (nth m 2) ((nth s.cw.readers c).delivered + 1) then s.resolveResult c cmp 0x03 0x01 []
    else s.pendOn c { rewindTo := some (nth m 2), client := c, cmp := cmp }

/-- REWIND (R461). -/
def execRewind (c : Fin 6) (s : State) : Result := .next (doRewind c.val s)

/-- FLUSH: pending until it takes effect (R461). -/
def doFlush (c : Nat) (s : State) : State :=
  s.handle c 0x04 fun _ cmp s => s.pendOn c { rewindTo := none, client := c, cmp := cmp }

/-- FLUSH (R461). -/
def execFlush (c : Fin 6) (s : State) : Result := .next (doFlush c.val s)

/-! ### VOTE -/

/-- VOTE (R457, R506). -/
def doVote (c : Nat) (s : State) : State :=
  s.handle c 0x05 fun m cmp s =>
    let v := fld (nth m 2) 1 0
    (s.onClient c fun cl => { cl with vote := v }).resolveResult c cmp 0x05 0x00 [word v]

/-- VOTE (R457). -/
def execVote (c : Fin 6) (s : State) : Result := .next (doVote c.val s)

/-! ### Calibration and margin records (R156–R158, R459, R532) -/

/-- What waits of an earlier fragment sequence of client c goes: its snapshot, taken or not, and its fragments (R156, R532). -/
def State.dropSequence (s : State) (c typ : Nat) (snaps : List (Nat × BitVec 16)) : State :=
  let s := match snaps.find? (·.1 == c) with
    | some (_, cmp) => s.dropRep c cmp typ
    | none => s
  let keep (o : Out) : Bool := match o.msgs with
    | m :: _ => msgType m != typ + 0x80 || fld (nth m 2) 7 0 != 0
    | [] => false
  let unbuilt (r : Rep) : Bool := r.typ != typ || match r.body with
    | some (_, bodies) => bodies.length ≤ 1
    | none => true
  s.onClient c fun cl => { cl with outQ := cl.outQ.filter keep, guestQ := cl.guestQ.filter keep, reps := cl.reps.filter unbuilt }

/-- CAL-READ: the snapshot is taken at the next grid mark (R156). -/
def doCalRead (c : Nat) (s : State) : State :=
  s.handle c 0x08 fun _ cmp s =>
    let s := s.dropSequence c 0x08 s.mot.calSnaps
    { s with mot := { s.mot with calSnaps := s.mot.calSnaps.filter (fun x => x.1 != c) ++ [(c, cmp)] } }

/-- CAL_READ (R156). -/
def execCalRead (c : Fin 6) (s : State) : Result := .next (doCalRead c.val s)

/-- MARGIN-READ: the snapshot is taken at the next grid mark (R532). -/
def doMarginRead (c : Nat) (s : State) : State :=
  s.handle c 0x0B fun _ cmp s =>
    let s := s.dropSequence c 0x0B s.age.snaps
    { s with age := { s.age with snaps := s.age.snaps.filter (fun x => x.1 != c) ++ [(c, cmp)] } }

/-- MARGIN_READ (R532). -/
def execMarginRead (c : Fin 6) (s : State) : Result := .next (doMarginRead c.val s)

/-- A restore ends without effect, and the message gets this RESULT (R157). -/
def State.restoreFails (s : State) (c : Nat) (cmp : BitVec 16) (result : Nat) (keep : Bool) : State :=
  { s with mot := { s.mot with restore := if keep then s.mot.restore else none } }.resolveResult c cmp 0x09 result [0]

/-- A fragment added to a staged restore; after the last one the record is verified (R157). -/
def State.stageFragment (s : State) (r : Restore) (frag : Nat) : State :=
  if frag < 39 then { s with mot := { s.mot with restore := some r } }.dropRep r.client r.cmp 0x09
  else if calVerify r.words = 0 then { s with mot := { s.mot with restore := some { r with verified := true } } }
  else s.restoreFails r.client r.cmp (calVerify r.words) false

/-- CAL-RESTORE: a fragment is staged in order, or refused (R157). -/
def doCalRestore (c : Nat) (s : State) : State :=
  let acc := match (nth s.clients c).work with
    | (_, a) :: _ => a
    | [] => 0
  s.handle c 0x09 fun m cmp s =>
    let frag := fld (nth m 2) 7 0
    let ws := (m.take (m.length - 5)).drop 3
    let fresh : Restore :=
      { client := c, words := [], frags := 0, last := s.now, verified := false, ready := [], commit := none, cmp := cmp, acc := acc }
    match s.mot.restore with
    | none =>
      if frag = 0 then s.stageFragment { fresh with words := ws, frags := 1 } 0 else s.restoreFails c cmp 0x01 false
    | some r =>
      if r.client ≠ c ∨ r.verified then s.restoreFails c cmp 0x06 true
      else if frag = r.frags then s.stageFragment { fresh with words := r.words ++ ws, frags := frag + 1 } frag
      else s.restoreFails c cmp 0x01 false

/-- CAL_RESTORE (R157). -/
def execCalRestore (c : Fin 6) (s : State) : Result := .next (doCalRestore c.val s)

/-- CAL_RESTORE_TIMEOUT: 10 s without a fragment discard the staged ones (R157). -/
def doCalRestoreTimeout (dt : Nat) (s : State) : State :=
  let s := s.advance dt
  match s.mot.restore with
  | some r =>
    if !r.verified && decide (r.last + secPs 10 ≤ s.now) then
      ({ s with mot := { s.mot with restore := none } }.reply r.client r.cmp 0x09 r.acc 0x01 [0]).pump
    else s
  | none => s

/-- CAL_RESTORE_TIMEOUT (R157). -/
def execCalRestoreTimeout (dt : Nat) (s : State) : Result := .next (doCalRestoreTimeout dt s)

/-! ### IDENTITY (R3) -/

/-- The device identity record (R3). -/
def identityRecord : List Word :=
  let ser := Config.serial.toNat
  let key (k : BitVec 256) : List Word := (List.range 8).map fun i => word (k.toNat / 2 ^ (32 * i))
  [0x81924301, word ser, word (ser / 2 ^ 32), 0x01030000] ++ key Config.pubX ++ key Config.pubY

/-- IDENTITY: answered to any client in any role (R3, R524). -/
def doIdentity (c : Nat) (s : State) : State :=
  s.handle c 0x0A fun _ cmp s => s.resolveResult c cmp 0x0A 0x00 identityRecord

/-- IDENTITY (R3). -/
def execIdentity (c : Fin 6) (s : State) : Result := .next (doIdentity c.val s)

/-! ### RELOAD-IMAGE (R98) -/

/-- Why a RELOAD-IMAGE is refused without loading (R98). Where several rows of the table hold at once, the mode comes before
IMGREL_N and IMGREL_N before a load in progress (DESIGN CHOICE, assumption-log row 74: the table gives no order). -/
def State.reloadRefusal (s : State) : Option Nat :=
  if !s.full then some 0x17 else if !s.port.rel then some 0x16 else if s.port.load.isSome then some 0x15 else none

/-- RELOAD-IMAGE: a load starts, or the request is refused with its record (R98, R99). -/
def doReloadImage (c : Nat) (s : State) : State :=
  s.handle c 0x0C fun _ cmp s =>
    match s.reloadRefusal with
    | some r => (s.loadRecord r 0xFF 2 0 none 0).resolveResult c cmp 0x0C r [s.imageId]
    | none => { s with port := { s.port with load := some (newLoad 2 (some (c, cmp))) } }

/-- RELOAD_IMAGE (R98). -/
def execReloadImage (c : Fin 6) (s : State) : Result := .next (doReloadImage c.val s)

/-! ### SERVICE-WINDOW (R480) -/

/-- SERVICE-WINDOW with this DURATION: RESULT and the end of the window (R65, R457, R480). -/
def State.windowRun (s : State) (d : Nat) : Nat × Option Nat :=
  if d = 0 then (1, none)
  else if s.strap 13 ≠ 6 then (2, s.power.service)
  else (0, some (s.tbL + d * 10 ^ 9))

/-- SERVICE_WINDOW (R480). -/
def doServiceWindow (c : Nat) (s : State) : State :=
  s.handle c 0x0D fun m cmp s =>
    let (r, e) := s.windowRun (fld (nth m 2) 15 0)
    { s with power := { s.power with service := e } }.resolveResult c cmp 0x0D r []

/-- SERVICE_WINDOW (R480). -/
def execServiceWindow (c : Fin 6) (s : State) : Result := .next (doServiceWindow c.val s)

/-- SERVICE_WINDOW_END: the window's time on TB-L has passed (R480). -/
def doServiceWindowEnd (dt : Nat) (s : State) : State :=
  let s := s.advance dt
  match s.power.service with
  | some e => if e ≤ s.tbL then { s with power := { s.power with service := none } } else s
  | none => s

/-- SERVICE_WINDOW_END (R480). -/
def execServiceWindowEnd (dt : Nat) (s : State) : Result := .next (doServiceWindowEnd dt s)

/-! ### PPS-LABEL (R386) and LAUNCH (R463) -/

/-- PPS-LABEL: refused while PPS is unlocked or for an edge outside the sixteen accepted, otherwise it waits for the first
locked edge (R386). -/
def doPpsLabel (c : Nat) (s : State) : State :=
  s.handle c 0x0E fun m cmp s =>
    let sec := fld (nth m 2) 31 16 * 2 ^ 32 + (nth m 3).toNat
    let edge := BitVec.ofNat 16 (fld (nth m 2) 15 0)
    let d := (edge - s.time.pps.count).toInt
    if s.time.pps.st < 2 then s.resolveResult c cmp 0x0E 0x03 []
    else if d < -7 ∨ 8 < d then s.resolveResult c cmp 0x0E 0x01 []
    else { s with time := { s.time with pps := { s.time.pps with pendLabels := s.time.pps.pendLabels ++ [(sec, edge, c, cmp)] } } }

/-- PPS_LABEL (R386). -/
def execPpsLabel (c : Fin 6) (s : State) : Result := .next (doPpsLabel c.val s)

/-- A single launch of entry e for instant t: RESULT, lateness and the hub after it (R390, R415, R463); the findings are
those of the reads of one that executes at once (R325). -/
def State.launchRequest (s : State) (c e t : Nat) (fs : List LineFinding) : Nat × Nat × State :=
  match s.launchEntry e with
  | none => (3, 0, s)
  | some l =>
    if !l.host ∨ l.client ≠ c then (3, 0, s)
    else
      match s.classify l.tb t with
      | .scheduled u => (0, 0, s.addAct { tb := l.tb, t := u, entry := e, periodic := false, stepped := false, alarm := false })
      | .late ns =>
        if !s.launching l.port then (1, ns, (s.launchFindings e fs).launch e (some ns) false)
        else if 32 ≤ s.time.acts.length then (4, 0, s)
        else
          (1, ns, s.addAct { tb := l.tb, t := s.tbNs l.tb - ns, entry := e, periodic := false, stepped := false, alarm := false })
      | .outOfWindow => (2, 0, s)
      | .noSource => (5, 0, s)
      | .full => (4, 0, s)

/-- LAUNCH (R463). -/
def doLaunch (c : Nat) (fs : List LineFinding) (s : State) : State :=
  s.handle c 0x0F fun m cmp s =>
    let (r, late, s) := s.launchRequest c (fld (nth m 2) 3 0) ((nth m 3).toNat + (nth m 4).toNat * 2 ^ 32) fs
    s.resolveResult c cmp 0x0F r [word (satN 32 late)]

/-- LAUNCH (R463). -/
def execLaunch (c : Reads (Fin 6)) (s : State) : Result := .next (doLaunch c.what.val c.findings s)

end Sys2Proof.Machine
end

