-- ==== Sys2Proof/Machine/Pins.lean ====
section
/-! DEFINITION. The pin engines (19_pin_engines.md): their instructions, phrases, start groups, receive packets, stops and the
synchronous restart. A command of the family runs on the instruction at the engine's PC; where that is another operation, or
the engine does not run, it has no effect (assumption-log row 10). -/

namespace Sys2Proof.Machine

/-! ### Store, entries and pads (R484, R491, R503) -/

/-- Section 0x08 of the image in force. -/
def State.pins (s : State) : Option Pins := s.port.inForce.bind (·.pins)

/-- The entry of engine e. -/
def State.pinEntry (s : State) (e : Nat) : Option PinEng := s.pins.bind fun p => p.engines.find? (·.engine == e)

/-- The store word at an address (R484). -/
def State.storeWord (s : State) (pc : Nat) : Nat :=
  match s.pins with
  | some p => (nth p.store pc).toNat
  | none => 0

/-- One engine changed. -/
def State.onPin (s : State) (e : Nat) (f : PinSt → PinSt) : State := { s with pin := { s.pin with eng := s.pin.eng.modify e f } }

/-- Level read at a pad: the driven one of an output, the outside one of an input (R486). -/
def Pin.pad (p : Pin) (n : Nat) : Bool := if p.dir.getLsbD n then p.level.getLsbD n else p.input.getLsbD n

/-- The 16 pads from a base upward, modulo 16 (R488). -/
def Pin.padsFrom (p : Pin) (base : Nat) : Nat := maskOf 16 fun i => p.pad ((base + i) % 16)

/-- Count bits of v placed at pads from a base; the other pads keep theirs (R491). -/
def putPads (old : BitVec 16) (base count v : Nat) : BitVec 16 :=
  BitVec.ofNat 16 (maskOf 16 fun n => if base ≤ n ∧ n < base + count then bitOf v (n - base) else old.getLsbD n)

/-- Operation and operand fields of a store word (R488). -/
def opOf (w : Nat) : Nat := w / 4096 % 16
/-- Field [hi:lo] of a store word. -/
def sfld (w hi lo : Nat) : Nat := w / 2 ^ lo % 2 ^ (hi - lo + 1)

/-- PC after an instruction that does not transfer control (R487). -/
def nextPc (e : PinEng) (pc : Nat) : Nat := if pc = e.wrapTop then e.wrapBottom else (pc + 1) % 64

/-- The engine runs and the instruction at its PC has this operation: its entry, its registers and the store word. -/
def State.fetchPin (s : State) (e op : Nat) : Option (PinEng × PinSt × Nat) :=
  match s.pinEntry e, s.pin.eng[e]? with
  | some en, some st =>
    let w := s.storeWord st.pc
    if st.run == .running && opOf w == op then some (en, st, w) else none
  | _, _ => none

/-- An instruction ends without a transfer of control: any stall is over (R486, R487). -/
def State.stepPin (s : State) (e : Nat) (en : PinEng) : State :=
  s.onPin e fun st => { st with pc := nextPc en st.pc, stall := 0 }

/-! ### Receive packets (R496, R497) -/

/-- The open receive packet of engine e closes (R497): unwritten where it holds neither a word nor a stamp. -/
def State.closeRx (s : State) (e cause : Nat) : State :=
  match s.pinEntry e, s.pin.eng[e]? with
  | some en, some st =>
    match st.rx with
    | none => s
    | some r =>
      let s := s.onPin e fun st => { st with rx := none }
      if r.data.isEmpty && r.stamp == 0xFFFFFFFF then s
      else
        let seq := (st.seq + 1) % 65536
        let s := s.onPin e fun st => { st with seq := seq }
        s.writePacket (wholePacket 13 (pinTag e en.view) r.mark
          ([word (at_ e 28 + at_ cause 24 + at_ r.phrase 16 + r.data.length), r.stamp, word (at_ seq 16), 0] ++ r.data))
  | _, _ => s

/-- The phrase an engine runs, or 0xFF (R496). -/
def PinSt.phraseNo (st : PinSt) : Nat :=
  match st.phrase with
  | some (p, _) => p
  | none => 0xFF

/-- What RXH holds goes into the receive packet (R496, R497). -/
def State.drainRx (s : State) (e : Nat) : State :=
  match s.pinEntry e, s.pin.eng[e]? with
  | some en, some st =>
    match st.rxh with
    | none => s
    | some (w, true) =>
      let s := s.closeRx e 2
      s.onPin e fun st => { st with rxh := none, rx := some { mark := s.mark, phrase := st.phraseNo, stamp := w, data := [],
                                                              lastMark := s.time.issued } }
    | some (w, false) =>
      let s := s.onPin e fun st =>
        let r := match st.rx with
          | some r => r
          | none => { mark := s.mark, phrase := st.phraseNo, stamp := 0xFFFFFFFF, data := [], lastMark := s.time.issued }
        { st with rxh := none, rx := some { r with data := r.data ++ [w], lastMark := s.time.issued } }
      match s.pin.eng[e]?.bind (·.rx) with
      | some r => if en.rxMax ≤ r.data.length then s.closeRx e 1 else s
      | none => s
  | _, _ => s

/-! ### Instructions (R488, R489) -/

/-- SET: pads, directions or a counter. -/
def doPinSet (e : Nat) (s : State) : State :=
  match s.fetchPin e 1 with
  | none => s
  | some (en, _, w) =>
    let v := sfld w 8 3
    let s := match sfld w 11 9 with
      | 0 => { s with pin := { s.pin with level := putPads s.pin.level en.setBase en.setCount v } }
      | 1 => { s with pin := { s.pin with dir := putPads s.pin.dir en.setBase en.setCount v } }
      | 2 => s.onPin e fun st => { st with c0 := word v }
      | 3 => s.onPin e fun st => { st with c1 := word v }
      | _ => s
    s.stepPin e en

def execPinSet (e : Fin 8) (s : State) : Result := .next (doPinSet e.val s)

/-- N bits shifted out of OSR (R488): the bits as a number, the bits with the first one lowest, and OSR afterwards. -/
def shiftOut (right : Bool) (osr : Word) (n : Nat) : Nat × Nat × Word :=
  if right then
    let v := osr.toNat % 2 ^ n
    (v, v, osr >>> n)
  else
    let v := osr.toNat / 2 ^ (32 - n)
    (v, maskOf n fun i => bitOf v (n - 1 - i), osr <<< n)

/-- OUT: N bits of OSR to pads, directions, a counter or nowhere. -/
def doPinOut (e : Nat) (s : State) : State :=
  match s.fetchPin e 2 with
  | none => s
  | some (en, st, w) =>
    let n := sfld w 8 3
    let (v, pads, osr) := shiftOut en.outRight st.osr n
    let s := match sfld w 11 9 with
      | 0 => { s with pin := { s.pin with level := putPads s.pin.level en.outBase (min n en.outCount) pads } }
      | 1 => { s with pin := { s.pin with dir := putPads s.pin.dir en.outBase (min n en.outCount) pads } }
      | 2 => s.onPin e fun st => { st with c0 := word v }
      | 3 => s.onPin e fun st => { st with c1 := word v }
      | _ => s
    (s.onPin e fun st => { st with osr := osr, osrN := st.osrN - n }).stepPin e en

def execPinOut (e : Fin 8) (s : State) : Result := .next (doPinOut e.val s)

/-- N bits shifted into ISR (R488, R503 IN_RIGHT). -/
def shiftIn (right : Bool) (isr : Word) (n v : Nat) : Word :=
  if right then (isr >>> n) ||| word (v % 2 ^ n * 2 ^ (32 - n)) else (isr <<< n) ||| word (v % 2 ^ n)

/-- 32 bits of pads from a base upward, the pad number modulo 16 (R488): beyond 16 the pads come again (assumption-log
row 86). -/
def Pin.padBits (p : Pin) (base : Nat) : Nat := p.padsFrom base * (2 ^ 16 + 1)

/-- IN: the low N bits of a source into ISR. -/
def doPinIn (e : Nat) (s : State) : State :=
  match s.fetchPin e 3 with
  | none => s
  | some (en, st, w) =>
    let n := sfld w 8 3
    let v := match sfld w 11 9 with
      | 0 => s.pin.padBits en.inBase
      | 1 => st.c0.toNat
      | 2 => st.c1.toNat
      | 4 => 2 ^ 32 - 1
      | _ => 0
    (s.onPin e fun st => { st with isr := shiftIn en.inRight st.isr n v, isrN := min 32 (st.isrN + n) }).stepPin e en

def execPinIn (e : Fin 8) (s : State) : Result := .next (doPinIn e.val s)

/-- Words of phrase p. -/
def State.phraseWords (s : State) (p : Nat) : List Word :=
  match s.pins with
  | some x => match x.phrases.find? (·.1 == p) with
    | some (_, ws) => ws
    | none => []
  | none => []

/-- PULL: OSR from TXH, or a stall; with no word of the phrase left the phrase ends and the receive packet closes (R493). -/
def doPinPull (e : Nat) (s : State) : State :=
  match s.fetchPin e 4 with
  | none => s
  | some (en, st, _) =>
    match st.txh with
    | some w => (s.onPin e fun st => { st with osr := w, osrN := 32, txh := none }).stepPin e en
    | none =>
      let s := s.onPin e fun st => { st with stall := 1 }
      match st.phrase with
      | some (p, i) =>
        if (s.phraseWords p).length ≤ i then (s.closeRx e 3).onPin e fun st => { st with phrase := none } else s
      | none => s

def execPinPull (e : Fin 8) (s : State) : Result := .next (doPinPull e.val s)

/-- PUSH: ISR into RXH, or a stall. -/
def doPinPush (e : Nat) (s : State) : State :=
  match s.fetchPin e 5 with
  | none => s
  | some (en, st, _) =>
    match st.rxh with
    | none => (s.onPin e fun st => { st with rxh := some (st.isr, false), isr := 0, isrN := 0 }).stepPin e en
    | some _ => s.onPin e fun st => { st with stall := 2 }

def execPinPush (e : Fin 8) (s : State) : Result := .next (doPinPush e.val s)

/-- The common instant of a mark has passed (R16). -/
def State.pastCommon (s : State) (mark : Nat) : Bool :=
  decide (mark < s.mark) || (s.mark == mark && decide (markAcc ≤ 4 * s.time.gAcc))

/-- The mark whose common instant comes next. -/
def State.nextCommon (s : State) : Nat := s.mark + 1

/-- WAIT: a pad, a pin flag, or the common instant of the next grid mark. -/
def doPinWait (dt e : Nat) (s : State) : State :=
  let s := s.advance dt
  match s.fetchPin e 6 with
  | none => s
  | some (en, st, w) =>
    let level := bitOf w 9
    let idx := sfld w 8 5
    match sfld w 11 10 with
    | 0 => if s.pin.pad idx == level then s.stepPin e en else s.onPin e fun st => { st with stall := 3 }
    | 1 => if s.pin.flags.getLsbD idx == level then s.stepPin e en else s.onPin e fun st => { st with stall := 3 }
    | _ =>
      match st.gridAt with
      | none => s.onPin e fun st => { st with stall := 3, gridAt := some s.nextCommon }
      | some m => if s.pastCommon m then (s.onPin e fun st => { st with gridAt := none }).stepPin e en else s

def execPinWait (dt : Nat) (e : Fin 8) (s : State) : Result := .next (doPinWait dt e.val s)

/-- Whether a JMP transfers control, and the counters afterwards (R489). -/
def jmpTaken (p : Pin) (en : PinEng) (st : PinSt) (cond : Nat) : Bool × PinSt :=
  match cond with
  | 0 => (true, st)
  | 1 => if st.c0 = 0 then (false, st) else (true, { st with c0 := st.c0 - 1 })
  | 2 => if st.c1 = 0 then (false, st) else (true, { st with c1 := st.c1 - 1 })
  | 3 => (p.pad en.sensePad, st)
  | 4 => (!p.pad en.sensePad, st)
  | 5 => (st.osrN == 0, st)
  | 6 => (st.rxh.isNone, st)
  | _ => (false, st)

/-- JMP. -/
def doPinJmp (e : Nat) (s : State) : State :=
  match s.fetchPin e 7 with
  | none => s
  | some (en, st, w) =>
    let (taken, st') := jmpTaken s.pin en st (sfld w 11 9)
    let s := s.onPin e fun _ => st'
    if taken then s.onPin e fun st => { st with pc := sfld w 8 3 } else s.stepPin e en

def execPinJmp (e : Fin 8) (s : State) : Result := .next (doPinJmp e.val s)

/-- A MOV source (R488). -/
def movSource (p : Pin) (en : PinEng) (st : PinSt) (src : Nat) : Word :=
  match src with
  | 0 => word (p.padsFrom en.inBase)
  | 1 => st.c0
  | 2 => st.c1
  | 3 => st.osr
  | 4 => st.isr
  | _ => 0

/-- A MOV transformation (R488): copy, complement, byte order reversed. -/
def movXform (x : Nat) (w : Word) : Word :=
  match x with
  | 1 => ~~~w
  | 2 => word (leNat (bytesOf w).reverse)
  | _ => w

/-- MOV. -/
def doPinMov (e : Nat) (s : State) : State :=
  match s.fetchPin e 8 with
  | none => s
  | some (en, st, w) =>
    let v := movXform (sfld w 5 4) (movSource s.pin en st (sfld w 8 6))
    let s := match sfld w 11 9 with
      | 0 => { s with pin := { s.pin with level := putPads s.pin.level en.outBase en.outCount v.toNat } }
      | 1 => s.onPin e fun st => { st with c0 := v }
      | 2 => s.onPin e fun st => { st with c1 := v }
      | 3 => s.onPin e fun st => { st with osr := v, osrN := 32 }
      | 4 => s.onPin e fun st => { st with isr := v, isrN := 0 }
      | _ => s
    s.stepPin e en

def execPinMov (e : Fin 8) (s : State) : Result := .next (doPinMov e.val s)

/-- The pin flags after the changes, ACTION and flag, that engines make at one island clock edge: a set wins over a clear or a
toggle, and a clear over a toggle (R488, R490); toggles of one flag at one edge are one toggle (DESIGN CHOICE, assumption-log
row 86). -/
def flagWord (flags : BitVec 8) (acts : List (Nat × Nat)) : BitVec 8 :=
  BitVec.ofNat 8 (maskOf 8 fun i =>
    if acts.contains (0, i) then true
    else if acts.contains (1, i) then false
    else if acts.contains (2, i) then !flags.getLsbD i
    else flags.getLsbD i)

/-- The pin flags after one more change at island clock edge t (R490). -/
def Pin.flagged (p : Pin) (t : Nat) (act : Nat × Nat) : Pin :=
  let was := if p.flagEdge = some t then p.flagWas else p.flags
  let acts := (if p.flagEdge = some t then p.flagActs else []) ++ [act]
  { p with flags := flagWord was acts, flagEdge := some t, flagWas := was, flagActs := acts }

/-- FLAG: at the island clock edge, of 10 ns (R485), of the instant it executes at. -/
def doPinFlag (dt e : Nat) (s : State) : State :=
  let s := s.advance dt
  match s.fetchPin e 9 with
  | none => s
  | some (en, _, w) => { s with pin := s.pin.flagged (s.now / 10000) (sfld w 11 10, sfld w 9 7) }.stepPin e en

def execPinFlag (e : After (Fin 8)) (s : State) : Result := .next (doPinFlag e.dt e.what.val s)

/-- The stamp of TB-G: the time after the mark is at most that of the next one (R494). -/
def State.stamp (s : State) : Word := word (at_ (s.mark % 4096) 20 + min 976562 (s.time.gAcc / nsAcc))

/-- STAMP: the stamp of the instruction's first clock edge into RXH, or a stall (R494). -/
def doPinStamp (dt e : Nat) (s : State) : State :=
  let s := s.advance dt
  match s.fetchPin e 10 with
  | none => s
  | some (en, st, _) =>
    match st.rxh with
    | none => (s.onPin e fun x => { x with rxh := some (st.stampAt.getD s.stamp, true), stampAt := none }).stepPin e en
    | some _ => s.onPin e fun x => { x with stall := 4, stampAt := some (st.stampAt.getD s.stamp) }

def execPinStamp (dt : Nat) (e : Fin 8) (s : State) : Result := .next (doPinStamp dt e.val s)

/-! ### Halts and stops (R488, R499–R502) -/

/-- Phrase words not pulled, a full TXH among them (R502 UNSENT). -/
def State.unsent (s : State) (st : PinSt) : Nat :=
  (match st.phrase with
    | some (p, i) => (s.phraseWords p).length - i
    | none => 0) + b2n st.txh.isSome

/-- The ENGINE-ABORT record (R502). -/
def State.abortRec (s : State) (e cause : Nat) (st : PinSt) : Packet :=
  recPacket 0x17 0xFF s.mark
    [word (at_ cause 24 + at_ e 21 + at_ st.pc 15 + at_ st.stall 12), st.osr, word (at_ st.osrN 26 + at_ st.isrN 20), st.isr,
     word (at_ st.phraseNo 24 + s.unsent st), 0, 0, 0]

/-- An operation that R488 reserves. -/
def opReserved (op : Nat) : Bool := op == 0 || decide (11 ≤ op)

/-- RESERVED_OP_HALT (R488): the engine halts there with its pads held, abandons its phrase, and ENGINE-ABORT says cause 3. -/
def doReservedOpHalt (e : Nat) (s : State) : State :=
  match s.pin.eng[e]? with
  | some st =>
    if st.run == .running && (s.pinEntry e).isSome && opReserved (opOf (s.storeWord st.pc)) then
      let r := s.abortRec e 3 st
      (s.onPin e fun st => { st with run := .halted, phrase := none, txh := none, stall := 0 }).writePacket r
    else s
  | none => s

def execReservedOpHalt (e : Fin 8) (s : State) : Result := .next (doReservedOpHalt e.val s)

/-- One started engine stops (R499): RXH drains, its packet closes, OSR, ISR and TXH are discarded, and a running one gives an
ENGINE-ABORT record. -/
def State.stopPin (s : State) (e cause : Nat) : State :=
  match s.pin.eng[e]? with
  | none => s
  | some st =>
    match st.run with
    | .absent => s
    | .stopped => s
    | .parked => s.onPin e fun st => { st with run := .stopped }
    | _ =>
      let r := s.abortRec e cause st
      let s := (s.drainRx e).closeRx e 5
      let s := s.onPin e fun st =>
        { st with run := .stopped, osr := 0, osrN := 0, isr := 0, isrN := 0, txh := none, phrase := none, stall := 0,
                  gridAt := none, stampAt := none }
      if st.run == .running then s.writePacket r else s

/-- Every engine stops (R499, R500). -/
def State.stopPins (s : State) (cause : Nat) : State := (List.range 8).foldl (fun s e => s.stopPin e cause) s

/-- The initial pin state of the image in force on every pad (R498, R500). -/
def State.initialPads (s : State) : State :=
  match s.pins with
  | none => s
  | some p => { s with pin := { s.pin with level := p.pinLevel, dir := p.pinDir, pullEn := p.pullEn, pullUp := p.pullUp } }

/-- The PIN island goes off: every engine stops, the pads take the initial pin state, and no restart is due until the island runs
again (R500). -/
def State.parkPins (s : State) : State :=
  let s := (s.stopPins 2).initialPads
  { s with pin := { s.pin with restartAt := none } }

/-- The synchronous restart (R498, R495). -/
def State.restartPins (s : State) : State :=
  let s := s.initialPads
  let eng := (List.range 8).map fun e =>
    let old := nth s.pin.eng e
    match s.pinEntry e with
    | none => { PinSt.init with seq := old.seq }
    | some en => { PinSt.init with run := if en.group = 0 then .running else .parked, pc := en.start, seq := old.seq }
  { s with pin := { s.pin with eng := eng, flags := 0, flagEdge := none, restartAt := none } }

/-- The synchronous restart at its mark, where the PIN island runs (R498, R499, R500). -/
def State.pinsAtMark (s : State) : State :=
  match s.pin.restartAt with
  | some m => if markLe m s.mark ∧ s.full ∧ nth s.power.islands 9 = .running then s.restartPins else s
  | none => s

/-- The parked engines of a start group begin (R495). -/
def State.startGroup (s : State) (g : Nat) : State :=
  { s with pin := { s.pin with eng := s.pin.eng.mapIdx fun i x =>
      if x.run == .parked && (s.pinEntry i).any (·.group == g) then { x with run := .running } else x } }

/-- A phrase started on an engine (R493, R495); none where it runs one or is stopped. -/
def State.startPhrase (s : State) (e p : Nat) : Option State :=
  match s.pinEntry e, s.pin.eng[e]? with
  | some en, some st =>
    if st.phrase.isSome || st.run == .stopped || st.run == .absent then none
    else
      some ((s.onPin e fun st => { st with phrase := some (p, 1), txh := (s.phraseWords p).head? }).startGroup en.group)
  | _, _ => none

/-! ### The dispatcher (R484, R493, R497) -/

/-- TXH_FILL (R493): the next word of the phrase enters an empty TXH. -/
def doTxhFill (e : Nat) (s : State) : State :=
  match s.pin.eng[e]? with
  | some st =>
    match st.txh, st.phrase with
    | none, some (p, i) =>
      match (s.phraseWords p)[i]? with
      | some w => s.onPin e fun st => { st with txh := some w, phrase := some (p, i + 1) }
      | none => s
    | _, _ => s
  | none => s

def execTxhFill (e : Fin 8) (s : State) : Result := .next (doTxhFill e.val s)

/-- RXH_DRAIN (R496, R497). -/
def doRxhDrain (e : Nat) (s : State) : State := s.drainRx e

def execRxhDrain (e : Fin 8) (s : State) : Result := .next (doRxhDrain e.val s)

/-- RX_IDLE_CLOSE (R497): a packet without a new entry for RX_IDLE marks issued closes; never where RX_IDLE is 0. Marks that a
step of TB-G skips are not issued (R375). -/
def doRxIdleClose (e : Nat) (s : State) : State :=
  match s.pinEntry e, s.pin.eng[e]?.bind (·.rx) with
  | some en, some r => if en.rxIdle ≠ 0 ∧ r.lastMark + en.rxIdle ≤ s.time.issued then s.closeRx e 4 else s
  | _, _ => s

def execRxIdleClose (e : Fin 8) (s : State) : Result := .next (doRxIdleClose e.val s)

/-- An engine that waits for a pad at a level (R488). -/
def State.waitsPad (s : State) (e pad : Nat) (high : Bool) : Option PinEng :=
  match s.fetchPin e 6 with
  | some (en, st, w) =>
    if st.stall == 3 && sfld w 11 10 == 0 && sfld w 8 5 == pad && bitOf w 9 == high then some en else none
  | none => none

/-- The level outside a pad. -/
def State.outside (s : State) (pad : Nat) (high : Bool) : State :=
  { s with pin := { s.pin with input := putPads s.pin.input pad 1 (b2n high) } }

/-- PAD_LEVEL_CHANGE: the level outside changes, and every WAIT on it ends that now finds its level (R488). -/
def doPadLevelChange (pad : Nat) (high : Bool) (s : State) : State :=
  let s := s.outside pad high
  if s.pin.pad pad == high then
    (List.range 8).foldl (fun s e => match s.waitsPad e pad high with
      | some en => s.stepPin e en
      | none => s) s
  else s

def execPadLevelChange (pad : Fin 16) (high : Bool) (s : State) : Result := .next (doPadLevelChange pad.val high s)

end Sys2Proof.Machine
end

