-- ==== Sys2Proof/Machine/Way.lean ====
section
/-! DEFINITION. The waymark engines (07_waymarks.md): conditions, actions, the mark pass and the event pass, held regions and
restarts. -/

namespace Sys2Proof.Machine

/-! ### Conditions (R193–R196) -/

/-- Section 0x07 of the image in force. -/
def State.wm (s : State) : Option Waymarks := s.port.inForce.bind (·.wm)

/-- Postures, plans and modes as bit numbers (R194). -/
def State.posture (s : State) : Nat := s.strap 14

/-- The plan in force as a number (R64). -/
def State.planNo (s : State) : Nat := s.way.plan.getD 0

/-- The value of a PRODUCT condition (R195): none where the condition is false, as it is for a kind that stops in the mode in
force (R186, R200). Header word 2 has no value before delivery (R305). -/
def State.productValue (s : State) (kind wordNo : Nat) (validOnly : Bool) : Option Word :=
  match nth s.way.lastProd (kind - 1) with
  | none => none
  | some ws =>
    let v := if s.inMode .footpath && (kind == 2 || kind == 3) then none
      else if kind ≤ 2 then (if wordNo ≤ 2 ∧ 8 ≤ ws.length then ws[ws.length - 3 + wordNo]? else none)
      else if wordNo = 2 then none else ws[wordNo]?
    match v with
    | none => none
    | some w => if f32IsNan w || (validOnly && fld (nth ws 4) 31 30 == 2) then none else some w

/-- OP of a PRODUCT condition (R194). -/
def productOp (op : Nat) (v thr : Word) : Bool :=
  match op with
  | 0 => f32Le thr v
  | 1 => f32Lt v thr
  | 2 => f32Le thr (f32Abs v)
  | 3 => f32Lt (f32Abs v) thr
  | _ => false

/-- A recogniser whose input stops in the mode in force, so that a condition on it is false (R186, R200): SLAM, CREST and TILT in
Footpath. -/
def State.recStops (s : State) (r : Nat) : Bool := s.inMode .footpath && (r == 0 || r == 1 || r == 4)

/-- Recogniser r is active as it stands after the event of the pass, which later events may have followed (R194). -/
def State.recActive (s : State) (ev : Option (List Word)) (r : Nat) : Bool :=
  !s.recStops r && (match ev with
    | some w => bitOf (nth w 4).toNat r
    | none => (nth s.way.recs r).active)

/-- A condition in a pass of engine e (R194): ev is the event of an event pass. -/
def State.cond (s : State) (ev : Option (List Word)) (e : Nat) (c : Word × Word) : Bool :=
  let w := c.1
  let n := c.2.toNat
  match fld w 31 28 with
  | 0 => true
  | 1 => match ev with
    | some x => fld (nth x 0) 31 28 == fld w 27 24 && !s.recStops (fld w 27 24) && decide (1 ≤ fld (nth x 0) 27 24) &&
        bitOf (fld w 23 20) (fld (nth x 0) 27 24 - 1)
    | none => false
  | 2 => match s.productValue (fld w 23 16) (fld w 12 0) (bitOf w.toNat 13) with
    | some v => productOp (fld w 27 24) v c.2
    | none => false
  | 3 => decide (n ≤ s.time.issued - (nth s.way.eng e).timer)
  | 4 => ev.isNone && s.mark % 2 ^ 48 % n == fld w 23 0
  | 5 => s.way.flags.getLsbD (fld w 4 0)
  | 6 => match s.power.mode with
    | some m => bitOf (fld w 2 0) (modeField m)
    | none => false
  | 7 => (fld w 7 0) &&& s.faultBits != 0
  | 8 => bitOf (fld w 15 0) s.posture
  | 9 => match s.way.plan with
    | some p => bitOf (fld w 7 0) p
    | none => false
  | 10 => s.recActive ev (fld w 27 24)
  | _ => false

/-- The logic code of a slot (R193). -/
def State.slotHolds (s : State) (w : Waymarks) (ev : Option (List Word)) (e : Nat) (t : WmTrans) : Bool :=
  let a := s.cond ev e (nth w.conds t.condA)
  let b := s.cond ev e (nth w.conds t.condB)
  t.used && (match t.logic with
    | 0 => a
    | 1 => a && b
    | 2 => a || b
    | _ => a && !b)

/-! ### Records (R206, R207) -/

/-- The WAYMARK-REPORT record (R207). -/
def waymarkRec (reason engine st action : Nat) (d0 d1 : Word) (mark : Nat) : Packet :=
  recPacket 0x13 0xFF mark [word (at_ reason 24 + at_ engine 20 + at_ st 16 + action), d0, d1, 0]

/-- Where an action runs: engine entry, state left, state entered, slot, action index, event of the pass. -/
structure ActCtx where
  eng : WmEngine
  from_ : Nat
  dest : Nat
  slot : Nat
  index : Nat
  ev : Option (List Word)
  deriving DecidableEq, Repr, Inhabited

/-- A WAYMARK-REPORT about an action. -/
def State.wmReport (s : State) (c : ActCtx) (reason : Nat) (d0 d1 : Word) : State :=
  s.writePacket (waymarkRec reason c.eng.engine c.from_ c.index d0 d1 s.mark)

/-- One engine changed. -/
def State.onEng (s : State) (e : Nat) (f : WmSt → WmSt) : State := { s with way := { s.way with eng := s.way.eng.modify e f } }

/-! ### Actions (R197–R199) -/

/-- EMIT (R206): at most once per engine and grid mark. -/
def State.actEmit (s : State) (c : ActCtx) (code : Nat) (data : Word) : State :=
  let e := c.eng.engine
  let st := nth s.way.eng e
  if st.emitMark = some s.mark then s.onEng e fun x => { x with skipped := x.skipped + 1 }
  else
    let seq := (st.seq + 1) % 65536
    let s := s.onEng e fun x => { x with seq := seq, skipped := 0, emitMark := some s.mark }
    let trig := match c.ev with
      | some w => w.take 4
      | none => [0, 0, 0, 0]
    s.writePacket (wholePacket 12 (eventTag (0x20 + e) c.eng.view) s.mark
      ([word (at_ e 28 + at_ c.from_ 24 + at_ c.dest 20 + at_ c.slot 18 + code), data,
        word (at_ seq 16 + satN 16 st.skipped), word (at_ s.modeNow 30 + at_ s.posture 24 + at_ s.planNo 16), s.way.flags,
        word (satN 32 (s.time.issued - st.timer)), 0, 0] ++ trig))

/-- The packet belongs to a view class and its mark lies in a range. -/
def inSpan (view first last : Nat) (p : Packet) : Bool :=
  tagView p.tag == view && markLe first p.mark && markLe p.mark last

/-- The oldest mark of packets (R9). -/
def oldestMark (ps : List Packet) : Option Nat :=
  ps.foldl (fun a p => match a with
    | none => some p.mark
    | some m => some (if markLt p.mark m then p.mark else m)) none

/-- A region whose last mark has not passed is open (R198). -/
def State.openRegions (s : State) : List Region := s.way.regions.filter fun r => markLe s.mark r.last

/-- HOLD (R198): the region opens or extends an open one of its view class, packets in the Causeway are held, and the record
names what is held. -/
def State.actHold (s : State) (c : ActCtx) (view before after : Nat) : State :=
  let first := s.mark - 16 * before
  let last := s.mark + after
  let old := s.openRegions.filter fun r => r.view == view && markLe r.first last && markLe first r.last
  if old.isEmpty && decide (16 ≤ s.openRegions.length) then s.wmReport c 2 0 0
  else
    let first := (old.map (·.first)).foldl (fun a b => if markLt b a then b else a) first
    let last := (old.map (·.last)).foldl (fun a b => if markLt a b then b else a) last
    let left := s.cw.closed.any fun p => inSpan view first last p && !p.inCw && !p.held
    let hold (p : Packet) : Packet := if inSpan view first last p && p.inCw then { p with held := true, klass := 0 } else p
    let holdOpen (p : Packet) : Packet := if inSpan view first last p then { p with held := true, klass := 0 } else p
    let cw := { s.cw with closed := s.cw.closed.map hold, opens := s.cw.opens.map holdOpen }
    let (w, s) := s.takeWord
    let d0 : Word := if left then
        (match oldestMark ((cw.closed ++ cw.opens).filter fun p => inSpan view first last p && p.held) with
          | some m => word m
          | none => w)
      else word first
    let r : Region := { view := view, first := first, last := last }
    let s := { s with cw := cw, way := { s.way with regions := (s.way.regions.filter fun x => !old.contains x) ++ [r] } }
    s.wmReport c 1 d0 (word last)

/-- LAUNCH (R197, R390): one launch on TB-G at the start of grid mark n + 1 + D; beyond the 32nd action it is refused. -/
def State.actLaunch (s : State) (entry d : Nat) : State :=
  if s.time.acts.length < 32 then
    s.addAct { tb := 2, t := (s.mark + 1 + d) * markAcc / nsAcc, entry := entry, periodic := false, stepped := false, alarm := false }
  else s

/-- CALL (R197, R199, R440). -/
def State.actCall (s : State) (c : ActCtx) (code : Nat) : State :=
  if 8 ≤ s.attn.calls.length then s.wmReport c 3 0 0
  else { s with attn := { s.attn with calls := s.attn.calls ++ [{ cause := 2, code := BitVec.ofNat 16 code, engine := c.eng.engine }] } }

/-- FLAG (R192, R197). -/
def State.actFlag (s : State) (action n : Nat) : State :=
  let bit : Word := word (2 ^ n)
  let f := s.way.flags
  { s with way := { s.way with flags := match action with
    | 0 => f ||| bit
    | 1 => f &&& ~~~bit
    | 2 => f ^^^ bit
    | _ => f } }

/-- PHRASE (R197, R493). -/
def State.actPhrase (s : State) (c : ActCtx) (engine phrase : Nat) : State :=
  match s.startPhrase engine phrase with
  | some t => t
  | none => s.wmReport c 4 (word engine) (word phrase)

/-- One action (R197). -/
def State.act (s : State) (c : ActCtx) (a : Word × Word) : State :=
  let w := a.1
  match fld w 31 28 with
  | 0 => s.actEmit c (fld w 15 0) a.2
  | 1 => s.actHold c (fld w 23 16) (fld w 15 0) (fld a.2 23 0)
  | 2 => s.onEng c.eng.engine fun x => { x with vote := fld w 1 0 }
  | 3 => s.actLaunch (fld w 7 0) a.2.toNat
  | 4 => s.trigger (fld w 4 0) 2 c.eng.engine
  | 5 => s.actFlag (fld w 6 5) (fld w 4 0)
  | 6 => s.actCall c (fld w 15 0)
  | 7 => { s with way := { s.way with planSel := some (fld w 2 0) } }
  | 8 => s.actPhrase c (fld w 10 8) (fld w 7 0)
  | _ => s

/-! ### Passes (R188–R191, R200) -/

/-- The first slot that holds (R189). -/
def State.pickSlot (s : State) (w : Waymarks) (ev : Option (List Word)) (en : WmEngine) (st : Nat) : Option (Nat × WmTrans) :=
  ((List.range 4).map fun k => (k, nth w.trans (en.transBase + 4 * st + k))).find? fun p => s.slotHolds w ev en.engine p.2

/-- One engine in a pass (R189): at most one transition, its actions in order, then the next state and its timer (R191). -/
def State.engineStep (s : State) (w : Waymarks) (ev : Option (List Word)) (en : WmEngine) : State :=
  let st := (nth s.way.eng en.engine).st
  match s.pickSlot w ev en st with
  | none => s
  | some (k, t) =>
    let s := (List.range t.actN).foldl (fun s j =>
      s.act { eng := en, from_ := st, dest := t.next, slot := k, index := t.actFirst + j, ev := ev }
        (nth w.acts (t.actFirst + j))) s
    s.onEng en.engine fun x => { x with st := t.next, timer := s.time.issued }

/-- The engine is evaluated in the mode in force (R200). -/
def State.engRuns (s : State) (en : WmEngine) : Bool := s.full || (s.inMode .footpath && en.fp)

/-- One pass over W0–W15 in ascending order (R189). -/
def State.pass (s : State) (ev : Option (List Word)) : State :=
  match s.wm with
  | none => s
  | some w => (w.engines.filter s.engRuns).foldl (fun s en => s.engineStep w ev en) s

/-- EVENT_PASS (R189, R190): the oldest event that waits is offered, at most 32 in a grid mark. -/
def doEventPass (s : State) : State :=
  match s.way.evq with
  | [] => s
  | e :: rest =>
    if s.running && s.awake && decide (s.way.carried < 32) then
      { s with way := { s.way with evq := rest, carried := s.way.carried + 1 } }.pass (some e)
    else s

def execEventPass (s : State) : Result := .next (doEventPass s)

/-- The events that wait are offered after the mark pass, at most 32 (R190). -/
def State.offerWaiting (s : State) : State := (List.range 32).foldl (fun s _ => doEventPass s) s

/-- MARK_PASS (R189, R190): the pass runs, and events that found the queue full are reported. When and how often that is done is not
stated: one record at the next mark pass, with the sum of the events since the last (DESIGN CHOICE, assumption-log row 78). -/
def State.markPass (s : State) : State :=
  let s := { s with way := { s.way with carried := 0 } }
  let s := s.pass none
  if s.way.notOffered = 0 then s
  else { s with way := { s.way with notOffered := 0 } }.writePacket (waymarkRec 5 0 0 0 (word (satN 32 s.way.notOffered)) 0 s.mark)

/-- ENGINE_RESTART (R201, R202): every engine in its INIT state with its INIT_VOTE, flags at FLAGS_INIT, and the record; why is
1 for a commit, 2 for a retention failure. SEQ starts again (R206); SKIPPED goes on counting since the last packet, but for a
retention failure, which loses it. Without section 0x07 the engines stop. -/
def State.restartEngines (s : State) (why : Nat) : State :=
  let skipped (i : Nat) : Nat := if why = 1 then (nth s.way.eng i).skipped else 0
  let init (i : Nat) : WmSt := match s.wm.bind fun w => w.engines.find? (·.engine == i) with
    | some en => { st := en.init, timer := s.time.issued, vote := en.initVote, seq := 0, skipped := skipped i, emitMark := none }
    | none => { st := 0, timer := s.time.issued, vote := 0, seq := 0, skipped := skipped i, emitMark := none }
  let flags : Word := match s.wm with
    | some w => w.flagsInit
    | none => 0
  { s with way := { s.way with eng := (List.range 16).map init, flags := flags } }.writePacket
    (waymarkRec 6 0 0 0 (word why) 0 s.mark)

end Sys2Proof.Machine
end

