-- ==== Sys2Proof/Machine/Commit.lean ====
section
/-! DEFINITION. The commit of an image at its mark (03_route_image.md R89, 01_journey.md R20): what each island takes over
from the old plan, the records of what stops and begins, fuses (R67, R87, R475), the plan (R64, R345) and the clients
(R454). -/

namespace Sys2Proof.Machine

/-! ### What an image samples (R31, R128, R186, R260) -/

/-- Tags of the inertial streams that run (R128). -/
def Image.streamTags (im : Image) (footpath : Bool) : List Word :=
  (im.inertial.streams.zipIdx.filter fun x => !footpath || x.1.fp).map fun x => streamTag x.2 x.1

/-- Tags of the recipes that convert (R260); one converted only on a trigger has its injection packets' tag. -/
def Image.feTags (im : Image) (footpath : Bool) : List Word :=
  match im.fe with
  | none => []
  | some f => (f.pairs.filter fun p => !footpath || p.1.basic).map fun p => recipeTag p.1 p.2.trigOnly

/-- A product kind that a mode runs (R186). -/
def prodRuns (footpath : Bool) (kind : Nat) : Bool := !footpath || kind == 1 || kind == 4

/-- Tags of the recognisers that run (R174, R186). -/
def Image.recTags (im : Image) (footpath : Bool) : List Word :=
  (im.recogs.zipIdx.filter fun x => x.1.en && (!footpath || x.2 == 2 || x.2 == 3 || x.2 == 5)).map fun x =>
    eventTag (0x10 + x.2) x.1.view

/-- SAMPLING records for tags, each with its own mark (R338). -/
def State.samplingAt (s : State) (event cause : Nat) (l : List (Word × Nat)) : State :=
  l.foldl (fun s x => s.writeSampling event cause x.1 x.2) s

/-- SAMPLING records for tags (R338). -/
def State.sampling (s : State) (event cause mark : Nat) (tags : List Word) : State :=
  tags.foldl (fun s t => s.writeSampling event cause t mark) s

/-- The elements of one list that another does not hold. -/
def lacking {α : Type} [BEq α] (a b : List α) : List α := a.filter fun x => !b.contains x

/-! ### Products (R187) -/

/-- Marks between the packet or record starts of a product (R122, R168). -/
def State.prodSpan (s : State) (e : MotionEntry) : Nat :=
  if e.kind = 1 then 64 * e.pktSamples else if e.kind = 2 then 256 * e.pktSamples else s.recMarks

/-- The grid boundary at or before a mark. -/
def gridDown (m span : Nat) : Nat := m / span * span
/-- The grid boundary at or after a mark. -/
def gridUp (m span : Nat) : Nat := ceilDiv m span * span

/-- A product entry taken from the plan at the mark in progress (R187): attitude keeps its values before the mark; of any
other kind the packet or record in progress is discarded, with the record of R31. -/
def State.endProduct (s : State) (im : Image) (e : MotionEntry) : State :=
  let m := s.mark
  let tag := productTag e.kind e.view
  let f := if e.kind = 1 then m else gridDown m (s.prodSpan e)
  let end_ (x : ProdEntry) : ProdEntry := if x.entry == e && x.ends.isNone then { x with ends := some f } else x
  let cut (p : Packet) : Bool := e.kind == 2 && p.tag == tag && decide (f ≤ p.mark)
  let s := { s with
    prod := { s.prod with entries := s.prod.entries.map end_ }
    cw := { s.cw with opens := s.cw.opens.filter fun p => !cut p } }
  if !prodRuns (s.inMode .footpath) e.kind then s
  else if f < m then s.writeSampling 1 4 tag f
  else if im.products.motion.any (·.kind == e.kind) then s
  else s.writeSampling 1 3 tag m

/-- The product entries that an image takes from the plan in force (R187). -/
def State.endProducts (s : State) (old im : Image) : State :=
  (lacking old.products.motion im.products.motion).foldl (fun s e => s.endProduct im e) s

/-- The product entries that an image brings, each from the next boundary of its grid (R187); ended ones that can write
nothing more go. -/
def State.beginProducts (s : State) (had : List MotionEntry) (im : Image) : State :=
  let m := s.mark
  let live (x : ProdEntry) : Bool := match x.ends with
    | some n => decide (m < n + s.recMarks + 262144)
    | none => true
  let new := (lacking im.products.motion had).map fun e => { entry := e, since := gridUp m (s.prodSpan e), ends := none : ProdEntry }
  { s with prod := { s.prod with entries := s.prod.entries.filter live ++ new } }

/-- SAMPLING resumes of the products an image brings (R31, R187, R338). -/
def State.resumeProducts (s : State) (had : List MotionEntry) (im : Image) : State :=
  (lacking im.products.motion had).foldl (fun s e =>
    let since := gridUp s.mark (s.prodSpan e)
    let stopped := !(had.any (·.kind == e.kind)) || (e.kind != 1 && decide (gridDown s.mark (s.prodSpan e) < s.mark))
    if stopped && prodRuns (s.inMode .footpath) e.kind then s.writeSampling 2 3 (productTag e.kind e.view) since else s) s

/-! ### Before the new image is in force -/

/-- What stops at a commit, under the image still in force (in Layby nothing runs, R516): recognisers whose entry changes
(R182), streams, recipes and products (R31, R187, R261), and the pin engines (R499). -/
def State.commitStops (s : State) (old im : Image) : State :=
  if !s.awake then
    { s with prod := { s.prod with entries := s.prod.entries.filter fun x => im.products.motion.contains x.entry } }
  else
  let fp := s.inMode .footpath
  let s := s.forceEnds fun r => old.recogs[r]? != im.recogs[r]?
  let s := s.sampling 1 3 s.mark (lacking (old.streamTags fp) (im.streamTags fp))
  let s := (lacking old.recipes im.recipes).foldl (fun s r =>
    if s.converting r then s else s.closeOpen (recipeTag r false) true) s
  let s := s.sampling 1 3 s.mark (lacking (old.feTags fp) (im.feTags fp))
  let s := s.endProducts old im
  if rawSect old.raw 8 = rawSect im.raw 8 then s else s.stopPins 1

/-! ### Streams, calibration, front end -/

/-- The streams after a commit at a mark (R20, R126): a stream whose entry stays goes on, the others end and begin. -/
def Motion.commitStreams (m : Motion) (im : Image) (mark : Nat) : Motion :=
  let stays (ss : StreamSt) : Bool := ss.ends.isNone && im.inertial.streams[ss.num]? == some ss.entry
  let old := m.streams.map fun ss => if ss.ends.isNone && !stays ss then { ss with ends := some (8 * mark) } else ss
  let new := (im.inertial.streams.zipIdx.filter fun x => !(m.streams.any fun ss => stays ss && ss.num == x.2)).map fun x =>
    { num := x.2, entry := x.1, since := 8 * mark, first := 8 * mark, ends := none, lastGood := [] : StreamSt }
  { m with streams := old ++ new }

/-- A cold heave channel stands at HV_START (R143, R153): from the next record on, or at once where none has begun. -/
def Motion.coldHeave (m : Motion) (start : Nat) (now : Bool) : Motion :=
  if (nth m.cal 6).st = 0 then
    let m := { m with cal := m.cal.modify 6 fun c => { c with terms := (cornerWord start :: c.terms.drop 1).take 9 } }
    if now then { m with corner := start, cornerNext := none, downRun := 0, steady := 0 }
    else if m.corner = start then m else { m with cornerNext := some start }
  else m

/-- The heave corner after a commit, between HV_MIN and HV_MAX from the next record on (R143). -/
def Motion.clampHeave (m : Motion) (b : CalBlock) : Motion :=
  let k := m.cornerNext.getD m.corner
  let c0 := max b.hvMin (min b.hvMax k)
  if c0 = k then m
  else
    { m with
      cal := m.cal.modify 6 fun c => { c with terms := (cornerWord c0 :: c.terms.drop 1).take 9 }
      cornerNext := some c0, downRun := 0, steady := 0 }

/-- Streams, calibration and the front end at a commit (R147, R154, R228, R261), the new image in force already. -/
def State.commitSensors (s : State) (old : Option Image) (im : Image) : State :=
  let was := rfpsOf old
  let is := rfpsOf (some im)
  let oldCal := match old with
    | some o => o.inertial.cal
    | none => im.inertial.cal
  let m := s.mot.commitStreams im s.mark
  let m := { m with cal := m.cal.mapIdx fun i c => calCommit oldCal im.inertial.cal was is s.calEnabled s.mark i c }
  let changed := match old with
    | some o => rawSect o.raw 3 != rawSect im.raw 3
    | none => true
  { s with mot := (m.coldHeave im.inertial.cal.hvStart old.isNone).clampHeave im.inertial.cal, fe := s.fe.commit im changed was is s.mark }

/-! ### Credit accounts (R311) -/

/-- An account after a commit: full where its producer is new, otherwise its balance within the new saturation value.
Producer 11 has no budget (R86, R341) and the account that its largest packet gives it. -/
def Account.commit (a : Account) (credit largest : Nat) : Account :=
  if credit = 0 ∧ largest = 0 then { balance := 0, credit := 0, largest := 0, beyond := a.beyond }
  else
    let b := { a with credit := credit, largest := largest }
    { b with balance := if a.credit = 0 ∧ a.largest = 0 then b.cap else min a.balance b.cap }

/-- The accounts at a commit (R311). -/
def State.commitAccounts (s : State) (im : Image) : State :=
  { s with cw := { s.cw with accounts := s.cw.accounts.mapIdx fun p (a : Account) => a.commit (im.budget p) (s.largest im p) } }

/-! ### Plans and roads (R64, R343, R345) -/

/-- A plan that the image in force defines. -/
def State.planDefined (s : State) (p : Nat) : Bool :=
  match s.port.inForce with
  | some im => im.plans.any (·.plan == p)
  | none => false

/-- The selection of a waymark pass comes into force; one that the image does not define is lost (R64). -/
def State.takePlanSel (s : State) : State :=
  match s.way.planSel with
  | some p => { s with way := { s.way with plan := if s.planDefined p then some p else s.way.plan, planSel := none } }
  | none => s

/-- The plan at a commit: the strap's or plan 0 where none is in force yet, and where the one in force is no longer defined
(R64, R345); the reason of the STRAP-SET record it asks for, 0 for none. -/
def State.commitPlan (s : State) : State × Nat :=
  let s := s.takePlanSel
  let strap := planOfCode (s.strap 12)
  let named := match strap with
    | some p => if s.planDefined p then p else 0
    | none => 0
  match s.way.plan with
  | none =>
    ({ s with way := { s.way with plan := some named } },
     match strap with
     | some p => if s.planDefined p then 0 else 4
     | none => 0)
  | some p => if s.planDefined p then (s, 0) else ({ s with way := { s.way with plan := some named } }, 6)

/-- Roads that the mode or the plan in force no longer runs stop (R343, R514). -/
def State.settleRoads (s : State) (cause : Nat) : State :=
  (List.range 8).foldl (fun s r => if (s.road r).on && !s.roadWanted r then s.stopRoad r cause s.mark else s) s

/-- Jobs and roads as the mode and the plan in force place them (R343, R349). -/
def State.settlePlan (s : State) (cause : Nat) : State := (s.placeJobs.dispatch).settleRoads cause

/-! ### Clients (R410, R453, R454) -/

/-- A client as a commit of its entry leaves it: control mileposts as after RESET_N (R454). -/
def Client.recommit (c : Client) : Client := { c with nextIn := none, nextOut := 1, lastCmp := none, lastReply := none, vote := 0 }

/-- Datagrams of client c that wait: if they come back, SEQ goes on from 0 as after the commit (R410, R417). -/
def UpPort.newSeq (p : UpPort) (c : Nat) : UpPort :=
  { p with queue := p.queue.map fun (e : Egress) =>
      { e with back := e.back.map fun (b : Back) => if b.client = c then { b with seq := 0 } else b } }

/-- A commit changes the entry of Ui: ABORTED with cause 0x02, mileposts, locks, vote and stream delivery afresh (R410, R453,
R454). The reader keeps its cursor. -/
def State.resetUi (s : State) (c : Nat) : State :=
  let s := s.abortAll c 2
  let s := ((s.freeLocks c).dropStaging c).orphan c
  let s := { s with
    cw := s.cw.onReader c fun rd => { rd with pend := none }
    up := { s.up with
      arps := s.up.arps.set c { mac := none, misses := 0, last := 0, asked := false }
      clients := s.up.clients.modify c fun (u : UpClient) => { u with seq := 0, sent := [], flight := [], frag := none }
      ports := s.up.ports.map fun (p : UpPort) => p.newSeq c }
    mot := { s.mot with calSnaps := s.mot.calSnaps.filter fun x => x.1 != c }
    age := { s.age with snaps := s.age.snaps.filter fun x => x.1 != c }
    time := { s.time with pps := { s.time.pps with pendLabels := s.time.pps.pendLabels.filter fun x => x.2.2.1 != noClient } } }
  s.onClient c Client.recommit

/-- The clients whose entries a commit changes. -/
def State.commitClients (s : State) (old im : Image) : State :=
  (List.range 4).foldl (fun s c =>
    if nth old.clients.clients c = nth im.clients.clients c then s else s.resetUi c) s

/-! ### Fuses and keys (R67, R87, R475, R478) -/

/-- The fuses after a commit: the Keeper key hash once, the seal under a seal request at the first commit, the rollback count
in sealed operation. -/
def State.commitFuses (s : State) (im : Image) (first : Bool) : State :=
  let blow := s.sealRequest && first
  let hash := if im.hdr.signed then s.fuses.keyHash.or im.keyHash else s.fuses.keyHash
  let s := { s with fuses := { s.fuses with keyHash := hash, sealBlown := s.fuses.sealBlown || blow } }
  if im.hdr.signed && s.sealedOp && decide (s.fuses.rollback < im.hdr.rollback) then
    { s with fuses := { s.fuses with rollback := im.hdr.rollback } }
  else s

/-! ### The commit -/

/-- WAYMARK and REDUCE at a commit (R195, R201, R350): why an engine restart is 1. -/
def State.commitWay (s : State) (old : Option Image) (im : Image) : State :=
  let same (id : Nat) : Bool := match old with
    | some o => rawSect o.raw id == rawSect im.raw id
    | none => false
  let s := if same 7 then s else s.restartEngines 1
  if same 5 then s
  else { s with way := { s.way with lastProd := List.replicate 4 none }, red := { s.red with next := [] } }

/-- The pin engines restart one mark after a commit that changes section 0x08 (R498, R499). -/
def State.commitPins (s : State) (old : Option Image) (im : Image) : State :=
  let same := match old with
    | some o => rawSect o.raw 8 == rawSect im.raw 8
    | none => false
  if same then s else { s with pin := { s.pin with restartAt := some (s.mark + 1) } }

/-- What stops and what restarts at the clients, under the image still in force. -/
def State.commitOld (s : State) (old : Option Image) (im : Image) : State :=
  match old with
  | some o => ((s.commitStops o im).commitClients o im).dropOccurrences o im
  | none => s

/-- The image is in force, and with it its command key; the load has ended (R20, R94, R98, R478). -/
def State.putInForce (s : State) (im : Image) : State :=
  { s with
    port := { s.port.leaveCont with inForce := some im, before := s.port.inForce, since := s.mark, load := none, hold := false,
                                    lastEnd := s.now }
    power := { s.power with kcmd := im.kcmd.or s.power.kcmd } }

/-- The roads that a new road section asks for (R283, R295). -/
def State.commitRoadSect (s : State) (old : Option Image) (im : Image) : State :=
  match old with
  | some o => if rawSect o.raw 4 = rawSect im.raw 4 then s else s.commitRoads im
  | none => s

/-- The islands take the image over (R20): accounts, sensors, engines, roads, products, time and launches. -/
def State.commitIslands (s : State) (old : Option Image) (im : Image) : State :=
  let had := match old with
    | some o => o.products.motion
    | none => []
  let s := (((((s.commitAccounts im).commitSensors old im).commitWay old im).commitPins old im).commitRoadSect old im)
  ((s.beginProducts had im).setDomains.setPpsEdge im.clients.time.ppsFalling)

/-- The records of a commit: IMAGE-LOAD, a RELOAD-IMAGE's reply, and STRAP-SET (R64, R71, R98, R99). -/
def State.commitRecords (s : State) (first : Bool) (l : Load) (src reason : Nat) (im : Image) : State :=
  let s := (s.loadRecord 0x00 src l.trigger 0 (some im.hdr) 0).finishReload l.reply 0x00
  let s := if first then s.writeStraps 1 s.straps.invalid.toNat 0 else s
  if reason = 0 then s else s.writeStraps reason s.straps.invalid.toNat 0

/-- What the front end begins at a commit: the first mark sampled of each new channel, and of a channel that goes on the outputs
not taken (R31, R261, R338). -/
def State.feBegins (s : State) (o im : Image) (fp : Bool) : State :=
  let pos := s.mark * markAcc
  let had := o.feTags fp
  let s := s.samplingAt 2 3 ((s.feFirst im fp pos).filter fun x => !had.contains x.1)
  if rawSect o.raw 3 = rawSect im.raw 3 then s
  else
    ((s.feSkips im fp pos).filter fun x => had.contains x.1).foldl (fun s x =>
      (s.writeSampling 1 5 x.1 x.2.1).writeSampling 2 5 x.1 x.2.2) s

/-- What begins under the new image, where the hub is awake (R31, R187, R343). -/
def State.commitBegins (s : State) (old : Option Image) (im : Image) : State :=
  match old with
  | some o =>
    if s.awake then
      let fp := s.inMode .footpath
      let s := s.sampling 2 3 s.mark (lacking (im.streamTags fp) (o.streamTags fp))
      let s := s.feBegins o im fp
      (s.resumeProducts o.products.motion im).settlePlan 3
    else s
  | none => s

/-- The image l comes into force at the mark in progress: every island changes over (R20, R89). Its IMAGE-LOAD record carries
RESULT 0x00, and a RELOAD-IMAGE is answered (R98, R99). -/
def State.commitImage (s : State) (l : Load) (im : Image) : State :=
  let old := s.port.inForce
  let src := s.loadSource l
  let x := (((s.commitOld old im).putInForce im).commitIslands old im).commitPlan
  let s := x.1.setOccurrences.commitFuses im old.isNone
  (s.commitRecords old.isNone l src x.2 im).commitBegins old im

/-- The commit whose mark has come (R89): a step of TB-G may skip the named index (R374). -/
def State.commitDue (s : State) : Option (Load × Image) :=
  match s.port.load with
  | some l =>
    match l.commit, l.staged with
    | some m, some im => if markLe m s.mark then some (l, im) else none
    | _, _ => none
  | none => none

end Sys2Proof.Machine
end

