-- ==== Sys2Proof/Machine/Modes.lean ====
section
/-! DEFINITION. Modes (20_modes.md): votes, holds and the decision, the MODE-CHANGE record, the changeovers into and out of
Footpath, Layby entry, and the wake sequence. -/

namespace Sys2Proof.Machine

/-! ### Votes and holds (R506–R508) -/

/-- A mode as a vote level: 1 Highway, 2 Lane, 3 Footpath; 0 for Layby (R506). -/
def Mode.level : Mode → Nat
  | .highway => 1
  | .lane => 2
  | .footpath => 3
  | .layby => 0

/-- The highest of a list of vote levels, 0 where none is held (R509). -/
def topVote (vs : List Nat) : Nat := if vs.contains 1 then 1 else if vs.contains 2 then 2 else if vs.contains 3 then 3 else 0

/-- The vote of client c: the one held, or that of a VOTE that is accepted and not yet handled (R506, R509). -/
def State.voteOf (s : State) (c : Nat) : Nat :=
  let cl := nth s.clients c
  cl.work.foldl (fun v x => if msgType x.1 = 5 then (match s.gate c x.1 with
    | .refuse _ => v
    | _ => fld (nth x.1 2) 1 0) else v) cl.vote

/-- Votes of the clients 0–5 (R506). -/
def State.clientVotes (s : State) : List Nat := (List.range 6).map s.voteOf

/-- Votes of the waymark engines (R506). -/
def State.engineVotes (s : State) : List Nat := (List.range 16).map fun e => (nth s.way.eng e).vote

/-- The vote of the steward's fault logic (R507). -/
def State.faultLevel (s : State) : Nat := if s.faultVote then 3 else 0

/-- A hold is in force: until its end, and that of a comparator while a condition of its recogniser is active (R508). -/
def State.holdLive (s : State) (h : Hold) : Bool :=
  match h.ends with
  | none => true
  | some e =>
    if h.src = 6 then decide (s.time.issued < e)
    else decide (s.now < e) || (h.src == 3 && (nth s.way.recs 2).active) || (h.src == 4 && (nth s.way.recs 3).active)

/-- Holds that have ended go (R508). -/
def State.dropHolds (s : State) : State := { s with power := { s.power with holds := s.power.holds.filter s.holdLive } }

/-- A hold begins; it takes the place of one from the same source. -/
def State.addHold (s : State) (h : Hold) : State :=
  { s with power := { s.power with holds := s.power.holds.filter (fun (x : Hold) => x.src != h.src) ++ [h] } }

/-- The highest hold in force with its source, the lowest source on a tie (R513). -/
def topHold (hs : List Hold) : Nat × Nat :=
  hs.foldl (fun a h =>
    if a.1 = 0 ∨ h.level.level < a.1 ∨ (h.level.level = a.1 ∧ h.src < a.2) then (h.level.level, h.src) else a) (0, 0)

/-! ### The decision (R509) -/

/-- The mode wanted, Layby where nothing asks for another, and whether the ceiling imposed it (R509). -/
def State.want (s : State) : Mode × Bool :=
  let v := topVote (s.clientVotes ++ s.engineVotes ++ [s.faultLevel] ++ (s.power.holds.filter s.holdLive).map (·.level.level))
  let v := if s.floor = some .lane ∧ v = 3 then 2 else v
  let v := if v ≠ 0 then v else match s.floor with
    | some m => m.level
    | none => if s.hsDriven then 3 else 0
  if s.ceiling && (v == 1 || v == 2) then (.footpath, true) else ((modeOfVote v).getD .layby, false)

/-- What a decision finds (R513). -/
def State.snapNow (s : State) (cause : Nat) : Snap :=
  let h := topHold (s.power.holds.filter s.holdLive)
  { cause := cause, faults := s.faultBits, floor := s.strap 6 / 4,
    cvotes := ((s.clientVotes.zipIdx).map fun x => at_ (x.1 % 4) (2 * x.2)).sum,
    wvotes := ((s.engineVotes.zipIdx).map fun x => at_ (x.1 % 4) (2 * x.2)).sum,
    fvote := s.faultLevel, hold := h.1, holdSrc := h.2 }

/-- MODE_DECISION at a grid mark (R509): a changeover two marks on, none, or one more towards Layby. -/
def State.takeDecision (s : State) : State :=
  let s := s.dropHolds
  let (m, clamped) := s.want
  let cause := if clamped then 2 else if s.power.ceiled then 3 else 1
  let p := { s.power with ceiled := clamped }
  match m with
  | .layby => { s with power := { p with change := none, layby := p.layby + 1, snap := s.snapNow cause } }
  | _ =>
    if s.inMode m then { s with power := { p with change := none, layby := 0 } }
    else if (match p.change with
      | some c => c.1 == m
      | none => false) then { s with power := { p with layby := 0 } }
    else { s with power := { p with change := some (m, s.mark + 2), layby := 0, snap := s.snapNow cause } }

/-- The MODE-CHANGE record (R513). -/
def State.writeModeChange (s : State) (from_ : Nat) (dest : Mode) : State :=
  let p := s.power.snap
  s.writeRec 0x19 s.mark
    [word (at_ from_ 30 + at_ (modeField dest) 28 + at_ p.cause 24 + at_ p.faults 16 + at_ p.floor 14),
     word p.cvotes, word p.wvotes, word (at_ p.fvote 30 + at_ p.hold 28 + at_ p.holdSrc 24)]

/-! ### Islands and pads (R505, R512) -/

/-- How an island stands in a mode (R505). -/
def islandIn (m : Mode) (i : Nat) : IslSt :=
  match m with
  | .highway => .running
  | .lane => .running
  | .footpath => if i = 9 then .retention else if i = 4 ∨ i = 6 ∨ i = 7 then .off else .running
  | .layby => if i = 0 then .running else .retention

/-- How an island stands in a mode under the straps: UPLINK stays off where STRAP4 disables both ports (R54, R505). -/
def State.islandGoal (s : State) (m : Mode) (i : Nat) : IslSt := if i = 7 ∧ s.strap 4 = 0xC then .off else islandIn m i

/-- The islands as they go over to a mode: those that must come up are waking (R521). -/
def State.wakeFor (s : State) (m : Mode) : List IslSt :=
  s.power.islands.mapIdx fun i x =>
    if s.islandGoal m i == .running then (if x == .running then x else .waking) else s.islandGoal m i

/-- MODE1 and MODE0 in a mode; in Lane MODE0 is high for the first 500 ms of every 1024 marks (R512). -/
def State.modePads (s : State) (m : Mode) : State :=
  let (p1, p0) := match m with
    | .highway => (false, true)
    | .lane => (false, decide (s.mark % 1024 < 512))
    | .footpath => (true, false)
    | .layby => (false, false)
  { s with power := { s.power with mode1 := p1, mode0 := p0 } }

/-- The memory die in a mode (R505, R514). -/
def State.dieIn (s : State) (m : Mode) : DieSt :=
  match m with
  | .highway => .active
  | .lane => .active
  | .footpath => if s.cw.dieRetired then .unpowered else .selfRefresh
  | .layby => .selfRefresh

/-- A mode comes into force (R505, R509, R512, R521); the spill port's pads are high impedance in Footpath and Layby (R361). -/
def State.setMode (s : State) (m : Mode) : State :=
  { s with
    power := { s.power with
      mode := some m, modeBefore := s.power.mode, modeAt := s.mark, die := s.dieIn m, change := none, layby := 0
      islands := s.wakeFor m }
    spill := { s.spill with drive := m == Mode.highway || m == Mode.lane } }.modePads m

/-! ### What stops and what resumes (R31, R128, R186, R260, R514, R517) -/

/-- SAMPLING of the products of these kinds that a mode change stops. In Footpath the wave record in progress is discarded,
with the record that names it (R186). -/
def State.stopProducts (s : State) (im : Image) (sel : Nat → Bool) (names : Bool) : State :=
  (im.products.motion.filter fun e => sel e.kind).foldl (fun s e =>
    if names && e.kind == 3 && s.mark % s.recMarks != 0 then
      s.writeSampling 1 4 (productTag 3 e.view) (gridDown s.mark s.recMarks)
    else s.writeSampling 1 1 (productTag e.kind e.view) s.mark) s

/-- First value, packet start or record period of a product that runs from mark m on (R122, R168). -/
def State.productFrom (s : State) (e : MotionEntry) (m : Nat) : Nat :=
  gridUp m (if e.kind = 1 then 64 else if e.kind = 2 then 256 else s.recMarks)

/-- What a fall to Footpath stops: the SAMPLING records (R31, R186, R260). -/
def State.footpathStops (s : State) (im : Image) : State :=
  let m := s.mark
  let s := s.sampling 1 1 m (lacking (im.streamTags false) (im.streamTags true))
  let s := s.sampling 1 1 m (lacking (im.feTags false) (im.feTags true))
  let s := s.stopProducts im (fun k => k == 2 || k == 3) true
  s.sampling 1 1 m (lacking (im.recTags false) (im.recTags true))

/-- What an exit from Footpath resumes, from the mark in progress on: the SAMPLING records (R31, R515). -/
def State.footpathResumes (s : State) (im : Image) : State :=
  let m := s.mark
  let s := s.sampling 2 1 m (lacking (im.streamTags false) (im.streamTags true))
  let s := s.samplingAt 2 1 ((s.feFirst im false (m * markAcc)).filter fun x => !(im.feTags true).contains x.1)
  let s := (im.products.motion.filter fun e => e.kind == 2 || e.kind == 3).foldl (fun s e =>
    s.writeSampling 2 1 (productTag e.kind e.view) (s.productFrom e m)) s
  s.sampling 2 1 m (lacking (im.recTags false) (im.recTags true))

/-- Accepted messages of TYPE typ that are not yet handled are abandoned (R453). -/
def State.abandonWork (s : State) (typ cause : Nat) : State :=
  (List.range 6).foldl (fun s c =>
    let hit := (nth s.clients c).work.filter fun x => msgType x.1 == typ
    let s := s.onClient c fun cl => { cl with work := cl.work.filter fun x => msgType x.1 != typ }
    hit.foldl (fun s x => s.abort c (msgCmp x.1) typ cause) s) s

/-- The pending requests of the readers that a condition selects are abandoned (R453, R461). -/
def State.abandonPends (s : State) (sel : Nat → Bool) (cause : Nat) : State :=
  ((List.range 11).filter sel).foldl (fun s r =>
    match (nth s.cw.readers r).pend with
    | some q =>
      { s with cw := s.cw.onReader r fun rd => { rd with pend := none } }.abort q.client q.cmp
        (if q.rewindTo.isSome then 0x03 else 0x04) cause
    | none => s) s

/-- A load in progress is abandoned at a fall to Footpath or Layby, unless its commit mark has come (R511). -/
def State.fallAbandon (s : State) : State :=
  match s.port.load with
  | some l =>
    match l.commit with
    | some m => if markLe m s.mark then s else s.abandonLoad 0x17
    | none => s.abandonLoad 0x17
  | none => s

/-- TW begins to read the ring: it keeps its Causeway cursor and starts at the next packet (R332). -/
def Reader.enterRing (rd : Reader) : Reader :=
  match rd.saved with
  | some _ => rd
  | none =>
    { rd with saved := some rd.cursor, next := rd.count + 1, part := none, lineOff := 0, gapTo := none, jumps := [], skip := none }

/-- TW reads the ring (R332). -/
def State.enterRing (s : State) : State := { s with cw := s.cw.onReader 5 Reader.enterRing }

/-- Running job instances wait while no job core runs (R349, R350). -/
def State.pauseJobs (s : State) : State :=
  { s with red := { s.red with insts := s.red.insts.map fun (i : JobInst) => { i with core := 0 } } }

/-- Every road stops at the mark in progress (R343, R514, R517). -/
def State.stopRoads (s : State) (cause : Nat) : State :=
  (List.range 8).foldl (fun s r => if (s.road r).on then s.stopRoad r cause s.mark else s) s

/-- The triads as the mode in force powers them (R126, R128). -/
def State.powerFor (s : State) (m : Mode) : State := { s with mot := { s.mot with triads := powerTriads s.mot.triads m } }

/-! ### FOOTPATH_ENTRY (R514) -/

/-- The changeover into Footpath at the mark in progress (R128, R182, R186, R260, R332, R500, R511, R514). -/
def State.toFootpath (s : State) : State :=
  let from_ := s.modeNow
  let s := s.forceEnds fun r => r == 0 || r == 1 || r == 4
  let s := match s.port.inForce with
    | some im => s.footpathStops im
    | none => s
  let s := s.stopRoads 1
  let s := s.closeShort fun _ => true
  let s := s.parkPins
  let s := { s with fe := s.fe.stop (fun n => match s.recipe n with
    | some r => !r.basic
    | none => false) s.mark }.settleFe
  let s := (s.abandonWork 0x0F 4).abandonPends (fun r => decide (r < 5)) 4
  let s := s.uplinkOff.pauseJobs.setMode .footpath
  let s := { s with
    prod := { s.prod with breaks := s.prod.breaks ++ [s.mark] }
    power := { s.power with fromHigh := true }
    spill := { s.spill with laneRun := false } }
  let s := s.enterRing.writeModeChange from_ .footpath
  (s.fallAbandon.floatImageBus.settlePlan 1).raiseCall 4 0x0002

/-! ### RING_COPY and FOOTPATH_EXIT (R333, R515) -/

/-- A packet written into the ring in Footpath, which no global milepost names yet. -/
def Packet.ofFootpath (p : Packet) : Bool := p.gmp == 0

/-- One ring packet copied into the Causeway; the milepost of the first copy that TW had not received is kept (R333). -/
def State.copyOne (x : State × List Packet × Option Word) (p : Packet) : State × List Packet × Option Word :=
  let (s, done, first) := x
  if p.ofFootpath then
    let tw := nth s.cw.readers 5
    let unread := match p.mpOf 5 with
      | some m => decide (later32 (m + 1) tw.next)
      | none => true
    let p' := { p with held := s.inRegion p, mps := [] }
    let p' := { p' with klass := s.packetClass p' }
    let adm (r : Nat) : Bool := r != 8 && s.admits r p'
    let (cw, q) := s.cw.seat s.pagerWorks p'
    let cw := cw.closeIn adm q
    let first := if first.isSome || !unread || !adm 5 then first else some (tw.count + 1)
    ({ s with cw := cw }, done ++ [{ p with gmp := cw.gmp, mps := [] }], first)
  else (s, done ++ [p], first)

/-- The ring is copied, and TW goes back to its Causeway cursor, with the DISCONTINUITY that stands before the copies. The
copies that TW had received count as delivered; after a wake, records that closed before the copies, from the milepost given here
on, come first (R333, R519). -/
def State.copyRing (s : State) (records : Option Word) : State :=
  let tw := nth s.cw.readers 5
  match tw.saved with
  | none => s
  | some c =>
    let next := tw.count + 1
    let (s, ring, first) := s.cw.ring.foldl State.copyOne (s, [], none)
    let ends := (nth s.cw.readers 5).count + 1
    let j : Jump :=
      { pos := c.count + 1
        ins := { kind := 4, w4 := word (at_ 3 24 + at_ 5 16), w5 := c.count, w6 := next, w7 := 0, mark := s.mark }
        dest := records.getD (first.getD ends) }
    let back (rd : Reader) : Reader :=
      { rd.atCursor c with saved := none, jumps := c.jumps ++ (if (s.roleOf 5).isSome then [j] else [])
                           skip := if records.isSome then some (next, first.getD ends) else c.skip }
    { s with cw := ({ s.cw with ring := ring }.onReader 5 back).peaks }.settle

/-- The changeover from Footpath to Highway or Lane at the mark in progress (R128, R333, R515). A block of R131 goes on: of a triad
that runs in part of it the mean covers that part (DESIGN CHOICE, assumption-log row 67). -/
def State.fromFootpath (s : State) (dest : Mode) : State :=
  let m := s.mark
  let high := s.power.fromHigh
  let s := s.closeShort fun _ => true
  let s := ((s.setMode dest).copyRing none).writeModeChange (modeField .footpath) dest
  let s := s.powerFor dest
  let s := { s with
    prod := { s.prod with breaks := s.prod.breaks ++ [m]
                          entries := s.prod.entries.map fun (e : ProdEntry) =>
                            if e.entry.kind = 2 then { e with since := max e.since m } else e }
    mot := { s.mot with streams := s.mot.streams.map fun (x : StreamSt) => if x.entry.fp then x else { x with since := max x.since (8 * m), first := max x.first (8 * m) } }
    fe := { s.fe with poweredAt := s.now }
    power := { s.power with fromHigh := false } }
  let s := match s.port.inForce with
    | some im => s.footpathResumes im
    | none => s
  let s := s.settlePlan 1
  if high then s.raiseCall 4 0x0001 else s

/-- MODE_CHANGEOVER at the mark in progress (R509, R510). -/
def State.changeMode (s : State) (dest : Mode) : State :=
  if dest == .footpath then s.toFootpath
  else if s.inMode .footpath then s.fromFootpath dest
  else
    let from_ := s.modeNow
    let s := (s.setMode dest).writeModeChange from_ dest
    { s with spill := { s.spill with laneRun := false } }.settlePlan 1

/-! ### LAYBY_ENTRY (R517) -/

/-- What every mode samples, stopped with the mark in progress as the first one not sampled (R31, R517). -/
def State.laybyStops (s : State) (im : Image) : State :=
  let fp := s.inMode .footpath
  let s := s.sampling 1 1 s.mark (im.streamTags fp)
  let s := s.sampling 1 1 s.mark (im.feTags fp)
  let s := s.stopProducts im (prodRuns fp) false
  s.sampling 1 1 s.mark (im.recTags fp)

/-- Every accepted message whose reply is not built is abandoned (R453, R517). -/
def State.laybyAborts (s : State) : State :=
  let s := { s with
    mot := { s.mot with calSnaps := [], restore := match s.mot.restore with
      | some r => if r.verified then none else some r
      | none => none }
    age := { s.age with snaps := [] }
    time := { s.time with pps := { s.time.pps with pendLabels := [] } }
    cw := { s.cw with readers := s.cw.readers.map fun (rd : Reader) => { rd with pend := none } } }
  (List.range 6).foldl (fun s c => s.abortAll c 1) s

/-- What the islands no longer hold once Layby begins: the record period in progress, the run of live triples (R172, R505,
R516). -/
def State.laybyClears (s : State) : State :=
  { s with
    prod := { s.prod with recFirst := none, disp := [], atts := [], inputs := [], inFlags := [], lastIn := none }
    straps := { s.straps with liveRun := none }
    spill := { s.spill with laneRun := false }
    hs := s.hs.off, tw := s.tw.off }

/-- The wake source of the holds in force, the lowest code: one that was raised after the last decision counts as a source held
during the entry (R508, R517, R518). -/
def State.heldSource (s : State) : Option Nat :=
  ((List.range 6).drop 1).find? fun k => s.power.holds.any fun (h : Hold) => h.src == k

/-- Layby entry begins at the mark in progress (R517 step 1); the holds still in force stay (R508). -/
def State.enterLayby (s : State) : State :=
  let from_ := s.modeNow
  let s := s.dropHolds
  let s := s.forceEnds fun _ => true
  let s := match s.port.inForce with
    | some im => s.laybyStops im
    | none => s
  let s := s.stopRoads 1
  let s := (s.closeShort fun _ => true)
  let s := s.parkPins
  let s := { s with fe := s.fe.stop (fun _ => true) s.mark }.settleFe
  let s := (s.laybyAborts.fallAbandon.floatImageBus.settle).writeModeChange from_ .layby
  let s := s.uplinkOff.pauseJobs.laybyClears
  { s with power := { s.power with mode := some .layby, modeBefore := s.power.mode, modeAt := s.mark, change := none, layby := 0, entering := some s.mark, wakeHeld := s.heldSource, wakeAt := s.now
                                   entryMark := s.mark, entryAt := s.now, fromHigh := false } }.placeJobs

/-! ### The wake sequence (R518–R520) -/

/-- A retention bank failed its check: bit of FAILED (R340, R520). -/
def State.bankFailed (s : State) (b : Nat) : Bool := s.power.failed.getLsbD b

/-- The newest milepost of reader r that a packet still held has (R520 bit 1). -/
def Causeway.lastHeld (cw : Causeway) (r : Nat) : Word :=
  ((cw.closed.filter (·.isHeld)).filterMap (·.mpOf r)).getLastD 0

/-- A reader's counter and cursor after the milepost bank is lost (R520 bit 1): its DISCONTINUITY record waits. -/
def Reader.lostCount (rd : Reader) (r mark : Nat) (k : Word) : Reader :=
  let clip (m : Word) : Word := if later32 m (k + 1) then k + 1 else m
  let i : Ins := { kind := 4, w4 := word (at_ 2 24 + at_ r 16), w5 := k, w6 := k + 1, w7 := 0, mark := mark }
  let old (m : Word) : Word := if later32 m k then k else m
  { rd with count := k, lastKnown := k, delivered := old rd.delivered, acked := old rd.acked, next := if rd.saved.isSome then k + 1 else clip rd.next, part := none, lineOff := 0, gapTo := none,
            jumps := [], skip := none, inserts := rd.inserts ++ [i],
            saved := rd.saved.map fun c =>
              { c with count := k, next := clip c.next, part := none, lineOff := 0, gapTo := none, jumps := [], skip := none } }

/-- The milepost region of both banks is lost (R520 bit 1). -/
def State.lostMileposts (s : State) : State :=
  { s with
    cw := { s.cw with
      readers := s.cw.readers.mapIdx fun r (rd : Reader) => if r < 9 then rd.lostCount r s.mark (s.cw.lastHeld r) else rd
      ring := s.cw.ring.map fun (p : Packet) => { p with mps := [] } }
    up := { s.up with clients := s.up.clients.map fun (u : UpClient) => { u with frag := none } } }

/-- The STEWARD's other banks are lost (R520 bit 4): votes, locks, control mileposts and KFLOOR go, and a new SESSION is
drawn. -/
def State.lostSteward (s : State) : State :=
  { s with
    clients := List.replicate 6 Client.init
    locks := s.locks.map fun _ => { holder := none, ends := 0 }
    power := { s.power with session := some (Config.randomWord s.free) }
    free := s.free + 1 }

/-- An island other than STEWARD and TIME prepares its part of the image afresh (R520 bits 5–14); its SAMPLING records with
cause 0x06 come as its channels resume. -/
def State.lostIsland (s : State) (b : Nat) : State :=
  match s.port.inForce with
  | none => s
  | some im =>
    match b with
    | 5 => { s with mot := { s.mot with streams := [] }.commitStreams im (s.mark + 1) }
    | 6 => { s with fe := { Fe.init with clamps := s.fe.clamps }.commit im true [] [] s.mark }
    | 7 => { s with roads := s.roads.map fun (rd : Road) => { Road.init with stopAt := rd.stopAt, cause := 6 } }
    | 8 => { s with cw := { s.cw with accounts := s.cw.accounts.map fun (a : Account) => { a with balance := a.cap } } }
    | 9 => { s with spill := { s.spill with laneRun := false, carry := [none, none, none] } }
    | 10 => { s with up := { s.up with
        clients := s.up.clients.map fun (u : UpClient) => { u with seq := 0, sent := [], flight := [], frag := none }
        launchSkip := List.replicate 16 0, occRef := List.replicate 16 0 } }
    | 11 => { s with hs := Port.init, tw := Port.init, attn := Attn.init }
    | 12 => { s with pin := { Pin.init with input := s.pin.input } }.initialPads
    | 13 => { s with
        red := { insts := [], next := [] }
        prod := { Prod.init with recCorner := s.prod.recCorner }
        way := { s.way with lastProd := List.replicate 4 none } }
    | _ => s

/-- The consequences of the failed banks, before the islands resume (R520). -/
def State.wakeLosses (s : State) : State :=
  let f := s.bankFailed
  let s := if f 0 then s.causewayReset 2 else if s.cw.resetDue = 4 then s.causewayReset 4 else s
  let s := if f 1 then s.lostMileposts else s
  let s := if f 2 then { s with mot := s.mot.calWake true false s.calBlock.hvStart } else s
  let s := if f 14 then { s with way := { s.way with recs := s.way.recs.map fun (x : RecSt) => { RecSt.init with seq := x.seq }, evq := [] } } else s
  let s := if f 3 || f 14 then s.restartEngines 2 else s
  let s := if f 4 then s.lostSteward else s
  ([5, 6, 7, 8, 9, 10, 11, 12, 13].filter f).foldl State.lostIsland s

/-- The mode that the wake sequence enters (R509, R519). -/
def State.wakeMode (s : State) : Mode :=
  match s.want.1 with
  | .layby => .footpath
  | m => m

/-- The islands of the mode to be entered come up (R519 step 3). -/
def State.wakeIslands (s : State) : State :=
  { s with power := { s.power with islands := s.wakeFor s.wakeMode } }

/-- Signatures of the retention regions on wake, where a region that the check names gives the one named (R519). -/
def State.wakeSigs (s : State) (chk : WakeCheck) : List Word :=
  s.tap.sigs.mapIdx fun b w => ((chk.sigs.find? (·.1 == b)).map (·.2)).getD w

/-- FAILED bits 0–14 (R340, R519): a region whose signature has changed, and of the regions held in banks P and Q one of which
both copies have. -/
def failedBanks (before after : List Word) : Nat :=
  let bad (b : Nat) : Bool := nth before b != nth after b
  maskOf 15 fun k => if k < 2 then bad k && bad (k + 2) else bad (k + 2)

/-- A finding lies in the control region (R303, R519). -/
def inControl (f : LineFinding) : Bool :=
  match f.place with
  | .die line => decide (24 * bankLines ≤ line) && decide (line < 32 * bankLines)
  | _ => false

/-- The wake sequence begins: the banks are checked, the memory die leaves self-refresh and its control region is scrubbed; the
scrub of the rest of it is due once it is active (R519). -/
def State.startWake (s : State) (src : Nat) (chk : WakeCheck) : State :=
  let sigs := s.wakeSigs chk
  let lines := if s.cw.dieRetired then [] else chk.lines.filter inControl
  let bad := ((lines.filter fun f => fateOf f == .detected).map (·.place)).eraseDups.length
  let failed := failedBanks s.tap.sigs sigs + at_ (b2n (bad != 0)) 15
  let s := { s with
    tap := { s.tap with sigs := sigs }
    power := { s.power with
      waking := some src, wakeHeld := none, failed := BitVec.ofNat 16 failed, uncorr := bad, scrubDue := true
      die := if s.cw.dieRetired then .unpowered else .active } }
  (s.findings 2 noPacket lines).wakeLosses.wakeIslands

/-- A wake source with its hold (R508, R518): held during Layby entry, joined to a wake in progress, or the start of one. Of
sources within 1 µs the lowest code is reported. -/
def State.wakeSource (s : State) (src : Nat) (level : Mode) (ends : Option Nat) (chk : WakeCheck) : State :=
  let s := s.addHold { src := src, level := level, ends := ends }
  let near := decide (s.now ≤ s.power.wakeAt + usPs 1)
  if !(s.running && s.inMode .layby) then s
  else if s.power.waking.isSome then
    { s with power := { s.power with waking := if near then s.power.waking.map (min src) else s.power.waking } }.wakeIslands
  else if s.power.entering.isSome then
    match s.power.wakeHeld with
    | none => { s with power := { s.power with wakeHeld := some src, wakeAt := s.now } }
    | some w => { s with power := { s.power with wakeHeld := some (if near then min w src else w) } }
  else { s with power := { s.power with wakeAt := s.now } }.startWake src chk

/-- Cause of the SAMPLING records with which an island's channels resume after a wake (R338, R520). -/
def State.resumeCause (s : State) (bank : Nat) : Nat := if s.bankFailed bank then 6 else 1

/-- What the mode entered by a wake samples, from the mark after the one in progress on (R31, R519, R520). -/
def State.wakeResumes (s : State) (im : Image) : State :=
  let fp := s.inMode .footpath
  let m := s.mark + 1
  let s := s.sampling 2 (s.resumeCause 5) m (im.streamTags fp)
  let s := s.samplingAt 2 (s.resumeCause 6) (s.feFirst im fp (m * markAcc))
  let s := (im.products.motion.filter fun e => prodRuns fp e.kind).foldl (fun s e =>
    s.writeSampling 2 (s.resumeCause 13) (productTag e.kind e.view) (s.productFrom e m)) s
  s.sampling 2 (s.resumeCause 14) m (im.recTags fp)

/-- The WAKE-REPORT record (R340). -/
def State.writeWake (s : State) (src : Nat) : State :=
  s.writeRec 0x08 s.mark
    [word (at_ src 28 + s.power.failed.toNat), word s.power.entryMark, word (satN 32 s.power.uncorr), 0]

/-- How long a comparator's hold lasts after the wake (R508): DROP_T is in ms, CAPS_T in s. -/
def State.comparatorHold (s : State) (src : Nat) : Nat :=
  let w (r : Nat) : Nat := match s.recogOf r with
    | some e => (nth e.w 1).toNat
    | none => 0
  if src = 3 then secPs 10 + msPs (w 2) else secPs 10 + secPs (w 3)

/-- The sensors, products and front end of the mode that a wake enters start at the next mark (R126, R159, R257, R519). -/
def State.wakeStart (s : State) (m : Mode) : State :=
  let n := s.mark + 1
  let long := decide (s.power.entryAt + secPs 21600 < s.now)
  let s := s.powerFor m
  let mot := { s.mot with
    instant := 8 * n
    streams := (s.mot.streams.filter (·.ends.isNone)).map fun (x : StreamSt) => { x with since := 8 * n, first := 8 * n }
    block := { BlockNote.init with start := n }, blockDone := BlockNote.init }
  let entries : List ProdEntry := match s.port.inForce with
    | some im => im.products.motion.map fun e => { entry := e, since := s.productFrom e n, ends := none }
    | none => []
  { s with
    mot := if s.bankFailed 2 then mot else mot.calWake false long s.calBlock.hvStart
    prod := { s.prod with entries := entries }
    fe := { s.fe with poweredAt := s.now } }

/-- The wake sequence completes (R519 steps 3 and 4): WAKE-REPORT is the first packet, then MODE-CHANGE, then what waited. -/
def State.wakeDone (s : State) (src : Nat) : State :=
  let m := s.wakeMode
  let held := s.cw.preM0
  let s := { s with
    cw := { s.cw with preM0 := [] }
    power := { s.power with
      waking := none, snap := s.snapNow 4, ceiled := s.want.2
      holds := s.power.holds.map fun (h : Hold) =>
        if h.src = 3 ∨ h.src = 4 then { h with ends := some (s.now + s.comparatorHold h.src) } else h } }
  let s := (s.setMode m).wakeStart m
  let first := (nth s.cw.readers 5).count + 1
  let s := if m == .footpath then s.enterRing else s
  let s := (s.writeWake src).writeModeChange 3 m
  let s := if m == .footpath then s else s.copyRing (some first)
  let s := s.writePackets held
  let s := match s.port.inForce with
    | some im => s.wakeResumes im
    | none => s
  s.settlePlan 1

/-- An island runs from now on: the pin engines restart at the next mark after theirs (R500), and TWSCL is released as HOSTPORT
runs (R443). -/
def State.islandRuns (s : State) (island : Nat) : State :=
  { s with
    power := { s.power with islands := s.power.islands.set island .running }
    tw := if island = 8 then { s.tw with stretch := false } else s.tw
    pin := if island = 9 then { s.pin with restartAt := some (s.mark + 1) } else s.pin }

/-- ISLAND_RUNNING (R521): an island that was powering runs. The wake sequence completes with the last island of the mode to
be entered. -/
def doIslandRunning (dt island : Nat) (s : State) : State :=
  let s := s.advance dt
  if nth s.power.islands island == .waking then
    let s := s.islandRuns island
    match s.power.waking with
    | some src => if s.power.islands.all (· != .waking) then s.wakeDone src else s
    | none => s
  else s

/-- ISLAND_RUNNING (R521). -/
def execIslandRunning (dt : Nat) (island : Fin 12) (s : State) : Result := .next (doIslandRunning dt island.val s)

/-- The sensors as the islands enter retention (R128, R260, R516, R517): the words of the conversions that have ended are written,
those still in progress give none, the inputs of running windows go, and what is still open closes short. -/
def State.sensorsRest (s : State) : State :=
  let s := s.flushFe
  let s := { s with
    fe := s.fe.halt s.mark
    mot := { s.mot with hist := List.replicate 8 [], robust := [false, false], dwell := [0, 0], last := none } }
  ((s.closeShort fun _ => true).settle).powerFor .layby

/-- LAYBY_ENTRY_DONE (R517 steps 2 to 4): the signatures are computed and the islands retain; a source held during entry
starts the wake. -/
def doLaybyEntryDone (dt : Nat) (chk : WakeCheck) (s : State) : State :=
  let s := s.advance dt
  match s.power.entering with
  | none => s
  | some l =>
    let s := s.sensorsRest
    let s := { s with
      power := { s.power with entering := none, islands := (List.range 12).map (s.islandGoal .layby), die := s.dieIn .layby, mode0 := false, mode1 := false }
      spill := { s.spill with drive := false }
      tap := { s.tap with sigs := (List.range 17).map fun b => Config.retentionSignature (if b < 4 then b % 2 else b - 2) l } }
    match s.power.wakeHeld with
    | some src => s.startWake src chk
    | none => s

/-- LAYBY_ENTRY_DONE (R517). -/
def execLaybyEntryDone (dt : Nat) (chk : WakeCheck) (s : State) : Result := .next (doLaybyEntryDone dt chk s)

/-! ### Wake sources (R443, R508, R518) -/

/-- TW_WAKE_MATCH (R443): in Layby the address matcher acknowledges the hub's address, holds TWSCL and wakes the hub; the hold
lasts until 1 s after that transaction. A port that is disabled matches nothing (R51). -/
def doTwWakeMatch (dt : Nat) (addr : BitVec 7) (chk : WakeCheck) (s : State) : State :=
  let s := (s.advance dt).twStart
  if s.running && s.inMode .layby && (s.roleOf 5).isSome && addr.toNat == s.twAddr then
    { s with tw := { s.tw with stretch := true } }.wakeSource 1 .footpath none chk
  else s

/-- TW_WAKE_MATCH (R443). -/
def execTwWakeMatch (dt : Nat) (addr : BitVec 7) (_ : Bool) (chk : WakeCheck) (s : State) : Result :=
  .next (doTwWakeMatch dt addr chk s)

/-- WAKE_PAD_RISE (R508, R557): WAKE goes high; a high of 10 µs or more is a rising edge, which holds Footpath in every mode, before
m0 too, and wakes the hub. -/
def doWakePadRise (dt highNs : Nat) (chk : WakeCheck) (s : State) : State :=
  let s := s.advance dt
  let s := { s with power := { s.power with wakePad := true } }
  if s.power.phase != .inReset && decide (10000 ≤ highNs) then s.wakeSource 5 .footpath none chk else s

/-- WAKE_PAD_RISE (R508). -/
def execWakePadRise (dt : Nat) (highNs : Nat) (chk : WakeCheck) (s : State) : Result := .next (doWakePadRise dt highNs chk s)

/-- WAKE_PAD_FALL (R508): the hold of WAKE lasts 1 s more. -/
def doWakePadFall (dt : Nat) (s : State) : State :=
  let s := s.advance dt
  { s with power := { s.power with
    wakePad := false
    holds := s.power.holds.map fun (h : Hold) => if h.src = 5 ∧ h.ends.isNone then { h with ends := some (s.now + secPs 1) } else h } }

/-- WAKE_PAD_FALL (R508). -/
def execWakePadFall (dt : Nat) (s : State) : Result := .next (doWakePadFall dt s)

/-- A comparator is armed: in Layby, while its recogniser's entry has EN = 1 (R508). -/
def State.armed (s : State) (r : Nat) : Bool := s.running && s.inMode .layby && (s.recogOf r).isSome

/-- DROP_COMPARATOR (R508). -/
def doDropComparator (dt : Nat) (chk : WakeCheck) (s : State) : State :=
  let s := s.advance dt
  if s.armed 2 then s.wakeSource 3 .footpath none chk else s

/-- DROP_COMPARATOR (R508). -/
def execDropComparator (dt : Nat) (chk : WakeCheck) (s : State) : Result := .next (doDropComparator dt chk s)

/-- CAPSIZE_COMPARATOR (R508). -/
def doCapsizeComparator (dt : Nat) (chk : WakeCheck) (s : State) : State :=
  let s := s.advance dt
  if s.armed 3 then s.wakeSource 4 .footpath none chk else s

/-- CAPSIZE_COMPARATOR (R508). -/
def execCapsizeComparator (dt : Nat) (chk : WakeCheck) (s : State) : Result := .next (doCapsizeComparator dt chk s)

/-- HOLD_EXPIRY (R508): holds whose end has come no longer count. -/
def doHoldExpiry (dt : Nat) (s : State) : State := (s.advance dt).dropHolds

/-- HOLD_EXPIRY (R508). -/
def execHoldExpiry (dt : Nat) (s : State) : Result := .next (doHoldExpiry dt s)

/-- SCHEDULED_ACTION_DUE (R390–R392): the time base has reached the action's instant. The launch executes where the UPLINK
island runs, its port is free and no earlier one waits for that port; in Layby and in Footpath, where the island is off, it is a
TIME alarm, which holds Lane and in Layby wakes the hub. -/
def doScheduledActionDue (dt index : Nat) (chk : WakeCheck) (fs : List LineFinding) (s : State) : State :=
  let s := s.advance dt
  match s.time.acts[index]? with
  | none => s
  | some a =>
    if 0 ≤ s.lag a then
      if s.running && (s.inMode .layby || s.inMode .footpath) then
        { s with time := { s.time with acts := s.time.acts.modify index fun x => { x with alarm := true } } }.wakeSource 2 .lane none chk
      else
        let port (b : Action) : Nat := match s.launchEntry b.entry with
          | some l => l.port
          | none => 0
        let ahead (b : Action) : Bool :=
          port b == port a && (decide (s.lag a < s.lag b) || (s.lag a == s.lag b && decide (b.entry < a.entry)))
        if s.uplinkOn && !s.launching (port a) && !s.time.acts.any ahead then ((s.launchFindings a.entry fs).runAct a).launchDone else s
    else s

/-- SCHEDULED_ACTION_DUE (R390). -/
def execScheduledActionDue (dt : Nat) (index : Nat) (chk : Reads WakeCheck) (s : State) : Result :=
  .next (doScheduledActionDue dt index chk.what chk.findings s)

end Sys2Proof.Machine
end

