-- ==== Sys2Proof/Machine/Marks.lean ====
section
/-! DEFINITION. What happens at a grid mark (R510, 95_what_each_step_holds.md GRID_MARK), the first commit (R523), and the
periodic records (R341). -/

namespace Sys2Proof.Machine

/-! ### Calibration (R131, R150, R156, R158, R532) -/

/-- A calibration restore commits at its mark (R158). -/
def State.restoreAtMark (s : State) : State :=
  match s.mot.restore with
  | some r =>
    match r.commit with
    | some m =>
      if markLe m s.mark then
        let skip := s.calSkipped r.words
        let s := s.restoreCommit r.words
        { s with mot := { s.mot with restore := none } }.resolveResult r.client r.cmp 0x09 0x00 [word skip]
      else s
    | none => s
  | none => s

/-- A snapshot as the reply sequence of message CMP of client c (R459). -/
def State.replyFragments (s : State) (c : Nat) (cmp : BitVec 16) (typ : Nat) (frs : List (List Word)) : State :=
  s.resolve c cmp typ fun r =>
    (typ + 0x80, frs.zipIdx.map fun x => [replyWord cmp r.acc 0, word (at_ frs.length 8 + x.2)] ++ x.1)

/-- The snapshots that clients have asked for (R156, R532). -/
def State.snapshots (s : State) : State :=
  let cal := s.mot.calSnaps
  let margin := s.age.snaps
  let s := { s with mot := { s.mot with calSnaps := [] }, age := { s.age with snaps := [] } }
  let s := cal.foldl (fun s x => s.replyFragments x.1 x.2 0x08 (calFragments s.calRecord)) s
  if margin.isEmpty then s
  else
    let (rate, s) := s.takeWord
    margin.foldl (fun s x => s.replyFragments x.1 x.2 0x0B (marginFragments (s.marginRecord rate))) s

/-- The block that begins at a mark (R131, R132): readout faults that are present and an active CAPSIZE count from its start. -/
def State.newBlock (s : State) : BlockNote :=
  { BlockNote.init with start := s.mark / 61440 * 61440, whole := s.mark % 61440 == 0, fault := s.mot.triads.map (·.fault),
                        event := (nth s.way.recs 3).active }

/-- Calibration at a mark: terms that come into force, a block that ends, and a restore. -/
def State.calAtMark (s : State) (before : Nat) : State :=
  let s := { s with mot := s.mot.termsAtMark s.mark }
  let s := if before / 61440 < s.mark / 61440 then
      { s with mot := { s.mot with blockDone := s.mot.block, block := s.newBlock } }
    else s
  s.restoreAtMark.snapshots

/-! ### Changeovers (R509, R510) -/

/-- Step 1 of R510: a changeover whose mark has come, or Layby entry after 64 decisions. -/
def State.changeover (s : State) : State :=
  if 64 ≤ s.power.layby then s.enterLayby
  else match s.power.change with
    | some (m, k) => if markLe k s.mark then s.changeMode m else s
    | none => s

/-- Step 2 of R510: an image commit whose mark has come. -/
def State.commitAtMark (s : State) : State :=
  match s.commitDue with
  | some (l, im) => s.commitImage l im
  | none => s

/-- Step 3 of R510: a plan selected at the mark before, a live-strap commit, and a Service window that it closes (R64,
R65). -/
def State.livesAtMark (s : State) : State :=
  let s := s.takePlanSel.liveCommit
  let s := if s.strap 13 = 6 then s else { s with power := { s.power with service := none } }
  s.settlePlan 1

/-! ### The rest of a mark -/

/-- A Causeway reset that the comparisons or a completion entry ask for, and a reset of the ring (R328, R330). -/
def State.resetsAtMark (s : State) (chk : PointerCheck) : State :=
  let s := { s with cw := s.cw.strike chk.struck }
  let s := if s.cw.resetDue == 0 then s else s.causewayReset s.cw.resetDue
  if chk.ring then s.ringReset else s

/-- Ring packets overwritten unread in Footpath, counted in one ERROR record a mark (R339). -/
def State.ringErrors (s : State) : State :=
  match s.cw.ringLost with
  | 0 => s
  | n + 1 =>
    let s := { s with cw := { s.cw with ringLost := 0 } }
    if s.inMode .footpath then s.writeError 0x08 0 0 0 (n + 1) else s

/-- Credits, banks, resets and the ring (R311, R327, R328, R330, R339). -/
def State.causewayAtMark (s : State) (chk : PointerCheck) : State :=
  ({ s with cw := { s.cw with accounts := s.cw.accounts.map Account.refill } }.retireDue.resetsAtMark chk).ringErrors

/-- What a Guest sees from this mark on, and the ACCEPTED messages of uplink Guests (R452). -/
def State.guestAtMark (s : State) (c : Nat) : State :=
  let due := (nth s.clients c).guestQ.takeWhile fun o => markLe o.release s.mark
  let accs := (nth s.clients c).accs.filter fun x => markLe x.1 s.mark
  let s := s.onClient c fun cl =>
    due.foldl Client.enqueue { cl with guestQ := cl.guestQ.drop due.length, accs := cl.accs.filter fun x => markLt s.mark x.1 }
  accs.foldl (fun s x => s.sendControl c false x.2) s

/-- The mailboxes and the host ports at a mark (R439, R452, R471). -/
def State.clientsAtMark (s : State) : State :=
  let s := (List.range 6).foldl State.guestAtMark s
  let s := { s with up := { s.up with
    clients := s.up.clients.mapIdx fun c (u : UpClient) => { u with guestBacklog := s.cw.backlog c } } }
  s.hostAtMark

/-- A mark in a mode that samples (R510): what the reads for roll-ups and for the ring copy found (R325), the changeovers,
what the islands do, the mark pass, the passes of the events that wait, the decision, and voltage and clock moves (R529). An
event offered later in the mark counts in the next decision, which the worked example of R520 places 100 µs after each mark
(DEDUCED, assumption-log row 73). Where the changeover is Layby entry, the commits of the image, the live straps and the plan
that fall at the same mark follow, and no pass. -/
def State.markAwake (s : State) (chk : PointerCheck) (before : Nat) : State :=
  let s := s.findings 1 noPacket chk.found
  let s := (s.calAtMark before).changeover.commitAtMark.livesAtMark
  if s.awake then
    let s := s.causewayAtMark chk
    let s := s.clientsAtMark.setOccurrences.pinsAtMark
    let s := if s.inMode .lane then s.modePads .lane else s
    (s.markPass.offerWaiting.takeDecision.takeMoves.tbgAtMark.settle).pump
  else s.tbgAtMark

/-! ### m0 (R523) -/

/-- What the mode at m0 samples, from m0 on (R31, R338). -/
def State.firstResumes (s : State) (im : Image) : State :=
  let fp := s.inMode .footpath
  let s := s.sampling 2 3 s.mark (im.streamTags fp)
  let s := s.samplingAt 2 3 (s.feFirst im fp (s.mark * markAcc))
  s.resumeProducts [] im

/-- The first commit after a start, at m0: the start hold begins, the mode is decided, the records that waited are written,
and sampling begins (R99, R508, R509, R523). -/
def State.firstCommit (s : State) (l : Load) (im : Image) : State :=
  let pre := s.cw.preM0
  let s := { s with cw := { s.cw with preM0 := [] } }.commitImage l im
  let made := s.cw.preM0
  let s := { s with cw := { s.cw with preM0 := [] } }.addHold { src := 6, level := .highway, ends := some (s.time.issued + 10240) }
  let m := s.wakeMode
  let s := { s with
    power := { s.power with phase := .running, ceiled := s.want.2, snap := s.snapNow 5 }
    roads := s.roads.map fun (rd : Road) => { rd with stopAt := s.now, cause := 3 }
    fe := { s.fe with poweredAt := s.now }
    mot := { s.mot with instant := 8 * s.mark } }
  let s := (s.setMode m).powerFor m
  let s := if m == .footpath then s.enterRing else s
  let s := (s.writePackets (pre ++ made)).writeModeChange 3 m
  (s.firstResumes im).settlePlan 3

/-- A mark between step 1 of start-up and m0, which it may be (R89, R523); before it a Guest's IDENTITY reply is released (R83, R452,
R524). -/
def State.markStarting (s : State) (chk : PointerCheck) : State :=
  match s.commitDue with
  | some (l, im) =>
    let s := (s.firstCommit l im).causewayAtMark chk
    (s.clientsAtMark.setOccurrences.pinsAtMark.markPass.offerWaiting.takeDecision.takeMoves.tbgAtMark.settle).pump
  | none => if s.straps.accepted then ((List.range 6).foldl State.guestAtMark s).tbgAtMark else s

/-! ### GRID_MARK (R510) -/

/-- GRID_MARK: TB-G reaches its next mark; the hub does what its state asks for there (R510). In Layby only the TIME island
works (R516). -/
def doGridMark (chk : PointerCheck) (s : State) : State :=
  if s.clocked then
    let before := s.mark
    let s := { s with time := s.time.atMark }.afterStep
    match s.power.phase with
    | .running => if s.awake then s.markAwake chk before else s.tbgAtMark
    | .starting => s.markStarting chk
    | _ => s
  else s

/-- GRID_MARK (R510). -/
def execGridMark (chk : PointerCheck) (s : State) : Result := .next (doGridMark chk s)

/-! ### REPORT_PERIOD (R259, R287, R312, R341, R393) -/

/-- REPORT_PERIOD: at a mark whose index is a multiple of 614,400, once: overdraft ERROR records and CAUSEWAY-REPORT, FE-FAULT,
one ROAD-REPORT for each enabled road, and TIME-STATE. -/
def doReportPeriod (s : State) : State :=
  if s.storing && s.mark % reportMarks == 0 && s.power.reported != s.mark then
    let s := { s with power := { s.power with reported := s.mark } }.cwPeriod
    let s := s.writePacket (s.feFault 1 0 s.mark)
    let s := { s with fe := s.fe.newPeriod }
    let s := (List.range s.roadsEnabled).foldl (fun s r => (s.roadReport r 1).onRoad r Road.newPeriod) s
    s.writeTime 0x01
  else s

/-- REPORT_PERIOD (R341). -/
def execReportPeriod (s : State) : Result := .next (doReportPeriod s)

end Sys2Proof.Machine
end

