-- ==== Sys2Proof/Machine/Start.lean ====
section
/-! DEFINITION. Reset and start-up (20_modes.md R522–R525, 22_pads_electrical.md R537, R546, 18_secrecy.md R479). -/

namespace Sys2Proof.Machine

/-! ### Supplies (R537) -/

/-- Number of a rail. -/
def railNo : Rail → Nat
  | .vmain => 0
  | .van => 1
  | .vioH => 2
  | .vioM => 3
  | .vkeep => 4
  | .vphy => 5

/-- Rising threshold of a rail in mV (R537). -/
def railRising : Rail → Nat
  | .vmain => 2950
  | .van => 4550
  | .vioH => 1620
  | .vioM => 1620
  | .vkeep => 2950
  | .vphy => 2950

/-- Falling threshold of a rail in mV (R537). -/
def railFalling : Rail → Nat
  | .vmain => 2850
  | .van => 4450
  | .vioH => 1550
  | .vioM => 1550
  | .vkeep => 2850
  | .vphy => 2850

/-! ### Reset (R30, R95, R315, R371, R480, R522, R525) -/

/-- The clocks through a reset: TB-G, its sources and both TB-N go on; the PPS edge is the rising one again, and scheduled
actions are gone (R371, R384). -/
def Time.afterReset (t : Time) : Time :=
  { t with acts := [], prevIdx := none, pps := { t.pps.setEdge false with pendLabels := [] } }

/-- What the MEMS measurements keep of a triad (R526, R532). -/
def Triad.afterReset (t : Triad) : Triad :=
  { Triad.init with resPpm := t.resPpm, qTenths := t.qTenths, moved := t.moved, resSettled := t.resSettled }

/-- A packet committed to spill stays there (R30, R365). -/
def spilledOnly (ps : List Packet) : List Packet :=
  (ps.filter fun (p : Packet) => p.page.isSome && p.isHeld).map fun p => { p with inCw := false }

/-- What the ageing planner keeps of a spill device: its wear (R526, R530, R532). -/
def SpillUnit.afterReset (u : SpillUnit) : SpillUnit := { u with state := 2, density := 0, blockPages := 0, spare := 0, ops := [] }

/-- The hub in reset (R522): fuses, time bases, the ageing planner's record, levels at the pads and what is in spill stay; the
memory die, the image and everything that the islands hold are gone. -/
def State.hardReset (s : State) : State :=
  { State.reset with
    pending := s.pending
    free := s.free
    fuses := s.fuses
    time := s.time.afterReset
    straps := { Straps.init with tripped := s.straps.tripped }
    port := { ImagePort.init with rel := s.port.rel, riseAt := s.port.riseAt }
    power := { Power.init with rails := s.power.rails, resetN := s.power.resetN, clkOk := s.power.clkOk,
                               wakePad := s.power.wakePad, exhausted := s.power.exhausted }
    cw := { Causeway.init with closed := spilledOnly s.cw.closed, gmp := s.cw.gmp }
    spill := { Spill.init with pages := s.spill.pages, used := s.spill.used, devs := s.spill.devs.map SpillUnit.afterReset, lostPages := s.spill.lostPages }
    mot := { Motion.init with triads := s.mot.triads.map Triad.afterReset }
    fe := { Fe.init with blank := s.fe.blank }
    pin := { Pin.init with input := s.pin.input }
    age := { s.age with snaps := [], bankSt := List.replicate 32 0
                        isl := s.age.isl.map fun (m : Margin) => { m with move := none } } }

/-- The hub goes into reset: where that takes the lock from PPS, the TIME-STATE record of it waits for the first commit (R99, R384,
R393). -/
def State.enterReset (s : State) : State :=
  let x := s.hardReset
  if x.time.pps.st == s.time.pps.st then x
  else { x with cw := { x.cw with preM0 := [recPacket 0x18 0xFF s.mark ({ s with time := x.time }.timeWords 0x04 s.mark 0)] } }

/-- The clocks as VKEEP is applied (R371): every time base at its start, TB-G at index 0; holdover, where STRAP5 lists a source,
counts from here. -/
def Time.applied (t : Time) : Time := { Time.init with ps := t.ps, lBase := t.ps, holdFrom := t.ps }

/-- The conditions of t = 0 (R522): every rail in range and RESET_N high. -/
def State.leaveReset (s : State) : State :=
  if s.power.phase == .inReset && s.power.resetN && s.power.rails.all id then
    { s with power := { s.power with phase := .clkWait } }
  else s

/-- RESET_RELEASE (R369, R522): RESET_N rises, from which TB-L counts, or a rail rises above its rising threshold. -/
def doResetRelease (dt : Nat) (why : Release) (s : State) : State :=
  let s := s.advance dt
  match why with
  | .resetN =>
    if s.power.resetN then s
    else { s with power := { s.power with resetN := true }, time := { s.time with lBase := s.time.ps } }.leaveReset
  | .rail r mv =>
    if railRising r < mv then
      let s := if r = .vkeep && !nth s.power.rails 4 then { s with time := s.time.applied } else s
      { s with power := { s.power with rails := s.power.rails.set (railNo r) true } }.leaveReset
    else s

/-- RESET_RELEASE (R522). -/
def execResetRelease (dt : Nat) (why : Release) (s : State) : Result := .next (doResetRelease dt why s)

/-- RESET_ASSERT (R546): a low of 10 µs resets the hub, one shorter than 1 µs does nothing, and whether one between resets is
not specified: a free choice. -/
def doResetAssert (lowNs : Nat) (s : State) : State :=
  let low (s : State) : State := s.enterReset
  let down (s : State) : State := { s with power := { s.power with resetN := false } }
  if 10000 ≤ lowNs then down (low s)
  else if lowNs < 1000 then s
  else
    let (hit, s) := s.takeBool
    if hit then down (low s) else s

/-- RESET_ASSERT (R546). -/
def execResetAssert (lowNs : Nat) (s : State) : Result := .next (doResetAssert lowNs s)

/-- RAIL_BROWNOUT (R371, R537): a rail below its falling threshold for 20 µs resets the hub; loss of VKEEP is a power-on reset,
which restarts every time base. -/
def doRailBrownout (r : Rail) (mv belowNs : Nat) (s : State) : State :=
  if mv < railFalling r ∧ 20000 ≤ belowNs then
    let s := s.enterReset
    let s := { s with power := { s.power with rails := s.power.rails.set (railNo r) false } }
    if r = .vkeep then { s with time := s.time.applied } else s
  else s

/-- RAIL_BROWNOUT (R537). -/
def execRailBrownout (r : Rail) (mv : Nat) (belowNs : Nat) (s : State) : Result := .next (doRailBrownout r mv belowNs s)

/-- CLK25_STOP (R546): a stop of 4 µs resets the hub; TB-G holds its index and fraction until CLK25 has run for 1 ms. -/
def doClk25Stop (stoppedNs : Nat) (s : State) : State :=
  if 4000 ≤ stoppedNs then
    let s := s.enterReset
    { s with power := { s.power with clkOk := false } }.leaveReset
  else s

/-- CLK25_STOP (R546). -/
def execClk25Stop (stoppedNs : Nat) (s : State) : Result := .next (doClk25Stop stoppedNs s)

/-! ### Start-up (R523) -/

/-- START_UP (R523, R531): CLK25 has run for 1 ms since t = 0. Fuses load, the ROM is checked, the islands come up (UPLINK only
once the straps allow it, R54), and the first slack measurements clear exhausted margins where every island has 4 % or more. -/
def doStartUp (clkRanNs : Nat) (slacks : List Nat) (s : State) : State :=
  if s.power.phase == .clkWait && decide (1000000 ≤ clkRanNs) then
    let good := slacks.all fun x => decide (400 ≤ x)
    let s := { s with power := { s.power with
      phase := .starting, clkOk := true, islands := (List.replicate 12 IslSt.running).set 7 .off
      exhausted := if good then 0 else s.power.exhausted } }
    s.measureSlack slacks
  else s

/-- START_UP (R523). -/
def execStartUp (clkRanNs : Nat) (slacks : List Nat) (s : State) : Result :=
  if slacks.length = 12 then .next (doStartUp clkRanNs slacks s) else .fault .illFormed

/-- MEMORY_DIE_INIT_DONE (R327, R523): every bank is tested and written; those that fail are retired. -/
def doMemoryDieInitDone (failing : List Nat) (s : State) : State :=
  if s.power.phase == .starting && !s.power.memDone then
    let s := failing.foldl (fun s b => s.retireBank b 1) s
    { s with power := { s.power with memDone := true, die := .active } }.nameCommit
  else s

/-- MEMORY_DIE_INIT_DONE (R523). -/
def execMemoryDieInitDone (failing : List Nat) (s : State) : Result :=
  if failing.all (· < 32) then .next (doMemoryDieInitDone failing s) else .fault .illFormed

/-- RNG_HEALTH_TEST (R460, R479): once the start-up tests pass, SESSION is drawn. -/
def doRngHealthTest (pass : Bool) (s : State) : State :=
  if pass && s.power.session.isNone && (s.power.phase == .starting || s.running) then
    { s with power := { s.power with session := some (Config.randomWord s.free) }, free := s.free + 1 }.nameCommit
  else s

/-- RNG_HEALTH_TEST (R479). -/
def execRngHealthTest (pass : Bool) (s : State) : Result := .next (doRngHealthTest pass s)

end Sys2Proof.Machine
end

