-- ==== Sys2Proof/Machine/Tap.lean ====
section
/-! DEFINITION. The test access port (22_pads_electrical.md R558, R559, 18_secrecy.md R481). -/

namespace Sys2Proof.Machine

/-- Test access is open: in commissioning and while a Service window is open, once the straps are read (R481). -/
def State.testOpen (s : State) : Bool := s.straps.accepted && s.serviceOpen

/-- Counter k of an uplink port (R418, R559), wrapping. -/
def UpPort.counter (p : UpPort) (k : Nat) : Word :=
  word (match k with
    | 0 => p.fcsErr
    | 1 => p.discards
    | 2 => p.unknown
    | 3 => p.arpConf
    | _ => p.skipped)

/-- Status of an island as DIAG_DATA shows it (R559). -/
def statusField : IslSt → Nat
  | .off => 0
  | .retention => 1
  | .waking => 2
  | .running => 3

/-- The word at a diagnostic address (R559). -/
def State.diagWord (s : State) (a : Nat) : Word :=
  if a ≤ 4 then (nth s.up.ports 0).counter a
  else if 0x0100 ≤ a ∧ a ≤ 0x0104 then (nth s.up.ports 1).counter (a - 0x0100)
  else if 0x1000 ≤ a ∧ a ≤ 0x100B then
    let i := a - 0x1000
    let m := nth s.age.isl i
    word (at_ (statusField (nth s.power.islands i)) 28 + at_ (m.point % 16) 24 + at_ (m.fstep % 16) 20)
  else if 0x2000 ≤ a ∧ a ≤ 0x200E then nth s.tap.sigs (if a < 0x2002 then a - 0x2000 else a - 0x1FFE)
  else 0

/-- DIAG_ADDR (R559): Update-DR loads the address. -/
def doDiagAddr (value : BitVec 16) (s : State) : State :=
  if s.testOpen then { s with tap := { s.tap with addr := value, ir := 0x8 } } else s

/-- DIAG_ADDR (R559). -/
def execDiagAddr (value : BitVec 16) (s : State) : Result := .next (doDiagAddr value s)

/-- DIAG_DATA (R559): Capture-DR takes the word at DIAG_ADDR, which then increases by 1. -/
def doDiagData (s : State) : State :=
  if s.testOpen then
    { s with tap := { s.tap with data := s.diagWord s.tap.addr.toNat, addr := s.tap.addr + 1, ir := 0x9 } }
  else s

/-- DIAG_DATA (R559). -/
def execDiagData (s : State) : Result := .next (doDiagData s)

/-- BYPASS (R559): the 1-bit register is selected; Capture-DR loads 0 (IEEE 1149.1). -/
def doBypass (s : State) : State :=
  if s.testOpen then { s with tap := { s.tap with ir := 0xF, bypass := false } } else s

/-- BYPASS (R559). -/
def execBypass (s : State) : Result := .next (doBypass s)

end Sys2Proof.Machine
end

