-- ==== Sys2Proof/Machine/Dispatch.lean ====
section
/-! DEFINITION. One arm per command: the meaning it is given. -/

namespace Sys2Proof.Machine

def exec (i : Instr) (s : State) : Host.Outcome State Fault Refusal :=
  match i with
  | .resetRelease dt why => Sys2Proof.Machine.execResetRelease dt why s
  | .resetAssert lowNs => Sys2Proof.Machine.execResetAssert lowNs s
  | .railBrownout r mv belowNs => Sys2Proof.Machine.execRailBrownout r mv belowNs s
  | .clk25Stop stoppedNs => Sys2Proof.Machine.execClk25Stop stoppedNs s
  | .startUp clkRanNs slacks => Sys2Proof.Machine.execStartUp clkRanNs slacks s
  | .memoryDieInitDone failing => Sys2Proof.Machine.execMemoryDieInitDone failing s
  | .rngHealthTest pass => Sys2Proof.Machine.execRngHealthTest pass s
  | .strapScan dt rs => Sys2Proof.Machine.execStrapScan dt rs s
  | .strapHold dt rs => Sys2Proof.Machine.execStrapHold dt rs s
  | .mode0Burst dt => Sys2Proof.Machine.execMode0Burst dt s
  | .strapRescan dt rs => Sys2Proof.Machine.execStrapRescan dt rs s
  | .liveStrapRead dt r12 r13 r14 => Sys2Proof.Machine.execLiveStrapRead dt r12 r13 r14 s
  | .supplyTrip mv belowNs => Sys2Proof.Machine.execSupplyTrip mv belowNs s
  | .supplyClear mv aboveNs => Sys2Proof.Machine.execSupplyClear mv aboveNs s
  | .busRelease dt => Sys2Proof.Machine.execBusRelease dt s
  | .imgrelRise dt => Sys2Proof.Machine.execImgrelRise dt s
  | .loadAttempt dt src dev => Sys2Proof.Machine.execLoadAttempt dt src dev s
  | .imageHoldRetry dt => Sys2Proof.Machine.execImageHoldRetry dt s
  | .islandReady island ok => Sys2Proof.Machine.execIslandReady island ok s
  | .reloadImage c => Sys2Proof.Machine.execReloadImage c s
  | .gridMark chk => Sys2Proof.Machine.execGridMark chk s
  | .laybyEntryDone dt chk => Sys2Proof.Machine.execLaybyEntryDone dt chk s
  | .reportPeriod => Sys2Proof.Machine.execReportPeriod s
  | .inertialInstant triads => Sys2Proof.Machine.execInertialInstant triads s
  | .triadFault src code => Sys2Proof.Machine.execTriadFault src code s
  | .triadFaultClear dt src => Sys2Proof.Machine.execTriadFaultClear dt src s
  | .triadSettled dt src => Sys2Proof.Machine.execTriadSettled dt src s
  | .feBlankAssert dt => Sys2Proof.Machine.execFeBlankAssert dt s
  | .feBlankRelease dt => Sys2Proof.Machine.execFeBlankRelease dt s
  | .blankGuardEnd dt => Sys2Proof.Machine.execBlankGuardEnd dt s
  | .strapdownSample => Sys2Proof.Machine.execStrapdownSample s
  | .calBlockEnd dt ch => Sys2Proof.Machine.execCalBlockEnd dt ch s
  | .calUpdate ch => Sys2Proof.Machine.execCalUpdate ch s
  | .recordPeriodEnd => Sys2Proof.Machine.execRecordPeriodEnd s
  | .waveRecordWrite => Sys2Proof.Machine.execWaveRecordWrite s
  | .heaveStats => Sys2Proof.Machine.execHeaveStats s
  | .feCalStepDue dt ch gain => Sys2Proof.Machine.execFeCalStepDue dt ch gain s
  | .calRestore c => Sys2Proof.Machine.execCalRestore c s
  | .calRestoreTimeout dt => Sys2Proof.Machine.execCalRestoreTimeout dt s
  | .slam => Sys2Proof.Machine.execSlam s
  | .crest => Sys2Proof.Machine.execCrest s
  | .drop => Sys2Proof.Machine.execDrop s
  | .capsize => Sys2Proof.Machine.execCapsize s
  | .tilt => Sys2Proof.Machine.execTilt s
  | .drift => Sys2Proof.Machine.execDrift s
  | .eventPass => Sys2Proof.Machine.execEventPass s
  | .feConversionStart dt ch kind => Sys2Proof.Machine.execFeConversionStart dt ch kind s
  | .feConversionEnd dt ch r => Sys2Proof.Machine.execFeConversionEnd dt ch r s
  | .feTrigEdge dt => Sys2Proof.Machine.execFeTrigEdge dt s
  | .complianceTrip dt ch => Sys2Proof.Machine.execComplianceTrip dt ch s
  | .clampEvent pin nanoamp => Sys2Proof.Machine.execClampEvent pin nanoamp s
  | .roadStart r => Sys2Proof.Machine.execRoadStart r s
  | .markLaunch r => Sys2Proof.Machine.execMarkLaunch r s
  | .slotFrame r pos rx => Sys2Proof.Machine.execSlotFrame r pos rx s
  | .echoFrame r rx => Sys2Proof.Machine.execEchoFrame r rx s
  | .enumReply r rx => Sys2Proof.Machine.execEnumReply r rx s
  | .ackFrame r before groups arrive after => Sys2Proof.Machine.execAckFrame r before groups arrive after s
  | .echoWindowEnd r => Sys2Proof.Machine.execEchoWindowEnd r s
  | .nodeLost r pos => Sys2Proof.Machine.execNodeLost r pos s
  | .delayCycleEnd r => Sys2Proof.Machine.execDelayCycleEnd r s
  | .packetOpen req => Sys2Proof.Machine.execPacketOpen req s
  | .packetClose tag => Sys2Proof.Machine.execPacketClose tag s
  | .rewindTakeEffect rd => Sys2Proof.Machine.execRewindTakeEffect rd s
  | .flushTakeEffect rd => Sys2Proof.Machine.execFlushTakeEffect rd s
  | .scrub findings => Sys2Proof.Machine.execScrub findings s
  | .reductionRelease job => Sys2Proof.Machine.execReductionRelease job s
  | .reductionComplete job => Sys2Proof.Machine.execReductionComplete job s
  | .spillPageCommit stream => Sys2Proof.Machine.execSpillPageCommit stream s
  | .spillDeviceFail dev cause => Sys2Proof.Machine.execSpillDeviceFail dev cause s
  | .spillRollup => Sys2Proof.Machine.execSpillRollup s
  | .spillDiscoveryDone devs journal => Sys2Proof.Machine.execSpillDiscoveryDone devs journal s
  | .ptpAnnounce domain m => Sys2Proof.Machine.execPtpAnnounce domain m s
  | .ptpSync dt domain m => Sys2Proof.Machine.execPtpSync dt domain m s
  | .ptpFollowUp dt domain m => Sys2Proof.Machine.execPtpFollowUp dt domain m s
  | .ptpDelayReq dt domain => Sys2Proof.Machine.execPtpDelayReq dt domain s
  | .ptpDelayResp src seq receiveTime correction logInterval => Sys2Proof.Machine.execPtpDelayResp src seq receiveTime correction logInterval s
  | .announceReceiptTimeout dt domain => Sys2Proof.Machine.execAnnounceReceiptTimeout dt domain s
  | .syncTimeout dt domain => Sys2Proof.Machine.execSyncTimeout dt domain s
  | .ppsEdge dt rising widthNs => Sys2Proof.Machine.execPpsEdge dt rising widthNs s
  | .ppsTimeout dt => Sys2Proof.Machine.execPpsTimeout dt s
  | .scheduledActionDue dt index chk => Sys2Proof.Machine.execScheduledActionDue dt index chk s
  | .linkUp port partner => Sys2Proof.Machine.execLinkUp port partner s
  | .linkDown port => Sys2Proof.Machine.execLinkDown port s
  | .frameReceive dt port f => Sys2Proof.Machine.execFrameReceive dt port f s
  | .macAgeOut dt index => Sys2Proof.Machine.execMacAgeOut dt index s
  | .arpReceive port f => Sys2Proof.Machine.execArpReceive port f s
  | .arpRetry dt c => Sys2Proof.Machine.execArpRetry dt c s
  | .arpRefresh dt c => Sys2Proof.Machine.execArpRefresh dt c s
  | .icmpEcho dt port f => Sys2Proof.Machine.execIcmpEcho dt port f s
  | .controlDatagram port f => Sys2Proof.Machine.execControlDatagram port f s
  | .streamDatagram dt c findings => Sys2Proof.Machine.execStreamDatagram dt c findings s
  | .heartbeat dt c => Sys2Proof.Machine.execHeartbeat dt c s
  | .hselFall dt findings => Sys2Proof.Machine.execHselFall dt findings s
  | .hselRise dt edges hsdi => Sys2Proof.Machine.execHselRise dt edges hsdi s
  | .twRead dt addr bytesRead ending findings => Sys2Proof.Machine.execTwRead dt addr bytesRead ending findings s
  | .twWrite dt addr bytes ending => Sys2Proof.Machine.execTwWrite dt addr bytes ending s
  | .twStretchEnd dt => Sys2Proof.Machine.execTwStretchEnd dt s
  | .twRepeatedStart => Sys2Proof.Machine.execTwRepeatedStart s
  | .twBusTimeout dt => Sys2Proof.Machine.execTwBusTimeout dt s
  | .fragmentTimeout dt c => Sys2Proof.Machine.execFragmentTimeout dt c s
  | .attentionCall dt out => Sys2Proof.Machine.execAttentionCall dt out s
  | .attnRetry dt out => Sys2Proof.Machine.execAttnRetry dt out s
  | .twWakeMatch dt addr read chk => Sys2Proof.Machine.execTwWakeMatch dt addr read chk s
  | .wakePadRise dt highNs chk => Sys2Proof.Machine.execWakePadRise dt highNs chk s
  | .wakePadFall dt => Sys2Proof.Machine.execWakePadFall dt s
  | .dropComparator dt chk => Sys2Proof.Machine.execDropComparator dt chk s
  | .capsizeComparator dt chk => Sys2Proof.Machine.execCapsizeComparator dt chk s
  | .holdExpiry dt => Sys2Proof.Machine.execHoldExpiry dt s
  | .messageAccept c => Sys2Proof.Machine.execMessageAccept c s
  | .where_ c => Sys2Proof.Machine.execWhere c s
  | .ack c => Sys2Proof.Machine.execAck c s
  | .rewind c => Sys2Proof.Machine.execRewind c s
  | .flush c => Sys2Proof.Machine.execFlush c s
  | .vote c => Sys2Proof.Machine.execVote c s
  | .lockDecision => Sys2Proof.Machine.execLockDecision s
  | .lockLeaseEnd dt lock => Sys2Proof.Machine.execLockLeaseEnd dt lock s
  | .calRead c => Sys2Proof.Machine.execCalRead c s
  | .identity c => Sys2Proof.Machine.execIdentity c s
  | .marginRead c => Sys2Proof.Machine.execMarginRead c s
  | .serviceWindow c => Sys2Proof.Machine.execServiceWindow c s
  | .serviceWindowEnd dt => Sys2Proof.Machine.execServiceWindowEnd dt s
  | .ppsLabel c => Sys2Proof.Machine.execPpsLabel c s
  | .launch c => Sys2Proof.Machine.execLaunch c s
  | .pinSet e => Sys2Proof.Machine.execPinSet e s
  | .pinOut e => Sys2Proof.Machine.execPinOut e s
  | .pinIn e => Sys2Proof.Machine.execPinIn e s
  | .pinPull e => Sys2Proof.Machine.execPinPull e s
  | .pinPush e => Sys2Proof.Machine.execPinPush e s
  | .pinWait dt e => Sys2Proof.Machine.execPinWait dt e s
  | .pinJmp e => Sys2Proof.Machine.execPinJmp e s
  | .pinMov e => Sys2Proof.Machine.execPinMov e s
  | .pinFlag e => Sys2Proof.Machine.execPinFlag e s
  | .pinStamp dt e => Sys2Proof.Machine.execPinStamp dt e s
  | .reservedOpHalt e => Sys2Proof.Machine.execReservedOpHalt e s
  | .txhFill e => Sys2Proof.Machine.execTxhFill e s
  | .rxhDrain e => Sys2Proof.Machine.execRxhDrain e s
  | .rxIdleClose e => Sys2Proof.Machine.execRxIdleClose e s
  | .slackMeasurement slacks => Sys2Proof.Machine.execSlackMeasurement slacks s
  | .retentionTest tret => Sys2Proof.Machine.execRetentionTest tret s
  | .memsResonanceTest src resPpm qTenths => Sys2Proof.Machine.execMemsResonanceTest src resPpm qTenths s
  | .lifeHour meanCaseC dieMaxC => Sys2Proof.Machine.execLifeHour meanCaseC dieMaxC s
  | .diagAddr value => Sys2Proof.Machine.execDiagAddr value s
  | .diagData => Sys2Proof.Machine.execDiagData s
  | .bypass => Sys2Proof.Machine.execBypass s
  | .egressPortFree port => Sys2Proof.Machine.execEgressPortFree port s
  | .islandRunning dt island => Sys2Proof.Machine.execIslandRunning dt island s
  | .padLevelChange pad high => Sys2Proof.Machine.execPadLevelChange pad high s
  | .spillPageReadback dev symbols eraseSlow eraseTime eraseCount => Sys2Proof.Machine.execSpillPageReadback dev symbols eraseSlow eraseTime eraseCount s

end Sys2Proof.Machine
end

