-- ==== Sys2Proof/WellFormed.lean ====
section
/-! DEFINITION. Which commands are well formed: those whose operands name something of the interface. The types of the
operands bound most of them (a client, a road, a port); what is left are the lengths of the lists that the world brings
and two codes. A meaning faults on every other term (Sys2Proof.Machine.Fault.illFormed). -/

namespace Sys2Proof

/-- A command is well formed: sixteen strap readings (02_straps.md R40), six triads (04_inertial.md R104),
twelve islands' slacks and 32 banks (21_ageing.md R526), and a spill failure
of the table's causes 1 to 3 (13_placement.md R366). -/
def Instr.wf : Instr → Bool
  | .startUp _ slacks => slacks.length == 12
  | .memoryDieInitDone failing => failing.all (· < 32)
  | .strapScan _ rs => rs.length == 16
  | .strapHold _ rs => rs.length == 16
  | .strapRescan _ rs => rs.length == 16
  | .inertialInstant triads => triads.length == 6
  | .calBlockEnd .. => true
  | .spillDeviceFail _ cause => decide (1 ≤ cause.val) && decide (cause.val ≤ 3)
  | .slackMeasurement slacks => slacks.length == 12
  | .retentionTest tret => tret.length == 32
  | .resetRelease .. => true
  | .resetAssert .. => true
  | .railBrownout .. => true
  | .clk25Stop .. => true
  | .rngHealthTest .. => true
  | .mode0Burst .. => true
  | .liveStrapRead .. => true
  | .supplyTrip .. => true
  | .supplyClear .. => true
  | .busRelease .. => true
  | .imgrelRise .. => true
  | .loadAttempt .. => true
  | .imageHoldRetry .. => true
  | .islandReady .. => true
  | .reloadImage .. => true
  | .gridMark .. => true
  | .laybyEntryDone .. => true
  | .reportPeriod => true
  | .triadFault .. => true
  | .triadFaultClear .. => true
  | .triadSettled .. => true
  | .feBlankAssert .. => true
  | .feBlankRelease .. => true
  | .blankGuardEnd .. => true
  | .strapdownSample => true
  | .calUpdate .. => true
  | .recordPeriodEnd => true
  | .waveRecordWrite => true
  | .heaveStats => true
  | .feCalStepDue .. => true
  | .calRestore .. => true
  | .calRestoreTimeout .. => true
  | .slam => true
  | .crest => true
  | .drop => true
  | .capsize => true
  | .tilt => true
  | .drift => true
  | .eventPass => true
  | .feConversionStart .. => true
  | .feConversionEnd .. => true
  | .feTrigEdge .. => true
  | .complianceTrip .. => true
  | .clampEvent .. => true
  | .roadStart .. => true
  | .markLaunch .. => true
  | .slotFrame .. => true
  | .echoFrame .. => true
  | .enumReply .. => true
  | .ackFrame .. => true
  | .echoWindowEnd .. => true
  | .nodeLost .. => true
  | .delayCycleEnd .. => true
  | .packetOpen .. => true
  | .packetClose .. => true
  | .rewindTakeEffect .. => true
  | .flushTakeEffect .. => true
  | .scrub .. => true
  | .reductionRelease .. => true
  | .reductionComplete .. => true
  | .spillPageCommit .. => true
  | .spillRollup => true
  | .spillDiscoveryDone .. => true
  | .ptpAnnounce .. => true
  | .ptpSync .. => true
  | .ptpFollowUp .. => true
  | .ptpDelayReq .. => true
  | .ptpDelayResp .. => true
  | .announceReceiptTimeout .. => true
  | .syncTimeout .. => true
  | .ppsEdge .. => true
  | .ppsTimeout .. => true
  | .scheduledActionDue .. => true
  | .linkUp .. => true
  | .linkDown .. => true
  | .frameReceive .. => true
  | .macAgeOut .. => true
  | .arpReceive .. => true
  | .arpRetry .. => true
  | .arpRefresh .. => true
  | .icmpEcho .. => true
  | .controlDatagram .. => true
  | .streamDatagram .. => true
  | .heartbeat .. => true
  | .hselFall .. => true
  | .hselRise .. => true
  | .twRead .. => true
  | .twWrite .. => true
  | .twStretchEnd .. => true
  | .twRepeatedStart => true
  | .twBusTimeout .. => true
  | .fragmentTimeout .. => true
  | .attentionCall .. => true
  | .attnRetry .. => true
  | .twWakeMatch .. => true
  | .wakePadRise .. => true
  | .wakePadFall .. => true
  | .dropComparator .. => true
  | .capsizeComparator .. => true
  | .holdExpiry .. => true
  | .messageAccept .. => true
  | .where_ .. => true
  | .ack .. => true
  | .rewind .. => true
  | .flush .. => true
  | .vote .. => true
  | .lockDecision => true
  | .lockLeaseEnd .. => true
  | .calRead .. => true
  | .identity .. => true
  | .marginRead .. => true
  | .serviceWindow .. => true
  | .serviceWindowEnd .. => true
  | .ppsLabel .. => true
  | .launch .. => true
  | .pinSet .. => true
  | .pinOut .. => true
  | .pinIn .. => true
  | .pinPull .. => true
  | .pinPush .. => true
  | .pinWait .. => true
  | .pinJmp .. => true
  | .pinMov .. => true
  | .pinFlag .. => true
  | .pinStamp .. => true
  | .reservedOpHalt .. => true
  | .txhFill .. => true
  | .rxhDrain .. => true
  | .rxIdleClose .. => true
  | .memsResonanceTest .. => true
  | .lifeHour .. => true
  | .diagAddr .. => true
  | .diagData => true
  | .bypass => true
  | .egressPortFree .. => true
  | .islandRunning .. => true
  | .padLevelChange .. => true
  | .spillPageReadback .. => true

end Sys2Proof
end

