-- ==== Sys2Proof/Safety.lean ====
section
/-! DEFINITION. The terms in which the statements speak: the parts of the state, what a command leaves alone, and what a
legal state is. -/

namespace Sys2Proof.Machine

/-- The parts of the state that a command can write: all of it but the queue. -/
inductive Part where
  | free | power | time | fuses | straps | port | cw | spill | red | mot | prod | way | fe | roads | up | hs | tw
  | attn | clients | locks | pin | age | tap
  deriving DecidableEq, Repr

/-- A part is the same in two states. -/
def Part.same (p : Part) (s t : State) : Prop :=
  match p with
  | .free => t.free = s.free
  | .power => t.power = s.power
  | .time => t.time = s.time
  | .fuses => t.fuses = s.fuses
  | .straps => t.straps = s.straps
  | .port => t.port = s.port
  | .cw => t.cw = s.cw
  | .spill => t.spill = s.spill
  | .red => t.red = s.red
  | .mot => t.mot = s.mot
  | .prod => t.prod = s.prod
  | .way => t.way = s.way
  | .fe => t.fe = s.fe
  | .roads => t.roads = s.roads
  | .up => t.up = s.up
  | .hs => t.hs = s.hs
  | .tw => t.tw = s.tw
  | .attn => t.attn = s.attn
  | .clients => t.clients = s.clients
  | .locks => t.locks = s.locks
  | .pin => t.pin = s.pin
  | .age => t.age = s.age
  | .tap => t.tap = s.tap

/-- From s to t nothing changes but the listed parts; the queue does not change. -/
def OnlyWrites (ps : List Part) (s t : State) : Prop := t.pending = s.pending ∧ ∀ p, p ∉ ps → p.same s t

/-- The clocks are the same in two states, but for the egress timestamps that an own PTP message leaves in a domain (R380). -/
def SameClocks (s t : State) : Prop :=
  t.time = { s.time with n := t.time.n } ∧ t.time.n.length = s.time.n.length ∧
  ∀ x, nth t.time.n x = { nth s.time.n x with t3 := (nth t.time.n x).t3 }

/-- From s to t nothing changes but the listed parts and, of the clocks, the egress timestamps of own PTP messages: what a
command may do that lets waiting frames leave. -/
def OnlySends (ps : List Part) (s t : State) : Prop := OnlyWrites (.time :: ps) s t ∧ SameClocks s t

/-- No fuse of the first is unblown in the second (18_secrecy.md R475, 02_straps.md R67, 03_route_image.md R87). -/
def Fuses.stay (f g : Fuses) : Prop :=
  (∀ h, f.keyHash = some h → g.keyHash = some h) ∧ (f.sealBlown = true → g.sealBlown = true) ∧ f.rollback ≤ g.rollback

/-- TB-G's rate correction, now and at the marks that a holdover averages over, is at most 1 ppm either way (14_time.md
R373). -/
def Time.rateOk (t : Time) : Prop :=
  (-1000000 ≤ t.gRate ∧ t.gRate ≤ 1000000) ∧ ∀ r ∈ t.rates, -1000000 ≤ r ∧ r ≤ 1000000

/-- A scan that ends the wait for the reset-time set: it agrees with the scan before it on every strap of the set (R40). -/
def scanAccepts (prev : Option (List (Option Nat))) (rs : List StrapReading) : Bool :=
  match prev with
  | some p => resetStraps.all (agreeing p ((List.range 16).map (scanCode rs)))
  | none => false

/-- An engine's registers after n executions of a JMP with a condition, the pads as they are. -/
def jmpPasses (p : Pin) (en : PinEng) (cond : Nat) : Nat → PinSt → PinSt
  | 0, st => st
  | n + 1, st => jmpPasses p en cond n (jmpTaken p en st cond).2

/-- The packet that closed last has this source tag and these payload words. -/
def State.closedLast (s : State) (tag : Word) (ws : List Word) : Prop :=
  ∃ q, s.cw.closed.getLast? = some q ∧ q.tag = tag ∧ q.words = ws

/-- Packets close into the Causeway now: the hub stores, in Highway or Lane (R308). -/
def State.intoCauseway (s : State) : Prop := s.storing = true ∧ s.full = true

/-- The source tag of a record of a kind (R334). -/
def recTag (kind : Nat) : Word := srcTag 6 0 0 0 kind 0xFF

/-- A frame has gone to an uplink port: it is on the wire or waits (R399). -/
def State.sentOn (s : State) (p : Nat) (e : Egress) : Prop :=
  (nth s.up.ports p).tx = some e ∨ e ∈ (nth s.up.ports p).queue

/-- Message m of a TYPE is the oldest of client c's work, and steps 4 to 8 of R449 let it run now. -/
def State.runs (s : State) (c typ : Nat) (m : List Word) : Prop :=
  c < s.clients.length ∧ msgType m = typ ∧ s.gate c m = .go ∧ ∃ a rest, (nth s.clients c).work = (m, a) :: rest

/-- The oldest message of client c's work has left it. -/
def worked (s t : State) (c : Nat) : Prop := (nth t.clients c).work = (nth s.clients c).work.drop 1

/-- The uplink port of a scheduled action's launch entry (R391, R415). -/
def State.actPort (s : State) (a : Action) : Nat :=
  match s.launchEntry a.entry with
  | some l => l.port
  | none => 0

/-- What the checks of a wake give when every bank is good. -/
def allGood : WakeCheck := { sigs := [], lines := [] }

/-- A step goes on: it answers a next state. -/
def goesOn (s : State) : Prop := ∃ t, step s = .next t

end Sys2Proof.Machine
end

