-- ==== Sys2Proof/Certificates/Slice0/Obligations.lean ====
section
/-! DEFINITION. The statements for the provers. A statement about a command's own effect concludes that exec answers a next
state and says what that state holds; OnlyWrites is its frame. -/

open Sys2Proof Sys2Proof.Machine

/-! ### The whole machine -/

/-- A step runs the command at the front of the queue, with the queue's rest. -/
def Obligations.StepRunsFront : Prop := ∀ (c : Instr) (s : State), step { s with pending := c :: s.pending } = exec c s

/-- A command's effect leaves the queue alone; on an empty queue the block idles, which is the model's choice (assumption-log
row 8). -/
def Obligations.QueueKept : Prop :=
  (∀ s : State, s.pending = [] → step s = .next s) ∧
  (∀ (c : Instr) (s t : State), exec c s = .next t → t.pending = s.pending)

/-- Every well-formed command completes, and every other one faults; none is refused. -/
def Obligations.WellFormedCompletes : Prop :=
  ∀ (c : Instr) (s : State), (c.wf = true → ∃ t, exec c s = .next t) ∧ (c.wf = false → exec c s = .fault .illFormed)

/-- A blown fuse stays blown: no command clears the Keeper key hash or the seal fuse, changes a fused hash, or lowers the
rollback count (R475: the fused hash can never be changed or cleared; R67: the fuse cannot be unblown). -/
def Obligations.FusesStay : Prop := ∀ (c : Instr) (s t : State), exec c s = .next t → s.fuses.stay t.fuses

/-- The image in force changes at a grid mark or in a reset, and by no other command (01_journey.md R20, R89, R522). -/
def Obligations.ImageChangesAtMarks : Prop :=
  ∀ (c : Instr) (s t : State), exec c s = .next t →
    (∀ chk, c ≠ .gridMark chk) → (∀ n, c ≠ .resetAssert n) → (∀ r mv n, c ≠ .railBrownout r mv n) →
    (∀ n, c ≠ .clk25Stop n) → t.port.inForce = s.port.inForce

/-- The mode in force changes at a grid mark, at the end of a wake and in a reset, and by no other command (R509, R515, R518,
R522). -/
def Obligations.ModeChangesAtMarks : Prop :=
  ∀ (c : Instr) (s t : State), exec c s = .next t →
    (∀ chk, c ≠ .gridMark chk) → (∀ dt i, c ≠ .islandRunning dt i) → (∀ n, c ≠ .resetAssert n) →
    (∀ r mv n, c ≠ .railBrownout r mv n) → (∀ n, c ≠ .clk25Stop n) → t.power.mode = s.power.mode

/-- TB-G's rate correction stays within 1 ppm of CLK25 (R373), with the corrections that a holdover averages over. -/
def Obligations.RateStays : Prop := ∀ (c : Instr) (s t : State), s.time.rateOk → exec c s = .next t → t.time.rateOk

/-- The rate correction is 0 after a power-on reset (R371). -/
def Obligations.RateAtReset : Prop := State.reset.time.gRate = 0 ∧ State.reset.time.rateOk

/-- What the rules give the hub after reset: no fuse blown on a new hub is the model's choice (assumption-log row 1); TB-G at
index 0 with a rate correction of 0 (R371), MODE0 and MODE1 low and no mode decided (R512), every reader at milepost 0 with
its cursor at 1 (R314), every control milepost at its start (R454), no lock held (R462), no flag set (R192), every pad an
input (R492), no image in force, and the queue empty. -/
def Obligations.ResetState : Prop :=
  State.reset.pending = [] ∧ State.reset.time.gIdx = 0 ∧ State.reset.time.gRate = 0 ∧ State.reset.power.mode = none ∧
  State.reset.power.mode0 = false ∧ State.reset.power.mode1 = false ∧
  State.reset.cw.readers.length = 11 ∧ (∀ r ∈ State.reset.cw.readers, r.count = 0 ∧ r.next = 1) ∧
  State.reset.clients.length = 6 ∧ (∀ c ∈ State.reset.clients, c.nextIn = none ∧ c.nextOut = 1 ∧ c.kfloor = none) ∧
  (∀ l ∈ State.reset.locks, l.holder = none) ∧ State.reset.way.flags = 0 ∧ State.reset.pin.dir = 0 ∧
  State.reset.port.inForce = none

/-! ### Reset and start-up (20_modes.md R522–R525, 22_pads_electrical.md R537, R546, 18_secrecy.md R479) -/

/-- RESET_N rising sets the point from which TB-L counts, a rail that rises above its rising threshold counts as in range, VKEEP
applied starts TB-G at index 0 with a rate correction of 0 (R371), and with RESET_N high and every rail in range CLK25 is waited for (R369, R522, R537); with CLK25 running for 1 ms the islands
come up, UPLINK only once its strap is known to leave a port (R54, R523); memory die initialisation retires the banks that
failed, with cause 1; and once the random source passes, SESSION is a draw of it (R327, R460, R479, R523). -/
def Obligations.StartsUp : Prop :=
  (∀ dt s, s.power.resetN = false → ∃ t, exec (.resetRelease dt .resetN) s = .next t ∧ t.power.resetN = true ∧
      t.time.lBase = t.time.ps ∧ t.time.ps = s.time.ps + dt ∧
      (s.power.phase = .inReset → s.power.rails.all id = true → t.power.phase = .clkWait) ∧
      OnlyWrites [.power, .time] s t) ∧
  (∀ dt r mv s, railRising r < mv → ∃ t, exec (.resetRelease dt (.rail r mv)) s = .next t ∧
      t.power.rails = s.power.rails.set (railNo r) true ∧
      (r = .vkeep → nth s.power.rails 4 = false → t.time.gIdx = 0 ∧ t.time.gRate = 0) ∧
      (s.power.phase = .inReset → s.power.resetN = true → t.power.rails.all id = true → t.power.phase = .clkWait) ∧
      OnlyWrites [.power, .time] s t) ∧
  (∀ ran slacks s, s.power.phase = .clkWait → 1000000 ≤ ran → slacks.length = 12 →
    ∃ t, exec (.startUp ran slacks) s = .next t ∧ t.power.phase = .starting ∧ t.power.clkOk = true ∧
      t.power.islands = (List.replicate 12 IslSt.running).set 7 .off ∧ OnlyWrites [.power, .age] s t) ∧
  (∀ failing s, s.power.phase = .starting → s.power.memDone = false → (∀ b ∈ failing, b < 32) →
    ∃ t, exec (.memoryDieInitDone failing) s = .next t ∧ t.power.memDone = true ∧ (∀ b ∈ failing, b ∈ t.cw.retired) ∧
      OnlyWrites [.power, .port, .cw, .way, .age] s t) ∧
  (∀ s, s.power.session = none → (s.power.phase = .starting ∨ s.power.phase = .running) →
    ∃ t, exec (.rngHealthTest true) s = .next t ∧ t.power.session = some (Config.randomWord s.free) ∧
      OnlyWrites [.free, .power, .port] s t)

/-- What a reset leaves: RESET_N low for 10 µs, a rail below its falling threshold for 20 µs, CLK25 stopped for 4 µs. No image
is in force, and after a reset by RESET_N or by CLK25 no mode; the fuses and TB-G's index stay, after RESET_N also TB-G's rate
and the pages in spill, with the completion ring empty; loss of VKEEP restarts TB-G at index 0 with a rate correction of 0. A
low of RESET_N below 1 µs changes nothing (R30, R371, R522, R537, R546). -/
def Obligations.Resets : Prop :=
  (∀ low s, 10000 ≤ low → ∃ t, exec (.resetAssert low) s = .next t ∧ t.power.resetN = false ∧ t.power.phase = .inReset ∧
      t.port.inForce = none ∧ t.power.mode = none ∧ t.fuses = s.fuses ∧ t.time.gIdx = s.time.gIdx ∧
      t.time.gRate = s.time.gRate ∧ t.spill.pages = s.spill.pages ∧ t.cw.ring = [] ∧ t.pending = s.pending) ∧
  (∀ low s, low < 1000 → exec (.resetAssert low) s = .next s) ∧
  (∀ r mv below s, mv < railFalling r → 20000 ≤ below → ∃ t, exec (.railBrownout r mv below) s = .next t ∧
      t.power.rails = s.power.rails.set (railNo r) false ∧ t.power.phase = .inReset ∧ t.port.inForce = none ∧
      t.fuses = s.fuses ∧ t.time.gIdx = (if r = .vkeep then 0 else s.time.gIdx) ∧
      t.time.gRate = (if r = .vkeep then 0 else s.time.gRate) ∧ t.pending = s.pending) ∧
  (∀ stopped s, 4000 ≤ stopped → ∃ t, exec (.clk25Stop stopped) s = .next t ∧ t.power.clkOk = false ∧
      t.port.inForce = none ∧ t.power.mode = none ∧ t.fuses = s.fuses ∧ t.time.gIdx = s.time.gIdx ∧ t.pending = s.pending)

/-! ### Straps and the supply comparator (02_straps.md) -/

/-- STRAP_SCAN, STRAP_HOLD and MODE0_BURST: a scan leaves its readings; one that agrees with the scan before it on a valid,
unreserved code of every reset-time strap puts those codes in force and begins the image load (R40); 100 ms after the first
scan without that the hub is in strap hold, with MODE1 high (R41); and each burst in it has n + 1 pulses, n the lowest strap
that failed (R41). -/
def Obligations.StrapsScan : Prop :=
  (∀ dt rs s, rs.length = 16 → s.power.phase = .starting → s.straps.accepted = false → s.straps.hold = false →
    ∃ t, exec (.strapScan dt rs) s = .next t ∧ t.straps.readings = rs.map StrapReading.raw ∧
      t.straps.prev = some ((List.range 16).map (scanCode rs)) ∧ t.straps.accepted = scanAccepts s.straps.prev rs ∧
      (∀ p, s.straps.prev = some p → scanAccepts s.straps.prev rs = true →
        t.straps.codes = acceptedCodes p ((List.range 16).map (scanCode rs)) ∧ t.port.load = some (newLoad 1 none)) ∧
      OnlyWrites [.power, .time, .straps, .port] s t) ∧
  (∀ dt rs s f, rs.length = 16 → s.power.phase = .starting → s.straps.accepted = false → s.straps.firstScan = some f →
    f + msPs 100 ≤ s.now + dt →
    ∃ t, exec (.strapHold dt rs) s = .next t ∧ t.straps.accepted = scanAccepts s.straps.prev rs ∧
      t.straps.hold = !scanAccepts s.straps.prev rs ∧ t.straps.readings = rs.map StrapReading.raw ∧
      (s.straps.hold = false → t.power.mode1 = !scanAccepts s.straps.prev rs ∧ t.straps.holdFrom = s.now + dt) ∧
      OnlyWrites [.power, .time, .straps, .port] s t) ∧
  (∀ dt s, s.straps.hold = true → ∃ t, exec (.mode0Burst dt) s = .next t ∧ t.straps.pulses = s.straps.failed + 1 ∧
      OnlyWrites [.time, .straps] s t)

/-- A rescan puts its codes in place of the result before it and changes no code in force; where the result is the one before,
nothing else changes (R43). The third agreeing triple of the live straps that differs from the committed one waits to be
committed, and an invalid reading breaks the run (R44, R45). The supply comparator trips when VMAIN has stayed below the
selected threshold for 10 ms, and clears when it has stayed above it plus 150 mV for 1 s (R57). -/
def Obligations.StrapsReread : Prop :=
  (∀ dt rs s, rs.length = 16 → s.awake = true → ∃ t, exec (.strapRescan dt rs) s = .next t ∧
      t.straps.rescan = resetStraps.map (scanCode rs) ∧ t.straps.codes = s.straps.codes ∧
      (resetStraps.map (scanCode rs) = s.straps.rescan → OnlyWrites [.time, .straps] s t) ∧
      OnlyWrites [.time, .straps, .cw, .way] s t) ∧
  (∀ dt r12 r13 r14 a b c s, s.awake = true → strapCode r12 = some a → strapCode r13 = some b → strapCode r14 = some c →
    strapReserved 12 a = false → [a, b, c] ≠ s.straps.triple → s.straps.liveRun = some ([a, b, c], 2) →
    ∃ t, exec (.liveStrapRead dt r12 r13 r14) s = .next t ∧ t.straps.livePend = some [a, b, c] ∧
      t.straps.codes = s.straps.codes ∧ OnlyWrites [.time, .straps] s t) ∧
  (∀ dt r12 r13 r14 s, s.awake = true → strapCode r12 = none → ∃ t, exec (.liveStrapRead dt r12 r13 r14) s = .next t ∧
      t.straps.liveRun = none ∧ t.straps.livePend = s.straps.livePend ∧ OnlyWrites [.time, .straps] s t) ∧
  (∀ mv below s, s.straps.accepted = true → mv < s.supplyThreshold → 10000000 ≤ below →
    ∃ t, exec (.supplyTrip mv below) s = .next t ∧ t.straps = { s.straps with tripped := true } ∧ OnlyWrites [.straps] s t) ∧
  (∀ mv above s, s.straps.accepted = true → s.supplyThreshold + 150 < mv → 1000000000 ≤ above →
    ∃ t, exec (.supplyClear mv above) s = .next t ∧ t.straps = { s.straps with tripped := false } ∧ OnlyWrites [.straps] s t)

/-! ### Test access, ageing (22_pads_electrical.md R559, 21_ageing.md) -/

/-- DIAG_ADDR loads the address, DIAG_DATA takes the word at it and adds 1 to it, BYPASS selects the one-bit register; shut
test access changes nothing (R481, R559; the 0 captured by BYPASS is the model's, assumption-log row 70). -/
def Obligations.TestAccess : Prop :=
  (∀ v s, s.testOpen = true → exec (.diagAddr v) s = .next { s with tap := { s.tap with addr := v, ir := 8 } }) ∧
  (∀ s, s.testOpen = true → exec .diagData s = .next { s with
      tap := { s.tap with data := s.diagWord s.tap.addr.toNat, addr := s.tap.addr + 1, ir := 9 } }) ∧
  (∀ s, s.testOpen = true → exec .bypass s = .next { s with tap := { s.tap with ir := 15, bypass := false } }) ∧
  (∀ v s, s.testOpen = false → exec (.diagAddr v) s = .next s ∧ exec .diagData s = .next s ∧ exec .bypass s = .next s)

/-- SLACK_MEASUREMENT sets each island's slack and the step it plans; RETENTION_TEST sets T_RET and the refresh interval of
each bank in use, and retires one whose T_RET / 4 is below 8 ms (R526, R528, R530). LIFE_HOUR adds one powered hour and the
hour's weight, MEMS_RESONANCE_TEST takes a triad's measurement, and SPILL_PAGE_READBACK retires a block of a device for a slow
erase and one for a line of four or more corrections (R526, R530, R532, R533). SCRUB ends a scrub interval: a corrected line
counts for its bank, a line found uncorrectable for the first time counts in UNCORR, and the interval follows the counts; the
background scrub that follows a wake ends no interval, which is the model's reading (assumption-log row 89). What
the line decides is the number of its symbols in error: one is corrected, two are detected, three or more are taken for
another line (R324–R326, R530). -/
def Obligations.AgeingRecorded : Prop :=
  (∀ slacks s, slacks.length = 12 → s.running = true → s.awake = true → ∃ t, exec (.slackMeasurement slacks) s = .next t ∧
      t.age.isl = s.age.isl.mapIdx (fun i m => (m.measure i (nth slacks i) s.mark).settleMove i) ∧
      OnlyWrites [.power, .age] s t) ∧
  (∀ tret s, tret.length = 32 → s.running = true → s.full = true → ∃ t, exec (.retentionTest tret) s = .next t ∧
      (∀ b, b < 32 → b ∉ s.cw.retired → nth tret b < 32 → b ∈ t.cw.retired) ∧
      (∀ b, b < 32 → b ∉ s.cw.retired → 32 ≤ nth tret b → s.age.tret.length = 32 → s.age.refresh.length = 32 →
        nth t.age.tret b = nth tret b ∧ nth t.age.refresh b = refreshFor s.age.dieT (nth tret b)) ∧
      OnlyWrites [.cw, .way, .age] s t) ∧
  (∀ mean die s, ∃ t, exec (.lifeHour mean die) s = .next t ∧ t.age.poweredH = satN 32 (s.age.poweredH + 1) ∧
      t.age.lifeNum = s.age.lifeNum + lifeWeight mean ∧ t.age.tmax = max s.age.tmax die ∧ OnlyWrites [.age] s t) ∧
  (∀ (src : Fin 5) ppm q s, s.running = true → s.full = true → (nth s.mot.triads src.val).powered = true →
    src.val < s.mot.triads.length → ∃ t, exec (.memsResonanceTest src ppm q) s = .next t ∧
      (nth t.mot.triads src.val).resPpm = ppm ∧ (nth t.mot.triads src.val).qTenths = q ∧ OnlyWrites [.mot] s t) ∧
  (∀ (dev : Fin 4) symbols slow et ec s, s.running = true → s.full = true → s.spill.done = true →
    (nth s.spill.devs dev.val).state = 0 → dev.val < s.spill.devs.length →
    b2n slow + b2n (symbols.any fun k => decide (4 ≤ k)) ≤ (nth s.spill.devs dev.val).spare →
    ∃ t, exec (.spillPageReadback dev symbols slow et ec) s = .next t ∧
      (nth t.spill.devs dev.val).retiredBlocks =
        (nth s.spill.devs dev.val).retiredBlocks + (b2n slow + b2n (symbols.any fun k => decide (4 ≤ k))) ∧
      (nth t.spill.devs dev.val).eraseCount = ec ∧ (nth t.spill.devs dev.val).eraseTime = et ∧ OnlyWrites [.spill] s t) ∧
  (∀ fs s, s.full = true → s.power.scrubDue = false → ∃ t, exec (.scrub fs) s = .next t ∧
      t.age.corrScrub = List.replicate 32 0 ∧ OnlyWrites [.free, .cw, .way, .age] s t) ∧
  (∀ fs s, s.full = true → s.power.scrubDue = true → ∃ t, exec (.scrub fs) s = .next t ∧
      t.power = { s.power with scrubDue := false } ∧ t.age.scrubH = s.age.scrubH ∧ t.age.calm = s.age.calm ∧
      OnlyWrites [.free, .power, .cw, .way, .age] s t) ∧
  (∀ s, s.full = true → s.power.scrubDue = false → ∃ t, exec (.scrub []) s = .next t ∧
      (t.age.scrubH, t.age.calm) = scrubPlan s.age.scrubH s.age.calm s.age.corrScrub ∧ OnlyWrites [.age] s t) ∧
  (∀ line s, s.full = true → s.power.scrubDue = false → line < 32 * bankLines → s.cw.corr.length = 32 →
    ∃ t, exec (.scrub [{ place := .die line, errors := 1, caught := false }]) s = .next t ∧
      nth t.cw.corr (line / bankLines) = nth s.cw.corr (line / bankLines) + 1 ∧ t.cw.closed = s.cw.closed ∧
      OnlyWrites [.cw, .age] s t) ∧
  (∀ line s, s.full = true → s.power.scrubDue = false → line < 32 * bankLines → line ∉ s.cw.badLines →
    ∃ t, exec (.scrub [{ place := .die line, errors := 2, caught := false }]) s = .next t ∧
      t.cw.uncorr = s.cw.uncorr + 1 ∧ line ∈ t.cw.badLines ∧ OnlyWrites [.cw, .way, .age] s t) ∧
  (∀ line n s, s.full = true → s.power.scrubDue = false → line < 32 * bankLines → s.cw.corr.length = 32 → 3 ≤ n →
    ∃ t, exec (.scrub [{ place := .die line, errors := n, caught := false }]) s = .next t ∧
      nth t.cw.corr (line / bankLines) = nth s.cw.corr (line / bankLines) + 1 ∧ t.cw.uncorr = s.cw.uncorr ∧
      t.cw.badLines = s.cw.badLines ∧ OnlyWrites [.free, .cw, .age] s t)

/-! ### Pin engines (19_pin_engines.md R486–R497) -/

/-- SET writes VALUE to the SET pads' levels or directions, or to C0 or C1; OUT shifts N bits out of OSR to the OUT pads, a
counter or nowhere; MOV transforms its source into its destination. PC moves on, a stall is over, and nothing else changes
(R487, R488, R491). -/
def Obligations.PinsDrive : Prop :=
  (∀ (e : Fin 8) s en st w, s.fetchPin e.val 1 = some (en, st, w) →
    ∃ t, exec (.pinSet e) s = .next t ∧
      t.pin.level = (if sfld w 11 9 = 0 then putPads s.pin.level en.setBase en.setCount (sfld w 8 3) else s.pin.level) ∧
      t.pin.dir = (if sfld w 11 9 = 1 then putPads s.pin.dir en.setBase en.setCount (sfld w 8 3) else s.pin.dir) ∧
      nth t.pin.eng e.val = { st with
        pc := nextPc en st.pc, stall := 0
        c0 := if sfld w 11 9 = 2 then word (sfld w 8 3) else st.c0
        c1 := if sfld w 11 9 = 3 then word (sfld w 8 3) else st.c1 } ∧
      (∀ i, i ≠ e.val → nth t.pin.eng i = nth s.pin.eng i) ∧ t.pin.flags = s.pin.flags ∧ OnlyWrites [.pin] s t) ∧
  (∀ (e : Fin 8) s en st w, s.fetchPin e.val 2 = some (en, st, w) →
    ∃ t, exec (.pinOut e) s = .next t ∧
      t.pin.level = (if sfld w 11 9 = 0 then
          putPads s.pin.level en.outBase (min (sfld w 8 3) en.outCount) (shiftOut en.outRight st.osr (sfld w 8 3)).2.1
        else s.pin.level) ∧
      t.pin.dir = (if sfld w 11 9 = 1 then
          putPads s.pin.dir en.outBase (min (sfld w 8 3) en.outCount) (shiftOut en.outRight st.osr (sfld w 8 3)).2.1
        else s.pin.dir) ∧
      nth t.pin.eng e.val = { st with
        pc := nextPc en st.pc, stall := 0
        osr := (shiftOut en.outRight st.osr (sfld w 8 3)).2.2, osrN := st.osrN - sfld w 8 3
        c0 := if sfld w 11 9 = 2 then word (shiftOut en.outRight st.osr (sfld w 8 3)).1 else st.c0
        c1 := if sfld w 11 9 = 3 then word (shiftOut en.outRight st.osr (sfld w 8 3)).1 else st.c1 } ∧
      (∀ i, i ≠ e.val → nth t.pin.eng i = nth s.pin.eng i) ∧ t.pin.flags = s.pin.flags ∧ OnlyWrites [.pin] s t) ∧
  (∀ (e : Fin 8) s en st w, s.fetchPin e.val 8 = some (en, st, w) →
    ∃ t, exec (.pinMov e) s = .next t ∧
      t.pin.level = (if sfld w 11 9 = 0 then
          putPads s.pin.level en.outBase en.outCount (movXform (sfld w 5 4) (movSource s.pin en st (sfld w 8 6))).toNat
        else s.pin.level) ∧
      t.pin.dir = s.pin.dir ∧
      nth t.pin.eng e.val = { st with
        pc := nextPc en st.pc, stall := 0
        c0 := if sfld w 11 9 = 1 then movXform (sfld w 5 4) (movSource s.pin en st (sfld w 8 6)) else st.c0
        c1 := if sfld w 11 9 = 2 then movXform (sfld w 5 4) (movSource s.pin en st (sfld w 8 6)) else st.c1
        osr := if sfld w 11 9 = 3 then movXform (sfld w 5 4) (movSource s.pin en st (sfld w 8 6)) else st.osr
        osrN := if sfld w 11 9 = 3 then 32 else st.osrN
        isr := if sfld w 11 9 = 4 then movXform (sfld w 5 4) (movSource s.pin en st (sfld w 8 6)) else st.isr
        isrN := if sfld w 11 9 = 4 then 0 else st.isrN } ∧
      (∀ i, i ≠ e.val → nth t.pin.eng i = nth s.pin.eng i) ∧ t.pin.flags = s.pin.flags ∧ OnlyWrites [.pin] s t)

/-- IN shifts the low N bits of its source into ISR; PULL moves a full TXH to OSR with 32 bits remaining; PUSH moves ISR to an
empty RXH and clears it; STAMP puts the stamp of TB-G at its first clock edge, which a stall keeps, into an empty RXH (R488,
R494). -/
def Obligations.PinsMoveWords : Prop :=
  (∀ (e : Fin 8) s en st w, s.fetchPin e.val 3 = some (en, st, w) →
    ∃ t, exec (.pinIn e) s = .next t ∧
      nth t.pin.eng e.val = { st with
        pc := nextPc en st.pc, stall := 0, isrN := min 32 (st.isrN + sfld w 8 3)
        isr := shiftIn en.inRight st.isr (sfld w 8 3)
          (match sfld w 11 9 with
            | 0 => s.pin.padBits en.inBase
            | 1 => st.c0.toNat
            | 2 => st.c1.toNat
            | 4 => 2 ^ 32 - 1
            | _ => 0) } ∧
      (∀ i, i ≠ e.val → nth t.pin.eng i = nth s.pin.eng i) ∧ t.pin.level = s.pin.level ∧ t.pin.dir = s.pin.dir ∧
      OnlyWrites [.pin] s t) ∧
  (∀ (e : Fin 8) s en st w x, s.fetchPin e.val 4 = some (en, st, w) → st.txh = some x →
    ∃ t, exec (.pinPull e) s = .next t ∧
      nth t.pin.eng e.val = { st with pc := nextPc en st.pc, stall := 0, osr := x, osrN := 32, txh := none } ∧
      (∀ i, i ≠ e.val → nth t.pin.eng i = nth s.pin.eng i) ∧ t.pin.level = s.pin.level ∧ t.pin.dir = s.pin.dir ∧
      OnlyWrites [.pin] s t) ∧
  (∀ (e : Fin 8) s en st w, s.fetchPin e.val 5 = some (en, st, w) → st.rxh = none →
    ∃ t, exec (.pinPush e) s = .next t ∧
      nth t.pin.eng e.val =
        { st with pc := nextPc en st.pc, stall := 0, rxh := some (st.isr, false), isr := 0, isrN := 0 } ∧
      (∀ i, i ≠ e.val → nth t.pin.eng i = nth s.pin.eng i) ∧ t.pin.level = s.pin.level ∧ t.pin.dir = s.pin.dir ∧
      OnlyWrites [.pin] s t) ∧
  (∀ dt (e : Fin 8) s en st w, s.fetchPin e.val 10 = some (en, st, w) → st.rxh = none →
    ∃ t, exec (.pinStamp dt e) s = .next t ∧
      nth t.pin.eng e.val =
        { st with pc := nextPc en st.pc, stall := 0, stampAt := none
                  rxh := some (st.stampAt.getD (s.advance dt).stamp, true) } ∧
      (∀ i, i ≠ e.val → nth t.pin.eng i = nth s.pin.eng i) ∧ OnlyWrites [.pin, .time] s t)

/-- WAIT on a pad or a pin flag ends when it stands at LEVEL; JMP goes to ADDR when its condition holds and past itself when
it does not; FLAG sets, clears or toggles its pin flag (R487–R490). Of the changes of one flag at one island clock edge a set
wins over a clear or a toggle, and a clear over a toggle (R490). -/
def Obligations.PinsBranch : Prop :=
  (∀ dt (e : Fin 8) s en st w, s.fetchPin e.val 6 = some (en, st, w) →
    (sfld w 11 10 = 0 ∧ s.pin.pad (sfld w 8 5) = bitOf w 9 ∨ sfld w 11 10 = 1 ∧ s.pin.flags.getLsbD (sfld w 8 5) = bitOf w 9) →
    ∃ t, exec (.pinWait dt e) s = .next t ∧ nth t.pin.eng e.val = { st with pc := nextPc en st.pc, stall := 0 } ∧
      (∀ i, i ≠ e.val → nth t.pin.eng i = nth s.pin.eng i) ∧ OnlyWrites [.pin, .time] s t) ∧
  (∀ dt (e : Fin 8) s en st w m, s.fetchPin e.val 6 = some (en, st, w) → 2 ≤ sfld w 11 10 → st.gridAt = some m →
    (s.advance dt).pastCommon m = true → ∃ t, exec (.pinWait dt e) s = .next t ∧
      nth t.pin.eng e.val = { st with pc := nextPc en st.pc, stall := 0, gridAt := none } ∧ OnlyWrites [.pin, .time] s t) ∧
  (∀ (e : Fin 8) s en st w, s.fetchPin e.val 7 = some (en, st, w) →
    ∃ t, exec (.pinJmp e) s = .next t ∧
      nth t.pin.eng e.val = (if (jmpTaken s.pin en st (sfld w 11 9)).1 then
          { (jmpTaken s.pin en st (sfld w 11 9)).2 with pc := sfld w 8 3 }
        else { (jmpTaken s.pin en st (sfld w 11 9)).2 with pc := nextPc en st.pc, stall := 0 }) ∧
      (∀ i, i ≠ e.val → nth t.pin.eng i = nth s.pin.eng i) ∧ OnlyWrites [.pin] s t) ∧
  (∀ dt (e : Fin 8) s en st w, s.fetchPin e.val 9 = some (en, st, w) → s.pin.flagEdge ≠ some ((s.advance dt).now / 10000) →
    ∃ t, exec (.pinFlag ⟨dt, e⟩) s = .next t ∧ t.pin.flags = flagWord s.pin.flags [(sfld w 11 10, sfld w 9 7)] ∧
      nth t.pin.eng e.val = { st with pc := nextPc en st.pc, stall := 0 } ∧
      (∀ i, i ≠ e.val → nth t.pin.eng i = nth s.pin.eng i) ∧ OnlyWrites [.pin, .time] s t) ∧
  (∀ dt (e : Fin 8) s en st w, s.fetchPin e.val 9 = some (en, st, w) → s.pin.flagEdge = some ((s.advance dt).now / 10000) →
    ∃ t, exec (.pinFlag ⟨dt, e⟩) s = .next t ∧
      t.pin.flags = flagWord s.pin.flagWas (s.pin.flagActs ++ [(sfld w 11 10, sfld w 9 7)]) ∧
      nth t.pin.eng e.val = { st with pc := nextPc en st.pc, stall := 0 } ∧
      (∀ i, i ≠ e.val → nth t.pin.eng i = nth s.pin.eng i) ∧ OnlyWrites [.pin, .time] s t) ∧
  (∀ (flags : BitVec 8) acts i, i < 8 →
    ((0, i) ∈ acts → (flagWord flags acts).getLsbD i = true) ∧
    ((0, i) ∉ acts → (1, i) ∈ acts → (flagWord flags acts).getLsbD i = false) ∧
    ((0, i) ∉ acts → (1, i) ∉ acts → (2, i) ∈ acts → (flagWord flags acts).getLsbD i = !flags.getLsbD i) ∧
    ((0, i) ∉ acts → (1, i) ∉ acts → (2, i) ∉ acts → (flagWord flags acts).getLsbD i = flags.getLsbD i))

/-- An engine that cannot go on stalls at its instruction: PULL with TXH empty, PUSH and STAMP with RXH full, WAIT on a pad or
a flag that does not stand at LEVEL. A PULL that finds TXH empty after the last word of the phrase ends it (R486, R488, R493).
-/
def Obligations.PinsStall : Prop :=
  (∀ (e : Fin 8) s en st w, s.fetchPin e.val 4 = some (en, st, w) → st.txh = none → st.phrase = none →
    ∃ t, exec (.pinPull e) s = .next t ∧ nth t.pin.eng e.val = { st with stall := 1 } ∧ OnlyWrites [.cw, .way, .pin] s t) ∧
  (∀ (e : Fin 8) s en st w p i, s.fetchPin e.val 4 = some (en, st, w) → st.txh = none → st.phrase = some (p, i) →
    (s.phraseWords p).length ≤ i → ∃ t, exec (.pinPull e) s = .next t ∧ (nth t.pin.eng e.val).phrase = none ∧
      (nth t.pin.eng e.val).pc = st.pc ∧ (nth t.pin.eng e.val).rx = none ∧ OnlyWrites [.cw, .way, .pin] s t) ∧
  (∀ (e : Fin 8) s en st w x, s.fetchPin e.val 5 = some (en, st, w) → st.rxh = some x →
    ∃ t, exec (.pinPush e) s = .next t ∧ nth t.pin.eng e.val = { st with stall := 2 } ∧ OnlyWrites [.pin] s t) ∧
  (∀ dt (e : Fin 8) s en st w x, s.fetchPin e.val 10 = some (en, st, w) → st.rxh = some x →
    ∃ t, exec (.pinStamp dt e) s = .next t ∧
      nth t.pin.eng e.val = { st with stall := 4, stampAt := some (st.stampAt.getD (s.advance dt).stamp) } ∧
      OnlyWrites [.pin, .time] s t) ∧
  (∀ dt (e : Fin 8) s en st w, s.fetchPin e.val 6 = some (en, st, w) →
    (sfld w 11 10 = 0 ∧ s.pin.pad (sfld w 8 5) ≠ bitOf w 9 ∨ sfld w 11 10 = 1 ∧ s.pin.flags.getLsbD (sfld w 8 5) ≠ bitOf w 9) →
    ∃ t, exec (.pinWait dt e) s = .next t ∧ nth t.pin.eng e.val = { st with stall := 3 } ∧ OnlyWrites [.pin, .time] s t)

/-- The conditions of JMP: always; C0 or C1 not 0, which then loses 1, and stays 0 where it is 0; SENSE_PAD high; low; OSR
with no bits remaining; RXH empty. A counter changes only when control transfers. A counter loaded with n lets n passes go
back and the next one fall through: a loop that ends in its JMP runs n + 1 times (R489). -/
def Obligations.JmpConditions : Prop :=
  ∀ (p : Pin) (en : PinEng) (st : PinSt),
    jmpTaken p en st 0 = (true, st) ∧
    (st.c0 ≠ 0 → jmpTaken p en st 1 = (true, { st with c0 := st.c0 - 1 })) ∧
    (st.c0 = 0 → jmpTaken p en st 1 = (false, st)) ∧
    (st.c1 ≠ 0 → jmpTaken p en st 2 = (true, { st with c1 := st.c1 - 1 })) ∧
    (st.c1 = 0 → jmpTaken p en st 2 = (false, st)) ∧
    jmpTaken p en st 3 = (p.pad en.sensePad, st) ∧ jmpTaken p en st 4 = (!p.pad en.sensePad, st) ∧
    jmpTaken p en st 5 = (st.osrN == 0, st) ∧ jmpTaken p en st 6 = (st.rxh.isNone, st) ∧
    (∀ k, (jmpTaken p en st k).1 = false → (jmpTaken p en st k).2 = st) ∧
    (∀ j, j < st.c0.toNat → (jmpTaken p en (jmpPasses p en 1 j st) 1).1 = true) ∧
    jmpPasses p en 1 st.c0.toNat st = { st with c0 := 0 } ∧
    (jmpTaken p en { st with c0 := 0 } 1).1 = false ∧
    (∀ j, j < st.c1.toNat → (jmpTaken p en (jmpPasses p en 2 j st) 2).1 = true) ∧
    jmpPasses p en 2 st.c1.toNat st = { st with c1 := 0 } ∧
    (jmpTaken p en { st with c1 := 0 } 2).1 = false

/-- Where PC goes when an instruction completes without transferring control: from WRAP_TOP to WRAP_BOTTOM, from any other
address one on, modulo 64. SET, OUT, IN, MOV and FLAG complete at once; PULL with TXH full; PUSH and STAMP with RXH empty;
WAIT where what it waits for stands; a JMP whose condition does not hold counts as not transferring control (R487). -/
def Obligations.PinCounterWraps : Prop :=
  ∀ (e : Fin 8) dt s en st w,
    let next := fun t : State =>
      (nth t.pin.eng e.val).pc = if st.pc = en.wrapTop then en.wrapBottom else (st.pc + 1) % 64
    (s.fetchPin e.val 1 = some (en, st, w) → ∃ t, exec (.pinSet e) s = .next t ∧ next t) ∧
    (s.fetchPin e.val 2 = some (en, st, w) → ∃ t, exec (.pinOut e) s = .next t ∧ next t) ∧
    (s.fetchPin e.val 3 = some (en, st, w) → ∃ t, exec (.pinIn e) s = .next t ∧ next t) ∧
    (s.fetchPin e.val 4 = some (en, st, w) → st.txh ≠ none → ∃ t, exec (.pinPull e) s = .next t ∧ next t) ∧
    (s.fetchPin e.val 5 = some (en, st, w) → st.rxh = none → ∃ t, exec (.pinPush e) s = .next t ∧ next t) ∧
    (s.fetchPin e.val 6 = some (en, st, w) →
      (sfld w 11 10 = 0 ∧ s.pin.pad (sfld w 8 5) = bitOf w 9 ∨
        sfld w 11 10 = 1 ∧ s.pin.flags.getLsbD (sfld w 8 5) = bitOf w 9 ∨
        2 ≤ sfld w 11 10 ∧ ∃ m, st.gridAt = some m ∧ (s.advance dt).pastCommon m = true) →
      ∃ t, exec (.pinWait dt e) s = .next t ∧ next t) ∧
    (s.fetchPin e.val 7 = some (en, st, w) → (jmpTaken s.pin en st (sfld w 11 9)).1 = false →
      ∃ t, exec (.pinJmp e) s = .next t ∧ next t) ∧
    (s.fetchPin e.val 8 = some (en, st, w) → ∃ t, exec (.pinMov e) s = .next t ∧ next t) ∧
    (s.fetchPin e.val 9 = some (en, st, w) → ∃ t, exec (.pinFlag ⟨dt, e⟩) s = .next t ∧ next t) ∧
    (s.fetchPin e.val 10 = some (en, st, w) → st.rxh = none → ∃ t, exec (.pinStamp dt e) s = .next t ∧ next t)

/-- The dispatcher and the pads: a further word of the phrase fills an empty TXH (R493); a word in RXH joins the receive
packet (R496); an idle one closes and counts (R497); a reserved operation halts the engine with its pads held (R488); a pad
takes the level outside (R486). -/
def Obligations.PinsDispatch : Prop :=
  (∀ (e : Fin 8) s st p i w, s.pin.eng[e.val]? = some st → st.txh = none → st.phrase = some (p, i) →
    (s.phraseWords p)[i]? = some w → ∃ t, exec (.txhFill e) s = .next t ∧
      nth t.pin.eng e.val = { st with txh := some w, phrase := some (p, i + 1) } ∧
      (∀ j, j ≠ e.val → nth t.pin.eng j = nth s.pin.eng j) ∧ OnlyWrites [.pin] s t) ∧
  (∀ (e : Fin 8) s en st r w, s.pinEntry e.val = some en → s.pin.eng[e.val]? = some st → st.rxh = some (w, false) →
    st.rx = some r → r.data.length + 1 < en.rxMax → ∃ t, exec (.rxhDrain e) s = .next t ∧
      nth t.pin.eng e.val =
        { st with rxh := none, rx := some { r with data := r.data ++ [w], lastMark := s.time.issued } } ∧
      OnlyWrites [.pin] s t) ∧
  (∀ (e : Fin 8) s en st r, s.pinEntry e.val = some en → s.pin.eng[e.val]? = some st → st.rx = some r →
    en.rxIdle ≠ 0 → r.lastMark + en.rxIdle ≤ s.time.issued → r.data ≠ [] → ∃ t, exec (.rxIdleClose e) s = .next t ∧
      nth t.pin.eng e.val = { st with rx := none, seq := (st.seq + 1) % 65536 } ∧ OnlyWrites [.cw, .way, .pin] s t) ∧
  (∀ (e : Fin 8) s en st, s.pinEntry e.val = some en → s.pin.eng[e.val]? = some st → st.run = .running →
    opReserved (opOf (s.storeWord st.pc)) = true → ∃ t, exec (.reservedOpHalt e) s = .next t ∧
      nth t.pin.eng e.val = { st with run := .halted, phrase := none, txh := none, stall := 0 } ∧
      t.pin.level = s.pin.level ∧ t.pin.dir = s.pin.dir ∧ OnlyWrites [.cw, .way, .pin] s t) ∧
  (∀ (pad : Fin 16) high s, s.pin.dir.getLsbD pad.val = false → ∃ t, exec (.padLevelChange pad high) s = .next t ∧
      t.pin.pad pad.val = high ∧ (∀ n, n < 16 → n ≠ pad.val → t.pin.pad n = s.pin.pad n) ∧ OnlyWrites [.pin] s t)

/-! ### Time bases and network time (14_time.md) -/

/-- An Announce is noted, and the best of the qualified masters is selected, with its grandmaster and its announce interval: the
domain begins to acquire where the master or its grandmaster changes, and goes on where it does not (R379, R381). Three announce
intervals without one of the selected master drop it: the next best one is acquired, and without one the domain goes into
holdover. Four sync intervals without a Sync leave holdover (R381). -/
def Obligations.PtpMasters : Prop :=
  (∀ dt (x : Fin 2) m s b, s.uplinkOn = true → s.domainOn x = true → -3 ≤ m.logInterval → m.logInterval ≤ 4 →
    s.time.n.length = 2 → ((nth s.time.n x).heard (s.now + dt) m).best (s.now + dt) = some b →
    ∃ t, exec (.ptpAnnounce ⟨dt, x⟩ m) s = .next t ∧ (nth t.time.n x).master = some b.sender ∧
      (nth t.time.n x).grand = b.grandmaster ∧ (nth t.time.n x).annIv = b.logInterval ∧
      (nth t.time.n x).foreign = hearForeign (nth s.time.n x).foreign (s.now + dt) m ∧
      (b.sender = m.sender → (nth t.time.n x).lastAnn = s.now + dt) ∧
      ((nth s.time.n x).master ≠ some b.sender ∨ (nth s.time.n x).grand ≠ b.grandmaster →
        (nth t.time.n x).st = .acquiring) ∧
      ((nth s.time.n x).master = some b.sender → (nth s.time.n x).grand = b.grandmaster →
        (nth s.time.n x).st = .acquiring ∨ (nth s.time.n x).st = .locked → (nth t.time.n x).st = (nth s.time.n x).st) ∧
      OnlyWrites [.time, .cw, .way] s t) ∧
  (∀ dt (x : Fin 2) m s, s.uplinkOn = true → s.domainOn x = true → -3 ≤ m.logInterval → m.logInterval ≤ 4 →
    s.time.n.length = 2 → ((nth s.time.n x).heard (s.now + dt) m).best (s.now + dt) = none →
    ∃ t, exec (.ptpAnnounce ⟨dt, x⟩ m) s = .next t ∧ (nth t.time.n x).master = (nth s.time.n x).master ∧
      (nth t.time.n x).foreign = hearForeign (nth s.time.n x).foreign (s.now + dt) m ∧
      (nth t.time.n x).st = (nth s.time.n x).st ∧ OnlyWrites [.time] s t) ∧
  (∀ dt (x : Fin 2) s, s.time.n.length = 2 → (nth s.time.n x).master ≠ none → (nth s.time.n x).st = .locked →
    (nth s.time.n x).dropMaster.best (s.now + dt) = none →
    (nth s.time.n x).lastAnn + 3 * pow2Sec (nth s.time.n x).annIv ≤ s.now + dt →
    ∃ t, exec (.announceReceiptTimeout dt x) s = .next t ∧ (nth t.time.n x).master = none ∧
      (nth t.time.n x).st = .holdover ∧ (nth t.time.n x).rate = meanRate (nth s.time.n x).rateHist ∧
      OnlyWrites [.time, .cw, .way] s t) ∧
  (∀ dt (x : Fin 2) s b, s.time.n.length = 2 → (nth s.time.n x).master ≠ none →
    (nth s.time.n x).dropMaster.best (s.now + dt) = some b →
    (nth s.time.n x).lastAnn + 3 * pow2Sec (nth s.time.n x).annIv ≤ s.now + dt →
    ∃ t, exec (.announceReceiptTimeout dt x) s = .next t ∧ (nth t.time.n x).master = some b.sender ∧
      (nth t.time.n x).grand = b.grandmaster ∧ (nth t.time.n x).st = .acquiring ∧ OnlyWrites [.time, .cw, .way] s t) ∧
  (∀ dt (x : Fin 2) s, s.time.n.length = 2 → ((nth s.time.n x).st = .locked ∨ (nth s.time.n x).st = .acquiring) →
    (nth s.time.n x).lastSync + 4 * pow2Sec (nth s.time.n x).syncIv ≤ s.now + dt →
    ∃ t, exec (.syncTimeout dt x) s = .next t ∧ (nth t.time.n x).st = .holdover ∧
      (nth t.time.n x).rate = meanRate (nth s.time.n x).rateHist ∧ (nth t.time.n x).master = (nth s.time.n x).master ∧
      OnlyWrites [.time, .cw, .way] s t)

/-- A one-step Sync of the selected master is measured at once: offsetFromMaster is t2 − t1 − correction less the path delay,
and 16 in a row within LOCK_NS lock the domain. A two-step Sync waits for its Follow_Up, which is measured with the origin
time it gives; a Delay_Resp of the selected master to the last Delay_Req gives the mean path delay by the egress timestamp of the
port it came through (R379–R381, R393). -/
def Obligations.PtpMeasures : Prop :=
  (∀ dt (x : Fin 2) m s, s.time.n.length = 2 → s.hears x m.sender m.logInterval = true → m.twoStep = false →
    (nth s.time.n x).st ≠ .noSource → (nth s.time.n x).st ≠ .holdover →
    ∃ t, exec (.ptpSync dt x m) s = .next t ∧
      (nth t.time.n x).offset = ((s.advance dt).nNs x : Int) - m.origin - m.correction - (nth s.time.n x).pathDelay ∧
      (nth t.time.n x).lastSync = s.now + dt ∧
      ((nth s.time.n x).st = .acquiring → (nth s.time.n x).good = 15 →
        (nth t.time.n x).offset.natAbs ≤ s.timeBlock.lockNs → s.timeBlock.lockNs ≤ s.timeBlock.stepUs * 1000 →
        (nth t.time.n x).st = .locked) ∧
      OnlyWrites [.time, .cw, .way] s t) ∧
  (∀ dt (x : Fin 2) m s, s.time.n.length = 2 → s.hears x m.sender m.logInterval = true → m.twoStep = true →
    ∃ t, exec (.ptpSync dt x m) s = .next t ∧
      (nth t.time.n x).twoStep = some (m.seq, (s.advance dt).nNs x, m.correction) ∧
      (nth t.time.n x).st = (nth s.time.n x).st ∧ OnlyWrites [.time] s t) ∧
  (∀ dt (x : Fin 2) m s (t2 : Nat) corr, s.time.n.length = 2 → s.hears x m.sender m.logInterval = true →
    (nth s.time.n x).twoStep = some (m.seq, t2, corr) → ∃ t, exec (.ptpFollowUp dt x m) s = .next t ∧
      (nth t.time.n x).twoStep = none ∧
      (nth t.time.n x).offset = (t2 : Int) - m.origin - corr - m.correction - (nth s.time.n x).pathDelay ∧
      OnlyWrites [.time, .cw, .way] s t) ∧
  (∀ (port x : Fin 2) sender seq t4 corr iv s (t3 : Nat), s.time.n.length = 2 → s.uplinkOn = true → s.domainOn x = true →
    nth (nth s.time.n x).t3 port = some t3 → (nth s.time.n x).master = some sender → (nth s.time.n x).delaySeq = seq →
    ∃ t, exec (.ptpDelayResp ⟨port, x, sender⟩ seq t4 corr iv) s = .next t ∧ (nth t.time.n x).t3 = [none, none] ∧
      (nth t.time.n x).pathDelay = ((nth s.time.n x).msDiff + ((t4 : Int) - t3 - corr)) / 2 ∧ OnlyWrites [.time] s t)

/-- An edge of the captured polarity, of a pulse of 100 ns or more, counts; the eighth of a run with intervals of 1 s ± 2 µs
locks PPS; a shorter pulse is ignored; 1.00001 s without an edge takes the lock and the label away (R384, R385). -/
def Obligations.PpsEdges : Prop :=
  (∀ dt rising width s, 100 ≤ width → rising ≠ s.time.pps.falling → s.time.pps.pendLabels = [] →
    ∃ t, exec (.ppsEdge dt rising width) s = .next t ∧ t.time.pps.count = s.time.pps.count + 1 ∧
      t.time.pps.last = s.now + dt ∧
      (s.time.pps.st = 1 → s.time.pps.run = 7 → ppsGood (s.now + dt - s.time.pps.last) = true → t.time.pps.st = 2) ∧
      (s.time.pps.st = 2 → ppsNear (s.now + dt - s.time.pps.last) = false → t.time.pps.st = 1 ∧ t.time.pps.label = none) ∧
      OnlyWrites [.time, .cw, .way] s t) ∧
  (∀ dt rising width s, width < 100 → exec (.ppsEdge dt rising width) s = .next (s.advance dt)) ∧
  (∀ dt s, 2 ≤ s.time.pps.st → s.time.pps.last + 1000010000000 ≤ s.now + dt → ∃ t, exec (.ppsTimeout dt) s = .next t ∧
      t.time.pps.st = 1 ∧ t.time.pps.label = none ∧ t.time.pps.count = s.time.pps.count ∧
      OnlyWrites [.time, .cw, .way, .clients] s t)

/-! ### Front end (08_front_end.md, 09_conversion.md) -/

/-- FE_BLANK high opens the blank intervals and marks the conversions of blankable recipes in progress; when it falls the
guards run on, and an interval whose guard has run out ends (R125, R258). A calibration step falls due once its
period has passed; an edge of FE_TRIG 1 µs or more after the one before makes every channel of TRIGMASK wait for an injected
conversion, and one that still waits counts an overrun; a compliance trip and a clamp
current mark the conversions in progress, a clamp above 1 mA every one (R144, R231, R247, R248, R255). -/
def Obligations.FeRequests : Prop :=
  (∀ dt s, ∃ t, exec (.feBlankAssert dt) s = .next t ∧ t.fe.blank = true ∧ t.fe.blankEnd = none ∧ t.fe.magEnd = none ∧
      (∀ ch, ch < s.fe.ch.length → nth t.fe.ch ch =
        (nth s.fe.ch ch).onConvs fun v => if v.recipe.blank then { v with blanked := true } else v) ∧
      OnlyWrites [.time, .fe] s t) ∧
  (∀ dt s f im, s.fe.blank = true → s.feOf = some f → s.port.inForce = some im →
    ∃ t, exec (.feBlankRelease dt) s = .next t ∧ t.fe.blank = false ∧
      t.fe.blankEnd = (if f.fblankGuard = 0 then none else some (s.now + dt + guardPs f.fblankGuard)) ∧
      t.fe.magEnd = (if im.inertial.blankGuard = 0 then none else some (s.now + dt + guardPs im.inertial.blankGuard)) ∧
      t.fe.ch = s.fe.ch ∧ OnlyWrites [.time, .fe] s t) ∧
  (∀ dt s b, s.fe.blankEnd = some b → ∃ t, exec (.blankGuardEnd dt) s = .next t ∧
      t.fe.blankEnd = (if b ≤ s.now + dt then none else some b) ∧ t.fe.blank = s.fe.blank ∧ t.fe.ch = s.fe.ch ∧
      OnlyWrites [.time, .fe] s t) ∧
  (∀ dt (ch : Fin 32) gain s r e, s.recipe ch.val = some r → s.scan ch.val = some e → s.feRuns r = true → e.nocal = false →
    bitOf s.calBlock.enable (if gain then 5 else 4) = true → ch.val < s.fe.ch.length →
    (s.advance dt).stepIsDue (nth s.fe.ch ch.val) gain = true →
    ∃ t, exec (.feCalStepDue dt ch gain) s = .next t ∧
      nth t.fe.ch ch.val = (if gain then { nth s.fe.ch ch.val with dueGain := true, gainAt := some s.mark }
        else { nth s.fe.ch ch.val with dueOff := true, offAt := some s.mark }) ∧
      (∀ i, i ≠ ch.val → nth t.fe.ch i = nth s.fe.ch i) ∧ OnlyWrites [.time, .fe] s t) ∧
  (∀ dt (ch : Fin 32) gain s, (s.advance dt).stepIsDue (nth s.fe.ch ch.val) gain = false →
    exec (.feCalStepDue dt ch gain) s = .next (s.advance dt)) ∧
  (∀ dt s f, s.feOf = some f → (∀ l, s.fe.lastTrig = some l → l + usPs 1 ≤ s.now + dt) →
    (∀ ch ∈ setBits 32 f.trigMask.toNat, ch < s.fe.ch.length ∧ (nth s.fe.ch ch).pend = none ∧
      ∃ r, s.recipe ch = some r ∧ s.feRuns r = true) →
    (s.fe.inj.filter fun m => decide (s.mark < m + 1024)).length + (setBits 32 f.trigMask.toNat).length ≤ f.injMax →
    ∃ t, exec (.feTrigEdge dt) s = .next t ∧ t.fe.lastTrig = some (s.now + dt) ∧
      (∀ ch ∈ setBits 32 f.trigMask.toNat, (nth t.fe.ch ch).pend = some (s.now + dt, 1, 0)) ∧
      (∀ ch, ch ∉ setBits 32 f.trigMask.toNat → nth t.fe.ch ch = nth s.fe.ch ch) ∧
      (t.fe.inj.filter fun m => decide (s.mark < m + 1024)).length =
        (s.fe.inj.filter fun m => decide (s.mark < m + 1024)).length + (setBits 32 f.trigMask.toNat).length ∧
      t.fe.refused = s.fe.refused ∧ OnlyWrites [.time, .fe] s t) ∧
  (∀ dt s f ch r, s.feOf = some f → setBits 32 f.trigMask.toNat = [ch] → s.recipe ch = some r → s.feRuns r = true →
    (∀ l, s.fe.lastTrig = some l → l + usPs 1 ≤ s.now + dt) → ch < s.fe.ch.length →
    (s.fe.inj.filter fun m => decide (s.mark < m + 1024)).length < f.injMax → (nth s.fe.ch ch).pend ≠ none →
    ∃ t, exec (.feTrigEdge dt) s = .next t ∧ (nth t.fe.ch ch).pend = (nth s.fe.ch ch).pend ∧
      (nth t.fe.ch ch).overrun = (nth s.fe.ch ch).overrun + 1 ∧ t.fe.refused = s.fe.refused ∧ OnlyWrites [.time, .fe] s t) ∧
  (∀ dt (ch : Fin 32) s, ch.val < s.fe.ch.length →
    ∃ t, exec (.complianceTrip dt ch) s = .next t ∧
      nth t.fe.ch ch.val = (nth s.fe.ch ch.val).onConvs (fun v => { v with tripped := true }) ∧
      (∀ i, i ≠ ch.val → nth t.fe.ch i = nth s.fe.ch i) ∧ OnlyWrites [.time, .fe] s t) ∧
  (∀ (pin : Fin 48) na s, 2000 < na → s.fe.clamps.length = 48 → ∃ t, exec (.clampEvent pin na) s = .next t ∧
      nth t.fe.clamps pin.val = min 255 (nth s.fe.clamps pin.val + 1) ∧
      (∀ ch, ch < s.fe.ch.length → nth t.fe.ch ch = (nth s.fe.ch ch).onConvs fun v =>
        if 1000000 < na ∨ pin.val ∈ v.rolePins s.gPos then { v with clamped := true } else v) ∧ OnlyWrites [.fe] s t) ∧
  (∀ (pin : Fin 48) na s, na ≤ 2000 → exec (.clampEvent pin na) s = .next s)

/-- FE_CONVERSION_START begins a grid-driven output at its planned position, with the gain, the levels and the sources in force;
in the blank interval a blankable one runs no conversion. FE_CONVERSION_END ends the conversion of the channel whose occupancy
ends first, of an overtaken plan's with it (R261), and leaves the gain and the guard drivers where it brought them (R216, R228); of an
output the channel keeps the word
that the readings of its windows give, at once or when the assigned words it uses are in; a calibration step ends without a
word, is due again where it was blanked, and gives a TRIGONLY recipe's offset sample, half of the normal and the reversed
reading; one that a changed plan has dropped leaves no word (R144, R146, R238, R244, R249, R252, R253, R258). -/
def Obligations.FeConverts : Prop :=
  (∀ dt (ch : Fin 32) s r e ref, s.recipe ch.val = some r → s.scan ch.val = some e → s.feRuns r = true →
    s.modBusy r e = false → (nth s.fe.ch ch.val).conv = none → gridOutput r e (s.advance dt).gPos = some ref →
    e.trigOnly = false → (r.blank && s.feBlanked) = false → ch.val < s.fe.ch.length →
    ∃ t, exec (.feConversionStart dt ch .grid) s = .next t ∧
      nth t.fe.ch ch.val = { gainUp r (nth s.fe.ch ch.val) with
        conv := some ((s.advance dt).gridConv r e (gainUp r (nth s.fe.ch ch.val)) ref) } ∧
      (∀ i, i ≠ ch.val → nth t.fe.ch i = nth s.fe.ch i) ∧ OnlyWrites [.time, .fe] s t) ∧
  (∀ dt (ch : Fin 32) s r e ref, s.recipe ch.val = some r → s.scan ch.val = some e → s.feRuns r = true →
    s.modBusy r e = false → (nth s.fe.ch ch.val).conv = none → gridOutput r e (s.advance dt).gPos = some ref →
    e.trigOnly = false → (r.blank && s.feBlanked) = true → s.fe.waiting = [] → ch.val < s.fe.ch.length →
    ∃ t, exec (.feConversionStart dt ch .grid) s = .next t ∧ (nth t.fe.ch ch.val).conv = none ∧
      (∃ x, (nth t.fe.ch ch.val).words.head? = some x ∧ x.pos = ref ∧ x.rfp = r.rfp ∧
        x.word = sampleWord (repeated (nth s.fe.ch ch.val) r) 0x30) ∧
      OnlyWrites [.time, .cw, .way, .fe] s t) ∧
  (∀ dt (ch : Fin 32) x s v, (nth s.fe.ch ch.val).ending = some v → v.isOutput = true → v.dropped = false →
    s.fe.waiting = [] → (v.blanked = true ∨ v.refs = []) → ch.val < s.fe.ch.length →
    ∃ t, exec (.feConversionEnd dt ch x) s = .next t ∧ (nth t.fe.ch ch.val).convs = ((nth s.fe.ch ch.val).drop v).convs ∧ t.fe.waiting = [] ∧
      (∃ w, (nth t.fe.ch ch.val).words.head? = some w ∧ w.pos = v.ref ∧ w.rfp = v.recipe.rfp ∧
        ((v.kind = .injected ∨ (nth s.fe.ch ch.val).rev = []) → t.mot = s.mot ∧
          w = (s.advance dt).feWord (FeWait.mk ch.val v (measure v.recipe v.scan s.time.gRate v.gain x.windows)
            (if v.recipe.ow then (owAfter (nth s.fe.ch ch.val).ow v.tripped (nth s.fe.ch ch.val).owClean).1
              else (nth s.fe.ch ch.val).ow)))) ∧
      OnlyWrites [.time, .cw, .way, .fe, .mot] s t) ∧
  (∀ dt (ch : Fin 32) x s v u a, (nth s.fe.ch ch.val).ending = some v → v.isOutput = true → v.dropped = false →
    s.fe.waiting = [] → v.blanked = false → a ∈ v.refs → a.1 ≠ ch.val → u ∈ (nth s.fe.ch a.1).convs →
    u.isOutput = true → u.dropped = false → u.ref ≤ v.ref → ch.val < s.fe.ch.length →
    ∃ t, exec (.feConversionEnd dt ch x) s = .next t ∧ (nth t.fe.ch ch.val).convs = ((nth s.fe.ch ch.val).drop v).convs ∧
      t.fe.waiting.map (·.conv) = [v] ∧ (nth t.fe.ch ch.val).words = (nth s.fe.ch ch.val).words ∧
      OnlyWrites [.time, .cw, .way, .fe, .mot] s t) ∧
  (∀ dt (ch : Fin 32) x s v, (nth s.fe.ch ch.val).ending = some v → v.kind = .calOffset → v.dropped = false →
    s.fe.waiting = [] → ch.val < s.fe.ch.length → 7 + ch.val < s.mot.cal.length →
    ∃ t, exec (.feConversionEnd dt ch x) s = .next t ∧ (nth t.fe.ch ch.val).convs = ((nth s.fe.ch ch.val).drop v).convs ∧
      (nth t.fe.ch ch.val).words = (nth s.fe.ch ch.val).words ∧
      (v.blanked = true → (nth t.fe.ch ch.val).dueOff = true ∧ t.mot = s.mot) ∧
      (v.blanked = false → v.tripped = false → v.clamped = false → v.scan.trigOnly = true →
        (measure v.recipe v.scan s.time.gRate v.gain x.windows).cm = false → (measure v.recipe v.scan s.time.gRate v.gain x.windows).above = false →
        (nth s.mot.cal (7 + ch.val)).skips s.mark = false →
        (nth t.mot.cal (7 + ch.val)).est = estAfter (nth s.mot.cal (7 + ch.val)).est [] false
          ((nth (measure v.recipe v.scan s.time.gRate v.gain x.windows).volts 0 +
            nth (measure v.recipe v.scan s.time.gRate v.gain x.windows).volts 1) / 2)) ∧
      OnlyWrites [.time, .cw, .way, .fe, .mot] s t) ∧
  (∀ dt (ch : Fin 32) x s v, (nth s.fe.ch ch.val).ending = some v → v.kind = .calGain → v.dropped = false →
    s.fe.waiting = [] → ch.val < s.fe.ch.length →
    ∃ t, exec (.feConversionEnd dt ch x) s = .next t ∧ (nth t.fe.ch ch.val).convs = ((nth s.fe.ch ch.val).drop v).convs ∧
      (nth t.fe.ch ch.val).words = (nth s.fe.ch ch.val).words ∧
      (v.blanked = true → (nth t.fe.ch ch.val).dueGain = true ∧ t.mot = s.mot ∧ t.age = s.age) ∧
      OnlyWrites [.free, .time, .cw, .way, .fe, .mot, .age] s t) ∧
  (∀ dt (ch : Fin 32) x s v, (nth s.fe.ch ch.val).ending = some v → v.dropped = true → s.fe.waiting = [] →
    ch.val < s.fe.ch.length → ∃ t, exec (.feConversionEnd dt ch x) s = .next t ∧
      (nth t.fe.ch ch.val).convs = ((nth s.fe.ch ch.val).drop v).convs ∧ (nth t.fe.ch ch.val).words = (nth s.fe.ch ch.val).words ∧
      OnlyWrites [.time, .cw, .way, .fe] s t) ∧
  (∀ dt (ch : Fin 32) x s v, (nth s.fe.ch ch.val).ending = some v → v.stale = false → ch.val < s.fe.ch.length →
    v.isOutput = true → v.dropped = false → s.fe.waiting = [] → (v.blanked = true ∨ v.refs = []) →
    ∃ t, exec (.feConversionEnd dt ch x) s = .next t ∧
      (nth t.fe.ch ch.val).gain = (measure v.recipe v.scan s.time.gRate v.gain x.windows).gain ∧
      t.fe.guards = s.guardsAfter v.recipe (measure v.recipe v.scan s.time.gRate v.gain x.windows).last)

/-! ### Inertial sensing and motion products (04_inertial.md, 06_motion_products.md) -/

/-- INERTIAL_INSTANT: one instant of a mark already issued goes through stages 1 to 3 and the crossover, and the next instant
follows it; the die temperatures are measured at the common instants (R104–R106, R116). A readout fault marks its triad and
writes an ERROR record; when it clears, the triad has to settle; once it has, the triad counts again. No other triad changes
(R117, R126). -/
def Obligations.TriadsSense : Prop :=
  (∀ rs s, rs.length = 6 → s.samples s.mot.instant = true →
    ∃ t, exec (.inertialInstant rs) s = .next t ∧ t.mot.last = some s.mot.instant ∧
      t.mot.instant = nextInstant s.mot.instant s.mark ∧
      t.mot.hist = ((s.triadsAt s.mot.instant).sense (s.strap 11) (s.footpathAt s.mot.instant) s.magBlanked rs).hist ∧
      (∀ i, i < s.mot.triads.length → nth t.mot.triads i =
        (let x := nth (s.triadsAt s.mot.instant).triads i
         if s.mot.instant % 8 = 0 ∧ x.powered = true then x.measure (nth rs i).temp else x)) ∧
      t.mot.cal = s.mot.cal ∧ OnlyWrites [.cw, .mot, .way] s t) ∧
  (∀ (src : Fin 6) code s, src.val < s.mot.triads.length → (nth s.mot.triads src.val).powered = true →
    (nth s.mot.triads src.val).fault = false → ∃ t, exec (.triadFault src code) s = .next t ∧
      nth t.mot.triads src.val = { nth s.mot.triads src.val with fault := true } ∧
      (∀ i, i ≠ src.val → nth t.mot.triads i = nth s.mot.triads i) ∧
      (s.intoCauseway → t.closedLast (recTag 7) [word (at_ 1 24 + at_ src.val 16), code, 0, 1]) ∧
      OnlyWrites [.cw, .mot, .way, .attn] s t) ∧
  (∀ dt (src : Fin 6) s, src.val < s.mot.triads.length → (nth s.mot.triads src.val).fault = true →
    ∃ t, exec (.triadFaultClear dt src) s = .next t ∧
      nth t.mot.triads src.val = { nth s.mot.triads src.val with fault := false, settled := false } ∧
      (∀ i, i ≠ src.val → nth t.mot.triads i = nth s.mot.triads i) ∧ OnlyWrites [.time, .mot] s t) ∧
  (∀ dt (src : Fin 6) s, src.val < s.mot.triads.length → (nth s.mot.triads src.val).powered = true →
    (nth s.mot.triads src.val).fault = false → ∃ t, exec (.triadSettled dt src) s = .next t ∧
      nth t.mot.triads src.val = { nth s.mot.triads src.val with settled := true } ∧
      (∀ i, i ≠ src.val → nth t.mot.triads i = nth s.mot.triads i) ∧ OnlyWrites [.time, .mot] s t)

/-- The crossover: a fused channel on its sensitive triad takes the robust one where an axis of either is at or above the
leave threshold or the sensitive one flags overload (R113); on the robust one it returns where eight instants in a row had
every axis of the robust triad at or below the return threshold and no overload (R114). -/
def Obligations.CrossoverDecides : Prop :=
  ∀ rs s f, rs.length = 6 → s.samples s.mot.instant = true → s.footpathAt s.mot.instant = false → f < 2 →
    (nth (s.triadsAt s.mot.instant).triads (sensitiveOf f)).ok = true →
    (nth (s.triadsAt s.mot.instant).triads (robustOf f)).ok = true →
    ∃ t, exec (.inertialInstant rs) s = .next t ∧
      (nth s.mot.robust f = false → (nth t.mot.robust f = true ↔
        (∃ x ∈ stageOne ((s.triadsAt s.mot.instant).takeTemps rs) (sensitiveOf f) (nth rs (sensitiveOf f)), leaveLsb (sensitiveOf f) ≤ x.natAbs) ∨
        (nth rs (sensitiveOf f)).overload = true ∨
        (∃ x ∈ stageOne ((s.triadsAt s.mot.instant).takeTemps rs) (robustOf f) (nth rs (robustOf f)), leaveLsb (robustOf f) ≤ x.natAbs))) ∧
      (nth s.mot.robust f = true → (nth t.mot.robust f = false ↔ 8 ≤ nth t.mot.dwell f)) ∧
      nth t.mot.dwell f =
        (if (∀ x ∈ stageOne ((s.triadsAt s.mot.instant).takeTemps rs) (robustOf f) (nth rs (robustOf f)), x.natAbs ≤ returnLsb (robustOf f)) ∧
            (nth rs (sensitiveOf f)).overload = false then nth s.mot.dwell f + 1 else 0)

/-- STRAPDOWN_SAMPLE takes the input of its mark, at 256 S/s; at a mark that is a multiple of 64 it gives the attitude value
of 0.5 s before (R160, R163). -/
def Obligations.ProductsSample : Prop :=
  ∀ s, s.running = true → s.awake = true → s.mark % 4 = 0 → s.prod.lastIn ≠ some s.mark →
    ∃ t, exec .strapdownSample s = .next t ∧ t.prod.lastIn = some s.mark ∧
      t.prod.inputs.head? = some (strapInput s.mot (s.inMode .footpath) s.mark
        (if s.mark ≠ 0 ∧ s.prod.lastIn = some (s.mark - 4) then s.prod.inputs.head? else none)) ∧
      (s.mark % 64 = 0 → 512 ≤ s.mark → t.prod.att = attitudeOf t.prod.inputs (s.mark - 512) (t.declAt (s.mark - 512))) ∧
      t.mot.hist = s.mot.hist ∧ OnlyWrites [.cw, .mot, .prod, .way] s t

/-- The wave record and the heave statistics are written once per record period, after grid mark m + (P + 128) × 1024, and the
header names m (R172, R173). -/
def Obligations.RecordsWritten : Prop :=
  (∀ s d e, s.prod.recDone = some d → s.prodEntry 3 d.first = some e → s.running = true → s.full = true →
    s.waveDue d = true → d.waveDone = false → d.first + (s.wavePeriod + 128) * 1024 ≤ s.mark →
    ∃ t, exec .waveRecordWrite s = .next t ∧ t.prod.recDone = some { d with waveDone := true } ∧
      (s.power.waking = none →
        ∃ w, t.closedLast (productTag 3 e.view) (s.waveRecord d w).1 ∧ ∃ q, t.cw.closed.getLast? = some q ∧ q.mark = d.first) ∧
      OnlyWrites [.free, .cw, .prod, .way] s t) ∧
  (∀ s d e, s.prod.recDone = some d → s.prodEntry 4 d.first = some e → s.running = true → s.awake = true →
    d.statsDone = false → d.first + (s.wavePeriod + 128) * 1024 ≤ s.mark →
    ∃ t, exec .heaveStats s = .next t ∧ t.prod.recDone = some { d with statsDone := true } ∧
      (s.intoCauseway →
        ∃ w, t.closedLast (productTag 4 e.view) (s.statsRecord d w) ∧ ∃ q, t.cw.closed.getLast? = some q ∧ q.mark = d.first) ∧
      OnlyWrites [.free, .cw, .prod, .way] s t)

/-! ### Calibration against the sea (05_sea_reference.md) -/

/-- RECORD_PERIOD_END compares the mean heave with the limits once and sets the corner of the next record (R143), except at a
restore's commit mark, where the update is discarded (R158). The step starts from the corner that waits for the next record
where one does, which is the model's choice (assumption-log row 77). -/
def Obligations.CornerSteps : Prop :=
  (∀ s r d hm0, s.prod.recDone = some r → s.calRuns 6 = true → r.ended = false → 6 < s.mot.cal.length →
    (nth s.mot.cal 6).skips s.mark = false → (d, hm0) = (if s.full = true ∧ s.waveDue r = true then ((s.waveRecord r 0).2.2, (s.waveRecord r 0).2.1)
      else (r.dmean, r.h4s)) → f32IsNan d = false →
    ∃ t, exec .recordPeriodEnd s = .next t ∧ t.prod.recDone = some { r with ended := true } ∧
      (let x := nextCorner s.calBlock (s.mot.cornerNext.getD s.mot.corner) s.mot.downRun d hm0
       t.mot.cornerNext = (if x.1 = s.mot.cornerNext.getD s.mot.corner then s.mot.cornerNext else some x.1) ∧
        t.mot.downRun = x.2 ∧ t.mot.corner = s.mot.corner ∧ nth (nth t.mot.cal 6).terms 0 = cornerWord x.1) ∧
      nth (nth t.mot.cal 6).terms 1 = d ∧ OnlyWrites [.cw, .mot, .prod, .way] s t) ∧
  (∀ s r, s.prod.recDone = some r → s.calRuns 6 = true → r.ended = false → (nth s.mot.cal 6).skips s.mark = true →
    ∃ t, exec .recordPeriodEnd s = .next t ∧ t.prod.recDone = some { r with ended := true } ∧ t.mot = s.mot ∧
      OnlyWrites [.prod] s t) ∧
  (∀ c corner run d hm0, c.hvMin ≤ corner → corner ≤ c.hvMax →
    (exceedsUp d hm0 c.hvUp = true → (nextCorner c corner run d hm0).1 = min c.hvMax (corner + 1)) ∧
    (exceedsUp d hm0 c.hvUp = false → belowDown d c.hvDown = true → 2 ≤ run →
      (nextCorner c corner run d hm0).1 = max c.hvMin (corner - 1)) ∧
    (exceedsUp d hm0 c.hvUp = false → ¬(belowDown d c.hvDown = true ∧ 2 ≤ run) →
      (nextCorner c corner run d hm0).1 = corner) ∧
    c.hvMin ≤ (nextCorner c corner run d hm0).1 ∧ (nextCorner c corner run d hm0).1 ≤ c.hvMax)

/-- CAL_BLOCK_END adds the block that ended to the channel or discards it; CAL_UPDATE ends the 600 s period, with its CAL-UPDATE
record: the terms in force do not change yet, and new ones have their mark, the same for the other channel of a pair; at a
restore's commit mark the update is discarded (R131, R132, R150, R151, R158). The convergence states:
an update without enough data leaves a cold channel cold; one that departs, or a period mostly discarded, disturbs a
converging or settled channel; two updates at or below the limit settle a converging one; a residual above twice the limit
unsettles a settled one; the sixth update in a row with the same discrepancy restarts a disturbed one (R147); a channel that was settled in the record
it was restored from settles at its first update that agrees (R158). -/
def Obligations.CalibrationUpdates : Prop :=
  (∀ dt (ch : Fin 6) s, ch.val < s.mot.cal.length → s.calRuns ch.val = true →
    s.mot.blockDone.whole = true → ch.val ∉ s.mot.blockDone.taken → ∃ t, exec (.calBlockEnd dt ch) s = .next t ∧
      t.mot.blockDone.taken = ch.val :: s.mot.blockDone.taken ∧
      nth t.mot.cal ch.val =
        (let c := nth s.mot.cal ch.val
         if s.discards ch.val (meanOf (s.blockOf ch.val)) = true then { c with discarded := c.discarded + 1 }
         else { c with accepted := c.accepted + 1, total := c.total + 1
                       blocks := s.blockOf ch.val :: c.blocks }) ∧
      (∀ i, i ≠ ch.val → nth t.mot.cal i = nth s.mot.cal i) ∧ OnlyWrites [.time, .mot] s t) ∧
  (∀ (ch : Fin 6) s, ch.val < s.mot.cal.length → s.calRuns ch.val = true → s.mark / reportMarks * reportMarks ≠ 0 →
    (nth s.mot.cal ch.val).updAt < s.mark / reportMarks * reportMarks → (nth s.mot.cal ch.val).skips (s.mark / reportMarks * reportMarks) = false →
    ∃ t, exec (.calUpdate ch) s = .next t ∧
      (nth t.mot.cal ch.val).updAt = s.mark / reportMarks * reportMarks ∧
      (nth t.mot.cal ch.val).accepted = 0 ∧ (nth t.mot.cal ch.val).discarded = 0 ∧
      (nth t.mot.cal ch.val).terms = (nth s.mot.cal ch.val).terms ∧
      (∀ x ∈ (nth t.mot.cal ch.val).next, x ∈ (nth s.mot.cal ch.val).next ∨
        x.1 = s.termsMark ch.val (s.mark / reportMarks * reportMarks)) ∧
      (s.intoCauseway → ∃ q, t.cw.closed.getLast? = some q ∧ q.tag = recTag 0x12 ∧ q.words.length = 4) ∧
      (∀ i, i ≠ ch.val → pairOf ch.val ≠ some i → nth t.mot.cal i = nth s.mot.cal i) ∧
      (∀ i, pairOf ch.val = some i → nth t.mot.cal i = nth s.mot.cal i ∨
        nth t.mot.cal i = (nth s.mot.cal i).moveNext (s.termsMark ch.val (s.mark / reportMarks * reportMarks))) ∧
      OnlyWrites [.cw, .mot, .way] s t) ∧
  (∀ (ch : Fin 6) s, ch.val < s.mot.cal.length → s.calRuns ch.val = true → s.mark / reportMarks * reportMarks ≠ 0 →
    (nth s.mot.cal ch.val).updAt < s.mark / reportMarks * reportMarks →
    (nth s.mot.cal ch.val).skips (s.mark / reportMarks * reportMarks) = true → ∃ t, exec (.calUpdate ch) s = .next t ∧
      nth t.mot.cal ch.val =
        { nth s.mot.cal ch.val with updAt := s.mark / reportMarks * reportMarks, accepted := 0, discarded := 0 } ∧
      (∀ i, i ≠ ch.val → nth t.mot.cal i = nth s.mot.cal i) ∧ OnlyWrites [.mot] s t) ∧
  (∀ (c : CalCh) (enough most dep : Bool) (res lim low : Nat) (also : Bool),
    (c.st = 0 → (verdict c enough most dep res lim low also).st = if enough then 1 else 0) ∧
    ((c.st = 1 ∨ c.st = 2) → (most = true ∨ dep = true) → (verdict c enough most dep res lim low also).st = 3) ∧
    (c.st = 1 → c.wasSettled = false → most = false → dep = false →
      (verdict c enough most dep res lim low also).st = if 2 ≤ low ∧ also = true then 2 else 1) ∧
    ((c.st = 1 ∨ c.st = 2) → c.wasSettled = true → most = false → dep = false →
      (verdict c enough most dep res lim low also).st = 2) ∧
    (c.st = 2 → c.wasSettled = false → most = false → dep = false →
      (verdict c enough most dep res lim low also).st = if 2 * lim < res then 1 else 2) ∧
    (c.st = 3 → dep = true → 5 ≤ c.offRun → (verdict c enough most dep res lim low also) = ⟨1, true, true⟩) ∧
    (c.st = 3 → (most = true ∨ dep = true) → c.offRun < 5 → (verdict c enough most dep res lim low also) = ⟨3, false, false⟩) ∧
    (c.st = 3 → most = false → dep = false → (verdict c enough most dep res lim low also).st =
      if c.wasSettled = true ∨ (res ≤ lim ∧ also = true) then 2 else 1))

/-! ### Recognisers and waymark engines (06_motion_products.md, 07_waymarks.md) -/

/-- SLAM's onset after SLAM_MIN consecutive instants at the threshold: active from then on, written with KIND 1 and the next
SEQ, or, within HOLD of the last written one, only counted (R175–R179). CREST takes each heave value once (R177). -/
def Obligations.SlamAndCrest : Prop :=
  (∀ s e i inp, s.recogOf 0 = some e → s.mot.last = some i → s.newest 2 = some inp → s.recRuns 0 = true →
    s.way.recs.length = 6 → (nth s.way.recs 0).seenAt ≠ some i → inp.ok = true → (nth s.way.recs 0).active = false →
    reaches (squares ((List.range 3).map (slamDelta (nth s.mot.hist 2)))) slamG (nth e.w 0) 1 1 = true →
    (nth e.w 1).toNat ≤ (nth s.way.recs 0).onRun + 1 → ∃ t, exec .slam s = .next t ∧
      (nth t.way.recs 0).active = true ∧ (nth t.way.recs 0).onsetAt = i ∧ (nth t.way.recs 0).onRun = 0 ∧
      (nth t.way.recs 0).peakW = vecWords 2 inp.v ∧
      ((nth s.way.recs 0).heldOff e.hold (eventAt (i / 8) (i % 8)).1 = true → t.cw = s.cw ∧
        (nth t.way.recs 0).written = false ∧ (nth t.way.recs 0).suppressed = (nth s.way.recs 0).suppressed + 1) ∧
      ((nth s.way.recs 0).heldOff e.hold (eventAt (i / 8) (i % 8)).1 = false →
        (nth t.way.recs 0).written = true ∧ (nth t.way.recs 0).seq = ((nth s.way.recs 0).seq + 1) % 65536 ∧
        (s.intoCauseway → ∃ q, t.cw.closed.getLast? = some q ∧ q.tag = eventTag 0x10 e.view ∧
          q.mark = (eventAt (i / 8) (i % 8)).1 ∧
          nth q.words 0 = word (at_ 1 24 + ((nth s.way.recs 0).seq + 1) % 65536) ∧ q.words.length = 12)) ∧
      (∀ r, r ≠ 0 → nth t.way.recs r = nth s.way.recs r) ∧ OnlyWrites [.cw, .mot, .way, .attn] s t) ∧
  (∀ s e ref v, s.recogOf 1 = some e → s.prod.lastDisp = some (ref, v) → s.recRuns 1 = true → s.way.recs.length = 6 →
    (nth s.way.recs 1).seenAt ≠ some ref → bitOf (nth v 3).toNat 1 = false → ∃ t, exec .crest s = .next t ∧
      (nth t.way.recs 1).seenAt = some ref ∧ (nth t.way.recs 1).prevHeave = nth v 0 ∧
      (∀ r, r ≠ 1 → nth t.way.recs r = nth s.way.recs r) ∧ OnlyWrites [.cw, .way, .attn] s t)

/-- The onsets of DROP, CAPSIZE, TILT and DRIFT, each after the run or the value its row of R177 asks for. -/
def Obligations.RecognisersOnset : Prop :=
  (∀ s e i inp, s.recogOf 2 = some e → s.mot.last = some i → (nth s.mot.hist 0)[i % 8]? = some inp → s.recRuns 2 = true →
    s.way.recs.length = 6 → (nth s.way.recs 2).seenAt ≠ some (i - i % 8) → inp.ok = true →
    (nth s.way.recs 2).active = false → reaches (squares inp.v) accAG (nth e.w 0) 1 1 = false →
    marksReach ((nth s.way.recs 2).onRun + 1) (nth e.w 1).toNat = true → ∃ t, exec .drop s = .next t ∧
      (nth t.way.recs 2).active = true ∧ (nth t.way.recs 2).onsetAt = i - i % 8 ∧
      (∀ r, r ≠ 2 → nth t.way.recs r = nth s.way.recs r) ∧ OnlyWrites [.cw, .mot, .way, .attn] s t) ∧
  (∀ s e q, s.recogOf 3 = some e → s.prod.lastIn = some q → s.recRuns 3 = true → q % 64 = 0 → s.way.recs.length = 6 →
    (nth s.way.recs 3).seenAt ≠ some q → s.inputUsable 20 = true → (nth s.way.recs 3).active = false →
    f32Int (nth e.w 0) * (accAG * (meanZ s.prod.inputs 256).2 : Nat) ≤ (meanZ s.prod.inputs 256).1 * 2 ^ 149 →
    16 * (nth e.w 1).toNat ≤ (nth s.way.recs 3).onRun + 1 → ∃ t, exec .capsize s = .next t ∧
      (nth t.way.recs 3).active = true ∧ (nth t.way.recs 3).onsetAt = 8 * q ∧
      (∀ r, r ≠ 3 → nth t.way.recs r = nth s.way.recs r) ∧ OnlyWrites [.cw, .mot, .way, .attn] s t) ∧
  (∀ s e q, s.recogOf 4 = some e → s.prod.lastIn = some q → s.recRuns 4 = true → q % 1024 = 0 → s.way.recs.length = 6 →
    (nth s.way.recs 4).seenAt ≠ some q → s.inputUsable 20 = true → (nth s.way.recs 3).active = false →
    (nth e.w 2).toNat * 256 ≤ s.prod.inputs.length → (nth s.way.recs 4).active = false →
    f32Lt (nth e.w 0) (tiltOf (meanForce s.prod.inputs ((nth e.w 2).toNat * 256))) = true →
    ∃ t, exec .tilt s = .next t ∧ (nth t.way.recs 4).active = true ∧ (nth t.way.recs 4).onsetAt = 8 * q ∧
      (∀ r, r ≠ 4 → nth t.way.recs r = nth s.way.recs r) ∧ OnlyWrites [.cw, .mot, .way, .attn] s t) ∧
  (∀ s e, s.recogOf 5 = some e → s.recRuns 5 = true → (nth e.w 0).toNat ≠ 0 → s.mark % ((nth e.w 0).toNat * 1024) = 0 →
    s.mark ≠ 0 → s.way.recs.length = 6 → (nth s.way.recs 5).seenAt ≠ some s.mark → s.inputUsable 24 = true →
    (nth e.w 0).toNat * 1024 / 4 ≤ s.prod.inputs.length → (nth s.way.recs 5).active = false →
    (driftStats e s.prod.inputs s.mark).2 ≠ 0 → (nth e.w 5).toNat ≤ (nth s.way.recs 5).onRun + 1 →
    ∃ t, exec .drift s = .next t ∧ (nth t.way.recs 5).active = true ∧ (nth t.way.recs 5).onsetAt = 8 * s.mark ∧
      (∀ r, r ≠ 5 → nth t.way.recs r = nth s.way.recs r) ∧ OnlyWrites [.cw, .mot, .way, .attn] s t)

/-- EVENT_PASS offers the oldest event that waits, at most 32 in a mark; the engine whose first slot that holds has a
transition takes it, and its state timer starts again (R189–R191). -/
def Obligations.EventsOffered : Prop :=
  (∀ s e rest, s.way.evq = e :: rest → s.running = true → s.awake = true → s.way.carried < 32 →
    ∃ t, exec .eventPass s = .next t ∧ t.way.evq = rest ∧ t.way.carried = s.way.carried + 1 ∧ t.way.recs = s.way.recs ∧
      (∀ w en k tr, s.wm = some w → w.engines.filter s.engRuns = [en] → en.engine < s.way.eng.length →
        { s with way := { s.way with evq := rest, carried := s.way.carried + 1 } }.pickSlot w (some e) en
          (nth s.way.eng en.engine).st = some (k, tr) →
        (nth t.way.eng en.engine).st = tr.next ∧ (nth t.way.eng en.engine).timer = s.time.issued) ∧
      OnlyWrites [.free, .time, .cw, .way, .fe, .attn, .pin] s t) ∧
  (∀ s, 32 ≤ s.way.carried → exec .eventPass s = .next s)

/-! ### Roads (10_roads.md, 11_in_phase.md) -/

/-- ROAD_START begins to launch and to enumerate 1.05 s after the last MARK; MARK_LAUNCH sends the mark's MARK with the EPOCH
that a due toggle flips, once in a mark, and after a step of TB-G a measurement cycle whose last mark was skipped has ended (the
model's reading, assumption-log row 83) (R267, R271, R277, R295). ENUM_REPLY admits a good reply that matches its entry at the
position offered, with the delay that its arrival gives; ACK_FRAME ends the command whose SEQ it shows, counting a refused
one, and one with a bad CRC is counted; ECHO_WINDOW_END counts an ENUM without a reply (R272, R273, R277, R283). -/
def Obligations.RoadsEnumerate : Prop :=
  (∀ (r : Fin 8) s, r.val < s.roads.length → s.roadWanted r.val = true → (s.road r.val).on = false →
    (s.road r.val).stopAt + msPs 1050 ≤ s.now → ∃ t, exec (.roadStart r) s = .next t ∧ (t.road r.val).on = true ∧
      (t.road r.val).enumPos = some 0 ∧ (t.road r.val).nodes = [] ∧ (t.road r.val).started = false ∧
      (∀ i, i ≠ r.val → t.road i = s.road i) ∧ OnlyWrites [.roads] s t) ∧
  (∀ (r : Fin 8) s, r.val < s.roads.length → s.roadWanted r.val = true → (s.road r.val).on = true →
    (s.road r.val).launched ≠ some s.mark → ∃ t, exec (.markLaunch r) s = .next t ∧
      (t.road r.val).launched = some s.mark ∧ (t.road r.val).cycle = max (s.road r.val).cycle (s.mark / 1024) ∧
      (s.mark / 1024 ≤ (s.road r.val).cycle →
        (t.road r.val).epoch = (if (s.road r.val).toggleDue s.mark then !(s.road r.val).epoch else (s.road r.val).epoch)) ∧
      (∃ hold fs, (t.road r.val).burst =
        markFrame s.mark (t.road r.val).epoch r.val ((t.road r.val).echoPos.getD 0xFF) hold :: fs) ∧
      (∀ i, i ≠ r.val → t.road i = s.road i) ∧ OnlyWrites [.cw, .way, .roads] s t) ∧
  (∀ (r : Fin 8) rx s p bs withCh, r.val < s.roads.length → s.launchedNow r.val = true → (s.road r.val).enumWait = true →
    (s.road r.val).enumPos = some p → readUp 3 18 rx = some (bs, true) → upPos bs = p → 9480000 ≤ rx.arrive → rx.arrive ≤ 9610000 →
    (((rx.arrive * 100 : Nat) : Int) - ((s.road r.val).enumAt * 100 : Nat) - ((s.road r.val).hold * 50000 : Nat)) / 2 ≤ 150000000 →
    matchNode ((s.roadImage r.val).bind fun i => i.nodeEntry r.val p) (enumIn bs).uid (enumIn bs).maker.toNat
      (enumIn bs).model.toNat (enumIn bs).nch ((enumIn bs).caps.toNat % 2 == 1) = (0, withCh) → ∃ t, exec (.enumReply r rx) s = .next t ∧
      (t.road r.val).admitNext = some p ∧ (∃ nd, (t.road r.val).admittedAt p = some nd ∧ nd.uid = (enumIn bs).uid ∧
        nd.delay = (((rx.arrive * 100 : Nat) : Int) - ((s.road r.val).enumAt * 100 : Nat) -
          ((s.road r.val).hold * 50000 : Nat)) / 2 ∧
        (∀ im e, s.roadImage r.val = some im → im.nodeEntry r.val p = some e → withCh = true → nd.staged = some e.chans)) ∧
      (∀ i, i ≠ r.val → t.road i = s.road i) ∧ OnlyWrites [.roads] s t) ∧
  (∀ (r : Fin 8) before gs arrive after s bs nd c k m, r.val < s.roads.length → s.launchedNow r.val = true →
    9480000 ≤ arrive → arrive ≤ 9720000 → readUp 0 5 ⟨gs, arrive⟩ = some (bs, true) →
    (s.road r.val).admittedAt (upPos bs) = some nd → (s.road r.val).ackPos = some (upPos bs) →
    nd.cur = some (c, (nth bs 1).toNat, k, m) → ∃ t, exec (.ackFrame r before gs arrive after) s = .next t ∧
      (t.road r.val).admittedAt (upPos bs) = some { nd with acked := (nth bs 1).toNat, cur := none } ∧
      (t.road r.val).refused = (s.road r.val).refused + b2n (bitOf (nth bs 2).toNat 4) ∧
      (t.road r.val).stray = (s.road r.val).stray + before + after ∧
      (∀ i, i ≠ r.val → t.road i = s.road i) ∧ OnlyWrites [.roads] s t) ∧
  (∀ (r : Fin 8) before gs arrive after s bs, r.val < s.roads.length → s.launchedNow r.val = true → 9480000 ≤ arrive →
    arrive ≤ 9720000 → readUp 0 5 ⟨gs, arrive⟩ = some (bs, false) → ∃ t, exec (.ackFrame r before gs arrive after) s = .next t ∧
      t.road r.val = { s.road r.val with
        hdrFail := (s.road r.val).hdrFail + 1, stray := (s.road r.val).stray + before + after } ∧
      (∀ i, i ≠ r.val → t.road i = s.road i) ∧ OnlyWrites [.roads] s t) ∧
  (∀ (r : Fin 8) s, r.val < s.roads.length → s.launchedNow r.val = true → (s.road r.val).enumWait = true →
    (s.road r.val).started = false → (s.road r.val).unanswered < 3 → (s.road r.val).tries < 15 →
    (s.road r.val).echoPos = none → (∀ nd ∈ (s.road r.val).nodes, nd.givesUp s.mark = false) →
    ∃ t, exec (.echoWindowEnd r) s = .next t ∧ (t.road r.val).unanswered = (s.road r.val).unanswered + 1 ∧
      (t.road r.val).tries = (s.road r.val).tries + 1 ∧ (t.road r.val).enumWait = false ∧ (t.road r.val).ackPos = none ∧
      (∀ i, i ≠ r.val → t.road i = s.road i) ∧ OnlyWrites [.roads] s t)

/-- SLOT_FRAME is attributed by its slot, counts what R280 counts, and takes /S/ or its absence; ECHO_FRAME: a planned echo
with a bad CRC is asked for again, and a valid delay that is no outlier counts in the cycle (R275, R280, R290, R292, R298). -/
def Obligations.RoadsReceive : Prop :=
  (∀ (r : Fin 8) (pos : Fin 64) rx s nd, r.val < s.roads.length → s.launchedNow r.val = true →
    (s.road r.val).admittedAt pos.val = some nd → nd.hasSlot = true → ∃ t, exec (.slotFrame r pos rx) s = .next t ∧
      (let f := readSlot rx (nd.chans.filter (·.dueIn s.mark)).length
       (t.road r.val).missing = (s.road r.val).missing + b2n (!f.present) ∧
        (t.road r.val).hdrFail = (s.road r.val).hdrFail + b2n (f.present && !f.crcGood) ∧
        (t.road r.val).stray = (s.road r.val).stray + f.stray ∧
        (t.road r.val).viol = (s.road r.val).viol + (f.samples.map (·.2)).sum ∧
        ∃ nd', (t.road r.val).admittedAt pos.val = some nd' ∧ nd'.empty = (if f.present then 0 else nd.empty + 1) ∧
          nd'.lastSlot = (if f.present then s.mark else nd.lastSlot) ∧ nd'.delay = nd.delay) ∧
      (∀ i, i ≠ r.val → t.road i = s.road i) ∧ OnlyWrites [.cw, .way, .roads] s t) ∧
  (∀ (r : Fin 8) rx s p bs nd, r.val < s.roads.length → s.launchedNow r.val = true → (s.road r.val).echoPos = some p →
    (s.road r.val).admittedAt p = some nd → nd.outRun = none → nd.adm = none → readUp 2 4 rx = some (bs, false) → ∃ t, exec (.echoFrame r rx) s = .next t ∧
      t.road r.val = { s.road r.val with echoPos := none, hdrFail := (s.road r.val).hdrFail + 1, echoRetry := some p } ∧
      (∀ i, i ≠ r.val → t.road i = s.road i) ∧ OnlyWrites [.roads] s t) ∧
  (∀ (r : Fin 8) rx s p bs nd, r.val < s.roads.length → s.launchedNow r.val = true → (s.road r.val).echoPos = some p →
    (s.road r.val).admittedAt p = some nd → nd.outRun = none → nd.adm = none → readUp 2 4 rx = some (bs, true) →
    echoValid bs rx.arrive p s.mark = true →
    nd.outlier ((s.road r.val).echoDelay rx) = false → ∃ t, exec (.echoFrame r rx) s = .next t ∧
      (t.road r.val).admittedAt p =
        some { nd with echoed := true, got := (s.road r.val).echoDelay rx :: nd.got, agree := s.mark } ∧
      (t.road r.val).echoPos = none ∧ (∀ i, i ≠ r.val → t.road i = s.road i) ∧ OnlyWrites [.roads] s t)

/-- Sixty-four marks without /S/ lose a node: it is no longer admitted, and a declared position joins those that fault bit 6
shows; DELAY_CYCLE_END forms the predictions of the admitted nodes (R293, R298, R299). -/
def Obligations.RoadsLoseAndPredict : Prop :=
  (∀ (r : Fin 8) (pos : Fin 64) s nd, r.val < s.roads.length → (s.road r.val).admittedAt pos.val = some nd →
    nd.hasSlot = true → 64 ≤ nd.empty → ∃ t, exec (.nodeLost r pos) s = .next t ∧
      (t.road r.val).admittedAt pos.val = none ∧
      (∀ im e, s.port.inForce = some im → im.nodeEntry r.val pos.val = some e → pos.val ∈ (t.road r.val).lostDecl) ∧
      (s.intoCauseway → ∃ q ∈ t.cw.closed, q.tag = recTag 0x16) ∧
      (∀ i, i ≠ r.val → t.road i = s.road i) ∧ OnlyWrites [.cw, .way, .roads] s t) ∧
  (∀ (r : Fin 8) s, r.val < s.roads.length → (s.road r.val).on = true → s.mark % 1024 = 1023 →
    (s.road r.val).cycle = s.mark / 1024 → (∀ nd ∈ (s.road r.val).nodes, nd.admitted = true → (nd.endCycle (s.mark / 1024)).noEcho < 2) →
    ∃ t, exec (.delayCycleEnd r) s = .next t ∧
      (t.road r.val).cycle = s.mark / 1024 + 1 ∧
      (t.road r.val).nodes.map (fun nd => (nd.pos, nd.admitted, nd.pred, nd.means)) =
        (s.road r.val).nodes.map (fun nd =>
          let x := if nd.admitted then nd.endCycle (s.mark / 1024) else nd
          (x.pos, x.admitted, x.pred, x.means)) ∧
      (∀ i, i ≠ r.val → t.road i = s.road i) ∧ OnlyWrites [.roads] s t) ∧
  (∀ (nd : Node) (c : Nat), (nd.got.length < 4 → (nd.endCycle c).pred = nd.pred) ∧
    (4 ≤ nd.got.length → (∀ x ∈ nd.means, x.1 + 4 ≠ c) → (nd.endCycle c).pred = meanPs nd.got) ∧
    (∀ x, 4 ≤ nd.got.length → nd.means.find? (fun x => x.1 + 4 == c) = some x →
      (nd.endCycle c).pred = meanPs nd.got + (meanPs nd.got - x.2) / 2))

/-! ### The Causeway (12_causeway.md) -/

/-- PACKET_OPEN reserves the lines of a packet; PACKET_CLOSE gives it the next global milepost and, from each reader that
admits it, that reader's next milepost, and closes it short with GAP where it holds less than it plans (R307, R308, R314). -/
def Obligations.PacketsOpenAndClose : Prop :=
  (∀ (q : OpenReq) s, s.storing = true → q.producer < 16 → 1 ≤ q.maxWords → q.maxWords ≤ 16376 →
    s.cw.openOf q.tag = none → ∃ t p, exec (.packetOpen q) s = .next t ∧ t.cw.openOf q.tag = some p ∧
      p.producer = q.producer ∧ p.lines = linesOf q.maxWords ∧ p.words = [] ∧ p.mark = s.fullMark q.mark ∧
      OnlyWrites [.cw, .way] s t) ∧
  (∀ tag s p, s.intoCauseway → s.cw.openOf tag = some p → p.words ≠ [] → s.cw.lostDue = none → s.cw.rollq = [] →
    ∃ t q, exec (.packetClose tag) s = .next t ∧ t.cw.openOf tag = none ∧ t.cw.closed.getLast? = some q ∧ q.tag = tag ∧
      q.words = p.words ∧ q.gmp = s.cw.gmp + 1 ∧ t.cw.gmp = s.cw.gmp + 1 ∧
      q.gap = (p.gap || decide (p.words.length < p.want)) ∧
      (∀ r, r < s.cw.readers.length → (nth t.cw.readers r).count =
        if s.admits r q then (nth s.cw.readers r).count + 1 else (nth s.cw.readers r).count) ∧
      (∀ r, r < s.cw.readers.length → q.mpOf r =
        if s.admits r q then some ((nth s.cw.readers r).count + 1) else none) ∧ OnlyWrites [.cw, .way] s t)

/-- A rewind takes effect by setting the cursor to M, and the backlogs that it raises count for the highest ones (R318); a flush by setting it past the newest close, with the FLUSHED record;
the other readers stay (R319, R320, R323, R336). -/
def Obligations.ReadersMove : Prop :=
  (∀ (r : Fin 11) s q m, r.val < s.cw.readers.length → (nth s.cw.readers r.val).pend = some q → q.rewindTo = some m →
    s.atBoundary r.val = true → ∃ t, exec (.rewindTakeEffect r) s = .next t ∧ (nth t.cw.readers r.val).next = m ∧
      (nth t.cw.readers r.val).pend = none ∧ (nth t.cw.readers r.val).count = (nth s.cw.readers r.val).count ∧
      (∀ i, i ≠ r.val → nth t.cw.readers i = { nth s.cw.readers i with peak := (nth t.cw.readers i).peak }) ∧
      (∀ i, i < t.cw.readers.length → t.cw.backlog i ≤ (nth t.cw.readers i).peak) ∧ t.cw.closed = s.cw.closed ∧
      OnlyWrites [.cw, .up, .hs, .tw, .clients] s t) ∧
  (∀ (r : Fin 11) s q, r.val < s.cw.readers.length → (nth s.cw.readers r.val).pend = some q → q.rewindTo = none →
    s.atBoundary r.val = true → ∃ t, exec (.flushTakeEffect r) s = .next t ∧
      (nth t.cw.readers r.val).next = (nth s.cw.readers r.val).count + 1 ∧ (nth t.cw.readers r.val).pend = none ∧
      (nth t.cw.readers r.val).inserts.getLast? = some
        { kind := 2, w4 := word (at_ 1 24 + at_ r.val 16), w5 := (nth s.cw.readers r.val).next
          w6 := (nth s.cw.readers r.val).count, w7 := word (satN 32 (s.cw.backlogRaw r.val)), mark := s.mark } ∧
      (∀ i, i ≠ r.val → nth t.cw.readers i = nth s.cw.readers i) ∧ t.cw.closed = s.cw.closed ∧
      OnlyWrites [.cw, .hs, .tw, .clients] s t)

/-! ### Placement, reduction and spill (13_placement.md) -/

/-- REDUCTION_RELEASE releases the instance of the next period once its inputs are in, with its deadline; REDUCTION_COMPLETE
writes the product of the running instance, and its core is free (R349, R350, R351). -/
def Obligations.JobsRun : Prop :=
  (∀ job fs s first e, s.red.next.find? (·.1 == job) = some (job, first) → s.redEntry job = some e → s.full = true →
    first + e.period * 1024 ≤ s.mark →
    s.inputOwed e (first + e.period * 1024) = false →
    ∃ t, exec (.reductionRelease ⟨job, fs⟩) s = .next t ∧ t.red.insts.length = s.red.insts.length + 1 ∧
      (∃ i ∈ t.red.insts, i.job = job ∧ i.first = first ∧ i.release = s.mark ∧ i.deadline = s.mark + e.deadline) ∧
      t.red.next.find? (·.1 == job) = some (job, first + e.period * 1024) ∧
      (fs = [] → OnlyWrites [.red] s t) ∧ OnlyWrites [.free, .cw, .red, .way, .age] s t) ∧
  (∀ job s i, (s.red.insts.find? fun i => i.running && i.job == job) = some i → s.full = true →
    ∃ t, exec (.reductionComplete job) s = .next t ∧ t.red.insts.length + 1 = s.red.insts.length ∧
      t.red.next = s.red.next ∧
      (s.storing = true → ∃ q ∈ t.cw.closed, q.tag = productTag i.entry.kind i.entry.view ∧ q.mark = i.first ∧
        q.words = (s.redPacket i).words) ∧ OnlyWrites [.cw, .red, .way] s t)

/-- SPILL_PAGE_COMMIT adds one page, with the next SEQ, to the committed ones, its data programmed before its checkpoint and
journal entry, which CONT joins in one select, and the block of a page that was programmed before erased first; SPILL_ROLLUP takes the raw packet that the stages name out of every store; a
failed device leaves the stripe set (R355, R357, R362–R367). SPILL_DISCOVERY_DONE: each device fitted that answers with 16
KiB or more and offers the octal mode is in the stripe set, any other is removed, and the visible pages of the journal are
the committed ones (R361, R365, R366). -/
def Obligations.SpillWorks : Prop :=
  (∀ (stream : Fin 3) fs s, s.pagerRuns = true → s.cw.toSpill stream.val ≠ [] →
    ∃ t pg, exec (.spillPageCommit ⟨stream, fs⟩) s = .next t ∧ t.spill.pages = s.spill.pages ++ [pg] ∧
      pg.seq = s.spill.seq + 1 ∧ t.spill.seq = s.spill.seq + 1 ∧ pg.stream = stream.val ∧
      pg.page = s.spill.freePage s.spill.usable (s.spill.nextPage % max 1 s.spill.usable) ∧ pg.page ∈ t.spill.used ∧
      t.spill.descs = s.spill.eraseDescs (s.spill.eraseFor pg.page) ++ commitDescs pg ∧ t.spill.sel = none ∧
      (fs = [] → (∀ p ∈ (fillPage (carryFirst (nth s.spill.carry stream.val) (s.cw.toSpill stream.val)) (nth s.spill.carry stream.val) 1024).done,
        ∃ q ∈ t.cw.closed, q.gmp = p.gmp ∧ q.page = some pg.seq) ∧ OnlyWrites [.cw, .spill, .way] s t) ∧
      OnlyWrites [.free, .cw, .spill, .way, .age] s t) ∧
  (∀ (dev : Fin 4) (cause : Fin 5) s, 1 ≤ cause.val → cause.val ≤ 3 → dev.val < s.spill.devs.length → s.spill.done = true →
    (nth s.spill.devs dev.val).state = 0 → s.full = true → ∃ t, exec (.spillDeviceFail dev cause) s = .next t ∧
      (nth t.spill.devs dev.val).state = 1 ∧ t.spill.fault = true ∧ t.spill.pages = s.spill.pages ∧ t.spill.density = s.spill.density ∧
      (∀ i, i ≠ dev.val → nth t.spill.devs i = nth s.spill.devs i) ∧ OnlyWrites [.cw, .spill, .way] s t) ∧
  (∀ s k p, s.full = true → s.spill.done = true → s.rollPick = some (k, p) → p.gmp ≤ s.cw.gmp →
    ∃ t, exec .spillRollup s = .next t ∧ (Config.freeFindings s.free = [] → t.spill.accs = (rollIn s.spill.accs (s.rollRead p)).1) ∧
      (∀ q ∈ t.cw.closed, q.gmp = p.gmp → q.lost = 1 ∧ q.inCw = false) ∧
      OnlyWrites [.free, .cw, .spill, .way, .age] s t) ∧
  (∀ devs journal s, s.straps.accepted = true → s.spill.done = false →
    ∃ t, exec (.spillDiscoveryDone devs journal) s = .next t ∧ t.spill.done = true ∧
      (∀ i, i < 4 → i < s.spillFitted → passes (nth devs i) = true →
        (nth t.spill.devs i).state = 0 ∧ (nth t.spill.devs i).density = (nth devs i).density) ∧
      (∀ i, i < 4 → i < s.spillFitted →
        ((nth devs i).answers = false ∨ (nth devs i).octal = false ∨ (nth devs i).density < 16384) →
        (nth t.spill.devs i).state = 1 ∧ t.spill.fault = true) ∧
      (∀ i, i < 4 → s.spillFitted ≤ i → (nth t.spill.devs i).state = 2) ∧
      ((∃ i, i < 4 ∧ i < s.spillFitted ∧ passes (nth devs i) = true) →
        t.spill.pages.map (·.seq) = (visiblePages none journal).map (·.1.seq)) ∧
      t.spill.density = t.spill.leastDensity ∧
      OnlyWrites [.cw, .spill, .way] s t)

/-! ### The image port and grid marks (03_route_image.md, 20_modes.md R510) -/

/-- IMGREL_N low brings the device back to its power-on state, stops the drive of the image bus and abandons a load that
still reads; high again, the loader waits; image hold tries the whole source order again (R83, R91, R95, R96). LOAD_ATTEMPT
reads the next source of the order with the bus operations of R91 and R92: a valid image is staged for the islands; an
invalid one gives its record, and the next source is tried. ISLAND_READY names the commit mark two marks on once every island
is ready (R82, R85, R89, R99). -/
def Obligations.ImageLoads : Prop :=
  (∀ dt s, s.port.load = none → ∃ t, exec (.busRelease dt) s = .next t ∧
      t.port = (if s.port.drive then
          { s.port with rel := false, riseAt := none, drive := false, octal := false, cont := false, ckKhz := 0
                        ops := s.port.ops ++ [.exitCont, .resetPair true, .resetPair false] ++ [.float] }
        else { s.port with rel := false, riseAt := none }) ∧
      OnlyWrites [.time, .port] s t) ∧
  (∀ dt s l, s.port.load = some l → l.staged = none → s.port.inForce = none → ∃ t, exec (.busRelease dt) s = .next t ∧
      t.port.rel = false ∧ t.port.load = none ∧ t.port.hold = true ∧ t.power.mode0 = true ∧ t.power.mode1 = true ∧
      OnlyWrites [.time, .power, .port, .cw, .way] s t) ∧
  (∀ dt s, s.port.rel = false → ∃ t, exec (.imgrelRise dt) s = .next t ∧
      t.port = { s.port with rel := true, riseAt := some (s.now + dt) } ∧ OnlyWrites [.time, .port] s t) ∧
  (∀ dt s, s.port.hold = true → s.port.load = none →
    (s.port.riseAt = none ∧ s.port.rel = true ∧ s.port.lastEnd + secPs 10 ≤ s.now + dt ∨
      ∃ r, s.port.riseAt = some r ∧ r + msPs 1 ≤ s.now + dt) →
    ∃ t, exec (.imageHoldRetry dt) s = .next t ∧
      t.port = { s.port with load := some (newLoad 3 none), riseAt := none } ∧ OnlyWrites [.time, .port] s t) ∧
  (∀ dt (src : Fin 2) dev s l im, s.port.load = some l → l.staged = none → s.straps.accepted = true →
    s.loadSource l = src.val → (s.advance dt).mayDrive = true → (s.advance dt).validate dev = .good im →
    ∃ t, exec (.loadAttempt dt src dev) s = .next t ∧
      t.port.load = some { l with src := src.val, staged := some im, ready := [] } ∧ t.port.inForce = s.port.inForce ∧
      t.port.drive = true ∧ t.port.octal = dev.octal ∧ t.port.cont = dev.cmdOmitted ∧
      t.port.ops = resetOps ++ discoverOps ++ readOps dev.octal s.imgCk dev.readCmd dev.dummy ∧
      OnlyWrites [.time, .port, .roads] s t) ∧
  (∀ dt (src : Fin 2) dev s l result sect h detail, s.port.load = some l → l.staged = none → s.straps.accepted = true →
    s.loadSource l = src.val → (s.advance dt).mayDrive = true → (s.advance dt).validate dev = .bad result sect h detail →
    l.tried + 1 < s.sourceOrder.length → ∃ t, exec (.loadAttempt dt src dev) s = .next t ∧
      t.port.load = some { l with tried := l.tried + 1, staged := none, ready := [] } ∧
      (s.intoCauseway → ∃ q, t.cw.closed.getLast? = some q ∧ q.tag = recTag 0x11 ∧
        nth q.words 0 = word (at_ result 24 + at_ src.val 16 + at_ l.trigger 8 + sect)) ∧
      t.port.inForce = s.port.inForce ∧ OnlyWrites [.time, .port, .cw, .way] s t) ∧
  (∀ (island : Fin 12) s l im, s.port.load = some l → l.staged = some im → l.commit = none → island.val ∉ l.ready →
    (island.val = 4 → s.roadsReady = true) → ∃ t, exec (.islandReady island true) s = .next t ∧
      t.port.load = some { l with ready := l.ready ++ [island.val], commit :=
        if (∀ i, i < 12 → i ∈ l.ready ++ [island.val]) ∧
            (s.running = true ∨ s.power.memDone = true ∧ s.power.session.isSome = true) then some (s.mark + 2) else none } ∧
      OnlyWrites [.port] s t)

/-- GRID_MARK: while CLK25 runs and VKEEP is present, TB-G comes to its next mark. The commit whose mark has come puts its
image in force, the first one as m0; a changeover whose mark has come changes the mode; in Layby only the TIME island works.
Without its clock nothing happens (R89, R371, R374, R509, R510, R516, R523). -/
def Obligations.GridMarks : Prop :=
  (∀ chk s, s.clocked = true → ∃ t, exec (.gridMark chk) s = .next t ∧ t.mark = s.time.nextMark.1 ∧
      t.time.ps = s.time.ps + s.time.toMark ∧ t.time.issued = s.time.issued + 1 ∧ t.tap = s.tap ∧ t.pending = s.pending) ∧
  (∀ chk s l im m, s.clocked = true → s.power.phase = .running → s.awake = true → s.port.load = some l →
    l.staged = some im → l.commit = some m → markLe m s.time.nextMark.1 = true → ∃ t, exec (.gridMark chk) s = .next t ∧
      t.port.inForce = some im ∧ t.port.load = none) ∧
  (∀ chk s l im m, s.clocked = true → s.power.phase = .starting → s.port.load = some l → l.staged = some im →
    l.commit = some m → markLe m s.time.nextMark.1 = true → ∃ t, exec (.gridMark chk) s = .next t ∧
      t.port.inForce = some im ∧ t.power.phase = .running ∧ t.power.mode ≠ none) ∧
  (∀ chk s k m, s.clocked = true → s.power.phase = .running → s.awake = true → s.power.layby < 64 →
    s.power.change = some (m, k) → markLe k s.time.nextMark.1 = true → ∃ t, exec (.gridMark chk) s = .next t ∧
      t.power.mode = some m) ∧
  (∀ chk s, s.clocked = true → s.power.phase = .running → s.power.mode = some .layby →
    ∃ t, exec (.gridMark chk) s = .next t ∧ (s.time.stepDue = none → OnlyWrites [.time, .cw, .way] s t) ∧
      OnlyWrites [.time, .cw, .mot, .way] s t) ∧
  (∀ chk s, s.clocked = false → exec (.gridMark chk) s = .next s)

/-- REPORT_PERIOD works once at a mark that is a multiple of 614,400: the last record it writes is TIME-STATE with reason 0x01,
and the counts of refused triggers, clamps, uncorrectable lines and road errors begin again (R259, R287, R341, R393). -/
def Obligations.PeriodReported : Prop :=
  ∀ s, s.intoCauseway → s.mark % reportMarks = 0 → s.power.reported ≠ s.mark →
    ∃ t, exec .reportPeriod s = .next t ∧ t.power = { s.power with reported := s.mark } ∧
      t.fe.refused = 0 ∧ t.fe.clamps = List.replicate 48 0 ∧ t.cw.uncorr = 0 ∧
      (∀ r, r < s.roadsEnabled → (t.road r).viol = 0 ∧ (t.road r).hdrFail = 0 ∧ (t.road r).missing = 0) ∧
      t.closedLast (recTag 0x18) (s.timeWords 1 s.mark 0) ∧ OnlyWrites [.power, .cw, .way, .fe, .roads] s t

/-! ### Layby, wakes and holds (20_modes.md) -/

/-- The last step of Layby entry leaves every island but TIME in retention (UPLINK off where STRAP4 disables its ports), with
MODE0 and MODE1 low, nothing converting and no packet open; in Layby each wake source of R508 starts the wake sequence with its code and its hold, WAKE also holds
Footpath in any mode (R508, R517–R519). The wake sequence completes with the last island of the mode to be entered: that mode
is in force from then on. WAKE's hold lasts 1 s after it falls, and holds whose end has come no longer count (R508, R509,
R519, R521). -/
def Obligations.HubWakes : Prop :=
  (∀ dt chk s l, s.power.entering = some l → s.power.wakeHeld = none → ∃ t, exec (.laybyEntryDone dt chk) s = .next t ∧
      t.power.entering = none ∧ t.power.islands = (List.range 12).map (s.islandGoal .layby) ∧ t.power.mode0 = false ∧
      t.power.mode1 = false ∧ t.power.holds = s.power.holds ∧ t.spill.drive = false ∧ t.cw.opens = [] ∧
      (∀ c ∈ t.fe.ch, c.conv = none ∧ c.old = []) ∧ (∀ x ∈ t.mot.triads, x.powered = false) ∧
      OnlyWrites [.time, .power, .cw, .spill, .mot, .way, .fe, .tap] s t) ∧
  (∀ dt (addr : BitVec 7) rd s, s.running = true → s.inMode .layby = true → (s.roleOf 5).isSome = true →
    addr.toNat = s.twAddr → s.power.waking = none → s.power.entering = none →
    s.cw.resetDue ≠ 4 → ∃ t, exec (.twWakeMatch dt addr rd allGood) s = .next t ∧ t.power.waking = some 1 ∧
      t.tw = { s.twStart.tw with stretch := true } ∧ { src := 1, level := .footpath, ends := none } ∈ t.power.holds ∧
      t.power.scrubDue = true ∧ OnlyWrites [.time, .power, .hs, .tw] s t) ∧
  (∀ dt high s, s.running = true → s.inMode .layby = true → 10000 ≤ high → s.power.waking = none →
    s.power.entering = none → s.cw.resetDue ≠ 4 → ∃ t, exec (.wakePadRise dt high allGood) s = .next t ∧ t.power.waking = some 5 ∧
      t.power.wakePad = true ∧ { src := 5, level := .footpath, ends := none } ∈ t.power.holds ∧
      OnlyWrites [.time, .power] s t) ∧
  (∀ dt high chk s, s.power.phase ≠ .inReset → (s.running && s.inMode .layby) = false → 10000 ≤ high →
    ∃ t, exec (.wakePadRise dt high chk) s = .next t ∧ t.power.mode = s.power.mode ∧
      { src := 5, level := .footpath, ends := none } ∈ t.power.holds ∧ OnlyWrites [.time, .power] s t) ∧
  (∀ dt s, s.armed 2 = true → s.power.waking = none → s.power.entering = none → s.cw.resetDue ≠ 4 →
    ∃ t, exec (.dropComparator dt allGood) s = .next t ∧ t.power.waking = some 3 ∧
      { src := 3, level := .footpath, ends := none } ∈ t.power.holds ∧ OnlyWrites [.time, .power] s t) ∧
  (∀ dt s, s.armed 3 = true → s.power.waking = none → s.power.entering = none → s.cw.resetDue ≠ 4 →
    ∃ t, exec (.capsizeComparator dt allGood) s = .next t ∧ t.power.waking = some 4 ∧
      { src := 4, level := .footpath, ends := none } ∈ t.power.holds ∧ OnlyWrites [.time, .power] s t) ∧
  (∀ dt (i : Fin 12) s, nth s.power.islands i.val = .waking → (∃ j, j ≠ i.val ∧ nth s.power.islands j = .waking) →
    ∃ t, exec (.islandRunning dt i) s = .next t ∧ nth t.power.islands i.val = .running ∧ t.power.mode = s.power.mode ∧
      t.power.waking = s.power.waking ∧ (∀ j, j ≠ i.val → nth t.power.islands j = nth s.power.islands j) ∧
      t.tw = (if i.val = 8 then { s.tw with stretch := false } else s.tw) ∧
      t.pin = (if i.val = 9 then { s.pin with restartAt := some (s.mark + 1) } else s.pin) ∧
      OnlyWrites [.time, .power, .tw, .pin] s t) ∧
  (∀ dt (i : Fin 12) s src, nth s.power.islands i.val = .waking → (∀ j, j ≠ i.val → nth s.power.islands j ≠ .waking) →
    s.power.waking = some src → ∃ t, exec (.islandRunning dt i) s = .next t ∧ t.power.waking = none ∧
      t.power.mode = some (s.advance dt).wakeMode ∧
      OnlyWrites [.power, .time, .cw, .spill, .red, .mot, .prod, .way, .fe, .roads, .tw, .pin] s t) ∧
  (∀ dt s, ∃ t, exec (.wakePadFall dt) s = .next t ∧ t.power = { s.power with
      wakePad := false
      holds := s.power.holds.map fun h =>
        if h.src = 5 ∧ h.ends = none then { h with ends := some (s.now + dt + secPs 1) } else h } ∧
      OnlyWrites [.time, .power] s t) ∧
  (∀ dt s, ∃ t, exec (.holdExpiry dt) s = .next t ∧
      t.power = { s.power with holds := s.power.holds.filter (s.advance dt).holdLive } ∧ OnlyWrites [.time, .power] s t)

/-- A scheduled action whose instant has come leaves the schedule where the UPLINK island runs, no launch is under way on its
port and no other one due there goes first; in Layby and in Footpath it is a TIME alarm, which holds Lane and in Layby starts the
wake sequence, and it stays; before its instant, by the signed difference of R389, nothing happens (R389–R392, R508). -/
def Obligations.ActionsExecute : Prop :=
  (∀ dt index fs s a, s.time.acts[index]? = some a → 0 ≤ (s.advance dt).lag a → s.uplinkOn = true →
    s.launching (s.actPort a) = false →
    (∀ b ∈ s.time.acts, s.actPort b = s.actPort a → (s.advance dt).lag b ≤ (s.advance dt).lag a ∧
      ((s.advance dt).lag b = (s.advance dt).lag a → a.entry ≤ b.entry)) →
    ∃ t, exec (.scheduledActionDue dt index ⟨allGood, fs⟩) s = .next t ∧
      (a.periodic = false → t.time.acts = s.time.acts.erase a) ∧
      (fs = [] → OnlyWrites [.time, .power, .cw, .spill, .up] s t) ∧
      OnlyWrites [.free, .time, .power, .cw, .spill, .way, .up, .age] s t) ∧
  (∀ dt index fs s a, s.time.acts[index]? = some a → 0 ≤ (s.advance dt).lag a → s.running = true →
    s.inMode .layby = true → s.power.waking = none → s.power.entering = none → s.cw.resetDue ≠ 4 →
    ∃ t, exec (.scheduledActionDue dt index ⟨allGood, fs⟩) s = .next t ∧ t.power.waking = some 2 ∧
      { src := 2, level := .lane, ends := none } ∈ t.power.holds ∧
      t.time.acts = s.time.acts.modify index (fun x => { x with alarm := true }) ∧ OnlyWrites [.time, .power] s t) ∧
  (∀ dt index chk fs s a, s.time.acts[index]? = some a → 0 ≤ (s.advance dt).lag a → s.running = true →
    s.inMode .footpath = true → ∃ t, exec (.scheduledActionDue dt index ⟨chk, fs⟩) s = .next t ∧
      { src := 2, level := .lane, ends := none } ∈ t.power.holds ∧ t.power.waking = s.power.waking ∧
      t.time.acts = s.time.acts.modify index (fun x => { x with alarm := true }) ∧ OnlyWrites [.time, .power] s t) ∧
  (∀ dt index chk fs s a, s.time.acts[index]? = some a → (s.advance dt).lag a < 0 →
    exec (.scheduledActionDue dt index ⟨chk, fs⟩) s = .next (s.advance dt)) ∧
  (∀ (s : State) a, s.lag a = -(diff40 a.t (s.tbNs a.tb)))

/-! ### Uplink (15_uplink.md) -/

/-- A link comes up at its amplitude; when it falls, nothing waits on the port and the addresses learned there are forgotten;
a learned address ages out after 300 s; a free port starts the frame that R399 picks, a corrected message with its residence
time and a Delay_Req with its egress timestamp, which is kept for the answer (R380, R383, R395, R397–R399, R417). -/
def Obligations.LinksServe : Prop :=
  (∀ dt (p : Fin 2) partner s amp, s.uplinkOn = true → p.val < s.up.ports.length → (nth s.up.ports p.val).link = false →
    linkAmp (s.upAmp p.val) partner = some amp → ∃ t, exec (.linkUp ⟨dt, p⟩ partner) s = .next t ∧
      (nth t.up.ports p.val).link = true ∧ (nth t.up.ports p.val).amp24 = amp ∧
      (nth t.up.ports p.val).req24 = (s.upAmp p.val == 0) ∧
      t.sentOn p.val (ownFrame 3 (s.arpRequest s.net.ipaddr)) ∧ OnlyWrites [.time, .up] s t) ∧
  (∀ dt (p : Fin 2) partner s, s.uplinkOn = true → p.val < s.up.ports.length → (nth s.up.ports p.val).link = false →
    linkAmp (s.upAmp p.val) partner = none → ∃ t, exec (.linkUp ⟨dt, p⟩ partner) s = .next t ∧
      nth t.up.ports p.val = { nth s.up.ports p.val with req24 := s.upAmp p.val == 0 } ∧ OnlyWrites [.time, .up] s t) ∧
  (∀ x : LinkPartner, linkAmp 0 x = (if x.at24 then some true else if x.at10 then some false else none) ∧
    linkAmp 1 x = (if x.at24 then some true else none) ∧ linkAmp 2 x = (if x.at10 then some false else none)) ∧
  (∀ (p : Fin 2) s, p.val < s.up.ports.length → (nth s.up.ports p.val).link = true →
    ∃ t, exec (.linkDown p) s = .next t ∧ (nth t.up.ports p.val).link = false ∧ (nth t.up.ports p.val).queue = [] ∧
      (nth t.up.ports p.val).tx = none ∧ t.up.macs = s.up.macs.filter (·.2.1 != p.val) ∧ OnlyWrites [.power, .cw, .up] s t) ∧
  (∀ dt index s m, s.up.macs[index]? = some m → m.2.2 + secPs 300 ≤ s.now + dt →
    ∃ t, exec (.macAgeOut dt index) s = .next t ∧ t.up = { s.up with macs := s.up.macs.eraseIdx index } ∧
      OnlyWrites [.time, .up] s t) ∧
  (∀ dt (p : Fin 2) s, s.linked p.val = true → (∀ c, c < 4 → (nth s.clients c).outSlot = none) → p.val < s.up.ports.length →
    ∃ t, exec (.egressPortFree ⟨dt, p⟩) s = .next t ∧
      nth t.up.ports p.val =
        (match pickFrame ((s.advance dt).nextLaunch p.val) (nth s.up.ports p.val).queue with
          | some e => { nth s.up.ports p.val with tx := none }.start e ((s.advance dt).leaving e)
          | none => { nth s.up.ports p.val with tx := none }) ∧
      (∀ e x seq, pickFrame ((s.advance dt).nextLaunch p.val) (nth s.up.ports p.val).queue = some e → e.delayReq = some (x, seq) →
        (nth s.time.n x).delaySeq = seq → x < s.time.n.length → p.val < (nth s.time.n x).t3.length →
        nth (nth t.time.n x).t3 p.val = some ((s.advance dt).nNs x)) ∧
      SameClocks (s.advance dt) t ∧ OnlyWrites [.time, .power, .up] s t)

/-- A good frame teaches the switch its source address; one for a station learned on the same port, or for the hub, goes no
further; any other goes to the other port, where it is discarded and counted when the 24 KiB of forwarded frames are full, and
a frame with a bad FCS is counted (R394, R398, R399). -/
def Obligations.SwitchForwards : Prop :=
  (∀ dt (p : Fin 2) f s, s.linked p.val = true → lengthOk f.bytes = true → frameSrc f.bytes ≠ s.net.mac → f.fcsGood = true →
    isGroup (frameSrc f.bytes) = false → (s.up.macs.filter (·.1 != frameSrc f.bytes)).length < 64 →
    ∃ t, exec (.frameReceive dt p f) s = .next t ∧
      t.up.macs = s.up.macs.filter (·.1 != frameSrc f.bytes) ++ [(frameSrc f.bytes, p.val, s.now + dt)] ∧
      (s.goesAcross p.val (frameDst f.bytes) = false → frameDst f.bytes ≠ frameSrc f.bytes → t.up.ports = s.up.ports) ∧
      OnlyWrites [.free, .time, .up] s t) ∧
  (∀ dt (p : Fin 2) f s, s.linked p.val = true → lengthOk f.bytes = true → frameSrc f.bytes ≠ s.net.mac →
    isGroup (frameDst f.bytes) = true → s.linked (1 - p.val) = true → s.up.ports.length = 2 → s.timeBlock.tc = false →
    (nth s.up.ports (1 - p.val)).fwdBytes + f.bytes.length + 4 ≤ 24576 → ∃ t, exec (.frameReceive dt p f) s = .next t ∧
      t.sentOn (1 - p.val) { prio := if (ptpEvent f.bytes).isSome then 1 else 4, bytes := f.bytes, fcsGood := f.fcsGood
                             back := none, ctrl := false, fwd := true, ptpIn := none, delayReq := none, alarm := false } ∧
      (nth t.up.ports p.val).fcsErr = (nth s.up.ports p.val).fcsErr + (if f.fcsGood then 0 else 1) ∧
      OnlyWrites [.time, .up] s t) ∧
  (∀ dt (p : Fin 2) f s, s.linked p.val = true → lengthOk f.bytes = true → frameSrc f.bytes ≠ s.net.mac →
    isGroup (frameDst f.bytes) = true → s.linked (1 - p.val) = true → s.up.ports.length = 2 → s.timeBlock.tc = false →
    24576 < (nth s.up.ports (1 - p.val)).fwdBytes + f.bytes.length + 4 → ∃ t, exec (.frameReceive dt p f) s = .next t ∧
      nth t.up.ports (1 - p.val) =
        { nth s.up.ports (1 - p.val) with discards := (nth s.up.ports (1 - p.val)).discards + 1 } ∧
      OnlyWrites [.time, .up] s t)

/-- The hub answers an ARP request for its address, resolves the clients that an answer names, and counts a station that
claims its address; it asks for an unresolved client once a second and refreshes a resolved one every 60 s; and it answers an
ICMP echo request (R402). -/
def Obligations.AddressesResolved : Prop :=
  (∀ (p : Fin 2) f s, s.forHub p.val f = true → frameType f.bytes = 0x0806 →
    ((f.bytes.drop 14).take 28).take 6 = beBytes 2 1 ++ beBytes 2 0x0800 ++ [6, 4] →
    ∃ t, exec (.arpReceive p f) s = .next t ∧
      (word (beNat ((((f.bytes.drop 14).take 28).drop 14).take 4)) = s.net.ipaddr → p.val < s.up.ports.length →
        (nth t.up.ports p.val).arpConf = (nth s.up.ports p.val).arpConf + 1) ∧
      (word (beNat ((((f.bytes.drop 14).take 28).drop 14).take 4)) ≠ s.net.ipaddr →
        beNat ((((f.bytes.drop 14).take 28).drop 6).take 2) = 2 → ∀ c, c < s.up.arps.length →
        s.arpTarget c = some (word (beNat ((((f.bytes.drop 14).take 28).drop 14).take 4))) →
        (nth t.up.arps c).mac = some ((((f.bytes.drop 14).take 28).drop 8).take 6)) ∧
      (word (beNat ((((f.bytes.drop 14).take 28).drop 14).take 4)) ≠ s.net.ipaddr →
        beNat ((((f.bytes.drop 14).take 28).drop 6).take 2) = 1 →
        word (beNat ((((f.bytes.drop 14).take 28).drop 24).take 4)) = s.net.ipaddr → p.val < s.up.ports.length →
        t.sentOn p.val (ownFrame 3 (etherFrame ((((f.bytes.drop 14).take 28).drop 8).take 6) s.net.mac 0x0806
          (arpPacket 2 s.net.mac s.net.ipaddr ((((f.bytes.drop 14).take 28).drop 8).take 6)
            (word (beNat ((((f.bytes.drop 14).take 28).drop 14).take 4))))))) ∧
      OnlySends [.up, .clients] s t) ∧
  (∀ dt (c : Fin 4) s a, s.uplinkOn = true → c.val < s.up.arps.length → (nth s.up.arps c.val).mac = none →
    ((nth s.up.arps c.val).asked = false ∨ (nth s.up.arps c.val).last + secPs 1 ≤ s.now + dt) → s.arpTarget c.val = some a →
    ∃ t, exec (.arpRetry dt c) s = .next t ∧
      nth t.up.arps c.val = { nth s.up.arps c.val with last := s.now + dt, asked := true } ∧ OnlyWrites [.time, .up] s t) ∧
  (∀ dt (c : Fin 4) s a m, s.uplinkOn = true → c.val < s.up.arps.length → (nth s.up.arps c.val).mac = some m →
    (nth s.up.arps c.val).last + secPs 60 ≤ s.now + dt → s.arpTarget c.val = some a →
    ∃ t, exec (.arpRefresh dt c) s = .next t ∧
      (nth t.up.arps c.val).mac = (if 3 ≤ (nth s.up.arps c.val).misses + b2n (nth s.up.arps c.val).asked then none else some m) ∧
      ((nth s.up.arps c.val).misses + b2n (nth s.up.arps c.val).asked < 3 → (nth t.up.arps c.val).asked = true ∧
        (nth t.up.arps c.val).last = s.now + dt) ∧ OnlyWrites [.time, .up] s t) ∧
  (∀ dt (p : Fin 2) f s x, (s.advance dt).ipFor p.val f = some x → x.proto = 1 → nth x.body 0 = 8 → nth x.body 1 = 0 →
    8 ≤ x.body.length → x.body.length ≤ 1480 → inetSum x.body = 0 →
    (s.up.pings.filter fun t => decide (s.now + dt < t + secPs 1)).length < 8 → p.val < s.up.ports.length →
    ∃ t, exec (.icmpEcho dt p f) s = .next t ∧ t.up.ipId = s.up.ipId + 1 ∧
      t.sentOn p.val (ownFrame 3 (etherFrame (frameSrc f.bytes) s.net.mac 0x0800
        (ipDatagram (s.up.ipId + 1).toNat 1 s.net.ipaddr x.src
          ([0, 0] ++ beBytes 2 (inetSum ([0, 0, 0, 0] ++ x.body.drop 4)) ++ x.body.drop 4)))) ∧
      OnlyWrites [.time, .up] s t)

/-- A control datagram's message comes to its client's inbound slot; a client whose window, port and rate allow is served: its
SEQ goes one on and its last sending is now, as is an unslotted one's after HEARTBEAT seconds of silence (between packets,
which is the model's reading: assumption-log row 84); a domain's Delay_Req
takes the next sequence number, and each port's egress time is noted where it leaves: at once on a free port, later on a busy
one (R379, R380, R410–R414). -/
def Obligations.DatagramsGo : Prop :=
  (∀ (p : Fin 2) f s x c m, s.ipFor p.val f = some x → x.proto = 17 → c < s.clients.length →
    beNat ((x.body.drop 2).take 2) = s.net.ctrlPort → s.senderOf x.src = some c →
    controlMessage s.net.ctrlPort x.src x.dst x.body = some m → ∃ t, exec (.controlDatagram p f) s = .next t ∧
      (nth t.clients c).inSlot = some m ∧ OnlySends [.up, .clients] s t) ∧
  (∀ (p : Fin 2) f s x, s.ipFor p.val f = some x → x.proto = 17 → p.val < s.up.ports.length →
    beNat ((x.body.drop 2).take 2) = s.net.ctrlPort → s.senderOf x.src = none →
    ∃ t, exec (.controlDatagram p f) s = .next t ∧
      (nth t.up.ports p.val).unknown = (nth s.up.ports p.val).unknown + 1 ∧ OnlyWrites [.up] s t) ∧
  (∀ dt (c : Fin 4) fs s e m p, s.clientEntry c.val = some e → s.route c.val = some (m, p) →
    (s.advance dt).streamReady c.val e p = true → c.val < s.up.clients.length →
    ∃ t, exec (.streamDatagram dt c fs) s = .next t ∧ (nth t.up.clients c.val).seq = (nth s.up.clients c.val).seq + 1 ∧
      (nth t.up.clients c.val).lastSent = s.now + dt ∧
      (∀ i, i ≠ c.val → nth t.up.clients i = nth s.up.clients i) ∧
      OnlyWrites [.free, .time, .cw, .spill, .way, .up, .age] s t) ∧
  (∀ dt (c : Fin 4) s e m p, s.clientEntry c.val = some e → s.route c.val = some (m, p) → e.slotted = false →
    (s.advance dt).served c.val = true → s.roomFor p = true → (nth s.up.clients c.val).frag = none →
    (nth s.up.clients c.val).lastSent + secPs s.net.heartbeat ≤ s.now + dt → c.val < s.up.clients.length →
    ∃ t, exec (.heartbeat dt c) s = .next t ∧ (nth t.up.clients c.val).seq = (nth s.up.clients c.val).seq + 1 ∧
      (nth t.up.clients c.val).lastSent = s.now + dt ∧ t.cw = s.cw ∧ OnlyWrites [.time, .up] s t) ∧
  (∀ dt (x : Fin 2) s id, s.uplinkOn = true → s.domainOn x = true → x.val < s.time.n.length →
    (nth s.time.n x).master = some id → ∃ t, exec (.ptpDelayReq dt x) s = .next t ∧
      (nth t.time.n x).delaySeq = (nth s.time.n x).delaySeq + 1 ∧
      (∀ p : Fin 2, p.val < s.up.ports.length → (nth s.up.ports p.val).link = true → (nth s.up.ports p.val).tx = none →
        (nth s.up.ports p.val).queue = [] → (s.advance dt).nextLaunch p.val = none →
        nth (nth t.time.n x).t3 p.val = some ((s.advance dt).nNs x) ∧
        ∃ e, (nth t.up.ports p.val).tx = some e ∧ e.prio = 1 ∧ e.delayReq = some (x.val, (nth s.time.n x).delaySeq + 1)) ∧
      (∀ p : Fin 2, p.val < s.up.ports.length → (nth s.up.ports p.val).link = true → (nth s.up.ports p.val).tx ≠ none →
        nth (nth t.time.n x).t3 p.val = none ∧
        ∃ e ∈ (nth t.up.ports p.val).queue, e.prio = 1 ∧ e.delayReq = some (x.val, (nth s.time.n x).delaySeq + 1)) ∧
      OnlyWrites [.time, .up] s t)

/-! ### The host ports (16_host_serial.md) -/

/-- The clocked serial port: a word travels least significant byte first and each byte most significant bit first (R427).
HSEL_N falling builds a response with the next RSEQ (R419) and the hub drives HSDO; rising, the frame is accepted where R428
finds it good, and delivers its lines, or rejected and counted, with the command, the cursor and the lines as before, which come
again; HSDO carried the response and then, with a driven code of STRAP1, HSDI delayed (R428, R429, R431). A response that began
before Layby completes there: its lines are delivered, and nothing latches (R442). -/
def Obligations.ClockedSerialPort : Prop :=
  (∀ (w : Word) (i : Fin 4) (j : Fin 8), (serialBits [w])[8 * i.val + j.val]? = some (w.getLsbD (8 * i.val + 7 - j.val))) ∧
  (∀ dt fs s, s.portOn 4 = true → s.hs.isOpen = false → s.hs.again = none →
    ∃ t, exec (.hselFall dt fs) s = .next t ∧ t.hs.isOpen = true ∧
      t.hs.rseq = s.hs.rseq + 1 ∧ t.hs.lines ≤ (s.frameWords - 4) / 4 ∧ t.hsdoDriven = true ∧
      t.hs.tooSoon = s.hs.riseAt.elim false (fun r => decide (s.now + dt < r + usPs 1)) ∧
      (fs = [] → OnlyWrites [.time, .spill, .hs] s t) ∧ OnlyWrites [.free, .time, .cw, .spill, .way, .hs, .age] s t) ∧
  (∀ dt s b, s.portOn 4 = true → s.hs.isOpen = false → s.hs.again = some b → s.dataServed 4 = true →
    (s.advance dt).portServed 4 = true → s.hs.nextOp = 0 → (nth s.cw.readers 4).next = s.hs.from_ →
    b.took.head?.map (·.before) = some (s.cw.offset 4) → ∃ t, exec (.hselFall dt []) s = .next t ∧ t.hs.body = b ∧ t.hs.lines = b.ws.length / 4 ∧
      OnlyWrites [.time, .spill, .hs] s t) ∧
  (∀ dt edges hsdi s, s.hs.isOpen = true → s.frameOk (s.hsdiBits edges) (s.hsReq hsdi (s.hsdiBits edges)) = true →
    ∃ t, exec (.hselRise dt edges hsdi) s = .next t ∧ t.hs.isOpen = false ∧ t.hs.rejected = false ∧ t.hs.rej = s.hs.rej ∧
      t.hs.again = none ∧ (s.inMode .layby = false → t.hs.riseAt = some (s.now + dt)) ∧
      (s.inMode .layby = true → t.hs.result = s.hs.result ∧ t.clients = (s.takeResponse 4 s.hs.lines).clients) ∧
      t.hs.shifted = hsdoBits s.hsDriven s.hs.resp hsdi (s.hsdiBits edges) ∧ t.hsdoDriven = (s.portOn 4 && s.hsDriven) ∧
      (s.hs.content = 1 → 4 < s.cw.readers.length → (nth s.cw.readers 4).next = s.hs.from_ →
        nth t.cw.readers 4 = (nth s.cw.readers 4).takeLines 4 s.mark s.hs.took s.hs.lines) ∧
      OnlyWrites [.time, .cw, .hs, .clients] s t) ∧
  (∀ dt edges hsdi s, s.hs.isOpen = true → s.frameOk (s.hsdiBits edges) (s.hsReq hsdi (s.hsdiBits edges)) = false →
    ∃ t, exec (.hselRise dt edges hsdi) s = .next t ∧ t.hs.isOpen = false ∧ t.hs.rejected = true ∧
      t.hs.rej = s.hs.rej + 1 ∧ t.hs.result = s.hs.result ∧
      (s.inMode .layby = false → t.hs.riseAt = some (s.now + dt) ∧ t.hs.nextOp = s.hs.nextOp ∧
        t.hs.again = if s.hs.content = 1 then some s.hs.body else s.hs.again) ∧
      t.hs.shifted = hsdoBits s.hsDriven s.hs.resp hsdi (s.hsdiBits edges) ∧ t.hsdoDriven = (s.portOn 4 && s.hsDriven) ∧
      OnlyWrites [.time, .hs] s t)

/-- The two-wire port: a read addressed to the hub builds a response and holds TWSCL; a read that ends normally delivers its
whole lines, one that the nine-clock recovery ends is discarded, and one that has not ended stays open until a new START, which
discards it; a good write latches its command and a bad one is rejected, and REJECTED stays until a response has carried it; a
repeated START in place of an acknowledge bit and a bus timeout discard the transaction, the second counted in TOUT; 1 s without
the next fragment discards a partial message with RESULT 0x03 (R425, R426, R433–R437). -/
def Obligations.TwoWirePort : Prop :=
  (∀ dt addr n e fs s, s.twMine addr = true → s.tw.isOpen = false → ∃ t, exec (.twRead dt addr n e fs) s = .next t ∧
      t.tw.isOpen = true ∧ t.tw.stretch = true ∧ t.tw.rseq = s.tw.rseq + 1 ∧ t.tw.bytesRead = n ∧ t.tw.ending = e ∧
      (fs = [] → OnlyWrites [.time, .spill, .tw] s t) ∧ OnlyWrites [.free, .time, .cw, .spill, .way, .tw, .age] s t) ∧
  (∀ dt s, s.tw.isOpen = true → s.tw.stretch = true → (s.tw.ending = .stop ∨ s.tw.ending = .repeatedStart) →
    ∃ t, exec (.twStretchEnd dt) s = .next t ∧ t.tw.isOpen = false ∧ t.tw.rejected = false ∧ t.tw.stretch = false ∧
      (s.tw.content = 1 → 5 < s.cw.readers.length → (nth s.cw.readers 5).next = s.tw.from_ →
        nth t.cw.readers 5 =
          (nth s.cw.readers 5).takeLines 5 s.mark s.tw.took (min s.tw.lines ((s.tw.bytesRead - 16) / 16))) ∧
      OnlyWrites [.power, .time, .cw, .tw, .clients] s t) ∧
  (∀ dt s, s.tw.isOpen = true → s.tw.stretch = true → s.tw.ending = .recovery →
    ∃ t, exec (.twStretchEnd dt) s = .next t ∧ t.tw.isOpen = false ∧ t.tw.rejected = true ∧ t.tw.result = s.tw.result ∧
      OnlyWrites [.power, .time, .tw] s t) ∧
  (∀ dt s, s.tw.isOpen = true → s.tw.stretch = true → (s.tw.ending = .brokenAck ∨ ∃ i, s.tw.ending = .unfinished i) →
    ∃ t, exec (.twStretchEnd dt) s = .next t ∧ t.tw = { s.tw with stretch := false } ∧ OnlyWrites [.time, .tw] s t) ∧
  (∀ dt addr n e s, s.twMine addr = true → s.tw.isOpen = true → s.tw.stretch = false →
    ∃ t, exec (.twRead dt addr n e []) s = .next t ∧ t.tw.isOpen = true ∧ t.tw.stretch = true ∧ t.tw.rejected = true ∧
      t.tw.rseq = s.tw.rseq + 1 ∧ OnlyWrites [.power, .time, .spill, .tw] s t) ∧
  (∀ dt addr bytes e s, s.twMine addr = true → s.tw.isOpen = false → (e = .stop ∨ e = .repeatedStart) → bytes ≠ [] →
    ∃ t, exec (.twWrite dt addr bytes e) s = .next t ∧ t.tw.rejected = (s.tw.rejected || !writeOk bytes) ∧
      (writeOk bytes = true → fld (nth (wordsOf bytes) 0) 27 24 = 3 → t.tw.nextOp = 2 ∧ t.tw.result = 1) ∧
      (writeOk bytes = false → t.tw.result = s.tw.result ∧ t.clients = s.clients ∧
        (s.inMode .layby = false → t.tw.nextOp = s.tw.nextOp)) ∧
      OnlyWrites [.power, .time, .tw, .clients] s t) ∧
  (∀ s, s.tw.isOpen = true → s.tw.stretch = false → ∃ t, exec .twRepeatedStart s = .next t ∧ t.tw.isOpen = false ∧
      t.tw.rejected = true ∧ t.tw.result = s.tw.result ∧ OnlyWrites [.power, .tw] s t) ∧
  (∀ dt s, s.tw.isOpen = true → ∃ t, exec (.twBusTimeout dt) s = .next t ∧ t.tw.isOpen = false ∧ t.tw.rejected = true ∧
      t.tw.tout = s.tw.tout + 1 ∧ OnlyWrites [.power, .time, .tw] s t) ∧
  (∀ dt (c : Fin 2) s, (s.hostPort (4 + c.val)).asmN ≠ 0 → (s.hostPort (4 + c.val)).asmAt + secPs 1 ≤ s.now + dt →
    ∃ t, exec (.fragmentTimeout dt c) s = .next t ∧
      t.hostPort (4 + c.val) = { s.hostPort (4 + c.val) with asmWords := [], asmNext := 0, asmN := 0, result := 3 } ∧
      t.hostPort (5 - c.val) = s.hostPort (5 - c.val) ∧ OnlyWrites [.time, .hs, .tw] s t)

/-- Attention calls: causes 0x4, 0x3 and 0x1 go in that order, then the queued CALLs (R440); a call has the bytes of R439 and
the next SEQ and the clock of STRAP3 (R51); one that fails is tried again ATTN_RETRY ms after the bus is free again, and dropped and counted in REJ after ATTN_TRIES attempts
(R441). -/
def Obligations.AttentionCalls : Prop :=
  (∀ (a : Attn) k, (a.c4 = some k → a.pick = some (k, { a with c4 := none })) ∧
    (a.c4 = none → a.c3 = some k → a.pick = some (k, { a with c3 := none })) ∧
    (a.c4 = none → a.c3 = none → a.c1 = some k → a.pick = some (k, { a with c1 := none })) ∧
    (∀ q, a.c4 = none → a.c3 = none → a.c1 = none → a.calls = k :: q → a.pick = some (k, { a with calls := q }))) ∧
  (∀ dt s k a im, s.mayCall = true → s.attn.cur = none → s.attn.pick = some (k, a) → s.port.inForce = some im →
    ∃ t, exec (.attentionCall dt .acknowledged) s = .next t ∧
      t.attn = { a with
        bytes := callBytes k (s.strap 2) s.attn.seq, seq := (s.attn.seq + 1) % 16, cur := none, khz := s.attnKhz } ∧
      OnlyWrites [.time, .attn] s t) ∧
  (∀ dt s k a im out, s.mayCall = true → s.attn.cur = none → s.attn.pick = some (k, a) → s.port.inForce = some im →
    out ≠ .acknowledged → 1 < im.clients.attnTries → ∃ t, exec (.attentionCall dt out) s = .next t ∧
      t.attn.cur = some (k, 1) ∧ t.attn.retryAt = s.now + dt + callFreePs out + msPs im.clients.attnRetry ∧
      OnlyWrites [.time, .attn] s t) ∧
  (∀ dt s k n im, s.mayCall = true → s.attn.cur = some (k, n) → s.attn.retryAt ≤ s.now + dt → s.port.inForce = some im →
    ∃ t, exec (.attnRetry dt .acknowledged) s = .next t ∧ t.attn = { s.attn with cur := none, khz := s.attnKhz } ∧
      OnlyWrites [.time, .attn] s t) ∧
  (∀ dt s k n im out, s.mayCall = true → s.attn.cur = some (k, n) → s.attn.retryAt ≤ s.now + dt →
    s.port.inForce = some im → out ≠ .acknowledged → ∃ t, exec (.attnRetry dt out) s = .next t ∧
      t.attn.cur = (if im.clients.attnTries ≤ n + 1 then none else some (k, n + 1)) ∧
      t.tw.rej = (if im.clients.attnTries ≤ n + 1 then s.tw.rej + 1 else s.tw.rej) ∧ OnlyWrites [.time, .tw, .attn] s t)

/-! ### Mailboxes and locks (17_mailboxes.md) -/

/-- MESSAGE_ACCEPT takes the message out of the inbound slot: one that passes steps 1 to 6 of R449 moves NEXT_IN and joins the
client's work with its ACC; a refused one and one whose CRC fails move no milepost (R448, R449, R455). -/
def Obligations.MessagesAccepted : Prop :=
  (∀ (c : Fin 6) s m role acc next, c.val < s.clients.length → (nth s.clients c).inSlot = some m → s.mailOn c = true →
    3 ≤ m.length → m.length ≤ 32 → m.getLast? = some (crc32c (bytesOfWords (m.take (m.length - 1)))) →
    s.roleOf c = some role → s.refusal c role m = none →
    (nth s.clients c).classify role (msgType m) (msgCmp m) = (acc, next) → acc ≠ 2 → acc ≠ 4 →
    ∃ t, exec (.messageAccept c) s = .next t ∧ (nth t.clients c).inSlot = none ∧ (nth t.clients c).nextIn = next ∧
      (nth t.clients c).lastCmp = some (msgCmp m) ∧ (nth t.clients c).work = (nth s.clients c).work ++ [(m, acc)] ∧
      (∀ i, i ≠ c.val → (nth t.clients i).work = (nth s.clients i).work ∧ (nth t.clients i).nextIn = (nth s.clients i).nextIn) ∧
      OnlySends [.up, .clients] s t) ∧
  (∀ (c : Fin 6) s m role r, c.val < s.clients.length → (nth s.clients c).inSlot = some m → s.mailOn c = true →
    3 ≤ m.length → m.length ≤ 32 → m.getLast? = some (crc32c (bytesOfWords (m.take (m.length - 1)))) →
    s.roleOf c = some role → s.refusal c role m = some r →
    ∃ t, exec (.messageAccept c) s = .next t ∧ (nth t.clients c).inSlot = none ∧
      (nth t.clients c).nextIn = (nth s.clients c).nextIn ∧ (nth t.clients c).lastCmp = (nth s.clients c).lastCmp ∧
      (nth t.clients c).kfloor = (nth s.clients c).kfloor ∧ (nth t.clients c).work = (nth s.clients c).work ∧
      OnlySends [.up, .clients] s t) ∧
  (∀ (c : Fin 6) s m, (nth s.clients c).inSlot = some m → s.mailOn c = true →
    m.getLast? ≠ some (crc32c (bytesOfWords (m.take (m.length - 1)))) →
    exec (.messageAccept c) s = .next { s with clients := s.clients.modify c fun cl => { cl with inSlot := none } })

/-- WHERE frees the locks of its client and clears PEAK and DROPPED, and its pending work goes on without a reply (R453); ACK records M where it is later than ACKED and no later
than DELIVERED; REWIND and FLUSH become the reader's pending request; VOTE sets the vote (R318, R456, R457, R460–R462). -/
def Obligations.ReaderMessages : Prop :=
  (∀ (c : Fin 6) s m, s.runs c 0x01 m → ∃ t, exec (.where_ c) s = .next t ∧ worked s t c ∧ (nth t.clients c).dropped = 0 ∧
      (c.val < s.cw.readers.length → nth t.cw.readers c = { nth s.cw.readers c with
        peak := s.cw.backlog c, pend := (nth s.cw.readers c).pend.map fun q => { q with client := noClient } }) ∧
      (∀ x ∈ t.time.pps.pendLabels, x.2.2.1 ≠ c.val) ∧ SameClocks (s.orphan c) t ∧ t.port = (s.orphan c).port ∧
      (∀ k, nth t.locks k = if (nth s.locks k).holder = some c.val then Lock.free else nth s.locks k) ∧
      OnlyWrites [.time, .port, .cw, .mot, .up, .clients, .locks, .age] s t) ∧
  (∀ (c : Fin 6) s m, s.runs c 0x02 m → c.val < s.cw.readers.length → ∃ t, exec (.ack c) s = .next t ∧ worked s t c ∧
      nth t.cw.readers c = (if later32 (nth m 2) (nth s.cw.readers c).acked = true ∧
          later32 (nth m 2) (nth s.cw.readers c).delivered = false
        then { nth s.cw.readers c with acked := nth m 2 }
        else nth s.cw.readers c) ∧
      (∀ i, i ≠ c.val → nth t.cw.readers i = nth s.cw.readers i) ∧ OnlySends [.cw, .up, .clients] s t) ∧
  (∀ (c : Fin 6) s m, s.runs c 0x03 m → c.val < s.cw.readers.length → ∃ t, exec (.rewind c) s = .next t ∧ worked s t c ∧
      nth t.cw.readers c = (if later32 (nth m 2) ((nth s.cw.readers c).delivered + 1) = true then nth s.cw.readers c
        else { nth s.cw.readers c with pend := some { rewindTo := some (nth m 2), client := c, cmp := msgCmp m } }) ∧
      (∀ i, i ≠ c.val → nth t.cw.readers i = nth s.cw.readers i) ∧ OnlySends [.cw, .up, .clients] s t) ∧
  (∀ (c : Fin 6) s m, s.runs c 0x04 m → c.val < s.cw.readers.length → ∃ t, exec (.flush c) s = .next t ∧ worked s t c ∧
      nth t.cw.readers c =
        { nth s.cw.readers c with pend := some { rewindTo := none, client := c, cmp := msgCmp m } } ∧
      (∀ i, i ≠ c.val → nth t.cw.readers i = nth s.cw.readers i) ∧ OnlySends [.cw, .up, .clients] s t) ∧
  (∀ (c : Fin 6) s m, s.runs c 0x05 m → ∃ t, exec (.vote c) s = .next t ∧ worked s t c ∧
      (nth t.clients c).vote = fld (nth m 2) 1 0 ∧ (∀ i, i ≠ c.val → (nth t.clients i).vote = (nth s.clients i).vote) ∧
      OnlySends [.up, .clients] s t)

/-- CAL-READ and MARGIN-READ ask for a snapshot at the next mark; CAL-RESTORE stages its fragments in order, refuses another
client's, and 10 s without one discard them (R156, R157, R459, R532). -/
def Obligations.RecordMessages : Prop :=
  (∀ (c : Fin 6) s m, s.runs c 0x08 m → ∃ t, exec (.calRead c) s = .next t ∧ worked s t c ∧
      t.mot = { s.mot with calSnaps := s.mot.calSnaps.filter (fun x => x.1 != c.val) ++ [(c.val, msgCmp m)] } ∧
      OnlySends [.mot, .up, .clients] s t) ∧
  (∀ (c : Fin 6) s m, s.runs c 0x0B m → ∃ t, exec (.marginRead c) s = .next t ∧ worked s t c ∧
      t.age = { s.age with snaps := s.age.snaps.filter (fun x => x.1 != c.val) ++ [(c.val, msgCmp m)] } ∧
      OnlySends [.age, .up, .clients] s t) ∧
  (∀ (c : Fin 6) s m, s.runs c 0x09 m → s.mot.restore = none → fld (nth m 2) 7 0 = 0 →
    ∃ t r, exec (.calRestore c) s = .next t ∧ worked s t c ∧ t.mot = { s.mot with restore := some r } ∧ r.client = c.val ∧
      r.words = (m.take (m.length - 5)).drop 3 ∧ r.frags = 1 ∧ r.last = s.now ∧ r.verified = false ∧
      OnlySends [.mot, .up, .clients] s t) ∧
  (∀ (c : Fin 6) s m r, s.runs c 0x09 m → s.mot.restore = some r → r.client = c.val → r.verified = false →
    fld (nth m 2) 7 0 = r.frags → r.frags < 39 → ∃ t q, exec (.calRestore c) s = .next t ∧ worked s t c ∧
      t.mot = { s.mot with restore := some q } ∧ q.client = c.val ∧ q.words = r.words ++ (m.take (m.length - 5)).drop 3 ∧
      q.frags = r.frags + 1 ∧ q.last = s.now ∧ q.verified = false ∧ OnlySends [.mot, .up, .clients] s t) ∧
  (∀ (c : Fin 6) s m r, s.runs c 0x09 m → s.mot.restore = some r → (r.client ≠ c.val ∨ r.verified = true) →
    ∃ t, exec (.calRestore c) s = .next t ∧ worked s t c ∧ OnlySends [.up, .clients] s t) ∧
  (∀ dt s r, s.mot.restore = some r → r.verified = false → r.last + secPs 10 ≤ s.now + dt →
    ∃ t, exec (.calRestoreTimeout dt) s = .next t ∧ t.mot = { s.mot with restore := none } ∧
      OnlyWrites [.time, .mot, .up, .clients] s t)

/-- IDENTITY answers with the record of R3 in the next message from the hub; RELOAD-IMAGE starts a load where R98 does not
refuse it; SERVICE-WINDOW opens, extends or closes the window, which ends on TB-L; PPS-LABEL waits for its edge; LAUNCH
schedules an entry of the client's own (R3, R98, R386, R390, R458, R463, R480). -/
def Obligations.SystemMessages : Prop :=
  (∀ (c : Fin 6) s m, s.runs c 0x0A m → ∃ t, exec (.identity c) s = .next t ∧ worked s t c ∧
      (∀ acc, (nth s.clients c).reps = [{ cmp := msgCmp m, typ := 0x0A, acc := acc, body := none }] →
        (nth s.clients c).outSlot = none → s.roleOf c ≠ some 2 → 4 ≤ c.val →
        (nth t.clients c).outSlot = some (mailWords 0x8A (nth s.clients c).nextOut (s.identOf c)
          (replyWord (msgCmp m) acc 0 :: identityRecord)) ∧
        (nth t.clients c).nextOut = (nth s.clients c).nextOut + 1) ∧
      OnlySends [.up, .clients] s t) ∧
  (∀ (c : Fin 6) s m, s.runs c 0x0C m → ∃ t, exec (.reloadImage c) s = .next t ∧ worked s t c ∧
      t.port = (if s.reloadRefusal = none then { s.port with load := some (newLoad 2 (some (c.val, msgCmp m))) }
        else s.port) ∧
      (s.reloadRefusal = none → OnlySends [.port, .up, .clients] s t) ∧
      OnlySends [.port, .cw, .way, .up, .clients] s t) ∧
  (∀ (c : Fin 6) s m, s.runs c 0x0D m → ∃ t, exec (.serviceWindow c) s = .next t ∧ worked s t c ∧
      t.power = { s.power with service :=
        (if fld (nth m 2) 15 0 = 0 then none
         else if s.strap 13 = 6 then some (s.tbL + fld (nth m 2) 15 0 * 10 ^ 9) else s.power.service) } ∧
      OnlySends [.power, .up, .clients] s t) ∧
  (∀ dt s e, s.power.service = some e → ∃ t, exec (.serviceWindowEnd dt) s = .next t ∧
      t.power = { s.power with service := if e ≤ (s.advance dt).tbL then none else some e } ∧
      OnlyWrites [.power, .time] s t) ∧
  (∀ (c : Fin 6) s m, s.runs c 0x0E m → 2 ≤ s.time.pps.st →
    -7 ≤ (BitVec.ofNat 16 (fld (nth m 2) 15 0) - s.time.pps.count).toInt →
    (BitVec.ofNat 16 (fld (nth m 2) 15 0) - s.time.pps.count).toInt ≤ 8 →
    ∃ t, exec (.ppsLabel c) s = .next t ∧ worked s t c ∧ SameClocks { s with time := { s.time with pps := { s.time.pps with
        pendLabels := s.time.pps.pendLabels ++ [(fld (nth m 2) 31 16 * 2 ^ 32 + (nth m 3).toNat,
          BitVec.ofNat 16 (fld (nth m 2) 15 0), c.val, msgCmp m)] } } } t ∧ OnlyWrites [.time, .up, .clients] s t) ∧
  (∀ (c : Fin 6) fs s m l u, s.runs c 0x0F m → s.launchEntry (fld (nth m 2) 3 0) = some l → l.host = true →
    l.client = c.val → s.classify l.tb ((nth m 3).toNat + (nth m 4).toNat * 2 ^ 32) = .scheduled u →
    ∃ t, exec (.launch ⟨c, fs⟩) s = .next t ∧ worked s t c ∧ SameClocks { s with time := { s.time with
        acts := s.time.acts ++ [{ tb := l.tb, t := u, entry := fld (nth m 2) 3 0, periodic := false, stepped := false,
                                  alarm := false }] } } t ∧
      OnlyWrites [.time, .up, .clients] s t) ∧
  (∀ (c : Fin 6) fs s m, s.runs c 0x0F m → s.launchEntry (fld (nth m 2) 3 0) = none →
    ∃ t, exec (.launch ⟨c, fs⟩) s = .next t ∧ worked s t c ∧ OnlySends [.up, .clients] s t)

/-- A lock decision grants a free lock with its lease, to TW before HS; the holder's UNLOCK frees it; a LOCK whose LEASE is
out of range changes no lock; and a lease that ends on TB-L frees its lock (R462). -/
def Obligations.LocksDecided : Prop :=
  (∀ (c : Fin 6) s m a k, s.clients.length = 6 → (∀ i, i ≠ c.val → (nth s.clients i).work = []) →
    (nth s.clients c).work = [(m, a)] → msgType m = 0x06 → s.gate c m = .go → fld (nth m 2) 18 16 = k →
    s.lockHolder k = none → ∃ t, exec .lockDecision s = .next t ∧ worked s t c ∧
      t.locks = (if 1 ≤ fld (nth m 2) 15 0 ∧ fld (nth m 2) 15 0 ≤ 3600 then
          s.locks.set k { holder := some c.val, ends := s.tbL + fld (nth m 2) 15 0 * 10 ^ 9 } else s.locks) ∧
      OnlySends [.up, .clients, .locks] s t) ∧
  (∀ s m5 a5 m4 a4 k, s.clients.length = 6 → (∀ i, i < 4 → (nth s.clients i).work = []) →
    (nth s.clients 5).work = [(m5, a5)] → (nth s.clients 4).work = [(m4, a4)] → msgType m5 = 0x06 → msgType m4 = 0x06 →
    s.gate 5 m5 = .go → s.gate 4 m4 = .go → fld (nth m5 2) 18 16 = k → fld (nth m4 2) 18 16 = k → k < s.locks.length →
    1 ≤ fld (nth m5 2) 15 0 → fld (nth m5 2) 15 0 ≤ 3600 → s.lockHolder k = none →
    ∃ t, exec .lockDecision s = .next t ∧
      nth t.locks k = { holder := some 5, ends := s.tbL + fld (nth m5 2) 15 0 * 10 ^ 9 } ∧
      OnlySends [.up, .clients, .locks] s t) ∧
  (∀ (c : Fin 6) s m a, s.clients.length = 6 → (∀ i, i ≠ c.val → (nth s.clients i).work = []) →
    (nth s.clients c).work = [(m, a)] → msgType m = 0x07 → s.gate c m = .go →
    ∃ t, exec .lockDecision s = .next t ∧ worked s t c ∧
      t.locks = (if s.lockHolder (fld (nth m 2) 2 0) = some c.val then s.locks.set (fld (nth m 2) 2 0) Lock.free
        else s.locks) ∧ OnlySends [.up, .clients, .locks] s t) ∧
  (∀ dt (k : Fin 8) s c, (nth s.locks k.val).holder = some c → (nth s.locks k.val).ends ≤ (s.advance dt).tbL →
    ∃ t, exec (.lockLeaseEnd dt k) s = .next t ∧ t.locks = s.locks.set k.val Lock.free ∧ OnlyWrites [.time, .locks] s t)
end

