-- ==== Sys2Proof/Laws/Ops.lean ====
section
/-! SUPPORT. What each shared operation of Machine/Ops.lean leaves alone, one lemma for each: a proof about a command cites
these and does not unfold the operation. -/

namespace Sys2Proof.Machine

/-- A fold whose step keeps a quantity keeps it. -/
theorem foldl_keep {α β γ : Type} (p : β → γ) (f : β → α → β) (h : ∀ b a, p (f b a) = p b) (l : List α) (b : β) :
    p (l.foldl f b) = p b := by
  induction l generalizing b with
  | nil => rfl
  | cons a l ih => simp [ih, h]

/-- The same of a fold from the right. -/
theorem foldr_keep {α β γ : Type} (p : β → γ) (f : α → β → β) (h : ∀ a b, p (f a b) = p b) (l : List α) (b : β) :
    p (l.foldr f b) = p b := by
  induction l generalizing b with
  | nil => rfl
  | cons a l ih => simp [ih, h]

/-- CLK25 time moves no step of TB-G's rate. -/
@[simp] theorem Time.advance_gRate (t : Time) (dt : Nat) : (t.advance dt).gRate = t.gRate := rfl
@[simp] theorem Time.advance_rates (t : Time) (dt : Nat) : (t.advance dt).rates = t.rates := rfl
@[simp] theorem Time.advance_gIdx (t : Time) (dt : Nat) : (t.advance dt).gIdx = t.gIdx := rfl
@[simp] theorem Time.advance_ps (t : Time) (dt : Nat) : (t.advance dt).ps = t.ps + dt := rfl
@[simp] theorem Time.advance_lBase (t : Time) (dt : Nat) : (t.advance dt).lBase = t.lBase := rfl

@[simp] theorem ite_pending (c : Prop) [Decidable c] (a b : State) : (if c then a else b).pending = if c then a.pending else b.pending := by
  split <;> rfl

@[simp] theorem elim_pending {α : Type} (o : Option α) (s : State) (k : α → State) (h : ∀ x, (k x).pending = s.pending) :
    (o.elim s k).pending = s.pending := by
  cases o <;> simp [h]

@[simp] theorem foldl_pending {α : Type} (f : State → α → State) (h : ∀ b a, (f b a).pending = b.pending) (l : List α) (b : State) :
    (l.foldl f b).pending = b.pending := foldl_keep (fun s : State => s.pending) f h l b

@[simp] theorem foldr_pending {α : Type} (f : α → State → State) (h : ∀ a b, (f a b).pending = b.pending) (l : List α) (b : State) :
    (l.foldr f b).pending = b.pending := foldr_keep (fun s : State => s.pending) f h l b

@[simp] theorem ite_free (c : Prop) [Decidable c] (a b : State) : (if c then a else b).free = if c then a.free else b.free := by
  split <;> rfl

@[simp] theorem elim_free {α : Type} (o : Option α) (s : State) (k : α → State) (h : ∀ x, (k x).free = s.free) :
    (o.elim s k).free = s.free := by
  cases o <;> simp [h]

@[simp] theorem foldl_free {α : Type} (f : State → α → State) (h : ∀ b a, (f b a).free = b.free) (l : List α) (b : State) :
    (l.foldl f b).free = b.free := foldl_keep (fun s : State => s.free) f h l b

@[simp] theorem foldr_free {α : Type} (f : α → State → State) (h : ∀ a b, (f a b).free = b.free) (l : List α) (b : State) :
    (l.foldr f b).free = b.free := foldr_keep (fun s : State => s.free) f h l b

@[simp] theorem ite_power (c : Prop) [Decidable c] (a b : State) : (if c then a else b).power = if c then a.power else b.power := by
  split <;> rfl

@[simp] theorem elim_power {α : Type} (o : Option α) (s : State) (k : α → State) (h : ∀ x, (k x).power = s.power) :
    (o.elim s k).power = s.power := by
  cases o <;> simp [h]

@[simp] theorem foldl_power {α : Type} (f : State → α → State) (h : ∀ b a, (f b a).power = b.power) (l : List α) (b : State) :
    (l.foldl f b).power = b.power := foldl_keep (fun s : State => s.power) f h l b

@[simp] theorem foldr_power {α : Type} (f : α → State → State) (h : ∀ a b, (f a b).power = b.power) (l : List α) (b : State) :
    (l.foldr f b).power = b.power := foldr_keep (fun s : State => s.power) f h l b

@[simp] theorem ite_time (c : Prop) [Decidable c] (a b : State) : (if c then a else b).time = if c then a.time else b.time := by
  split <;> rfl

@[simp] theorem elim_time {α : Type} (o : Option α) (s : State) (k : α → State) (h : ∀ x, (k x).time = s.time) :
    (o.elim s k).time = s.time := by
  cases o <;> simp [h]

@[simp] theorem foldl_time {α : Type} (f : State → α → State) (h : ∀ b a, (f b a).time = b.time) (l : List α) (b : State) :
    (l.foldl f b).time = b.time := foldl_keep (fun s : State => s.time) f h l b

@[simp] theorem foldr_time {α : Type} (f : α → State → State) (h : ∀ a b, (f a b).time = b.time) (l : List α) (b : State) :
    (l.foldr f b).time = b.time := foldr_keep (fun s : State => s.time) f h l b

@[simp] theorem ite_fuses (c : Prop) [Decidable c] (a b : State) : (if c then a else b).fuses = if c then a.fuses else b.fuses := by
  split <;> rfl

@[simp] theorem elim_fuses {α : Type} (o : Option α) (s : State) (k : α → State) (h : ∀ x, (k x).fuses = s.fuses) :
    (o.elim s k).fuses = s.fuses := by
  cases o <;> simp [h]

@[simp] theorem foldl_fuses {α : Type} (f : State → α → State) (h : ∀ b a, (f b a).fuses = b.fuses) (l : List α) (b : State) :
    (l.foldl f b).fuses = b.fuses := foldl_keep (fun s : State => s.fuses) f h l b

@[simp] theorem foldr_fuses {α : Type} (f : α → State → State) (h : ∀ a b, (f a b).fuses = b.fuses) (l : List α) (b : State) :
    (l.foldr f b).fuses = b.fuses := foldr_keep (fun s : State => s.fuses) f h l b

@[simp] theorem ite_straps (c : Prop) [Decidable c] (a b : State) : (if c then a else b).straps = if c then a.straps else b.straps := by
  split <;> rfl

@[simp] theorem elim_straps {α : Type} (o : Option α) (s : State) (k : α → State) (h : ∀ x, (k x).straps = s.straps) :
    (o.elim s k).straps = s.straps := by
  cases o <;> simp [h]

@[simp] theorem foldl_straps {α : Type} (f : State → α → State) (h : ∀ b a, (f b a).straps = b.straps) (l : List α) (b : State) :
    (l.foldl f b).straps = b.straps := foldl_keep (fun s : State => s.straps) f h l b

@[simp] theorem foldr_straps {α : Type} (f : α → State → State) (h : ∀ a b, (f a b).straps = b.straps) (l : List α) (b : State) :
    (l.foldr f b).straps = b.straps := foldr_keep (fun s : State => s.straps) f h l b

@[simp] theorem ite_port (c : Prop) [Decidable c] (a b : State) : (if c then a else b).port = if c then a.port else b.port := by
  split <;> rfl

@[simp] theorem elim_port {α : Type} (o : Option α) (s : State) (k : α → State) (h : ∀ x, (k x).port = s.port) :
    (o.elim s k).port = s.port := by
  cases o <;> simp [h]

@[simp] theorem foldl_port {α : Type} (f : State → α → State) (h : ∀ b a, (f b a).port = b.port) (l : List α) (b : State) :
    (l.foldl f b).port = b.port := foldl_keep (fun s : State => s.port) f h l b

@[simp] theorem foldr_port {α : Type} (f : α → State → State) (h : ∀ a b, (f a b).port = b.port) (l : List α) (b : State) :
    (l.foldr f b).port = b.port := foldr_keep (fun s : State => s.port) f h l b

@[simp] theorem ite_cw (c : Prop) [Decidable c] (a b : State) : (if c then a else b).cw = if c then a.cw else b.cw := by
  split <;> rfl

@[simp] theorem elim_cw {α : Type} (o : Option α) (s : State) (k : α → State) (h : ∀ x, (k x).cw = s.cw) :
    (o.elim s k).cw = s.cw := by
  cases o <;> simp [h]

@[simp] theorem foldl_cw {α : Type} (f : State → α → State) (h : ∀ b a, (f b a).cw = b.cw) (l : List α) (b : State) :
    (l.foldl f b).cw = b.cw := foldl_keep (fun s : State => s.cw) f h l b

@[simp] theorem foldr_cw {α : Type} (f : α → State → State) (h : ∀ a b, (f a b).cw = b.cw) (l : List α) (b : State) :
    (l.foldr f b).cw = b.cw := foldr_keep (fun s : State => s.cw) f h l b

@[simp] theorem ite_spill (c : Prop) [Decidable c] (a b : State) : (if c then a else b).spill = if c then a.spill else b.spill := by
  split <;> rfl

@[simp] theorem elim_spill {α : Type} (o : Option α) (s : State) (k : α → State) (h : ∀ x, (k x).spill = s.spill) :
    (o.elim s k).spill = s.spill := by
  cases o <;> simp [h]

@[simp] theorem foldl_spill {α : Type} (f : State → α → State) (h : ∀ b a, (f b a).spill = b.spill) (l : List α) (b : State) :
    (l.foldl f b).spill = b.spill := foldl_keep (fun s : State => s.spill) f h l b

@[simp] theorem foldr_spill {α : Type} (f : α → State → State) (h : ∀ a b, (f a b).spill = b.spill) (l : List α) (b : State) :
    (l.foldr f b).spill = b.spill := foldr_keep (fun s : State => s.spill) f h l b

@[simp] theorem ite_red (c : Prop) [Decidable c] (a b : State) : (if c then a else b).red = if c then a.red else b.red := by
  split <;> rfl

@[simp] theorem elim_red {α : Type} (o : Option α) (s : State) (k : α → State) (h : ∀ x, (k x).red = s.red) :
    (o.elim s k).red = s.red := by
  cases o <;> simp [h]

@[simp] theorem foldl_red {α : Type} (f : State → α → State) (h : ∀ b a, (f b a).red = b.red) (l : List α) (b : State) :
    (l.foldl f b).red = b.red := foldl_keep (fun s : State => s.red) f h l b

@[simp] theorem foldr_red {α : Type} (f : α → State → State) (h : ∀ a b, (f a b).red = b.red) (l : List α) (b : State) :
    (l.foldr f b).red = b.red := foldr_keep (fun s : State => s.red) f h l b

@[simp] theorem ite_mot (c : Prop) [Decidable c] (a b : State) : (if c then a else b).mot = if c then a.mot else b.mot := by
  split <;> rfl

@[simp] theorem elim_mot {α : Type} (o : Option α) (s : State) (k : α → State) (h : ∀ x, (k x).mot = s.mot) :
    (o.elim s k).mot = s.mot := by
  cases o <;> simp [h]

@[simp] theorem foldl_mot {α : Type} (f : State → α → State) (h : ∀ b a, (f b a).mot = b.mot) (l : List α) (b : State) :
    (l.foldl f b).mot = b.mot := foldl_keep (fun s : State => s.mot) f h l b

@[simp] theorem foldr_mot {α : Type} (f : α → State → State) (h : ∀ a b, (f a b).mot = b.mot) (l : List α) (b : State) :
    (l.foldr f b).mot = b.mot := foldr_keep (fun s : State => s.mot) f h l b

@[simp] theorem ite_prod (c : Prop) [Decidable c] (a b : State) : (if c then a else b).prod = if c then a.prod else b.prod := by
  split <;> rfl

@[simp] theorem elim_prod {α : Type} (o : Option α) (s : State) (k : α → State) (h : ∀ x, (k x).prod = s.prod) :
    (o.elim s k).prod = s.prod := by
  cases o <;> simp [h]

@[simp] theorem foldl_prod {α : Type} (f : State → α → State) (h : ∀ b a, (f b a).prod = b.prod) (l : List α) (b : State) :
    (l.foldl f b).prod = b.prod := foldl_keep (fun s : State => s.prod) f h l b

@[simp] theorem foldr_prod {α : Type} (f : α → State → State) (h : ∀ a b, (f a b).prod = b.prod) (l : List α) (b : State) :
    (l.foldr f b).prod = b.prod := foldr_keep (fun s : State => s.prod) f h l b

@[simp] theorem ite_way (c : Prop) [Decidable c] (a b : State) : (if c then a else b).way = if c then a.way else b.way := by
  split <;> rfl

@[simp] theorem elim_way {α : Type} (o : Option α) (s : State) (k : α → State) (h : ∀ x, (k x).way = s.way) :
    (o.elim s k).way = s.way := by
  cases o <;> simp [h]

@[simp] theorem foldl_way {α : Type} (f : State → α → State) (h : ∀ b a, (f b a).way = b.way) (l : List α) (b : State) :
    (l.foldl f b).way = b.way := foldl_keep (fun s : State => s.way) f h l b

@[simp] theorem foldr_way {α : Type} (f : α → State → State) (h : ∀ a b, (f a b).way = b.way) (l : List α) (b : State) :
    (l.foldr f b).way = b.way := foldr_keep (fun s : State => s.way) f h l b

@[simp] theorem ite_fe (c : Prop) [Decidable c] (a b : State) : (if c then a else b).fe = if c then a.fe else b.fe := by
  split <;> rfl

@[simp] theorem elim_fe {α : Type} (o : Option α) (s : State) (k : α → State) (h : ∀ x, (k x).fe = s.fe) :
    (o.elim s k).fe = s.fe := by
  cases o <;> simp [h]

@[simp] theorem foldl_fe {α : Type} (f : State → α → State) (h : ∀ b a, (f b a).fe = b.fe) (l : List α) (b : State) :
    (l.foldl f b).fe = b.fe := foldl_keep (fun s : State => s.fe) f h l b

@[simp] theorem foldr_fe {α : Type} (f : α → State → State) (h : ∀ a b, (f a b).fe = b.fe) (l : List α) (b : State) :
    (l.foldr f b).fe = b.fe := foldr_keep (fun s : State => s.fe) f h l b

@[simp] theorem ite_roads (c : Prop) [Decidable c] (a b : State) : (if c then a else b).roads = if c then a.roads else b.roads := by
  split <;> rfl

@[simp] theorem elim_roads {α : Type} (o : Option α) (s : State) (k : α → State) (h : ∀ x, (k x).roads = s.roads) :
    (o.elim s k).roads = s.roads := by
  cases o <;> simp [h]

@[simp] theorem foldl_roads {α : Type} (f : State → α → State) (h : ∀ b a, (f b a).roads = b.roads) (l : List α) (b : State) :
    (l.foldl f b).roads = b.roads := foldl_keep (fun s : State => s.roads) f h l b

@[simp] theorem foldr_roads {α : Type} (f : α → State → State) (h : ∀ a b, (f a b).roads = b.roads) (l : List α) (b : State) :
    (l.foldr f b).roads = b.roads := foldr_keep (fun s : State => s.roads) f h l b

@[simp] theorem ite_up (c : Prop) [Decidable c] (a b : State) : (if c then a else b).up = if c then a.up else b.up := by
  split <;> rfl

@[simp] theorem elim_up {α : Type} (o : Option α) (s : State) (k : α → State) (h : ∀ x, (k x).up = s.up) :
    (o.elim s k).up = s.up := by
  cases o <;> simp [h]

@[simp] theorem foldl_up {α : Type} (f : State → α → State) (h : ∀ b a, (f b a).up = b.up) (l : List α) (b : State) :
    (l.foldl f b).up = b.up := foldl_keep (fun s : State => s.up) f h l b

@[simp] theorem foldr_up {α : Type} (f : α → State → State) (h : ∀ a b, (f a b).up = b.up) (l : List α) (b : State) :
    (l.foldr f b).up = b.up := foldr_keep (fun s : State => s.up) f h l b

@[simp] theorem ite_hs (c : Prop) [Decidable c] (a b : State) : (if c then a else b).hs = if c then a.hs else b.hs := by
  split <;> rfl

@[simp] theorem elim_hs {α : Type} (o : Option α) (s : State) (k : α → State) (h : ∀ x, (k x).hs = s.hs) :
    (o.elim s k).hs = s.hs := by
  cases o <;> simp [h]

@[simp] theorem foldl_hs {α : Type} (f : State → α → State) (h : ∀ b a, (f b a).hs = b.hs) (l : List α) (b : State) :
    (l.foldl f b).hs = b.hs := foldl_keep (fun s : State => s.hs) f h l b

@[simp] theorem foldr_hs {α : Type} (f : α → State → State) (h : ∀ a b, (f a b).hs = b.hs) (l : List α) (b : State) :
    (l.foldr f b).hs = b.hs := foldr_keep (fun s : State => s.hs) f h l b

@[simp] theorem ite_tw (c : Prop) [Decidable c] (a b : State) : (if c then a else b).tw = if c then a.tw else b.tw := by
  split <;> rfl

@[simp] theorem elim_tw {α : Type} (o : Option α) (s : State) (k : α → State) (h : ∀ x, (k x).tw = s.tw) :
    (o.elim s k).tw = s.tw := by
  cases o <;> simp [h]

@[simp] theorem foldl_tw {α : Type} (f : State → α → State) (h : ∀ b a, (f b a).tw = b.tw) (l : List α) (b : State) :
    (l.foldl f b).tw = b.tw := foldl_keep (fun s : State => s.tw) f h l b

@[simp] theorem foldr_tw {α : Type} (f : α → State → State) (h : ∀ a b, (f a b).tw = b.tw) (l : List α) (b : State) :
    (l.foldr f b).tw = b.tw := foldr_keep (fun s : State => s.tw) f h l b

@[simp] theorem ite_attn (c : Prop) [Decidable c] (a b : State) : (if c then a else b).attn = if c then a.attn else b.attn := by
  split <;> rfl

@[simp] theorem elim_attn {α : Type} (o : Option α) (s : State) (k : α → State) (h : ∀ x, (k x).attn = s.attn) :
    (o.elim s k).attn = s.attn := by
  cases o <;> simp [h]

@[simp] theorem foldl_attn {α : Type} (f : State → α → State) (h : ∀ b a, (f b a).attn = b.attn) (l : List α) (b : State) :
    (l.foldl f b).attn = b.attn := foldl_keep (fun s : State => s.attn) f h l b

@[simp] theorem foldr_attn {α : Type} (f : α → State → State) (h : ∀ a b, (f a b).attn = b.attn) (l : List α) (b : State) :
    (l.foldr f b).attn = b.attn := foldr_keep (fun s : State => s.attn) f h l b

@[simp] theorem ite_clients (c : Prop) [Decidable c] (a b : State) : (if c then a else b).clients = if c then a.clients else b.clients := by
  split <;> rfl

@[simp] theorem elim_clients {α : Type} (o : Option α) (s : State) (k : α → State) (h : ∀ x, (k x).clients = s.clients) :
    (o.elim s k).clients = s.clients := by
  cases o <;> simp [h]

@[simp] theorem foldl_clients {α : Type} (f : State → α → State) (h : ∀ b a, (f b a).clients = b.clients) (l : List α) (b : State) :
    (l.foldl f b).clients = b.clients := foldl_keep (fun s : State => s.clients) f h l b

@[simp] theorem foldr_clients {α : Type} (f : α → State → State) (h : ∀ a b, (f a b).clients = b.clients) (l : List α) (b : State) :
    (l.foldr f b).clients = b.clients := foldr_keep (fun s : State => s.clients) f h l b

@[simp] theorem ite_locks (c : Prop) [Decidable c] (a b : State) : (if c then a else b).locks = if c then a.locks else b.locks := by
  split <;> rfl

@[simp] theorem elim_locks {α : Type} (o : Option α) (s : State) (k : α → State) (h : ∀ x, (k x).locks = s.locks) :
    (o.elim s k).locks = s.locks := by
  cases o <;> simp [h]

@[simp] theorem foldl_locks {α : Type} (f : State → α → State) (h : ∀ b a, (f b a).locks = b.locks) (l : List α) (b : State) :
    (l.foldl f b).locks = b.locks := foldl_keep (fun s : State => s.locks) f h l b

@[simp] theorem foldr_locks {α : Type} (f : α → State → State) (h : ∀ a b, (f a b).locks = b.locks) (l : List α) (b : State) :
    (l.foldr f b).locks = b.locks := foldr_keep (fun s : State => s.locks) f h l b

@[simp] theorem ite_pin (c : Prop) [Decidable c] (a b : State) : (if c then a else b).pin = if c then a.pin else b.pin := by
  split <;> rfl

@[simp] theorem elim_pin {α : Type} (o : Option α) (s : State) (k : α → State) (h : ∀ x, (k x).pin = s.pin) :
    (o.elim s k).pin = s.pin := by
  cases o <;> simp [h]

@[simp] theorem foldl_pin {α : Type} (f : State → α → State) (h : ∀ b a, (f b a).pin = b.pin) (l : List α) (b : State) :
    (l.foldl f b).pin = b.pin := foldl_keep (fun s : State => s.pin) f h l b

@[simp] theorem foldr_pin {α : Type} (f : α → State → State) (h : ∀ a b, (f a b).pin = b.pin) (l : List α) (b : State) :
    (l.foldr f b).pin = b.pin := foldr_keep (fun s : State => s.pin) f h l b

@[simp] theorem ite_age (c : Prop) [Decidable c] (a b : State) : (if c then a else b).age = if c then a.age else b.age := by
  split <;> rfl

@[simp] theorem elim_age {α : Type} (o : Option α) (s : State) (k : α → State) (h : ∀ x, (k x).age = s.age) :
    (o.elim s k).age = s.age := by
  cases o <;> simp [h]

@[simp] theorem foldl_age {α : Type} (f : State → α → State) (h : ∀ b a, (f b a).age = b.age) (l : List α) (b : State) :
    (l.foldl f b).age = b.age := foldl_keep (fun s : State => s.age) f h l b

@[simp] theorem foldr_age {α : Type} (f : α → State → State) (h : ∀ a b, (f a b).age = b.age) (l : List α) (b : State) :
    (l.foldr f b).age = b.age := foldr_keep (fun s : State => s.age) f h l b

@[simp] theorem ite_tap (c : Prop) [Decidable c] (a b : State) : (if c then a else b).tap = if c then a.tap else b.tap := by
  split <;> rfl

@[simp] theorem elim_tap {α : Type} (o : Option α) (s : State) (k : α → State) (h : ∀ x, (k x).tap = s.tap) :
    (o.elim s k).tap = s.tap := by
  cases o <;> simp [h]

@[simp] theorem foldl_tap {α : Type} (f : State → α → State) (h : ∀ b a, (f b a).tap = b.tap) (l : List α) (b : State) :
    (l.foldl f b).tap = b.tap := foldl_keep (fun s : State => s.tap) f h l b

@[simp] theorem foldr_tap {α : Type} (f : α → State → State) (h : ∀ a b, (f a b).tap = b.tap) (l : List α) (b : State) :
    (l.foldr f b).tap = b.tap := foldr_keep (fun s : State => s.tap) f h l b

@[simp] theorem State.advance_keeps (s : State) (dt : Nat) :
    (State.advance s dt).pending = s.pending ∧
    (State.advance s dt).free = s.free ∧
    (State.advance s dt).power = s.power ∧
    (State.advance s dt).fuses = s.fuses ∧
    (State.advance s dt).straps = s.straps ∧
    (State.advance s dt).port = s.port ∧
    (State.advance s dt).cw = s.cw ∧
    (State.advance s dt).spill = s.spill ∧
    (State.advance s dt).red = s.red ∧
    (State.advance s dt).mot = s.mot ∧
    (State.advance s dt).prod = s.prod ∧
    (State.advance s dt).way = s.way ∧
    (State.advance s dt).fe = s.fe ∧
    (State.advance s dt).roads = s.roads ∧
    (State.advance s dt).up = s.up ∧
    (State.advance s dt).hs = s.hs ∧
    (State.advance s dt).tw = s.tw ∧
    (State.advance s dt).attn = s.attn ∧
    (State.advance s dt).clients = s.clients ∧
    (State.advance s dt).locks = s.locks ∧
    (State.advance s dt).pin = s.pin ∧
    (State.advance s dt).age = s.age ∧
    (State.advance s dt).tap = s.tap := by
  unfold State.advance
  and_intros <;>
    ((try simp) <;> (try (repeat' split)) <;> (try simp))

@[simp] theorem State.takeWord_keeps (s : State) :
    (State.takeWord s).2.pending = s.pending ∧
    (State.takeWord s).2.power = s.power ∧
    (State.takeWord s).2.time = s.time ∧
    (State.takeWord s).2.fuses = s.fuses ∧
    (State.takeWord s).2.straps = s.straps ∧
    (State.takeWord s).2.port = s.port ∧
    (State.takeWord s).2.cw = s.cw ∧
    (State.takeWord s).2.spill = s.spill ∧
    (State.takeWord s).2.red = s.red ∧
    (State.takeWord s).2.mot = s.mot ∧
    (State.takeWord s).2.prod = s.prod ∧
    (State.takeWord s).2.way = s.way ∧
    (State.takeWord s).2.fe = s.fe ∧
    (State.takeWord s).2.roads = s.roads ∧
    (State.takeWord s).2.up = s.up ∧
    (State.takeWord s).2.hs = s.hs ∧
    (State.takeWord s).2.tw = s.tw ∧
    (State.takeWord s).2.attn = s.attn ∧
    (State.takeWord s).2.clients = s.clients ∧
    (State.takeWord s).2.locks = s.locks ∧
    (State.takeWord s).2.pin = s.pin ∧
    (State.takeWord s).2.age = s.age ∧
    (State.takeWord s).2.tap = s.tap := by
  unfold State.takeWord
  and_intros <;>
    ((try simp) <;> (try (repeat' split)) <;> (try simp))

@[simp] theorem State.takeBool_keeps (s : State) :
    (State.takeBool s).2.pending = s.pending ∧
    (State.takeBool s).2.power = s.power ∧
    (State.takeBool s).2.time = s.time ∧
    (State.takeBool s).2.fuses = s.fuses ∧
    (State.takeBool s).2.straps = s.straps ∧
    (State.takeBool s).2.port = s.port ∧
    (State.takeBool s).2.cw = s.cw ∧
    (State.takeBool s).2.spill = s.spill ∧
    (State.takeBool s).2.red = s.red ∧
    (State.takeBool s).2.mot = s.mot ∧
    (State.takeBool s).2.prod = s.prod ∧
    (State.takeBool s).2.way = s.way ∧
    (State.takeBool s).2.fe = s.fe ∧
    (State.takeBool s).2.roads = s.roads ∧
    (State.takeBool s).2.up = s.up ∧
    (State.takeBool s).2.hs = s.hs ∧
    (State.takeBool s).2.tw = s.tw ∧
    (State.takeBool s).2.attn = s.attn ∧
    (State.takeBool s).2.clients = s.clients ∧
    (State.takeBool s).2.locks = s.locks ∧
    (State.takeBool s).2.pin = s.pin ∧
    (State.takeBool s).2.age = s.age ∧
    (State.takeBool s).2.tap = s.tap := by
  unfold State.takeBool
  and_intros <;>
    ((try simp) <;> (try (repeat' split)) <;> (try simp))

@[simp] theorem State.takeNat_keeps (s : State) :
    (State.takeNat s).2.pending = s.pending ∧
    (State.takeNat s).2.power = s.power ∧
    (State.takeNat s).2.time = s.time ∧
    (State.takeNat s).2.fuses = s.fuses ∧
    (State.takeNat s).2.straps = s.straps ∧
    (State.takeNat s).2.port = s.port ∧
    (State.takeNat s).2.cw = s.cw ∧
    (State.takeNat s).2.spill = s.spill ∧
    (State.takeNat s).2.red = s.red ∧
    (State.takeNat s).2.mot = s.mot ∧
    (State.takeNat s).2.prod = s.prod ∧
    (State.takeNat s).2.way = s.way ∧
    (State.takeNat s).2.fe = s.fe ∧
    (State.takeNat s).2.roads = s.roads ∧
    (State.takeNat s).2.up = s.up ∧
    (State.takeNat s).2.hs = s.hs ∧
    (State.takeNat s).2.tw = s.tw ∧
    (State.takeNat s).2.attn = s.attn ∧
    (State.takeNat s).2.clients = s.clients ∧
    (State.takeNat s).2.locks = s.locks ∧
    (State.takeNat s).2.pin = s.pin ∧
    (State.takeNat s).2.age = s.age ∧
    (State.takeNat s).2.tap = s.tap := by
  unfold State.takeNat
  and_intros <;>
    ((try simp) <;> (try (repeat' split)) <;> (try simp))

@[simp] theorem State.takeFindings_keeps (s : State) :
    (State.takeFindings s).2.pending = s.pending ∧
    (State.takeFindings s).2.power = s.power ∧
    (State.takeFindings s).2.time = s.time ∧
    (State.takeFindings s).2.fuses = s.fuses ∧
    (State.takeFindings s).2.straps = s.straps ∧
    (State.takeFindings s).2.port = s.port ∧
    (State.takeFindings s).2.cw = s.cw ∧
    (State.takeFindings s).2.spill = s.spill ∧
    (State.takeFindings s).2.red = s.red ∧
    (State.takeFindings s).2.mot = s.mot ∧
    (State.takeFindings s).2.prod = s.prod ∧
    (State.takeFindings s).2.way = s.way ∧
    (State.takeFindings s).2.fe = s.fe ∧
    (State.takeFindings s).2.roads = s.roads ∧
    (State.takeFindings s).2.up = s.up ∧
    (State.takeFindings s).2.hs = s.hs ∧
    (State.takeFindings s).2.tw = s.tw ∧
    (State.takeFindings s).2.attn = s.attn ∧
    (State.takeFindings s).2.clients = s.clients ∧
    (State.takeFindings s).2.locks = s.locks ∧
    (State.takeFindings s).2.pin = s.pin ∧
    (State.takeFindings s).2.age = s.age ∧
    (State.takeFindings s).2.tap = s.tap := by
  unfold State.takeFindings
  and_intros <;>
    ((try simp) <;> (try (repeat' split)) <;> (try simp))

@[simp] theorem State.noteProd_keeps (s : State) (p : Packet) :
    (State.noteProd s p).pending = s.pending ∧
    (State.noteProd s p).free = s.free ∧
    (State.noteProd s p).power = s.power ∧
    (State.noteProd s p).time = s.time ∧
    (State.noteProd s p).fuses = s.fuses ∧
    (State.noteProd s p).straps = s.straps ∧
    (State.noteProd s p).port = s.port ∧
    (State.noteProd s p).cw = s.cw ∧
    (State.noteProd s p).spill = s.spill ∧
    (State.noteProd s p).red = s.red ∧
    (State.noteProd s p).mot = s.mot ∧
    (State.noteProd s p).prod = s.prod ∧
    (State.noteProd s p).fe = s.fe ∧
    (State.noteProd s p).roads = s.roads ∧
    (State.noteProd s p).up = s.up ∧
    (State.noteProd s p).hs = s.hs ∧
    (State.noteProd s p).tw = s.tw ∧
    (State.noteProd s p).attn = s.attn ∧
    (State.noteProd s p).clients = s.clients ∧
    (State.noteProd s p).locks = s.locks ∧
    (State.noteProd s p).pin = s.pin ∧
    (State.noteProd s p).age = s.age ∧
    (State.noteProd s p).tap = s.tap := by
  unfold State.noteProd
  and_intros <;>
    ((try simp) <;> (try (repeat' split)) <;> (try simp))

@[simp] theorem State.writePacket_keeps (s : State) (p : Packet) :
    (State.writePacket s p).pending = s.pending ∧
    (State.writePacket s p).free = s.free ∧
    (State.writePacket s p).power = s.power ∧
    (State.writePacket s p).time = s.time ∧
    (State.writePacket s p).fuses = s.fuses ∧
    (State.writePacket s p).straps = s.straps ∧
    (State.writePacket s p).port = s.port ∧
    (State.writePacket s p).spill = s.spill ∧
    (State.writePacket s p).red = s.red ∧
    (State.writePacket s p).mot = s.mot ∧
    (State.writePacket s p).prod = s.prod ∧
    (State.writePacket s p).fe = s.fe ∧
    (State.writePacket s p).roads = s.roads ∧
    (State.writePacket s p).up = s.up ∧
    (State.writePacket s p).hs = s.hs ∧
    (State.writePacket s p).tw = s.tw ∧
    (State.writePacket s p).attn = s.attn ∧
    (State.writePacket s p).clients = s.clients ∧
    (State.writePacket s p).locks = s.locks ∧
    (State.writePacket s p).pin = s.pin ∧
    (State.writePacket s p).age = s.age ∧
    (State.writePacket s p).tap = s.tap := by
  unfold State.writePacket
  and_intros <;>
    ((try simp) <;> (try (repeat' split)) <;> (try simp))

@[simp] theorem State.writeRec_keeps (s : State) (kind mark : Nat) (ws : List Word) :
    (State.writeRec s kind mark ws).pending = s.pending ∧
    (State.writeRec s kind mark ws).free = s.free ∧
    (State.writeRec s kind mark ws).power = s.power ∧
    (State.writeRec s kind mark ws).time = s.time ∧
    (State.writeRec s kind mark ws).fuses = s.fuses ∧
    (State.writeRec s kind mark ws).straps = s.straps ∧
    (State.writeRec s kind mark ws).port = s.port ∧
    (State.writeRec s kind mark ws).spill = s.spill ∧
    (State.writeRec s kind mark ws).red = s.red ∧
    (State.writeRec s kind mark ws).mot = s.mot ∧
    (State.writeRec s kind mark ws).prod = s.prod ∧
    (State.writeRec s kind mark ws).fe = s.fe ∧
    (State.writeRec s kind mark ws).roads = s.roads ∧
    (State.writeRec s kind mark ws).up = s.up ∧
    (State.writeRec s kind mark ws).hs = s.hs ∧
    (State.writeRec s kind mark ws).tw = s.tw ∧
    (State.writeRec s kind mark ws).attn = s.attn ∧
    (State.writeRec s kind mark ws).clients = s.clients ∧
    (State.writeRec s kind mark ws).locks = s.locks ∧
    (State.writeRec s kind mark ws).pin = s.pin ∧
    (State.writeRec s kind mark ws).age = s.age ∧
    (State.writeRec s kind mark ws).tap = s.tap := by
  unfold State.writeRec
  and_intros <;>
    ((try simp) <;> (try (repeat' split)) <;> (try simp))

@[simp] theorem State.writePackets_keeps (s : State) (ps : List Packet) :
    (State.writePackets s ps).pending = s.pending ∧
    (State.writePackets s ps).free = s.free ∧
    (State.writePackets s ps).power = s.power ∧
    (State.writePackets s ps).time = s.time ∧
    (State.writePackets s ps).fuses = s.fuses ∧
    (State.writePackets s ps).straps = s.straps ∧
    (State.writePackets s ps).port = s.port ∧
    (State.writePackets s ps).spill = s.spill ∧
    (State.writePackets s ps).red = s.red ∧
    (State.writePackets s ps).mot = s.mot ∧
    (State.writePackets s ps).prod = s.prod ∧
    (State.writePackets s ps).fe = s.fe ∧
    (State.writePackets s ps).roads = s.roads ∧
    (State.writePackets s ps).up = s.up ∧
    (State.writePackets s ps).hs = s.hs ∧
    (State.writePackets s ps).tw = s.tw ∧
    (State.writePackets s ps).attn = s.attn ∧
    (State.writePackets s ps).clients = s.clients ∧
    (State.writePackets s ps).locks = s.locks ∧
    (State.writePackets s ps).pin = s.pin ∧
    (State.writePackets s ps).age = s.age ∧
    (State.writePackets s ps).tap = s.tap := by
  unfold State.writePackets
  and_intros <;>
    ((try simp) <;> (try (repeat' split)) <;> (try simp))

@[simp] theorem State.writeError_keeps (s : State) (code unit : Nat) (d0 d1 : Word) (count : Nat) :
    (State.writeError s code unit d0 d1 count).pending = s.pending ∧
    (State.writeError s code unit d0 d1 count).free = s.free ∧
    (State.writeError s code unit d0 d1 count).power = s.power ∧
    (State.writeError s code unit d0 d1 count).time = s.time ∧
    (State.writeError s code unit d0 d1 count).fuses = s.fuses ∧
    (State.writeError s code unit d0 d1 count).straps = s.straps ∧
    (State.writeError s code unit d0 d1 count).port = s.port ∧
    (State.writeError s code unit d0 d1 count).spill = s.spill ∧
    (State.writeError s code unit d0 d1 count).red = s.red ∧
    (State.writeError s code unit d0 d1 count).mot = s.mot ∧
    (State.writeError s code unit d0 d1 count).prod = s.prod ∧
    (State.writeError s code unit d0 d1 count).fe = s.fe ∧
    (State.writeError s code unit d0 d1 count).roads = s.roads ∧
    (State.writeError s code unit d0 d1 count).up = s.up ∧
    (State.writeError s code unit d0 d1 count).hs = s.hs ∧
    (State.writeError s code unit d0 d1 count).tw = s.tw ∧
    (State.writeError s code unit d0 d1 count).attn = s.attn ∧
    (State.writeError s code unit d0 d1 count).clients = s.clients ∧
    (State.writeError s code unit d0 d1 count).locks = s.locks ∧
    (State.writeError s code unit d0 d1 count).pin = s.pin ∧
    (State.writeError s code unit d0 d1 count).age = s.age ∧
    (State.writeError s code unit d0 d1 count).tap = s.tap := by
  unfold State.writeError
  and_intros <;>
    ((try simp) <;> (try (repeat' split)) <;> (try simp))

@[simp] theorem State.flushLost_keeps (s : State) :
    (State.flushLost s).pending = s.pending ∧
    (State.flushLost s).free = s.free ∧
    (State.flushLost s).power = s.power ∧
    (State.flushLost s).time = s.time ∧
    (State.flushLost s).fuses = s.fuses ∧
    (State.flushLost s).straps = s.straps ∧
    (State.flushLost s).port = s.port ∧
    (State.flushLost s).spill = s.spill ∧
    (State.flushLost s).red = s.red ∧
    (State.flushLost s).mot = s.mot ∧
    (State.flushLost s).prod = s.prod ∧
    (State.flushLost s).fe = s.fe ∧
    (State.flushLost s).roads = s.roads ∧
    (State.flushLost s).up = s.up ∧
    (State.flushLost s).hs = s.hs ∧
    (State.flushLost s).tw = s.tw ∧
    (State.flushLost s).attn = s.attn ∧
    (State.flushLost s).clients = s.clients ∧
    (State.flushLost s).locks = s.locks ∧
    (State.flushLost s).pin = s.pin ∧
    (State.flushLost s).age = s.age ∧
    (State.flushLost s).tap = s.tap := by
  unfold State.flushLost
  and_intros <;>
    ((try simp) <;> (try (repeat' split)) <;> (try simp))

@[simp] theorem State.writeSampling_keeps (s : State) (event cause : Nat) (tag : Word) (mark : Nat) :
    (State.writeSampling s event cause tag mark).pending = s.pending ∧
    (State.writeSampling s event cause tag mark).free = s.free ∧
    (State.writeSampling s event cause tag mark).power = s.power ∧
    (State.writeSampling s event cause tag mark).time = s.time ∧
    (State.writeSampling s event cause tag mark).fuses = s.fuses ∧
    (State.writeSampling s event cause tag mark).straps = s.straps ∧
    (State.writeSampling s event cause tag mark).port = s.port ∧
    (State.writeSampling s event cause tag mark).spill = s.spill ∧
    (State.writeSampling s event cause tag mark).red = s.red ∧
    (State.writeSampling s event cause tag mark).mot = s.mot ∧
    (State.writeSampling s event cause tag mark).prod = s.prod ∧
    (State.writeSampling s event cause tag mark).fe = s.fe ∧
    (State.writeSampling s event cause tag mark).roads = s.roads ∧
    (State.writeSampling s event cause tag mark).up = s.up ∧
    (State.writeSampling s event cause tag mark).hs = s.hs ∧
    (State.writeSampling s event cause tag mark).tw = s.tw ∧
    (State.writeSampling s event cause tag mark).attn = s.attn ∧
    (State.writeSampling s event cause tag mark).clients = s.clients ∧
    (State.writeSampling s event cause tag mark).locks = s.locks ∧
    (State.writeSampling s event cause tag mark).pin = s.pin ∧
    (State.writeSampling s event cause tag mark).age = s.age ∧
    (State.writeSampling s event cause tag mark).tap = s.tap := by
  unfold State.writeSampling
  and_intros <;>
    ((try simp) <;> (try (repeat' split)) <;> (try simp))

@[simp] theorem State.openFor_keeps (s : State) (p : Packet) :
    (State.openFor s p).pending = s.pending ∧
    (State.openFor s p).free = s.free ∧
    (State.openFor s p).power = s.power ∧
    (State.openFor s p).time = s.time ∧
    (State.openFor s p).fuses = s.fuses ∧
    (State.openFor s p).straps = s.straps ∧
    (State.openFor s p).port = s.port ∧
    (State.openFor s p).spill = s.spill ∧
    (State.openFor s p).red = s.red ∧
    (State.openFor s p).mot = s.mot ∧
    (State.openFor s p).prod = s.prod ∧
    (State.openFor s p).way = s.way ∧
    (State.openFor s p).fe = s.fe ∧
    (State.openFor s p).roads = s.roads ∧
    (State.openFor s p).up = s.up ∧
    (State.openFor s p).hs = s.hs ∧
    (State.openFor s p).tw = s.tw ∧
    (State.openFor s p).attn = s.attn ∧
    (State.openFor s p).clients = s.clients ∧
    (State.openFor s p).locks = s.locks ∧
    (State.openFor s p).pin = s.pin ∧
    (State.openFor s p).age = s.age ∧
    (State.openFor s p).tap = s.tap := by
  unfold State.openFor
  and_intros <;>
    ((try simp) <;> (try (repeat' split)) <;> (try simp))

@[simp] theorem State.append_keeps (s : State) (producer : Nat) (tag : Word) (mark want : Nat) (ws : List Word) :
    (State.append s producer tag mark want ws).pending = s.pending ∧
    (State.append s producer tag mark want ws).free = s.free ∧
    (State.append s producer tag mark want ws).power = s.power ∧
    (State.append s producer tag mark want ws).time = s.time ∧
    (State.append s producer tag mark want ws).fuses = s.fuses ∧
    (State.append s producer tag mark want ws).straps = s.straps ∧
    (State.append s producer tag mark want ws).port = s.port ∧
    (State.append s producer tag mark want ws).spill = s.spill ∧
    (State.append s producer tag mark want ws).red = s.red ∧
    (State.append s producer tag mark want ws).mot = s.mot ∧
    (State.append s producer tag mark want ws).prod = s.prod ∧
    (State.append s producer tag mark want ws).way = s.way ∧
    (State.append s producer tag mark want ws).fe = s.fe ∧
    (State.append s producer tag mark want ws).roads = s.roads ∧
    (State.append s producer tag mark want ws).up = s.up ∧
    (State.append s producer tag mark want ws).hs = s.hs ∧
    (State.append s producer tag mark want ws).tw = s.tw ∧
    (State.append s producer tag mark want ws).attn = s.attn ∧
    (State.append s producer tag mark want ws).clients = s.clients ∧
    (State.append s producer tag mark want ws).locks = s.locks ∧
    (State.append s producer tag mark want ws).pin = s.pin ∧
    (State.append s producer tag mark want ws).age = s.age ∧
    (State.append s producer tag mark want ws).tap = s.tap := by
  unfold State.append
  and_intros <;>
    ((try simp) <;> (try (repeat' split)) <;> (try simp))

@[simp] theorem State.closeOpen_keeps (s : State) (tag : Word) (short : Bool) :
    (State.closeOpen s tag short).pending = s.pending ∧
    (State.closeOpen s tag short).free = s.free ∧
    (State.closeOpen s tag short).power = s.power ∧
    (State.closeOpen s tag short).time = s.time ∧
    (State.closeOpen s tag short).fuses = s.fuses ∧
    (State.closeOpen s tag short).straps = s.straps ∧
    (State.closeOpen s tag short).port = s.port ∧
    (State.closeOpen s tag short).spill = s.spill ∧
    (State.closeOpen s tag short).red = s.red ∧
    (State.closeOpen s tag short).mot = s.mot ∧
    (State.closeOpen s tag short).prod = s.prod ∧
    (State.closeOpen s tag short).fe = s.fe ∧
    (State.closeOpen s tag short).roads = s.roads ∧
    (State.closeOpen s tag short).up = s.up ∧
    (State.closeOpen s tag short).hs = s.hs ∧
    (State.closeOpen s tag short).tw = s.tw ∧
    (State.closeOpen s tag short).attn = s.attn ∧
    (State.closeOpen s tag short).clients = s.clients ∧
    (State.closeOpen s tag short).locks = s.locks ∧
    (State.closeOpen s tag short).pin = s.pin ∧
    (State.closeOpen s tag short).age = s.age ∧
    (State.closeOpen s tag short).tap = s.tap := by
  unfold State.closeOpen
  and_intros <;>
    ((try simp) <;> (try (repeat' split)) <;> (try simp))

@[simp] theorem State.closePacket_keeps (s : State) (tag : Word) :
    (State.closePacket s tag).pending = s.pending ∧
    (State.closePacket s tag).free = s.free ∧
    (State.closePacket s tag).power = s.power ∧
    (State.closePacket s tag).time = s.time ∧
    (State.closePacket s tag).fuses = s.fuses ∧
    (State.closePacket s tag).straps = s.straps ∧
    (State.closePacket s tag).port = s.port ∧
    (State.closePacket s tag).spill = s.spill ∧
    (State.closePacket s tag).red = s.red ∧
    (State.closePacket s tag).mot = s.mot ∧
    (State.closePacket s tag).prod = s.prod ∧
    (State.closePacket s tag).fe = s.fe ∧
    (State.closePacket s tag).roads = s.roads ∧
    (State.closePacket s tag).up = s.up ∧
    (State.closePacket s tag).hs = s.hs ∧
    (State.closePacket s tag).tw = s.tw ∧
    (State.closePacket s tag).attn = s.attn ∧
    (State.closePacket s tag).clients = s.clients ∧
    (State.closePacket s tag).locks = s.locks ∧
    (State.closePacket s tag).pin = s.pin ∧
    (State.closePacket s tag).age = s.age ∧
    (State.closePacket s tag).tap = s.tap := by
  unfold State.closePacket
  and_intros <;>
    ((try simp) <;> (try (repeat' split)) <;> (try simp))

@[simp] theorem State.putBlock_keeps (s : State) (producer : Nat) (tag : Word) (mark idx pkt axes : Nat) (ws : List Word) :
    (State.putBlock s producer tag mark idx pkt axes ws).pending = s.pending ∧
    (State.putBlock s producer tag mark idx pkt axes ws).free = s.free ∧
    (State.putBlock s producer tag mark idx pkt axes ws).power = s.power ∧
    (State.putBlock s producer tag mark idx pkt axes ws).time = s.time ∧
    (State.putBlock s producer tag mark idx pkt axes ws).fuses = s.fuses ∧
    (State.putBlock s producer tag mark idx pkt axes ws).straps = s.straps ∧
    (State.putBlock s producer tag mark idx pkt axes ws).port = s.port ∧
    (State.putBlock s producer tag mark idx pkt axes ws).spill = s.spill ∧
    (State.putBlock s producer tag mark idx pkt axes ws).red = s.red ∧
    (State.putBlock s producer tag mark idx pkt axes ws).mot = s.mot ∧
    (State.putBlock s producer tag mark idx pkt axes ws).prod = s.prod ∧
    (State.putBlock s producer tag mark idx pkt axes ws).fe = s.fe ∧
    (State.putBlock s producer tag mark idx pkt axes ws).roads = s.roads ∧
    (State.putBlock s producer tag mark idx pkt axes ws).up = s.up ∧
    (State.putBlock s producer tag mark idx pkt axes ws).hs = s.hs ∧
    (State.putBlock s producer tag mark idx pkt axes ws).tw = s.tw ∧
    (State.putBlock s producer tag mark idx pkt axes ws).attn = s.attn ∧
    (State.putBlock s producer tag mark idx pkt axes ws).clients = s.clients ∧
    (State.putBlock s producer tag mark idx pkt axes ws).locks = s.locks ∧
    (State.putBlock s producer tag mark idx pkt axes ws).pin = s.pin ∧
    (State.putBlock s producer tag mark idx pkt axes ws).age = s.age ∧
    (State.putBlock s producer tag mark idx pkt axes ws).tap = s.tap := by
  unfold State.putBlock
  and_intros <;>
    ((try simp) <;> (try (repeat' split)) <;> (try simp))

@[simp] theorem State.closeShort_keeps (s : State) (sel : Packet → Bool) :
    (State.closeShort s sel).pending = s.pending ∧
    (State.closeShort s sel).free = s.free ∧
    (State.closeShort s sel).power = s.power ∧
    (State.closeShort s sel).time = s.time ∧
    (State.closeShort s sel).fuses = s.fuses ∧
    (State.closeShort s sel).straps = s.straps ∧
    (State.closeShort s sel).port = s.port ∧
    (State.closeShort s sel).spill = s.spill ∧
    (State.closeShort s sel).red = s.red ∧
    (State.closeShort s sel).mot = s.mot ∧
    (State.closeShort s sel).prod = s.prod ∧
    (State.closeShort s sel).fe = s.fe ∧
    (State.closeShort s sel).roads = s.roads ∧
    (State.closeShort s sel).up = s.up ∧
    (State.closeShort s sel).hs = s.hs ∧
    (State.closeShort s sel).tw = s.tw ∧
    (State.closeShort s sel).attn = s.attn ∧
    (State.closeShort s sel).clients = s.clients ∧
    (State.closeShort s sel).locks = s.locks ∧
    (State.closeShort s sel).pin = s.pin ∧
    (State.closeShort s sel).age = s.age ∧
    (State.closeShort s sel).tap = s.tap := by
  unfold State.closeShort
  and_intros <;>
    ((try simp) <;> (try (repeat' split)) <;> (try simp))

@[simp] theorem State.onClient_keeps (s : State) (c : Nat) (f : Client → Client) :
    (State.onClient s c f).pending = s.pending ∧
    (State.onClient s c f).free = s.free ∧
    (State.onClient s c f).power = s.power ∧
    (State.onClient s c f).time = s.time ∧
    (State.onClient s c f).fuses = s.fuses ∧
    (State.onClient s c f).straps = s.straps ∧
    (State.onClient s c f).port = s.port ∧
    (State.onClient s c f).cw = s.cw ∧
    (State.onClient s c f).spill = s.spill ∧
    (State.onClient s c f).red = s.red ∧
    (State.onClient s c f).mot = s.mot ∧
    (State.onClient s c f).prod = s.prod ∧
    (State.onClient s c f).way = s.way ∧
    (State.onClient s c f).fe = s.fe ∧
    (State.onClient s c f).roads = s.roads ∧
    (State.onClient s c f).up = s.up ∧
    (State.onClient s c f).hs = s.hs ∧
    (State.onClient s c f).tw = s.tw ∧
    (State.onClient s c f).attn = s.attn ∧
    (State.onClient s c f).locks = s.locks ∧
    (State.onClient s c f).pin = s.pin ∧
    (State.onClient s c f).age = s.age ∧
    (State.onClient s c f).tap = s.tap := by
  unfold State.onClient
  and_intros <;>
    ((try simp) <;> (try (repeat' split)) <;> (try simp))

@[simp] theorem State.buildReps_keeps (s : State) (c : Nat) :
    (State.buildReps s c).pending = s.pending ∧
    (State.buildReps s c).free = s.free ∧
    (State.buildReps s c).power = s.power ∧
    (State.buildReps s c).time = s.time ∧
    (State.buildReps s c).fuses = s.fuses ∧
    (State.buildReps s c).straps = s.straps ∧
    (State.buildReps s c).port = s.port ∧
    (State.buildReps s c).cw = s.cw ∧
    (State.buildReps s c).spill = s.spill ∧
    (State.buildReps s c).red = s.red ∧
    (State.buildReps s c).mot = s.mot ∧
    (State.buildReps s c).prod = s.prod ∧
    (State.buildReps s c).way = s.way ∧
    (State.buildReps s c).fe = s.fe ∧
    (State.buildReps s c).roads = s.roads ∧
    (State.buildReps s c).up = s.up ∧
    (State.buildReps s c).hs = s.hs ∧
    (State.buildReps s c).tw = s.tw ∧
    (State.buildReps s c).attn = s.attn ∧
    (State.buildReps s c).locks = s.locks ∧
    (State.buildReps s c).pin = s.pin ∧
    (State.buildReps s c).age = s.age ∧
    (State.buildReps s c).tap = s.tap := by
  unfold State.buildReps
  and_intros <;>
    ((try simp) <;> (try (repeat' split)) <;> (try simp))

@[simp] theorem State.pushRep_keeps (s : State) (c : Nat) (r : Rep) :
    (State.pushRep s c r).pending = s.pending ∧
    (State.pushRep s c r).free = s.free ∧
    (State.pushRep s c r).power = s.power ∧
    (State.pushRep s c r).time = s.time ∧
    (State.pushRep s c r).fuses = s.fuses ∧
    (State.pushRep s c r).straps = s.straps ∧
    (State.pushRep s c r).port = s.port ∧
    (State.pushRep s c r).cw = s.cw ∧
    (State.pushRep s c r).spill = s.spill ∧
    (State.pushRep s c r).red = s.red ∧
    (State.pushRep s c r).mot = s.mot ∧
    (State.pushRep s c r).prod = s.prod ∧
    (State.pushRep s c r).way = s.way ∧
    (State.pushRep s c r).fe = s.fe ∧
    (State.pushRep s c r).roads = s.roads ∧
    (State.pushRep s c r).up = s.up ∧
    (State.pushRep s c r).hs = s.hs ∧
    (State.pushRep s c r).tw = s.tw ∧
    (State.pushRep s c r).attn = s.attn ∧
    (State.pushRep s c r).locks = s.locks ∧
    (State.pushRep s c r).pin = s.pin ∧
    (State.pushRep s c r).age = s.age ∧
    (State.pushRep s c r).tap = s.tap := by
  unfold State.pushRep
  and_intros <;>
    ((try simp) <;> (try (repeat' split)) <;> (try simp))

@[simp] theorem State.reply_keeps (s : State) (c : Nat) (cmp : BitVec 16) (typ acc result : Nat) (payload : List Word) :
    (State.reply s c cmp typ acc result payload).pending = s.pending ∧
    (State.reply s c cmp typ acc result payload).free = s.free ∧
    (State.reply s c cmp typ acc result payload).power = s.power ∧
    (State.reply s c cmp typ acc result payload).time = s.time ∧
    (State.reply s c cmp typ acc result payload).fuses = s.fuses ∧
    (State.reply s c cmp typ acc result payload).straps = s.straps ∧
    (State.reply s c cmp typ acc result payload).port = s.port ∧
    (State.reply s c cmp typ acc result payload).cw = s.cw ∧
    (State.reply s c cmp typ acc result payload).spill = s.spill ∧
    (State.reply s c cmp typ acc result payload).red = s.red ∧
    (State.reply s c cmp typ acc result payload).mot = s.mot ∧
    (State.reply s c cmp typ acc result payload).prod = s.prod ∧
    (State.reply s c cmp typ acc result payload).way = s.way ∧
    (State.reply s c cmp typ acc result payload).fe = s.fe ∧
    (State.reply s c cmp typ acc result payload).roads = s.roads ∧
    (State.reply s c cmp typ acc result payload).up = s.up ∧
    (State.reply s c cmp typ acc result payload).hs = s.hs ∧
    (State.reply s c cmp typ acc result payload).tw = s.tw ∧
    (State.reply s c cmp typ acc result payload).attn = s.attn ∧
    (State.reply s c cmp typ acc result payload).locks = s.locks ∧
    (State.reply s c cmp typ acc result payload).pin = s.pin ∧
    (State.reply s c cmp typ acc result payload).age = s.age ∧
    (State.reply s c cmp typ acc result payload).tap = s.tap := by
  unfold State.reply
  and_intros <;>
    ((try simp) <;> (try (repeat' split)) <;> (try simp))

@[simp] theorem State.pendReply_keeps (s : State) (c : Nat) (cmp : BitVec 16) (typ acc : Nat) :
    (State.pendReply s c cmp typ acc).pending = s.pending ∧
    (State.pendReply s c cmp typ acc).free = s.free ∧
    (State.pendReply s c cmp typ acc).power = s.power ∧
    (State.pendReply s c cmp typ acc).time = s.time ∧
    (State.pendReply s c cmp typ acc).fuses = s.fuses ∧
    (State.pendReply s c cmp typ acc).straps = s.straps ∧
    (State.pendReply s c cmp typ acc).port = s.port ∧
    (State.pendReply s c cmp typ acc).cw = s.cw ∧
    (State.pendReply s c cmp typ acc).spill = s.spill ∧
    (State.pendReply s c cmp typ acc).red = s.red ∧
    (State.pendReply s c cmp typ acc).mot = s.mot ∧
    (State.pendReply s c cmp typ acc).prod = s.prod ∧
    (State.pendReply s c cmp typ acc).way = s.way ∧
    (State.pendReply s c cmp typ acc).fe = s.fe ∧
    (State.pendReply s c cmp typ acc).roads = s.roads ∧
    (State.pendReply s c cmp typ acc).up = s.up ∧
    (State.pendReply s c cmp typ acc).hs = s.hs ∧
    (State.pendReply s c cmp typ acc).tw = s.tw ∧
    (State.pendReply s c cmp typ acc).attn = s.attn ∧
    (State.pendReply s c cmp typ acc).locks = s.locks ∧
    (State.pendReply s c cmp typ acc).pin = s.pin ∧
    (State.pendReply s c cmp typ acc).age = s.age ∧
    (State.pendReply s c cmp typ acc).tap = s.tap := by
  unfold State.pendReply
  and_intros <;>
    ((try simp) <;> (try (repeat' split)) <;> (try simp))

@[simp] theorem State.resolve_keeps (s : State) (c : Nat) (cmp : BitVec 16) (typ : Nat) (f : Rep → Nat × List (List Word)) :
    (State.resolve s c cmp typ f).pending = s.pending ∧
    (State.resolve s c cmp typ f).free = s.free ∧
    (State.resolve s c cmp typ f).power = s.power ∧
    (State.resolve s c cmp typ f).time = s.time ∧
    (State.resolve s c cmp typ f).fuses = s.fuses ∧
    (State.resolve s c cmp typ f).straps = s.straps ∧
    (State.resolve s c cmp typ f).port = s.port ∧
    (State.resolve s c cmp typ f).cw = s.cw ∧
    (State.resolve s c cmp typ f).spill = s.spill ∧
    (State.resolve s c cmp typ f).red = s.red ∧
    (State.resolve s c cmp typ f).mot = s.mot ∧
    (State.resolve s c cmp typ f).prod = s.prod ∧
    (State.resolve s c cmp typ f).way = s.way ∧
    (State.resolve s c cmp typ f).fe = s.fe ∧
    (State.resolve s c cmp typ f).roads = s.roads ∧
    (State.resolve s c cmp typ f).up = s.up ∧
    (State.resolve s c cmp typ f).hs = s.hs ∧
    (State.resolve s c cmp typ f).tw = s.tw ∧
    (State.resolve s c cmp typ f).attn = s.attn ∧
    (State.resolve s c cmp typ f).locks = s.locks ∧
    (State.resolve s c cmp typ f).pin = s.pin ∧
    (State.resolve s c cmp typ f).age = s.age ∧
    (State.resolve s c cmp typ f).tap = s.tap := by
  unfold State.resolve
  and_intros <;>
    ((try simp) <;> (try (repeat' split)) <;> (try simp))

@[simp] theorem State.resolveResult_keeps (s : State) (c : Nat) (cmp : BitVec 16) (typ result : Nat) (payload : List Word) :
    (State.resolveResult s c cmp typ result payload).pending = s.pending ∧
    (State.resolveResult s c cmp typ result payload).free = s.free ∧
    (State.resolveResult s c cmp typ result payload).power = s.power ∧
    (State.resolveResult s c cmp typ result payload).time = s.time ∧
    (State.resolveResult s c cmp typ result payload).fuses = s.fuses ∧
    (State.resolveResult s c cmp typ result payload).straps = s.straps ∧
    (State.resolveResult s c cmp typ result payload).port = s.port ∧
    (State.resolveResult s c cmp typ result payload).cw = s.cw ∧
    (State.resolveResult s c cmp typ result payload).spill = s.spill ∧
    (State.resolveResult s c cmp typ result payload).red = s.red ∧
    (State.resolveResult s c cmp typ result payload).mot = s.mot ∧
    (State.resolveResult s c cmp typ result payload).prod = s.prod ∧
    (State.resolveResult s c cmp typ result payload).way = s.way ∧
    (State.resolveResult s c cmp typ result payload).fe = s.fe ∧
    (State.resolveResult s c cmp typ result payload).roads = s.roads ∧
    (State.resolveResult s c cmp typ result payload).up = s.up ∧
    (State.resolveResult s c cmp typ result payload).hs = s.hs ∧
    (State.resolveResult s c cmp typ result payload).tw = s.tw ∧
    (State.resolveResult s c cmp typ result payload).attn = s.attn ∧
    (State.resolveResult s c cmp typ result payload).locks = s.locks ∧
    (State.resolveResult s c cmp typ result payload).pin = s.pin ∧
    (State.resolveResult s c cmp typ result payload).age = s.age ∧
    (State.resolveResult s c cmp typ result payload).tap = s.tap := by
  unfold State.resolveResult
  and_intros <;>
    ((try simp) <;> (try (repeat' split)) <;> (try simp))

@[simp] theorem State.abort_keeps (s : State) (c : Nat) (cmp : BitVec 16) (typ cause : Nat) :
    (State.abort s c cmp typ cause).pending = s.pending ∧
    (State.abort s c cmp typ cause).free = s.free ∧
    (State.abort s c cmp typ cause).power = s.power ∧
    (State.abort s c cmp typ cause).time = s.time ∧
    (State.abort s c cmp typ cause).fuses = s.fuses ∧
    (State.abort s c cmp typ cause).straps = s.straps ∧
    (State.abort s c cmp typ cause).port = s.port ∧
    (State.abort s c cmp typ cause).cw = s.cw ∧
    (State.abort s c cmp typ cause).spill = s.spill ∧
    (State.abort s c cmp typ cause).red = s.red ∧
    (State.abort s c cmp typ cause).mot = s.mot ∧
    (State.abort s c cmp typ cause).prod = s.prod ∧
    (State.abort s c cmp typ cause).way = s.way ∧
    (State.abort s c cmp typ cause).fe = s.fe ∧
    (State.abort s c cmp typ cause).roads = s.roads ∧
    (State.abort s c cmp typ cause).up = s.up ∧
    (State.abort s c cmp typ cause).hs = s.hs ∧
    (State.abort s c cmp typ cause).tw = s.tw ∧
    (State.abort s c cmp typ cause).attn = s.attn ∧
    (State.abort s c cmp typ cause).locks = s.locks ∧
    (State.abort s c cmp typ cause).pin = s.pin ∧
    (State.abort s c cmp typ cause).age = s.age ∧
    (State.abort s c cmp typ cause).tap = s.tap := by
  unfold State.abort
  and_intros <;>
    ((try simp) <;> (try (repeat' split)) <;> (try simp))

@[simp] theorem State.abortAll_keeps (s : State) (c cause : Nat) :
    (State.abortAll s c cause).pending = s.pending ∧
    (State.abortAll s c cause).free = s.free ∧
    (State.abortAll s c cause).power = s.power ∧
    (State.abortAll s c cause).time = s.time ∧
    (State.abortAll s c cause).fuses = s.fuses ∧
    (State.abortAll s c cause).straps = s.straps ∧
    (State.abortAll s c cause).port = s.port ∧
    (State.abortAll s c cause).cw = s.cw ∧
    (State.abortAll s c cause).spill = s.spill ∧
    (State.abortAll s c cause).red = s.red ∧
    (State.abortAll s c cause).mot = s.mot ∧
    (State.abortAll s c cause).prod = s.prod ∧
    (State.abortAll s c cause).way = s.way ∧
    (State.abortAll s c cause).fe = s.fe ∧
    (State.abortAll s c cause).roads = s.roads ∧
    (State.abortAll s c cause).up = s.up ∧
    (State.abortAll s c cause).hs = s.hs ∧
    (State.abortAll s c cause).tw = s.tw ∧
    (State.abortAll s c cause).attn = s.attn ∧
    (State.abortAll s c cause).locks = s.locks ∧
    (State.abortAll s c cause).pin = s.pin ∧
    (State.abortAll s c cause).age = s.age ∧
    (State.abortAll s c cause).tap = s.tap := by
  unfold State.abortAll
  and_intros <;>
    ((try simp) <;> (try (repeat' split)) <;> (try simp))

@[simp] theorem State.raiseCall_keeps (s : State) (cause : Nat) (code : BitVec 16) :
    (State.raiseCall s cause code).pending = s.pending ∧
    (State.raiseCall s cause code).free = s.free ∧
    (State.raiseCall s cause code).power = s.power ∧
    (State.raiseCall s cause code).time = s.time ∧
    (State.raiseCall s cause code).fuses = s.fuses ∧
    (State.raiseCall s cause code).straps = s.straps ∧
    (State.raiseCall s cause code).port = s.port ∧
    (State.raiseCall s cause code).cw = s.cw ∧
    (State.raiseCall s cause code).spill = s.spill ∧
    (State.raiseCall s cause code).red = s.red ∧
    (State.raiseCall s cause code).mot = s.mot ∧
    (State.raiseCall s cause code).prod = s.prod ∧
    (State.raiseCall s cause code).way = s.way ∧
    (State.raiseCall s cause code).fe = s.fe ∧
    (State.raiseCall s cause code).roads = s.roads ∧
    (State.raiseCall s cause code).up = s.up ∧
    (State.raiseCall s cause code).hs = s.hs ∧
    (State.raiseCall s cause code).tw = s.tw ∧
    (State.raiseCall s cause code).clients = s.clients ∧
    (State.raiseCall s cause code).locks = s.locks ∧
    (State.raiseCall s cause code).pin = s.pin ∧
    (State.raiseCall s cause code).age = s.age ∧
    (State.raiseCall s cause code).tap = s.tap := by
  unfold State.raiseCall
  and_intros <;>
    ((try simp) <;> (try (repeat' split)) <;> (try simp))

/-- While CLK25 runs and VKEEP is present every time base counts; otherwise CLK25 time alone. -/
@[simp] theorem State.advance_time (s : State) (dt : Nat) :
    (s.advance dt).time = if s.clocked then s.time.advance dt else { s.time with ps := s.time.ps + dt } := rfl
@[simp] theorem State.advance_ps (s : State) (dt : Nat) : (s.advance dt).time.ps = s.time.ps + dt := by
  simp only [State.advance_time]; split <;> rfl
@[simp] theorem State.advance_now (s : State) (dt : Nat) : (s.advance dt).now = s.now + dt := State.advance_ps s dt
@[simp] theorem State.advance_gIdx (s : State) (dt : Nat) : (s.advance dt).time.gIdx = s.time.gIdx := by
  simp only [State.advance_time]; split <;> rfl
@[simp] theorem State.advance_mark (s : State) (dt : Nat) : (s.advance dt).mark = s.mark := State.advance_gIdx s dt
@[simp] theorem State.advance_gRate (s : State) (dt : Nat) : (s.advance dt).time.gRate = s.time.gRate := by
  simp only [State.advance_time]; split <;> rfl
@[simp] theorem State.advance_rates (s : State) (dt : Nat) : (s.advance dt).time.rates = s.time.rates := by
  simp only [State.advance_time]; split <;> rfl

end Sys2Proof.Machine
end

