-- ==== Sys2Proof/Laws/Keeps.lean ====
section
/-! SUPPORT. What every operation and every meaning keeps of seven quantities: the queue, the fuses, the image in force, the
mode in force, TB-G's rate correction, the corrections a holdover averages over, and TB-G's index. A lemma leaves out what its
operation writes. -/

namespace Sys2Proof.Machine

@[simp] theorem ite_port_inForce (c : Prop) [Decidable c] (a b : State) : (if c then a else b).port.inForce = if c then a.port.inForce else b.port.inForce := by
  split <;> rfl

@[simp] theorem elim_port_inForce {α : Type} (o : Option α) (s : State) (k : α → State) (h : ∀ x, (k x).port.inForce = s.port.inForce) :
    (o.elim s k).port.inForce = s.port.inForce := by
  cases o <;> simp [h]

@[simp] theorem foldl_port_inForce {α : Type} (f : State → α → State) (h : ∀ b a, (f b a).port.inForce = b.port.inForce) (l : List α) (b : State) :
    (l.foldl f b).port.inForce = b.port.inForce := foldl_keep (fun s : State => s.port.inForce) f h l b

@[simp] theorem foldr_port_inForce {α : Type} (f : α → State → State) (h : ∀ a b, (f a b).port.inForce = b.port.inForce) (l : List α) (b : State) :
    (l.foldr f b).port.inForce = b.port.inForce := foldr_keep (fun s : State => s.port.inForce) f h l b

@[simp] theorem ite_power_mode (c : Prop) [Decidable c] (a b : State) : (if c then a else b).power.mode = if c then a.power.mode else b.power.mode := by
  split <;> rfl

@[simp] theorem elim_power_mode {α : Type} (o : Option α) (s : State) (k : α → State) (h : ∀ x, (k x).power.mode = s.power.mode) :
    (o.elim s k).power.mode = s.power.mode := by
  cases o <;> simp [h]

@[simp] theorem foldl_power_mode {α : Type} (f : State → α → State) (h : ∀ b a, (f b a).power.mode = b.power.mode) (l : List α) (b : State) :
    (l.foldl f b).power.mode = b.power.mode := foldl_keep (fun s : State => s.power.mode) f h l b

@[simp] theorem foldr_power_mode {α : Type} (f : α → State → State) (h : ∀ a b, (f a b).power.mode = b.power.mode) (l : List α) (b : State) :
    (l.foldr f b).power.mode = b.power.mode := foldr_keep (fun s : State => s.power.mode) f h l b

@[simp] theorem ite_time_gRate (c : Prop) [Decidable c] (a b : State) : (if c then a else b).time.gRate = if c then a.time.gRate else b.time.gRate := by
  split <;> rfl

@[simp] theorem elim_time_gRate {α : Type} (o : Option α) (s : State) (k : α → State) (h : ∀ x, (k x).time.gRate = s.time.gRate) :
    (o.elim s k).time.gRate = s.time.gRate := by
  cases o <;> simp [h]

@[simp] theorem foldl_time_gRate {α : Type} (f : State → α → State) (h : ∀ b a, (f b a).time.gRate = b.time.gRate) (l : List α) (b : State) :
    (l.foldl f b).time.gRate = b.time.gRate := foldl_keep (fun s : State => s.time.gRate) f h l b

@[simp] theorem foldr_time_gRate {α : Type} (f : α → State → State) (h : ∀ a b, (f a b).time.gRate = b.time.gRate) (l : List α) (b : State) :
    (l.foldr f b).time.gRate = b.time.gRate := foldr_keep (fun s : State => s.time.gRate) f h l b

@[simp] theorem ite_time_rates (c : Prop) [Decidable c] (a b : State) : (if c then a else b).time.rates = if c then a.time.rates else b.time.rates := by
  split <;> rfl

@[simp] theorem elim_time_rates {α : Type} (o : Option α) (s : State) (k : α → State) (h : ∀ x, (k x).time.rates = s.time.rates) :
    (o.elim s k).time.rates = s.time.rates := by
  cases o <;> simp [h]

@[simp] theorem foldl_time_rates {α : Type} (f : State → α → State) (h : ∀ b a, (f b a).time.rates = b.time.rates) (l : List α) (b : State) :
    (l.foldl f b).time.rates = b.time.rates := foldl_keep (fun s : State => s.time.rates) f h l b

@[simp] theorem foldr_time_rates {α : Type} (f : α → State → State) (h : ∀ a b, (f a b).time.rates = b.time.rates) (l : List α) (b : State) :
    (l.foldr f b).time.rates = b.time.rates := foldr_keep (fun s : State => s.time.rates) f h l b

@[simp] theorem ite_time_gIdx (c : Prop) [Decidable c] (a b : State) : (if c then a else b).time.gIdx = if c then a.time.gIdx else b.time.gIdx := by
  split <;> rfl

@[simp] theorem elim_time_gIdx {α : Type} (o : Option α) (s : State) (k : α → State) (h : ∀ x, (k x).time.gIdx = s.time.gIdx) :
    (o.elim s k).time.gIdx = s.time.gIdx := by
  cases o <;> simp [h]

@[simp] theorem foldl_time_gIdx {α : Type} (f : State → α → State) (h : ∀ b a, (f b a).time.gIdx = b.time.gIdx) (l : List α) (b : State) :
    (l.foldl f b).time.gIdx = b.time.gIdx := foldl_keep (fun s : State => s.time.gIdx) f h l b

@[simp] theorem foldr_time_gIdx {α : Type} (f : α → State → State) (h : ∀ a b, (f a b).time.gIdx = b.time.gIdx) (l : List α) (b : State) :
    (l.foldr f b).time.gIdx = b.time.gIdx := foldr_keep (fun s : State => s.time.gIdx) f h l b

@[simp] theorem Time.ite_gRate (c : Prop) [Decidable c] (a b : Time) : (if c then a else b).gRate = if c then a.gRate else b.gRate := by
  split <;> rfl
@[simp] theorem Time.ite_rates (c : Prop) [Decidable c] (a b : Time) : (if c then a else b).rates = if c then a.rates else b.rates := by
  split <;> rfl
@[simp] theorem Time.ite_gIdx (c : Prop) [Decidable c] (a b : Time) : (if c then a else b).gIdx = if c then a.gIdx else b.gIdx := by
  split <;> rfl
@[simp] theorem Power.ite_mode (c : Prop) [Decidable c] (a b : Power) : (if c then a else b).mode = if c then a.mode else b.mode := by
  split <;> rfl
@[simp] theorem ImagePort.ite_inForce (c : Prop) [Decidable c] (a b : ImagePort) :
    (if c then a else b).inForce = if c then a.inForce else b.inForce := by
  split <;> rfl
@[simp] theorem ImagePort.leaveCont_inForce (p : ImagePort) : p.leaveCont.inForce = p.inForce := by
  unfold ImagePort.leaveCont; split <;> rfl
@[simp] theorem ImagePort.toPowerOn_inForce (p : ImagePort) : p.toPowerOn.inForce = p.inForce := rfl
@[simp] theorem ImagePort.float_inForce (p : ImagePort) : p.float.inForce = p.inForce := by
  simp [ImagePort.float]
@[simp] theorem ImagePort.afterRead_inForce (p : ImagePort) (ck : Nat) (dev : FlashDev) : (p.afterRead ck dev).inForce = p.inForce := rfl

@[simp] theorem Time.onN_gRate (t : Time) (x : Nat) (f : Ptp → Ptp) : (t.onN x f).gRate = t.gRate := rfl
@[simp] theorem Time.onN_rates (t : Time) (x : Nat) (f : Ptp → Ptp) : (t.onN x f).rates = t.rates := rfl
@[simp] theorem Time.onN_gIdx (t : Time) (x : Nat) (f : Ptp → Ptp) : (t.onN x f).gIdx = t.gIdx := rfl

@[simp] theorem State.closeOther_keeps (s : State) (tag : Word) (ss : StreamSt) :
    (State.closeOther s tag ss).pending = s.pending ∧
    (State.closeOther s tag ss).free = s.free ∧
    (State.closeOther s tag ss).power = s.power ∧
    (State.closeOther s tag ss).time = s.time ∧
    (State.closeOther s tag ss).fuses = s.fuses ∧
    (State.closeOther s tag ss).straps = s.straps ∧
    (State.closeOther s tag ss).port = s.port ∧
    (State.closeOther s tag ss).spill = s.spill ∧
    (State.closeOther s tag ss).red = s.red ∧
    (State.closeOther s tag ss).mot = s.mot ∧
    (State.closeOther s tag ss).prod = s.prod ∧
    (State.closeOther s tag ss).fe = s.fe ∧
    (State.closeOther s tag ss).roads = s.roads ∧
    (State.closeOther s tag ss).up = s.up ∧
    (State.closeOther s tag ss).hs = s.hs ∧
    (State.closeOther s tag ss).tw = s.tw ∧
    (State.closeOther s tag ss).attn = s.attn ∧
    (State.closeOther s tag ss).clients = s.clients ∧
    (State.closeOther s tag ss).locks = s.locks ∧
    (State.closeOther s tag ss).pin = s.pin ∧
    (State.closeOther s tag ss).age = s.age ∧
    (State.closeOther s tag ss).tap = s.tap := by
  unfold State.closeOther
  and_intros <;>
    ((try simp) <;> (try (repeat' split)) <;> (try simp))

@[simp] theorem State.streamAt_keeps (s : State) (i k : Nat) :
    (State.streamAt s i k).pending = s.pending ∧
    (State.streamAt s i k).free = s.free ∧
    (State.streamAt s i k).power = s.power ∧
    (State.streamAt s i k).time = s.time ∧
    (State.streamAt s i k).fuses = s.fuses ∧
    (State.streamAt s i k).straps = s.straps ∧
    (State.streamAt s i k).port = s.port ∧
    (State.streamAt s i k).spill = s.spill ∧
    (State.streamAt s i k).red = s.red ∧
    (State.streamAt s i k).prod = s.prod ∧
    (State.streamAt s i k).fe = s.fe ∧
    (State.streamAt s i k).roads = s.roads ∧
    (State.streamAt s i k).up = s.up ∧
    (State.streamAt s i k).hs = s.hs ∧
    (State.streamAt s i k).tw = s.tw ∧
    (State.streamAt s i k).attn = s.attn ∧
    (State.streamAt s i k).clients = s.clients ∧
    (State.streamAt s i k).locks = s.locks ∧
    (State.streamAt s i k).pin = s.pin ∧
    (State.streamAt s i k).age = s.age ∧
    (State.streamAt s i k).tap = s.tap := by
  unfold State.streamAt
  and_intros <;>
    ((try simp) <;> (try (repeat' split)) <;> (try simp))

@[simp] theorem State.closeStopped_keeps (s : State) (i : Nat) :
    (State.closeStopped s i).pending = s.pending ∧
    (State.closeStopped s i).free = s.free ∧
    (State.closeStopped s i).power = s.power ∧
    (State.closeStopped s i).time = s.time ∧
    (State.closeStopped s i).fuses = s.fuses ∧
    (State.closeStopped s i).straps = s.straps ∧
    (State.closeStopped s i).port = s.port ∧
    (State.closeStopped s i).spill = s.spill ∧
    (State.closeStopped s i).red = s.red ∧
    (State.closeStopped s i).mot = s.mot ∧
    (State.closeStopped s i).prod = s.prod ∧
    (State.closeStopped s i).fe = s.fe ∧
    (State.closeStopped s i).roads = s.roads ∧
    (State.closeStopped s i).up = s.up ∧
    (State.closeStopped s i).hs = s.hs ∧
    (State.closeStopped s i).tw = s.tw ∧
    (State.closeStopped s i).attn = s.attn ∧
    (State.closeStopped s i).clients = s.clients ∧
    (State.closeStopped s i).locks = s.locks ∧
    (State.closeStopped s i).pin = s.pin ∧
    (State.closeStopped s i).age = s.age ∧
    (State.closeStopped s i).tap = s.tap := by
  unfold State.closeStopped
  and_intros <;>
    ((try simp) <;> (try (repeat' split)) <;> (try simp))

@[simp] theorem doInertialInstant_keeps (rs : List TriadReading) (s : State) :
    (doInertialInstant rs s).pending = s.pending ∧
    (doInertialInstant rs s).free = s.free ∧
    (doInertialInstant rs s).power = s.power ∧
    (doInertialInstant rs s).time = s.time ∧
    (doInertialInstant rs s).fuses = s.fuses ∧
    (doInertialInstant rs s).straps = s.straps ∧
    (doInertialInstant rs s).port = s.port ∧
    (doInertialInstant rs s).spill = s.spill ∧
    (doInertialInstant rs s).red = s.red ∧
    (doInertialInstant rs s).prod = s.prod ∧
    (doInertialInstant rs s).fe = s.fe ∧
    (doInertialInstant rs s).roads = s.roads ∧
    (doInertialInstant rs s).up = s.up ∧
    (doInertialInstant rs s).hs = s.hs ∧
    (doInertialInstant rs s).tw = s.tw ∧
    (doInertialInstant rs s).attn = s.attn ∧
    (doInertialInstant rs s).clients = s.clients ∧
    (doInertialInstant rs s).locks = s.locks ∧
    (doInertialInstant rs s).pin = s.pin ∧
    (doInertialInstant rs s).age = s.age ∧
    (doInertialInstant rs s).tap = s.tap := by
  unfold doInertialInstant
  and_intros <;>
    ((try simp) <;> (try (repeat' split)) <;> (try simp))

@[simp] theorem State.putValue_keeps (s : State) (e : MotionEntry) (mark g n : Nat) (ws : List Word) :
    (State.putValue s e mark g n ws).pending = s.pending ∧
    (State.putValue s e mark g n ws).free = s.free ∧
    (State.putValue s e mark g n ws).power = s.power ∧
    (State.putValue s e mark g n ws).time = s.time ∧
    (State.putValue s e mark g n ws).fuses = s.fuses ∧
    (State.putValue s e mark g n ws).straps = s.straps ∧
    (State.putValue s e mark g n ws).port = s.port ∧
    (State.putValue s e mark g n ws).spill = s.spill ∧
    (State.putValue s e mark g n ws).red = s.red ∧
    (State.putValue s e mark g n ws).mot = s.mot ∧
    (State.putValue s e mark g n ws).prod = s.prod ∧
    (State.putValue s e mark g n ws).fe = s.fe ∧
    (State.putValue s e mark g n ws).roads = s.roads ∧
    (State.putValue s e mark g n ws).up = s.up ∧
    (State.putValue s e mark g n ws).hs = s.hs ∧
    (State.putValue s e mark g n ws).tw = s.tw ∧
    (State.putValue s e mark g n ws).attn = s.attn ∧
    (State.putValue s e mark g n ws).clients = s.clients ∧
    (State.putValue s e mark g n ws).locks = s.locks ∧
    (State.putValue s e mark g n ws).pin = s.pin ∧
    (State.putValue s e mark g n ws).age = s.age ∧
    (State.putValue s e mark g n ws).tap = s.tap := by
  unfold State.putValue
  and_intros <;>
    ((try simp) <;> (try (repeat' split)) <;> (try simp))

@[simp] theorem State.endAttitude_keeps (s : State) (ref : Nat) :
    (State.endAttitude s ref).pending = s.pending ∧
    (State.endAttitude s ref).free = s.free ∧
    (State.endAttitude s ref).power = s.power ∧
    (State.endAttitude s ref).time = s.time ∧
    (State.endAttitude s ref).fuses = s.fuses ∧
    (State.endAttitude s ref).straps = s.straps ∧
    (State.endAttitude s ref).port = s.port ∧
    (State.endAttitude s ref).spill = s.spill ∧
    (State.endAttitude s ref).red = s.red ∧
    (State.endAttitude s ref).mot = s.mot ∧
    (State.endAttitude s ref).fe = s.fe ∧
    (State.endAttitude s ref).roads = s.roads ∧
    (State.endAttitude s ref).up = s.up ∧
    (State.endAttitude s ref).hs = s.hs ∧
    (State.endAttitude s ref).tw = s.tw ∧
    (State.endAttitude s ref).attn = s.attn ∧
    (State.endAttitude s ref).clients = s.clients ∧
    (State.endAttitude s ref).locks = s.locks ∧
    (State.endAttitude s ref).pin = s.pin ∧
    (State.endAttitude s ref).age = s.age ∧
    (State.endAttitude s ref).tap = s.tap := by
  unfold State.endAttitude
  and_intros <;>
    ((try simp) <;> (try (repeat' split)) <;> (try simp))

@[simp] theorem State.attitudeAt_keeps (s : State) (q : Nat) :
    (State.attitudeAt s q).pending = s.pending ∧
    (State.attitudeAt s q).free = s.free ∧
    (State.attitudeAt s q).power = s.power ∧
    (State.attitudeAt s q).time = s.time ∧
    (State.attitudeAt s q).fuses = s.fuses ∧
    (State.attitudeAt s q).straps = s.straps ∧
    (State.attitudeAt s q).port = s.port ∧
    (State.attitudeAt s q).spill = s.spill ∧
    (State.attitudeAt s q).red = s.red ∧
    (State.attitudeAt s q).mot = s.mot ∧
    (State.attitudeAt s q).fe = s.fe ∧
    (State.attitudeAt s q).roads = s.roads ∧
    (State.attitudeAt s q).up = s.up ∧
    (State.attitudeAt s q).hs = s.hs ∧
    (State.attitudeAt s q).tw = s.tw ∧
    (State.attitudeAt s q).attn = s.attn ∧
    (State.attitudeAt s q).clients = s.clients ∧
    (State.attitudeAt s q).locks = s.locks ∧
    (State.attitudeAt s q).pin = s.pin ∧
    (State.attitudeAt s q).age = s.age ∧
    (State.attitudeAt s q).tap = s.tap := by
  unfold State.attitudeAt
  and_intros <;>
    ((try simp) <;> (try (repeat' split)) <;> (try simp))

@[simp] theorem State.beginRecord_keeps (s : State) (ref : Nat) :
    (State.beginRecord s ref).pending = s.pending ∧
    (State.beginRecord s ref).free = s.free ∧
    (State.beginRecord s ref).power = s.power ∧
    (State.beginRecord s ref).time = s.time ∧
    (State.beginRecord s ref).fuses = s.fuses ∧
    (State.beginRecord s ref).straps = s.straps ∧
    (State.beginRecord s ref).port = s.port ∧
    (State.beginRecord s ref).cw = s.cw ∧
    (State.beginRecord s ref).spill = s.spill ∧
    (State.beginRecord s ref).red = s.red ∧
    (State.beginRecord s ref).way = s.way ∧
    (State.beginRecord s ref).fe = s.fe ∧
    (State.beginRecord s ref).roads = s.roads ∧
    (State.beginRecord s ref).up = s.up ∧
    (State.beginRecord s ref).hs = s.hs ∧
    (State.beginRecord s ref).tw = s.tw ∧
    (State.beginRecord s ref).attn = s.attn ∧
    (State.beginRecord s ref).clients = s.clients ∧
    (State.beginRecord s ref).locks = s.locks ∧
    (State.beginRecord s ref).pin = s.pin ∧
    (State.beginRecord s ref).age = s.age ∧
    (State.beginRecord s ref).tap = s.tap := by
  unfold State.beginRecord
  and_intros <;>
    ((try simp) <;> (try (repeat' split)) <;> (try simp))

@[simp] theorem State.endRecord_keeps (s : State) (first : Nat) :
    (State.endRecord s first).pending = s.pending ∧
    (State.endRecord s first).free = s.free ∧
    (State.endRecord s first).power = s.power ∧
    (State.endRecord s first).time = s.time ∧
    (State.endRecord s first).fuses = s.fuses ∧
    (State.endRecord s first).straps = s.straps ∧
    (State.endRecord s first).port = s.port ∧
    (State.endRecord s first).cw = s.cw ∧
    (State.endRecord s first).spill = s.spill ∧
    (State.endRecord s first).red = s.red ∧
    (State.endRecord s first).mot = s.mot ∧
    (State.endRecord s first).way = s.way ∧
    (State.endRecord s first).fe = s.fe ∧
    (State.endRecord s first).roads = s.roads ∧
    (State.endRecord s first).up = s.up ∧
    (State.endRecord s first).hs = s.hs ∧
    (State.endRecord s first).tw = s.tw ∧
    (State.endRecord s first).attn = s.attn ∧
    (State.endRecord s first).clients = s.clients ∧
    (State.endRecord s first).locks = s.locks ∧
    (State.endRecord s first).pin = s.pin ∧
    (State.endRecord s first).age = s.age ∧
    (State.endRecord s first).tap = s.tap := by
  unfold State.endRecord
  and_intros <;>
    ((try simp) <;> (try (repeat' split)) <;> (try simp))

@[simp] theorem State.noteDisp_keeps (s : State) (ref : Nat) (v : List Word) :
    (State.noteDisp s ref v).pending = s.pending ∧
    (State.noteDisp s ref v).free = s.free ∧
    (State.noteDisp s ref v).power = s.power ∧
    (State.noteDisp s ref v).time = s.time ∧
    (State.noteDisp s ref v).fuses = s.fuses ∧
    (State.noteDisp s ref v).straps = s.straps ∧
    (State.noteDisp s ref v).port = s.port ∧
    (State.noteDisp s ref v).cw = s.cw ∧
    (State.noteDisp s ref v).spill = s.spill ∧
    (State.noteDisp s ref v).red = s.red ∧
    (State.noteDisp s ref v).mot = s.mot ∧
    (State.noteDisp s ref v).way = s.way ∧
    (State.noteDisp s ref v).fe = s.fe ∧
    (State.noteDisp s ref v).roads = s.roads ∧
    (State.noteDisp s ref v).up = s.up ∧
    (State.noteDisp s ref v).hs = s.hs ∧
    (State.noteDisp s ref v).tw = s.tw ∧
    (State.noteDisp s ref v).attn = s.attn ∧
    (State.noteDisp s ref v).clients = s.clients ∧
    (State.noteDisp s ref v).locks = s.locks ∧
    (State.noteDisp s ref v).pin = s.pin ∧
    (State.noteDisp s ref v).age = s.age ∧
    (State.noteDisp s ref v).tap = s.tap := by
  unfold State.noteDisp
  and_intros <;>
    ((try simp) <;> (try (repeat' split)) <;> (try simp))

@[simp] theorem State.closeRecord_keeps (s : State) (ref : Nat) :
    (State.closeRecord s ref).pending = s.pending ∧
    (State.closeRecord s ref).free = s.free ∧
    (State.closeRecord s ref).power = s.power ∧
    (State.closeRecord s ref).time = s.time ∧
    (State.closeRecord s ref).fuses = s.fuses ∧
    (State.closeRecord s ref).straps = s.straps ∧
    (State.closeRecord s ref).port = s.port ∧
    (State.closeRecord s ref).cw = s.cw ∧
    (State.closeRecord s ref).spill = s.spill ∧
    (State.closeRecord s ref).red = s.red ∧
    (State.closeRecord s ref).mot = s.mot ∧
    (State.closeRecord s ref).way = s.way ∧
    (State.closeRecord s ref).fe = s.fe ∧
    (State.closeRecord s ref).roads = s.roads ∧
    (State.closeRecord s ref).up = s.up ∧
    (State.closeRecord s ref).hs = s.hs ∧
    (State.closeRecord s ref).tw = s.tw ∧
    (State.closeRecord s ref).attn = s.attn ∧
    (State.closeRecord s ref).clients = s.clients ∧
    (State.closeRecord s ref).locks = s.locks ∧
    (State.closeRecord s ref).pin = s.pin ∧
    (State.closeRecord s ref).age = s.age ∧
    (State.closeRecord s ref).tap = s.tap := by
  unfold State.closeRecord
  and_intros <;>
    ((try simp) <;> (try (repeat' split)) <;> (try simp))

@[simp] theorem State.putDisp_keeps (s : State) (ref : Nat) (v : List Word) :
    (State.putDisp s ref v).pending = s.pending ∧
    (State.putDisp s ref v).free = s.free ∧
    (State.putDisp s ref v).power = s.power ∧
    (State.putDisp s ref v).time = s.time ∧
    (State.putDisp s ref v).fuses = s.fuses ∧
    (State.putDisp s ref v).straps = s.straps ∧
    (State.putDisp s ref v).port = s.port ∧
    (State.putDisp s ref v).spill = s.spill ∧
    (State.putDisp s ref v).red = s.red ∧
    (State.putDisp s ref v).mot = s.mot ∧
    (State.putDisp s ref v).prod = s.prod ∧
    (State.putDisp s ref v).fe = s.fe ∧
    (State.putDisp s ref v).roads = s.roads ∧
    (State.putDisp s ref v).up = s.up ∧
    (State.putDisp s ref v).hs = s.hs ∧
    (State.putDisp s ref v).tw = s.tw ∧
    (State.putDisp s ref v).attn = s.attn ∧
    (State.putDisp s ref v).clients = s.clients ∧
    (State.putDisp s ref v).locks = s.locks ∧
    (State.putDisp s ref v).pin = s.pin ∧
    (State.putDisp s ref v).age = s.age ∧
    (State.putDisp s ref v).tap = s.tap := by
  unfold State.putDisp
  and_intros <;>
    ((try simp) <;> (try (repeat' split)) <;> (try simp))

@[simp] theorem State.displacement_keeps (s : State) (ref : Nat) :
    (State.displacement s ref).pending = s.pending ∧
    (State.displacement s ref).free = s.free ∧
    (State.displacement s ref).power = s.power ∧
    (State.displacement s ref).time = s.time ∧
    (State.displacement s ref).fuses = s.fuses ∧
    (State.displacement s ref).straps = s.straps ∧
    (State.displacement s ref).port = s.port ∧
    (State.displacement s ref).spill = s.spill ∧
    (State.displacement s ref).red = s.red ∧
    (State.displacement s ref).fe = s.fe ∧
    (State.displacement s ref).roads = s.roads ∧
    (State.displacement s ref).up = s.up ∧
    (State.displacement s ref).hs = s.hs ∧
    (State.displacement s ref).tw = s.tw ∧
    (State.displacement s ref).attn = s.attn ∧
    (State.displacement s ref).clients = s.clients ∧
    (State.displacement s ref).locks = s.locks ∧
    (State.displacement s ref).pin = s.pin ∧
    (State.displacement s ref).age = s.age ∧
    (State.displacement s ref).tap = s.tap := by
  unfold State.displacement
  and_intros <;>
    ((try simp) <;> (try (repeat' split)) <;> (try simp))

@[simp] theorem State.displacementAt_keeps (s : State) (q : Nat) :
    (State.displacementAt s q).pending = s.pending ∧
    (State.displacementAt s q).free = s.free ∧
    (State.displacementAt s q).power = s.power ∧
    (State.displacementAt s q).time = s.time ∧
    (State.displacementAt s q).fuses = s.fuses ∧
    (State.displacementAt s q).straps = s.straps ∧
    (State.displacementAt s q).port = s.port ∧
    (State.displacementAt s q).spill = s.spill ∧
    (State.displacementAt s q).red = s.red ∧
    (State.displacementAt s q).fe = s.fe ∧
    (State.displacementAt s q).roads = s.roads ∧
    (State.displacementAt s q).up = s.up ∧
    (State.displacementAt s q).hs = s.hs ∧
    (State.displacementAt s q).tw = s.tw ∧
    (State.displacementAt s q).attn = s.attn ∧
    (State.displacementAt s q).clients = s.clients ∧
    (State.displacementAt s q).locks = s.locks ∧
    (State.displacementAt s q).pin = s.pin ∧
    (State.displacementAt s q).age = s.age ∧
    (State.displacementAt s q).tap = s.tap := by
  unfold State.displacementAt
  and_intros <;>
    ((try simp) <;> (try (repeat' split)) <;> (try simp))

@[simp] theorem doStrapdownSample_keeps (s : State) :
    (doStrapdownSample s).pending = s.pending ∧
    (doStrapdownSample s).free = s.free ∧
    (doStrapdownSample s).power = s.power ∧
    (doStrapdownSample s).time = s.time ∧
    (doStrapdownSample s).fuses = s.fuses ∧
    (doStrapdownSample s).straps = s.straps ∧
    (doStrapdownSample s).port = s.port ∧
    (doStrapdownSample s).spill = s.spill ∧
    (doStrapdownSample s).red = s.red ∧
    (doStrapdownSample s).fe = s.fe ∧
    (doStrapdownSample s).roads = s.roads ∧
    (doStrapdownSample s).up = s.up ∧
    (doStrapdownSample s).hs = s.hs ∧
    (doStrapdownSample s).tw = s.tw ∧
    (doStrapdownSample s).attn = s.attn ∧
    (doStrapdownSample s).clients = s.clients ∧
    (doStrapdownSample s).locks = s.locks ∧
    (doStrapdownSample s).pin = s.pin ∧
    (doStrapdownSample s).age = s.age ∧
    (doStrapdownSample s).tap = s.tap := by
  unfold doStrapdownSample
  and_intros <;>
    ((try simp) <;> (try (repeat' split)) <;> (try simp))

@[simp] theorem doWaveRecordWrite_keeps (s : State) :
    (doWaveRecordWrite s).pending = s.pending ∧
    (doWaveRecordWrite s).power = s.power ∧
    (doWaveRecordWrite s).time = s.time ∧
    (doWaveRecordWrite s).fuses = s.fuses ∧
    (doWaveRecordWrite s).straps = s.straps ∧
    (doWaveRecordWrite s).port = s.port ∧
    (doWaveRecordWrite s).spill = s.spill ∧
    (doWaveRecordWrite s).red = s.red ∧
    (doWaveRecordWrite s).mot = s.mot ∧
    (doWaveRecordWrite s).fe = s.fe ∧
    (doWaveRecordWrite s).roads = s.roads ∧
    (doWaveRecordWrite s).up = s.up ∧
    (doWaveRecordWrite s).hs = s.hs ∧
    (doWaveRecordWrite s).tw = s.tw ∧
    (doWaveRecordWrite s).attn = s.attn ∧
    (doWaveRecordWrite s).clients = s.clients ∧
    (doWaveRecordWrite s).locks = s.locks ∧
    (doWaveRecordWrite s).pin = s.pin ∧
    (doWaveRecordWrite s).age = s.age ∧
    (doWaveRecordWrite s).tap = s.tap := by
  unfold doWaveRecordWrite
  and_intros <;>
    ((try simp) <;> (try (repeat' split)) <;> (try simp))

@[simp] theorem doHeaveStats_keeps (s : State) :
    (doHeaveStats s).pending = s.pending ∧
    (doHeaveStats s).power = s.power ∧
    (doHeaveStats s).time = s.time ∧
    (doHeaveStats s).fuses = s.fuses ∧
    (doHeaveStats s).straps = s.straps ∧
    (doHeaveStats s).port = s.port ∧
    (doHeaveStats s).spill = s.spill ∧
    (doHeaveStats s).red = s.red ∧
    (doHeaveStats s).mot = s.mot ∧
    (doHeaveStats s).fe = s.fe ∧
    (doHeaveStats s).roads = s.roads ∧
    (doHeaveStats s).up = s.up ∧
    (doHeaveStats s).hs = s.hs ∧
    (doHeaveStats s).tw = s.tw ∧
    (doHeaveStats s).attn = s.attn ∧
    (doHeaveStats s).clients = s.clients ∧
    (doHeaveStats s).locks = s.locks ∧
    (doHeaveStats s).pin = s.pin ∧
    (doHeaveStats s).age = s.age ∧
    (doHeaveStats s).tap = s.tap := by
  unfold doHeaveStats
  and_intros <;>
    ((try simp) <;> (try (repeat' split)) <;> (try simp))

@[simp] theorem State.onRec_keeps (s : State) (r : Nat) (f : RecSt → RecSt) :
    (State.onRec s r f).pending = s.pending ∧
    (State.onRec s r f).free = s.free ∧
    (State.onRec s r f).power = s.power ∧
    (State.onRec s r f).time = s.time ∧
    (State.onRec s r f).fuses = s.fuses ∧
    (State.onRec s r f).straps = s.straps ∧
    (State.onRec s r f).port = s.port ∧
    (State.onRec s r f).cw = s.cw ∧
    (State.onRec s r f).spill = s.spill ∧
    (State.onRec s r f).red = s.red ∧
    (State.onRec s r f).mot = s.mot ∧
    (State.onRec s r f).prod = s.prod ∧
    (State.onRec s r f).fe = s.fe ∧
    (State.onRec s r f).roads = s.roads ∧
    (State.onRec s r f).up = s.up ∧
    (State.onRec s r f).hs = s.hs ∧
    (State.onRec s r f).tw = s.tw ∧
    (State.onRec s r f).attn = s.attn ∧
    (State.onRec s r f).clients = s.clients ∧
    (State.onRec s r f).locks = s.locks ∧
    (State.onRec s r f).pin = s.pin ∧
    (State.onRec s r f).age = s.age ∧
    (State.onRec s r f).tap = s.tap := by
  unfold State.onRec
  and_intros <;>
    ((try simp) <;> (try (repeat' split)) <;> (try simp))

@[simp] theorem State.writeEvent_keeps (s : State) (r kind mark off : Nat) (ws : List Word) :
    (State.writeEvent s r kind mark off ws).pending = s.pending ∧
    (State.writeEvent s r kind mark off ws).free = s.free ∧
    (State.writeEvent s r kind mark off ws).power = s.power ∧
    (State.writeEvent s r kind mark off ws).time = s.time ∧
    (State.writeEvent s r kind mark off ws).fuses = s.fuses ∧
    (State.writeEvent s r kind mark off ws).straps = s.straps ∧
    (State.writeEvent s r kind mark off ws).port = s.port ∧
    (State.writeEvent s r kind mark off ws).spill = s.spill ∧
    (State.writeEvent s r kind mark off ws).red = s.red ∧
    (State.writeEvent s r kind mark off ws).mot = s.mot ∧
    (State.writeEvent s r kind mark off ws).prod = s.prod ∧
    (State.writeEvent s r kind mark off ws).fe = s.fe ∧
    (State.writeEvent s r kind mark off ws).roads = s.roads ∧
    (State.writeEvent s r kind mark off ws).up = s.up ∧
    (State.writeEvent s r kind mark off ws).hs = s.hs ∧
    (State.writeEvent s r kind mark off ws).tw = s.tw ∧
    (State.writeEvent s r kind mark off ws).clients = s.clients ∧
    (State.writeEvent s r kind mark off ws).locks = s.locks ∧
    (State.writeEvent s r kind mark off ws).pin = s.pin ∧
    (State.writeEvent s r kind mark off ws).age = s.age ∧
    (State.writeEvent s r kind mark off ws).tap = s.tap := by
  unfold State.writeEvent
  and_intros <;>
    ((try simp) <;> (try (repeat' split)) <;> (try simp))

@[simp] theorem State.noteEvent_keeps (s : State) (r : Nat) :
    (State.noteEvent s r).pending = s.pending ∧
    (State.noteEvent s r).free = s.free ∧
    (State.noteEvent s r).power = s.power ∧
    (State.noteEvent s r).time = s.time ∧
    (State.noteEvent s r).fuses = s.fuses ∧
    (State.noteEvent s r).straps = s.straps ∧
    (State.noteEvent s r).port = s.port ∧
    (State.noteEvent s r).cw = s.cw ∧
    (State.noteEvent s r).spill = s.spill ∧
    (State.noteEvent s r).red = s.red ∧
    (State.noteEvent s r).prod = s.prod ∧
    (State.noteEvent s r).way = s.way ∧
    (State.noteEvent s r).fe = s.fe ∧
    (State.noteEvent s r).roads = s.roads ∧
    (State.noteEvent s r).up = s.up ∧
    (State.noteEvent s r).hs = s.hs ∧
    (State.noteEvent s r).tw = s.tw ∧
    (State.noteEvent s r).attn = s.attn ∧
    (State.noteEvent s r).clients = s.clients ∧
    (State.noteEvent s r).locks = s.locks ∧
    (State.noteEvent s r).pin = s.pin ∧
    (State.noteEvent s r).age = s.age ∧
    (State.noteEvent s r).tap = s.tap := by
  unfold State.noteEvent
  and_intros <;>
    ((try simp) <;> (try (repeat' split)) <;> (try simp))

@[simp] theorem State.onset_keeps (s : State) (r mark off inst : Nat) (ws : List Word) :
    (State.onset s r mark off inst ws).pending = s.pending ∧
    (State.onset s r mark off inst ws).free = s.free ∧
    (State.onset s r mark off inst ws).power = s.power ∧
    (State.onset s r mark off inst ws).time = s.time ∧
    (State.onset s r mark off inst ws).fuses = s.fuses ∧
    (State.onset s r mark off inst ws).straps = s.straps ∧
    (State.onset s r mark off inst ws).port = s.port ∧
    (State.onset s r mark off inst ws).spill = s.spill ∧
    (State.onset s r mark off inst ws).red = s.red ∧
    (State.onset s r mark off inst ws).prod = s.prod ∧
    (State.onset s r mark off inst ws).fe = s.fe ∧
    (State.onset s r mark off inst ws).roads = s.roads ∧
    (State.onset s r mark off inst ws).up = s.up ∧
    (State.onset s r mark off inst ws).hs = s.hs ∧
    (State.onset s r mark off inst ws).tw = s.tw ∧
    (State.onset s r mark off inst ws).clients = s.clients ∧
    (State.onset s r mark off inst ws).locks = s.locks ∧
    (State.onset s r mark off inst ws).pin = s.pin ∧
    (State.onset s r mark off inst ws).age = s.age ∧
    (State.onset s r mark off inst ws).tap = s.tap := by
  unfold State.onset
  and_intros <;>
    ((try simp) <;> (try (repeat' split)) <;> (try simp))

@[simp] theorem State.recEnd_keeps (s : State) (r kind mark off : Nat) (ws : List Word) :
    (State.recEnd s r kind mark off ws).pending = s.pending ∧
    (State.recEnd s r kind mark off ws).free = s.free ∧
    (State.recEnd s r kind mark off ws).power = s.power ∧
    (State.recEnd s r kind mark off ws).time = s.time ∧
    (State.recEnd s r kind mark off ws).fuses = s.fuses ∧
    (State.recEnd s r kind mark off ws).straps = s.straps ∧
    (State.recEnd s r kind mark off ws).port = s.port ∧
    (State.recEnd s r kind mark off ws).spill = s.spill ∧
    (State.recEnd s r kind mark off ws).red = s.red ∧
    (State.recEnd s r kind mark off ws).prod = s.prod ∧
    (State.recEnd s r kind mark off ws).fe = s.fe ∧
    (State.recEnd s r kind mark off ws).roads = s.roads ∧
    (State.recEnd s r kind mark off ws).up = s.up ∧
    (State.recEnd s r kind mark off ws).hs = s.hs ∧
    (State.recEnd s r kind mark off ws).tw = s.tw ∧
    (State.recEnd s r kind mark off ws).clients = s.clients ∧
    (State.recEnd s r kind mark off ws).locks = s.locks ∧
    (State.recEnd s r kind mark off ws).pin = s.pin ∧
    (State.recEnd s r kind mark off ws).age = s.age ∧
    (State.recEnd s r kind mark off ws).tap = s.tap := by
  unfold State.recEnd
  and_intros <;>
    ((try simp) <;> (try (repeat' split)) <;> (try simp))

@[simp] theorem State.forceEnd_keeps (s : State) (r : Nat) :
    (State.forceEnd s r).pending = s.pending ∧
    (State.forceEnd s r).free = s.free ∧
    (State.forceEnd s r).power = s.power ∧
    (State.forceEnd s r).time = s.time ∧
    (State.forceEnd s r).fuses = s.fuses ∧
    (State.forceEnd s r).straps = s.straps ∧
    (State.forceEnd s r).port = s.port ∧
    (State.forceEnd s r).spill = s.spill ∧
    (State.forceEnd s r).red = s.red ∧
    (State.forceEnd s r).prod = s.prod ∧
    (State.forceEnd s r).fe = s.fe ∧
    (State.forceEnd s r).roads = s.roads ∧
    (State.forceEnd s r).up = s.up ∧
    (State.forceEnd s r).hs = s.hs ∧
    (State.forceEnd s r).tw = s.tw ∧
    (State.forceEnd s r).clients = s.clients ∧
    (State.forceEnd s r).locks = s.locks ∧
    (State.forceEnd s r).pin = s.pin ∧
    (State.forceEnd s r).age = s.age ∧
    (State.forceEnd s r).tap = s.tap := by
  unfold State.forceEnd
  and_intros <;>
    ((try simp) <;> (try (repeat' split)) <;> (try simp))

@[simp] theorem State.forceEnds_keeps (s : State) (sel : Nat → Bool) :
    (State.forceEnds s sel).pending = s.pending ∧
    (State.forceEnds s sel).free = s.free ∧
    (State.forceEnds s sel).power = s.power ∧
    (State.forceEnds s sel).time = s.time ∧
    (State.forceEnds s sel).fuses = s.fuses ∧
    (State.forceEnds s sel).straps = s.straps ∧
    (State.forceEnds s sel).port = s.port ∧
    (State.forceEnds s sel).spill = s.spill ∧
    (State.forceEnds s sel).red = s.red ∧
    (State.forceEnds s sel).prod = s.prod ∧
    (State.forceEnds s sel).fe = s.fe ∧
    (State.forceEnds s sel).roads = s.roads ∧
    (State.forceEnds s sel).up = s.up ∧
    (State.forceEnds s sel).hs = s.hs ∧
    (State.forceEnds s sel).tw = s.tw ∧
    (State.forceEnds s sel).clients = s.clients ∧
    (State.forceEnds s sel).locks = s.locks ∧
    (State.forceEnds s sel).pin = s.pin ∧
    (State.forceEnds s sel).age = s.age ∧
    (State.forceEnds s sel).tap = s.tap := by
  unfold State.forceEnds
  and_intros <;>
    ((try simp) <;> (try (repeat' split)) <;> (try simp))

@[simp] theorem State.slamActive_keeps (s : State) (e : Recog) (i sq : Nat) (ws : List Word) :
    (State.slamActive s e i sq ws).pending = s.pending ∧
    (State.slamActive s e i sq ws).free = s.free ∧
    (State.slamActive s e i sq ws).power = s.power ∧
    (State.slamActive s e i sq ws).time = s.time ∧
    (State.slamActive s e i sq ws).fuses = s.fuses ∧
    (State.slamActive s e i sq ws).straps = s.straps ∧
    (State.slamActive s e i sq ws).port = s.port ∧
    (State.slamActive s e i sq ws).spill = s.spill ∧
    (State.slamActive s e i sq ws).red = s.red ∧
    (State.slamActive s e i sq ws).prod = s.prod ∧
    (State.slamActive s e i sq ws).fe = s.fe ∧
    (State.slamActive s e i sq ws).roads = s.roads ∧
    (State.slamActive s e i sq ws).up = s.up ∧
    (State.slamActive s e i sq ws).hs = s.hs ∧
    (State.slamActive s e i sq ws).tw = s.tw ∧
    (State.slamActive s e i sq ws).clients = s.clients ∧
    (State.slamActive s e i sq ws).locks = s.locks ∧
    (State.slamActive s e i sq ws).pin = s.pin ∧
    (State.slamActive s e i sq ws).age = s.age ∧
    (State.slamActive s e i sq ws).tap = s.tap := by
  unfold State.slamActive
  and_intros <;>
    ((try simp) <;> (try (repeat' split)) <;> (try simp))

@[simp] theorem State.slamIdle_keeps (s : State) (e : Recog) (i sq : Nat) (ws : List Word) :
    (State.slamIdle s e i sq ws).pending = s.pending ∧
    (State.slamIdle s e i sq ws).free = s.free ∧
    (State.slamIdle s e i sq ws).power = s.power ∧
    (State.slamIdle s e i sq ws).time = s.time ∧
    (State.slamIdle s e i sq ws).fuses = s.fuses ∧
    (State.slamIdle s e i sq ws).straps = s.straps ∧
    (State.slamIdle s e i sq ws).port = s.port ∧
    (State.slamIdle s e i sq ws).spill = s.spill ∧
    (State.slamIdle s e i sq ws).red = s.red ∧
    (State.slamIdle s e i sq ws).prod = s.prod ∧
    (State.slamIdle s e i sq ws).fe = s.fe ∧
    (State.slamIdle s e i sq ws).roads = s.roads ∧
    (State.slamIdle s e i sq ws).up = s.up ∧
    (State.slamIdle s e i sq ws).hs = s.hs ∧
    (State.slamIdle s e i sq ws).tw = s.tw ∧
    (State.slamIdle s e i sq ws).clients = s.clients ∧
    (State.slamIdle s e i sq ws).locks = s.locks ∧
    (State.slamIdle s e i sq ws).pin = s.pin ∧
    (State.slamIdle s e i sq ws).age = s.age ∧
    (State.slamIdle s e i sq ws).tap = s.tap := by
  unfold State.slamIdle
  and_intros <;>
    ((try simp) <;> (try (repeat' split)) <;> (try simp))

@[simp] theorem doSlam_keeps (s : State) :
    (doSlam s).pending = s.pending ∧
    (doSlam s).free = s.free ∧
    (doSlam s).power = s.power ∧
    (doSlam s).time = s.time ∧
    (doSlam s).fuses = s.fuses ∧
    (doSlam s).straps = s.straps ∧
    (doSlam s).port = s.port ∧
    (doSlam s).spill = s.spill ∧
    (doSlam s).red = s.red ∧
    (doSlam s).prod = s.prod ∧
    (doSlam s).fe = s.fe ∧
    (doSlam s).roads = s.roads ∧
    (doSlam s).up = s.up ∧
    (doSlam s).hs = s.hs ∧
    (doSlam s).tw = s.tw ∧
    (doSlam s).clients = s.clients ∧
    (doSlam s).locks = s.locks ∧
    (doSlam s).pin = s.pin ∧
    (doSlam s).age = s.age ∧
    (doSlam s).tap = s.tap := by
  unfold doSlam
  and_intros <;>
    ((try simp) <;> (try (repeat' split)) <;> (try simp))

@[simp] theorem State.crestEvent_keeps (s : State) (e : Recog) (ref : Nat) (w : Wave) :
    (State.crestEvent s e ref w).pending = s.pending ∧
    (State.crestEvent s e ref w).free = s.free ∧
    (State.crestEvent s e ref w).power = s.power ∧
    (State.crestEvent s e ref w).time = s.time ∧
    (State.crestEvent s e ref w).fuses = s.fuses ∧
    (State.crestEvent s e ref w).straps = s.straps ∧
    (State.crestEvent s e ref w).port = s.port ∧
    (State.crestEvent s e ref w).spill = s.spill ∧
    (State.crestEvent s e ref w).red = s.red ∧
    (State.crestEvent s e ref w).mot = s.mot ∧
    (State.crestEvent s e ref w).prod = s.prod ∧
    (State.crestEvent s e ref w).fe = s.fe ∧
    (State.crestEvent s e ref w).roads = s.roads ∧
    (State.crestEvent s e ref w).up = s.up ∧
    (State.crestEvent s e ref w).hs = s.hs ∧
    (State.crestEvent s e ref w).tw = s.tw ∧
    (State.crestEvent s e ref w).clients = s.clients ∧
    (State.crestEvent s e ref w).locks = s.locks ∧
    (State.crestEvent s e ref w).pin = s.pin ∧
    (State.crestEvent s e ref w).age = s.age ∧
    (State.crestEvent s e ref w).tap = s.tap := by
  unfold State.crestEvent
  and_intros <;>
    ((try simp) <;> (try (repeat' split)) <;> (try simp))

@[simp] theorem State.crestUp_keeps (s : State) (e : Recog) (ref : Nat) (h : Word) (st : RecSt) :
    (State.crestUp s e ref h st).pending = s.pending ∧
    (State.crestUp s e ref h st).free = s.free ∧
    (State.crestUp s e ref h st).power = s.power ∧
    (State.crestUp s e ref h st).time = s.time ∧
    (State.crestUp s e ref h st).fuses = s.fuses ∧
    (State.crestUp s e ref h st).straps = s.straps ∧
    (State.crestUp s e ref h st).port = s.port ∧
    (State.crestUp s e ref h st).spill = s.spill ∧
    (State.crestUp s e ref h st).red = s.red ∧
    (State.crestUp s e ref h st).mot = s.mot ∧
    (State.crestUp s e ref h st).prod = s.prod ∧
    (State.crestUp s e ref h st).fe = s.fe ∧
    (State.crestUp s e ref h st).roads = s.roads ∧
    (State.crestUp s e ref h st).up = s.up ∧
    (State.crestUp s e ref h st).hs = s.hs ∧
    (State.crestUp s e ref h st).tw = s.tw ∧
    (State.crestUp s e ref h st).clients = s.clients ∧
    (State.crestUp s e ref h st).locks = s.locks ∧
    (State.crestUp s e ref h st).pin = s.pin ∧
    (State.crestUp s e ref h st).age = s.age ∧
    (State.crestUp s e ref h st).tap = s.tap := by
  unfold State.crestUp
  and_intros <;>
    ((try simp) <;> (try (repeat' split)) <;> (try simp))

@[simp] theorem State.crestValue_keeps (s : State) (e : Recog) (ref : Nat) (v : List Word) :
    (State.crestValue s e ref v).pending = s.pending ∧
    (State.crestValue s e ref v).free = s.free ∧
    (State.crestValue s e ref v).power = s.power ∧
    (State.crestValue s e ref v).time = s.time ∧
    (State.crestValue s e ref v).fuses = s.fuses ∧
    (State.crestValue s e ref v).straps = s.straps ∧
    (State.crestValue s e ref v).port = s.port ∧
    (State.crestValue s e ref v).spill = s.spill ∧
    (State.crestValue s e ref v).red = s.red ∧
    (State.crestValue s e ref v).mot = s.mot ∧
    (State.crestValue s e ref v).prod = s.prod ∧
    (State.crestValue s e ref v).fe = s.fe ∧
    (State.crestValue s e ref v).roads = s.roads ∧
    (State.crestValue s e ref v).up = s.up ∧
    (State.crestValue s e ref v).hs = s.hs ∧
    (State.crestValue s e ref v).tw = s.tw ∧
    (State.crestValue s e ref v).clients = s.clients ∧
    (State.crestValue s e ref v).locks = s.locks ∧
    (State.crestValue s e ref v).pin = s.pin ∧
    (State.crestValue s e ref v).age = s.age ∧
    (State.crestValue s e ref v).tap = s.tap := by
  unfold State.crestValue
  and_intros <;>
    ((try simp) <;> (try (repeat' split)) <;> (try simp))

@[simp] theorem doCrest_keeps (s : State) :
    (doCrest s).pending = s.pending ∧
    (doCrest s).free = s.free ∧
    (doCrest s).power = s.power ∧
    (doCrest s).time = s.time ∧
    (doCrest s).fuses = s.fuses ∧
    (doCrest s).straps = s.straps ∧
    (doCrest s).port = s.port ∧
    (doCrest s).spill = s.spill ∧
    (doCrest s).red = s.red ∧
    (doCrest s).mot = s.mot ∧
    (doCrest s).prod = s.prod ∧
    (doCrest s).fe = s.fe ∧
    (doCrest s).roads = s.roads ∧
    (doCrest s).up = s.up ∧
    (doCrest s).hs = s.hs ∧
    (doCrest s).tw = s.tw ∧
    (doCrest s).clients = s.clients ∧
    (doCrest s).locks = s.locks ∧
    (doCrest s).pin = s.pin ∧
    (doCrest s).age = s.age ∧
    (doCrest s).tap = s.tap := by
  unfold doCrest
  and_intros <;>
    ((try simp) <;> (try (repeat' split)) <;> (try simp))

@[simp] theorem State.dropActive_keeps (s : State) (e : Recog) (j sq : Nat) :
    (State.dropActive s e j sq).pending = s.pending ∧
    (State.dropActive s e j sq).free = s.free ∧
    (State.dropActive s e j sq).power = s.power ∧
    (State.dropActive s e j sq).time = s.time ∧
    (State.dropActive s e j sq).fuses = s.fuses ∧
    (State.dropActive s e j sq).straps = s.straps ∧
    (State.dropActive s e j sq).port = s.port ∧
    (State.dropActive s e j sq).spill = s.spill ∧
    (State.dropActive s e j sq).red = s.red ∧
    (State.dropActive s e j sq).prod = s.prod ∧
    (State.dropActive s e j sq).fe = s.fe ∧
    (State.dropActive s e j sq).roads = s.roads ∧
    (State.dropActive s e j sq).up = s.up ∧
    (State.dropActive s e j sq).hs = s.hs ∧
    (State.dropActive s e j sq).tw = s.tw ∧
    (State.dropActive s e j sq).clients = s.clients ∧
    (State.dropActive s e j sq).locks = s.locks ∧
    (State.dropActive s e j sq).pin = s.pin ∧
    (State.dropActive s e j sq).age = s.age ∧
    (State.dropActive s e j sq).tap = s.tap := by
  unfold State.dropActive
  and_intros <;>
    ((try simp) <;> (try (repeat' split)) <;> (try simp))

@[simp] theorem State.dropIdle_keeps (s : State) (e : Recog) (j sq : Nat) :
    (State.dropIdle s e j sq).pending = s.pending ∧
    (State.dropIdle s e j sq).free = s.free ∧
    (State.dropIdle s e j sq).power = s.power ∧
    (State.dropIdle s e j sq).time = s.time ∧
    (State.dropIdle s e j sq).fuses = s.fuses ∧
    (State.dropIdle s e j sq).straps = s.straps ∧
    (State.dropIdle s e j sq).port = s.port ∧
    (State.dropIdle s e j sq).spill = s.spill ∧
    (State.dropIdle s e j sq).red = s.red ∧
    (State.dropIdle s e j sq).prod = s.prod ∧
    (State.dropIdle s e j sq).fe = s.fe ∧
    (State.dropIdle s e j sq).roads = s.roads ∧
    (State.dropIdle s e j sq).up = s.up ∧
    (State.dropIdle s e j sq).hs = s.hs ∧
    (State.dropIdle s e j sq).tw = s.tw ∧
    (State.dropIdle s e j sq).clients = s.clients ∧
    (State.dropIdle s e j sq).locks = s.locks ∧
    (State.dropIdle s e j sq).pin = s.pin ∧
    (State.dropIdle s e j sq).age = s.age ∧
    (State.dropIdle s e j sq).tap = s.tap := by
  unfold State.dropIdle
  and_intros <;>
    ((try simp) <;> (try (repeat' split)) <;> (try simp))

@[simp] theorem doDrop_keeps (s : State) :
    (doDrop s).pending = s.pending ∧
    (doDrop s).free = s.free ∧
    (doDrop s).power = s.power ∧
    (doDrop s).time = s.time ∧
    (doDrop s).fuses = s.fuses ∧
    (doDrop s).straps = s.straps ∧
    (doDrop s).port = s.port ∧
    (doDrop s).spill = s.spill ∧
    (doDrop s).red = s.red ∧
    (doDrop s).prod = s.prod ∧
    (doDrop s).fe = s.fe ∧
    (doDrop s).roads = s.roads ∧
    (doDrop s).up = s.up ∧
    (doDrop s).hs = s.hs ∧
    (doDrop s).tw = s.tw ∧
    (doDrop s).clients = s.clients ∧
    (doDrop s).locks = s.locks ∧
    (doDrop s).pin = s.pin ∧
    (doDrop s).age = s.age ∧
    (doDrop s).tap = s.tap := by
  unfold doDrop
  and_intros <;>
    ((try simp) <;> (try (repeat' split)) <;> (try simp))

@[simp] theorem State.capsizeValue_keeps (s : State) (e : Recog) (q : Nat) :
    (State.capsizeValue s e q).pending = s.pending ∧
    (State.capsizeValue s e q).free = s.free ∧
    (State.capsizeValue s e q).power = s.power ∧
    (State.capsizeValue s e q).time = s.time ∧
    (State.capsizeValue s e q).fuses = s.fuses ∧
    (State.capsizeValue s e q).straps = s.straps ∧
    (State.capsizeValue s e q).port = s.port ∧
    (State.capsizeValue s e q).spill = s.spill ∧
    (State.capsizeValue s e q).red = s.red ∧
    (State.capsizeValue s e q).prod = s.prod ∧
    (State.capsizeValue s e q).fe = s.fe ∧
    (State.capsizeValue s e q).roads = s.roads ∧
    (State.capsizeValue s e q).up = s.up ∧
    (State.capsizeValue s e q).hs = s.hs ∧
    (State.capsizeValue s e q).tw = s.tw ∧
    (State.capsizeValue s e q).clients = s.clients ∧
    (State.capsizeValue s e q).locks = s.locks ∧
    (State.capsizeValue s e q).pin = s.pin ∧
    (State.capsizeValue s e q).age = s.age ∧
    (State.capsizeValue s e q).tap = s.tap := by
  unfold State.capsizeValue
  and_intros <;>
    ((try simp) <;> (try (repeat' split)) <;> (try simp))

@[simp] theorem doCapsize_keeps (s : State) :
    (doCapsize s).pending = s.pending ∧
    (doCapsize s).free = s.free ∧
    (doCapsize s).power = s.power ∧
    (doCapsize s).time = s.time ∧
    (doCapsize s).fuses = s.fuses ∧
    (doCapsize s).straps = s.straps ∧
    (doCapsize s).port = s.port ∧
    (doCapsize s).spill = s.spill ∧
    (doCapsize s).red = s.red ∧
    (doCapsize s).prod = s.prod ∧
    (doCapsize s).fe = s.fe ∧
    (doCapsize s).roads = s.roads ∧
    (doCapsize s).up = s.up ∧
    (doCapsize s).hs = s.hs ∧
    (doCapsize s).tw = s.tw ∧
    (doCapsize s).clients = s.clients ∧
    (doCapsize s).locks = s.locks ∧
    (doCapsize s).pin = s.pin ∧
    (doCapsize s).age = s.age ∧
    (doCapsize s).tap = s.tap := by
  unfold doCapsize
  and_intros <;>
    ((try simp) <;> (try (repeat' split)) <;> (try simp))

@[simp] theorem doTilt_keeps (s : State) :
    (doTilt s).pending = s.pending ∧
    (doTilt s).free = s.free ∧
    (doTilt s).power = s.power ∧
    (doTilt s).time = s.time ∧
    (doTilt s).fuses = s.fuses ∧
    (doTilt s).straps = s.straps ∧
    (doTilt s).port = s.port ∧
    (doTilt s).spill = s.spill ∧
    (doTilt s).red = s.red ∧
    (doTilt s).prod = s.prod ∧
    (doTilt s).fe = s.fe ∧
    (doTilt s).roads = s.roads ∧
    (doTilt s).up = s.up ∧
    (doTilt s).hs = s.hs ∧
    (doTilt s).tw = s.tw ∧
    (doTilt s).clients = s.clients ∧
    (doTilt s).locks = s.locks ∧
    (doTilt s).pin = s.pin ∧
    (doTilt s).age = s.age ∧
    (doTilt s).tap = s.tap := by
  unfold doTilt
  and_intros <;>
    ((try simp) <;> (try (repeat' split)) <;> (try simp))

@[simp] theorem doDrift_keeps (s : State) :
    (doDrift s).pending = s.pending ∧
    (doDrift s).free = s.free ∧
    (doDrift s).power = s.power ∧
    (doDrift s).time = s.time ∧
    (doDrift s).fuses = s.fuses ∧
    (doDrift s).straps = s.straps ∧
    (doDrift s).port = s.port ∧
    (doDrift s).spill = s.spill ∧
    (doDrift s).red = s.red ∧
    (doDrift s).prod = s.prod ∧
    (doDrift s).fe = s.fe ∧
    (doDrift s).roads = s.roads ∧
    (doDrift s).up = s.up ∧
    (doDrift s).hs = s.hs ∧
    (doDrift s).tw = s.tw ∧
    (doDrift s).clients = s.clients ∧
    (doDrift s).locks = s.locks ∧
    (doDrift s).pin = s.pin ∧
    (doDrift s).age = s.age ∧
    (doDrift s).tap = s.tap := by
  unfold doDrift
  and_intros <;>
    ((try simp) <;> (try (repeat' split)) <;> (try simp))

@[simp] theorem doTriadFault_keeps (src : Nat) (code : Word) (s : State) :
    (doTriadFault src code s).pending = s.pending ∧
    (doTriadFault src code s).free = s.free ∧
    (doTriadFault src code s).power = s.power ∧
    (doTriadFault src code s).time = s.time ∧
    (doTriadFault src code s).fuses = s.fuses ∧
    (doTriadFault src code s).straps = s.straps ∧
    (doTriadFault src code s).port = s.port ∧
    (doTriadFault src code s).spill = s.spill ∧
    (doTriadFault src code s).red = s.red ∧
    (doTriadFault src code s).prod = s.prod ∧
    (doTriadFault src code s).fe = s.fe ∧
    (doTriadFault src code s).roads = s.roads ∧
    (doTriadFault src code s).up = s.up ∧
    (doTriadFault src code s).hs = s.hs ∧
    (doTriadFault src code s).tw = s.tw ∧
    (doTriadFault src code s).clients = s.clients ∧
    (doTriadFault src code s).locks = s.locks ∧
    (doTriadFault src code s).pin = s.pin ∧
    (doTriadFault src code s).age = s.age ∧
    (doTriadFault src code s).tap = s.tap := by
  unfold doTriadFault
  and_intros <;>
    ((try simp) <;> (try (repeat' split)) <;> (try simp))

@[simp] theorem doTriadFaultClear_keeps (dt src : Nat) (s : State) :
    (doTriadFaultClear dt src s).pending = s.pending ∧
    (doTriadFaultClear dt src s).free = s.free ∧
    (doTriadFaultClear dt src s).power = s.power ∧
    (doTriadFaultClear dt src s).fuses = s.fuses ∧
    (doTriadFaultClear dt src s).straps = s.straps ∧
    (doTriadFaultClear dt src s).port = s.port ∧
    (doTriadFaultClear dt src s).cw = s.cw ∧
    (doTriadFaultClear dt src s).spill = s.spill ∧
    (doTriadFaultClear dt src s).red = s.red ∧
    (doTriadFaultClear dt src s).prod = s.prod ∧
    (doTriadFaultClear dt src s).way = s.way ∧
    (doTriadFaultClear dt src s).fe = s.fe ∧
    (doTriadFaultClear dt src s).roads = s.roads ∧
    (doTriadFaultClear dt src s).up = s.up ∧
    (doTriadFaultClear dt src s).hs = s.hs ∧
    (doTriadFaultClear dt src s).tw = s.tw ∧
    (doTriadFaultClear dt src s).attn = s.attn ∧
    (doTriadFaultClear dt src s).clients = s.clients ∧
    (doTriadFaultClear dt src s).locks = s.locks ∧
    (doTriadFaultClear dt src s).pin = s.pin ∧
    (doTriadFaultClear dt src s).age = s.age ∧
    (doTriadFaultClear dt src s).tap = s.tap ∧
    (doTriadFaultClear dt src s).time.gRate = s.time.gRate ∧
    (doTriadFaultClear dt src s).time.rates = s.time.rates ∧
    (doTriadFaultClear dt src s).time.gIdx = s.time.gIdx := by
  unfold doTriadFaultClear
  and_intros <;>
    ((try simp) <;> (try (repeat' split)) <;> (try simp))

@[simp] theorem doTriadSettled_keeps (dt src : Nat) (s : State) :
    (doTriadSettled dt src s).pending = s.pending ∧
    (doTriadSettled dt src s).free = s.free ∧
    (doTriadSettled dt src s).power = s.power ∧
    (doTriadSettled dt src s).fuses = s.fuses ∧
    (doTriadSettled dt src s).straps = s.straps ∧
    (doTriadSettled dt src s).port = s.port ∧
    (doTriadSettled dt src s).cw = s.cw ∧
    (doTriadSettled dt src s).spill = s.spill ∧
    (doTriadSettled dt src s).red = s.red ∧
    (doTriadSettled dt src s).prod = s.prod ∧
    (doTriadSettled dt src s).way = s.way ∧
    (doTriadSettled dt src s).fe = s.fe ∧
    (doTriadSettled dt src s).roads = s.roads ∧
    (doTriadSettled dt src s).up = s.up ∧
    (doTriadSettled dt src s).hs = s.hs ∧
    (doTriadSettled dt src s).tw = s.tw ∧
    (doTriadSettled dt src s).attn = s.attn ∧
    (doTriadSettled dt src s).clients = s.clients ∧
    (doTriadSettled dt src s).locks = s.locks ∧
    (doTriadSettled dt src s).pin = s.pin ∧
    (doTriadSettled dt src s).age = s.age ∧
    (doTriadSettled dt src s).tap = s.tap ∧
    (doTriadSettled dt src s).time.gRate = s.time.gRate ∧
    (doTriadSettled dt src s).time.rates = s.time.rates ∧
    (doTriadSettled dt src s).time.gIdx = s.time.gIdx := by
  unfold doTriadSettled
  and_intros <;>
    ((try simp) <;> (try (repeat' split)) <;> (try simp))

@[simp] theorem State.onCal_keeps (s : State) (i : Nat) (f : CalCh → CalCh) :
    (State.onCal s i f).pending = s.pending ∧
    (State.onCal s i f).free = s.free ∧
    (State.onCal s i f).power = s.power ∧
    (State.onCal s i f).time = s.time ∧
    (State.onCal s i f).fuses = s.fuses ∧
    (State.onCal s i f).straps = s.straps ∧
    (State.onCal s i f).port = s.port ∧
    (State.onCal s i f).cw = s.cw ∧
    (State.onCal s i f).spill = s.spill ∧
    (State.onCal s i f).red = s.red ∧
    (State.onCal s i f).prod = s.prod ∧
    (State.onCal s i f).way = s.way ∧
    (State.onCal s i f).fe = s.fe ∧
    (State.onCal s i f).roads = s.roads ∧
    (State.onCal s i f).up = s.up ∧
    (State.onCal s i f).hs = s.hs ∧
    (State.onCal s i f).tw = s.tw ∧
    (State.onCal s i f).attn = s.attn ∧
    (State.onCal s i f).clients = s.clients ∧
    (State.onCal s i f).locks = s.locks ∧
    (State.onCal s i f).pin = s.pin ∧
    (State.onCal s i f).age = s.age ∧
    (State.onCal s i f).tap = s.tap := by
  unfold State.onCal
  and_intros <;>
    ((try simp) <;> (try (repeat' split)) <;> (try simp))

@[simp] theorem doCalBlockEnd_keeps (i : Nat) (s : State) :
    (doCalBlockEnd i s).pending = s.pending ∧
    (doCalBlockEnd i s).free = s.free ∧
    (doCalBlockEnd i s).power = s.power ∧
    (doCalBlockEnd i s).time = s.time ∧
    (doCalBlockEnd i s).fuses = s.fuses ∧
    (doCalBlockEnd i s).straps = s.straps ∧
    (doCalBlockEnd i s).port = s.port ∧
    (doCalBlockEnd i s).cw = s.cw ∧
    (doCalBlockEnd i s).spill = s.spill ∧
    (doCalBlockEnd i s).red = s.red ∧
    (doCalBlockEnd i s).prod = s.prod ∧
    (doCalBlockEnd i s).way = s.way ∧
    (doCalBlockEnd i s).fe = s.fe ∧
    (doCalBlockEnd i s).roads = s.roads ∧
    (doCalBlockEnd i s).up = s.up ∧
    (doCalBlockEnd i s).hs = s.hs ∧
    (doCalBlockEnd i s).tw = s.tw ∧
    (doCalBlockEnd i s).attn = s.attn ∧
    (doCalBlockEnd i s).clients = s.clients ∧
    (doCalBlockEnd i s).locks = s.locks ∧
    (doCalBlockEnd i s).pin = s.pin ∧
    (doCalBlockEnd i s).age = s.age ∧
    (doCalBlockEnd i s).tap = s.tap := by
  unfold doCalBlockEnd
  and_intros <;>
    ((try simp) <;> (try (repeat' split)) <;> (try simp))

@[simp] theorem State.takeUpdate_keeps (s : State) (i : Nat) (c' : CalCh) (changed : Bool) (mark cov : Nat) (dpsi : Int) :
    (State.takeUpdate s i c' changed mark cov dpsi).pending = s.pending ∧
    (State.takeUpdate s i c' changed mark cov dpsi).free = s.free ∧
    (State.takeUpdate s i c' changed mark cov dpsi).power = s.power ∧
    (State.takeUpdate s i c' changed mark cov dpsi).time = s.time ∧
    (State.takeUpdate s i c' changed mark cov dpsi).fuses = s.fuses ∧
    (State.takeUpdate s i c' changed mark cov dpsi).straps = s.straps ∧
    (State.takeUpdate s i c' changed mark cov dpsi).port = s.port ∧
    (State.takeUpdate s i c' changed mark cov dpsi).cw = s.cw ∧
    (State.takeUpdate s i c' changed mark cov dpsi).spill = s.spill ∧
    (State.takeUpdate s i c' changed mark cov dpsi).red = s.red ∧
    (State.takeUpdate s i c' changed mark cov dpsi).prod = s.prod ∧
    (State.takeUpdate s i c' changed mark cov dpsi).way = s.way ∧
    (State.takeUpdate s i c' changed mark cov dpsi).fe = s.fe ∧
    (State.takeUpdate s i c' changed mark cov dpsi).roads = s.roads ∧
    (State.takeUpdate s i c' changed mark cov dpsi).up = s.up ∧
    (State.takeUpdate s i c' changed mark cov dpsi).hs = s.hs ∧
    (State.takeUpdate s i c' changed mark cov dpsi).tw = s.tw ∧
    (State.takeUpdate s i c' changed mark cov dpsi).attn = s.attn ∧
    (State.takeUpdate s i c' changed mark cov dpsi).clients = s.clients ∧
    (State.takeUpdate s i c' changed mark cov dpsi).locks = s.locks ∧
    (State.takeUpdate s i c' changed mark cov dpsi).pin = s.pin ∧
    (State.takeUpdate s i c' changed mark cov dpsi).age = s.age ∧
    (State.takeUpdate s i c' changed mark cov dpsi).tap = s.tap := by
  unfold State.takeUpdate
  and_intros <;>
    ((try simp) <;> (try (repeat' split)) <;> (try simp))

@[simp] theorem doCalUpdate_keeps (i : Nat) (s : State) :
    (doCalUpdate i s).pending = s.pending ∧
    (doCalUpdate i s).free = s.free ∧
    (doCalUpdate i s).power = s.power ∧
    (doCalUpdate i s).time = s.time ∧
    (doCalUpdate i s).fuses = s.fuses ∧
    (doCalUpdate i s).straps = s.straps ∧
    (doCalUpdate i s).port = s.port ∧
    (doCalUpdate i s).spill = s.spill ∧
    (doCalUpdate i s).red = s.red ∧
    (doCalUpdate i s).prod = s.prod ∧
    (doCalUpdate i s).fe = s.fe ∧
    (doCalUpdate i s).roads = s.roads ∧
    (doCalUpdate i s).up = s.up ∧
    (doCalUpdate i s).hs = s.hs ∧
    (doCalUpdate i s).tw = s.tw ∧
    (doCalUpdate i s).attn = s.attn ∧
    (doCalUpdate i s).clients = s.clients ∧
    (doCalUpdate i s).locks = s.locks ∧
    (doCalUpdate i s).pin = s.pin ∧
    (doCalUpdate i s).age = s.age ∧
    (doCalUpdate i s).tap = s.tap := by
  unfold doCalUpdate
  and_intros <;>
    ((try simp) <;> (try (repeat' split)) <;> (try simp))

@[simp] theorem State.heaveEmpty_keeps (s : State) :
    (State.heaveEmpty s).pending = s.pending ∧
    (State.heaveEmpty s).free = s.free ∧
    (State.heaveEmpty s).power = s.power ∧
    (State.heaveEmpty s).time = s.time ∧
    (State.heaveEmpty s).fuses = s.fuses ∧
    (State.heaveEmpty s).straps = s.straps ∧
    (State.heaveEmpty s).port = s.port ∧
    (State.heaveEmpty s).spill = s.spill ∧
    (State.heaveEmpty s).red = s.red ∧
    (State.heaveEmpty s).prod = s.prod ∧
    (State.heaveEmpty s).fe = s.fe ∧
    (State.heaveEmpty s).roads = s.roads ∧
    (State.heaveEmpty s).up = s.up ∧
    (State.heaveEmpty s).hs = s.hs ∧
    (State.heaveEmpty s).tw = s.tw ∧
    (State.heaveEmpty s).attn = s.attn ∧
    (State.heaveEmpty s).clients = s.clients ∧
    (State.heaveEmpty s).locks = s.locks ∧
    (State.heaveEmpty s).pin = s.pin ∧
    (State.heaveEmpty s).age = s.age ∧
    (State.heaveEmpty s).tap = s.tap := by
  unfold State.heaveEmpty
  and_intros <;>
    ((try simp) <;> (try (repeat' split)) <;> (try simp))

@[simp] theorem State.heaveUpdate_keeps (s : State) (first : Nat) (d hm0 : Word) :
    (State.heaveUpdate s first d hm0).pending = s.pending ∧
    (State.heaveUpdate s first d hm0).free = s.free ∧
    (State.heaveUpdate s first d hm0).power = s.power ∧
    (State.heaveUpdate s first d hm0).time = s.time ∧
    (State.heaveUpdate s first d hm0).fuses = s.fuses ∧
    (State.heaveUpdate s first d hm0).straps = s.straps ∧
    (State.heaveUpdate s first d hm0).port = s.port ∧
    (State.heaveUpdate s first d hm0).spill = s.spill ∧
    (State.heaveUpdate s first d hm0).red = s.red ∧
    (State.heaveUpdate s first d hm0).prod = s.prod ∧
    (State.heaveUpdate s first d hm0).fe = s.fe ∧
    (State.heaveUpdate s first d hm0).roads = s.roads ∧
    (State.heaveUpdate s first d hm0).up = s.up ∧
    (State.heaveUpdate s first d hm0).hs = s.hs ∧
    (State.heaveUpdate s first d hm0).tw = s.tw ∧
    (State.heaveUpdate s first d hm0).attn = s.attn ∧
    (State.heaveUpdate s first d hm0).clients = s.clients ∧
    (State.heaveUpdate s first d hm0).locks = s.locks ∧
    (State.heaveUpdate s first d hm0).pin = s.pin ∧
    (State.heaveUpdate s first d hm0).age = s.age ∧
    (State.heaveUpdate s first d hm0).tap = s.tap := by
  unfold State.heaveUpdate
  and_intros <;>
    ((try simp) <;> (try (repeat' split)) <;> (try simp))

@[simp] theorem doRecordPeriodEnd_keeps (s : State) :
    (doRecordPeriodEnd s).pending = s.pending ∧
    (doRecordPeriodEnd s).free = s.free ∧
    (doRecordPeriodEnd s).power = s.power ∧
    (doRecordPeriodEnd s).time = s.time ∧
    (doRecordPeriodEnd s).fuses = s.fuses ∧
    (doRecordPeriodEnd s).straps = s.straps ∧
    (doRecordPeriodEnd s).port = s.port ∧
    (doRecordPeriodEnd s).spill = s.spill ∧
    (doRecordPeriodEnd s).red = s.red ∧
    (doRecordPeriodEnd s).fe = s.fe ∧
    (doRecordPeriodEnd s).roads = s.roads ∧
    (doRecordPeriodEnd s).up = s.up ∧
    (doRecordPeriodEnd s).hs = s.hs ∧
    (doRecordPeriodEnd s).tw = s.tw ∧
    (doRecordPeriodEnd s).attn = s.attn ∧
    (doRecordPeriodEnd s).clients = s.clients ∧
    (doRecordPeriodEnd s).locks = s.locks ∧
    (doRecordPeriodEnd s).pin = s.pin ∧
    (doRecordPeriodEnd s).age = s.age ∧
    (doRecordPeriodEnd s).tap = s.tap := by
  unfold doRecordPeriodEnd
  and_intros <;>
    ((try simp) <;> (try (repeat' split)) <;> (try simp))

@[simp] theorem State.restoreCommit_keeps (s : State) (ws : List Word) :
    (State.restoreCommit s ws).pending = s.pending ∧
    (State.restoreCommit s ws).free = s.free ∧
    (State.restoreCommit s ws).power = s.power ∧
    (State.restoreCommit s ws).time = s.time ∧
    (State.restoreCommit s ws).fuses = s.fuses ∧
    (State.restoreCommit s ws).straps = s.straps ∧
    (State.restoreCommit s ws).port = s.port ∧
    (State.restoreCommit s ws).cw = s.cw ∧
    (State.restoreCommit s ws).spill = s.spill ∧
    (State.restoreCommit s ws).red = s.red ∧
    (State.restoreCommit s ws).prod = s.prod ∧
    (State.restoreCommit s ws).way = s.way ∧
    (State.restoreCommit s ws).fe = s.fe ∧
    (State.restoreCommit s ws).roads = s.roads ∧
    (State.restoreCommit s ws).up = s.up ∧
    (State.restoreCommit s ws).hs = s.hs ∧
    (State.restoreCommit s ws).tw = s.tw ∧
    (State.restoreCommit s ws).attn = s.attn ∧
    (State.restoreCommit s ws).clients = s.clients ∧
    (State.restoreCommit s ws).locks = s.locks ∧
    (State.restoreCommit s ws).pin = s.pin ∧
    (State.restoreCommit s ws).age = s.age ∧
    (State.restoreCommit s ws).tap = s.tap := by
  unfold State.restoreCommit
  and_intros <;>
    ((try simp) <;> (try (repeat' split)) <;> (try simp))

@[simp] theorem State.onFe_keeps (s : State) (ch : Nat) (f : FeCh → FeCh) :
    (State.onFe s ch f).pending = s.pending ∧
    (State.onFe s ch f).free = s.free ∧
    (State.onFe s ch f).power = s.power ∧
    (State.onFe s ch f).time = s.time ∧
    (State.onFe s ch f).fuses = s.fuses ∧
    (State.onFe s ch f).straps = s.straps ∧
    (State.onFe s ch f).port = s.port ∧
    (State.onFe s ch f).cw = s.cw ∧
    (State.onFe s ch f).spill = s.spill ∧
    (State.onFe s ch f).red = s.red ∧
    (State.onFe s ch f).mot = s.mot ∧
    (State.onFe s ch f).prod = s.prod ∧
    (State.onFe s ch f).way = s.way ∧
    (State.onFe s ch f).roads = s.roads ∧
    (State.onFe s ch f).up = s.up ∧
    (State.onFe s ch f).hs = s.hs ∧
    (State.onFe s ch f).tw = s.tw ∧
    (State.onFe s ch f).attn = s.attn ∧
    (State.onFe s ch f).clients = s.clients ∧
    (State.onFe s ch f).locks = s.locks ∧
    (State.onFe s ch f).pin = s.pin ∧
    (State.onFe s ch f).age = s.age ∧
    (State.onFe s ch f).tap = s.tap := by
  unfold State.onFe
  and_intros <;>
    ((try simp) <;> (try (repeat' split)) <;> (try simp))

@[simp] theorem State.refuseTrig_keeps (s : State) :
    (State.refuseTrig s).pending = s.pending ∧
    (State.refuseTrig s).free = s.free ∧
    (State.refuseTrig s).power = s.power ∧
    (State.refuseTrig s).time = s.time ∧
    (State.refuseTrig s).fuses = s.fuses ∧
    (State.refuseTrig s).straps = s.straps ∧
    (State.refuseTrig s).port = s.port ∧
    (State.refuseTrig s).cw = s.cw ∧
    (State.refuseTrig s).spill = s.spill ∧
    (State.refuseTrig s).red = s.red ∧
    (State.refuseTrig s).mot = s.mot ∧
    (State.refuseTrig s).prod = s.prod ∧
    (State.refuseTrig s).way = s.way ∧
    (State.refuseTrig s).roads = s.roads ∧
    (State.refuseTrig s).up = s.up ∧
    (State.refuseTrig s).hs = s.hs ∧
    (State.refuseTrig s).tw = s.tw ∧
    (State.refuseTrig s).attn = s.attn ∧
    (State.refuseTrig s).clients = s.clients ∧
    (State.refuseTrig s).locks = s.locks ∧
    (State.refuseTrig s).pin = s.pin ∧
    (State.refuseTrig s).age = s.age ∧
    (State.refuseTrig s).tap = s.tap := by
  unfold State.refuseTrig
  and_intros <;>
    ((try simp) <;> (try (repeat' split)) <;> (try simp))

@[simp] theorem State.trigger_keeps (s : State) (ch src engine : Nat) :
    (State.trigger s ch src engine).pending = s.pending ∧
    (State.trigger s ch src engine).free = s.free ∧
    (State.trigger s ch src engine).power = s.power ∧
    (State.trigger s ch src engine).time = s.time ∧
    (State.trigger s ch src engine).fuses = s.fuses ∧
    (State.trigger s ch src engine).straps = s.straps ∧
    (State.trigger s ch src engine).port = s.port ∧
    (State.trigger s ch src engine).cw = s.cw ∧
    (State.trigger s ch src engine).spill = s.spill ∧
    (State.trigger s ch src engine).red = s.red ∧
    (State.trigger s ch src engine).mot = s.mot ∧
    (State.trigger s ch src engine).prod = s.prod ∧
    (State.trigger s ch src engine).way = s.way ∧
    (State.trigger s ch src engine).roads = s.roads ∧
    (State.trigger s ch src engine).up = s.up ∧
    (State.trigger s ch src engine).hs = s.hs ∧
    (State.trigger s ch src engine).tw = s.tw ∧
    (State.trigger s ch src engine).attn = s.attn ∧
    (State.trigger s ch src engine).clients = s.clients ∧
    (State.trigger s ch src engine).locks = s.locks ∧
    (State.trigger s ch src engine).pin = s.pin ∧
    (State.trigger s ch src engine).age = s.age ∧
    (State.trigger s ch src engine).tap = s.tap := by
  unfold State.trigger
  and_intros <;>
    ((try simp) <;> (try (repeat' split)) <;> (try simp))

@[simp] theorem doFeTrigEdge_keeps (dt : Nat) (s : State) :
    (doFeTrigEdge dt s).pending = s.pending ∧
    (doFeTrigEdge dt s).free = s.free ∧
    (doFeTrigEdge dt s).power = s.power ∧
    (doFeTrigEdge dt s).fuses = s.fuses ∧
    (doFeTrigEdge dt s).straps = s.straps ∧
    (doFeTrigEdge dt s).port = s.port ∧
    (doFeTrigEdge dt s).cw = s.cw ∧
    (doFeTrigEdge dt s).spill = s.spill ∧
    (doFeTrigEdge dt s).red = s.red ∧
    (doFeTrigEdge dt s).mot = s.mot ∧
    (doFeTrigEdge dt s).prod = s.prod ∧
    (doFeTrigEdge dt s).way = s.way ∧
    (doFeTrigEdge dt s).roads = s.roads ∧
    (doFeTrigEdge dt s).up = s.up ∧
    (doFeTrigEdge dt s).hs = s.hs ∧
    (doFeTrigEdge dt s).tw = s.tw ∧
    (doFeTrigEdge dt s).attn = s.attn ∧
    (doFeTrigEdge dt s).clients = s.clients ∧
    (doFeTrigEdge dt s).locks = s.locks ∧
    (doFeTrigEdge dt s).pin = s.pin ∧
    (doFeTrigEdge dt s).age = s.age ∧
    (doFeTrigEdge dt s).tap = s.tap ∧
    (doFeTrigEdge dt s).time.gRate = s.time.gRate ∧
    (doFeTrigEdge dt s).time.rates = s.time.rates ∧
    (doFeTrigEdge dt s).time.gIdx = s.time.gIdx := by
  unfold doFeTrigEdge
  and_intros <;>
    ((try simp) <;> (try (repeat' split)) <;> (try simp))

@[simp] theorem State.feWrite_keeps (s : State) (ch : Nat) (v : Conv) (w : Word) :
    (State.feWrite s ch v w).pending = s.pending ∧
    (State.feWrite s ch v w).free = s.free ∧
    (State.feWrite s ch v w).power = s.power ∧
    (State.feWrite s ch v w).time = s.time ∧
    (State.feWrite s ch v w).fuses = s.fuses ∧
    (State.feWrite s ch v w).straps = s.straps ∧
    (State.feWrite s ch v w).port = s.port ∧
    (State.feWrite s ch v w).spill = s.spill ∧
    (State.feWrite s ch v w).red = s.red ∧
    (State.feWrite s ch v w).mot = s.mot ∧
    (State.feWrite s ch v w).prod = s.prod ∧
    (State.feWrite s ch v w).roads = s.roads ∧
    (State.feWrite s ch v w).up = s.up ∧
    (State.feWrite s ch v w).hs = s.hs ∧
    (State.feWrite s ch v w).tw = s.tw ∧
    (State.feWrite s ch v w).attn = s.attn ∧
    (State.feWrite s ch v w).clients = s.clients ∧
    (State.feWrite s ch v w).locks = s.locks ∧
    (State.feWrite s ch v w).pin = s.pin ∧
    (State.feWrite s ch v w).age = s.age ∧
    (State.feWrite s ch v w).tap = s.tap := by
  unfold State.feWrite
  and_intros <;>
    ((try simp) <;> (try (repeat' split)) <;> (try simp))

@[simp] theorem State.closeTaken_keeps (s : State) (ch : Nat) (r : Recipe) :
    (State.closeTaken s ch r).pending = s.pending ∧
    (State.closeTaken s ch r).free = s.free ∧
    (State.closeTaken s ch r).power = s.power ∧
    (State.closeTaken s ch r).time = s.time ∧
    (State.closeTaken s ch r).fuses = s.fuses ∧
    (State.closeTaken s ch r).straps = s.straps ∧
    (State.closeTaken s ch r).port = s.port ∧
    (State.closeTaken s ch r).spill = s.spill ∧
    (State.closeTaken s ch r).red = s.red ∧
    (State.closeTaken s ch r).mot = s.mot ∧
    (State.closeTaken s ch r).prod = s.prod ∧
    (State.closeTaken s ch r).fe = s.fe ∧
    (State.closeTaken s ch r).roads = s.roads ∧
    (State.closeTaken s ch r).up = s.up ∧
    (State.closeTaken s ch r).hs = s.hs ∧
    (State.closeTaken s ch r).tw = s.tw ∧
    (State.closeTaken s ch r).attn = s.attn ∧
    (State.closeTaken s ch r).clients = s.clients ∧
    (State.closeTaken s ch r).locks = s.locks ∧
    (State.closeTaken s ch r).pin = s.pin ∧
    (State.closeTaken s ch r).age = s.age ∧
    (State.closeTaken s ch r).tap = s.tap := by
  unfold State.closeTaken
  and_intros <;>
    ((try simp) <;> (try (repeat' split)) <;> (try simp))

@[simp] theorem State.feFinish_keeps (s : State) (w : FeWait) :
    (State.feFinish s w).pending = s.pending ∧
    (State.feFinish s w).free = s.free ∧
    (State.feFinish s w).power = s.power ∧
    (State.feFinish s w).time = s.time ∧
    (State.feFinish s w).fuses = s.fuses ∧
    (State.feFinish s w).straps = s.straps ∧
    (State.feFinish s w).port = s.port ∧
    (State.feFinish s w).spill = s.spill ∧
    (State.feFinish s w).red = s.red ∧
    (State.feFinish s w).mot = s.mot ∧
    (State.feFinish s w).prod = s.prod ∧
    (State.feFinish s w).roads = s.roads ∧
    (State.feFinish s w).up = s.up ∧
    (State.feFinish s w).hs = s.hs ∧
    (State.feFinish s w).tw = s.tw ∧
    (State.feFinish s w).attn = s.attn ∧
    (State.feFinish s w).clients = s.clients ∧
    (State.feFinish s w).locks = s.locks ∧
    (State.feFinish s w).pin = s.pin ∧
    (State.feFinish s w).age = s.age ∧
    (State.feFinish s w).tap = s.tap := by
  unfold State.feFinish
  and_intros <;>
    ((try simp) <;> (try (repeat' split)) <;> (try simp))

@[simp] theorem drainFe_pending (n : Nat) (s : State) : (State.drainFe n s).pending = s.pending := by
  induction n generalizing s with
  | zero => rfl
  | succ n ih => unfold State.drainFe; split <;> simp [ih]


@[simp] theorem State_settleFe_pending (s : State) : s.settleFe.pending = s.pending := by
  unfold State.settleFe; simp

@[simp] theorem drainFe_free (n : Nat) (s : State) : (State.drainFe n s).free = s.free := by
  induction n generalizing s with
  | zero => rfl
  | succ n ih => unfold State.drainFe; split <;> simp [ih]


@[simp] theorem State_settleFe_free (s : State) : s.settleFe.free = s.free := by
  unfold State.settleFe; simp

@[simp] theorem drainFe_power (n : Nat) (s : State) : (State.drainFe n s).power = s.power := by
  induction n generalizing s with
  | zero => rfl
  | succ n ih => unfold State.drainFe; split <;> simp [ih]


@[simp] theorem State_settleFe_power (s : State) : s.settleFe.power = s.power := by
  unfold State.settleFe; simp

@[simp] theorem drainFe_time (n : Nat) (s : State) : (State.drainFe n s).time = s.time := by
  induction n generalizing s with
  | zero => rfl
  | succ n ih => unfold State.drainFe; split <;> simp [ih]


@[simp] theorem State_settleFe_time (s : State) : s.settleFe.time = s.time := by
  unfold State.settleFe; simp

@[simp] theorem drainFe_fuses (n : Nat) (s : State) : (State.drainFe n s).fuses = s.fuses := by
  induction n generalizing s with
  | zero => rfl
  | succ n ih => unfold State.drainFe; split <;> simp [ih]


@[simp] theorem State_settleFe_fuses (s : State) : s.settleFe.fuses = s.fuses := by
  unfold State.settleFe; simp

@[simp] theorem drainFe_straps (n : Nat) (s : State) : (State.drainFe n s).straps = s.straps := by
  induction n generalizing s with
  | zero => rfl
  | succ n ih => unfold State.drainFe; split <;> simp [ih]


@[simp] theorem State_settleFe_straps (s : State) : s.settleFe.straps = s.straps := by
  unfold State.settleFe; simp

@[simp] theorem drainFe_port (n : Nat) (s : State) : (State.drainFe n s).port = s.port := by
  induction n generalizing s with
  | zero => rfl
  | succ n ih => unfold State.drainFe; split <;> simp [ih]


@[simp] theorem State_settleFe_port (s : State) : s.settleFe.port = s.port := by
  unfold State.settleFe; simp

@[simp] theorem drainFe_spill (n : Nat) (s : State) : (State.drainFe n s).spill = s.spill := by
  induction n generalizing s with
  | zero => rfl
  | succ n ih => unfold State.drainFe; split <;> simp [ih]


@[simp] theorem State_settleFe_spill (s : State) : s.settleFe.spill = s.spill := by
  unfold State.settleFe; simp

@[simp] theorem drainFe_red (n : Nat) (s : State) : (State.drainFe n s).red = s.red := by
  induction n generalizing s with
  | zero => rfl
  | succ n ih => unfold State.drainFe; split <;> simp [ih]


@[simp] theorem State_settleFe_red (s : State) : s.settleFe.red = s.red := by
  unfold State.settleFe; simp

@[simp] theorem drainFe_mot (n : Nat) (s : State) : (State.drainFe n s).mot = s.mot := by
  induction n generalizing s with
  | zero => rfl
  | succ n ih => unfold State.drainFe; split <;> simp [ih]


@[simp] theorem State_settleFe_mot (s : State) : s.settleFe.mot = s.mot := by
  unfold State.settleFe; simp

@[simp] theorem drainFe_prod (n : Nat) (s : State) : (State.drainFe n s).prod = s.prod := by
  induction n generalizing s with
  | zero => rfl
  | succ n ih => unfold State.drainFe; split <;> simp [ih]


@[simp] theorem State_settleFe_prod (s : State) : s.settleFe.prod = s.prod := by
  unfold State.settleFe; simp

@[simp] theorem drainFe_roads (n : Nat) (s : State) : (State.drainFe n s).roads = s.roads := by
  induction n generalizing s with
  | zero => rfl
  | succ n ih => unfold State.drainFe; split <;> simp [ih]


@[simp] theorem State_settleFe_roads (s : State) : s.settleFe.roads = s.roads := by
  unfold State.settleFe; simp

@[simp] theorem drainFe_up (n : Nat) (s : State) : (State.drainFe n s).up = s.up := by
  induction n generalizing s with
  | zero => rfl
  | succ n ih => unfold State.drainFe; split <;> simp [ih]


@[simp] theorem State_settleFe_up (s : State) : s.settleFe.up = s.up := by
  unfold State.settleFe; simp

@[simp] theorem drainFe_hs (n : Nat) (s : State) : (State.drainFe n s).hs = s.hs := by
  induction n generalizing s with
  | zero => rfl
  | succ n ih => unfold State.drainFe; split <;> simp [ih]


@[simp] theorem State_settleFe_hs (s : State) : s.settleFe.hs = s.hs := by
  unfold State.settleFe; simp

@[simp] theorem drainFe_tw (n : Nat) (s : State) : (State.drainFe n s).tw = s.tw := by
  induction n generalizing s with
  | zero => rfl
  | succ n ih => unfold State.drainFe; split <;> simp [ih]


@[simp] theorem State_settleFe_tw (s : State) : s.settleFe.tw = s.tw := by
  unfold State.settleFe; simp

@[simp] theorem drainFe_attn (n : Nat) (s : State) : (State.drainFe n s).attn = s.attn := by
  induction n generalizing s with
  | zero => rfl
  | succ n ih => unfold State.drainFe; split <;> simp [ih]


@[simp] theorem State_settleFe_attn (s : State) : s.settleFe.attn = s.attn := by
  unfold State.settleFe; simp

@[simp] theorem drainFe_clients (n : Nat) (s : State) : (State.drainFe n s).clients = s.clients := by
  induction n generalizing s with
  | zero => rfl
  | succ n ih => unfold State.drainFe; split <;> simp [ih]


@[simp] theorem State_settleFe_clients (s : State) : s.settleFe.clients = s.clients := by
  unfold State.settleFe; simp

@[simp] theorem drainFe_locks (n : Nat) (s : State) : (State.drainFe n s).locks = s.locks := by
  induction n generalizing s with
  | zero => rfl
  | succ n ih => unfold State.drainFe; split <;> simp [ih]


@[simp] theorem State_settleFe_locks (s : State) : s.settleFe.locks = s.locks := by
  unfold State.settleFe; simp

@[simp] theorem drainFe_pin (n : Nat) (s : State) : (State.drainFe n s).pin = s.pin := by
  induction n generalizing s with
  | zero => rfl
  | succ n ih => unfold State.drainFe; split <;> simp [ih]


@[simp] theorem State_settleFe_pin (s : State) : s.settleFe.pin = s.pin := by
  unfold State.settleFe; simp

@[simp] theorem drainFe_age (n : Nat) (s : State) : (State.drainFe n s).age = s.age := by
  induction n generalizing s with
  | zero => rfl
  | succ n ih => unfold State.drainFe; split <;> simp [ih]


@[simp] theorem State_settleFe_age (s : State) : s.settleFe.age = s.age := by
  unfold State.settleFe; simp

@[simp] theorem drainFe_tap (n : Nat) (s : State) : (State.drainFe n s).tap = s.tap := by
  induction n generalizing s with
  | zero => rfl
  | succ n ih => unfold State.drainFe; split <;> simp [ih]


@[simp] theorem State_settleFe_tap (s : State) : s.settleFe.tap = s.tap := by
  unfold State.settleFe; simp

@[simp] theorem State.flushFe_keeps (s : State) :
    (State.flushFe s).pending = s.pending ∧
    (State.flushFe s).free = s.free ∧
    (State.flushFe s).power = s.power ∧
    (State.flushFe s).time = s.time ∧
    (State.flushFe s).fuses = s.fuses ∧
    (State.flushFe s).straps = s.straps ∧
    (State.flushFe s).port = s.port ∧
    (State.flushFe s).spill = s.spill ∧
    (State.flushFe s).red = s.red ∧
    (State.flushFe s).mot = s.mot ∧
    (State.flushFe s).prod = s.prod ∧
    (State.flushFe s).roads = s.roads ∧
    (State.flushFe s).up = s.up ∧
    (State.flushFe s).hs = s.hs ∧
    (State.flushFe s).tw = s.tw ∧
    (State.flushFe s).attn = s.attn ∧
    (State.flushFe s).clients = s.clients ∧
    (State.flushFe s).locks = s.locks ∧
    (State.flushFe s).pin = s.pin ∧
    (State.flushFe s).age = s.age ∧
    (State.flushFe s).tap = s.tap := by
  unfold State.flushFe
  and_intros <;>
    ((try simp) <;> (try (repeat' split)) <;> (try simp))

@[simp] theorem State.startGrid_keeps (s : State) (ch : Nat) (r : Recipe) (e : ScanEntry) :
    (State.startGrid s ch r e).pending = s.pending ∧
    (State.startGrid s ch r e).free = s.free ∧
    (State.startGrid s ch r e).power = s.power ∧
    (State.startGrid s ch r e).time = s.time ∧
    (State.startGrid s ch r e).fuses = s.fuses ∧
    (State.startGrid s ch r e).straps = s.straps ∧
    (State.startGrid s ch r e).port = s.port ∧
    (State.startGrid s ch r e).spill = s.spill ∧
    (State.startGrid s ch r e).red = s.red ∧
    (State.startGrid s ch r e).mot = s.mot ∧
    (State.startGrid s ch r e).prod = s.prod ∧
    (State.startGrid s ch r e).roads = s.roads ∧
    (State.startGrid s ch r e).up = s.up ∧
    (State.startGrid s ch r e).hs = s.hs ∧
    (State.startGrid s ch r e).tw = s.tw ∧
    (State.startGrid s ch r e).attn = s.attn ∧
    (State.startGrid s ch r e).clients = s.clients ∧
    (State.startGrid s ch r e).locks = s.locks ∧
    (State.startGrid s ch r e).pin = s.pin ∧
    (State.startGrid s ch r e).age = s.age ∧
    (State.startGrid s ch r e).tap = s.tap := by
  unfold State.startGrid
  and_intros <;>
    ((try simp) <;> (try (repeat' split)) <;> (try simp))

@[simp] theorem State.startInjected_keeps (s : State) (ch : Nat) (r : Recipe) (e : ScanEntry) :
    (State.startInjected s ch r e).pending = s.pending ∧
    (State.startInjected s ch r e).free = s.free ∧
    (State.startInjected s ch r e).power = s.power ∧
    (State.startInjected s ch r e).time = s.time ∧
    (State.startInjected s ch r e).fuses = s.fuses ∧
    (State.startInjected s ch r e).straps = s.straps ∧
    (State.startInjected s ch r e).port = s.port ∧
    (State.startInjected s ch r e).cw = s.cw ∧
    (State.startInjected s ch r e).spill = s.spill ∧
    (State.startInjected s ch r e).red = s.red ∧
    (State.startInjected s ch r e).mot = s.mot ∧
    (State.startInjected s ch r e).prod = s.prod ∧
    (State.startInjected s ch r e).way = s.way ∧
    (State.startInjected s ch r e).roads = s.roads ∧
    (State.startInjected s ch r e).up = s.up ∧
    (State.startInjected s ch r e).hs = s.hs ∧
    (State.startInjected s ch r e).tw = s.tw ∧
    (State.startInjected s ch r e).attn = s.attn ∧
    (State.startInjected s ch r e).clients = s.clients ∧
    (State.startInjected s ch r e).locks = s.locks ∧
    (State.startInjected s ch r e).pin = s.pin ∧
    (State.startInjected s ch r e).age = s.age ∧
    (State.startInjected s ch r e).tap = s.tap := by
  unfold State.startInjected
  and_intros <;>
    ((try simp) <;> (try (repeat' split)) <;> (try simp))

@[simp] theorem State.startCal_keeps (s : State) (ch : Nat) (gain : Bool) (r : Recipe) (e : ScanEntry) :
    (State.startCal s ch gain r e).pending = s.pending ∧
    (State.startCal s ch gain r e).free = s.free ∧
    (State.startCal s ch gain r e).power = s.power ∧
    (State.startCal s ch gain r e).time = s.time ∧
    (State.startCal s ch gain r e).fuses = s.fuses ∧
    (State.startCal s ch gain r e).straps = s.straps ∧
    (State.startCal s ch gain r e).port = s.port ∧
    (State.startCal s ch gain r e).cw = s.cw ∧
    (State.startCal s ch gain r e).spill = s.spill ∧
    (State.startCal s ch gain r e).red = s.red ∧
    (State.startCal s ch gain r e).mot = s.mot ∧
    (State.startCal s ch gain r e).prod = s.prod ∧
    (State.startCal s ch gain r e).way = s.way ∧
    (State.startCal s ch gain r e).roads = s.roads ∧
    (State.startCal s ch gain r e).up = s.up ∧
    (State.startCal s ch gain r e).hs = s.hs ∧
    (State.startCal s ch gain r e).tw = s.tw ∧
    (State.startCal s ch gain r e).attn = s.attn ∧
    (State.startCal s ch gain r e).clients = s.clients ∧
    (State.startCal s ch gain r e).locks = s.locks ∧
    (State.startCal s ch gain r e).pin = s.pin ∧
    (State.startCal s ch gain r e).age = s.age ∧
    (State.startCal s ch gain r e).tap = s.tap := by
  unfold State.startCal
  and_intros <;>
    ((try simp) <;> (try (repeat' split)) <;> (try simp))

@[simp] theorem State.startConv_keeps (s : State) (ch : Nat) (kind : ConvKind) (r : Recipe) (e : ScanEntry) :
    (State.startConv s ch kind r e).pending = s.pending ∧
    (State.startConv s ch kind r e).free = s.free ∧
    (State.startConv s ch kind r e).power = s.power ∧
    (State.startConv s ch kind r e).time = s.time ∧
    (State.startConv s ch kind r e).fuses = s.fuses ∧
    (State.startConv s ch kind r e).straps = s.straps ∧
    (State.startConv s ch kind r e).port = s.port ∧
    (State.startConv s ch kind r e).spill = s.spill ∧
    (State.startConv s ch kind r e).red = s.red ∧
    (State.startConv s ch kind r e).mot = s.mot ∧
    (State.startConv s ch kind r e).prod = s.prod ∧
    (State.startConv s ch kind r e).roads = s.roads ∧
    (State.startConv s ch kind r e).up = s.up ∧
    (State.startConv s ch kind r e).hs = s.hs ∧
    (State.startConv s ch kind r e).tw = s.tw ∧
    (State.startConv s ch kind r e).attn = s.attn ∧
    (State.startConv s ch kind r e).clients = s.clients ∧
    (State.startConv s ch kind r e).locks = s.locks ∧
    (State.startConv s ch kind r e).pin = s.pin ∧
    (State.startConv s ch kind r e).age = s.age ∧
    (State.startConv s ch kind r e).tap = s.tap := by
  unfold State.startConv
  and_intros <;>
    ((try simp) <;> (try (repeat' split)) <;> (try simp))

@[simp] theorem doFeConversionStart_keeps (dt ch : Nat) (kind : ConvKind) (s : State) :
    (doFeConversionStart dt ch kind s).pending = s.pending ∧
    (doFeConversionStart dt ch kind s).free = s.free ∧
    (doFeConversionStart dt ch kind s).power = s.power ∧
    (doFeConversionStart dt ch kind s).fuses = s.fuses ∧
    (doFeConversionStart dt ch kind s).straps = s.straps ∧
    (doFeConversionStart dt ch kind s).port = s.port ∧
    (doFeConversionStart dt ch kind s).spill = s.spill ∧
    (doFeConversionStart dt ch kind s).red = s.red ∧
    (doFeConversionStart dt ch kind s).mot = s.mot ∧
    (doFeConversionStart dt ch kind s).prod = s.prod ∧
    (doFeConversionStart dt ch kind s).roads = s.roads ∧
    (doFeConversionStart dt ch kind s).up = s.up ∧
    (doFeConversionStart dt ch kind s).hs = s.hs ∧
    (doFeConversionStart dt ch kind s).tw = s.tw ∧
    (doFeConversionStart dt ch kind s).attn = s.attn ∧
    (doFeConversionStart dt ch kind s).clients = s.clients ∧
    (doFeConversionStart dt ch kind s).locks = s.locks ∧
    (doFeConversionStart dt ch kind s).pin = s.pin ∧
    (doFeConversionStart dt ch kind s).age = s.age ∧
    (doFeConversionStart dt ch kind s).tap = s.tap ∧
    (doFeConversionStart dt ch kind s).time.gRate = s.time.gRate ∧
    (doFeConversionStart dt ch kind s).time.rates = s.time.rates ∧
    (doFeConversionStart dt ch kind s).time.gIdx = s.time.gIdx := by
  unfold doFeConversionStart
  and_intros <;>
    ((try simp) <;> (try (repeat' split)) <;> (try simp))

@[simp] theorem doFeCalStepDue_keeps (dt ch : Nat) (gain : Bool) (s : State) :
    (doFeCalStepDue dt ch gain s).pending = s.pending ∧
    (doFeCalStepDue dt ch gain s).free = s.free ∧
    (doFeCalStepDue dt ch gain s).power = s.power ∧
    (doFeCalStepDue dt ch gain s).fuses = s.fuses ∧
    (doFeCalStepDue dt ch gain s).straps = s.straps ∧
    (doFeCalStepDue dt ch gain s).port = s.port ∧
    (doFeCalStepDue dt ch gain s).cw = s.cw ∧
    (doFeCalStepDue dt ch gain s).spill = s.spill ∧
    (doFeCalStepDue dt ch gain s).red = s.red ∧
    (doFeCalStepDue dt ch gain s).mot = s.mot ∧
    (doFeCalStepDue dt ch gain s).prod = s.prod ∧
    (doFeCalStepDue dt ch gain s).way = s.way ∧
    (doFeCalStepDue dt ch gain s).roads = s.roads ∧
    (doFeCalStepDue dt ch gain s).up = s.up ∧
    (doFeCalStepDue dt ch gain s).hs = s.hs ∧
    (doFeCalStepDue dt ch gain s).tw = s.tw ∧
    (doFeCalStepDue dt ch gain s).attn = s.attn ∧
    (doFeCalStepDue dt ch gain s).clients = s.clients ∧
    (doFeCalStepDue dt ch gain s).locks = s.locks ∧
    (doFeCalStepDue dt ch gain s).pin = s.pin ∧
    (doFeCalStepDue dt ch gain s).age = s.age ∧
    (doFeCalStepDue dt ch gain s).tap = s.tap ∧
    (doFeCalStepDue dt ch gain s).time.gRate = s.time.gRate ∧
    (doFeCalStepDue dt ch gain s).time.rates = s.time.rates ∧
    (doFeCalStepDue dt ch gain s).time.gIdx = s.time.gIdx := by
  unfold doFeCalStepDue
  and_intros <;>
    ((try simp) <;> (try (repeat' split)) <;> (try simp))

@[simp] theorem State.feCal_keeps (s : State) (ch : Nat) (r : Recipe) (gain : Bool) (x : Option Int) :
    (State.feCal s ch r gain x).pending = s.pending ∧
    (State.feCal s ch r gain x).free = s.free ∧
    (State.feCal s ch r gain x).power = s.power ∧
    (State.feCal s ch r gain x).time = s.time ∧
    (State.feCal s ch r gain x).fuses = s.fuses ∧
    (State.feCal s ch r gain x).straps = s.straps ∧
    (State.feCal s ch r gain x).port = s.port ∧
    (State.feCal s ch r gain x).spill = s.spill ∧
    (State.feCal s ch r gain x).red = s.red ∧
    (State.feCal s ch r gain x).prod = s.prod ∧
    (State.feCal s ch r gain x).fe = s.fe ∧
    (State.feCal s ch r gain x).roads = s.roads ∧
    (State.feCal s ch r gain x).up = s.up ∧
    (State.feCal s ch r gain x).hs = s.hs ∧
    (State.feCal s ch r gain x).tw = s.tw ∧
    (State.feCal s ch r gain x).attn = s.attn ∧
    (State.feCal s ch r gain x).clients = s.clients ∧
    (State.feCal s ch r gain x).locks = s.locks ∧
    (State.feCal s ch r gain x).pin = s.pin ∧
    (State.feCal s ch r gain x).age = s.age ∧
    (State.feCal s ch r gain x).tap = s.tap := by
  unfold State.feCal
  and_intros <;>
    ((try simp) <;> (try (repeat' split)) <;> (try simp))

@[simp] theorem State.measureDrift_keeps (s : State) (ch : Nat) (r : Recipe) (srcs : List Int) :
    (State.measureDrift s ch r srcs).pending = s.pending ∧
    (State.measureDrift s ch r srcs).power = s.power ∧
    (State.measureDrift s ch r srcs).time = s.time ∧
    (State.measureDrift s ch r srcs).fuses = s.fuses ∧
    (State.measureDrift s ch r srcs).straps = s.straps ∧
    (State.measureDrift s ch r srcs).port = s.port ∧
    (State.measureDrift s ch r srcs).cw = s.cw ∧
    (State.measureDrift s ch r srcs).spill = s.spill ∧
    (State.measureDrift s ch r srcs).red = s.red ∧
    (State.measureDrift s ch r srcs).mot = s.mot ∧
    (State.measureDrift s ch r srcs).prod = s.prod ∧
    (State.measureDrift s ch r srcs).way = s.way ∧
    (State.measureDrift s ch r srcs).roads = s.roads ∧
    (State.measureDrift s ch r srcs).up = s.up ∧
    (State.measureDrift s ch r srcs).hs = s.hs ∧
    (State.measureDrift s ch r srcs).tw = s.tw ∧
    (State.measureDrift s ch r srcs).attn = s.attn ∧
    (State.measureDrift s ch r srcs).clients = s.clients ∧
    (State.measureDrift s ch r srcs).locks = s.locks ∧
    (State.measureDrift s ch r srcs).pin = s.pin ∧
    (State.measureDrift s ch r srcs).tap = s.tap := by
  unfold State.measureDrift
  and_intros <;>
    ((try simp) <;> (try (repeat' split)) <;> (try simp))

@[simp] theorem State.gainStep_keeps (s : State) (ch : Nat) (v : Conv) (m : Meas) :
    (State.gainStep s ch v m).pending = s.pending ∧
    (State.gainStep s ch v m).power = s.power ∧
    (State.gainStep s ch v m).time = s.time ∧
    (State.gainStep s ch v m).fuses = s.fuses ∧
    (State.gainStep s ch v m).straps = s.straps ∧
    (State.gainStep s ch v m).port = s.port ∧
    (State.gainStep s ch v m).spill = s.spill ∧
    (State.gainStep s ch v m).red = s.red ∧
    (State.gainStep s ch v m).prod = s.prod ∧
    (State.gainStep s ch v m).roads = s.roads ∧
    (State.gainStep s ch v m).up = s.up ∧
    (State.gainStep s ch v m).hs = s.hs ∧
    (State.gainStep s ch v m).tw = s.tw ∧
    (State.gainStep s ch v m).attn = s.attn ∧
    (State.gainStep s ch v m).clients = s.clients ∧
    (State.gainStep s ch v m).locks = s.locks ∧
    (State.gainStep s ch v m).pin = s.pin ∧
    (State.gainStep s ch v m).tap = s.tap := by
  unfold State.gainStep
  and_intros <;>
    ((try simp) <;> (try (repeat' split)) <;> (try simp))

@[simp] theorem State.offsetStep_keeps (s : State) (ch : Nat) (v : Conv) (m : Meas) :
    (State.offsetStep s ch v m).pending = s.pending ∧
    (State.offsetStep s ch v m).free = s.free ∧
    (State.offsetStep s ch v m).power = s.power ∧
    (State.offsetStep s ch v m).time = s.time ∧
    (State.offsetStep s ch v m).fuses = s.fuses ∧
    (State.offsetStep s ch v m).straps = s.straps ∧
    (State.offsetStep s ch v m).port = s.port ∧
    (State.offsetStep s ch v m).spill = s.spill ∧
    (State.offsetStep s ch v m).red = s.red ∧
    (State.offsetStep s ch v m).prod = s.prod ∧
    (State.offsetStep s ch v m).roads = s.roads ∧
    (State.offsetStep s ch v m).up = s.up ∧
    (State.offsetStep s ch v m).hs = s.hs ∧
    (State.offsetStep s ch v m).tw = s.tw ∧
    (State.offsetStep s ch v m).attn = s.attn ∧
    (State.offsetStep s ch v m).clients = s.clients ∧
    (State.offsetStep s ch v m).locks = s.locks ∧
    (State.offsetStep s ch v m).pin = s.pin ∧
    (State.offsetStep s ch v m).age = s.age ∧
    (State.offsetStep s ch v m).tap = s.tap := by
  unfold State.offsetStep
  and_intros <;>
    ((try simp) <;> (try (repeat' split)) <;> (try simp))

@[simp] theorem State.bracket_keeps (s : State) (ch : Nat) (r : Recipe) (x : Option Int) :
    (State.bracket s ch r x).pending = s.pending ∧
    (State.bracket s ch r x).free = s.free ∧
    (State.bracket s ch r x).power = s.power ∧
    (State.bracket s ch r x).time = s.time ∧
    (State.bracket s ch r x).fuses = s.fuses ∧
    (State.bracket s ch r x).straps = s.straps ∧
    (State.bracket s ch r x).port = s.port ∧
    (State.bracket s ch r x).spill = s.spill ∧
    (State.bracket s ch r x).red = s.red ∧
    (State.bracket s ch r x).prod = s.prod ∧
    (State.bracket s ch r x).roads = s.roads ∧
    (State.bracket s ch r x).up = s.up ∧
    (State.bracket s ch r x).hs = s.hs ∧
    (State.bracket s ch r x).tw = s.tw ∧
    (State.bracket s ch r x).attn = s.attn ∧
    (State.bracket s ch r x).clients = s.clients ∧
    (State.bracket s ch r x).locks = s.locks ∧
    (State.bracket s ch r x).pin = s.pin ∧
    (State.bracket s ch r x).age = s.age ∧
    (State.bracket s ch r x).tap = s.tap := by
  unfold State.bracket
  and_intros <;>
    ((try simp) <;> (try (repeat' split)) <;> (try simp))

@[simp] theorem State.leavePath_keeps (s : State) (ch : Nat) (v : Conv) (m : Meas) :
    (State.leavePath s ch v m).pending = s.pending ∧
    (State.leavePath s ch v m).free = s.free ∧
    (State.leavePath s ch v m).power = s.power ∧
    (State.leavePath s ch v m).time = s.time ∧
    (State.leavePath s ch v m).fuses = s.fuses ∧
    (State.leavePath s ch v m).straps = s.straps ∧
    (State.leavePath s ch v m).port = s.port ∧
    (State.leavePath s ch v m).cw = s.cw ∧
    (State.leavePath s ch v m).spill = s.spill ∧
    (State.leavePath s ch v m).red = s.red ∧
    (State.leavePath s ch v m).mot = s.mot ∧
    (State.leavePath s ch v m).prod = s.prod ∧
    (State.leavePath s ch v m).way = s.way ∧
    (State.leavePath s ch v m).roads = s.roads ∧
    (State.leavePath s ch v m).up = s.up ∧
    (State.leavePath s ch v m).hs = s.hs ∧
    (State.leavePath s ch v m).tw = s.tw ∧
    (State.leavePath s ch v m).attn = s.attn ∧
    (State.leavePath s ch v m).clients = s.clients ∧
    (State.leavePath s ch v m).locks = s.locks ∧
    (State.leavePath s ch v m).pin = s.pin ∧
    (State.leavePath s ch v m).age = s.age ∧
    (State.leavePath s ch v m).tap = s.tap := by
  unfold State.leavePath
  and_intros <;>
    ((try simp) <;> (try (repeat' split)) <;> (try simp))

@[simp] theorem State.endOutput_keeps (s : State) (ch : Nat) (v : Conv) (m : Meas) :
    (State.endOutput s ch v m).pending = s.pending ∧
    (State.endOutput s ch v m).free = s.free ∧
    (State.endOutput s ch v m).power = s.power ∧
    (State.endOutput s ch v m).time = s.time ∧
    (State.endOutput s ch v m).fuses = s.fuses ∧
    (State.endOutput s ch v m).straps = s.straps ∧
    (State.endOutput s ch v m).port = s.port ∧
    (State.endOutput s ch v m).spill = s.spill ∧
    (State.endOutput s ch v m).red = s.red ∧
    (State.endOutput s ch v m).prod = s.prod ∧
    (State.endOutput s ch v m).roads = s.roads ∧
    (State.endOutput s ch v m).up = s.up ∧
    (State.endOutput s ch v m).hs = s.hs ∧
    (State.endOutput s ch v m).tw = s.tw ∧
    (State.endOutput s ch v m).attn = s.attn ∧
    (State.endOutput s ch v m).clients = s.clients ∧
    (State.endOutput s ch v m).locks = s.locks ∧
    (State.endOutput s ch v m).pin = s.pin ∧
    (State.endOutput s ch v m).age = s.age ∧
    (State.endOutput s ch v m).tap = s.tap := by
  unfold State.endOutput
  and_intros <;>
    ((try simp) <;> (try (repeat' split)) <;> (try simp))

@[simp] theorem State.endCal_keeps (s : State) (ch : Nat) (v : Conv) (m : Meas) (gain : Bool) :
    (State.endCal s ch v m gain).pending = s.pending ∧
    (State.endCal s ch v m gain).power = s.power ∧
    (State.endCal s ch v m gain).time = s.time ∧
    (State.endCal s ch v m gain).fuses = s.fuses ∧
    (State.endCal s ch v m gain).straps = s.straps ∧
    (State.endCal s ch v m gain).port = s.port ∧
    (State.endCal s ch v m gain).spill = s.spill ∧
    (State.endCal s ch v m gain).red = s.red ∧
    (State.endCal s ch v m gain).prod = s.prod ∧
    (State.endCal s ch v m gain).roads = s.roads ∧
    (State.endCal s ch v m gain).up = s.up ∧
    (State.endCal s ch v m gain).hs = s.hs ∧
    (State.endCal s ch v m gain).tw = s.tw ∧
    (State.endCal s ch v m gain).attn = s.attn ∧
    (State.endCal s ch v m gain).clients = s.clients ∧
    (State.endCal s ch v m gain).locks = s.locks ∧
    (State.endCal s ch v m gain).pin = s.pin ∧
    (State.endCal s ch v m gain).tap = s.tap := by
  unfold State.endCal
  and_intros <;>
    ((try simp) <;> (try (repeat' split)) <;> (try simp))

@[simp] theorem State.endConv_keeps (s : State) (ch : Nat) (v : Conv) (m : Meas) :
    (State.endConv s ch v m).pending = s.pending ∧
    (State.endConv s ch v m).power = s.power ∧
    (State.endConv s ch v m).time = s.time ∧
    (State.endConv s ch v m).fuses = s.fuses ∧
    (State.endConv s ch v m).straps = s.straps ∧
    (State.endConv s ch v m).port = s.port ∧
    (State.endConv s ch v m).spill = s.spill ∧
    (State.endConv s ch v m).red = s.red ∧
    (State.endConv s ch v m).prod = s.prod ∧
    (State.endConv s ch v m).roads = s.roads ∧
    (State.endConv s ch v m).up = s.up ∧
    (State.endConv s ch v m).hs = s.hs ∧
    (State.endConv s ch v m).tw = s.tw ∧
    (State.endConv s ch v m).attn = s.attn ∧
    (State.endConv s ch v m).clients = s.clients ∧
    (State.endConv s ch v m).locks = s.locks ∧
    (State.endConv s ch v m).pin = s.pin ∧
    (State.endConv s ch v m).tap = s.tap := by
  unfold State.endConv
  and_intros <;>
    ((try simp) <;> (try (repeat' split)) <;> (try simp))

@[simp] theorem doFeConversionEnd_keeps (dt ch : Nat) (x : ConvResult) (s : State) :
    (doFeConversionEnd dt ch x s).pending = s.pending ∧
    (doFeConversionEnd dt ch x s).power = s.power ∧
    (doFeConversionEnd dt ch x s).fuses = s.fuses ∧
    (doFeConversionEnd dt ch x s).straps = s.straps ∧
    (doFeConversionEnd dt ch x s).port = s.port ∧
    (doFeConversionEnd dt ch x s).spill = s.spill ∧
    (doFeConversionEnd dt ch x s).red = s.red ∧
    (doFeConversionEnd dt ch x s).prod = s.prod ∧
    (doFeConversionEnd dt ch x s).roads = s.roads ∧
    (doFeConversionEnd dt ch x s).up = s.up ∧
    (doFeConversionEnd dt ch x s).hs = s.hs ∧
    (doFeConversionEnd dt ch x s).tw = s.tw ∧
    (doFeConversionEnd dt ch x s).attn = s.attn ∧
    (doFeConversionEnd dt ch x s).clients = s.clients ∧
    (doFeConversionEnd dt ch x s).locks = s.locks ∧
    (doFeConversionEnd dt ch x s).pin = s.pin ∧
    (doFeConversionEnd dt ch x s).tap = s.tap ∧
    (doFeConversionEnd dt ch x s).time.gRate = s.time.gRate ∧
    (doFeConversionEnd dt ch x s).time.rates = s.time.rates ∧
    (doFeConversionEnd dt ch x s).time.gIdx = s.time.gIdx := by
  unfold doFeConversionEnd
  and_intros <;>
    ((try simp) <;> (try (repeat' split)) <;> (try simp))

@[simp] theorem doComplianceTrip_keeps (dt ch : Nat) (s : State) :
    (doComplianceTrip dt ch s).pending = s.pending ∧
    (doComplianceTrip dt ch s).free = s.free ∧
    (doComplianceTrip dt ch s).power = s.power ∧
    (doComplianceTrip dt ch s).fuses = s.fuses ∧
    (doComplianceTrip dt ch s).straps = s.straps ∧
    (doComplianceTrip dt ch s).port = s.port ∧
    (doComplianceTrip dt ch s).cw = s.cw ∧
    (doComplianceTrip dt ch s).spill = s.spill ∧
    (doComplianceTrip dt ch s).red = s.red ∧
    (doComplianceTrip dt ch s).mot = s.mot ∧
    (doComplianceTrip dt ch s).prod = s.prod ∧
    (doComplianceTrip dt ch s).way = s.way ∧
    (doComplianceTrip dt ch s).roads = s.roads ∧
    (doComplianceTrip dt ch s).up = s.up ∧
    (doComplianceTrip dt ch s).hs = s.hs ∧
    (doComplianceTrip dt ch s).tw = s.tw ∧
    (doComplianceTrip dt ch s).attn = s.attn ∧
    (doComplianceTrip dt ch s).clients = s.clients ∧
    (doComplianceTrip dt ch s).locks = s.locks ∧
    (doComplianceTrip dt ch s).pin = s.pin ∧
    (doComplianceTrip dt ch s).age = s.age ∧
    (doComplianceTrip dt ch s).tap = s.tap ∧
    (doComplianceTrip dt ch s).time.gRate = s.time.gRate ∧
    (doComplianceTrip dt ch s).time.rates = s.time.rates ∧
    (doComplianceTrip dt ch s).time.gIdx = s.time.gIdx := by
  unfold doComplianceTrip
  and_intros <;>
    ((try simp) <;> (try (repeat' split)) <;> (try simp))

@[simp] theorem doClampEvent_keeps (pin na : Nat) (s : State) :
    (doClampEvent pin na s).pending = s.pending ∧
    (doClampEvent pin na s).free = s.free ∧
    (doClampEvent pin na s).power = s.power ∧
    (doClampEvent pin na s).time = s.time ∧
    (doClampEvent pin na s).fuses = s.fuses ∧
    (doClampEvent pin na s).straps = s.straps ∧
    (doClampEvent pin na s).port = s.port ∧
    (doClampEvent pin na s).cw = s.cw ∧
    (doClampEvent pin na s).spill = s.spill ∧
    (doClampEvent pin na s).red = s.red ∧
    (doClampEvent pin na s).mot = s.mot ∧
    (doClampEvent pin na s).prod = s.prod ∧
    (doClampEvent pin na s).way = s.way ∧
    (doClampEvent pin na s).roads = s.roads ∧
    (doClampEvent pin na s).up = s.up ∧
    (doClampEvent pin na s).hs = s.hs ∧
    (doClampEvent pin na s).tw = s.tw ∧
    (doClampEvent pin na s).attn = s.attn ∧
    (doClampEvent pin na s).clients = s.clients ∧
    (doClampEvent pin na s).locks = s.locks ∧
    (doClampEvent pin na s).pin = s.pin ∧
    (doClampEvent pin na s).age = s.age ∧
    (doClampEvent pin na s).tap = s.tap := by
  unfold doClampEvent
  and_intros <;>
    ((try simp) <;> (try (repeat' split)) <;> (try simp))

@[simp] theorem doFeBlankAssert_keeps (dt : Nat) (s : State) :
    (doFeBlankAssert dt s).pending = s.pending ∧
    (doFeBlankAssert dt s).free = s.free ∧
    (doFeBlankAssert dt s).power = s.power ∧
    (doFeBlankAssert dt s).fuses = s.fuses ∧
    (doFeBlankAssert dt s).straps = s.straps ∧
    (doFeBlankAssert dt s).port = s.port ∧
    (doFeBlankAssert dt s).cw = s.cw ∧
    (doFeBlankAssert dt s).spill = s.spill ∧
    (doFeBlankAssert dt s).red = s.red ∧
    (doFeBlankAssert dt s).mot = s.mot ∧
    (doFeBlankAssert dt s).prod = s.prod ∧
    (doFeBlankAssert dt s).way = s.way ∧
    (doFeBlankAssert dt s).roads = s.roads ∧
    (doFeBlankAssert dt s).up = s.up ∧
    (doFeBlankAssert dt s).hs = s.hs ∧
    (doFeBlankAssert dt s).tw = s.tw ∧
    (doFeBlankAssert dt s).attn = s.attn ∧
    (doFeBlankAssert dt s).clients = s.clients ∧
    (doFeBlankAssert dt s).locks = s.locks ∧
    (doFeBlankAssert dt s).pin = s.pin ∧
    (doFeBlankAssert dt s).age = s.age ∧
    (doFeBlankAssert dt s).tap = s.tap ∧
    (doFeBlankAssert dt s).time.gRate = s.time.gRate ∧
    (doFeBlankAssert dt s).time.rates = s.time.rates ∧
    (doFeBlankAssert dt s).time.gIdx = s.time.gIdx := by
  unfold doFeBlankAssert
  and_intros <;>
    ((try simp) <;> (try (repeat' split)) <;> (try simp))

@[simp] theorem doFeBlankRelease_keeps (dt : Nat) (s : State) :
    (doFeBlankRelease dt s).pending = s.pending ∧
    (doFeBlankRelease dt s).free = s.free ∧
    (doFeBlankRelease dt s).power = s.power ∧
    (doFeBlankRelease dt s).fuses = s.fuses ∧
    (doFeBlankRelease dt s).straps = s.straps ∧
    (doFeBlankRelease dt s).port = s.port ∧
    (doFeBlankRelease dt s).cw = s.cw ∧
    (doFeBlankRelease dt s).spill = s.spill ∧
    (doFeBlankRelease dt s).red = s.red ∧
    (doFeBlankRelease dt s).mot = s.mot ∧
    (doFeBlankRelease dt s).prod = s.prod ∧
    (doFeBlankRelease dt s).way = s.way ∧
    (doFeBlankRelease dt s).roads = s.roads ∧
    (doFeBlankRelease dt s).up = s.up ∧
    (doFeBlankRelease dt s).hs = s.hs ∧
    (doFeBlankRelease dt s).tw = s.tw ∧
    (doFeBlankRelease dt s).attn = s.attn ∧
    (doFeBlankRelease dt s).clients = s.clients ∧
    (doFeBlankRelease dt s).locks = s.locks ∧
    (doFeBlankRelease dt s).pin = s.pin ∧
    (doFeBlankRelease dt s).age = s.age ∧
    (doFeBlankRelease dt s).tap = s.tap ∧
    (doFeBlankRelease dt s).time.gRate = s.time.gRate ∧
    (doFeBlankRelease dt s).time.rates = s.time.rates ∧
    (doFeBlankRelease dt s).time.gIdx = s.time.gIdx := by
  unfold doFeBlankRelease
  and_intros <;>
    ((try simp) <;> (try (repeat' split)) <;> (try simp))

@[simp] theorem doBlankGuardEnd_keeps (dt : Nat) (s : State) :
    (doBlankGuardEnd dt s).pending = s.pending ∧
    (doBlankGuardEnd dt s).free = s.free ∧
    (doBlankGuardEnd dt s).power = s.power ∧
    (doBlankGuardEnd dt s).fuses = s.fuses ∧
    (doBlankGuardEnd dt s).straps = s.straps ∧
    (doBlankGuardEnd dt s).port = s.port ∧
    (doBlankGuardEnd dt s).cw = s.cw ∧
    (doBlankGuardEnd dt s).spill = s.spill ∧
    (doBlankGuardEnd dt s).red = s.red ∧
    (doBlankGuardEnd dt s).mot = s.mot ∧
    (doBlankGuardEnd dt s).prod = s.prod ∧
    (doBlankGuardEnd dt s).way = s.way ∧
    (doBlankGuardEnd dt s).roads = s.roads ∧
    (doBlankGuardEnd dt s).up = s.up ∧
    (doBlankGuardEnd dt s).hs = s.hs ∧
    (doBlankGuardEnd dt s).tw = s.tw ∧
    (doBlankGuardEnd dt s).attn = s.attn ∧
    (doBlankGuardEnd dt s).clients = s.clients ∧
    (doBlankGuardEnd dt s).locks = s.locks ∧
    (doBlankGuardEnd dt s).pin = s.pin ∧
    (doBlankGuardEnd dt s).age = s.age ∧
    (doBlankGuardEnd dt s).tap = s.tap ∧
    (doBlankGuardEnd dt s).time.gRate = s.time.gRate ∧
    (doBlankGuardEnd dt s).time.rates = s.time.rates ∧
    (doBlankGuardEnd dt s).time.gIdx = s.time.gIdx := by
  unfold doBlankGuardEnd
  and_intros <;>
    ((try simp) <;> (try (repeat' split)) <;> (try simp))

@[simp] theorem State.onRoad_keeps (s : State) (r : Nat) (f : Road → Road) :
    (State.onRoad s r f).pending = s.pending ∧
    (State.onRoad s r f).free = s.free ∧
    (State.onRoad s r f).power = s.power ∧
    (State.onRoad s r f).time = s.time ∧
    (State.onRoad s r f).fuses = s.fuses ∧
    (State.onRoad s r f).straps = s.straps ∧
    (State.onRoad s r f).port = s.port ∧
    (State.onRoad s r f).cw = s.cw ∧
    (State.onRoad s r f).spill = s.spill ∧
    (State.onRoad s r f).red = s.red ∧
    (State.onRoad s r f).mot = s.mot ∧
    (State.onRoad s r f).prod = s.prod ∧
    (State.onRoad s r f).way = s.way ∧
    (State.onRoad s r f).fe = s.fe ∧
    (State.onRoad s r f).up = s.up ∧
    (State.onRoad s r f).hs = s.hs ∧
    (State.onRoad s r f).tw = s.tw ∧
    (State.onRoad s r f).attn = s.attn ∧
    (State.onRoad s r f).clients = s.clients ∧
    (State.onRoad s r f).locks = s.locks ∧
    (State.onRoad s r f).pin = s.pin ∧
    (State.onRoad s r f).age = s.age ∧
    (State.onRoad s r f).tap = s.tap := by
  unfold State.onRoad
  and_intros <;>
    ((try simp) <;> (try (repeat' split)) <;> (try simp))

@[simp] theorem State.onNode_keeps (s : State) (r p : Nat) (f : Node → Node) :
    (State.onNode s r p f).pending = s.pending ∧
    (State.onNode s r p f).free = s.free ∧
    (State.onNode s r p f).power = s.power ∧
    (State.onNode s r p f).time = s.time ∧
    (State.onNode s r p f).fuses = s.fuses ∧
    (State.onNode s r p f).straps = s.straps ∧
    (State.onNode s r p f).port = s.port ∧
    (State.onNode s r p f).cw = s.cw ∧
    (State.onNode s r p f).spill = s.spill ∧
    (State.onNode s r p f).red = s.red ∧
    (State.onNode s r p f).mot = s.mot ∧
    (State.onNode s r p f).prod = s.prod ∧
    (State.onNode s r p f).way = s.way ∧
    (State.onNode s r p f).fe = s.fe ∧
    (State.onNode s r p f).up = s.up ∧
    (State.onNode s r p f).hs = s.hs ∧
    (State.onNode s r p f).tw = s.tw ∧
    (State.onNode s r p f).attn = s.attn ∧
    (State.onNode s r p f).clients = s.clients ∧
    (State.onNode s r p f).locks = s.locks ∧
    (State.onNode s r p f).pin = s.pin ∧
    (State.onNode s r p f).age = s.age ∧
    (State.onNode s r p f).tap = s.tap := by
  unfold State.onNode
  and_intros <;>
    ((try simp) <;> (try (repeat' split)) <;> (try simp))

@[simp] theorem State.roadReport_keeps (s : State) (r reason : Nat) :
    (State.roadReport s r reason).pending = s.pending ∧
    (State.roadReport s r reason).free = s.free ∧
    (State.roadReport s r reason).power = s.power ∧
    (State.roadReport s r reason).time = s.time ∧
    (State.roadReport s r reason).fuses = s.fuses ∧
    (State.roadReport s r reason).straps = s.straps ∧
    (State.roadReport s r reason).port = s.port ∧
    (State.roadReport s r reason).spill = s.spill ∧
    (State.roadReport s r reason).red = s.red ∧
    (State.roadReport s r reason).mot = s.mot ∧
    (State.roadReport s r reason).prod = s.prod ∧
    (State.roadReport s r reason).fe = s.fe ∧
    (State.roadReport s r reason).roads = s.roads ∧
    (State.roadReport s r reason).up = s.up ∧
    (State.roadReport s r reason).hs = s.hs ∧
    (State.roadReport s r reason).tw = s.tw ∧
    (State.roadReport s r reason).attn = s.attn ∧
    (State.roadReport s r reason).clients = s.clients ∧
    (State.roadReport s r reason).locks = s.locks ∧
    (State.roadReport s r reason).pin = s.pin ∧
    (State.roadReport s r reason).age = s.age ∧
    (State.roadReport s r reason).tap = s.tap := by
  unfold State.roadReport
  and_intros <;>
    ((try simp) <;> (try (repeat' split)) <;> (try simp))

@[simp] theorem State.compareReport_keeps (s : State) (r pos : Nat) (uid : BitVec 64) (maker model cause action : Nat) :
    (State.compareReport s r pos uid maker model cause action).pending = s.pending ∧
    (State.compareReport s r pos uid maker model cause action).free = s.free ∧
    (State.compareReport s r pos uid maker model cause action).power = s.power ∧
    (State.compareReport s r pos uid maker model cause action).time = s.time ∧
    (State.compareReport s r pos uid maker model cause action).fuses = s.fuses ∧
    (State.compareReport s r pos uid maker model cause action).straps = s.straps ∧
    (State.compareReport s r pos uid maker model cause action).port = s.port ∧
    (State.compareReport s r pos uid maker model cause action).spill = s.spill ∧
    (State.compareReport s r pos uid maker model cause action).red = s.red ∧
    (State.compareReport s r pos uid maker model cause action).mot = s.mot ∧
    (State.compareReport s r pos uid maker model cause action).prod = s.prod ∧
    (State.compareReport s r pos uid maker model cause action).fe = s.fe ∧
    (State.compareReport s r pos uid maker model cause action).roads = s.roads ∧
    (State.compareReport s r pos uid maker model cause action).up = s.up ∧
    (State.compareReport s r pos uid maker model cause action).hs = s.hs ∧
    (State.compareReport s r pos uid maker model cause action).tw = s.tw ∧
    (State.compareReport s r pos uid maker model cause action).attn = s.attn ∧
    (State.compareReport s r pos uid maker model cause action).clients = s.clients ∧
    (State.compareReport s r pos uid maker model cause action).locks = s.locks ∧
    (State.compareReport s r pos uid maker model cause action).pin = s.pin ∧
    (State.compareReport s r pos uid maker model cause action).age = s.age ∧
    (State.compareReport s r pos uid maker model cause action).tap = s.tap := by
  unfold State.compareReport
  and_intros <;>
    ((try simp) <;> (try (repeat' split)) <;> (try simp))

@[simp] theorem State.nodeTiming_keeps (s : State) (r : Nat) (nd : Node) (reason cause a b : Nat) (prev : Int) :
    (State.nodeTiming s r nd reason cause a b prev).pending = s.pending ∧
    (State.nodeTiming s r nd reason cause a b prev).free = s.free ∧
    (State.nodeTiming s r nd reason cause a b prev).power = s.power ∧
    (State.nodeTiming s r nd reason cause a b prev).time = s.time ∧
    (State.nodeTiming s r nd reason cause a b prev).fuses = s.fuses ∧
    (State.nodeTiming s r nd reason cause a b prev).straps = s.straps ∧
    (State.nodeTiming s r nd reason cause a b prev).port = s.port ∧
    (State.nodeTiming s r nd reason cause a b prev).spill = s.spill ∧
    (State.nodeTiming s r nd reason cause a b prev).red = s.red ∧
    (State.nodeTiming s r nd reason cause a b prev).mot = s.mot ∧
    (State.nodeTiming s r nd reason cause a b prev).prod = s.prod ∧
    (State.nodeTiming s r nd reason cause a b prev).fe = s.fe ∧
    (State.nodeTiming s r nd reason cause a b prev).up = s.up ∧
    (State.nodeTiming s r nd reason cause a b prev).hs = s.hs ∧
    (State.nodeTiming s r nd reason cause a b prev).tw = s.tw ∧
    (State.nodeTiming s r nd reason cause a b prev).attn = s.attn ∧
    (State.nodeTiming s r nd reason cause a b prev).clients = s.clients ∧
    (State.nodeTiming s r nd reason cause a b prev).locks = s.locks ∧
    (State.nodeTiming s r nd reason cause a b prev).pin = s.pin ∧
    (State.nodeTiming s r nd reason cause a b prev).age = s.age ∧
    (State.nodeTiming s r nd reason cause a b prev).tap = s.tap := by
  unfold State.nodeTiming
  and_intros <;>
    ((try simp) <;> (try (repeat' split)) <;> (try simp))

@[simp] theorem State.stageNode_keeps (s : State) (r : Nat) (nd : Node) :
    (State.stageNode s r nd).pending = s.pending ∧
    (State.stageNode s r nd).free = s.free ∧
    (State.stageNode s r nd).power = s.power ∧
    (State.stageNode s r nd).time = s.time ∧
    (State.stageNode s r nd).fuses = s.fuses ∧
    (State.stageNode s r nd).straps = s.straps ∧
    (State.stageNode s r nd).port = s.port ∧
    (State.stageNode s r nd).cw = s.cw ∧
    (State.stageNode s r nd).spill = s.spill ∧
    (State.stageNode s r nd).red = s.red ∧
    (State.stageNode s r nd).mot = s.mot ∧
    (State.stageNode s r nd).prod = s.prod ∧
    (State.stageNode s r nd).way = s.way ∧
    (State.stageNode s r nd).fe = s.fe ∧
    (State.stageNode s r nd).up = s.up ∧
    (State.stageNode s r nd).hs = s.hs ∧
    (State.stageNode s r nd).tw = s.tw ∧
    (State.stageNode s r nd).attn = s.attn ∧
    (State.stageNode s r nd).clients = s.clients ∧
    (State.stageNode s r nd).locks = s.locks ∧
    (State.stageNode s r nd).pin = s.pin ∧
    (State.stageNode s r nd).age = s.age ∧
    (State.stageNode s r nd).tap = s.tap := by
  unfold State.stageNode
  and_intros <;>
    ((try simp) <;> (try (repeat' split)) <;> (try simp))

@[simp] theorem State.catchUp_keeps (s : State) (r : Nat) :
    (State.catchUp s r).pending = s.pending ∧
    (State.catchUp s r).free = s.free ∧
    (State.catchUp s r).power = s.power ∧
    (State.catchUp s r).time = s.time ∧
    (State.catchUp s r).fuses = s.fuses ∧
    (State.catchUp s r).straps = s.straps ∧
    (State.catchUp s r).port = s.port ∧
    (State.catchUp s r).cw = s.cw ∧
    (State.catchUp s r).spill = s.spill ∧
    (State.catchUp s r).red = s.red ∧
    (State.catchUp s r).mot = s.mot ∧
    (State.catchUp s r).prod = s.prod ∧
    (State.catchUp s r).way = s.way ∧
    (State.catchUp s r).fe = s.fe ∧
    (State.catchUp s r).up = s.up ∧
    (State.catchUp s r).hs = s.hs ∧
    (State.catchUp s r).tw = s.tw ∧
    (State.catchUp s r).attn = s.attn ∧
    (State.catchUp s r).clients = s.clients ∧
    (State.catchUp s r).locks = s.locks ∧
    (State.catchUp s r).pin = s.pin ∧
    (State.catchUp s r).age = s.age ∧
    (State.catchUp s r).tap = s.tap := by
  unfold State.catchUp
  and_intros <;>
    ((try simp) <;> (try (repeat' split)) <;> (try simp))

@[simp] theorem State.stageSoon_keeps (s : State) (r : Nat) (offsets : Bool) :
    (State.stageSoon s r offsets).pending = s.pending ∧
    (State.stageSoon s r offsets).free = s.free ∧
    (State.stageSoon s r offsets).power = s.power ∧
    (State.stageSoon s r offsets).time = s.time ∧
    (State.stageSoon s r offsets).fuses = s.fuses ∧
    (State.stageSoon s r offsets).straps = s.straps ∧
    (State.stageSoon s r offsets).port = s.port ∧
    (State.stageSoon s r offsets).cw = s.cw ∧
    (State.stageSoon s r offsets).spill = s.spill ∧
    (State.stageSoon s r offsets).red = s.red ∧
    (State.stageSoon s r offsets).mot = s.mot ∧
    (State.stageSoon s r offsets).prod = s.prod ∧
    (State.stageSoon s r offsets).way = s.way ∧
    (State.stageSoon s r offsets).fe = s.fe ∧
    (State.stageSoon s r offsets).up = s.up ∧
    (State.stageSoon s r offsets).hs = s.hs ∧
    (State.stageSoon s r offsets).tw = s.tw ∧
    (State.stageSoon s r offsets).attn = s.attn ∧
    (State.stageSoon s r offsets).clients = s.clients ∧
    (State.stageSoon s r offsets).locks = s.locks ∧
    (State.stageSoon s r offsets).pin = s.pin ∧
    (State.stageSoon s r offsets).age = s.age ∧
    (State.stageSoon s r offsets).tap = s.tap := by
  unfold State.stageSoon
  and_intros <;>
    ((try simp) <;> (try (repeat' split)) <;> (try simp))

@[simp] theorem State.enumEnd_keeps (s : State) (r : Nat) :
    (State.enumEnd s r).pending = s.pending ∧
    (State.enumEnd s r).free = s.free ∧
    (State.enumEnd s r).power = s.power ∧
    (State.enumEnd s r).time = s.time ∧
    (State.enumEnd s r).fuses = s.fuses ∧
    (State.enumEnd s r).straps = s.straps ∧
    (State.enumEnd s r).port = s.port ∧
    (State.enumEnd s r).spill = s.spill ∧
    (State.enumEnd s r).red = s.red ∧
    (State.enumEnd s r).mot = s.mot ∧
    (State.enumEnd s r).prod = s.prod ∧
    (State.enumEnd s r).fe = s.fe ∧
    (State.enumEnd s r).up = s.up ∧
    (State.enumEnd s r).hs = s.hs ∧
    (State.enumEnd s r).tw = s.tw ∧
    (State.enumEnd s r).attn = s.attn ∧
    (State.enumEnd s r).clients = s.clients ∧
    (State.enumEnd s r).locks = s.locks ∧
    (State.enumEnd s r).pin = s.pin ∧
    (State.enumEnd s r).age = s.age ∧
    (State.enumEnd s r).tap = s.tap := by
  unfold State.enumEnd
  and_intros <;>
    ((try simp) <;> (try (repeat' split)) <;> (try simp))

@[simp] theorem State.stopNode_keeps (s : State) (r : Nat) (nd : Node) (cause mark : Nat) :
    (State.stopNode s r nd cause mark).pending = s.pending ∧
    (State.stopNode s r nd cause mark).free = s.free ∧
    (State.stopNode s r nd cause mark).power = s.power ∧
    (State.stopNode s r nd cause mark).time = s.time ∧
    (State.stopNode s r nd cause mark).fuses = s.fuses ∧
    (State.stopNode s r nd cause mark).straps = s.straps ∧
    (State.stopNode s r nd cause mark).port = s.port ∧
    (State.stopNode s r nd cause mark).spill = s.spill ∧
    (State.stopNode s r nd cause mark).red = s.red ∧
    (State.stopNode s r nd cause mark).mot = s.mot ∧
    (State.stopNode s r nd cause mark).prod = s.prod ∧
    (State.stopNode s r nd cause mark).fe = s.fe ∧
    (State.stopNode s r nd cause mark).roads = s.roads ∧
    (State.stopNode s r nd cause mark).up = s.up ∧
    (State.stopNode s r nd cause mark).hs = s.hs ∧
    (State.stopNode s r nd cause mark).tw = s.tw ∧
    (State.stopNode s r nd cause mark).attn = s.attn ∧
    (State.stopNode s r nd cause mark).clients = s.clients ∧
    (State.stopNode s r nd cause mark).locks = s.locks ∧
    (State.stopNode s r nd cause mark).pin = s.pin ∧
    (State.stopNode s r nd cause mark).age = s.age ∧
    (State.stopNode s r nd cause mark).tap = s.tap := by
  unfold State.stopNode
  and_intros <;>
    ((try simp) <;> (try (repeat' split)) <;> (try simp))

@[simp] theorem State.loseNode_keeps (s : State) (r : Nat) (nd : Node) (cause : Nat) :
    (State.loseNode s r nd cause).pending = s.pending ∧
    (State.loseNode s r nd cause).free = s.free ∧
    (State.loseNode s r nd cause).power = s.power ∧
    (State.loseNode s r nd cause).time = s.time ∧
    (State.loseNode s r nd cause).fuses = s.fuses ∧
    (State.loseNode s r nd cause).straps = s.straps ∧
    (State.loseNode s r nd cause).port = s.port ∧
    (State.loseNode s r nd cause).spill = s.spill ∧
    (State.loseNode s r nd cause).red = s.red ∧
    (State.loseNode s r nd cause).mot = s.mot ∧
    (State.loseNode s r nd cause).prod = s.prod ∧
    (State.loseNode s r nd cause).fe = s.fe ∧
    (State.loseNode s r nd cause).up = s.up ∧
    (State.loseNode s r nd cause).hs = s.hs ∧
    (State.loseNode s r nd cause).tw = s.tw ∧
    (State.loseNode s r nd cause).attn = s.attn ∧
    (State.loseNode s r nd cause).clients = s.clients ∧
    (State.loseNode s r nd cause).locks = s.locks ∧
    (State.loseNode s r nd cause).pin = s.pin ∧
    (State.loseNode s r nd cause).age = s.age ∧
    (State.loseNode s r nd cause).tap = s.tap := by
  unfold State.loseNode
  and_intros <;>
    ((try simp) <;> (try (repeat' split)) <;> (try simp))

@[simp] theorem doNodeLost_keeps (r p : Nat) (s : State) :
    (doNodeLost r p s).pending = s.pending ∧
    (doNodeLost r p s).free = s.free ∧
    (doNodeLost r p s).power = s.power ∧
    (doNodeLost r p s).time = s.time ∧
    (doNodeLost r p s).fuses = s.fuses ∧
    (doNodeLost r p s).straps = s.straps ∧
    (doNodeLost r p s).port = s.port ∧
    (doNodeLost r p s).spill = s.spill ∧
    (doNodeLost r p s).red = s.red ∧
    (doNodeLost r p s).mot = s.mot ∧
    (doNodeLost r p s).prod = s.prod ∧
    (doNodeLost r p s).fe = s.fe ∧
    (doNodeLost r p s).up = s.up ∧
    (doNodeLost r p s).hs = s.hs ∧
    (doNodeLost r p s).tw = s.tw ∧
    (doNodeLost r p s).attn = s.attn ∧
    (doNodeLost r p s).clients = s.clients ∧
    (doNodeLost r p s).locks = s.locks ∧
    (doNodeLost r p s).pin = s.pin ∧
    (doNodeLost r p s).age = s.age ∧
    (doNodeLost r p s).tap = s.tap := by
  unfold doNodeLost
  and_intros <;>
    ((try simp) <;> (try (repeat' split)) <;> (try simp))

@[simp] theorem doRoadStart_keeps (r : Nat) (s : State) :
    (doRoadStart r s).pending = s.pending ∧
    (doRoadStart r s).free = s.free ∧
    (doRoadStart r s).power = s.power ∧
    (doRoadStart r s).time = s.time ∧
    (doRoadStart r s).fuses = s.fuses ∧
    (doRoadStart r s).straps = s.straps ∧
    (doRoadStart r s).port = s.port ∧
    (doRoadStart r s).cw = s.cw ∧
    (doRoadStart r s).spill = s.spill ∧
    (doRoadStart r s).red = s.red ∧
    (doRoadStart r s).mot = s.mot ∧
    (doRoadStart r s).prod = s.prod ∧
    (doRoadStart r s).way = s.way ∧
    (doRoadStart r s).fe = s.fe ∧
    (doRoadStart r s).up = s.up ∧
    (doRoadStart r s).hs = s.hs ∧
    (doRoadStart r s).tw = s.tw ∧
    (doRoadStart r s).attn = s.attn ∧
    (doRoadStart r s).clients = s.clients ∧
    (doRoadStart r s).locks = s.locks ∧
    (doRoadStart r s).pin = s.pin ∧
    (doRoadStart r s).age = s.age ∧
    (doRoadStart r s).tap = s.tap := by
  unfold doRoadStart
  and_intros <;>
    ((try simp) <;> (try (repeat' split)) <;> (try simp))

@[simp] theorem State.stopRoad_keeps (s : State) (r cause mark : Nat) :
    (State.stopRoad s r cause mark).pending = s.pending ∧
    (State.stopRoad s r cause mark).free = s.free ∧
    (State.stopRoad s r cause mark).power = s.power ∧
    (State.stopRoad s r cause mark).time = s.time ∧
    (State.stopRoad s r cause mark).fuses = s.fuses ∧
    (State.stopRoad s r cause mark).straps = s.straps ∧
    (State.stopRoad s r cause mark).port = s.port ∧
    (State.stopRoad s r cause mark).spill = s.spill ∧
    (State.stopRoad s r cause mark).red = s.red ∧
    (State.stopRoad s r cause mark).mot = s.mot ∧
    (State.stopRoad s r cause mark).prod = s.prod ∧
    (State.stopRoad s r cause mark).fe = s.fe ∧
    (State.stopRoad s r cause mark).up = s.up ∧
    (State.stopRoad s r cause mark).hs = s.hs ∧
    (State.stopRoad s r cause mark).tw = s.tw ∧
    (State.stopRoad s r cause mark).attn = s.attn ∧
    (State.stopRoad s r cause mark).clients = s.clients ∧
    (State.stopRoad s r cause mark).locks = s.locks ∧
    (State.stopRoad s r cause mark).pin = s.pin ∧
    (State.stopRoad s r cause mark).age = s.age ∧
    (State.stopRoad s r cause mark).tap = s.tap := by
  unfold State.stopRoad
  and_intros <;>
    ((try simp) <;> (try (repeat' split)) <;> (try simp))

@[simp] theorem State.toggleNode_keeps (s : State) (r : Nat) (commit : Bool) (nd : Node) :
    (State.toggleNode s r commit nd).pending = s.pending ∧
    (State.toggleNode s r commit nd).free = s.free ∧
    (State.toggleNode s r commit nd).power = s.power ∧
    (State.toggleNode s r commit nd).time = s.time ∧
    (State.toggleNode s r commit nd).fuses = s.fuses ∧
    (State.toggleNode s r commit nd).straps = s.straps ∧
    (State.toggleNode s r commit nd).port = s.port ∧
    (State.toggleNode s r commit nd).spill = s.spill ∧
    (State.toggleNode s r commit nd).red = s.red ∧
    (State.toggleNode s r commit nd).mot = s.mot ∧
    (State.toggleNode s r commit nd).prod = s.prod ∧
    (State.toggleNode s r commit nd).fe = s.fe ∧
    (State.toggleNode s r commit nd).up = s.up ∧
    (State.toggleNode s r commit nd).hs = s.hs ∧
    (State.toggleNode s r commit nd).tw = s.tw ∧
    (State.toggleNode s r commit nd).attn = s.attn ∧
    (State.toggleNode s r commit nd).clients = s.clients ∧
    (State.toggleNode s r commit nd).locks = s.locks ∧
    (State.toggleNode s r commit nd).pin = s.pin ∧
    (State.toggleNode s r commit nd).age = s.age ∧
    (State.toggleNode s r commit nd).tap = s.tap := by
  unfold State.toggleNode
  and_intros <;>
    ((try simp) <;> (try (repeat' split)) <;> (try simp))

@[simp] theorem State.clearLost_keeps (s : State) (r : Nat) :
    (State.clearLost s r).pending = s.pending ∧
    (State.clearLost s r).free = s.free ∧
    (State.clearLost s r).power = s.power ∧
    (State.clearLost s r).time = s.time ∧
    (State.clearLost s r).fuses = s.fuses ∧
    (State.clearLost s r).straps = s.straps ∧
    (State.clearLost s r).port = s.port ∧
    (State.clearLost s r).cw = s.cw ∧
    (State.clearLost s r).spill = s.spill ∧
    (State.clearLost s r).red = s.red ∧
    (State.clearLost s r).mot = s.mot ∧
    (State.clearLost s r).prod = s.prod ∧
    (State.clearLost s r).way = s.way ∧
    (State.clearLost s r).fe = s.fe ∧
    (State.clearLost s r).up = s.up ∧
    (State.clearLost s r).hs = s.hs ∧
    (State.clearLost s r).tw = s.tw ∧
    (State.clearLost s r).attn = s.attn ∧
    (State.clearLost s r).clients = s.clients ∧
    (State.clearLost s r).locks = s.locks ∧
    (State.clearLost s r).pin = s.pin ∧
    (State.clearLost s r).age = s.age ∧
    (State.clearLost s r).tap = s.tap := by
  unfold State.clearLost
  and_intros <;>
    ((try simp) <;> (try (repeat' split)) <;> (try simp))

@[simp] theorem State.toggleRoad_keeps (s : State) (r : Nat) :
    (State.toggleRoad s r).pending = s.pending ∧
    (State.toggleRoad s r).free = s.free ∧
    (State.toggleRoad s r).power = s.power ∧
    (State.toggleRoad s r).time = s.time ∧
    (State.toggleRoad s r).fuses = s.fuses ∧
    (State.toggleRoad s r).straps = s.straps ∧
    (State.toggleRoad s r).port = s.port ∧
    (State.toggleRoad s r).spill = s.spill ∧
    (State.toggleRoad s r).red = s.red ∧
    (State.toggleRoad s r).mot = s.mot ∧
    (State.toggleRoad s r).prod = s.prod ∧
    (State.toggleRoad s r).fe = s.fe ∧
    (State.toggleRoad s r).up = s.up ∧
    (State.toggleRoad s r).hs = s.hs ∧
    (State.toggleRoad s r).tw = s.tw ∧
    (State.toggleRoad s r).attn = s.attn ∧
    (State.toggleRoad s r).clients = s.clients ∧
    (State.toggleRoad s r).locks = s.locks ∧
    (State.toggleRoad s r).pin = s.pin ∧
    (State.toggleRoad s r).age = s.age ∧
    (State.toggleRoad s r).tap = s.tap := by
  unfold State.toggleRoad
  and_intros <;>
    ((try simp) <;> (try (repeat' split)) <;> (try simp))

@[simp] theorem State.cycleEnd_keeps (s : State) (r : Nat) :
    (State.cycleEnd s r).pending = s.pending ∧
    (State.cycleEnd s r).free = s.free ∧
    (State.cycleEnd s r).power = s.power ∧
    (State.cycleEnd s r).time = s.time ∧
    (State.cycleEnd s r).fuses = s.fuses ∧
    (State.cycleEnd s r).straps = s.straps ∧
    (State.cycleEnd s r).port = s.port ∧
    (State.cycleEnd s r).spill = s.spill ∧
    (State.cycleEnd s r).red = s.red ∧
    (State.cycleEnd s r).mot = s.mot ∧
    (State.cycleEnd s r).prod = s.prod ∧
    (State.cycleEnd s r).fe = s.fe ∧
    (State.cycleEnd s r).up = s.up ∧
    (State.cycleEnd s r).hs = s.hs ∧
    (State.cycleEnd s r).tw = s.tw ∧
    (State.cycleEnd s r).attn = s.attn ∧
    (State.cycleEnd s r).clients = s.clients ∧
    (State.cycleEnd s r).locks = s.locks ∧
    (State.cycleEnd s r).pin = s.pin ∧
    (State.cycleEnd s r).age = s.age ∧
    (State.cycleEnd s r).tap = s.tap := by
  unfold State.cycleEnd
  and_intros <;>
    ((try simp) <;> (try (repeat' split)) <;> (try simp))

@[simp] theorem State.cycleSkipped_keeps (s : State) (r : Nat) :
    (State.cycleSkipped s r).pending = s.pending ∧
    (State.cycleSkipped s r).free = s.free ∧
    (State.cycleSkipped s r).power = s.power ∧
    (State.cycleSkipped s r).time = s.time ∧
    (State.cycleSkipped s r).fuses = s.fuses ∧
    (State.cycleSkipped s r).straps = s.straps ∧
    (State.cycleSkipped s r).port = s.port ∧
    (State.cycleSkipped s r).spill = s.spill ∧
    (State.cycleSkipped s r).red = s.red ∧
    (State.cycleSkipped s r).mot = s.mot ∧
    (State.cycleSkipped s r).prod = s.prod ∧
    (State.cycleSkipped s r).fe = s.fe ∧
    (State.cycleSkipped s r).up = s.up ∧
    (State.cycleSkipped s r).hs = s.hs ∧
    (State.cycleSkipped s r).tw = s.tw ∧
    (State.cycleSkipped s r).attn = s.attn ∧
    (State.cycleSkipped s r).clients = s.clients ∧
    (State.cycleSkipped s r).locks = s.locks ∧
    (State.cycleSkipped s r).pin = s.pin ∧
    (State.cycleSkipped s r).age = s.age ∧
    (State.cycleSkipped s r).tap = s.tap := by
  unfold State.cycleSkipped
  and_intros <;>
    ((try simp) <;> (try (repeat' split)) <;> (try simp))

@[simp] theorem doMarkLaunch_keeps (r : Nat) (s : State) :
    (doMarkLaunch r s).pending = s.pending ∧
    (doMarkLaunch r s).free = s.free ∧
    (doMarkLaunch r s).power = s.power ∧
    (doMarkLaunch r s).time = s.time ∧
    (doMarkLaunch r s).fuses = s.fuses ∧
    (doMarkLaunch r s).straps = s.straps ∧
    (doMarkLaunch r s).port = s.port ∧
    (doMarkLaunch r s).spill = s.spill ∧
    (doMarkLaunch r s).red = s.red ∧
    (doMarkLaunch r s).mot = s.mot ∧
    (doMarkLaunch r s).prod = s.prod ∧
    (doMarkLaunch r s).fe = s.fe ∧
    (doMarkLaunch r s).up = s.up ∧
    (doMarkLaunch r s).hs = s.hs ∧
    (doMarkLaunch r s).tw = s.tw ∧
    (doMarkLaunch r s).attn = s.attn ∧
    (doMarkLaunch r s).clients = s.clients ∧
    (doMarkLaunch r s).locks = s.locks ∧
    (doMarkLaunch r s).pin = s.pin ∧
    (doMarkLaunch r s).age = s.age ∧
    (doMarkLaunch r s).tap = s.tap := by
  unfold doMarkLaunch
  and_intros <;>
    ((try simp) <;> (try (repeat' split)) <;> (try simp))

@[simp] theorem doAckFrame_keeps (r : Nat) (before : Nat) (rx : UpRx) (after : Nat) (s : State) :
    (doAckFrame r before rx after s).pending = s.pending ∧
    (doAckFrame r before rx after s).free = s.free ∧
    (doAckFrame r before rx after s).power = s.power ∧
    (doAckFrame r before rx after s).time = s.time ∧
    (doAckFrame r before rx after s).fuses = s.fuses ∧
    (doAckFrame r before rx after s).straps = s.straps ∧
    (doAckFrame r before rx after s).port = s.port ∧
    (doAckFrame r before rx after s).cw = s.cw ∧
    (doAckFrame r before rx after s).spill = s.spill ∧
    (doAckFrame r before rx after s).red = s.red ∧
    (doAckFrame r before rx after s).mot = s.mot ∧
    (doAckFrame r before rx after s).prod = s.prod ∧
    (doAckFrame r before rx after s).way = s.way ∧
    (doAckFrame r before rx after s).fe = s.fe ∧
    (doAckFrame r before rx after s).up = s.up ∧
    (doAckFrame r before rx after s).hs = s.hs ∧
    (doAckFrame r before rx after s).tw = s.tw ∧
    (doAckFrame r before rx after s).attn = s.attn ∧
    (doAckFrame r before rx after s).clients = s.clients ∧
    (doAckFrame r before rx after s).locks = s.locks ∧
    (doAckFrame r before rx after s).pin = s.pin ∧
    (doAckFrame r before rx after s).age = s.age ∧
    (doAckFrame r before rx after s).tap = s.tap := by
  unfold doAckFrame
  and_intros <;>
    ((try simp) <;> (try (repeat' split)) <;> (try simp))

@[simp] theorem doSlotFrame_keeps (r p : Nat) (rx : SlotRx) (s : State) :
    (doSlotFrame r p rx s).pending = s.pending ∧
    (doSlotFrame r p rx s).free = s.free ∧
    (doSlotFrame r p rx s).power = s.power ∧
    (doSlotFrame r p rx s).time = s.time ∧
    (doSlotFrame r p rx s).fuses = s.fuses ∧
    (doSlotFrame r p rx s).straps = s.straps ∧
    (doSlotFrame r p rx s).port = s.port ∧
    (doSlotFrame r p rx s).spill = s.spill ∧
    (doSlotFrame r p rx s).red = s.red ∧
    (doSlotFrame r p rx s).mot = s.mot ∧
    (doSlotFrame r p rx s).prod = s.prod ∧
    (doSlotFrame r p rx s).fe = s.fe ∧
    (doSlotFrame r p rx s).up = s.up ∧
    (doSlotFrame r p rx s).hs = s.hs ∧
    (doSlotFrame r p rx s).tw = s.tw ∧
    (doSlotFrame r p rx s).attn = s.attn ∧
    (doSlotFrame r p rx s).clients = s.clients ∧
    (doSlotFrame r p rx s).locks = s.locks ∧
    (doSlotFrame r p rx s).pin = s.pin ∧
    (doSlotFrame r p rx s).age = s.age ∧
    (doSlotFrame r p rx s).tap = s.tap := by
  unfold doSlotFrame
  and_intros <;>
    ((try simp) <;> (try (repeat' split)) <;> (try simp))

@[simp] theorem State.delayStep_keeps (s : State) (r : Nat) (nd : Node) (ds : List Int) :
    (State.delayStep s r nd ds).pending = s.pending ∧
    (State.delayStep s r nd ds).free = s.free ∧
    (State.delayStep s r nd ds).power = s.power ∧
    (State.delayStep s r nd ds).time = s.time ∧
    (State.delayStep s r nd ds).fuses = s.fuses ∧
    (State.delayStep s r nd ds).straps = s.straps ∧
    (State.delayStep s r nd ds).port = s.port ∧
    (State.delayStep s r nd ds).spill = s.spill ∧
    (State.delayStep s r nd ds).red = s.red ∧
    (State.delayStep s r nd ds).mot = s.mot ∧
    (State.delayStep s r nd ds).prod = s.prod ∧
    (State.delayStep s r nd ds).fe = s.fe ∧
    (State.delayStep s r nd ds).up = s.up ∧
    (State.delayStep s r nd ds).hs = s.hs ∧
    (State.delayStep s r nd ds).tw = s.tw ∧
    (State.delayStep s r nd ds).attn = s.attn ∧
    (State.delayStep s r nd ds).clients = s.clients ∧
    (State.delayStep s r nd ds).locks = s.locks ∧
    (State.delayStep s r nd ds).pin = s.pin ∧
    (State.delayStep s r nd ds).age = s.age ∧
    (State.delayStep s r nd ds).tap = s.tap := by
  unfold State.delayStep
  and_intros <;>
    ((try simp) <;> (try (repeat' split)) <;> (try simp))

@[simp] theorem State.confirmEcho_keeps (s : State) (r : Nat) (nd : Node) (l : List Int) (k : Nat) (d : Option Int) :
    (State.confirmEcho s r nd l k d).pending = s.pending ∧
    (State.confirmEcho s r nd l k d).free = s.free ∧
    (State.confirmEcho s r nd l k d).power = s.power ∧
    (State.confirmEcho s r nd l k d).time = s.time ∧
    (State.confirmEcho s r nd l k d).fuses = s.fuses ∧
    (State.confirmEcho s r nd l k d).straps = s.straps ∧
    (State.confirmEcho s r nd l k d).port = s.port ∧
    (State.confirmEcho s r nd l k d).spill = s.spill ∧
    (State.confirmEcho s r nd l k d).red = s.red ∧
    (State.confirmEcho s r nd l k d).mot = s.mot ∧
    (State.confirmEcho s r nd l k d).prod = s.prod ∧
    (State.confirmEcho s r nd l k d).fe = s.fe ∧
    (State.confirmEcho s r nd l k d).up = s.up ∧
    (State.confirmEcho s r nd l k d).hs = s.hs ∧
    (State.confirmEcho s r nd l k d).tw = s.tw ∧
    (State.confirmEcho s r nd l k d).attn = s.attn ∧
    (State.confirmEcho s r nd l k d).clients = s.clients ∧
    (State.confirmEcho s r nd l k d).locks = s.locks ∧
    (State.confirmEcho s r nd l k d).pin = s.pin ∧
    (State.confirmEcho s r nd l k d).age = s.age ∧
    (State.confirmEcho s r nd l k d).tap = s.tap := by
  unfold State.confirmEcho
  and_intros <;>
    ((try simp) <;> (try (repeat' split)) <;> (try simp))

@[simp] theorem State.admitEcho_keeps (s : State) (r : Nat) (nd : Node) (l : List Int) (sent round : Nat) (d : Option Int) :
    (State.admitEcho s r nd l sent round d).pending = s.pending ∧
    (State.admitEcho s r nd l sent round d).free = s.free ∧
    (State.admitEcho s r nd l sent round d).power = s.power ∧
    (State.admitEcho s r nd l sent round d).time = s.time ∧
    (State.admitEcho s r nd l sent round d).fuses = s.fuses ∧
    (State.admitEcho s r nd l sent round d).straps = s.straps ∧
    (State.admitEcho s r nd l sent round d).port = s.port ∧
    (State.admitEcho s r nd l sent round d).spill = s.spill ∧
    (State.admitEcho s r nd l sent round d).red = s.red ∧
    (State.admitEcho s r nd l sent round d).mot = s.mot ∧
    (State.admitEcho s r nd l sent round d).prod = s.prod ∧
    (State.admitEcho s r nd l sent round d).fe = s.fe ∧
    (State.admitEcho s r nd l sent round d).up = s.up ∧
    (State.admitEcho s r nd l sent round d).hs = s.hs ∧
    (State.admitEcho s r nd l sent round d).tw = s.tw ∧
    (State.admitEcho s r nd l sent round d).attn = s.attn ∧
    (State.admitEcho s r nd l sent round d).clients = s.clients ∧
    (State.admitEcho s r nd l sent round d).locks = s.locks ∧
    (State.admitEcho s r nd l sent round d).pin = s.pin ∧
    (State.admitEcho s r nd l sent round d).age = s.age ∧
    (State.admitEcho s r nd l sent round d).tap = s.tap := by
  unfold State.admitEcho
  and_intros <;>
    ((try simp) <;> (try (repeat' split)) <;> (try simp))

@[simp] theorem State.plannedEcho_keeps (s : State) (r : Nat) (nd : Node) (d : Int) :
    (State.plannedEcho s r nd d).pending = s.pending ∧
    (State.plannedEcho s r nd d).free = s.free ∧
    (State.plannedEcho s r nd d).power = s.power ∧
    (State.plannedEcho s r nd d).time = s.time ∧
    (State.plannedEcho s r nd d).fuses = s.fuses ∧
    (State.plannedEcho s r nd d).straps = s.straps ∧
    (State.plannedEcho s r nd d).port = s.port ∧
    (State.plannedEcho s r nd d).cw = s.cw ∧
    (State.plannedEcho s r nd d).spill = s.spill ∧
    (State.plannedEcho s r nd d).red = s.red ∧
    (State.plannedEcho s r nd d).mot = s.mot ∧
    (State.plannedEcho s r nd d).prod = s.prod ∧
    (State.plannedEcho s r nd d).way = s.way ∧
    (State.plannedEcho s r nd d).fe = s.fe ∧
    (State.plannedEcho s r nd d).up = s.up ∧
    (State.plannedEcho s r nd d).hs = s.hs ∧
    (State.plannedEcho s r nd d).tw = s.tw ∧
    (State.plannedEcho s r nd d).attn = s.attn ∧
    (State.plannedEcho s r nd d).clients = s.clients ∧
    (State.plannedEcho s r nd d).locks = s.locks ∧
    (State.plannedEcho s r nd d).pin = s.pin ∧
    (State.plannedEcho s r nd d).age = s.age ∧
    (State.plannedEcho s r nd d).tap = s.tap := by
  unfold State.plannedEcho
  and_intros <;>
    ((try simp) <;> (try (repeat' split)) <;> (try simp))

@[simp] theorem State.echoResult_keeps (s : State) (r : Nat) (nd : Node) (d : Option Int) :
    (State.echoResult s r nd d).pending = s.pending ∧
    (State.echoResult s r nd d).free = s.free ∧
    (State.echoResult s r nd d).power = s.power ∧
    (State.echoResult s r nd d).time = s.time ∧
    (State.echoResult s r nd d).fuses = s.fuses ∧
    (State.echoResult s r nd d).straps = s.straps ∧
    (State.echoResult s r nd d).port = s.port ∧
    (State.echoResult s r nd d).spill = s.spill ∧
    (State.echoResult s r nd d).red = s.red ∧
    (State.echoResult s r nd d).mot = s.mot ∧
    (State.echoResult s r nd d).prod = s.prod ∧
    (State.echoResult s r nd d).fe = s.fe ∧
    (State.echoResult s r nd d).up = s.up ∧
    (State.echoResult s r nd d).hs = s.hs ∧
    (State.echoResult s r nd d).tw = s.tw ∧
    (State.echoResult s r nd d).attn = s.attn ∧
    (State.echoResult s r nd d).clients = s.clients ∧
    (State.echoResult s r nd d).locks = s.locks ∧
    (State.echoResult s r nd d).pin = s.pin ∧
    (State.echoResult s r nd d).age = s.age ∧
    (State.echoResult s r nd d).tap = s.tap := by
  unfold State.echoResult
  and_intros <;>
    ((try simp) <;> (try (repeat' split)) <;> (try simp))

@[simp] theorem doEchoFrame_keeps (r : Nat) (rx : UpRx) (s : State) :
    (doEchoFrame r rx s).pending = s.pending ∧
    (doEchoFrame r rx s).free = s.free ∧
    (doEchoFrame r rx s).power = s.power ∧
    (doEchoFrame r rx s).time = s.time ∧
    (doEchoFrame r rx s).fuses = s.fuses ∧
    (doEchoFrame r rx s).straps = s.straps ∧
    (doEchoFrame r rx s).port = s.port ∧
    (doEchoFrame r rx s).spill = s.spill ∧
    (doEchoFrame r rx s).red = s.red ∧
    (doEchoFrame r rx s).mot = s.mot ∧
    (doEchoFrame r rx s).prod = s.prod ∧
    (doEchoFrame r rx s).fe = s.fe ∧
    (doEchoFrame r rx s).up = s.up ∧
    (doEchoFrame r rx s).hs = s.hs ∧
    (doEchoFrame r rx s).tw = s.tw ∧
    (doEchoFrame r rx s).attn = s.attn ∧
    (doEchoFrame r rx s).clients = s.clients ∧
    (doEchoFrame r rx s).locks = s.locks ∧
    (doEchoFrame r rx s).pin = s.pin ∧
    (doEchoFrame r rx s).age = s.age ∧
    (doEchoFrame r rx s).tap = s.tap := by
  unfold doEchoFrame
  and_intros <;>
    ((try simp) <;> (try (repeat' split)) <;> (try simp))

@[simp] theorem State.enumMiss_keeps (s : State) (r : Nat) (answered : Bool) :
    (State.enumMiss s r answered).pending = s.pending ∧
    (State.enumMiss s r answered).free = s.free ∧
    (State.enumMiss s r answered).power = s.power ∧
    (State.enumMiss s r answered).time = s.time ∧
    (State.enumMiss s r answered).fuses = s.fuses ∧
    (State.enumMiss s r answered).straps = s.straps ∧
    (State.enumMiss s r answered).port = s.port ∧
    (State.enumMiss s r answered).spill = s.spill ∧
    (State.enumMiss s r answered).red = s.red ∧
    (State.enumMiss s r answered).mot = s.mot ∧
    (State.enumMiss s r answered).prod = s.prod ∧
    (State.enumMiss s r answered).fe = s.fe ∧
    (State.enumMiss s r answered).up = s.up ∧
    (State.enumMiss s r answered).hs = s.hs ∧
    (State.enumMiss s r answered).tw = s.tw ∧
    (State.enumMiss s r answered).attn = s.attn ∧
    (State.enumMiss s r answered).clients = s.clients ∧
    (State.enumMiss s r answered).locks = s.locks ∧
    (State.enumMiss s r answered).pin = s.pin ∧
    (State.enumMiss s r answered).age = s.age ∧
    (State.enumMiss s r answered).tap = s.tap := by
  unfold State.enumMiss
  and_intros <;>
    ((try simp) <;> (try (repeat' split)) <;> (try simp))

@[simp] theorem State.enumGood_keeps (s : State) (r p : Nat) (rx : EnumIn) (arrive : Nat) :
    (State.enumGood s r p rx arrive).pending = s.pending ∧
    (State.enumGood s r p rx arrive).free = s.free ∧
    (State.enumGood s r p rx arrive).power = s.power ∧
    (State.enumGood s r p rx arrive).time = s.time ∧
    (State.enumGood s r p rx arrive).fuses = s.fuses ∧
    (State.enumGood s r p rx arrive).straps = s.straps ∧
    (State.enumGood s r p rx arrive).port = s.port ∧
    (State.enumGood s r p rx arrive).spill = s.spill ∧
    (State.enumGood s r p rx arrive).red = s.red ∧
    (State.enumGood s r p rx arrive).mot = s.mot ∧
    (State.enumGood s r p rx arrive).prod = s.prod ∧
    (State.enumGood s r p rx arrive).fe = s.fe ∧
    (State.enumGood s r p rx arrive).up = s.up ∧
    (State.enumGood s r p rx arrive).hs = s.hs ∧
    (State.enumGood s r p rx arrive).tw = s.tw ∧
    (State.enumGood s r p rx arrive).attn = s.attn ∧
    (State.enumGood s r p rx arrive).clients = s.clients ∧
    (State.enumGood s r p rx arrive).locks = s.locks ∧
    (State.enumGood s r p rx arrive).pin = s.pin ∧
    (State.enumGood s r p rx arrive).age = s.age ∧
    (State.enumGood s r p rx arrive).tap = s.tap := by
  unfold State.enumGood
  and_intros <;>
    ((try simp) <;> (try (repeat' split)) <;> (try simp))

@[simp] theorem doEnumReply_keeps (r : Nat) (rx : UpRx) (s : State) :
    (doEnumReply r rx s).pending = s.pending ∧
    (doEnumReply r rx s).free = s.free ∧
    (doEnumReply r rx s).power = s.power ∧
    (doEnumReply r rx s).time = s.time ∧
    (doEnumReply r rx s).fuses = s.fuses ∧
    (doEnumReply r rx s).straps = s.straps ∧
    (doEnumReply r rx s).port = s.port ∧
    (doEnumReply r rx s).spill = s.spill ∧
    (doEnumReply r rx s).red = s.red ∧
    (doEnumReply r rx s).mot = s.mot ∧
    (doEnumReply r rx s).prod = s.prod ∧
    (doEnumReply r rx s).fe = s.fe ∧
    (doEnumReply r rx s).up = s.up ∧
    (doEnumReply r rx s).hs = s.hs ∧
    (doEnumReply r rx s).tw = s.tw ∧
    (doEnumReply r rx s).attn = s.attn ∧
    (doEnumReply r rx s).clients = s.clients ∧
    (doEnumReply r rx s).locks = s.locks ∧
    (doEnumReply r rx s).pin = s.pin ∧
    (doEnumReply r rx s).age = s.age ∧
    (doEnumReply r rx s).tap = s.tap := by
  unfold doEnumReply
  and_intros <;>
    ((try simp) <;> (try (repeat' split)) <;> (try simp))

@[simp] theorem doEchoWindowEnd_keeps (r : Nat) (s : State) :
    (doEchoWindowEnd r s).pending = s.pending ∧
    (doEchoWindowEnd r s).free = s.free ∧
    (doEchoWindowEnd r s).power = s.power ∧
    (doEchoWindowEnd r s).time = s.time ∧
    (doEchoWindowEnd r s).fuses = s.fuses ∧
    (doEchoWindowEnd r s).straps = s.straps ∧
    (doEchoWindowEnd r s).port = s.port ∧
    (doEchoWindowEnd r s).spill = s.spill ∧
    (doEchoWindowEnd r s).red = s.red ∧
    (doEchoWindowEnd r s).mot = s.mot ∧
    (doEchoWindowEnd r s).prod = s.prod ∧
    (doEchoWindowEnd r s).fe = s.fe ∧
    (doEchoWindowEnd r s).up = s.up ∧
    (doEchoWindowEnd r s).hs = s.hs ∧
    (doEchoWindowEnd r s).tw = s.tw ∧
    (doEchoWindowEnd r s).attn = s.attn ∧
    (doEchoWindowEnd r s).clients = s.clients ∧
    (doEchoWindowEnd r s).locks = s.locks ∧
    (doEchoWindowEnd r s).pin = s.pin ∧
    (doEchoWindowEnd r s).age = s.age ∧
    (doEchoWindowEnd r s).tap = s.tap := by
  unfold doEchoWindowEnd
  and_intros <;>
    ((try simp) <;> (try (repeat' split)) <;> (try simp))

@[simp] theorem doDelayCycleEnd_keeps (r : Nat) (s : State) :
    (doDelayCycleEnd r s).pending = s.pending ∧
    (doDelayCycleEnd r s).free = s.free ∧
    (doDelayCycleEnd r s).power = s.power ∧
    (doDelayCycleEnd r s).time = s.time ∧
    (doDelayCycleEnd r s).fuses = s.fuses ∧
    (doDelayCycleEnd r s).straps = s.straps ∧
    (doDelayCycleEnd r s).port = s.port ∧
    (doDelayCycleEnd r s).spill = s.spill ∧
    (doDelayCycleEnd r s).red = s.red ∧
    (doDelayCycleEnd r s).mot = s.mot ∧
    (doDelayCycleEnd r s).prod = s.prod ∧
    (doDelayCycleEnd r s).fe = s.fe ∧
    (doDelayCycleEnd r s).up = s.up ∧
    (doDelayCycleEnd r s).hs = s.hs ∧
    (doDelayCycleEnd r s).tw = s.tw ∧
    (doDelayCycleEnd r s).attn = s.attn ∧
    (doDelayCycleEnd r s).clients = s.clients ∧
    (doDelayCycleEnd r s).locks = s.locks ∧
    (doDelayCycleEnd r s).pin = s.pin ∧
    (doDelayCycleEnd r s).age = s.age ∧
    (doDelayCycleEnd r s).tap = s.tap := by
  unfold doDelayCycleEnd
  and_intros <;>
    ((try simp) <;> (try (repeat' split)) <;> (try simp))

@[simp] theorem State.stageRoads_keeps (s : State) (im : Image) :
    (State.stageRoads s im).pending = s.pending ∧
    (State.stageRoads s im).free = s.free ∧
    (State.stageRoads s im).power = s.power ∧
    (State.stageRoads s im).time = s.time ∧
    (State.stageRoads s im).fuses = s.fuses ∧
    (State.stageRoads s im).straps = s.straps ∧
    (State.stageRoads s im).port = s.port ∧
    (State.stageRoads s im).cw = s.cw ∧
    (State.stageRoads s im).spill = s.spill ∧
    (State.stageRoads s im).red = s.red ∧
    (State.stageRoads s im).mot = s.mot ∧
    (State.stageRoads s im).prod = s.prod ∧
    (State.stageRoads s im).way = s.way ∧
    (State.stageRoads s im).fe = s.fe ∧
    (State.stageRoads s im).up = s.up ∧
    (State.stageRoads s im).hs = s.hs ∧
    (State.stageRoads s im).tw = s.tw ∧
    (State.stageRoads s im).attn = s.attn ∧
    (State.stageRoads s im).clients = s.clients ∧
    (State.stageRoads s im).locks = s.locks ∧
    (State.stageRoads s im).pin = s.pin ∧
    (State.stageRoads s im).age = s.age ∧
    (State.stageRoads s im).tap = s.tap := by
  unfold State.stageRoads
  and_intros <;>
    ((try simp) <;> (try (repeat' split)) <;> (try simp))

@[simp] theorem State.unstageRoads_keeps (s : State) :
    (State.unstageRoads s).pending = s.pending ∧
    (State.unstageRoads s).free = s.free ∧
    (State.unstageRoads s).power = s.power ∧
    (State.unstageRoads s).time = s.time ∧
    (State.unstageRoads s).fuses = s.fuses ∧
    (State.unstageRoads s).straps = s.straps ∧
    (State.unstageRoads s).port = s.port ∧
    (State.unstageRoads s).cw = s.cw ∧
    (State.unstageRoads s).spill = s.spill ∧
    (State.unstageRoads s).red = s.red ∧
    (State.unstageRoads s).mot = s.mot ∧
    (State.unstageRoads s).prod = s.prod ∧
    (State.unstageRoads s).way = s.way ∧
    (State.unstageRoads s).fe = s.fe ∧
    (State.unstageRoads s).up = s.up ∧
    (State.unstageRoads s).hs = s.hs ∧
    (State.unstageRoads s).tw = s.tw ∧
    (State.unstageRoads s).attn = s.attn ∧
    (State.unstageRoads s).clients = s.clients ∧
    (State.unstageRoads s).locks = s.locks ∧
    (State.unstageRoads s).pin = s.pin ∧
    (State.unstageRoads s).age = s.age ∧
    (State.unstageRoads s).tap = s.tap := by
  unfold State.unstageRoads
  and_intros <;>
    ((try simp) <;> (try (repeat' split)) <;> (try simp))

@[simp] theorem State.commitRoads_keeps (s : State) (im : Image) :
    (State.commitRoads s im).pending = s.pending ∧
    (State.commitRoads s im).free = s.free ∧
    (State.commitRoads s im).power = s.power ∧
    (State.commitRoads s im).time = s.time ∧
    (State.commitRoads s im).fuses = s.fuses ∧
    (State.commitRoads s im).straps = s.straps ∧
    (State.commitRoads s im).port = s.port ∧
    (State.commitRoads s im).spill = s.spill ∧
    (State.commitRoads s im).red = s.red ∧
    (State.commitRoads s im).mot = s.mot ∧
    (State.commitRoads s im).prod = s.prod ∧
    (State.commitRoads s im).fe = s.fe ∧
    (State.commitRoads s im).up = s.up ∧
    (State.commitRoads s im).hs = s.hs ∧
    (State.commitRoads s im).tw = s.tw ∧
    (State.commitRoads s im).attn = s.attn ∧
    (State.commitRoads s im).clients = s.clients ∧
    (State.commitRoads s im).locks = s.locks ∧
    (State.commitRoads s im).pin = s.pin ∧
    (State.commitRoads s im).age = s.age ∧
    (State.commitRoads s im).tap = s.tap := by
  unfold State.commitRoads
  and_intros <;>
    ((try simp) <;> (try (repeat' split)) <;> (try simp))

@[simp] theorem State.writeStraps_keeps (s : State) (reason invalid drift : Nat) :
    (State.writeStraps s reason invalid drift).pending = s.pending ∧
    (State.writeStraps s reason invalid drift).free = s.free ∧
    (State.writeStraps s reason invalid drift).power = s.power ∧
    (State.writeStraps s reason invalid drift).time = s.time ∧
    (State.writeStraps s reason invalid drift).fuses = s.fuses ∧
    (State.writeStraps s reason invalid drift).straps = s.straps ∧
    (State.writeStraps s reason invalid drift).port = s.port ∧
    (State.writeStraps s reason invalid drift).spill = s.spill ∧
    (State.writeStraps s reason invalid drift).red = s.red ∧
    (State.writeStraps s reason invalid drift).mot = s.mot ∧
    (State.writeStraps s reason invalid drift).prod = s.prod ∧
    (State.writeStraps s reason invalid drift).fe = s.fe ∧
    (State.writeStraps s reason invalid drift).roads = s.roads ∧
    (State.writeStraps s reason invalid drift).up = s.up ∧
    (State.writeStraps s reason invalid drift).hs = s.hs ∧
    (State.writeStraps s reason invalid drift).tw = s.tw ∧
    (State.writeStraps s reason invalid drift).attn = s.attn ∧
    (State.writeStraps s reason invalid drift).clients = s.clients ∧
    (State.writeStraps s reason invalid drift).locks = s.locks ∧
    (State.writeStraps s reason invalid drift).pin = s.pin ∧
    (State.writeStraps s reason invalid drift).age = s.age ∧
    (State.writeStraps s reason invalid drift).tap = s.tap := by
  unfold State.writeStraps
  and_intros <;>
    ((try simp) <;> (try (repeat' split)) <;> (try simp))

@[simp] theorem State.uplinkByStrap_keeps (s : State) :
    (State.uplinkByStrap s).pending = s.pending ∧
    (State.uplinkByStrap s).free = s.free ∧
    (State.uplinkByStrap s).time = s.time ∧
    (State.uplinkByStrap s).fuses = s.fuses ∧
    (State.uplinkByStrap s).straps = s.straps ∧
    (State.uplinkByStrap s).port = s.port ∧
    (State.uplinkByStrap s).cw = s.cw ∧
    (State.uplinkByStrap s).spill = s.spill ∧
    (State.uplinkByStrap s).red = s.red ∧
    (State.uplinkByStrap s).mot = s.mot ∧
    (State.uplinkByStrap s).prod = s.prod ∧
    (State.uplinkByStrap s).way = s.way ∧
    (State.uplinkByStrap s).fe = s.fe ∧
    (State.uplinkByStrap s).roads = s.roads ∧
    (State.uplinkByStrap s).up = s.up ∧
    (State.uplinkByStrap s).hs = s.hs ∧
    (State.uplinkByStrap s).tw = s.tw ∧
    (State.uplinkByStrap s).attn = s.attn ∧
    (State.uplinkByStrap s).clients = s.clients ∧
    (State.uplinkByStrap s).locks = s.locks ∧
    (State.uplinkByStrap s).pin = s.pin ∧
    (State.uplinkByStrap s).age = s.age ∧
    (State.uplinkByStrap s).tap = s.tap ∧
    (State.uplinkByStrap s).power.mode = s.power.mode := by
  unfold State.uplinkByStrap
  and_intros <;>
    ((try simp) <;> (try (repeat' split)) <;> (try simp))

@[simp] theorem State.strapScan_keeps (s : State) (rs : List StrapReading) :
    (State.strapScan s rs).pending = s.pending ∧
    (State.strapScan s rs).free = s.free ∧
    (State.strapScan s rs).time = s.time ∧
    (State.strapScan s rs).fuses = s.fuses ∧
    (State.strapScan s rs).cw = s.cw ∧
    (State.strapScan s rs).spill = s.spill ∧
    (State.strapScan s rs).red = s.red ∧
    (State.strapScan s rs).mot = s.mot ∧
    (State.strapScan s rs).prod = s.prod ∧
    (State.strapScan s rs).way = s.way ∧
    (State.strapScan s rs).fe = s.fe ∧
    (State.strapScan s rs).roads = s.roads ∧
    (State.strapScan s rs).up = s.up ∧
    (State.strapScan s rs).hs = s.hs ∧
    (State.strapScan s rs).tw = s.tw ∧
    (State.strapScan s rs).attn = s.attn ∧
    (State.strapScan s rs).clients = s.clients ∧
    (State.strapScan s rs).locks = s.locks ∧
    (State.strapScan s rs).pin = s.pin ∧
    (State.strapScan s rs).age = s.age ∧
    (State.strapScan s rs).tap = s.tap ∧
    (State.strapScan s rs).port.inForce = s.port.inForce ∧
    (State.strapScan s rs).power.mode = s.power.mode := by
  unfold State.strapScan
  and_intros <;>
    ((try simp) <;> (try (repeat' split)) <;> (try simp))

@[simp] theorem doStrapScan_keeps (dt : Nat) (rs : List StrapReading) (s : State) :
    (doStrapScan dt rs s).pending = s.pending ∧
    (doStrapScan dt rs s).free = s.free ∧
    (doStrapScan dt rs s).fuses = s.fuses ∧
    (doStrapScan dt rs s).cw = s.cw ∧
    (doStrapScan dt rs s).spill = s.spill ∧
    (doStrapScan dt rs s).red = s.red ∧
    (doStrapScan dt rs s).mot = s.mot ∧
    (doStrapScan dt rs s).prod = s.prod ∧
    (doStrapScan dt rs s).way = s.way ∧
    (doStrapScan dt rs s).fe = s.fe ∧
    (doStrapScan dt rs s).roads = s.roads ∧
    (doStrapScan dt rs s).up = s.up ∧
    (doStrapScan dt rs s).hs = s.hs ∧
    (doStrapScan dt rs s).tw = s.tw ∧
    (doStrapScan dt rs s).attn = s.attn ∧
    (doStrapScan dt rs s).clients = s.clients ∧
    (doStrapScan dt rs s).locks = s.locks ∧
    (doStrapScan dt rs s).pin = s.pin ∧
    (doStrapScan dt rs s).age = s.age ∧
    (doStrapScan dt rs s).tap = s.tap ∧
    (doStrapScan dt rs s).port.inForce = s.port.inForce ∧
    (doStrapScan dt rs s).power.mode = s.power.mode ∧
    (doStrapScan dt rs s).time.gRate = s.time.gRate ∧
    (doStrapScan dt rs s).time.rates = s.time.rates ∧
    (doStrapScan dt rs s).time.gIdx = s.time.gIdx := by
  unfold doStrapScan
  and_intros <;>
    ((try simp) <;> (try (repeat' split)) <;> (try simp))

@[simp] theorem doStrapHold_keeps (dt : Nat) (rs : List StrapReading) (s : State) :
    (doStrapHold dt rs s).pending = s.pending ∧
    (doStrapHold dt rs s).free = s.free ∧
    (doStrapHold dt rs s).fuses = s.fuses ∧
    (doStrapHold dt rs s).cw = s.cw ∧
    (doStrapHold dt rs s).spill = s.spill ∧
    (doStrapHold dt rs s).red = s.red ∧
    (doStrapHold dt rs s).mot = s.mot ∧
    (doStrapHold dt rs s).prod = s.prod ∧
    (doStrapHold dt rs s).way = s.way ∧
    (doStrapHold dt rs s).fe = s.fe ∧
    (doStrapHold dt rs s).roads = s.roads ∧
    (doStrapHold dt rs s).up = s.up ∧
    (doStrapHold dt rs s).hs = s.hs ∧
    (doStrapHold dt rs s).tw = s.tw ∧
    (doStrapHold dt rs s).attn = s.attn ∧
    (doStrapHold dt rs s).clients = s.clients ∧
    (doStrapHold dt rs s).locks = s.locks ∧
    (doStrapHold dt rs s).pin = s.pin ∧
    (doStrapHold dt rs s).age = s.age ∧
    (doStrapHold dt rs s).tap = s.tap ∧
    (doStrapHold dt rs s).port.inForce = s.port.inForce ∧
    (doStrapHold dt rs s).power.mode = s.power.mode ∧
    (doStrapHold dt rs s).time.gRate = s.time.gRate ∧
    (doStrapHold dt rs s).time.rates = s.time.rates ∧
    (doStrapHold dt rs s).time.gIdx = s.time.gIdx := by
  unfold doStrapHold
  and_intros <;>
    ((try simp) <;> (try (repeat' split)) <;> (try simp))

@[simp] theorem doMode0Burst_keeps (dt : Nat) (s : State) :
    (doMode0Burst dt s).pending = s.pending ∧
    (doMode0Burst dt s).free = s.free ∧
    (doMode0Burst dt s).power = s.power ∧
    (doMode0Burst dt s).fuses = s.fuses ∧
    (doMode0Burst dt s).port = s.port ∧
    (doMode0Burst dt s).cw = s.cw ∧
    (doMode0Burst dt s).spill = s.spill ∧
    (doMode0Burst dt s).red = s.red ∧
    (doMode0Burst dt s).mot = s.mot ∧
    (doMode0Burst dt s).prod = s.prod ∧
    (doMode0Burst dt s).way = s.way ∧
    (doMode0Burst dt s).fe = s.fe ∧
    (doMode0Burst dt s).roads = s.roads ∧
    (doMode0Burst dt s).up = s.up ∧
    (doMode0Burst dt s).hs = s.hs ∧
    (doMode0Burst dt s).tw = s.tw ∧
    (doMode0Burst dt s).attn = s.attn ∧
    (doMode0Burst dt s).clients = s.clients ∧
    (doMode0Burst dt s).locks = s.locks ∧
    (doMode0Burst dt s).pin = s.pin ∧
    (doMode0Burst dt s).age = s.age ∧
    (doMode0Burst dt s).tap = s.tap ∧
    (doMode0Burst dt s).time.gRate = s.time.gRate ∧
    (doMode0Burst dt s).time.rates = s.time.rates ∧
    (doMode0Burst dt s).time.gIdx = s.time.gIdx := by
  unfold doMode0Burst
  and_intros <;>
    ((try simp) <;> (try (repeat' split)) <;> (try simp))

@[simp] theorem doStrapRescan_keeps (dt : Nat) (rs : List StrapReading) (s : State) :
    (doStrapRescan dt rs s).pending = s.pending ∧
    (doStrapRescan dt rs s).free = s.free ∧
    (doStrapRescan dt rs s).power = s.power ∧
    (doStrapRescan dt rs s).fuses = s.fuses ∧
    (doStrapRescan dt rs s).port = s.port ∧
    (doStrapRescan dt rs s).spill = s.spill ∧
    (doStrapRescan dt rs s).red = s.red ∧
    (doStrapRescan dt rs s).mot = s.mot ∧
    (doStrapRescan dt rs s).prod = s.prod ∧
    (doStrapRescan dt rs s).fe = s.fe ∧
    (doStrapRescan dt rs s).roads = s.roads ∧
    (doStrapRescan dt rs s).up = s.up ∧
    (doStrapRescan dt rs s).hs = s.hs ∧
    (doStrapRescan dt rs s).tw = s.tw ∧
    (doStrapRescan dt rs s).attn = s.attn ∧
    (doStrapRescan dt rs s).clients = s.clients ∧
    (doStrapRescan dt rs s).locks = s.locks ∧
    (doStrapRescan dt rs s).pin = s.pin ∧
    (doStrapRescan dt rs s).age = s.age ∧
    (doStrapRescan dt rs s).tap = s.tap ∧
    (doStrapRescan dt rs s).time.gRate = s.time.gRate ∧
    (doStrapRescan dt rs s).time.rates = s.time.rates ∧
    (doStrapRescan dt rs s).time.gIdx = s.time.gIdx := by
  unfold doStrapRescan
  and_intros <;>
    ((try simp) <;> (try (repeat' split)) <;> (try simp))

@[simp] theorem doLiveStrapRead_keeps (dt : Nat) (r12 r13 r14 : StrapReading) (s : State) :
    (doLiveStrapRead dt r12 r13 r14 s).pending = s.pending ∧
    (doLiveStrapRead dt r12 r13 r14 s).free = s.free ∧
    (doLiveStrapRead dt r12 r13 r14 s).power = s.power ∧
    (doLiveStrapRead dt r12 r13 r14 s).fuses = s.fuses ∧
    (doLiveStrapRead dt r12 r13 r14 s).port = s.port ∧
    (doLiveStrapRead dt r12 r13 r14 s).cw = s.cw ∧
    (doLiveStrapRead dt r12 r13 r14 s).spill = s.spill ∧
    (doLiveStrapRead dt r12 r13 r14 s).red = s.red ∧
    (doLiveStrapRead dt r12 r13 r14 s).mot = s.mot ∧
    (doLiveStrapRead dt r12 r13 r14 s).prod = s.prod ∧
    (doLiveStrapRead dt r12 r13 r14 s).way = s.way ∧
    (doLiveStrapRead dt r12 r13 r14 s).fe = s.fe ∧
    (doLiveStrapRead dt r12 r13 r14 s).roads = s.roads ∧
    (doLiveStrapRead dt r12 r13 r14 s).up = s.up ∧
    (doLiveStrapRead dt r12 r13 r14 s).hs = s.hs ∧
    (doLiveStrapRead dt r12 r13 r14 s).tw = s.tw ∧
    (doLiveStrapRead dt r12 r13 r14 s).attn = s.attn ∧
    (doLiveStrapRead dt r12 r13 r14 s).clients = s.clients ∧
    (doLiveStrapRead dt r12 r13 r14 s).locks = s.locks ∧
    (doLiveStrapRead dt r12 r13 r14 s).pin = s.pin ∧
    (doLiveStrapRead dt r12 r13 r14 s).age = s.age ∧
    (doLiveStrapRead dt r12 r13 r14 s).tap = s.tap ∧
    (doLiveStrapRead dt r12 r13 r14 s).time.gRate = s.time.gRate ∧
    (doLiveStrapRead dt r12 r13 r14 s).time.rates = s.time.rates ∧
    (doLiveStrapRead dt r12 r13 r14 s).time.gIdx = s.time.gIdx := by
  unfold doLiveStrapRead
  and_intros <;>
    ((try simp) <;> (try (repeat' split)) <;> (try simp))

@[simp] theorem State.strapPlan_keeps (s : State) (im : Image) (code : Nat) :
    (State.strapPlan s im code).pending = s.pending ∧
    (State.strapPlan s im code).free = s.free ∧
    (State.strapPlan s im code).power = s.power ∧
    (State.strapPlan s im code).time = s.time ∧
    (State.strapPlan s im code).fuses = s.fuses ∧
    (State.strapPlan s im code).straps = s.straps ∧
    (State.strapPlan s im code).port = s.port ∧
    (State.strapPlan s im code).spill = s.spill ∧
    (State.strapPlan s im code).red = s.red ∧
    (State.strapPlan s im code).mot = s.mot ∧
    (State.strapPlan s im code).prod = s.prod ∧
    (State.strapPlan s im code).fe = s.fe ∧
    (State.strapPlan s im code).roads = s.roads ∧
    (State.strapPlan s im code).up = s.up ∧
    (State.strapPlan s im code).hs = s.hs ∧
    (State.strapPlan s im code).tw = s.tw ∧
    (State.strapPlan s im code).attn = s.attn ∧
    (State.strapPlan s im code).clients = s.clients ∧
    (State.strapPlan s im code).locks = s.locks ∧
    (State.strapPlan s im code).pin = s.pin ∧
    (State.strapPlan s im code).age = s.age ∧
    (State.strapPlan s im code).tap = s.tap := by
  unfold State.strapPlan
  and_intros <;>
    ((try simp) <;> (try (repeat' split)) <;> (try simp))

@[simp] theorem State.liveCommit_keeps (s : State) :
    (State.liveCommit s).pending = s.pending ∧
    (State.liveCommit s).free = s.free ∧
    (State.liveCommit s).power = s.power ∧
    (State.liveCommit s).time = s.time ∧
    (State.liveCommit s).fuses = s.fuses ∧
    (State.liveCommit s).port = s.port ∧
    (State.liveCommit s).spill = s.spill ∧
    (State.liveCommit s).red = s.red ∧
    (State.liveCommit s).mot = s.mot ∧
    (State.liveCommit s).prod = s.prod ∧
    (State.liveCommit s).fe = s.fe ∧
    (State.liveCommit s).roads = s.roads ∧
    (State.liveCommit s).up = s.up ∧
    (State.liveCommit s).hs = s.hs ∧
    (State.liveCommit s).tw = s.tw ∧
    (State.liveCommit s).attn = s.attn ∧
    (State.liveCommit s).clients = s.clients ∧
    (State.liveCommit s).locks = s.locks ∧
    (State.liveCommit s).pin = s.pin ∧
    (State.liveCommit s).age = s.age ∧
    (State.liveCommit s).tap = s.tap := by
  unfold State.liveCommit
  and_intros <;>
    ((try simp) <;> (try (repeat' split)) <;> (try simp))

@[simp] theorem doSupplyTrip_keeps (mv belowNs : Nat) (s : State) :
    (doSupplyTrip mv belowNs s).pending = s.pending ∧
    (doSupplyTrip mv belowNs s).free = s.free ∧
    (doSupplyTrip mv belowNs s).power = s.power ∧
    (doSupplyTrip mv belowNs s).time = s.time ∧
    (doSupplyTrip mv belowNs s).fuses = s.fuses ∧
    (doSupplyTrip mv belowNs s).port = s.port ∧
    (doSupplyTrip mv belowNs s).cw = s.cw ∧
    (doSupplyTrip mv belowNs s).spill = s.spill ∧
    (doSupplyTrip mv belowNs s).red = s.red ∧
    (doSupplyTrip mv belowNs s).mot = s.mot ∧
    (doSupplyTrip mv belowNs s).prod = s.prod ∧
    (doSupplyTrip mv belowNs s).way = s.way ∧
    (doSupplyTrip mv belowNs s).fe = s.fe ∧
    (doSupplyTrip mv belowNs s).roads = s.roads ∧
    (doSupplyTrip mv belowNs s).up = s.up ∧
    (doSupplyTrip mv belowNs s).hs = s.hs ∧
    (doSupplyTrip mv belowNs s).tw = s.tw ∧
    (doSupplyTrip mv belowNs s).attn = s.attn ∧
    (doSupplyTrip mv belowNs s).clients = s.clients ∧
    (doSupplyTrip mv belowNs s).locks = s.locks ∧
    (doSupplyTrip mv belowNs s).pin = s.pin ∧
    (doSupplyTrip mv belowNs s).age = s.age ∧
    (doSupplyTrip mv belowNs s).tap = s.tap := by
  unfold doSupplyTrip
  and_intros <;>
    ((try simp) <;> (try (repeat' split)) <;> (try simp))

@[simp] theorem doSupplyClear_keeps (mv aboveNs : Nat) (s : State) :
    (doSupplyClear mv aboveNs s).pending = s.pending ∧
    (doSupplyClear mv aboveNs s).free = s.free ∧
    (doSupplyClear mv aboveNs s).power = s.power ∧
    (doSupplyClear mv aboveNs s).time = s.time ∧
    (doSupplyClear mv aboveNs s).fuses = s.fuses ∧
    (doSupplyClear mv aboveNs s).port = s.port ∧
    (doSupplyClear mv aboveNs s).cw = s.cw ∧
    (doSupplyClear mv aboveNs s).spill = s.spill ∧
    (doSupplyClear mv aboveNs s).red = s.red ∧
    (doSupplyClear mv aboveNs s).mot = s.mot ∧
    (doSupplyClear mv aboveNs s).prod = s.prod ∧
    (doSupplyClear mv aboveNs s).way = s.way ∧
    (doSupplyClear mv aboveNs s).fe = s.fe ∧
    (doSupplyClear mv aboveNs s).roads = s.roads ∧
    (doSupplyClear mv aboveNs s).up = s.up ∧
    (doSupplyClear mv aboveNs s).hs = s.hs ∧
    (doSupplyClear mv aboveNs s).tw = s.tw ∧
    (doSupplyClear mv aboveNs s).attn = s.attn ∧
    (doSupplyClear mv aboveNs s).clients = s.clients ∧
    (doSupplyClear mv aboveNs s).locks = s.locks ∧
    (doSupplyClear mv aboveNs s).pin = s.pin ∧
    (doSupplyClear mv aboveNs s).age = s.age ∧
    (doSupplyClear mv aboveNs s).tap = s.tap := by
  unfold doSupplyClear
  and_intros <;>
    ((try simp) <;> (try (repeat' split)) <;> (try simp))

@[simp] theorem State.floatImageBus_keeps (s : State) :
    (State.floatImageBus s).pending = s.pending ∧
    (State.floatImageBus s).free = s.free ∧
    (State.floatImageBus s).power = s.power ∧
    (State.floatImageBus s).time = s.time ∧
    (State.floatImageBus s).fuses = s.fuses ∧
    (State.floatImageBus s).straps = s.straps ∧
    (State.floatImageBus s).cw = s.cw ∧
    (State.floatImageBus s).spill = s.spill ∧
    (State.floatImageBus s).red = s.red ∧
    (State.floatImageBus s).mot = s.mot ∧
    (State.floatImageBus s).prod = s.prod ∧
    (State.floatImageBus s).way = s.way ∧
    (State.floatImageBus s).fe = s.fe ∧
    (State.floatImageBus s).roads = s.roads ∧
    (State.floatImageBus s).up = s.up ∧
    (State.floatImageBus s).hs = s.hs ∧
    (State.floatImageBus s).tw = s.tw ∧
    (State.floatImageBus s).attn = s.attn ∧
    (State.floatImageBus s).clients = s.clients ∧
    (State.floatImageBus s).locks = s.locks ∧
    (State.floatImageBus s).pin = s.pin ∧
    (State.floatImageBus s).age = s.age ∧
    (State.floatImageBus s).tap = s.tap ∧
    (State.floatImageBus s).port.inForce = s.port.inForce := by
  unfold State.floatImageBus
  and_intros <;>
    ((try simp) <;> (try (repeat' split)) <;> (try simp))

@[simp] theorem State.loadRecord_keeps (s : State) (result src trigger sect : Nat) (h : Option Header) (detail : Nat) :
    (State.loadRecord s result src trigger sect h detail).pending = s.pending ∧
    (State.loadRecord s result src trigger sect h detail).free = s.free ∧
    (State.loadRecord s result src trigger sect h detail).power = s.power ∧
    (State.loadRecord s result src trigger sect h detail).time = s.time ∧
    (State.loadRecord s result src trigger sect h detail).fuses = s.fuses ∧
    (State.loadRecord s result src trigger sect h detail).straps = s.straps ∧
    (State.loadRecord s result src trigger sect h detail).port = s.port ∧
    (State.loadRecord s result src trigger sect h detail).spill = s.spill ∧
    (State.loadRecord s result src trigger sect h detail).red = s.red ∧
    (State.loadRecord s result src trigger sect h detail).mot = s.mot ∧
    (State.loadRecord s result src trigger sect h detail).prod = s.prod ∧
    (State.loadRecord s result src trigger sect h detail).fe = s.fe ∧
    (State.loadRecord s result src trigger sect h detail).roads = s.roads ∧
    (State.loadRecord s result src trigger sect h detail).up = s.up ∧
    (State.loadRecord s result src trigger sect h detail).hs = s.hs ∧
    (State.loadRecord s result src trigger sect h detail).tw = s.tw ∧
    (State.loadRecord s result src trigger sect h detail).attn = s.attn ∧
    (State.loadRecord s result src trigger sect h detail).clients = s.clients ∧
    (State.loadRecord s result src trigger sect h detail).locks = s.locks ∧
    (State.loadRecord s result src trigger sect h detail).pin = s.pin ∧
    (State.loadRecord s result src trigger sect h detail).age = s.age ∧
    (State.loadRecord s result src trigger sect h detail).tap = s.tap := by
  unfold State.loadRecord
  and_intros <;>
    ((try simp) <;> (try (repeat' split)) <;> (try simp))

@[simp] theorem State.finishReload_keeps (s : State) (reply : Option (Nat × BitVec 16)) (result : Nat) :
    (State.finishReload s reply result).pending = s.pending ∧
    (State.finishReload s reply result).free = s.free ∧
    (State.finishReload s reply result).power = s.power ∧
    (State.finishReload s reply result).time = s.time ∧
    (State.finishReload s reply result).fuses = s.fuses ∧
    (State.finishReload s reply result).straps = s.straps ∧
    (State.finishReload s reply result).port = s.port ∧
    (State.finishReload s reply result).cw = s.cw ∧
    (State.finishReload s reply result).spill = s.spill ∧
    (State.finishReload s reply result).red = s.red ∧
    (State.finishReload s reply result).mot = s.mot ∧
    (State.finishReload s reply result).prod = s.prod ∧
    (State.finishReload s reply result).way = s.way ∧
    (State.finishReload s reply result).fe = s.fe ∧
    (State.finishReload s reply result).roads = s.roads ∧
    (State.finishReload s reply result).up = s.up ∧
    (State.finishReload s reply result).hs = s.hs ∧
    (State.finishReload s reply result).tw = s.tw ∧
    (State.finishReload s reply result).attn = s.attn ∧
    (State.finishReload s reply result).locks = s.locks ∧
    (State.finishReload s reply result).pin = s.pin ∧
    (State.finishReload s reply result).age = s.age ∧
    (State.finishReload s reply result).tap = s.tap := by
  unfold State.finishReload
  and_intros <;>
    ((try simp) <;> (try (repeat' split)) <;> (try simp))

@[simp] theorem State.endLoad_keeps (s : State) (l : Load) (result : Nat) :
    (State.endLoad s l result).pending = s.pending ∧
    (State.endLoad s l result).free = s.free ∧
    (State.endLoad s l result).time = s.time ∧
    (State.endLoad s l result).fuses = s.fuses ∧
    (State.endLoad s l result).straps = s.straps ∧
    (State.endLoad s l result).cw = s.cw ∧
    (State.endLoad s l result).spill = s.spill ∧
    (State.endLoad s l result).red = s.red ∧
    (State.endLoad s l result).mot = s.mot ∧
    (State.endLoad s l result).prod = s.prod ∧
    (State.endLoad s l result).way = s.way ∧
    (State.endLoad s l result).fe = s.fe ∧
    (State.endLoad s l result).roads = s.roads ∧
    (State.endLoad s l result).up = s.up ∧
    (State.endLoad s l result).hs = s.hs ∧
    (State.endLoad s l result).tw = s.tw ∧
    (State.endLoad s l result).attn = s.attn ∧
    (State.endLoad s l result).locks = s.locks ∧
    (State.endLoad s l result).pin = s.pin ∧
    (State.endLoad s l result).age = s.age ∧
    (State.endLoad s l result).tap = s.tap ∧
    (State.endLoad s l result).port.inForce = s.port.inForce ∧
    (State.endLoad s l result).power.mode = s.power.mode := by
  unfold State.endLoad
  and_intros <;>
    ((try simp) <;> (try (repeat' split)) <;> (try simp))

@[simp] theorem State.sourceFailed_keeps (s : State) (l : Load) (result sect : Nat) (h : Option Header) (detail : Nat) :
    (State.sourceFailed s l result sect h detail).pending = s.pending ∧
    (State.sourceFailed s l result sect h detail).free = s.free ∧
    (State.sourceFailed s l result sect h detail).time = s.time ∧
    (State.sourceFailed s l result sect h detail).fuses = s.fuses ∧
    (State.sourceFailed s l result sect h detail).straps = s.straps ∧
    (State.sourceFailed s l result sect h detail).spill = s.spill ∧
    (State.sourceFailed s l result sect h detail).red = s.red ∧
    (State.sourceFailed s l result sect h detail).mot = s.mot ∧
    (State.sourceFailed s l result sect h detail).prod = s.prod ∧
    (State.sourceFailed s l result sect h detail).fe = s.fe ∧
    (State.sourceFailed s l result sect h detail).roads = s.roads ∧
    (State.sourceFailed s l result sect h detail).up = s.up ∧
    (State.sourceFailed s l result sect h detail).hs = s.hs ∧
    (State.sourceFailed s l result sect h detail).tw = s.tw ∧
    (State.sourceFailed s l result sect h detail).attn = s.attn ∧
    (State.sourceFailed s l result sect h detail).locks = s.locks ∧
    (State.sourceFailed s l result sect h detail).pin = s.pin ∧
    (State.sourceFailed s l result sect h detail).age = s.age ∧
    (State.sourceFailed s l result sect h detail).tap = s.tap ∧
    (State.sourceFailed s l result sect h detail).port.inForce = s.port.inForce ∧
    (State.sourceFailed s l result sect h detail).power.mode = s.power.mode := by
  unfold State.sourceFailed
  and_intros <;>
    ((try simp) <;> (try (repeat' split)) <;> (try simp))

@[simp] theorem State.abandonLoad_keeps (s : State) (result : Nat) :
    (State.abandonLoad s result).pending = s.pending ∧
    (State.abandonLoad s result).free = s.free ∧
    (State.abandonLoad s result).time = s.time ∧
    (State.abandonLoad s result).fuses = s.fuses ∧
    (State.abandonLoad s result).straps = s.straps ∧
    (State.abandonLoad s result).spill = s.spill ∧
    (State.abandonLoad s result).red = s.red ∧
    (State.abandonLoad s result).mot = s.mot ∧
    (State.abandonLoad s result).prod = s.prod ∧
    (State.abandonLoad s result).fe = s.fe ∧
    (State.abandonLoad s result).up = s.up ∧
    (State.abandonLoad s result).hs = s.hs ∧
    (State.abandonLoad s result).tw = s.tw ∧
    (State.abandonLoad s result).attn = s.attn ∧
    (State.abandonLoad s result).locks = s.locks ∧
    (State.abandonLoad s result).pin = s.pin ∧
    (State.abandonLoad s result).age = s.age ∧
    (State.abandonLoad s result).tap = s.tap ∧
    (State.abandonLoad s result).port.inForce = s.port.inForce ∧
    (State.abandonLoad s result).power.mode = s.power.mode := by
  unfold State.abandonLoad
  and_intros <;>
    ((try simp) <;> (try (repeat' split)) <;> (try simp))

@[simp] theorem doBusRelease_keeps (dt : Nat) (s : State) :
    (doBusRelease dt s).pending = s.pending ∧
    (doBusRelease dt s).free = s.free ∧
    (doBusRelease dt s).fuses = s.fuses ∧
    (doBusRelease dt s).straps = s.straps ∧
    (doBusRelease dt s).spill = s.spill ∧
    (doBusRelease dt s).red = s.red ∧
    (doBusRelease dt s).mot = s.mot ∧
    (doBusRelease dt s).prod = s.prod ∧
    (doBusRelease dt s).fe = s.fe ∧
    (doBusRelease dt s).up = s.up ∧
    (doBusRelease dt s).hs = s.hs ∧
    (doBusRelease dt s).tw = s.tw ∧
    (doBusRelease dt s).attn = s.attn ∧
    (doBusRelease dt s).locks = s.locks ∧
    (doBusRelease dt s).pin = s.pin ∧
    (doBusRelease dt s).age = s.age ∧
    (doBusRelease dt s).tap = s.tap ∧
    (doBusRelease dt s).port.inForce = s.port.inForce ∧
    (doBusRelease dt s).power.mode = s.power.mode ∧
    (doBusRelease dt s).time.gRate = s.time.gRate ∧
    (doBusRelease dt s).time.rates = s.time.rates ∧
    (doBusRelease dt s).time.gIdx = s.time.gIdx := by
  unfold doBusRelease
  and_intros <;>
    ((try simp) <;> (try (repeat' split)) <;> (try simp))

@[simp] theorem doImgrelRise_keeps (dt : Nat) (s : State) :
    (doImgrelRise dt s).pending = s.pending ∧
    (doImgrelRise dt s).free = s.free ∧
    (doImgrelRise dt s).power = s.power ∧
    (doImgrelRise dt s).fuses = s.fuses ∧
    (doImgrelRise dt s).straps = s.straps ∧
    (doImgrelRise dt s).cw = s.cw ∧
    (doImgrelRise dt s).spill = s.spill ∧
    (doImgrelRise dt s).red = s.red ∧
    (doImgrelRise dt s).mot = s.mot ∧
    (doImgrelRise dt s).prod = s.prod ∧
    (doImgrelRise dt s).way = s.way ∧
    (doImgrelRise dt s).fe = s.fe ∧
    (doImgrelRise dt s).roads = s.roads ∧
    (doImgrelRise dt s).up = s.up ∧
    (doImgrelRise dt s).hs = s.hs ∧
    (doImgrelRise dt s).tw = s.tw ∧
    (doImgrelRise dt s).attn = s.attn ∧
    (doImgrelRise dt s).clients = s.clients ∧
    (doImgrelRise dt s).locks = s.locks ∧
    (doImgrelRise dt s).pin = s.pin ∧
    (doImgrelRise dt s).age = s.age ∧
    (doImgrelRise dt s).tap = s.tap ∧
    (doImgrelRise dt s).port.inForce = s.port.inForce ∧
    (doImgrelRise dt s).time.gRate = s.time.gRate ∧
    (doImgrelRise dt s).time.rates = s.time.rates ∧
    (doImgrelRise dt s).time.gIdx = s.time.gIdx := by
  unfold doImgrelRise
  and_intros <;>
    ((try simp) <;> (try (repeat' split)) <;> (try simp))

@[simp] theorem doLoadAttempt_keeps (dt : Nat) (src : Nat) (dev : FlashDev) (s : State) :
    (doLoadAttempt dt src dev s).pending = s.pending ∧
    (doLoadAttempt dt src dev s).free = s.free ∧
    (doLoadAttempt dt src dev s).fuses = s.fuses ∧
    (doLoadAttempt dt src dev s).straps = s.straps ∧
    (doLoadAttempt dt src dev s).spill = s.spill ∧
    (doLoadAttempt dt src dev s).red = s.red ∧
    (doLoadAttempt dt src dev s).mot = s.mot ∧
    (doLoadAttempt dt src dev s).prod = s.prod ∧
    (doLoadAttempt dt src dev s).fe = s.fe ∧
    (doLoadAttempt dt src dev s).up = s.up ∧
    (doLoadAttempt dt src dev s).hs = s.hs ∧
    (doLoadAttempt dt src dev s).tw = s.tw ∧
    (doLoadAttempt dt src dev s).attn = s.attn ∧
    (doLoadAttempt dt src dev s).locks = s.locks ∧
    (doLoadAttempt dt src dev s).pin = s.pin ∧
    (doLoadAttempt dt src dev s).age = s.age ∧
    (doLoadAttempt dt src dev s).tap = s.tap ∧
    (doLoadAttempt dt src dev s).port.inForce = s.port.inForce ∧
    (doLoadAttempt dt src dev s).power.mode = s.power.mode ∧
    (doLoadAttempt dt src dev s).time.gRate = s.time.gRate ∧
    (doLoadAttempt dt src dev s).time.rates = s.time.rates ∧
    (doLoadAttempt dt src dev s).time.gIdx = s.time.gIdx := by
  unfold doLoadAttempt
  and_intros <;>
    ((try simp) <;> (try (repeat' split)) <;> (try simp))

@[simp] theorem doImageHoldRetry_keeps (dt : Nat) (s : State) :
    (doImageHoldRetry dt s).pending = s.pending ∧
    (doImageHoldRetry dt s).free = s.free ∧
    (doImageHoldRetry dt s).power = s.power ∧
    (doImageHoldRetry dt s).fuses = s.fuses ∧
    (doImageHoldRetry dt s).straps = s.straps ∧
    (doImageHoldRetry dt s).cw = s.cw ∧
    (doImageHoldRetry dt s).spill = s.spill ∧
    (doImageHoldRetry dt s).red = s.red ∧
    (doImageHoldRetry dt s).mot = s.mot ∧
    (doImageHoldRetry dt s).prod = s.prod ∧
    (doImageHoldRetry dt s).way = s.way ∧
    (doImageHoldRetry dt s).fe = s.fe ∧
    (doImageHoldRetry dt s).roads = s.roads ∧
    (doImageHoldRetry dt s).up = s.up ∧
    (doImageHoldRetry dt s).hs = s.hs ∧
    (doImageHoldRetry dt s).tw = s.tw ∧
    (doImageHoldRetry dt s).attn = s.attn ∧
    (doImageHoldRetry dt s).clients = s.clients ∧
    (doImageHoldRetry dt s).locks = s.locks ∧
    (doImageHoldRetry dt s).pin = s.pin ∧
    (doImageHoldRetry dt s).age = s.age ∧
    (doImageHoldRetry dt s).tap = s.tap ∧
    (doImageHoldRetry dt s).port.inForce = s.port.inForce ∧
    (doImageHoldRetry dt s).time.gRate = s.time.gRate ∧
    (doImageHoldRetry dt s).time.rates = s.time.rates ∧
    (doImageHoldRetry dt s).time.gIdx = s.time.gIdx := by
  unfold doImageHoldRetry
  and_intros <;>
    ((try simp) <;> (try (repeat' split)) <;> (try simp))

@[simp] theorem State.nameCommit_keeps (s : State) :
    (State.nameCommit s).pending = s.pending ∧
    (State.nameCommit s).free = s.free ∧
    (State.nameCommit s).power = s.power ∧
    (State.nameCommit s).time = s.time ∧
    (State.nameCommit s).fuses = s.fuses ∧
    (State.nameCommit s).straps = s.straps ∧
    (State.nameCommit s).cw = s.cw ∧
    (State.nameCommit s).spill = s.spill ∧
    (State.nameCommit s).red = s.red ∧
    (State.nameCommit s).mot = s.mot ∧
    (State.nameCommit s).prod = s.prod ∧
    (State.nameCommit s).way = s.way ∧
    (State.nameCommit s).fe = s.fe ∧
    (State.nameCommit s).roads = s.roads ∧
    (State.nameCommit s).up = s.up ∧
    (State.nameCommit s).hs = s.hs ∧
    (State.nameCommit s).tw = s.tw ∧
    (State.nameCommit s).attn = s.attn ∧
    (State.nameCommit s).clients = s.clients ∧
    (State.nameCommit s).locks = s.locks ∧
    (State.nameCommit s).pin = s.pin ∧
    (State.nameCommit s).age = s.age ∧
    (State.nameCommit s).tap = s.tap ∧
    (State.nameCommit s).port.inForce = s.port.inForce := by
  unfold State.nameCommit
  and_intros <;>
    ((try simp) <;> (try (repeat' split)) <;> (try simp))

@[simp] theorem State.restoreReady_keeps (s : State) (island : Nat) (ok : Bool) :
    (State.restoreReady s island ok).pending = s.pending ∧
    (State.restoreReady s island ok).free = s.free ∧
    (State.restoreReady s island ok).power = s.power ∧
    (State.restoreReady s island ok).time = s.time ∧
    (State.restoreReady s island ok).fuses = s.fuses ∧
    (State.restoreReady s island ok).straps = s.straps ∧
    (State.restoreReady s island ok).port = s.port ∧
    (State.restoreReady s island ok).cw = s.cw ∧
    (State.restoreReady s island ok).spill = s.spill ∧
    (State.restoreReady s island ok).red = s.red ∧
    (State.restoreReady s island ok).prod = s.prod ∧
    (State.restoreReady s island ok).way = s.way ∧
    (State.restoreReady s island ok).fe = s.fe ∧
    (State.restoreReady s island ok).roads = s.roads ∧
    (State.restoreReady s island ok).up = s.up ∧
    (State.restoreReady s island ok).hs = s.hs ∧
    (State.restoreReady s island ok).tw = s.tw ∧
    (State.restoreReady s island ok).attn = s.attn ∧
    (State.restoreReady s island ok).locks = s.locks ∧
    (State.restoreReady s island ok).pin = s.pin ∧
    (State.restoreReady s island ok).age = s.age ∧
    (State.restoreReady s island ok).tap = s.tap := by
  unfold State.restoreReady
  and_intros <;>
    ((try simp) <;> (try (repeat' split)) <;> (try simp))

@[simp] theorem State.imageReady_keeps (s : State) (l : Load) (im : Image) (island : Nat) (ok : Bool) :
    (State.imageReady s l im island ok).pending = s.pending ∧
    (State.imageReady s l im island ok).free = s.free ∧
    (State.imageReady s l im island ok).time = s.time ∧
    (State.imageReady s l im island ok).fuses = s.fuses ∧
    (State.imageReady s l im island ok).straps = s.straps ∧
    (State.imageReady s l im island ok).spill = s.spill ∧
    (State.imageReady s l im island ok).red = s.red ∧
    (State.imageReady s l im island ok).mot = s.mot ∧
    (State.imageReady s l im island ok).prod = s.prod ∧
    (State.imageReady s l im island ok).fe = s.fe ∧
    (State.imageReady s l im island ok).up = s.up ∧
    (State.imageReady s l im island ok).hs = s.hs ∧
    (State.imageReady s l im island ok).tw = s.tw ∧
    (State.imageReady s l im island ok).attn = s.attn ∧
    (State.imageReady s l im island ok).locks = s.locks ∧
    (State.imageReady s l im island ok).pin = s.pin ∧
    (State.imageReady s l im island ok).age = s.age ∧
    (State.imageReady s l im island ok).tap = s.tap ∧
    (State.imageReady s l im island ok).port.inForce = s.port.inForce ∧
    (State.imageReady s l im island ok).power.mode = s.power.mode := by
  unfold State.imageReady
  and_intros <;>
    ((try simp) <;> (try (repeat' split)) <;> (try simp))

@[simp] theorem doIslandReady_keeps (island : Nat) (ok : Bool) (s : State) :
    (doIslandReady island ok s).pending = s.pending ∧
    (doIslandReady island ok s).free = s.free ∧
    (doIslandReady island ok s).time = s.time ∧
    (doIslandReady island ok s).fuses = s.fuses ∧
    (doIslandReady island ok s).straps = s.straps ∧
    (doIslandReady island ok s).spill = s.spill ∧
    (doIslandReady island ok s).red = s.red ∧
    (doIslandReady island ok s).prod = s.prod ∧
    (doIslandReady island ok s).fe = s.fe ∧
    (doIslandReady island ok s).up = s.up ∧
    (doIslandReady island ok s).hs = s.hs ∧
    (doIslandReady island ok s).tw = s.tw ∧
    (doIslandReady island ok s).attn = s.attn ∧
    (doIslandReady island ok s).locks = s.locks ∧
    (doIslandReady island ok s).pin = s.pin ∧
    (doIslandReady island ok s).age = s.age ∧
    (doIslandReady island ok s).tap = s.tap ∧
    (doIslandReady island ok s).port.inForce = s.port.inForce ∧
    (doIslandReady island ok s).power.mode = s.power.mode := by
  unfold doIslandReady
  and_intros <;>
    ((try simp) <;> (try (repeat' split)) <;> (try simp))

@[simp] theorem State.writeRolls_keeps (s : State) (l : List RollAcc) :
    (State.writeRolls s l).pending = s.pending ∧
    (State.writeRolls s l).free = s.free ∧
    (State.writeRolls s l).power = s.power ∧
    (State.writeRolls s l).time = s.time ∧
    (State.writeRolls s l).fuses = s.fuses ∧
    (State.writeRolls s l).straps = s.straps ∧
    (State.writeRolls s l).port = s.port ∧
    (State.writeRolls s l).spill = s.spill ∧
    (State.writeRolls s l).red = s.red ∧
    (State.writeRolls s l).mot = s.mot ∧
    (State.writeRolls s l).prod = s.prod ∧
    (State.writeRolls s l).fe = s.fe ∧
    (State.writeRolls s l).roads = s.roads ∧
    (State.writeRolls s l).up = s.up ∧
    (State.writeRolls s l).hs = s.hs ∧
    (State.writeRolls s l).tw = s.tw ∧
    (State.writeRolls s l).attn = s.attn ∧
    (State.writeRolls s l).clients = s.clients ∧
    (State.writeRolls s l).locks = s.locks ∧
    (State.writeRolls s l).pin = s.pin ∧
    (State.writeRolls s l).age = s.age ∧
    (State.writeRolls s l).tap = s.tap := by
  unfold State.writeRolls
  and_intros <;>
    ((try simp) <;> (try (repeat' split)) <;> (try simp))

@[simp] theorem State.rollOne_keeps (s : State) (p : Packet) :
    (State.rollOne s p).pending = s.pending ∧
    (State.rollOne s p).free = s.free ∧
    (State.rollOne s p).power = s.power ∧
    (State.rollOne s p).time = s.time ∧
    (State.rollOne s p).fuses = s.fuses ∧
    (State.rollOne s p).straps = s.straps ∧
    (State.rollOne s p).port = s.port ∧
    (State.rollOne s p).spill = s.spill ∧
    (State.rollOne s p).red = s.red ∧
    (State.rollOne s p).mot = s.mot ∧
    (State.rollOne s p).prod = s.prod ∧
    (State.rollOne s p).fe = s.fe ∧
    (State.rollOne s p).roads = s.roads ∧
    (State.rollOne s p).up = s.up ∧
    (State.rollOne s p).hs = s.hs ∧
    (State.rollOne s p).tw = s.tw ∧
    (State.rollOne s p).attn = s.attn ∧
    (State.rollOne s p).clients = s.clients ∧
    (State.rollOne s p).locks = s.locks ∧
    (State.rollOne s p).pin = s.pin ∧
    (State.rollOne s p).age = s.age ∧
    (State.rollOne s p).tap = s.tap := by
  unfold State.rollOne
  and_intros <;>
    ((try simp) <;> (try (repeat' split)) <;> (try simp))

@[simp] theorem flushRollsF_pending (n : Nat) (s : State) : (State.flushRollsF n s).pending = s.pending := by
  induction n generalizing s with
  | zero => rfl
  | succ n ih => unfold State.flushRollsF; split <;> simp [ih]


@[simp] theorem State_flushRolls_pending (s : State) : s.flushRolls.pending = s.pending := by
  unfold State.flushRolls; split <;> simp

@[simp] theorem flushRollsF_free (n : Nat) (s : State) : (State.flushRollsF n s).free = s.free := by
  induction n generalizing s with
  | zero => rfl
  | succ n ih => unfold State.flushRollsF; split <;> simp [ih]


@[simp] theorem State_flushRolls_free (s : State) : s.flushRolls.free = s.free := by
  unfold State.flushRolls; split <;> simp

@[simp] theorem flushRollsF_power (n : Nat) (s : State) : (State.flushRollsF n s).power = s.power := by
  induction n generalizing s with
  | zero => rfl
  | succ n ih => unfold State.flushRollsF; split <;> simp [ih]


@[simp] theorem State_flushRolls_power (s : State) : s.flushRolls.power = s.power := by
  unfold State.flushRolls; split <;> simp

@[simp] theorem flushRollsF_time (n : Nat) (s : State) : (State.flushRollsF n s).time = s.time := by
  induction n generalizing s with
  | zero => rfl
  | succ n ih => unfold State.flushRollsF; split <;> simp [ih]


@[simp] theorem State_flushRolls_time (s : State) : s.flushRolls.time = s.time := by
  unfold State.flushRolls; split <;> simp

@[simp] theorem flushRollsF_fuses (n : Nat) (s : State) : (State.flushRollsF n s).fuses = s.fuses := by
  induction n generalizing s with
  | zero => rfl
  | succ n ih => unfold State.flushRollsF; split <;> simp [ih]


@[simp] theorem State_flushRolls_fuses (s : State) : s.flushRolls.fuses = s.fuses := by
  unfold State.flushRolls; split <;> simp

@[simp] theorem flushRollsF_straps (n : Nat) (s : State) : (State.flushRollsF n s).straps = s.straps := by
  induction n generalizing s with
  | zero => rfl
  | succ n ih => unfold State.flushRollsF; split <;> simp [ih]


@[simp] theorem State_flushRolls_straps (s : State) : s.flushRolls.straps = s.straps := by
  unfold State.flushRolls; split <;> simp

@[simp] theorem flushRollsF_port (n : Nat) (s : State) : (State.flushRollsF n s).port = s.port := by
  induction n generalizing s with
  | zero => rfl
  | succ n ih => unfold State.flushRollsF; split <;> simp [ih]


@[simp] theorem State_flushRolls_port (s : State) : s.flushRolls.port = s.port := by
  unfold State.flushRolls; split <;> simp

@[simp] theorem flushRollsF_spill (n : Nat) (s : State) : (State.flushRollsF n s).spill = s.spill := by
  induction n generalizing s with
  | zero => rfl
  | succ n ih => unfold State.flushRollsF; split <;> simp [ih]


@[simp] theorem State_flushRolls_spill (s : State) : s.flushRolls.spill = s.spill := by
  unfold State.flushRolls; split <;> simp

@[simp] theorem flushRollsF_red (n : Nat) (s : State) : (State.flushRollsF n s).red = s.red := by
  induction n generalizing s with
  | zero => rfl
  | succ n ih => unfold State.flushRollsF; split <;> simp [ih]


@[simp] theorem State_flushRolls_red (s : State) : s.flushRolls.red = s.red := by
  unfold State.flushRolls; split <;> simp

@[simp] theorem flushRollsF_mot (n : Nat) (s : State) : (State.flushRollsF n s).mot = s.mot := by
  induction n generalizing s with
  | zero => rfl
  | succ n ih => unfold State.flushRollsF; split <;> simp [ih]


@[simp] theorem State_flushRolls_mot (s : State) : s.flushRolls.mot = s.mot := by
  unfold State.flushRolls; split <;> simp

@[simp] theorem flushRollsF_prod (n : Nat) (s : State) : (State.flushRollsF n s).prod = s.prod := by
  induction n generalizing s with
  | zero => rfl
  | succ n ih => unfold State.flushRollsF; split <;> simp [ih]


@[simp] theorem State_flushRolls_prod (s : State) : s.flushRolls.prod = s.prod := by
  unfold State.flushRolls; split <;> simp

@[simp] theorem flushRollsF_fe (n : Nat) (s : State) : (State.flushRollsF n s).fe = s.fe := by
  induction n generalizing s with
  | zero => rfl
  | succ n ih => unfold State.flushRollsF; split <;> simp [ih]


@[simp] theorem State_flushRolls_fe (s : State) : s.flushRolls.fe = s.fe := by
  unfold State.flushRolls; split <;> simp

@[simp] theorem flushRollsF_roads (n : Nat) (s : State) : (State.flushRollsF n s).roads = s.roads := by
  induction n generalizing s with
  | zero => rfl
  | succ n ih => unfold State.flushRollsF; split <;> simp [ih]


@[simp] theorem State_flushRolls_roads (s : State) : s.flushRolls.roads = s.roads := by
  unfold State.flushRolls; split <;> simp

@[simp] theorem flushRollsF_up (n : Nat) (s : State) : (State.flushRollsF n s).up = s.up := by
  induction n generalizing s with
  | zero => rfl
  | succ n ih => unfold State.flushRollsF; split <;> simp [ih]


@[simp] theorem State_flushRolls_up (s : State) : s.flushRolls.up = s.up := by
  unfold State.flushRolls; split <;> simp

@[simp] theorem flushRollsF_hs (n : Nat) (s : State) : (State.flushRollsF n s).hs = s.hs := by
  induction n generalizing s with
  | zero => rfl
  | succ n ih => unfold State.flushRollsF; split <;> simp [ih]


@[simp] theorem State_flushRolls_hs (s : State) : s.flushRolls.hs = s.hs := by
  unfold State.flushRolls; split <;> simp

@[simp] theorem flushRollsF_tw (n : Nat) (s : State) : (State.flushRollsF n s).tw = s.tw := by
  induction n generalizing s with
  | zero => rfl
  | succ n ih => unfold State.flushRollsF; split <;> simp [ih]


@[simp] theorem State_flushRolls_tw (s : State) : s.flushRolls.tw = s.tw := by
  unfold State.flushRolls; split <;> simp

@[simp] theorem flushRollsF_attn (n : Nat) (s : State) : (State.flushRollsF n s).attn = s.attn := by
  induction n generalizing s with
  | zero => rfl
  | succ n ih => unfold State.flushRollsF; split <;> simp [ih]


@[simp] theorem State_flushRolls_attn (s : State) : s.flushRolls.attn = s.attn := by
  unfold State.flushRolls; split <;> simp

@[simp] theorem flushRollsF_clients (n : Nat) (s : State) : (State.flushRollsF n s).clients = s.clients := by
  induction n generalizing s with
  | zero => rfl
  | succ n ih => unfold State.flushRollsF; split <;> simp [ih]


@[simp] theorem State_flushRolls_clients (s : State) : s.flushRolls.clients = s.clients := by
  unfold State.flushRolls; split <;> simp

@[simp] theorem flushRollsF_locks (n : Nat) (s : State) : (State.flushRollsF n s).locks = s.locks := by
  induction n generalizing s with
  | zero => rfl
  | succ n ih => unfold State.flushRollsF; split <;> simp [ih]


@[simp] theorem State_flushRolls_locks (s : State) : s.flushRolls.locks = s.locks := by
  unfold State.flushRolls; split <;> simp

@[simp] theorem flushRollsF_pin (n : Nat) (s : State) : (State.flushRollsF n s).pin = s.pin := by
  induction n generalizing s with
  | zero => rfl
  | succ n ih => unfold State.flushRollsF; split <;> simp [ih]


@[simp] theorem State_flushRolls_pin (s : State) : s.flushRolls.pin = s.pin := by
  unfold State.flushRolls; split <;> simp

@[simp] theorem flushRollsF_age (n : Nat) (s : State) : (State.flushRollsF n s).age = s.age := by
  induction n generalizing s with
  | zero => rfl
  | succ n ih => unfold State.flushRollsF; split <;> simp [ih]


@[simp] theorem State_flushRolls_age (s : State) : s.flushRolls.age = s.age := by
  unfold State.flushRolls; split <;> simp

@[simp] theorem flushRollsF_tap (n : Nat) (s : State) : (State.flushRollsF n s).tap = s.tap := by
  induction n generalizing s with
  | zero => rfl
  | succ n ih => unfold State.flushRollsF; split <;> simp [ih]


@[simp] theorem State_flushRolls_tap (s : State) : s.flushRolls.tap = s.tap := by
  unfold State.flushRolls; split <;> simp

@[simp] theorem State.settle_keeps (s : State) :
    (State.settle s).pending = s.pending ∧
    (State.settle s).free = s.free ∧
    (State.settle s).power = s.power ∧
    (State.settle s).time = s.time ∧
    (State.settle s).fuses = s.fuses ∧
    (State.settle s).straps = s.straps ∧
    (State.settle s).port = s.port ∧
    (State.settle s).spill = s.spill ∧
    (State.settle s).red = s.red ∧
    (State.settle s).mot = s.mot ∧
    (State.settle s).prod = s.prod ∧
    (State.settle s).fe = s.fe ∧
    (State.settle s).roads = s.roads ∧
    (State.settle s).up = s.up ∧
    (State.settle s).hs = s.hs ∧
    (State.settle s).tw = s.tw ∧
    (State.settle s).attn = s.attn ∧
    (State.settle s).clients = s.clients ∧
    (State.settle s).locks = s.locks ∧
    (State.settle s).pin = s.pin ∧
    (State.settle s).age = s.age ∧
    (State.settle s).tap = s.tap := by
  unfold State.settle
  and_intros <;>
    ((try simp) <;> (try (repeat' split)) <;> (try simp))

@[simp] theorem doPacketOpen_keeps (q : OpenReq) (s : State) :
    (doPacketOpen q s).pending = s.pending ∧
    (doPacketOpen q s).free = s.free ∧
    (doPacketOpen q s).power = s.power ∧
    (doPacketOpen q s).time = s.time ∧
    (doPacketOpen q s).fuses = s.fuses ∧
    (doPacketOpen q s).straps = s.straps ∧
    (doPacketOpen q s).port = s.port ∧
    (doPacketOpen q s).spill = s.spill ∧
    (doPacketOpen q s).red = s.red ∧
    (doPacketOpen q s).mot = s.mot ∧
    (doPacketOpen q s).prod = s.prod ∧
    (doPacketOpen q s).fe = s.fe ∧
    (doPacketOpen q s).roads = s.roads ∧
    (doPacketOpen q s).up = s.up ∧
    (doPacketOpen q s).hs = s.hs ∧
    (doPacketOpen q s).tw = s.tw ∧
    (doPacketOpen q s).attn = s.attn ∧
    (doPacketOpen q s).clients = s.clients ∧
    (doPacketOpen q s).locks = s.locks ∧
    (doPacketOpen q s).pin = s.pin ∧
    (doPacketOpen q s).age = s.age ∧
    (doPacketOpen q s).tap = s.tap := by
  unfold doPacketOpen
  and_intros <;>
    ((try simp) <;> (try (repeat' split)) <;> (try simp))

@[simp] theorem doPacketClose_keeps (tag : Word) (s : State) :
    (doPacketClose tag s).pending = s.pending ∧
    (doPacketClose tag s).free = s.free ∧
    (doPacketClose tag s).power = s.power ∧
    (doPacketClose tag s).time = s.time ∧
    (doPacketClose tag s).fuses = s.fuses ∧
    (doPacketClose tag s).straps = s.straps ∧
    (doPacketClose tag s).port = s.port ∧
    (doPacketClose tag s).spill = s.spill ∧
    (doPacketClose tag s).red = s.red ∧
    (doPacketClose tag s).mot = s.mot ∧
    (doPacketClose tag s).prod = s.prod ∧
    (doPacketClose tag s).fe = s.fe ∧
    (doPacketClose tag s).roads = s.roads ∧
    (doPacketClose tag s).up = s.up ∧
    (doPacketClose tag s).hs = s.hs ∧
    (doPacketClose tag s).tw = s.tw ∧
    (doPacketClose tag s).attn = s.attn ∧
    (doPacketClose tag s).clients = s.clients ∧
    (doPacketClose tag s).locks = s.locks ∧
    (doPacketClose tag s).pin = s.pin ∧
    (doPacketClose tag s).age = s.age ∧
    (doPacketClose tag s).tap = s.tap := by
  unfold doPacketClose
  and_intros <;>
    ((try simp) <;> (try (repeat' split)) <;> (try simp))

@[simp] theorem State.emptyBuffer_keeps (s : State) (r : Nat) :
    (State.emptyBuffer s r).pending = s.pending ∧
    (State.emptyBuffer s r).free = s.free ∧
    (State.emptyBuffer s r).power = s.power ∧
    (State.emptyBuffer s r).time = s.time ∧
    (State.emptyBuffer s r).fuses = s.fuses ∧
    (State.emptyBuffer s r).straps = s.straps ∧
    (State.emptyBuffer s r).port = s.port ∧
    (State.emptyBuffer s r).cw = s.cw ∧
    (State.emptyBuffer s r).spill = s.spill ∧
    (State.emptyBuffer s r).red = s.red ∧
    (State.emptyBuffer s r).mot = s.mot ∧
    (State.emptyBuffer s r).prod = s.prod ∧
    (State.emptyBuffer s r).way = s.way ∧
    (State.emptyBuffer s r).fe = s.fe ∧
    (State.emptyBuffer s r).roads = s.roads ∧
    (State.emptyBuffer s r).up = s.up ∧
    (State.emptyBuffer s r).attn = s.attn ∧
    (State.emptyBuffer s r).clients = s.clients ∧
    (State.emptyBuffer s r).locks = s.locks ∧
    (State.emptyBuffer s r).pin = s.pin ∧
    (State.emptyBuffer s r).age = s.age ∧
    (State.emptyBuffer s r).tap = s.tap := by
  unfold State.emptyBuffer
  and_intros <;>
    ((try simp) <;> (try (repeat' split)) <;> (try simp))

@[simp] theorem doRewindTakeEffect_keeps (r : Nat) (s : State) :
    (doRewindTakeEffect r s).pending = s.pending ∧
    (doRewindTakeEffect r s).free = s.free ∧
    (doRewindTakeEffect r s).power = s.power ∧
    (doRewindTakeEffect r s).time = s.time ∧
    (doRewindTakeEffect r s).fuses = s.fuses ∧
    (doRewindTakeEffect r s).straps = s.straps ∧
    (doRewindTakeEffect r s).port = s.port ∧
    (doRewindTakeEffect r s).spill = s.spill ∧
    (doRewindTakeEffect r s).red = s.red ∧
    (doRewindTakeEffect r s).mot = s.mot ∧
    (doRewindTakeEffect r s).prod = s.prod ∧
    (doRewindTakeEffect r s).way = s.way ∧
    (doRewindTakeEffect r s).fe = s.fe ∧
    (doRewindTakeEffect r s).roads = s.roads ∧
    (doRewindTakeEffect r s).attn = s.attn ∧
    (doRewindTakeEffect r s).locks = s.locks ∧
    (doRewindTakeEffect r s).pin = s.pin ∧
    (doRewindTakeEffect r s).age = s.age ∧
    (doRewindTakeEffect r s).tap = s.tap := by
  unfold doRewindTakeEffect
  and_intros <;>
    ((try simp) <;> (try (repeat' split)) <;> (try simp))

@[simp] theorem doFlushTakeEffect_keeps (r : Nat) (s : State) :
    (doFlushTakeEffect r s).pending = s.pending ∧
    (doFlushTakeEffect r s).free = s.free ∧
    (doFlushTakeEffect r s).power = s.power ∧
    (doFlushTakeEffect r s).time = s.time ∧
    (doFlushTakeEffect r s).fuses = s.fuses ∧
    (doFlushTakeEffect r s).straps = s.straps ∧
    (doFlushTakeEffect r s).port = s.port ∧
    (doFlushTakeEffect r s).spill = s.spill ∧
    (doFlushTakeEffect r s).red = s.red ∧
    (doFlushTakeEffect r s).mot = s.mot ∧
    (doFlushTakeEffect r s).prod = s.prod ∧
    (doFlushTakeEffect r s).way = s.way ∧
    (doFlushTakeEffect r s).fe = s.fe ∧
    (doFlushTakeEffect r s).roads = s.roads ∧
    (doFlushTakeEffect r s).up = s.up ∧
    (doFlushTakeEffect r s).attn = s.attn ∧
    (doFlushTakeEffect r s).locks = s.locks ∧
    (doFlushTakeEffect r s).pin = s.pin ∧
    (doFlushTakeEffect r s).age = s.age ∧
    (doFlushTakeEffect r s).tap = s.tap := by
  unfold doFlushTakeEffect
  and_intros <;>
    ((try simp) <;> (try (repeat' split)) <;> (try simp))

@[simp] theorem State.corrected_keeps (s : State) (bank : Nat) :
    (State.corrected s bank).pending = s.pending ∧
    (State.corrected s bank).free = s.free ∧
    (State.corrected s bank).power = s.power ∧
    (State.corrected s bank).time = s.time ∧
    (State.corrected s bank).fuses = s.fuses ∧
    (State.corrected s bank).straps = s.straps ∧
    (State.corrected s bank).port = s.port ∧
    (State.corrected s bank).spill = s.spill ∧
    (State.corrected s bank).red = s.red ∧
    (State.corrected s bank).mot = s.mot ∧
    (State.corrected s bank).prod = s.prod ∧
    (State.corrected s bank).way = s.way ∧
    (State.corrected s bank).fe = s.fe ∧
    (State.corrected s bank).roads = s.roads ∧
    (State.corrected s bank).up = s.up ∧
    (State.corrected s bank).hs = s.hs ∧
    (State.corrected s bank).tw = s.tw ∧
    (State.corrected s bank).attn = s.attn ∧
    (State.corrected s bank).clients = s.clients ∧
    (State.corrected s bank).locks = s.locks ∧
    (State.corrected s bank).pin = s.pin ∧
    (State.corrected s bank).tap = s.tap := by
  unfold State.corrected
  and_intros <;>
    ((try simp) <;> (try (repeat' split)) <;> (try simp))

@[simp] theorem State.lostLine_keeps (s : State) (line how : Nat) :
    (State.lostLine s line how).pending = s.pending ∧
    (State.lostLine s line how).free = s.free ∧
    (State.lostLine s line how).power = s.power ∧
    (State.lostLine s line how).time = s.time ∧
    (State.lostLine s line how).fuses = s.fuses ∧
    (State.lostLine s line how).straps = s.straps ∧
    (State.lostLine s line how).port = s.port ∧
    (State.lostLine s line how).spill = s.spill ∧
    (State.lostLine s line how).red = s.red ∧
    (State.lostLine s line how).mot = s.mot ∧
    (State.lostLine s line how).prod = s.prod ∧
    (State.lostLine s line how).fe = s.fe ∧
    (State.lostLine s line how).roads = s.roads ∧
    (State.lostLine s line how).up = s.up ∧
    (State.lostLine s line how).hs = s.hs ∧
    (State.lostLine s line how).tw = s.tw ∧
    (State.lostLine s line how).attn = s.attn ∧
    (State.lostLine s line how).clients = s.clients ∧
    (State.lostLine s line how).locks = s.locks ∧
    (State.lostLine s line how).pin = s.pin ∧
    (State.lostLine s line how).age = s.age ∧
    (State.lostLine s line how).tap = s.tap := by
  unfold State.lostLine
  and_intros <;>
    ((try simp) <;> (try (repeat' split)) <;> (try simp))

@[simp] theorem State.takeLine_keeps (s : State) :
    (State.takeLine s).2.pending = s.pending ∧
    (State.takeLine s).2.power = s.power ∧
    (State.takeLine s).2.time = s.time ∧
    (State.takeLine s).2.fuses = s.fuses ∧
    (State.takeLine s).2.straps = s.straps ∧
    (State.takeLine s).2.port = s.port ∧
    (State.takeLine s).2.cw = s.cw ∧
    (State.takeLine s).2.spill = s.spill ∧
    (State.takeLine s).2.red = s.red ∧
    (State.takeLine s).2.mot = s.mot ∧
    (State.takeLine s).2.prod = s.prod ∧
    (State.takeLine s).2.way = s.way ∧
    (State.takeLine s).2.fe = s.fe ∧
    (State.takeLine s).2.roads = s.roads ∧
    (State.takeLine s).2.up = s.up ∧
    (State.takeLine s).2.hs = s.hs ∧
    (State.takeLine s).2.tw = s.tw ∧
    (State.takeLine s).2.attn = s.attn ∧
    (State.takeLine s).2.clients = s.clients ∧
    (State.takeLine s).2.locks = s.locks ∧
    (State.takeLine s).2.pin = s.pin ∧
    (State.takeLine s).2.age = s.age ∧
    (State.takeLine s).2.tap = s.tap := by
  unfold State.takeLine
  and_intros <;>
    ((try simp) <;> (try (repeat' split)) <;> (try simp))

@[simp] theorem State.wrongLine_keeps (s : State) (line : Nat) :
    (State.wrongLine s line).pending = s.pending ∧
    (State.wrongLine s line).power = s.power ∧
    (State.wrongLine s line).time = s.time ∧
    (State.wrongLine s line).fuses = s.fuses ∧
    (State.wrongLine s line).straps = s.straps ∧
    (State.wrongLine s line).port = s.port ∧
    (State.wrongLine s line).spill = s.spill ∧
    (State.wrongLine s line).red = s.red ∧
    (State.wrongLine s line).mot = s.mot ∧
    (State.wrongLine s line).prod = s.prod ∧
    (State.wrongLine s line).way = s.way ∧
    (State.wrongLine s line).fe = s.fe ∧
    (State.wrongLine s line).roads = s.roads ∧
    (State.wrongLine s line).up = s.up ∧
    (State.wrongLine s line).hs = s.hs ∧
    (State.wrongLine s line).tw = s.tw ∧
    (State.wrongLine s line).attn = s.attn ∧
    (State.wrongLine s line).clients = s.clients ∧
    (State.wrongLine s line).locks = s.locks ∧
    (State.wrongLine s line).pin = s.pin ∧
    (State.wrongLine s line).age = s.age ∧
    (State.wrongLine s line).tap = s.tap := by
  unfold State.wrongLine
  and_intros <;>
    ((try simp) <;> (try (repeat' split)) <;> (try simp))

@[simp] theorem State.lostInSpill_keeps (s : State) (how : Nat) (on : Packet → Bool) (k : Nat) :
    (State.lostInSpill s how on k).pending = s.pending ∧
    (State.lostInSpill s how on k).power = s.power ∧
    (State.lostInSpill s how on k).time = s.time ∧
    (State.lostInSpill s how on k).fuses = s.fuses ∧
    (State.lostInSpill s how on k).straps = s.straps ∧
    (State.lostInSpill s how on k).port = s.port ∧
    (State.lostInSpill s how on k).spill = s.spill ∧
    (State.lostInSpill s how on k).red = s.red ∧
    (State.lostInSpill s how on k).mot = s.mot ∧
    (State.lostInSpill s how on k).prod = s.prod ∧
    (State.lostInSpill s how on k).fe = s.fe ∧
    (State.lostInSpill s how on k).roads = s.roads ∧
    (State.lostInSpill s how on k).up = s.up ∧
    (State.lostInSpill s how on k).hs = s.hs ∧
    (State.lostInSpill s how on k).tw = s.tw ∧
    (State.lostInSpill s how on k).attn = s.attn ∧
    (State.lostInSpill s how on k).clients = s.clients ∧
    (State.lostInSpill s how on k).locks = s.locks ∧
    (State.lostInSpill s how on k).pin = s.pin ∧
    (State.lostInSpill s how on k).age = s.age ∧
    (State.lostInSpill s how on k).tap = s.tap := by
  unfold State.lostInSpill
  and_intros <;>
    ((try simp) <;> (try (repeat' split)) <;> (try simp))

@[simp] theorem State.finding_keeps (s : State) (how : Nat) (sel : Nat → Packet → Bool) (f : LineFinding) :
    (State.finding s how sel f).pending = s.pending ∧
    (State.finding s how sel f).power = s.power ∧
    (State.finding s how sel f).time = s.time ∧
    (State.finding s how sel f).fuses = s.fuses ∧
    (State.finding s how sel f).straps = s.straps ∧
    (State.finding s how sel f).port = s.port ∧
    (State.finding s how sel f).spill = s.spill ∧
    (State.finding s how sel f).red = s.red ∧
    (State.finding s how sel f).mot = s.mot ∧
    (State.finding s how sel f).prod = s.prod ∧
    (State.finding s how sel f).fe = s.fe ∧
    (State.finding s how sel f).roads = s.roads ∧
    (State.finding s how sel f).up = s.up ∧
    (State.finding s how sel f).hs = s.hs ∧
    (State.finding s how sel f).tw = s.tw ∧
    (State.finding s how sel f).attn = s.attn ∧
    (State.finding s how sel f).clients = s.clients ∧
    (State.finding s how sel f).locks = s.locks ∧
    (State.finding s how sel f).pin = s.pin ∧
    (State.finding s how sel f).tap = s.tap := by
  unfold State.finding
  and_intros <;>
    ((try simp) <;> (try (repeat' split)) <;> (try simp))

@[simp] theorem State.findings_keeps (s : State) (how : Nat) (sel : Nat → Packet → Bool) (fs : List LineFinding) :
    (State.findings s how sel fs).pending = s.pending ∧
    (State.findings s how sel fs).power = s.power ∧
    (State.findings s how sel fs).time = s.time ∧
    (State.findings s how sel fs).fuses = s.fuses ∧
    (State.findings s how sel fs).straps = s.straps ∧
    (State.findings s how sel fs).port = s.port ∧
    (State.findings s how sel fs).spill = s.spill ∧
    (State.findings s how sel fs).red = s.red ∧
    (State.findings s how sel fs).mot = s.mot ∧
    (State.findings s how sel fs).prod = s.prod ∧
    (State.findings s how sel fs).fe = s.fe ∧
    (State.findings s how sel fs).roads = s.roads ∧
    (State.findings s how sel fs).up = s.up ∧
    (State.findings s how sel fs).hs = s.hs ∧
    (State.findings s how sel fs).tw = s.tw ∧
    (State.findings s how sel fs).attn = s.attn ∧
    (State.findings s how sel fs).clients = s.clients ∧
    (State.findings s how sel fs).locks = s.locks ∧
    (State.findings s how sel fs).pin = s.pin ∧
    (State.findings s how sel fs).tap = s.tap := by
  unfold State.findings
  and_intros <;>
    ((try simp) <;> (try (repeat' split)) <;> (try simp))

@[simp] theorem State.fetchSpill_keeps (s : State) (r : Nat) :
    (State.fetchSpill s r).pending = s.pending ∧
    (State.fetchSpill s r).free = s.free ∧
    (State.fetchSpill s r).power = s.power ∧
    (State.fetchSpill s r).time = s.time ∧
    (State.fetchSpill s r).fuses = s.fuses ∧
    (State.fetchSpill s r).straps = s.straps ∧
    (State.fetchSpill s r).port = s.port ∧
    (State.fetchSpill s r).cw = s.cw ∧
    (State.fetchSpill s r).red = s.red ∧
    (State.fetchSpill s r).mot = s.mot ∧
    (State.fetchSpill s r).prod = s.prod ∧
    (State.fetchSpill s r).way = s.way ∧
    (State.fetchSpill s r).fe = s.fe ∧
    (State.fetchSpill s r).roads = s.roads ∧
    (State.fetchSpill s r).up = s.up ∧
    (State.fetchSpill s r).hs = s.hs ∧
    (State.fetchSpill s r).tw = s.tw ∧
    (State.fetchSpill s r).attn = s.attn ∧
    (State.fetchSpill s r).clients = s.clients ∧
    (State.fetchSpill s r).locks = s.locks ∧
    (State.fetchSpill s r).pin = s.pin ∧
    (State.fetchSpill s r).age = s.age ∧
    (State.fetchSpill s r).tap = s.tap := by
  unfold State.fetchSpill
  and_intros <;>
    ((try simp) <;> (try (repeat' split)) <;> (try simp))

@[simp] theorem State.readFindings_keeps (s : State) (r : Nat) (fs : List LineFinding) :
    (State.readFindings s r fs).pending = s.pending ∧
    (State.readFindings s r fs).power = s.power ∧
    (State.readFindings s r fs).time = s.time ∧
    (State.readFindings s r fs).fuses = s.fuses ∧
    (State.readFindings s r fs).straps = s.straps ∧
    (State.readFindings s r fs).port = s.port ∧
    (State.readFindings s r fs).red = s.red ∧
    (State.readFindings s r fs).mot = s.mot ∧
    (State.readFindings s r fs).prod = s.prod ∧
    (State.readFindings s r fs).fe = s.fe ∧
    (State.readFindings s r fs).roads = s.roads ∧
    (State.readFindings s r fs).up = s.up ∧
    (State.readFindings s r fs).hs = s.hs ∧
    (State.readFindings s r fs).tw = s.tw ∧
    (State.readFindings s r fs).attn = s.attn ∧
    (State.readFindings s r fs).clients = s.clients ∧
    (State.readFindings s r fs).locks = s.locks ∧
    (State.readFindings s r fs).pin = s.pin ∧
    (State.readFindings s r fs).tap = s.tap := by
  unfold State.readFindings
  and_intros <;>
    ((try simp) <;> (try (repeat' split)) <;> (try simp))

@[simp] theorem State.retireBank_keeps (s : State) (bank st : Nat) :
    (State.retireBank s bank st).pending = s.pending ∧
    (State.retireBank s bank st).free = s.free ∧
    (State.retireBank s bank st).power = s.power ∧
    (State.retireBank s bank st).time = s.time ∧
    (State.retireBank s bank st).fuses = s.fuses ∧
    (State.retireBank s bank st).straps = s.straps ∧
    (State.retireBank s bank st).port = s.port ∧
    (State.retireBank s bank st).spill = s.spill ∧
    (State.retireBank s bank st).red = s.red ∧
    (State.retireBank s bank st).mot = s.mot ∧
    (State.retireBank s bank st).prod = s.prod ∧
    (State.retireBank s bank st).fe = s.fe ∧
    (State.retireBank s bank st).roads = s.roads ∧
    (State.retireBank s bank st).up = s.up ∧
    (State.retireBank s bank st).hs = s.hs ∧
    (State.retireBank s bank st).tw = s.tw ∧
    (State.retireBank s bank st).attn = s.attn ∧
    (State.retireBank s bank st).clients = s.clients ∧
    (State.retireBank s bank st).locks = s.locks ∧
    (State.retireBank s bank st).pin = s.pin ∧
    (State.retireBank s bank st).tap = s.tap := by
  unfold State.retireBank
  and_intros <;>
    ((try simp) <;> (try (repeat' split)) <;> (try simp))

@[simp] theorem State.retireDue_keeps (s : State) :
    (State.retireDue s).pending = s.pending ∧
    (State.retireDue s).free = s.free ∧
    (State.retireDue s).power = s.power ∧
    (State.retireDue s).time = s.time ∧
    (State.retireDue s).fuses = s.fuses ∧
    (State.retireDue s).straps = s.straps ∧
    (State.retireDue s).port = s.port ∧
    (State.retireDue s).spill = s.spill ∧
    (State.retireDue s).red = s.red ∧
    (State.retireDue s).mot = s.mot ∧
    (State.retireDue s).prod = s.prod ∧
    (State.retireDue s).fe = s.fe ∧
    (State.retireDue s).roads = s.roads ∧
    (State.retireDue s).up = s.up ∧
    (State.retireDue s).hs = s.hs ∧
    (State.retireDue s).tw = s.tw ∧
    (State.retireDue s).attn = s.attn ∧
    (State.retireDue s).clients = s.clients ∧
    (State.retireDue s).locks = s.locks ∧
    (State.retireDue s).pin = s.pin ∧
    (State.retireDue s).tap = s.tap := by
  unfold State.retireDue
  and_intros <;>
    ((try simp) <;> (try (repeat' split)) <;> (try simp))

@[simp] theorem doScrub_keeps (fs : List LineFinding) (s : State) :
    (doScrub fs s).pending = s.pending ∧
    (doScrub fs s).time = s.time ∧
    (doScrub fs s).fuses = s.fuses ∧
    (doScrub fs s).straps = s.straps ∧
    (doScrub fs s).port = s.port ∧
    (doScrub fs s).spill = s.spill ∧
    (doScrub fs s).red = s.red ∧
    (doScrub fs s).mot = s.mot ∧
    (doScrub fs s).prod = s.prod ∧
    (doScrub fs s).fe = s.fe ∧
    (doScrub fs s).roads = s.roads ∧
    (doScrub fs s).up = s.up ∧
    (doScrub fs s).hs = s.hs ∧
    (doScrub fs s).tw = s.tw ∧
    (doScrub fs s).attn = s.attn ∧
    (doScrub fs s).clients = s.clients ∧
    (doScrub fs s).locks = s.locks ∧
    (doScrub fs s).pin = s.pin ∧
    (doScrub fs s).tap = s.tap ∧
    (doScrub fs s).power.mode = s.power.mode := by
  unfold doScrub
  and_intros <;>
    ((try simp) <;> (try (repeat' split)) <;> (try simp))

@[simp] theorem State.resetReaders_keeps (s : State) (cause : Nat) (sel : Nat → Bool) :
    (State.resetReaders s cause sel).pending = s.pending ∧
    (State.resetReaders s cause sel).free = s.free ∧
    (State.resetReaders s cause sel).power = s.power ∧
    (State.resetReaders s cause sel).time = s.time ∧
    (State.resetReaders s cause sel).fuses = s.fuses ∧
    (State.resetReaders s cause sel).straps = s.straps ∧
    (State.resetReaders s cause sel).port = s.port ∧
    (State.resetReaders s cause sel).spill = s.spill ∧
    (State.resetReaders s cause sel).red = s.red ∧
    (State.resetReaders s cause sel).mot = s.mot ∧
    (State.resetReaders s cause sel).prod = s.prod ∧
    (State.resetReaders s cause sel).way = s.way ∧
    (State.resetReaders s cause sel).fe = s.fe ∧
    (State.resetReaders s cause sel).roads = s.roads ∧
    (State.resetReaders s cause sel).hs = s.hs ∧
    (State.resetReaders s cause sel).tw = s.tw ∧
    (State.resetReaders s cause sel).attn = s.attn ∧
    (State.resetReaders s cause sel).locks = s.locks ∧
    (State.resetReaders s cause sel).pin = s.pin ∧
    (State.resetReaders s cause sel).age = s.age ∧
    (State.resetReaders s cause sel).tap = s.tap := by
  unfold State.resetReaders
  and_intros <;>
    ((try simp) <;> (try (repeat' split)) <;> (try simp))

@[simp] theorem State.causewayReset_keeps (s : State) (cause : Nat) :
    (State.causewayReset s cause).pending = s.pending ∧
    (State.causewayReset s cause).free = s.free ∧
    (State.causewayReset s cause).power = s.power ∧
    (State.causewayReset s cause).time = s.time ∧
    (State.causewayReset s cause).fuses = s.fuses ∧
    (State.causewayReset s cause).straps = s.straps ∧
    (State.causewayReset s cause).port = s.port ∧
    (State.causewayReset s cause).spill = s.spill ∧
    (State.causewayReset s cause).red = s.red ∧
    (State.causewayReset s cause).mot = s.mot ∧
    (State.causewayReset s cause).prod = s.prod ∧
    (State.causewayReset s cause).fe = s.fe ∧
    (State.causewayReset s cause).roads = s.roads ∧
    (State.causewayReset s cause).hs = s.hs ∧
    (State.causewayReset s cause).tw = s.tw ∧
    (State.causewayReset s cause).attn = s.attn ∧
    (State.causewayReset s cause).locks = s.locks ∧
    (State.causewayReset s cause).pin = s.pin ∧
    (State.causewayReset s cause).age = s.age ∧
    (State.causewayReset s cause).tap = s.tap := by
  unfold State.causewayReset
  and_intros <;>
    ((try simp) <;> (try (repeat' split)) <;> (try simp))

@[simp] theorem State.ringReset_keeps (s : State) :
    (State.ringReset s).pending = s.pending ∧
    (State.ringReset s).free = s.free ∧
    (State.ringReset s).power = s.power ∧
    (State.ringReset s).time = s.time ∧
    (State.ringReset s).fuses = s.fuses ∧
    (State.ringReset s).straps = s.straps ∧
    (State.ringReset s).port = s.port ∧
    (State.ringReset s).spill = s.spill ∧
    (State.ringReset s).red = s.red ∧
    (State.ringReset s).mot = s.mot ∧
    (State.ringReset s).prod = s.prod ∧
    (State.ringReset s).way = s.way ∧
    (State.ringReset s).fe = s.fe ∧
    (State.ringReset s).roads = s.roads ∧
    (State.ringReset s).hs = s.hs ∧
    (State.ringReset s).tw = s.tw ∧
    (State.ringReset s).attn = s.attn ∧
    (State.ringReset s).locks = s.locks ∧
    (State.ringReset s).pin = s.pin ∧
    (State.ringReset s).age = s.age ∧
    (State.ringReset s).tap = s.tap := by
  unfold State.ringReset
  and_intros <;>
    ((try simp) <;> (try (repeat' split)) <;> (try simp))

@[simp] theorem State.cwPeriod_keeps (s : State) :
    (State.cwPeriod s).pending = s.pending ∧
    (State.cwPeriod s).free = s.free ∧
    (State.cwPeriod s).power = s.power ∧
    (State.cwPeriod s).time = s.time ∧
    (State.cwPeriod s).fuses = s.fuses ∧
    (State.cwPeriod s).straps = s.straps ∧
    (State.cwPeriod s).port = s.port ∧
    (State.cwPeriod s).spill = s.spill ∧
    (State.cwPeriod s).red = s.red ∧
    (State.cwPeriod s).mot = s.mot ∧
    (State.cwPeriod s).prod = s.prod ∧
    (State.cwPeriod s).fe = s.fe ∧
    (State.cwPeriod s).roads = s.roads ∧
    (State.cwPeriod s).up = s.up ∧
    (State.cwPeriod s).hs = s.hs ∧
    (State.cwPeriod s).tw = s.tw ∧
    (State.cwPeriod s).attn = s.attn ∧
    (State.cwPeriod s).clients = s.clients ∧
    (State.cwPeriod s).locks = s.locks ∧
    (State.cwPeriod s).pin = s.pin ∧
    (State.cwPeriod s).age = s.age ∧
    (State.cwPeriod s).tap = s.tap := by
  unfold State.cwPeriod
  and_intros <;>
    ((try simp) <;> (try (repeat' split)) <;> (try simp))

@[simp] theorem State.placeJobs_keeps (s : State) :
    (State.placeJobs s).pending = s.pending ∧
    (State.placeJobs s).free = s.free ∧
    (State.placeJobs s).power = s.power ∧
    (State.placeJobs s).time = s.time ∧
    (State.placeJobs s).fuses = s.fuses ∧
    (State.placeJobs s).straps = s.straps ∧
    (State.placeJobs s).port = s.port ∧
    (State.placeJobs s).cw = s.cw ∧
    (State.placeJobs s).spill = s.spill ∧
    (State.placeJobs s).mot = s.mot ∧
    (State.placeJobs s).prod = s.prod ∧
    (State.placeJobs s).way = s.way ∧
    (State.placeJobs s).fe = s.fe ∧
    (State.placeJobs s).roads = s.roads ∧
    (State.placeJobs s).up = s.up ∧
    (State.placeJobs s).hs = s.hs ∧
    (State.placeJobs s).tw = s.tw ∧
    (State.placeJobs s).attn = s.attn ∧
    (State.placeJobs s).clients = s.clients ∧
    (State.placeJobs s).locks = s.locks ∧
    (State.placeJobs s).pin = s.pin ∧
    (State.placeJobs s).age = s.age ∧
    (State.placeJobs s).tap = s.tap := by
  unfold State.placeJobs
  and_intros <;>
    ((try simp) <;> (try (repeat' split)) <;> (try simp))

@[simp] theorem State.dispatch_keeps (s : State) :
    (State.dispatch s).pending = s.pending ∧
    (State.dispatch s).free = s.free ∧
    (State.dispatch s).power = s.power ∧
    (State.dispatch s).time = s.time ∧
    (State.dispatch s).fuses = s.fuses ∧
    (State.dispatch s).straps = s.straps ∧
    (State.dispatch s).port = s.port ∧
    (State.dispatch s).cw = s.cw ∧
    (State.dispatch s).spill = s.spill ∧
    (State.dispatch s).mot = s.mot ∧
    (State.dispatch s).prod = s.prod ∧
    (State.dispatch s).way = s.way ∧
    (State.dispatch s).fe = s.fe ∧
    (State.dispatch s).roads = s.roads ∧
    (State.dispatch s).up = s.up ∧
    (State.dispatch s).hs = s.hs ∧
    (State.dispatch s).tw = s.tw ∧
    (State.dispatch s).attn = s.attn ∧
    (State.dispatch s).clients = s.clients ∧
    (State.dispatch s).locks = s.locks ∧
    (State.dispatch s).pin = s.pin ∧
    (State.dispatch s).age = s.age ∧
    (State.dispatch s).tap = s.tap := by
  unfold State.dispatch
  and_intros <;>
    ((try simp) <;> (try (repeat' split)) <;> (try simp))

@[simp] theorem doReductionRelease_keeps (job : Nat) (fs : List LineFinding) (s : State) :
    (doReductionRelease job fs s).pending = s.pending ∧
    (doReductionRelease job fs s).power = s.power ∧
    (doReductionRelease job fs s).time = s.time ∧
    (doReductionRelease job fs s).fuses = s.fuses ∧
    (doReductionRelease job fs s).straps = s.straps ∧
    (doReductionRelease job fs s).port = s.port ∧
    (doReductionRelease job fs s).spill = s.spill ∧
    (doReductionRelease job fs s).mot = s.mot ∧
    (doReductionRelease job fs s).prod = s.prod ∧
    (doReductionRelease job fs s).fe = s.fe ∧
    (doReductionRelease job fs s).roads = s.roads ∧
    (doReductionRelease job fs s).up = s.up ∧
    (doReductionRelease job fs s).hs = s.hs ∧
    (doReductionRelease job fs s).tw = s.tw ∧
    (doReductionRelease job fs s).attn = s.attn ∧
    (doReductionRelease job fs s).clients = s.clients ∧
    (doReductionRelease job fs s).locks = s.locks ∧
    (doReductionRelease job fs s).pin = s.pin ∧
    (doReductionRelease job fs s).tap = s.tap := by
  unfold doReductionRelease
  and_intros <;>
    ((try simp) <;> (try (repeat' split)) <;> (try simp))

@[simp] theorem doReductionComplete_keeps (job : Nat) (s : State) :
    (doReductionComplete job s).pending = s.pending ∧
    (doReductionComplete job s).free = s.free ∧
    (doReductionComplete job s).power = s.power ∧
    (doReductionComplete job s).time = s.time ∧
    (doReductionComplete job s).fuses = s.fuses ∧
    (doReductionComplete job s).straps = s.straps ∧
    (doReductionComplete job s).port = s.port ∧
    (doReductionComplete job s).spill = s.spill ∧
    (doReductionComplete job s).mot = s.mot ∧
    (doReductionComplete job s).prod = s.prod ∧
    (doReductionComplete job s).fe = s.fe ∧
    (doReductionComplete job s).roads = s.roads ∧
    (doReductionComplete job s).up = s.up ∧
    (doReductionComplete job s).hs = s.hs ∧
    (doReductionComplete job s).tw = s.tw ∧
    (doReductionComplete job s).attn = s.attn ∧
    (doReductionComplete job s).clients = s.clients ∧
    (doReductionComplete job s).locks = s.locks ∧
    (doReductionComplete job s).pin = s.pin ∧
    (doReductionComplete job s).age = s.age ∧
    (doReductionComplete job s).tap = s.tap := by
  unfold doReductionComplete
  and_intros <;>
    ((try simp) <;> (try (repeat' split)) <;> (try simp))

@[simp] theorem State.updateStages_keeps (s : State) :
    (State.updateStages s).pending = s.pending ∧
    (State.updateStages s).free = s.free ∧
    (State.updateStages s).power = s.power ∧
    (State.updateStages s).time = s.time ∧
    (State.updateStages s).fuses = s.fuses ∧
    (State.updateStages s).straps = s.straps ∧
    (State.updateStages s).port = s.port ∧
    (State.updateStages s).cw = s.cw ∧
    (State.updateStages s).red = s.red ∧
    (State.updateStages s).mot = s.mot ∧
    (State.updateStages s).prod = s.prod ∧
    (State.updateStages s).way = s.way ∧
    (State.updateStages s).fe = s.fe ∧
    (State.updateStages s).roads = s.roads ∧
    (State.updateStages s).up = s.up ∧
    (State.updateStages s).hs = s.hs ∧
    (State.updateStages s).tw = s.tw ∧
    (State.updateStages s).attn = s.attn ∧
    (State.updateStages s).clients = s.clients ∧
    (State.updateStages s).locks = s.locks ∧
    (State.updateStages s).pin = s.pin ∧
    (State.updateStages s).age = s.age ∧
    (State.updateStages s).tap = s.tap := by
  unfold State.updateStages
  and_intros <;>
    ((try simp) <;> (try (repeat' split)) <;> (try simp))

@[simp] theorem State.storeFull_keeps (s : State) (stage : Nat) :
    (State.storeFull s stage).pending = s.pending ∧
    (State.storeFull s stage).free = s.free ∧
    (State.storeFull s stage).power = s.power ∧
    (State.storeFull s stage).time = s.time ∧
    (State.storeFull s stage).fuses = s.fuses ∧
    (State.storeFull s stage).straps = s.straps ∧
    (State.storeFull s stage).port = s.port ∧
    (State.storeFull s stage).spill = s.spill ∧
    (State.storeFull s stage).red = s.red ∧
    (State.storeFull s stage).mot = s.mot ∧
    (State.storeFull s stage).prod = s.prod ∧
    (State.storeFull s stage).fe = s.fe ∧
    (State.storeFull s stage).roads = s.roads ∧
    (State.storeFull s stage).up = s.up ∧
    (State.storeFull s stage).hs = s.hs ∧
    (State.storeFull s stage).tw = s.tw ∧
    (State.storeFull s stage).attn = s.attn ∧
    (State.storeFull s stage).clients = s.clients ∧
    (State.storeFull s stage).locks = s.locks ∧
    (State.storeFull s stage).pin = s.pin ∧
    (State.storeFull s stage).age = s.age ∧
    (State.storeFull s stage).tap = s.tap := by
  unfold State.storeFull
  and_intros <;>
    ((try simp) <;> (try (repeat' split)) <;> (try simp))

@[simp] theorem State.afterFill_keeps (s : State) :
    (State.afterFill s).pending = s.pending ∧
    (State.afterFill s).free = s.free ∧
    (State.afterFill s).power = s.power ∧
    (State.afterFill s).time = s.time ∧
    (State.afterFill s).fuses = s.fuses ∧
    (State.afterFill s).straps = s.straps ∧
    (State.afterFill s).port = s.port ∧
    (State.afterFill s).red = s.red ∧
    (State.afterFill s).mot = s.mot ∧
    (State.afterFill s).prod = s.prod ∧
    (State.afterFill s).fe = s.fe ∧
    (State.afterFill s).roads = s.roads ∧
    (State.afterFill s).up = s.up ∧
    (State.afterFill s).hs = s.hs ∧
    (State.afterFill s).tw = s.tw ∧
    (State.afterFill s).attn = s.attn ∧
    (State.afterFill s).clients = s.clients ∧
    (State.afterFill s).locks = s.locks ∧
    (State.afterFill s).pin = s.pin ∧
    (State.afterFill s).age = s.age ∧
    (State.afterFill s).tap = s.tap := by
  unfold State.afterFill
  and_intros <;>
    ((try simp) <;> (try (repeat' split)) <;> (try simp))

@[simp] theorem doSpillPageCommit_keeps (stream : Nat) (fs : List LineFinding) (s : State) :
    (doSpillPageCommit stream fs s).pending = s.pending ∧
    (doSpillPageCommit stream fs s).power = s.power ∧
    (doSpillPageCommit stream fs s).time = s.time ∧
    (doSpillPageCommit stream fs s).fuses = s.fuses ∧
    (doSpillPageCommit stream fs s).straps = s.straps ∧
    (doSpillPageCommit stream fs s).port = s.port ∧
    (doSpillPageCommit stream fs s).red = s.red ∧
    (doSpillPageCommit stream fs s).mot = s.mot ∧
    (doSpillPageCommit stream fs s).prod = s.prod ∧
    (doSpillPageCommit stream fs s).fe = s.fe ∧
    (doSpillPageCommit stream fs s).roads = s.roads ∧
    (doSpillPageCommit stream fs s).up = s.up ∧
    (doSpillPageCommit stream fs s).hs = s.hs ∧
    (doSpillPageCommit stream fs s).tw = s.tw ∧
    (doSpillPageCommit stream fs s).attn = s.attn ∧
    (doSpillPageCommit stream fs s).clients = s.clients ∧
    (doSpillPageCommit stream fs s).locks = s.locks ∧
    (doSpillPageCommit stream fs s).pin = s.pin ∧
    (doSpillPageCommit stream fs s).tap = s.tap := by
  unfold doSpillPageCommit
  and_intros <;>
    ((try simp) <;> (try (repeat' split)) <;> (try simp))

@[simp] theorem State.freePages_keeps (s : State) (before : List Desc) :
    (State.freePages s before).pending = s.pending ∧
    (State.freePages s before).free = s.free ∧
    (State.freePages s before).power = s.power ∧
    (State.freePages s before).time = s.time ∧
    (State.freePages s before).fuses = s.fuses ∧
    (State.freePages s before).straps = s.straps ∧
    (State.freePages s before).port = s.port ∧
    (State.freePages s before).cw = s.cw ∧
    (State.freePages s before).red = s.red ∧
    (State.freePages s before).mot = s.mot ∧
    (State.freePages s before).prod = s.prod ∧
    (State.freePages s before).way = s.way ∧
    (State.freePages s before).fe = s.fe ∧
    (State.freePages s before).roads = s.roads ∧
    (State.freePages s before).up = s.up ∧
    (State.freePages s before).hs = s.hs ∧
    (State.freePages s before).tw = s.tw ∧
    (State.freePages s before).attn = s.attn ∧
    (State.freePages s before).clients = s.clients ∧
    (State.freePages s before).locks = s.locks ∧
    (State.freePages s before).pin = s.pin ∧
    (State.freePages s before).age = s.age ∧
    (State.freePages s before).tap = s.tap := by
  unfold State.freePages
  and_intros <;>
    ((try simp) <;> (try (repeat' split)) <;> (try simp))

@[simp] theorem doSpillRollup_keeps (s : State) :
    (doSpillRollup s).pending = s.pending ∧
    (doSpillRollup s).power = s.power ∧
    (doSpillRollup s).time = s.time ∧
    (doSpillRollup s).fuses = s.fuses ∧
    (doSpillRollup s).straps = s.straps ∧
    (doSpillRollup s).port = s.port ∧
    (doSpillRollup s).red = s.red ∧
    (doSpillRollup s).mot = s.mot ∧
    (doSpillRollup s).prod = s.prod ∧
    (doSpillRollup s).fe = s.fe ∧
    (doSpillRollup s).roads = s.roads ∧
    (doSpillRollup s).up = s.up ∧
    (doSpillRollup s).hs = s.hs ∧
    (doSpillRollup s).tw = s.tw ∧
    (doSpillRollup s).attn = s.attn ∧
    (doSpillRollup s).clients = s.clients ∧
    (doSpillRollup s).locks = s.locks ∧
    (doSpillRollup s).pin = s.pin ∧
    (doSpillRollup s).tap = s.tap := by
  unfold doSpillRollup
  and_intros <;>
    ((try simp) <;> (try (repeat' split)) <;> (try simp))

@[simp] theorem State.dropDevice_keeps (s : State) (dev cause : Nat) :
    (State.dropDevice s dev cause).pending = s.pending ∧
    (State.dropDevice s dev cause).free = s.free ∧
    (State.dropDevice s dev cause).power = s.power ∧
    (State.dropDevice s dev cause).time = s.time ∧
    (State.dropDevice s dev cause).fuses = s.fuses ∧
    (State.dropDevice s dev cause).straps = s.straps ∧
    (State.dropDevice s dev cause).port = s.port ∧
    (State.dropDevice s dev cause).red = s.red ∧
    (State.dropDevice s dev cause).mot = s.mot ∧
    (State.dropDevice s dev cause).prod = s.prod ∧
    (State.dropDevice s dev cause).fe = s.fe ∧
    (State.dropDevice s dev cause).roads = s.roads ∧
    (State.dropDevice s dev cause).up = s.up ∧
    (State.dropDevice s dev cause).hs = s.hs ∧
    (State.dropDevice s dev cause).tw = s.tw ∧
    (State.dropDevice s dev cause).attn = s.attn ∧
    (State.dropDevice s dev cause).clients = s.clients ∧
    (State.dropDevice s dev cause).locks = s.locks ∧
    (State.dropDevice s dev cause).pin = s.pin ∧
    (State.dropDevice s dev cause).age = s.age ∧
    (State.dropDevice s dev cause).tap = s.tap := by
  unfold State.dropDevice
  and_intros <;>
    ((try simp) <;> (try (repeat' split)) <;> (try simp))

@[simp] theorem doSpillDeviceFail_keeps (dev cause : Nat) (s : State) :
    (doSpillDeviceFail dev cause s).pending = s.pending ∧
    (doSpillDeviceFail dev cause s).free = s.free ∧
    (doSpillDeviceFail dev cause s).power = s.power ∧
    (doSpillDeviceFail dev cause s).time = s.time ∧
    (doSpillDeviceFail dev cause s).fuses = s.fuses ∧
    (doSpillDeviceFail dev cause s).straps = s.straps ∧
    (doSpillDeviceFail dev cause s).port = s.port ∧
    (doSpillDeviceFail dev cause s).red = s.red ∧
    (doSpillDeviceFail dev cause s).mot = s.mot ∧
    (doSpillDeviceFail dev cause s).prod = s.prod ∧
    (doSpillDeviceFail dev cause s).fe = s.fe ∧
    (doSpillDeviceFail dev cause s).roads = s.roads ∧
    (doSpillDeviceFail dev cause s).up = s.up ∧
    (doSpillDeviceFail dev cause s).hs = s.hs ∧
    (doSpillDeviceFail dev cause s).tw = s.tw ∧
    (doSpillDeviceFail dev cause s).attn = s.attn ∧
    (doSpillDeviceFail dev cause s).clients = s.clients ∧
    (doSpillDeviceFail dev cause s).locks = s.locks ∧
    (doSpillDeviceFail dev cause s).pin = s.pin ∧
    (doSpillDeviceFail dev cause s).age = s.age ∧
    (doSpillDeviceFail dev cause s).tap = s.tap := by
  unfold doSpillDeviceFail
  and_intros <;>
    ((try simp) <;> (try (repeat' split)) <;> (try simp))

@[simp] theorem State.findDevices_keeps (s : State) (devs : List SpillDev) :
    (State.findDevices s devs).pending = s.pending ∧
    (State.findDevices s devs).free = s.free ∧
    (State.findDevices s devs).power = s.power ∧
    (State.findDevices s devs).time = s.time ∧
    (State.findDevices s devs).fuses = s.fuses ∧
    (State.findDevices s devs).straps = s.straps ∧
    (State.findDevices s devs).port = s.port ∧
    (State.findDevices s devs).red = s.red ∧
    (State.findDevices s devs).mot = s.mot ∧
    (State.findDevices s devs).prod = s.prod ∧
    (State.findDevices s devs).fe = s.fe ∧
    (State.findDevices s devs).roads = s.roads ∧
    (State.findDevices s devs).up = s.up ∧
    (State.findDevices s devs).hs = s.hs ∧
    (State.findDevices s devs).tw = s.tw ∧
    (State.findDevices s devs).attn = s.attn ∧
    (State.findDevices s devs).clients = s.clients ∧
    (State.findDevices s devs).locks = s.locks ∧
    (State.findDevices s devs).pin = s.pin ∧
    (State.findDevices s devs).age = s.age ∧
    (State.findDevices s devs).tap = s.tap := by
  unfold State.findDevices
  and_intros <;>
    ((try simp) <;> (try (repeat' split)) <;> (try simp))

@[simp] theorem doSpillDiscoveryDone_keeps (devs : List SpillDev) (journal : List JournalEntry) (s : State) :
    (doSpillDiscoveryDone devs journal s).pending = s.pending ∧
    (doSpillDiscoveryDone devs journal s).free = s.free ∧
    (doSpillDiscoveryDone devs journal s).power = s.power ∧
    (doSpillDiscoveryDone devs journal s).time = s.time ∧
    (doSpillDiscoveryDone devs journal s).fuses = s.fuses ∧
    (doSpillDiscoveryDone devs journal s).straps = s.straps ∧
    (doSpillDiscoveryDone devs journal s).port = s.port ∧
    (doSpillDiscoveryDone devs journal s).red = s.red ∧
    (doSpillDiscoveryDone devs journal s).mot = s.mot ∧
    (doSpillDiscoveryDone devs journal s).prod = s.prod ∧
    (doSpillDiscoveryDone devs journal s).fe = s.fe ∧
    (doSpillDiscoveryDone devs journal s).roads = s.roads ∧
    (doSpillDiscoveryDone devs journal s).up = s.up ∧
    (doSpillDiscoveryDone devs journal s).hs = s.hs ∧
    (doSpillDiscoveryDone devs journal s).tw = s.tw ∧
    (doSpillDiscoveryDone devs journal s).attn = s.attn ∧
    (doSpillDiscoveryDone devs journal s).clients = s.clients ∧
    (doSpillDiscoveryDone devs journal s).locks = s.locks ∧
    (doSpillDiscoveryDone devs journal s).pin = s.pin ∧
    (doSpillDiscoveryDone devs journal s).age = s.age ∧
    (doSpillDiscoveryDone devs journal s).tap = s.tap := by
  unfold doSpillDiscoveryDone
  and_intros <;>
    ((try simp) <;> (try (repeat' split)) <;> (try simp))

@[simp] theorem State.takeMoves_keeps (s : State) :
    (State.takeMoves s).pending = s.pending ∧
    (State.takeMoves s).free = s.free ∧
    (State.takeMoves s).power = s.power ∧
    (State.takeMoves s).time = s.time ∧
    (State.takeMoves s).fuses = s.fuses ∧
    (State.takeMoves s).straps = s.straps ∧
    (State.takeMoves s).port = s.port ∧
    (State.takeMoves s).cw = s.cw ∧
    (State.takeMoves s).spill = s.spill ∧
    (State.takeMoves s).red = s.red ∧
    (State.takeMoves s).mot = s.mot ∧
    (State.takeMoves s).prod = s.prod ∧
    (State.takeMoves s).way = s.way ∧
    (State.takeMoves s).fe = s.fe ∧
    (State.takeMoves s).roads = s.roads ∧
    (State.takeMoves s).up = s.up ∧
    (State.takeMoves s).hs = s.hs ∧
    (State.takeMoves s).tw = s.tw ∧
    (State.takeMoves s).attn = s.attn ∧
    (State.takeMoves s).clients = s.clients ∧
    (State.takeMoves s).locks = s.locks ∧
    (State.takeMoves s).pin = s.pin ∧
    (State.takeMoves s).tap = s.tap := by
  unfold State.takeMoves
  and_intros <;>
    ((try simp) <;> (try (repeat' split)) <;> (try simp))

@[simp] theorem State.measureSlack_keeps (s : State) (slacks : List Nat) :
    (State.measureSlack s slacks).pending = s.pending ∧
    (State.measureSlack s slacks).free = s.free ∧
    (State.measureSlack s slacks).time = s.time ∧
    (State.measureSlack s slacks).fuses = s.fuses ∧
    (State.measureSlack s slacks).straps = s.straps ∧
    (State.measureSlack s slacks).port = s.port ∧
    (State.measureSlack s slacks).cw = s.cw ∧
    (State.measureSlack s slacks).spill = s.spill ∧
    (State.measureSlack s slacks).red = s.red ∧
    (State.measureSlack s slacks).mot = s.mot ∧
    (State.measureSlack s slacks).prod = s.prod ∧
    (State.measureSlack s slacks).way = s.way ∧
    (State.measureSlack s slacks).fe = s.fe ∧
    (State.measureSlack s slacks).roads = s.roads ∧
    (State.measureSlack s slacks).up = s.up ∧
    (State.measureSlack s slacks).hs = s.hs ∧
    (State.measureSlack s slacks).tw = s.tw ∧
    (State.measureSlack s slacks).attn = s.attn ∧
    (State.measureSlack s slacks).clients = s.clients ∧
    (State.measureSlack s slacks).locks = s.locks ∧
    (State.measureSlack s slacks).pin = s.pin ∧
    (State.measureSlack s slacks).tap = s.tap ∧
    (State.measureSlack s slacks).power.mode = s.power.mode := by
  unfold State.measureSlack
  and_intros <;>
    ((try simp) <;> (try (repeat' split)) <;> (try simp))

@[simp] theorem doSlackMeasurement_keeps (slacks : List Nat) (s : State) :
    (doSlackMeasurement slacks s).pending = s.pending ∧
    (doSlackMeasurement slacks s).free = s.free ∧
    (doSlackMeasurement slacks s).time = s.time ∧
    (doSlackMeasurement slacks s).fuses = s.fuses ∧
    (doSlackMeasurement slacks s).straps = s.straps ∧
    (doSlackMeasurement slacks s).port = s.port ∧
    (doSlackMeasurement slacks s).cw = s.cw ∧
    (doSlackMeasurement slacks s).spill = s.spill ∧
    (doSlackMeasurement slacks s).red = s.red ∧
    (doSlackMeasurement slacks s).mot = s.mot ∧
    (doSlackMeasurement slacks s).prod = s.prod ∧
    (doSlackMeasurement slacks s).way = s.way ∧
    (doSlackMeasurement slacks s).fe = s.fe ∧
    (doSlackMeasurement slacks s).roads = s.roads ∧
    (doSlackMeasurement slacks s).up = s.up ∧
    (doSlackMeasurement slacks s).hs = s.hs ∧
    (doSlackMeasurement slacks s).tw = s.tw ∧
    (doSlackMeasurement slacks s).attn = s.attn ∧
    (doSlackMeasurement slacks s).clients = s.clients ∧
    (doSlackMeasurement slacks s).locks = s.locks ∧
    (doSlackMeasurement slacks s).pin = s.pin ∧
    (doSlackMeasurement slacks s).tap = s.tap ∧
    (doSlackMeasurement slacks s).power.mode = s.power.mode := by
  unfold doSlackMeasurement
  and_intros <;>
    ((try simp) <;> (try (repeat' split)) <;> (try simp))

@[simp] theorem State.bankRet_keeps (s : State) (bank t : Nat) :
    (State.bankRet s bank t).pending = s.pending ∧
    (State.bankRet s bank t).free = s.free ∧
    (State.bankRet s bank t).power = s.power ∧
    (State.bankRet s bank t).time = s.time ∧
    (State.bankRet s bank t).fuses = s.fuses ∧
    (State.bankRet s bank t).straps = s.straps ∧
    (State.bankRet s bank t).port = s.port ∧
    (State.bankRet s bank t).spill = s.spill ∧
    (State.bankRet s bank t).red = s.red ∧
    (State.bankRet s bank t).mot = s.mot ∧
    (State.bankRet s bank t).prod = s.prod ∧
    (State.bankRet s bank t).fe = s.fe ∧
    (State.bankRet s bank t).roads = s.roads ∧
    (State.bankRet s bank t).up = s.up ∧
    (State.bankRet s bank t).hs = s.hs ∧
    (State.bankRet s bank t).tw = s.tw ∧
    (State.bankRet s bank t).attn = s.attn ∧
    (State.bankRet s bank t).clients = s.clients ∧
    (State.bankRet s bank t).locks = s.locks ∧
    (State.bankRet s bank t).pin = s.pin ∧
    (State.bankRet s bank t).tap = s.tap := by
  unfold State.bankRet
  and_intros <;>
    ((try simp) <;> (try (repeat' split)) <;> (try simp))

@[simp] theorem doRetentionTest_keeps (tret : List BankRet) (s : State) :
    (doRetentionTest tret s).pending = s.pending ∧
    (doRetentionTest tret s).free = s.free ∧
    (doRetentionTest tret s).power = s.power ∧
    (doRetentionTest tret s).time = s.time ∧
    (doRetentionTest tret s).fuses = s.fuses ∧
    (doRetentionTest tret s).straps = s.straps ∧
    (doRetentionTest tret s).port = s.port ∧
    (doRetentionTest tret s).spill = s.spill ∧
    (doRetentionTest tret s).red = s.red ∧
    (doRetentionTest tret s).mot = s.mot ∧
    (doRetentionTest tret s).prod = s.prod ∧
    (doRetentionTest tret s).fe = s.fe ∧
    (doRetentionTest tret s).roads = s.roads ∧
    (doRetentionTest tret s).up = s.up ∧
    (doRetentionTest tret s).hs = s.hs ∧
    (doRetentionTest tret s).tw = s.tw ∧
    (doRetentionTest tret s).attn = s.attn ∧
    (doRetentionTest tret s).clients = s.clients ∧
    (doRetentionTest tret s).locks = s.locks ∧
    (doRetentionTest tret s).pin = s.pin ∧
    (doRetentionTest tret s).tap = s.tap := by
  unfold doRetentionTest
  and_intros <;>
    ((try simp) <;> (try (repeat' split)) <;> (try simp))

@[simp] theorem doMemsResonanceTest_keeps (src : Nat) (resPpm : Int) (qTenths : Nat) (s : State) :
    (doMemsResonanceTest src resPpm qTenths s).pending = s.pending ∧
    (doMemsResonanceTest src resPpm qTenths s).free = s.free ∧
    (doMemsResonanceTest src resPpm qTenths s).power = s.power ∧
    (doMemsResonanceTest src resPpm qTenths s).time = s.time ∧
    (doMemsResonanceTest src resPpm qTenths s).fuses = s.fuses ∧
    (doMemsResonanceTest src resPpm qTenths s).straps = s.straps ∧
    (doMemsResonanceTest src resPpm qTenths s).port = s.port ∧
    (doMemsResonanceTest src resPpm qTenths s).cw = s.cw ∧
    (doMemsResonanceTest src resPpm qTenths s).spill = s.spill ∧
    (doMemsResonanceTest src resPpm qTenths s).red = s.red ∧
    (doMemsResonanceTest src resPpm qTenths s).prod = s.prod ∧
    (doMemsResonanceTest src resPpm qTenths s).way = s.way ∧
    (doMemsResonanceTest src resPpm qTenths s).fe = s.fe ∧
    (doMemsResonanceTest src resPpm qTenths s).roads = s.roads ∧
    (doMemsResonanceTest src resPpm qTenths s).up = s.up ∧
    (doMemsResonanceTest src resPpm qTenths s).hs = s.hs ∧
    (doMemsResonanceTest src resPpm qTenths s).tw = s.tw ∧
    (doMemsResonanceTest src resPpm qTenths s).attn = s.attn ∧
    (doMemsResonanceTest src resPpm qTenths s).clients = s.clients ∧
    (doMemsResonanceTest src resPpm qTenths s).locks = s.locks ∧
    (doMemsResonanceTest src resPpm qTenths s).pin = s.pin ∧
    (doMemsResonanceTest src resPpm qTenths s).age = s.age ∧
    (doMemsResonanceTest src resPpm qTenths s).tap = s.tap := by
  unfold doMemsResonanceTest
  and_intros <;>
    ((try simp) <;> (try (repeat' split)) <;> (try simp))

@[simp] theorem doLifeHour_keeps (meanCaseC dieMaxC : Int) (s : State) :
    (doLifeHour meanCaseC dieMaxC s).pending = s.pending ∧
    (doLifeHour meanCaseC dieMaxC s).free = s.free ∧
    (doLifeHour meanCaseC dieMaxC s).power = s.power ∧
    (doLifeHour meanCaseC dieMaxC s).time = s.time ∧
    (doLifeHour meanCaseC dieMaxC s).fuses = s.fuses ∧
    (doLifeHour meanCaseC dieMaxC s).straps = s.straps ∧
    (doLifeHour meanCaseC dieMaxC s).port = s.port ∧
    (doLifeHour meanCaseC dieMaxC s).cw = s.cw ∧
    (doLifeHour meanCaseC dieMaxC s).spill = s.spill ∧
    (doLifeHour meanCaseC dieMaxC s).red = s.red ∧
    (doLifeHour meanCaseC dieMaxC s).mot = s.mot ∧
    (doLifeHour meanCaseC dieMaxC s).prod = s.prod ∧
    (doLifeHour meanCaseC dieMaxC s).way = s.way ∧
    (doLifeHour meanCaseC dieMaxC s).fe = s.fe ∧
    (doLifeHour meanCaseC dieMaxC s).roads = s.roads ∧
    (doLifeHour meanCaseC dieMaxC s).up = s.up ∧
    (doLifeHour meanCaseC dieMaxC s).hs = s.hs ∧
    (doLifeHour meanCaseC dieMaxC s).tw = s.tw ∧
    (doLifeHour meanCaseC dieMaxC s).attn = s.attn ∧
    (doLifeHour meanCaseC dieMaxC s).clients = s.clients ∧
    (doLifeHour meanCaseC dieMaxC s).locks = s.locks ∧
    (doLifeHour meanCaseC dieMaxC s).pin = s.pin ∧
    (doLifeHour meanCaseC dieMaxC s).tap = s.tap := by
  unfold doLifeHour
  and_intros <;>
    ((try simp) <;> (try (repeat' split)) <;> (try simp))

@[simp] theorem doSpillPageReadback_keeps (dev : Nat) (symbols : List Nat) (eraseSlow : Bool) (eraseTime eraseCount : Nat) (s : State) :
    (doSpillPageReadback dev symbols eraseSlow eraseTime eraseCount s).pending = s.pending ∧
    (doSpillPageReadback dev symbols eraseSlow eraseTime eraseCount s).free = s.free ∧
    (doSpillPageReadback dev symbols eraseSlow eraseTime eraseCount s).power = s.power ∧
    (doSpillPageReadback dev symbols eraseSlow eraseTime eraseCount s).time = s.time ∧
    (doSpillPageReadback dev symbols eraseSlow eraseTime eraseCount s).fuses = s.fuses ∧
    (doSpillPageReadback dev symbols eraseSlow eraseTime eraseCount s).straps = s.straps ∧
    (doSpillPageReadback dev symbols eraseSlow eraseTime eraseCount s).port = s.port ∧
    (doSpillPageReadback dev symbols eraseSlow eraseTime eraseCount s).red = s.red ∧
    (doSpillPageReadback dev symbols eraseSlow eraseTime eraseCount s).mot = s.mot ∧
    (doSpillPageReadback dev symbols eraseSlow eraseTime eraseCount s).prod = s.prod ∧
    (doSpillPageReadback dev symbols eraseSlow eraseTime eraseCount s).fe = s.fe ∧
    (doSpillPageReadback dev symbols eraseSlow eraseTime eraseCount s).roads = s.roads ∧
    (doSpillPageReadback dev symbols eraseSlow eraseTime eraseCount s).up = s.up ∧
    (doSpillPageReadback dev symbols eraseSlow eraseTime eraseCount s).hs = s.hs ∧
    (doSpillPageReadback dev symbols eraseSlow eraseTime eraseCount s).tw = s.tw ∧
    (doSpillPageReadback dev symbols eraseSlow eraseTime eraseCount s).attn = s.attn ∧
    (doSpillPageReadback dev symbols eraseSlow eraseTime eraseCount s).clients = s.clients ∧
    (doSpillPageReadback dev symbols eraseSlow eraseTime eraseCount s).locks = s.locks ∧
    (doSpillPageReadback dev symbols eraseSlow eraseTime eraseCount s).pin = s.pin ∧
    (doSpillPageReadback dev symbols eraseSlow eraseTime eraseCount s).age = s.age ∧
    (doSpillPageReadback dev symbols eraseSlow eraseTime eraseCount s).tap = s.tap := by
  unfold doSpillPageReadback
  and_intros <;>
    ((try simp) <;> (try (repeat' split)) <;> (try simp))

@[simp] theorem State.onHost_keeps (s : State) (c : Nat) (f : Port → Port) :
    (State.onHost s c f).pending = s.pending ∧
    (State.onHost s c f).free = s.free ∧
    (State.onHost s c f).power = s.power ∧
    (State.onHost s c f).time = s.time ∧
    (State.onHost s c f).fuses = s.fuses ∧
    (State.onHost s c f).straps = s.straps ∧
    (State.onHost s c f).port = s.port ∧
    (State.onHost s c f).cw = s.cw ∧
    (State.onHost s c f).spill = s.spill ∧
    (State.onHost s c f).red = s.red ∧
    (State.onHost s c f).mot = s.mot ∧
    (State.onHost s c f).prod = s.prod ∧
    (State.onHost s c f).way = s.way ∧
    (State.onHost s c f).fe = s.fe ∧
    (State.onHost s c f).roads = s.roads ∧
    (State.onHost s c f).up = s.up ∧
    (State.onHost s c f).attn = s.attn ∧
    (State.onHost s c f).clients = s.clients ∧
    (State.onHost s c f).locks = s.locks ∧
    (State.onHost s c f).pin = s.pin ∧
    (State.onHost s c f).age = s.age ∧
    (State.onHost s c f).tap = s.tap := by
  unfold State.onHost
  and_intros <;>
    ((try simp) <;> (try (repeat' split)) <;> (try simp))

@[simp] theorem State.buildResponse_keeps (s : State) (c n : Nat) :
    (State.buildResponse s c n).pending = s.pending ∧
    (State.buildResponse s c n).free = s.free ∧
    (State.buildResponse s c n).power = s.power ∧
    (State.buildResponse s c n).time = s.time ∧
    (State.buildResponse s c n).fuses = s.fuses ∧
    (State.buildResponse s c n).straps = s.straps ∧
    (State.buildResponse s c n).port = s.port ∧
    (State.buildResponse s c n).cw = s.cw ∧
    (State.buildResponse s c n).spill = s.spill ∧
    (State.buildResponse s c n).red = s.red ∧
    (State.buildResponse s c n).mot = s.mot ∧
    (State.buildResponse s c n).prod = s.prod ∧
    (State.buildResponse s c n).way = s.way ∧
    (State.buildResponse s c n).fe = s.fe ∧
    (State.buildResponse s c n).roads = s.roads ∧
    (State.buildResponse s c n).up = s.up ∧
    (State.buildResponse s c n).attn = s.attn ∧
    (State.buildResponse s c n).clients = s.clients ∧
    (State.buildResponse s c n).locks = s.locks ∧
    (State.buildResponse s c n).pin = s.pin ∧
    (State.buildResponse s c n).age = s.age ∧
    (State.buildResponse s c n).tap = s.tap := by
  unfold State.buildResponse
  and_intros <;>
    ((try simp) <;> (try (repeat' split)) <;> (try simp))

@[simp] theorem State.takeResponse_keeps (s : State) (c k : Nat) :
    (State.takeResponse s c k).pending = s.pending ∧
    (State.takeResponse s c k).free = s.free ∧
    (State.takeResponse s c k).power = s.power ∧
    (State.takeResponse s c k).time = s.time ∧
    (State.takeResponse s c k).fuses = s.fuses ∧
    (State.takeResponse s c k).straps = s.straps ∧
    (State.takeResponse s c k).port = s.port ∧
    (State.takeResponse s c k).spill = s.spill ∧
    (State.takeResponse s c k).red = s.red ∧
    (State.takeResponse s c k).mot = s.mot ∧
    (State.takeResponse s c k).prod = s.prod ∧
    (State.takeResponse s c k).way = s.way ∧
    (State.takeResponse s c k).fe = s.fe ∧
    (State.takeResponse s c k).roads = s.roads ∧
    (State.takeResponse s c k).up = s.up ∧
    (State.takeResponse s c k).attn = s.attn ∧
    (State.takeResponse s c k).locks = s.locks ∧
    (State.takeResponse s c k).pin = s.pin ∧
    (State.takeResponse s c k).age = s.age ∧
    (State.takeResponse s c k).tap = s.tap := by
  unfold State.takeResponse
  and_intros <;>
    ((try simp) <;> (try (repeat' split)) <;> (try simp))

@[simp] theorem State.arrive_keeps (s : State) (c : Nat) (m : List Word) :
    (State.arrive s c m).pending = s.pending ∧
    (State.arrive s c m).free = s.free ∧
    (State.arrive s c m).power = s.power ∧
    (State.arrive s c m).time = s.time ∧
    (State.arrive s c m).fuses = s.fuses ∧
    (State.arrive s c m).straps = s.straps ∧
    (State.arrive s c m).port = s.port ∧
    (State.arrive s c m).cw = s.cw ∧
    (State.arrive s c m).spill = s.spill ∧
    (State.arrive s c m).red = s.red ∧
    (State.arrive s c m).mot = s.mot ∧
    (State.arrive s c m).prod = s.prod ∧
    (State.arrive s c m).way = s.way ∧
    (State.arrive s c m).fe = s.fe ∧
    (State.arrive s c m).roads = s.roads ∧
    (State.arrive s c m).up = s.up ∧
    (State.arrive s c m).hs = s.hs ∧
    (State.arrive s c m).tw = s.tw ∧
    (State.arrive s c m).attn = s.attn ∧
    (State.arrive s c m).locks = s.locks ∧
    (State.arrive s c m).pin = s.pin ∧
    (State.arrive s c m).age = s.age ∧
    (State.arrive s c m).tap = s.tap := by
  unfold State.arrive
  and_intros <;>
    ((try simp) <;> (try (repeat' split)) <;> (try simp))

@[simp] theorem State.takeFragment_keeps (s : State) (c frag n : Nat) (ws : List Word) :
    (State.takeFragment s c frag n ws).pending = s.pending ∧
    (State.takeFragment s c frag n ws).free = s.free ∧
    (State.takeFragment s c frag n ws).power = s.power ∧
    (State.takeFragment s c frag n ws).time = s.time ∧
    (State.takeFragment s c frag n ws).fuses = s.fuses ∧
    (State.takeFragment s c frag n ws).straps = s.straps ∧
    (State.takeFragment s c frag n ws).port = s.port ∧
    (State.takeFragment s c frag n ws).cw = s.cw ∧
    (State.takeFragment s c frag n ws).spill = s.spill ∧
    (State.takeFragment s c frag n ws).red = s.red ∧
    (State.takeFragment s c frag n ws).mot = s.mot ∧
    (State.takeFragment s c frag n ws).prod = s.prod ∧
    (State.takeFragment s c frag n ws).way = s.way ∧
    (State.takeFragment s c frag n ws).fe = s.fe ∧
    (State.takeFragment s c frag n ws).roads = s.roads ∧
    (State.takeFragment s c frag n ws).up = s.up ∧
    (State.takeFragment s c frag n ws).attn = s.attn ∧
    (State.takeFragment s c frag n ws).locks = s.locks ∧
    (State.takeFragment s c frag n ws).pin = s.pin ∧
    (State.takeFragment s c frag n ws).age = s.age ∧
    (State.takeFragment s c frag n ws).tap = s.tap := by
  unfold State.takeFragment
  and_intros <;>
    ((try simp) <;> (try (repeat' split)) <;> (try simp))

@[simp] theorem State.latch_keeps (s : State) (c : Nat) (req : List Word) :
    (State.latch s c req).pending = s.pending ∧
    (State.latch s c req).free = s.free ∧
    (State.latch s c req).power = s.power ∧
    (State.latch s c req).time = s.time ∧
    (State.latch s c req).fuses = s.fuses ∧
    (State.latch s c req).straps = s.straps ∧
    (State.latch s c req).port = s.port ∧
    (State.latch s c req).cw = s.cw ∧
    (State.latch s c req).spill = s.spill ∧
    (State.latch s c req).red = s.red ∧
    (State.latch s c req).mot = s.mot ∧
    (State.latch s c req).prod = s.prod ∧
    (State.latch s c req).way = s.way ∧
    (State.latch s c req).fe = s.fe ∧
    (State.latch s c req).roads = s.roads ∧
    (State.latch s c req).up = s.up ∧
    (State.latch s c req).attn = s.attn ∧
    (State.latch s c req).locks = s.locks ∧
    (State.latch s c req).pin = s.pin ∧
    (State.latch s c req).age = s.age ∧
    (State.latch s c req).tap = s.tap := by
  unfold State.latch
  and_intros <;>
    ((try simp) <;> (try (repeat' split)) <;> (try simp))

@[simp] theorem State.portRest_keeps (s : State) (c : Nat) :
    (State.portRest s c).pending = s.pending ∧
    (State.portRest s c).free = s.free ∧
    (State.portRest s c).power = s.power ∧
    (State.portRest s c).time = s.time ∧
    (State.portRest s c).fuses = s.fuses ∧
    (State.portRest s c).straps = s.straps ∧
    (State.portRest s c).port = s.port ∧
    (State.portRest s c).cw = s.cw ∧
    (State.portRest s c).spill = s.spill ∧
    (State.portRest s c).red = s.red ∧
    (State.portRest s c).mot = s.mot ∧
    (State.portRest s c).prod = s.prod ∧
    (State.portRest s c).way = s.way ∧
    (State.portRest s c).fe = s.fe ∧
    (State.portRest s c).roads = s.roads ∧
    (State.portRest s c).up = s.up ∧
    (State.portRest s c).attn = s.attn ∧
    (State.portRest s c).clients = s.clients ∧
    (State.portRest s c).locks = s.locks ∧
    (State.portRest s c).pin = s.pin ∧
    (State.portRest s c).age = s.age ∧
    (State.portRest s c).tap = s.tap := by
  unfold State.portRest
  and_intros <;>
    ((try simp) <;> (try (repeat' split)) <;> (try simp))

@[simp] theorem doHselFall_keeps (dt : Nat) (fs : List LineFinding) (s : State) :
    (doHselFall dt fs s).pending = s.pending ∧
    (doHselFall dt fs s).power = s.power ∧
    (doHselFall dt fs s).fuses = s.fuses ∧
    (doHselFall dt fs s).straps = s.straps ∧
    (doHselFall dt fs s).port = s.port ∧
    (doHselFall dt fs s).red = s.red ∧
    (doHselFall dt fs s).mot = s.mot ∧
    (doHselFall dt fs s).prod = s.prod ∧
    (doHselFall dt fs s).fe = s.fe ∧
    (doHselFall dt fs s).roads = s.roads ∧
    (doHselFall dt fs s).up = s.up ∧
    (doHselFall dt fs s).attn = s.attn ∧
    (doHselFall dt fs s).clients = s.clients ∧
    (doHselFall dt fs s).locks = s.locks ∧
    (doHselFall dt fs s).pin = s.pin ∧
    (doHselFall dt fs s).tap = s.tap ∧
    (doHselFall dt fs s).time.gRate = s.time.gRate ∧
    (doHselFall dt fs s).time.rates = s.time.rates ∧
    (doHselFall dt fs s).time.gIdx = s.time.gIdx := by
  unfold doHselFall
  and_intros <;>
    ((try simp) <;> (try (repeat' split)) <;> (try simp))

@[simp] theorem State.takeFrame_keeps (s : State) (req : List Word) :
    (State.takeFrame s req).pending = s.pending ∧
    (State.takeFrame s req).free = s.free ∧
    (State.takeFrame s req).power = s.power ∧
    (State.takeFrame s req).time = s.time ∧
    (State.takeFrame s req).fuses = s.fuses ∧
    (State.takeFrame s req).straps = s.straps ∧
    (State.takeFrame s req).port = s.port ∧
    (State.takeFrame s req).spill = s.spill ∧
    (State.takeFrame s req).red = s.red ∧
    (State.takeFrame s req).mot = s.mot ∧
    (State.takeFrame s req).prod = s.prod ∧
    (State.takeFrame s req).way = s.way ∧
    (State.takeFrame s req).fe = s.fe ∧
    (State.takeFrame s req).roads = s.roads ∧
    (State.takeFrame s req).up = s.up ∧
    (State.takeFrame s req).attn = s.attn ∧
    (State.takeFrame s req).locks = s.locks ∧
    (State.takeFrame s req).pin = s.pin ∧
    (State.takeFrame s req).age = s.age ∧
    (State.takeFrame s req).tap = s.tap := by
  unfold State.takeFrame
  and_intros <;>
    ((try simp) <;> (try (repeat' split)) <;> (try simp))

@[simp] theorem doHselRise_keeps (dt edges : Nat) (hsdi : List Bool) (s : State) :
    (doHselRise dt edges hsdi s).pending = s.pending ∧
    (doHselRise dt edges hsdi s).free = s.free ∧
    (doHselRise dt edges hsdi s).power = s.power ∧
    (doHselRise dt edges hsdi s).fuses = s.fuses ∧
    (doHselRise dt edges hsdi s).straps = s.straps ∧
    (doHselRise dt edges hsdi s).port = s.port ∧
    (doHselRise dt edges hsdi s).spill = s.spill ∧
    (doHselRise dt edges hsdi s).red = s.red ∧
    (doHselRise dt edges hsdi s).mot = s.mot ∧
    (doHselRise dt edges hsdi s).prod = s.prod ∧
    (doHselRise dt edges hsdi s).way = s.way ∧
    (doHselRise dt edges hsdi s).fe = s.fe ∧
    (doHselRise dt edges hsdi s).roads = s.roads ∧
    (doHselRise dt edges hsdi s).up = s.up ∧
    (doHselRise dt edges hsdi s).attn = s.attn ∧
    (doHselRise dt edges hsdi s).locks = s.locks ∧
    (doHselRise dt edges hsdi s).pin = s.pin ∧
    (doHselRise dt edges hsdi s).age = s.age ∧
    (doHselRise dt edges hsdi s).tap = s.tap ∧
    (doHselRise dt edges hsdi s).time.gRate = s.time.gRate ∧
    (doHselRise dt edges hsdi s).time.rates = s.time.rates ∧
    (doHselRise dt edges hsdi s).time.gIdx = s.time.gIdx := by
  unfold doHselRise
  and_intros <;>
    ((try simp) <;> (try (repeat' split)) <;> (try simp))

@[simp] theorem State.twEnded_keeps (s : State) :
    (State.twEnded s).pending = s.pending ∧
    (State.twEnded s).free = s.free ∧
    (State.twEnded s).time = s.time ∧
    (State.twEnded s).fuses = s.fuses ∧
    (State.twEnded s).straps = s.straps ∧
    (State.twEnded s).port = s.port ∧
    (State.twEnded s).cw = s.cw ∧
    (State.twEnded s).spill = s.spill ∧
    (State.twEnded s).red = s.red ∧
    (State.twEnded s).mot = s.mot ∧
    (State.twEnded s).prod = s.prod ∧
    (State.twEnded s).way = s.way ∧
    (State.twEnded s).fe = s.fe ∧
    (State.twEnded s).roads = s.roads ∧
    (State.twEnded s).up = s.up ∧
    (State.twEnded s).hs = s.hs ∧
    (State.twEnded s).tw = s.tw ∧
    (State.twEnded s).attn = s.attn ∧
    (State.twEnded s).clients = s.clients ∧
    (State.twEnded s).locks = s.locks ∧
    (State.twEnded s).pin = s.pin ∧
    (State.twEnded s).age = s.age ∧
    (State.twEnded s).tap = s.tap ∧
    (State.twEnded s).power.mode = s.power.mode := by
  unfold State.twEnded
  and_intros <;>
    ((try simp) <;> (try (repeat' split)) <;> (try simp))

@[simp] theorem State.discardTw_keeps (s : State) :
    (State.discardTw s).pending = s.pending ∧
    (State.discardTw s).free = s.free ∧
    (State.discardTw s).time = s.time ∧
    (State.discardTw s).fuses = s.fuses ∧
    (State.discardTw s).straps = s.straps ∧
    (State.discardTw s).port = s.port ∧
    (State.discardTw s).cw = s.cw ∧
    (State.discardTw s).spill = s.spill ∧
    (State.discardTw s).red = s.red ∧
    (State.discardTw s).mot = s.mot ∧
    (State.discardTw s).prod = s.prod ∧
    (State.discardTw s).way = s.way ∧
    (State.discardTw s).fe = s.fe ∧
    (State.discardTw s).roads = s.roads ∧
    (State.discardTw s).up = s.up ∧
    (State.discardTw s).attn = s.attn ∧
    (State.discardTw s).clients = s.clients ∧
    (State.discardTw s).locks = s.locks ∧
    (State.discardTw s).pin = s.pin ∧
    (State.discardTw s).age = s.age ∧
    (State.discardTw s).tap = s.tap ∧
    (State.discardTw s).power.mode = s.power.mode := by
  unfold State.discardTw
  and_intros <;>
    ((try simp) <;> (try (repeat' split)) <;> (try simp))

@[simp] theorem State.twStart_keeps (s : State) :
    (State.twStart s).pending = s.pending ∧
    (State.twStart s).free = s.free ∧
    (State.twStart s).time = s.time ∧
    (State.twStart s).fuses = s.fuses ∧
    (State.twStart s).straps = s.straps ∧
    (State.twStart s).port = s.port ∧
    (State.twStart s).cw = s.cw ∧
    (State.twStart s).spill = s.spill ∧
    (State.twStart s).red = s.red ∧
    (State.twStart s).mot = s.mot ∧
    (State.twStart s).prod = s.prod ∧
    (State.twStart s).way = s.way ∧
    (State.twStart s).fe = s.fe ∧
    (State.twStart s).roads = s.roads ∧
    (State.twStart s).up = s.up ∧
    (State.twStart s).attn = s.attn ∧
    (State.twStart s).clients = s.clients ∧
    (State.twStart s).locks = s.locks ∧
    (State.twStart s).pin = s.pin ∧
    (State.twStart s).age = s.age ∧
    (State.twStart s).tap = s.tap ∧
    (State.twStart s).power.mode = s.power.mode := by
  unfold State.twStart
  and_intros <;>
    ((try simp) <;> (try (repeat' split)) <;> (try simp))

@[simp] theorem doTwRead_keeps (dt : Nat) (addr : BitVec 7) (bytesRead : Nat) (ending : TwEnd) (fs : List LineFinding) (s : State) :
    (doTwRead dt addr bytesRead ending fs s).pending = s.pending ∧
    (doTwRead dt addr bytesRead ending fs s).fuses = s.fuses ∧
    (doTwRead dt addr bytesRead ending fs s).straps = s.straps ∧
    (doTwRead dt addr bytesRead ending fs s).port = s.port ∧
    (doTwRead dt addr bytesRead ending fs s).red = s.red ∧
    (doTwRead dt addr bytesRead ending fs s).mot = s.mot ∧
    (doTwRead dt addr bytesRead ending fs s).prod = s.prod ∧
    (doTwRead dt addr bytesRead ending fs s).fe = s.fe ∧
    (doTwRead dt addr bytesRead ending fs s).roads = s.roads ∧
    (doTwRead dt addr bytesRead ending fs s).up = s.up ∧
    (doTwRead dt addr bytesRead ending fs s).attn = s.attn ∧
    (doTwRead dt addr bytesRead ending fs s).clients = s.clients ∧
    (doTwRead dt addr bytesRead ending fs s).locks = s.locks ∧
    (doTwRead dt addr bytesRead ending fs s).pin = s.pin ∧
    (doTwRead dt addr bytesRead ending fs s).tap = s.tap ∧
    (doTwRead dt addr bytesRead ending fs s).power.mode = s.power.mode ∧
    (doTwRead dt addr bytesRead ending fs s).time.gRate = s.time.gRate ∧
    (doTwRead dt addr bytesRead ending fs s).time.rates = s.time.rates ∧
    (doTwRead dt addr bytesRead ending fs s).time.gIdx = s.time.gIdx := by
  unfold doTwRead
  and_intros <;>
    ((try simp) <;> (try (repeat' split)) <;> (try simp))

@[simp] theorem State.finishRead_keeps (s : State) :
    (State.finishRead s).pending = s.pending ∧
    (State.finishRead s).free = s.free ∧
    (State.finishRead s).time = s.time ∧
    (State.finishRead s).fuses = s.fuses ∧
    (State.finishRead s).straps = s.straps ∧
    (State.finishRead s).port = s.port ∧
    (State.finishRead s).spill = s.spill ∧
    (State.finishRead s).red = s.red ∧
    (State.finishRead s).mot = s.mot ∧
    (State.finishRead s).prod = s.prod ∧
    (State.finishRead s).way = s.way ∧
    (State.finishRead s).fe = s.fe ∧
    (State.finishRead s).roads = s.roads ∧
    (State.finishRead s).up = s.up ∧
    (State.finishRead s).attn = s.attn ∧
    (State.finishRead s).locks = s.locks ∧
    (State.finishRead s).pin = s.pin ∧
    (State.finishRead s).age = s.age ∧
    (State.finishRead s).tap = s.tap ∧
    (State.finishRead s).power.mode = s.power.mode := by
  unfold State.finishRead
  and_intros <;>
    ((try simp) <;> (try (repeat' split)) <;> (try simp))

@[simp] theorem doTwStretchEnd_keeps (dt : Nat) (s : State) :
    (doTwStretchEnd dt s).pending = s.pending ∧
    (doTwStretchEnd dt s).free = s.free ∧
    (doTwStretchEnd dt s).fuses = s.fuses ∧
    (doTwStretchEnd dt s).straps = s.straps ∧
    (doTwStretchEnd dt s).port = s.port ∧
    (doTwStretchEnd dt s).spill = s.spill ∧
    (doTwStretchEnd dt s).red = s.red ∧
    (doTwStretchEnd dt s).mot = s.mot ∧
    (doTwStretchEnd dt s).prod = s.prod ∧
    (doTwStretchEnd dt s).way = s.way ∧
    (doTwStretchEnd dt s).fe = s.fe ∧
    (doTwStretchEnd dt s).roads = s.roads ∧
    (doTwStretchEnd dt s).up = s.up ∧
    (doTwStretchEnd dt s).attn = s.attn ∧
    (doTwStretchEnd dt s).locks = s.locks ∧
    (doTwStretchEnd dt s).pin = s.pin ∧
    (doTwStretchEnd dt s).age = s.age ∧
    (doTwStretchEnd dt s).tap = s.tap ∧
    (doTwStretchEnd dt s).power.mode = s.power.mode ∧
    (doTwStretchEnd dt s).time.gRate = s.time.gRate ∧
    (doTwStretchEnd dt s).time.rates = s.time.rates ∧
    (doTwStretchEnd dt s).time.gIdx = s.time.gIdx := by
  unfold doTwStretchEnd
  and_intros <;>
    ((try simp) <;> (try (repeat' split)) <;> (try simp))

@[simp] theorem doTwWrite_keeps (dt : Nat) (addr : BitVec 7) (bytes : List Byte) (ending : TwEnd) (s : State) :
    (doTwWrite dt addr bytes ending s).pending = s.pending ∧
    (doTwWrite dt addr bytes ending s).free = s.free ∧
    (doTwWrite dt addr bytes ending s).fuses = s.fuses ∧
    (doTwWrite dt addr bytes ending s).straps = s.straps ∧
    (doTwWrite dt addr bytes ending s).port = s.port ∧
    (doTwWrite dt addr bytes ending s).cw = s.cw ∧
    (doTwWrite dt addr bytes ending s).spill = s.spill ∧
    (doTwWrite dt addr bytes ending s).red = s.red ∧
    (doTwWrite dt addr bytes ending s).mot = s.mot ∧
    (doTwWrite dt addr bytes ending s).prod = s.prod ∧
    (doTwWrite dt addr bytes ending s).way = s.way ∧
    (doTwWrite dt addr bytes ending s).fe = s.fe ∧
    (doTwWrite dt addr bytes ending s).roads = s.roads ∧
    (doTwWrite dt addr bytes ending s).up = s.up ∧
    (doTwWrite dt addr bytes ending s).attn = s.attn ∧
    (doTwWrite dt addr bytes ending s).locks = s.locks ∧
    (doTwWrite dt addr bytes ending s).pin = s.pin ∧
    (doTwWrite dt addr bytes ending s).age = s.age ∧
    (doTwWrite dt addr bytes ending s).tap = s.tap ∧
    (doTwWrite dt addr bytes ending s).power.mode = s.power.mode ∧
    (doTwWrite dt addr bytes ending s).time.gRate = s.time.gRate ∧
    (doTwWrite dt addr bytes ending s).time.rates = s.time.rates ∧
    (doTwWrite dt addr bytes ending s).time.gIdx = s.time.gIdx := by
  unfold doTwWrite
  and_intros <;>
    ((try simp) <;> (try (repeat' split)) <;> (try simp))

@[simp] theorem doTwRepeatedStart_keeps (s : State) :
    (doTwRepeatedStart s).pending = s.pending ∧
    (doTwRepeatedStart s).free = s.free ∧
    (doTwRepeatedStart s).time = s.time ∧
    (doTwRepeatedStart s).fuses = s.fuses ∧
    (doTwRepeatedStart s).straps = s.straps ∧
    (doTwRepeatedStart s).port = s.port ∧
    (doTwRepeatedStart s).cw = s.cw ∧
    (doTwRepeatedStart s).spill = s.spill ∧
    (doTwRepeatedStart s).red = s.red ∧
    (doTwRepeatedStart s).mot = s.mot ∧
    (doTwRepeatedStart s).prod = s.prod ∧
    (doTwRepeatedStart s).way = s.way ∧
    (doTwRepeatedStart s).fe = s.fe ∧
    (doTwRepeatedStart s).roads = s.roads ∧
    (doTwRepeatedStart s).up = s.up ∧
    (doTwRepeatedStart s).attn = s.attn ∧
    (doTwRepeatedStart s).clients = s.clients ∧
    (doTwRepeatedStart s).locks = s.locks ∧
    (doTwRepeatedStart s).pin = s.pin ∧
    (doTwRepeatedStart s).age = s.age ∧
    (doTwRepeatedStart s).tap = s.tap ∧
    (doTwRepeatedStart s).power.mode = s.power.mode := by
  unfold doTwRepeatedStart
  and_intros <;>
    ((try simp) <;> (try (repeat' split)) <;> (try simp))

@[simp] theorem doTwBusTimeout_keeps (dt : Nat) (s : State) :
    (doTwBusTimeout dt s).pending = s.pending ∧
    (doTwBusTimeout dt s).free = s.free ∧
    (doTwBusTimeout dt s).fuses = s.fuses ∧
    (doTwBusTimeout dt s).straps = s.straps ∧
    (doTwBusTimeout dt s).port = s.port ∧
    (doTwBusTimeout dt s).cw = s.cw ∧
    (doTwBusTimeout dt s).spill = s.spill ∧
    (doTwBusTimeout dt s).red = s.red ∧
    (doTwBusTimeout dt s).mot = s.mot ∧
    (doTwBusTimeout dt s).prod = s.prod ∧
    (doTwBusTimeout dt s).way = s.way ∧
    (doTwBusTimeout dt s).fe = s.fe ∧
    (doTwBusTimeout dt s).roads = s.roads ∧
    (doTwBusTimeout dt s).up = s.up ∧
    (doTwBusTimeout dt s).attn = s.attn ∧
    (doTwBusTimeout dt s).clients = s.clients ∧
    (doTwBusTimeout dt s).locks = s.locks ∧
    (doTwBusTimeout dt s).pin = s.pin ∧
    (doTwBusTimeout dt s).age = s.age ∧
    (doTwBusTimeout dt s).tap = s.tap ∧
    (doTwBusTimeout dt s).power.mode = s.power.mode ∧
    (doTwBusTimeout dt s).time.gRate = s.time.gRate ∧
    (doTwBusTimeout dt s).time.rates = s.time.rates ∧
    (doTwBusTimeout dt s).time.gIdx = s.time.gIdx := by
  unfold doTwBusTimeout
  and_intros <;>
    ((try simp) <;> (try (repeat' split)) <;> (try simp))

@[simp] theorem doFragmentTimeout_keeps (dt c : Nat) (s : State) :
    (doFragmentTimeout dt c s).pending = s.pending ∧
    (doFragmentTimeout dt c s).free = s.free ∧
    (doFragmentTimeout dt c s).power = s.power ∧
    (doFragmentTimeout dt c s).fuses = s.fuses ∧
    (doFragmentTimeout dt c s).straps = s.straps ∧
    (doFragmentTimeout dt c s).port = s.port ∧
    (doFragmentTimeout dt c s).cw = s.cw ∧
    (doFragmentTimeout dt c s).spill = s.spill ∧
    (doFragmentTimeout dt c s).red = s.red ∧
    (doFragmentTimeout dt c s).mot = s.mot ∧
    (doFragmentTimeout dt c s).prod = s.prod ∧
    (doFragmentTimeout dt c s).way = s.way ∧
    (doFragmentTimeout dt c s).fe = s.fe ∧
    (doFragmentTimeout dt c s).roads = s.roads ∧
    (doFragmentTimeout dt c s).up = s.up ∧
    (doFragmentTimeout dt c s).attn = s.attn ∧
    (doFragmentTimeout dt c s).clients = s.clients ∧
    (doFragmentTimeout dt c s).locks = s.locks ∧
    (doFragmentTimeout dt c s).pin = s.pin ∧
    (doFragmentTimeout dt c s).age = s.age ∧
    (doFragmentTimeout dt c s).tap = s.tap ∧
    (doFragmentTimeout dt c s).time.gRate = s.time.gRate ∧
    (doFragmentTimeout dt c s).time.rates = s.time.rates ∧
    (doFragmentTimeout dt c s).time.gIdx = s.time.gIdx := by
  unfold doFragmentTimeout
  and_intros <;>
    ((try simp) <;> (try (repeat' split)) <;> (try simp))

@[simp] theorem State.tryCall_keeps (s : State) (k : Call) (made : Nat) (out : CallOutcome) :
    (State.tryCall s k made out).pending = s.pending ∧
    (State.tryCall s k made out).free = s.free ∧
    (State.tryCall s k made out).power = s.power ∧
    (State.tryCall s k made out).time = s.time ∧
    (State.tryCall s k made out).fuses = s.fuses ∧
    (State.tryCall s k made out).straps = s.straps ∧
    (State.tryCall s k made out).port = s.port ∧
    (State.tryCall s k made out).cw = s.cw ∧
    (State.tryCall s k made out).spill = s.spill ∧
    (State.tryCall s k made out).red = s.red ∧
    (State.tryCall s k made out).mot = s.mot ∧
    (State.tryCall s k made out).prod = s.prod ∧
    (State.tryCall s k made out).way = s.way ∧
    (State.tryCall s k made out).fe = s.fe ∧
    (State.tryCall s k made out).roads = s.roads ∧
    (State.tryCall s k made out).up = s.up ∧
    (State.tryCall s k made out).clients = s.clients ∧
    (State.tryCall s k made out).locks = s.locks ∧
    (State.tryCall s k made out).pin = s.pin ∧
    (State.tryCall s k made out).age = s.age ∧
    (State.tryCall s k made out).tap = s.tap := by
  unfold State.tryCall
  and_intros <;>
    ((try simp) <;> (try (repeat' split)) <;> (try simp))

@[simp] theorem doAttentionCall_keeps (dt : Nat) (out : CallOutcome) (s : State) :
    (doAttentionCall dt out s).pending = s.pending ∧
    (doAttentionCall dt out s).free = s.free ∧
    (doAttentionCall dt out s).power = s.power ∧
    (doAttentionCall dt out s).fuses = s.fuses ∧
    (doAttentionCall dt out s).straps = s.straps ∧
    (doAttentionCall dt out s).port = s.port ∧
    (doAttentionCall dt out s).cw = s.cw ∧
    (doAttentionCall dt out s).spill = s.spill ∧
    (doAttentionCall dt out s).red = s.red ∧
    (doAttentionCall dt out s).mot = s.mot ∧
    (doAttentionCall dt out s).prod = s.prod ∧
    (doAttentionCall dt out s).way = s.way ∧
    (doAttentionCall dt out s).fe = s.fe ∧
    (doAttentionCall dt out s).roads = s.roads ∧
    (doAttentionCall dt out s).up = s.up ∧
    (doAttentionCall dt out s).clients = s.clients ∧
    (doAttentionCall dt out s).locks = s.locks ∧
    (doAttentionCall dt out s).pin = s.pin ∧
    (doAttentionCall dt out s).age = s.age ∧
    (doAttentionCall dt out s).tap = s.tap ∧
    (doAttentionCall dt out s).time.gRate = s.time.gRate ∧
    (doAttentionCall dt out s).time.rates = s.time.rates ∧
    (doAttentionCall dt out s).time.gIdx = s.time.gIdx := by
  unfold doAttentionCall
  and_intros <;>
    ((try simp) <;> (try (repeat' split)) <;> (try simp))

@[simp] theorem doAttnRetry_keeps (dt : Nat) (out : CallOutcome) (s : State) :
    (doAttnRetry dt out s).pending = s.pending ∧
    (doAttnRetry dt out s).free = s.free ∧
    (doAttnRetry dt out s).power = s.power ∧
    (doAttnRetry dt out s).fuses = s.fuses ∧
    (doAttnRetry dt out s).straps = s.straps ∧
    (doAttnRetry dt out s).port = s.port ∧
    (doAttnRetry dt out s).cw = s.cw ∧
    (doAttnRetry dt out s).spill = s.spill ∧
    (doAttnRetry dt out s).red = s.red ∧
    (doAttnRetry dt out s).mot = s.mot ∧
    (doAttnRetry dt out s).prod = s.prod ∧
    (doAttnRetry dt out s).way = s.way ∧
    (doAttnRetry dt out s).fe = s.fe ∧
    (doAttnRetry dt out s).roads = s.roads ∧
    (doAttnRetry dt out s).up = s.up ∧
    (doAttnRetry dt out s).clients = s.clients ∧
    (doAttnRetry dt out s).locks = s.locks ∧
    (doAttnRetry dt out s).pin = s.pin ∧
    (doAttnRetry dt out s).age = s.age ∧
    (doAttnRetry dt out s).tap = s.tap ∧
    (doAttnRetry dt out s).time.gRate = s.time.gRate ∧
    (doAttnRetry dt out s).time.rates = s.time.rates ∧
    (doAttnRetry dt out s).time.gIdx = s.time.gIdx := by
  unfold doAttnRetry
  and_intros <;>
    ((try simp) <;> (try (repeat' split)) <;> (try simp))

@[simp] theorem State.hostAtMark_keeps (s : State) :
    (State.hostAtMark s).pending = s.pending ∧
    (State.hostAtMark s).free = s.free ∧
    (State.hostAtMark s).power = s.power ∧
    (State.hostAtMark s).time = s.time ∧
    (State.hostAtMark s).fuses = s.fuses ∧
    (State.hostAtMark s).straps = s.straps ∧
    (State.hostAtMark s).port = s.port ∧
    (State.hostAtMark s).cw = s.cw ∧
    (State.hostAtMark s).spill = s.spill ∧
    (State.hostAtMark s).red = s.red ∧
    (State.hostAtMark s).mot = s.mot ∧
    (State.hostAtMark s).prod = s.prod ∧
    (State.hostAtMark s).way = s.way ∧
    (State.hostAtMark s).fe = s.fe ∧
    (State.hostAtMark s).roads = s.roads ∧
    (State.hostAtMark s).up = s.up ∧
    (State.hostAtMark s).clients = s.clients ∧
    (State.hostAtMark s).locks = s.locks ∧
    (State.hostAtMark s).pin = s.pin ∧
    (State.hostAtMark s).age = s.age ∧
    (State.hostAtMark s).tap = s.tap := by
  unfold State.hostAtMark
  and_intros <;>
    ((try simp) <;> (try (repeat' split)) <;> (try simp))

@[simp] theorem State.writeTime_keeps (s : State) (reason : Nat) :
    (State.writeTime s reason).pending = s.pending ∧
    (State.writeTime s reason).free = s.free ∧
    (State.writeTime s reason).power = s.power ∧
    (State.writeTime s reason).time = s.time ∧
    (State.writeTime s reason).fuses = s.fuses ∧
    (State.writeTime s reason).straps = s.straps ∧
    (State.writeTime s reason).port = s.port ∧
    (State.writeTime s reason).spill = s.spill ∧
    (State.writeTime s reason).red = s.red ∧
    (State.writeTime s reason).mot = s.mot ∧
    (State.writeTime s reason).prod = s.prod ∧
    (State.writeTime s reason).fe = s.fe ∧
    (State.writeTime s reason).roads = s.roads ∧
    (State.writeTime s reason).up = s.up ∧
    (State.writeTime s reason).hs = s.hs ∧
    (State.writeTime s reason).tw = s.tw ∧
    (State.writeTime s reason).attn = s.attn ∧
    (State.writeTime s reason).clients = s.clients ∧
    (State.writeTime s reason).locks = s.locks ∧
    (State.writeTime s reason).pin = s.pin ∧
    (State.writeTime s reason).age = s.age ∧
    (State.writeTime s reason).tap = s.tap := by
  unfold State.writeTime
  and_intros <;>
    ((try simp) <;> (try (repeat' split)) <;> (try simp))

@[simp] theorem State.onN_keeps (s : State) (x : Nat) (f : Ptp → Ptp) :
    (State.onN s x f).pending = s.pending ∧
    (State.onN s x f).free = s.free ∧
    (State.onN s x f).power = s.power ∧
    (State.onN s x f).fuses = s.fuses ∧
    (State.onN s x f).straps = s.straps ∧
    (State.onN s x f).port = s.port ∧
    (State.onN s x f).spill = s.spill ∧
    (State.onN s x f).red = s.red ∧
    (State.onN s x f).mot = s.mot ∧
    (State.onN s x f).prod = s.prod ∧
    (State.onN s x f).fe = s.fe ∧
    (State.onN s x f).roads = s.roads ∧
    (State.onN s x f).up = s.up ∧
    (State.onN s x f).hs = s.hs ∧
    (State.onN s x f).tw = s.tw ∧
    (State.onN s x f).attn = s.attn ∧
    (State.onN s x f).clients = s.clients ∧
    (State.onN s x f).locks = s.locks ∧
    (State.onN s x f).pin = s.pin ∧
    (State.onN s x f).age = s.age ∧
    (State.onN s x f).tap = s.tap ∧
    (State.onN s x f).time.gRate = s.time.gRate ∧
    (State.onN s x f).time.rates = s.time.rates ∧
    (State.onN s x f).time.gIdx = s.time.gIdx := by
  unfold State.onN
  and_intros <;>
    ((try simp) <;> (try (repeat' split)) <;> (try simp))

@[simp] theorem doPtpAnnounce_keeps (dt : Nat) (x : Fin 2) (m : Announce) (s : State) :
    (doPtpAnnounce dt x m s).pending = s.pending ∧
    (doPtpAnnounce dt x m s).free = s.free ∧
    (doPtpAnnounce dt x m s).power = s.power ∧
    (doPtpAnnounce dt x m s).fuses = s.fuses ∧
    (doPtpAnnounce dt x m s).straps = s.straps ∧
    (doPtpAnnounce dt x m s).port = s.port ∧
    (doPtpAnnounce dt x m s).spill = s.spill ∧
    (doPtpAnnounce dt x m s).red = s.red ∧
    (doPtpAnnounce dt x m s).mot = s.mot ∧
    (doPtpAnnounce dt x m s).prod = s.prod ∧
    (doPtpAnnounce dt x m s).fe = s.fe ∧
    (doPtpAnnounce dt x m s).roads = s.roads ∧
    (doPtpAnnounce dt x m s).up = s.up ∧
    (doPtpAnnounce dt x m s).hs = s.hs ∧
    (doPtpAnnounce dt x m s).tw = s.tw ∧
    (doPtpAnnounce dt x m s).attn = s.attn ∧
    (doPtpAnnounce dt x m s).clients = s.clients ∧
    (doPtpAnnounce dt x m s).locks = s.locks ∧
    (doPtpAnnounce dt x m s).pin = s.pin ∧
    (doPtpAnnounce dt x m s).age = s.age ∧
    (doPtpAnnounce dt x m s).tap = s.tap ∧
    (doPtpAnnounce dt x m s).time.gRate = s.time.gRate ∧
    (doPtpAnnounce dt x m s).time.rates = s.time.rates ∧
    (doPtpAnnounce dt x m s).time.gIdx = s.time.gIdx := by
  unfold doPtpAnnounce
  and_intros <;>
    ((try simp) <;> (try (repeat' split)) <;> (try simp))

@[simp] theorem State.measureN_keeps (s : State) (x : Nat) (f : Ptp → Ptp) (msDiff : Int) :
    (State.measureN s x f msDiff).pending = s.pending ∧
    (State.measureN s x f msDiff).free = s.free ∧
    (State.measureN s x f msDiff).power = s.power ∧
    (State.measureN s x f msDiff).fuses = s.fuses ∧
    (State.measureN s x f msDiff).straps = s.straps ∧
    (State.measureN s x f msDiff).port = s.port ∧
    (State.measureN s x f msDiff).spill = s.spill ∧
    (State.measureN s x f msDiff).red = s.red ∧
    (State.measureN s x f msDiff).mot = s.mot ∧
    (State.measureN s x f msDiff).prod = s.prod ∧
    (State.measureN s x f msDiff).fe = s.fe ∧
    (State.measureN s x f msDiff).roads = s.roads ∧
    (State.measureN s x f msDiff).up = s.up ∧
    (State.measureN s x f msDiff).hs = s.hs ∧
    (State.measureN s x f msDiff).tw = s.tw ∧
    (State.measureN s x f msDiff).attn = s.attn ∧
    (State.measureN s x f msDiff).clients = s.clients ∧
    (State.measureN s x f msDiff).locks = s.locks ∧
    (State.measureN s x f msDiff).pin = s.pin ∧
    (State.measureN s x f msDiff).age = s.age ∧
    (State.measureN s x f msDiff).tap = s.tap := by
  unfold State.measureN
  and_intros <;>
    ((try simp) <;> (try (repeat' split)) <;> (try simp))

@[simp] theorem doPtpSync_keeps (dt : Nat) (x : Fin 2) (m : SyncMsg) (s : State) :
    (doPtpSync dt x m s).pending = s.pending ∧
    (doPtpSync dt x m s).free = s.free ∧
    (doPtpSync dt x m s).power = s.power ∧
    (doPtpSync dt x m s).fuses = s.fuses ∧
    (doPtpSync dt x m s).straps = s.straps ∧
    (doPtpSync dt x m s).port = s.port ∧
    (doPtpSync dt x m s).spill = s.spill ∧
    (doPtpSync dt x m s).red = s.red ∧
    (doPtpSync dt x m s).mot = s.mot ∧
    (doPtpSync dt x m s).prod = s.prod ∧
    (doPtpSync dt x m s).fe = s.fe ∧
    (doPtpSync dt x m s).roads = s.roads ∧
    (doPtpSync dt x m s).up = s.up ∧
    (doPtpSync dt x m s).hs = s.hs ∧
    (doPtpSync dt x m s).tw = s.tw ∧
    (doPtpSync dt x m s).attn = s.attn ∧
    (doPtpSync dt x m s).clients = s.clients ∧
    (doPtpSync dt x m s).locks = s.locks ∧
    (doPtpSync dt x m s).pin = s.pin ∧
    (doPtpSync dt x m s).age = s.age ∧
    (doPtpSync dt x m s).tap = s.tap := by
  unfold doPtpSync
  and_intros <;>
    ((try simp) <;> (try (repeat' split)) <;> (try simp))

@[simp] theorem doPtpFollowUp_keeps (dt : Nat) (x : Fin 2) (m : SyncMsg) (s : State) :
    (doPtpFollowUp dt x m s).pending = s.pending ∧
    (doPtpFollowUp dt x m s).free = s.free ∧
    (doPtpFollowUp dt x m s).power = s.power ∧
    (doPtpFollowUp dt x m s).fuses = s.fuses ∧
    (doPtpFollowUp dt x m s).straps = s.straps ∧
    (doPtpFollowUp dt x m s).port = s.port ∧
    (doPtpFollowUp dt x m s).spill = s.spill ∧
    (doPtpFollowUp dt x m s).red = s.red ∧
    (doPtpFollowUp dt x m s).mot = s.mot ∧
    (doPtpFollowUp dt x m s).prod = s.prod ∧
    (doPtpFollowUp dt x m s).fe = s.fe ∧
    (doPtpFollowUp dt x m s).roads = s.roads ∧
    (doPtpFollowUp dt x m s).up = s.up ∧
    (doPtpFollowUp dt x m s).hs = s.hs ∧
    (doPtpFollowUp dt x m s).tw = s.tw ∧
    (doPtpFollowUp dt x m s).attn = s.attn ∧
    (doPtpFollowUp dt x m s).clients = s.clients ∧
    (doPtpFollowUp dt x m s).locks = s.locks ∧
    (doPtpFollowUp dt x m s).pin = s.pin ∧
    (doPtpFollowUp dt x m s).age = s.age ∧
    (doPtpFollowUp dt x m s).tap = s.tap := by
  unfold doPtpFollowUp
  and_intros <;>
    ((try simp) <;> (try (repeat' split)) <;> (try simp))

@[simp] theorem doPtpDelayResp_keeps (port x : Fin 2) (sender : PortId) (seq : BitVec 16) (t4 : Nat) (corr : Int) (iv : Int) (s : State) :
    (doPtpDelayResp port x sender seq t4 corr iv s).pending = s.pending ∧
    (doPtpDelayResp port x sender seq t4 corr iv s).free = s.free ∧
    (doPtpDelayResp port x sender seq t4 corr iv s).power = s.power ∧
    (doPtpDelayResp port x sender seq t4 corr iv s).fuses = s.fuses ∧
    (doPtpDelayResp port x sender seq t4 corr iv s).straps = s.straps ∧
    (doPtpDelayResp port x sender seq t4 corr iv s).port = s.port ∧
    (doPtpDelayResp port x sender seq t4 corr iv s).spill = s.spill ∧
    (doPtpDelayResp port x sender seq t4 corr iv s).red = s.red ∧
    (doPtpDelayResp port x sender seq t4 corr iv s).mot = s.mot ∧
    (doPtpDelayResp port x sender seq t4 corr iv s).prod = s.prod ∧
    (doPtpDelayResp port x sender seq t4 corr iv s).fe = s.fe ∧
    (doPtpDelayResp port x sender seq t4 corr iv s).roads = s.roads ∧
    (doPtpDelayResp port x sender seq t4 corr iv s).up = s.up ∧
    (doPtpDelayResp port x sender seq t4 corr iv s).hs = s.hs ∧
    (doPtpDelayResp port x sender seq t4 corr iv s).tw = s.tw ∧
    (doPtpDelayResp port x sender seq t4 corr iv s).attn = s.attn ∧
    (doPtpDelayResp port x sender seq t4 corr iv s).clients = s.clients ∧
    (doPtpDelayResp port x sender seq t4 corr iv s).locks = s.locks ∧
    (doPtpDelayResp port x sender seq t4 corr iv s).pin = s.pin ∧
    (doPtpDelayResp port x sender seq t4 corr iv s).age = s.age ∧
    (doPtpDelayResp port x sender seq t4 corr iv s).tap = s.tap ∧
    (doPtpDelayResp port x sender seq t4 corr iv s).time.gRate = s.time.gRate ∧
    (doPtpDelayResp port x sender seq t4 corr iv s).time.rates = s.time.rates ∧
    (doPtpDelayResp port x sender seq t4 corr iv s).time.gIdx = s.time.gIdx := by
  unfold doPtpDelayResp
  and_intros <;>
    ((try simp) <;> (try (repeat' split)) <;> (try simp))

@[simp] theorem doAnnounceReceiptTimeout_keeps (dt : Nat) (x : Fin 2) (s : State) :
    (doAnnounceReceiptTimeout dt x s).pending = s.pending ∧
    (doAnnounceReceiptTimeout dt x s).free = s.free ∧
    (doAnnounceReceiptTimeout dt x s).power = s.power ∧
    (doAnnounceReceiptTimeout dt x s).fuses = s.fuses ∧
    (doAnnounceReceiptTimeout dt x s).straps = s.straps ∧
    (doAnnounceReceiptTimeout dt x s).port = s.port ∧
    (doAnnounceReceiptTimeout dt x s).spill = s.spill ∧
    (doAnnounceReceiptTimeout dt x s).red = s.red ∧
    (doAnnounceReceiptTimeout dt x s).mot = s.mot ∧
    (doAnnounceReceiptTimeout dt x s).prod = s.prod ∧
    (doAnnounceReceiptTimeout dt x s).fe = s.fe ∧
    (doAnnounceReceiptTimeout dt x s).roads = s.roads ∧
    (doAnnounceReceiptTimeout dt x s).up = s.up ∧
    (doAnnounceReceiptTimeout dt x s).hs = s.hs ∧
    (doAnnounceReceiptTimeout dt x s).tw = s.tw ∧
    (doAnnounceReceiptTimeout dt x s).attn = s.attn ∧
    (doAnnounceReceiptTimeout dt x s).clients = s.clients ∧
    (doAnnounceReceiptTimeout dt x s).locks = s.locks ∧
    (doAnnounceReceiptTimeout dt x s).pin = s.pin ∧
    (doAnnounceReceiptTimeout dt x s).age = s.age ∧
    (doAnnounceReceiptTimeout dt x s).tap = s.tap ∧
    (doAnnounceReceiptTimeout dt x s).time.gRate = s.time.gRate ∧
    (doAnnounceReceiptTimeout dt x s).time.rates = s.time.rates ∧
    (doAnnounceReceiptTimeout dt x s).time.gIdx = s.time.gIdx := by
  unfold doAnnounceReceiptTimeout
  and_intros <;>
    ((try simp) <;> (try (repeat' split)) <;> (try simp))

@[simp] theorem doSyncTimeout_keeps (dt : Nat) (x : Fin 2) (s : State) :
    (doSyncTimeout dt x s).pending = s.pending ∧
    (doSyncTimeout dt x s).free = s.free ∧
    (doSyncTimeout dt x s).power = s.power ∧
    (doSyncTimeout dt x s).fuses = s.fuses ∧
    (doSyncTimeout dt x s).straps = s.straps ∧
    (doSyncTimeout dt x s).port = s.port ∧
    (doSyncTimeout dt x s).spill = s.spill ∧
    (doSyncTimeout dt x s).red = s.red ∧
    (doSyncTimeout dt x s).mot = s.mot ∧
    (doSyncTimeout dt x s).prod = s.prod ∧
    (doSyncTimeout dt x s).fe = s.fe ∧
    (doSyncTimeout dt x s).roads = s.roads ∧
    (doSyncTimeout dt x s).up = s.up ∧
    (doSyncTimeout dt x s).hs = s.hs ∧
    (doSyncTimeout dt x s).tw = s.tw ∧
    (doSyncTimeout dt x s).attn = s.attn ∧
    (doSyncTimeout dt x s).clients = s.clients ∧
    (doSyncTimeout dt x s).locks = s.locks ∧
    (doSyncTimeout dt x s).pin = s.pin ∧
    (doSyncTimeout dt x s).age = s.age ∧
    (doSyncTimeout dt x s).tap = s.tap ∧
    (doSyncTimeout dt x s).time.gRate = s.time.gRate ∧
    (doSyncTimeout dt x s).time.rates = s.time.rates ∧
    (doSyncTimeout dt x s).time.gIdx = s.time.gIdx := by
  unfold doSyncTimeout
  and_intros <;>
    ((try simp) <;> (try (repeat' split)) <;> (try simp))

@[simp] theorem State.dropLabel_keeps (s : State) :
    (State.dropLabel s).pending = s.pending ∧
    (State.dropLabel s).free = s.free ∧
    (State.dropLabel s).power = s.power ∧
    (State.dropLabel s).fuses = s.fuses ∧
    (State.dropLabel s).straps = s.straps ∧
    (State.dropLabel s).port = s.port ∧
    (State.dropLabel s).cw = s.cw ∧
    (State.dropLabel s).spill = s.spill ∧
    (State.dropLabel s).red = s.red ∧
    (State.dropLabel s).mot = s.mot ∧
    (State.dropLabel s).prod = s.prod ∧
    (State.dropLabel s).way = s.way ∧
    (State.dropLabel s).fe = s.fe ∧
    (State.dropLabel s).roads = s.roads ∧
    (State.dropLabel s).up = s.up ∧
    (State.dropLabel s).hs = s.hs ∧
    (State.dropLabel s).tw = s.tw ∧
    (State.dropLabel s).attn = s.attn ∧
    (State.dropLabel s).locks = s.locks ∧
    (State.dropLabel s).pin = s.pin ∧
    (State.dropLabel s).age = s.age ∧
    (State.dropLabel s).tap = s.tap ∧
    (State.dropLabel s).time.gRate = s.time.gRate ∧
    (State.dropLabel s).time.rates = s.time.rates ∧
    (State.dropLabel s).time.gIdx = s.time.gIdx := by
  unfold State.dropLabel
  and_intros <;>
    ((try simp) <;> (try (repeat' split)) <;> (try simp))

@[simp] theorem State.applyOne_keeps (s : State) (x : Nat × BitVec 16 × Nat × BitVec 16) :
    (State.applyOne s x).pending = s.pending ∧
    (State.applyOne s x).free = s.free ∧
    (State.applyOne s x).power = s.power ∧
    (State.applyOne s x).fuses = s.fuses ∧
    (State.applyOne s x).straps = s.straps ∧
    (State.applyOne s x).port = s.port ∧
    (State.applyOne s x).spill = s.spill ∧
    (State.applyOne s x).red = s.red ∧
    (State.applyOne s x).mot = s.mot ∧
    (State.applyOne s x).prod = s.prod ∧
    (State.applyOne s x).fe = s.fe ∧
    (State.applyOne s x).roads = s.roads ∧
    (State.applyOne s x).up = s.up ∧
    (State.applyOne s x).hs = s.hs ∧
    (State.applyOne s x).tw = s.tw ∧
    (State.applyOne s x).attn = s.attn ∧
    (State.applyOne s x).locks = s.locks ∧
    (State.applyOne s x).pin = s.pin ∧
    (State.applyOne s x).age = s.age ∧
    (State.applyOne s x).tap = s.tap ∧
    (State.applyOne s x).time.gRate = s.time.gRate ∧
    (State.applyOne s x).time.rates = s.time.rates ∧
    (State.applyOne s x).time.gIdx = s.time.gIdx := by
  unfold State.applyOne
  and_intros <;>
    ((try simp) <;> (try (repeat' split)) <;> (try simp))

@[simp] theorem State.applyLabel_keeps (s : State) :
    (State.applyLabel s).pending = s.pending ∧
    (State.applyLabel s).free = s.free ∧
    (State.applyLabel s).power = s.power ∧
    (State.applyLabel s).fuses = s.fuses ∧
    (State.applyLabel s).straps = s.straps ∧
    (State.applyLabel s).port = s.port ∧
    (State.applyLabel s).spill = s.spill ∧
    (State.applyLabel s).red = s.red ∧
    (State.applyLabel s).mot = s.mot ∧
    (State.applyLabel s).prod = s.prod ∧
    (State.applyLabel s).fe = s.fe ∧
    (State.applyLabel s).roads = s.roads ∧
    (State.applyLabel s).up = s.up ∧
    (State.applyLabel s).hs = s.hs ∧
    (State.applyLabel s).tw = s.tw ∧
    (State.applyLabel s).attn = s.attn ∧
    (State.applyLabel s).locks = s.locks ∧
    (State.applyLabel s).pin = s.pin ∧
    (State.applyLabel s).age = s.age ∧
    (State.applyLabel s).tap = s.tap ∧
    (State.applyLabel s).time.gRate = s.time.gRate ∧
    (State.applyLabel s).time.rates = s.time.rates ∧
    (State.applyLabel s).time.gIdx = s.time.gIdx := by
  unfold State.applyLabel
  and_intros <;>
    ((try simp) <;> (try (repeat' split)) <;> (try simp))

@[simp] theorem doPpsEdge_keeps (dt : Nat) (rising : Bool) (widthNs : Nat) (s : State) :
    (doPpsEdge dt rising widthNs s).pending = s.pending ∧
    (doPpsEdge dt rising widthNs s).free = s.free ∧
    (doPpsEdge dt rising widthNs s).power = s.power ∧
    (doPpsEdge dt rising widthNs s).fuses = s.fuses ∧
    (doPpsEdge dt rising widthNs s).straps = s.straps ∧
    (doPpsEdge dt rising widthNs s).port = s.port ∧
    (doPpsEdge dt rising widthNs s).spill = s.spill ∧
    (doPpsEdge dt rising widthNs s).red = s.red ∧
    (doPpsEdge dt rising widthNs s).mot = s.mot ∧
    (doPpsEdge dt rising widthNs s).prod = s.prod ∧
    (doPpsEdge dt rising widthNs s).fe = s.fe ∧
    (doPpsEdge dt rising widthNs s).roads = s.roads ∧
    (doPpsEdge dt rising widthNs s).up = s.up ∧
    (doPpsEdge dt rising widthNs s).hs = s.hs ∧
    (doPpsEdge dt rising widthNs s).tw = s.tw ∧
    (doPpsEdge dt rising widthNs s).attn = s.attn ∧
    (doPpsEdge dt rising widthNs s).locks = s.locks ∧
    (doPpsEdge dt rising widthNs s).pin = s.pin ∧
    (doPpsEdge dt rising widthNs s).age = s.age ∧
    (doPpsEdge dt rising widthNs s).tap = s.tap ∧
    (doPpsEdge dt rising widthNs s).time.gRate = s.time.gRate ∧
    (doPpsEdge dt rising widthNs s).time.rates = s.time.rates ∧
    (doPpsEdge dt rising widthNs s).time.gIdx = s.time.gIdx := by
  unfold doPpsEdge
  and_intros <;>
    ((try simp) <;> (try (repeat' split)) <;> (try simp))

@[simp] theorem doPpsTimeout_keeps (dt : Nat) (s : State) :
    (doPpsTimeout dt s).pending = s.pending ∧
    (doPpsTimeout dt s).free = s.free ∧
    (doPpsTimeout dt s).power = s.power ∧
    (doPpsTimeout dt s).fuses = s.fuses ∧
    (doPpsTimeout dt s).straps = s.straps ∧
    (doPpsTimeout dt s).port = s.port ∧
    (doPpsTimeout dt s).spill = s.spill ∧
    (doPpsTimeout dt s).red = s.red ∧
    (doPpsTimeout dt s).mot = s.mot ∧
    (doPpsTimeout dt s).prod = s.prod ∧
    (doPpsTimeout dt s).fe = s.fe ∧
    (doPpsTimeout dt s).roads = s.roads ∧
    (doPpsTimeout dt s).up = s.up ∧
    (doPpsTimeout dt s).hs = s.hs ∧
    (doPpsTimeout dt s).tw = s.tw ∧
    (doPpsTimeout dt s).attn = s.attn ∧
    (doPpsTimeout dt s).locks = s.locks ∧
    (doPpsTimeout dt s).pin = s.pin ∧
    (doPpsTimeout dt s).age = s.age ∧
    (doPpsTimeout dt s).tap = s.tap ∧
    (doPpsTimeout dt s).time.gRate = s.time.gRate ∧
    (doPpsTimeout dt s).time.rates = s.time.rates ∧
    (doPpsTimeout dt s).time.gIdx = s.time.gIdx := by
  unfold doPpsTimeout
  and_intros <;>
    ((try simp) <;> (try (repeat' split)) <;> (try simp))

@[simp] theorem State.tbgAtMark_keeps (s : State) :
    (State.tbgAtMark s).pending = s.pending ∧
    (State.tbgAtMark s).free = s.free ∧
    (State.tbgAtMark s).power = s.power ∧
    (State.tbgAtMark s).fuses = s.fuses ∧
    (State.tbgAtMark s).straps = s.straps ∧
    (State.tbgAtMark s).port = s.port ∧
    (State.tbgAtMark s).spill = s.spill ∧
    (State.tbgAtMark s).red = s.red ∧
    (State.tbgAtMark s).mot = s.mot ∧
    (State.tbgAtMark s).prod = s.prod ∧
    (State.tbgAtMark s).fe = s.fe ∧
    (State.tbgAtMark s).roads = s.roads ∧
    (State.tbgAtMark s).up = s.up ∧
    (State.tbgAtMark s).hs = s.hs ∧
    (State.tbgAtMark s).tw = s.tw ∧
    (State.tbgAtMark s).attn = s.attn ∧
    (State.tbgAtMark s).clients = s.clients ∧
    (State.tbgAtMark s).locks = s.locks ∧
    (State.tbgAtMark s).pin = s.pin ∧
    (State.tbgAtMark s).age = s.age ∧
    (State.tbgAtMark s).tap = s.tap := by
  unfold State.tbgAtMark
  and_intros <;>
    ((try simp) <;> (try (repeat' split)) <;> (try simp))

@[simp] theorem State.afterStep_keeps (s : State) :
    (State.afterStep s).pending = s.pending ∧
    (State.afterStep s).free = s.free ∧
    (State.afterStep s).power = s.power ∧
    (State.afterStep s).fuses = s.fuses ∧
    (State.afterStep s).straps = s.straps ∧
    (State.afterStep s).port = s.port ∧
    (State.afterStep s).spill = s.spill ∧
    (State.afterStep s).red = s.red ∧
    (State.afterStep s).prod = s.prod ∧
    (State.afterStep s).fe = s.fe ∧
    (State.afterStep s).roads = s.roads ∧
    (State.afterStep s).up = s.up ∧
    (State.afterStep s).hs = s.hs ∧
    (State.afterStep s).tw = s.tw ∧
    (State.afterStep s).attn = s.attn ∧
    (State.afterStep s).clients = s.clients ∧
    (State.afterStep s).locks = s.locks ∧
    (State.afterStep s).pin = s.pin ∧
    (State.afterStep s).age = s.age ∧
    (State.afterStep s).tap = s.tap ∧
    (State.afterStep s).time.gRate = s.time.gRate ∧
    (State.afterStep s).time.rates = s.time.rates ∧
    (State.afterStep s).time.gIdx = s.time.gIdx := by
  unfold State.afterStep
  and_intros <;>
    ((try simp) <;> (try (repeat' split)) <;> (try simp))

@[simp] theorem State.setPpsEdge_keeps (s : State) (falling : Bool) :
    (State.setPpsEdge s falling).pending = s.pending ∧
    (State.setPpsEdge s falling).free = s.free ∧
    (State.setPpsEdge s falling).power = s.power ∧
    (State.setPpsEdge s falling).fuses = s.fuses ∧
    (State.setPpsEdge s falling).straps = s.straps ∧
    (State.setPpsEdge s falling).port = s.port ∧
    (State.setPpsEdge s falling).spill = s.spill ∧
    (State.setPpsEdge s falling).red = s.red ∧
    (State.setPpsEdge s falling).mot = s.mot ∧
    (State.setPpsEdge s falling).prod = s.prod ∧
    (State.setPpsEdge s falling).fe = s.fe ∧
    (State.setPpsEdge s falling).roads = s.roads ∧
    (State.setPpsEdge s falling).up = s.up ∧
    (State.setPpsEdge s falling).hs = s.hs ∧
    (State.setPpsEdge s falling).tw = s.tw ∧
    (State.setPpsEdge s falling).attn = s.attn ∧
    (State.setPpsEdge s falling).locks = s.locks ∧
    (State.setPpsEdge s falling).pin = s.pin ∧
    (State.setPpsEdge s falling).age = s.age ∧
    (State.setPpsEdge s falling).tap = s.tap ∧
    (State.setPpsEdge s falling).time.gRate = s.time.gRate ∧
    (State.setPpsEdge s falling).time.rates = s.time.rates ∧
    (State.setPpsEdge s falling).time.gIdx = s.time.gIdx := by
  unfold State.setPpsEdge
  and_intros <;>
    ((try simp) <;> (try (repeat' split)) <;> (try simp))

@[simp] theorem State.setDomains_keeps (s : State) :
    (State.setDomains s).pending = s.pending ∧
    (State.setDomains s).free = s.free ∧
    (State.setDomains s).power = s.power ∧
    (State.setDomains s).fuses = s.fuses ∧
    (State.setDomains s).straps = s.straps ∧
    (State.setDomains s).port = s.port ∧
    (State.setDomains s).spill = s.spill ∧
    (State.setDomains s).red = s.red ∧
    (State.setDomains s).mot = s.mot ∧
    (State.setDomains s).prod = s.prod ∧
    (State.setDomains s).fe = s.fe ∧
    (State.setDomains s).roads = s.roads ∧
    (State.setDomains s).up = s.up ∧
    (State.setDomains s).hs = s.hs ∧
    (State.setDomains s).tw = s.tw ∧
    (State.setDomains s).attn = s.attn ∧
    (State.setDomains s).clients = s.clients ∧
    (State.setDomains s).locks = s.locks ∧
    (State.setDomains s).pin = s.pin ∧
    (State.setDomains s).age = s.age ∧
    (State.setDomains s).tap = s.tap ∧
    (State.setDomains s).time.gRate = s.time.gRate ∧
    (State.setDomains s).time.rates = s.time.rates ∧
    (State.setDomains s).time.gIdx = s.time.gIdx := by
  unfold State.setDomains
  and_intros <;>
    ((try simp) <;> (try (repeat' split)) <;> (try simp))

@[simp] theorem State.addAct_keeps (s : State) (a : Action) :
    (State.addAct s a).pending = s.pending ∧
    (State.addAct s a).free = s.free ∧
    (State.addAct s a).power = s.power ∧
    (State.addAct s a).fuses = s.fuses ∧
    (State.addAct s a).straps = s.straps ∧
    (State.addAct s a).port = s.port ∧
    (State.addAct s a).cw = s.cw ∧
    (State.addAct s a).spill = s.spill ∧
    (State.addAct s a).red = s.red ∧
    (State.addAct s a).mot = s.mot ∧
    (State.addAct s a).prod = s.prod ∧
    (State.addAct s a).way = s.way ∧
    (State.addAct s a).fe = s.fe ∧
    (State.addAct s a).roads = s.roads ∧
    (State.addAct s a).up = s.up ∧
    (State.addAct s a).hs = s.hs ∧
    (State.addAct s a).tw = s.tw ∧
    (State.addAct s a).attn = s.attn ∧
    (State.addAct s a).clients = s.clients ∧
    (State.addAct s a).locks = s.locks ∧
    (State.addAct s a).pin = s.pin ∧
    (State.addAct s a).age = s.age ∧
    (State.addAct s a).tap = s.tap ∧
    (State.addAct s a).time.gRate = s.time.gRate ∧
    (State.addAct s a).time.rates = s.time.rates ∧
    (State.addAct s a).time.gIdx = s.time.gIdx := by
  unfold State.addAct
  and_intros <;>
    ((try simp) <;> (try (repeat' split)) <;> (try simp))

@[simp] theorem State.onPort_keeps (s : State) (p : Nat) (f : UpPort → UpPort) :
    (State.onPort s p f).pending = s.pending ∧
    (State.onPort s p f).free = s.free ∧
    (State.onPort s p f).power = s.power ∧
    (State.onPort s p f).time = s.time ∧
    (State.onPort s p f).fuses = s.fuses ∧
    (State.onPort s p f).straps = s.straps ∧
    (State.onPort s p f).port = s.port ∧
    (State.onPort s p f).cw = s.cw ∧
    (State.onPort s p f).spill = s.spill ∧
    (State.onPort s p f).red = s.red ∧
    (State.onPort s p f).mot = s.mot ∧
    (State.onPort s p f).prod = s.prod ∧
    (State.onPort s p f).way = s.way ∧
    (State.onPort s p f).fe = s.fe ∧
    (State.onPort s p f).roads = s.roads ∧
    (State.onPort s p f).hs = s.hs ∧
    (State.onPort s p f).tw = s.tw ∧
    (State.onPort s p f).attn = s.attn ∧
    (State.onPort s p f).clients = s.clients ∧
    (State.onPort s p f).locks = s.locks ∧
    (State.onPort s p f).pin = s.pin ∧
    (State.onPort s p f).age = s.age ∧
    (State.onPort s p f).tap = s.tap := by
  unfold State.onPort
  and_intros <;>
    ((try simp) <;> (try (repeat' split)) <;> (try simp))

@[simp] theorem State.udpTo_keeps (s : State) (mac : List Byte) (addr : Word) (sum : Bool) (sport dport : Nat) (data : List Byte) :
    (State.udpTo s mac addr sum sport dport data).1.pending = s.pending ∧
    (State.udpTo s mac addr sum sport dport data).1.free = s.free ∧
    (State.udpTo s mac addr sum sport dport data).1.power = s.power ∧
    (State.udpTo s mac addr sum sport dport data).1.time = s.time ∧
    (State.udpTo s mac addr sum sport dport data).1.fuses = s.fuses ∧
    (State.udpTo s mac addr sum sport dport data).1.straps = s.straps ∧
    (State.udpTo s mac addr sum sport dport data).1.port = s.port ∧
    (State.udpTo s mac addr sum sport dport data).1.cw = s.cw ∧
    (State.udpTo s mac addr sum sport dport data).1.spill = s.spill ∧
    (State.udpTo s mac addr sum sport dport data).1.red = s.red ∧
    (State.udpTo s mac addr sum sport dport data).1.mot = s.mot ∧
    (State.udpTo s mac addr sum sport dport data).1.prod = s.prod ∧
    (State.udpTo s mac addr sum sport dport data).1.way = s.way ∧
    (State.udpTo s mac addr sum sport dport data).1.fe = s.fe ∧
    (State.udpTo s mac addr sum sport dport data).1.roads = s.roads ∧
    (State.udpTo s mac addr sum sport dport data).1.hs = s.hs ∧
    (State.udpTo s mac addr sum sport dport data).1.tw = s.tw ∧
    (State.udpTo s mac addr sum sport dport data).1.attn = s.attn ∧
    (State.udpTo s mac addr sum sport dport data).1.clients = s.clients ∧
    (State.udpTo s mac addr sum sport dport data).1.locks = s.locks ∧
    (State.udpTo s mac addr sum sport dport data).1.pin = s.pin ∧
    (State.udpTo s mac addr sum sport dport data).1.age = s.age ∧
    (State.udpTo s mac addr sum sport dport data).1.tap = s.tap := by
  unfold State.udpTo
  and_intros <;>
    ((try simp) <;> (try (repeat' split)) <;> (try simp))

@[simp] theorem State.noteEgress_keeps (s : State) (p : Nat) (e : Egress) :
    (State.noteEgress s p e).pending = s.pending ∧
    (State.noteEgress s p e).free = s.free ∧
    (State.noteEgress s p e).power = s.power ∧
    (State.noteEgress s p e).fuses = s.fuses ∧
    (State.noteEgress s p e).straps = s.straps ∧
    (State.noteEgress s p e).port = s.port ∧
    (State.noteEgress s p e).cw = s.cw ∧
    (State.noteEgress s p e).spill = s.spill ∧
    (State.noteEgress s p e).red = s.red ∧
    (State.noteEgress s p e).mot = s.mot ∧
    (State.noteEgress s p e).prod = s.prod ∧
    (State.noteEgress s p e).way = s.way ∧
    (State.noteEgress s p e).fe = s.fe ∧
    (State.noteEgress s p e).roads = s.roads ∧
    (State.noteEgress s p e).up = s.up ∧
    (State.noteEgress s p e).hs = s.hs ∧
    (State.noteEgress s p e).tw = s.tw ∧
    (State.noteEgress s p e).attn = s.attn ∧
    (State.noteEgress s p e).clients = s.clients ∧
    (State.noteEgress s p e).locks = s.locks ∧
    (State.noteEgress s p e).pin = s.pin ∧
    (State.noteEgress s p e).age = s.age ∧
    (State.noteEgress s p e).tap = s.tap ∧
    (State.noteEgress s p e).time.gRate = s.time.gRate ∧
    (State.noteEgress s p e).time.rates = s.time.rates ∧
    (State.noteEgress s p e).time.gIdx = s.time.gIdx := by
  unfold State.noteEgress
  and_intros <;>
    ((try simp) <;> (try (repeat' split)) <;> (try simp))

@[simp] theorem State.serve_keeps (s : State) (p : Nat) :
    (State.serve s p).pending = s.pending ∧
    (State.serve s p).free = s.free ∧
    (State.serve s p).power = s.power ∧
    (State.serve s p).fuses = s.fuses ∧
    (State.serve s p).straps = s.straps ∧
    (State.serve s p).port = s.port ∧
    (State.serve s p).cw = s.cw ∧
    (State.serve s p).spill = s.spill ∧
    (State.serve s p).red = s.red ∧
    (State.serve s p).mot = s.mot ∧
    (State.serve s p).prod = s.prod ∧
    (State.serve s p).way = s.way ∧
    (State.serve s p).fe = s.fe ∧
    (State.serve s p).roads = s.roads ∧
    (State.serve s p).hs = s.hs ∧
    (State.serve s p).tw = s.tw ∧
    (State.serve s p).attn = s.attn ∧
    (State.serve s p).clients = s.clients ∧
    (State.serve s p).locks = s.locks ∧
    (State.serve s p).pin = s.pin ∧
    (State.serve s p).age = s.age ∧
    (State.serve s p).tap = s.tap ∧
    (State.serve s p).time.gRate = s.time.gRate ∧
    (State.serve s p).time.rates = s.time.rates ∧
    (State.serve s p).time.gIdx = s.time.gIdx := by
  unfold State.serve
  and_intros <;>
    ((try simp) <;> (try (repeat' split)) <;> (try simp))

@[simp] theorem State.send_keeps (s : State) (p : Nat) (e : Egress) :
    (State.send s p e).pending = s.pending ∧
    (State.send s p e).free = s.free ∧
    (State.send s p e).power = s.power ∧
    (State.send s p e).fuses = s.fuses ∧
    (State.send s p e).straps = s.straps ∧
    (State.send s p e).port = s.port ∧
    (State.send s p e).cw = s.cw ∧
    (State.send s p e).spill = s.spill ∧
    (State.send s p e).red = s.red ∧
    (State.send s p e).mot = s.mot ∧
    (State.send s p e).prod = s.prod ∧
    (State.send s p e).way = s.way ∧
    (State.send s p e).fe = s.fe ∧
    (State.send s p e).roads = s.roads ∧
    (State.send s p e).hs = s.hs ∧
    (State.send s p e).tw = s.tw ∧
    (State.send s p e).attn = s.attn ∧
    (State.send s p e).clients = s.clients ∧
    (State.send s p e).locks = s.locks ∧
    (State.send s p e).pin = s.pin ∧
    (State.send s p e).age = s.age ∧
    (State.send s p e).tap = s.tap ∧
    (State.send s p e).time.gRate = s.time.gRate ∧
    (State.send s p e).time.rates = s.time.rates ∧
    (State.send s p e).time.gIdx = s.time.gIdx := by
  unfold State.send
  and_intros <;>
    ((try simp) <;> (try (repeat' split)) <;> (try simp))

@[simp] theorem State.sendAll_keeps (s : State) (e : Egress) :
    (State.sendAll s e).pending = s.pending ∧
    (State.sendAll s e).free = s.free ∧
    (State.sendAll s e).power = s.power ∧
    (State.sendAll s e).fuses = s.fuses ∧
    (State.sendAll s e).straps = s.straps ∧
    (State.sendAll s e).port = s.port ∧
    (State.sendAll s e).cw = s.cw ∧
    (State.sendAll s e).spill = s.spill ∧
    (State.sendAll s e).red = s.red ∧
    (State.sendAll s e).mot = s.mot ∧
    (State.sendAll s e).prod = s.prod ∧
    (State.sendAll s e).way = s.way ∧
    (State.sendAll s e).fe = s.fe ∧
    (State.sendAll s e).roads = s.roads ∧
    (State.sendAll s e).hs = s.hs ∧
    (State.sendAll s e).tw = s.tw ∧
    (State.sendAll s e).attn = s.attn ∧
    (State.sendAll s e).clients = s.clients ∧
    (State.sendAll s e).locks = s.locks ∧
    (State.sendAll s e).pin = s.pin ∧
    (State.sendAll s e).age = s.age ∧
    (State.sendAll s e).tap = s.tap ∧
    (State.sendAll s e).time.gRate = s.time.gRate ∧
    (State.sendAll s e).time.rates = s.time.rates ∧
    (State.sendAll s e).time.gIdx = s.time.gIdx := by
  unfold State.sendAll
  and_intros <;>
    ((try simp) <;> (try (repeat' split)) <;> (try simp))

@[simp] theorem State.sendControl_keeps (s : State) (c : Nat) (slot : Bool) (msg : List Word) :
    (State.sendControl s c slot msg).pending = s.pending ∧
    (State.sendControl s c slot msg).free = s.free ∧
    (State.sendControl s c slot msg).power = s.power ∧
    (State.sendControl s c slot msg).fuses = s.fuses ∧
    (State.sendControl s c slot msg).straps = s.straps ∧
    (State.sendControl s c slot msg).port = s.port ∧
    (State.sendControl s c slot msg).cw = s.cw ∧
    (State.sendControl s c slot msg).spill = s.spill ∧
    (State.sendControl s c slot msg).red = s.red ∧
    (State.sendControl s c slot msg).mot = s.mot ∧
    (State.sendControl s c slot msg).prod = s.prod ∧
    (State.sendControl s c slot msg).way = s.way ∧
    (State.sendControl s c slot msg).fe = s.fe ∧
    (State.sendControl s c slot msg).roads = s.roads ∧
    (State.sendControl s c slot msg).hs = s.hs ∧
    (State.sendControl s c slot msg).tw = s.tw ∧
    (State.sendControl s c slot msg).attn = s.attn ∧
    (State.sendControl s c slot msg).clients = s.clients ∧
    (State.sendControl s c slot msg).locks = s.locks ∧
    (State.sendControl s c slot msg).pin = s.pin ∧
    (State.sendControl s c slot msg).age = s.age ∧
    (State.sendControl s c slot msg).tap = s.tap ∧
    (State.sendControl s c slot msg).time.gRate = s.time.gRate ∧
    (State.sendControl s c slot msg).time.rates = s.time.rates ∧
    (State.sendControl s c slot msg).time.gIdx = s.time.gIdx := by
  unfold State.sendControl
  and_intros <;>
    ((try simp) <;> (try (repeat' split)) <;> (try simp))

@[simp] theorem State.pumpOne_keeps (s : State) (c : Nat) :
    (State.pumpOne s c).pending = s.pending ∧
    (State.pumpOne s c).free = s.free ∧
    (State.pumpOne s c).power = s.power ∧
    (State.pumpOne s c).fuses = s.fuses ∧
    (State.pumpOne s c).straps = s.straps ∧
    (State.pumpOne s c).port = s.port ∧
    (State.pumpOne s c).cw = s.cw ∧
    (State.pumpOne s c).spill = s.spill ∧
    (State.pumpOne s c).red = s.red ∧
    (State.pumpOne s c).mot = s.mot ∧
    (State.pumpOne s c).prod = s.prod ∧
    (State.pumpOne s c).way = s.way ∧
    (State.pumpOne s c).fe = s.fe ∧
    (State.pumpOne s c).roads = s.roads ∧
    (State.pumpOne s c).hs = s.hs ∧
    (State.pumpOne s c).tw = s.tw ∧
    (State.pumpOne s c).attn = s.attn ∧
    (State.pumpOne s c).locks = s.locks ∧
    (State.pumpOne s c).pin = s.pin ∧
    (State.pumpOne s c).age = s.age ∧
    (State.pumpOne s c).tap = s.tap ∧
    (State.pumpOne s c).time.gRate = s.time.gRate ∧
    (State.pumpOne s c).time.rates = s.time.rates ∧
    (State.pumpOne s c).time.gIdx = s.time.gIdx := by
  unfold State.pumpOne
  and_intros <;>
    ((try simp) <;> (try (repeat' split)) <;> (try simp))

@[simp] theorem State.pump_keeps (s : State) :
    (State.pump s).pending = s.pending ∧
    (State.pump s).free = s.free ∧
    (State.pump s).power = s.power ∧
    (State.pump s).fuses = s.fuses ∧
    (State.pump s).straps = s.straps ∧
    (State.pump s).port = s.port ∧
    (State.pump s).cw = s.cw ∧
    (State.pump s).spill = s.spill ∧
    (State.pump s).red = s.red ∧
    (State.pump s).mot = s.mot ∧
    (State.pump s).prod = s.prod ∧
    (State.pump s).way = s.way ∧
    (State.pump s).fe = s.fe ∧
    (State.pump s).roads = s.roads ∧
    (State.pump s).hs = s.hs ∧
    (State.pump s).tw = s.tw ∧
    (State.pump s).attn = s.attn ∧
    (State.pump s).locks = s.locks ∧
    (State.pump s).pin = s.pin ∧
    (State.pump s).age = s.age ∧
    (State.pump s).tap = s.tap ∧
    (State.pump s).time.gRate = s.time.gRate ∧
    (State.pump s).time.rates = s.time.rates ∧
    (State.pump s).time.gIdx = s.time.gIdx := by
  unfold State.pump
  and_intros <;>
    ((try simp) <;> (try (repeat' split)) <;> (try simp))

@[simp] theorem State.launchDone_keeps (s : State) :
    (State.launchDone s).pending = s.pending ∧
    (State.launchDone s).free = s.free ∧
    (State.launchDone s).time = s.time ∧
    (State.launchDone s).fuses = s.fuses ∧
    (State.launchDone s).straps = s.straps ∧
    (State.launchDone s).port = s.port ∧
    (State.launchDone s).cw = s.cw ∧
    (State.launchDone s).spill = s.spill ∧
    (State.launchDone s).red = s.red ∧
    (State.launchDone s).mot = s.mot ∧
    (State.launchDone s).prod = s.prod ∧
    (State.launchDone s).way = s.way ∧
    (State.launchDone s).fe = s.fe ∧
    (State.launchDone s).roads = s.roads ∧
    (State.launchDone s).up = s.up ∧
    (State.launchDone s).hs = s.hs ∧
    (State.launchDone s).tw = s.tw ∧
    (State.launchDone s).attn = s.attn ∧
    (State.launchDone s).clients = s.clients ∧
    (State.launchDone s).locks = s.locks ∧
    (State.launchDone s).pin = s.pin ∧
    (State.launchDone s).age = s.age ∧
    (State.launchDone s).tap = s.tap ∧
    (State.launchDone s).power.mode = s.power.mode := by
  unfold State.launchDone
  and_intros <;>
    ((try simp) <;> (try (repeat' split)) <;> (try simp))

@[simp] theorem doEgressPortFree_keeps (dt p : Nat) (s : State) :
    (doEgressPortFree dt p s).pending = s.pending ∧
    (doEgressPortFree dt p s).free = s.free ∧
    (doEgressPortFree dt p s).fuses = s.fuses ∧
    (doEgressPortFree dt p s).straps = s.straps ∧
    (doEgressPortFree dt p s).port = s.port ∧
    (doEgressPortFree dt p s).cw = s.cw ∧
    (doEgressPortFree dt p s).spill = s.spill ∧
    (doEgressPortFree dt p s).red = s.red ∧
    (doEgressPortFree dt p s).mot = s.mot ∧
    (doEgressPortFree dt p s).prod = s.prod ∧
    (doEgressPortFree dt p s).way = s.way ∧
    (doEgressPortFree dt p s).fe = s.fe ∧
    (doEgressPortFree dt p s).roads = s.roads ∧
    (doEgressPortFree dt p s).hs = s.hs ∧
    (doEgressPortFree dt p s).tw = s.tw ∧
    (doEgressPortFree dt p s).attn = s.attn ∧
    (doEgressPortFree dt p s).locks = s.locks ∧
    (doEgressPortFree dt p s).pin = s.pin ∧
    (doEgressPortFree dt p s).age = s.age ∧
    (doEgressPortFree dt p s).tap = s.tap ∧
    (doEgressPortFree dt p s).power.mode = s.power.mode ∧
    (doEgressPortFree dt p s).time.gRate = s.time.gRate ∧
    (doEgressPortFree dt p s).time.rates = s.time.rates ∧
    (doEgressPortFree dt p s).time.gIdx = s.time.gIdx := by
  unfold doEgressPortFree
  and_intros <;>
    ((try simp) <;> (try (repeat' split)) <;> (try simp))

@[simp] theorem doLinkUp_keeps (dt p : Nat) (partner : LinkPartner) (s : State) :
    (doLinkUp dt p partner s).pending = s.pending ∧
    (doLinkUp dt p partner s).free = s.free ∧
    (doLinkUp dt p partner s).power = s.power ∧
    (doLinkUp dt p partner s).fuses = s.fuses ∧
    (doLinkUp dt p partner s).straps = s.straps ∧
    (doLinkUp dt p partner s).port = s.port ∧
    (doLinkUp dt p partner s).cw = s.cw ∧
    (doLinkUp dt p partner s).spill = s.spill ∧
    (doLinkUp dt p partner s).red = s.red ∧
    (doLinkUp dt p partner s).mot = s.mot ∧
    (doLinkUp dt p partner s).prod = s.prod ∧
    (doLinkUp dt p partner s).way = s.way ∧
    (doLinkUp dt p partner s).fe = s.fe ∧
    (doLinkUp dt p partner s).roads = s.roads ∧
    (doLinkUp dt p partner s).hs = s.hs ∧
    (doLinkUp dt p partner s).tw = s.tw ∧
    (doLinkUp dt p partner s).attn = s.attn ∧
    (doLinkUp dt p partner s).clients = s.clients ∧
    (doLinkUp dt p partner s).locks = s.locks ∧
    (doLinkUp dt p partner s).pin = s.pin ∧
    (doLinkUp dt p partner s).age = s.age ∧
    (doLinkUp dt p partner s).tap = s.tap ∧
    (doLinkUp dt p partner s).time.gRate = s.time.gRate ∧
    (doLinkUp dt p partner s).time.rates = s.time.rates ∧
    (doLinkUp dt p partner s).time.gIdx = s.time.gIdx := by
  unfold doLinkUp
  and_intros <;>
    ((try simp) <;> (try (repeat' split)) <;> (try simp))

@[simp] theorem State.takeBack_keeps (s : State) (b : Back) :
    (State.takeBack s b).pending = s.pending ∧
    (State.takeBack s b).free = s.free ∧
    (State.takeBack s b).power = s.power ∧
    (State.takeBack s b).time = s.time ∧
    (State.takeBack s b).fuses = s.fuses ∧
    (State.takeBack s b).straps = s.straps ∧
    (State.takeBack s b).port = s.port ∧
    (State.takeBack s b).spill = s.spill ∧
    (State.takeBack s b).red = s.red ∧
    (State.takeBack s b).mot = s.mot ∧
    (State.takeBack s b).prod = s.prod ∧
    (State.takeBack s b).way = s.way ∧
    (State.takeBack s b).fe = s.fe ∧
    (State.takeBack s b).roads = s.roads ∧
    (State.takeBack s b).hs = s.hs ∧
    (State.takeBack s b).tw = s.tw ∧
    (State.takeBack s b).attn = s.attn ∧
    (State.takeBack s b).clients = s.clients ∧
    (State.takeBack s b).locks = s.locks ∧
    (State.takeBack s b).pin = s.pin ∧
    (State.takeBack s b).age = s.age ∧
    (State.takeBack s b).tap = s.tap := by
  unfold State.takeBack
  and_intros <;>
    ((try simp) <;> (try (repeat' split)) <;> (try simp))

@[simp] theorem State.dropLink_keeps (s : State) (p : Nat) :
    (State.dropLink s p).pending = s.pending ∧
    (State.dropLink s p).free = s.free ∧
    (State.dropLink s p).power = s.power ∧
    (State.dropLink s p).time = s.time ∧
    (State.dropLink s p).fuses = s.fuses ∧
    (State.dropLink s p).straps = s.straps ∧
    (State.dropLink s p).port = s.port ∧
    (State.dropLink s p).spill = s.spill ∧
    (State.dropLink s p).red = s.red ∧
    (State.dropLink s p).mot = s.mot ∧
    (State.dropLink s p).prod = s.prod ∧
    (State.dropLink s p).way = s.way ∧
    (State.dropLink s p).fe = s.fe ∧
    (State.dropLink s p).roads = s.roads ∧
    (State.dropLink s p).hs = s.hs ∧
    (State.dropLink s p).tw = s.tw ∧
    (State.dropLink s p).attn = s.attn ∧
    (State.dropLink s p).clients = s.clients ∧
    (State.dropLink s p).locks = s.locks ∧
    (State.dropLink s p).pin = s.pin ∧
    (State.dropLink s p).age = s.age ∧
    (State.dropLink s p).tap = s.tap := by
  unfold State.dropLink
  and_intros <;>
    ((try simp) <;> (try (repeat' split)) <;> (try simp))

@[simp] theorem doLinkDown_keeps (p : Nat) (s : State) :
    (doLinkDown p s).pending = s.pending ∧
    (doLinkDown p s).free = s.free ∧
    (doLinkDown p s).time = s.time ∧
    (doLinkDown p s).fuses = s.fuses ∧
    (doLinkDown p s).straps = s.straps ∧
    (doLinkDown p s).port = s.port ∧
    (doLinkDown p s).spill = s.spill ∧
    (doLinkDown p s).red = s.red ∧
    (doLinkDown p s).mot = s.mot ∧
    (doLinkDown p s).prod = s.prod ∧
    (doLinkDown p s).way = s.way ∧
    (doLinkDown p s).fe = s.fe ∧
    (doLinkDown p s).roads = s.roads ∧
    (doLinkDown p s).hs = s.hs ∧
    (doLinkDown p s).tw = s.tw ∧
    (doLinkDown p s).attn = s.attn ∧
    (doLinkDown p s).clients = s.clients ∧
    (doLinkDown p s).locks = s.locks ∧
    (doLinkDown p s).pin = s.pin ∧
    (doLinkDown p s).age = s.age ∧
    (doLinkDown p s).tap = s.tap ∧
    (doLinkDown p s).power.mode = s.power.mode := by
  unfold doLinkDown
  and_intros <;>
    ((try simp) <;> (try (repeat' split)) <;> (try simp))

@[simp] theorem State.uplinkOff_keeps (s : State) :
    (State.uplinkOff s).pending = s.pending ∧
    (State.uplinkOff s).free = s.free ∧
    (State.uplinkOff s).power = s.power ∧
    (State.uplinkOff s).time = s.time ∧
    (State.uplinkOff s).fuses = s.fuses ∧
    (State.uplinkOff s).straps = s.straps ∧
    (State.uplinkOff s).port = s.port ∧
    (State.uplinkOff s).spill = s.spill ∧
    (State.uplinkOff s).red = s.red ∧
    (State.uplinkOff s).mot = s.mot ∧
    (State.uplinkOff s).prod = s.prod ∧
    (State.uplinkOff s).way = s.way ∧
    (State.uplinkOff s).fe = s.fe ∧
    (State.uplinkOff s).roads = s.roads ∧
    (State.uplinkOff s).hs = s.hs ∧
    (State.uplinkOff s).tw = s.tw ∧
    (State.uplinkOff s).attn = s.attn ∧
    (State.uplinkOff s).clients = s.clients ∧
    (State.uplinkOff s).locks = s.locks ∧
    (State.uplinkOff s).pin = s.pin ∧
    (State.uplinkOff s).age = s.age ∧
    (State.uplinkOff s).tap = s.tap := by
  unfold State.uplinkOff
  and_intros <;>
    ((try simp) <;> (try (repeat' split)) <;> (try simp))

@[simp] theorem State.learn_keeps (s : State) (p : Nat) (src : List Byte) :
    (State.learn s p src).pending = s.pending ∧
    (State.learn s p src).free = s.free ∧
    (State.learn s p src).power = s.power ∧
    (State.learn s p src).time = s.time ∧
    (State.learn s p src).fuses = s.fuses ∧
    (State.learn s p src).straps = s.straps ∧
    (State.learn s p src).port = s.port ∧
    (State.learn s p src).cw = s.cw ∧
    (State.learn s p src).spill = s.spill ∧
    (State.learn s p src).red = s.red ∧
    (State.learn s p src).mot = s.mot ∧
    (State.learn s p src).prod = s.prod ∧
    (State.learn s p src).way = s.way ∧
    (State.learn s p src).fe = s.fe ∧
    (State.learn s p src).roads = s.roads ∧
    (State.learn s p src).hs = s.hs ∧
    (State.learn s p src).tw = s.tw ∧
    (State.learn s p src).attn = s.attn ∧
    (State.learn s p src).clients = s.clients ∧
    (State.learn s p src).locks = s.locks ∧
    (State.learn s p src).pin = s.pin ∧
    (State.learn s p src).age = s.age ∧
    (State.learn s p src).tap = s.tap := by
  unfold State.learn
  and_intros <;>
    ((try simp) <;> (try (repeat' split)) <;> (try simp))

@[simp] theorem State.forward_keeps (s : State) (p : Nat) (e : Egress) :
    (State.forward s p e).pending = s.pending ∧
    (State.forward s p e).free = s.free ∧
    (State.forward s p e).power = s.power ∧
    (State.forward s p e).fuses = s.fuses ∧
    (State.forward s p e).straps = s.straps ∧
    (State.forward s p e).port = s.port ∧
    (State.forward s p e).cw = s.cw ∧
    (State.forward s p e).spill = s.spill ∧
    (State.forward s p e).red = s.red ∧
    (State.forward s p e).mot = s.mot ∧
    (State.forward s p e).prod = s.prod ∧
    (State.forward s p e).way = s.way ∧
    (State.forward s p e).fe = s.fe ∧
    (State.forward s p e).roads = s.roads ∧
    (State.forward s p e).hs = s.hs ∧
    (State.forward s p e).tw = s.tw ∧
    (State.forward s p e).attn = s.attn ∧
    (State.forward s p e).clients = s.clients ∧
    (State.forward s p e).locks = s.locks ∧
    (State.forward s p e).pin = s.pin ∧
    (State.forward s p e).age = s.age ∧
    (State.forward s p e).tap = s.tap ∧
    (State.forward s p e).time.gRate = s.time.gRate ∧
    (State.forward s p e).time.rates = s.time.rates ∧
    (State.forward s p e).time.gIdx = s.time.gIdx := by
  unfold State.forward
  and_intros <;>
    ((try simp) <;> (try (repeat' split)) <;> (try simp))

@[simp] theorem State.crossing_keeps (s : State) (f : EthFrame) :
    (State.crossing s f).2.pending = s.pending ∧
    (State.crossing s f).2.power = s.power ∧
    (State.crossing s f).2.time = s.time ∧
    (State.crossing s f).2.fuses = s.fuses ∧
    (State.crossing s f).2.straps = s.straps ∧
    (State.crossing s f).2.port = s.port ∧
    (State.crossing s f).2.cw = s.cw ∧
    (State.crossing s f).2.spill = s.spill ∧
    (State.crossing s f).2.red = s.red ∧
    (State.crossing s f).2.mot = s.mot ∧
    (State.crossing s f).2.prod = s.prod ∧
    (State.crossing s f).2.way = s.way ∧
    (State.crossing s f).2.fe = s.fe ∧
    (State.crossing s f).2.roads = s.roads ∧
    (State.crossing s f).2.up = s.up ∧
    (State.crossing s f).2.hs = s.hs ∧
    (State.crossing s f).2.tw = s.tw ∧
    (State.crossing s f).2.attn = s.attn ∧
    (State.crossing s f).2.clients = s.clients ∧
    (State.crossing s f).2.locks = s.locks ∧
    (State.crossing s f).2.pin = s.pin ∧
    (State.crossing s f).2.age = s.age ∧
    (State.crossing s f).2.tap = s.tap := by
  unfold State.crossing
  and_intros <;>
    ((try simp) <;> (try (repeat' split)) <;> (try simp))

@[simp] theorem doFrameReceive_keeps (dt p : Nat) (f : EthFrame) (s : State) :
    (doFrameReceive dt p f s).pending = s.pending ∧
    (doFrameReceive dt p f s).power = s.power ∧
    (doFrameReceive dt p f s).fuses = s.fuses ∧
    (doFrameReceive dt p f s).straps = s.straps ∧
    (doFrameReceive dt p f s).port = s.port ∧
    (doFrameReceive dt p f s).cw = s.cw ∧
    (doFrameReceive dt p f s).spill = s.spill ∧
    (doFrameReceive dt p f s).red = s.red ∧
    (doFrameReceive dt p f s).mot = s.mot ∧
    (doFrameReceive dt p f s).prod = s.prod ∧
    (doFrameReceive dt p f s).way = s.way ∧
    (doFrameReceive dt p f s).fe = s.fe ∧
    (doFrameReceive dt p f s).roads = s.roads ∧
    (doFrameReceive dt p f s).hs = s.hs ∧
    (doFrameReceive dt p f s).tw = s.tw ∧
    (doFrameReceive dt p f s).attn = s.attn ∧
    (doFrameReceive dt p f s).clients = s.clients ∧
    (doFrameReceive dt p f s).locks = s.locks ∧
    (doFrameReceive dt p f s).pin = s.pin ∧
    (doFrameReceive dt p f s).age = s.age ∧
    (doFrameReceive dt p f s).tap = s.tap ∧
    (doFrameReceive dt p f s).time.gRate = s.time.gRate ∧
    (doFrameReceive dt p f s).time.rates = s.time.rates ∧
    (doFrameReceive dt p f s).time.gIdx = s.time.gIdx := by
  unfold doFrameReceive
  and_intros <;>
    ((try simp) <;> (try (repeat' split)) <;> (try simp))

@[simp] theorem doMacAgeOut_keeps (dt index : Nat) (s : State) :
    (doMacAgeOut dt index s).pending = s.pending ∧
    (doMacAgeOut dt index s).free = s.free ∧
    (doMacAgeOut dt index s).power = s.power ∧
    (doMacAgeOut dt index s).fuses = s.fuses ∧
    (doMacAgeOut dt index s).straps = s.straps ∧
    (doMacAgeOut dt index s).port = s.port ∧
    (doMacAgeOut dt index s).cw = s.cw ∧
    (doMacAgeOut dt index s).spill = s.spill ∧
    (doMacAgeOut dt index s).red = s.red ∧
    (doMacAgeOut dt index s).mot = s.mot ∧
    (doMacAgeOut dt index s).prod = s.prod ∧
    (doMacAgeOut dt index s).way = s.way ∧
    (doMacAgeOut dt index s).fe = s.fe ∧
    (doMacAgeOut dt index s).roads = s.roads ∧
    (doMacAgeOut dt index s).hs = s.hs ∧
    (doMacAgeOut dt index s).tw = s.tw ∧
    (doMacAgeOut dt index s).attn = s.attn ∧
    (doMacAgeOut dt index s).clients = s.clients ∧
    (doMacAgeOut dt index s).locks = s.locks ∧
    (doMacAgeOut dt index s).pin = s.pin ∧
    (doMacAgeOut dt index s).age = s.age ∧
    (doMacAgeOut dt index s).tap = s.tap ∧
    (doMacAgeOut dt index s).time.gRate = s.time.gRate ∧
    (doMacAgeOut dt index s).time.rates = s.time.rates ∧
    (doMacAgeOut dt index s).time.gIdx = s.time.gIdx := by
  unfold doMacAgeOut
  and_intros <;>
    ((try simp) <;> (try (repeat' split)) <;> (try simp))

@[simp] theorem doArpReceive_keeps (p : Nat) (f : EthFrame) (s : State) :
    (doArpReceive p f s).pending = s.pending ∧
    (doArpReceive p f s).free = s.free ∧
    (doArpReceive p f s).power = s.power ∧
    (doArpReceive p f s).fuses = s.fuses ∧
    (doArpReceive p f s).straps = s.straps ∧
    (doArpReceive p f s).port = s.port ∧
    (doArpReceive p f s).cw = s.cw ∧
    (doArpReceive p f s).spill = s.spill ∧
    (doArpReceive p f s).red = s.red ∧
    (doArpReceive p f s).mot = s.mot ∧
    (doArpReceive p f s).prod = s.prod ∧
    (doArpReceive p f s).way = s.way ∧
    (doArpReceive p f s).fe = s.fe ∧
    (doArpReceive p f s).roads = s.roads ∧
    (doArpReceive p f s).hs = s.hs ∧
    (doArpReceive p f s).tw = s.tw ∧
    (doArpReceive p f s).attn = s.attn ∧
    (doArpReceive p f s).locks = s.locks ∧
    (doArpReceive p f s).pin = s.pin ∧
    (doArpReceive p f s).age = s.age ∧
    (doArpReceive p f s).tap = s.tap ∧
    (doArpReceive p f s).time.gRate = s.time.gRate ∧
    (doArpReceive p f s).time.rates = s.time.rates ∧
    (doArpReceive p f s).time.gIdx = s.time.gIdx := by
  unfold doArpReceive
  and_intros <;>
    ((try simp) <;> (try (repeat' split)) <;> (try simp))

@[simp] theorem State.askFor_keeps (s : State) (c : Nat) (f : Arp → Arp) :
    (State.askFor s c f).pending = s.pending ∧
    (State.askFor s c f).free = s.free ∧
    (State.askFor s c f).power = s.power ∧
    (State.askFor s c f).fuses = s.fuses ∧
    (State.askFor s c f).straps = s.straps ∧
    (State.askFor s c f).port = s.port ∧
    (State.askFor s c f).cw = s.cw ∧
    (State.askFor s c f).spill = s.spill ∧
    (State.askFor s c f).red = s.red ∧
    (State.askFor s c f).mot = s.mot ∧
    (State.askFor s c f).prod = s.prod ∧
    (State.askFor s c f).way = s.way ∧
    (State.askFor s c f).fe = s.fe ∧
    (State.askFor s c f).roads = s.roads ∧
    (State.askFor s c f).hs = s.hs ∧
    (State.askFor s c f).tw = s.tw ∧
    (State.askFor s c f).attn = s.attn ∧
    (State.askFor s c f).clients = s.clients ∧
    (State.askFor s c f).locks = s.locks ∧
    (State.askFor s c f).pin = s.pin ∧
    (State.askFor s c f).age = s.age ∧
    (State.askFor s c f).tap = s.tap ∧
    (State.askFor s c f).time.gRate = s.time.gRate ∧
    (State.askFor s c f).time.rates = s.time.rates ∧
    (State.askFor s c f).time.gIdx = s.time.gIdx := by
  unfold State.askFor
  and_intros <;>
    ((try simp) <;> (try (repeat' split)) <;> (try simp))

@[simp] theorem doArpRetry_keeps (dt c : Nat) (s : State) :
    (doArpRetry dt c s).pending = s.pending ∧
    (doArpRetry dt c s).free = s.free ∧
    (doArpRetry dt c s).power = s.power ∧
    (doArpRetry dt c s).fuses = s.fuses ∧
    (doArpRetry dt c s).straps = s.straps ∧
    (doArpRetry dt c s).port = s.port ∧
    (doArpRetry dt c s).cw = s.cw ∧
    (doArpRetry dt c s).spill = s.spill ∧
    (doArpRetry dt c s).red = s.red ∧
    (doArpRetry dt c s).mot = s.mot ∧
    (doArpRetry dt c s).prod = s.prod ∧
    (doArpRetry dt c s).way = s.way ∧
    (doArpRetry dt c s).fe = s.fe ∧
    (doArpRetry dt c s).roads = s.roads ∧
    (doArpRetry dt c s).hs = s.hs ∧
    (doArpRetry dt c s).tw = s.tw ∧
    (doArpRetry dt c s).attn = s.attn ∧
    (doArpRetry dt c s).clients = s.clients ∧
    (doArpRetry dt c s).locks = s.locks ∧
    (doArpRetry dt c s).pin = s.pin ∧
    (doArpRetry dt c s).age = s.age ∧
    (doArpRetry dt c s).tap = s.tap ∧
    (doArpRetry dt c s).time.gRate = s.time.gRate ∧
    (doArpRetry dt c s).time.rates = s.time.rates ∧
    (doArpRetry dt c s).time.gIdx = s.time.gIdx := by
  unfold doArpRetry
  and_intros <;>
    ((try simp) <;> (try (repeat' split)) <;> (try simp))

@[simp] theorem doArpRefresh_keeps (dt c : Nat) (s : State) :
    (doArpRefresh dt c s).pending = s.pending ∧
    (doArpRefresh dt c s).free = s.free ∧
    (doArpRefresh dt c s).power = s.power ∧
    (doArpRefresh dt c s).fuses = s.fuses ∧
    (doArpRefresh dt c s).straps = s.straps ∧
    (doArpRefresh dt c s).port = s.port ∧
    (doArpRefresh dt c s).cw = s.cw ∧
    (doArpRefresh dt c s).spill = s.spill ∧
    (doArpRefresh dt c s).red = s.red ∧
    (doArpRefresh dt c s).mot = s.mot ∧
    (doArpRefresh dt c s).prod = s.prod ∧
    (doArpRefresh dt c s).way = s.way ∧
    (doArpRefresh dt c s).fe = s.fe ∧
    (doArpRefresh dt c s).roads = s.roads ∧
    (doArpRefresh dt c s).hs = s.hs ∧
    (doArpRefresh dt c s).tw = s.tw ∧
    (doArpRefresh dt c s).attn = s.attn ∧
    (doArpRefresh dt c s).clients = s.clients ∧
    (doArpRefresh dt c s).locks = s.locks ∧
    (doArpRefresh dt c s).pin = s.pin ∧
    (doArpRefresh dt c s).age = s.age ∧
    (doArpRefresh dt c s).tap = s.tap ∧
    (doArpRefresh dt c s).time.gRate = s.time.gRate ∧
    (doArpRefresh dt c s).time.rates = s.time.rates ∧
    (doArpRefresh dt c s).time.gIdx = s.time.gIdx := by
  unfold doArpRefresh
  and_intros <;>
    ((try simp) <;> (try (repeat' split)) <;> (try simp))

@[simp] theorem State.echo_keeps (s : State) (p : Nat) (f : EthFrame) (src : Word) (body : List Byte) :
    (State.echo s p f src body).pending = s.pending ∧
    (State.echo s p f src body).free = s.free ∧
    (State.echo s p f src body).power = s.power ∧
    (State.echo s p f src body).fuses = s.fuses ∧
    (State.echo s p f src body).straps = s.straps ∧
    (State.echo s p f src body).port = s.port ∧
    (State.echo s p f src body).cw = s.cw ∧
    (State.echo s p f src body).spill = s.spill ∧
    (State.echo s p f src body).red = s.red ∧
    (State.echo s p f src body).mot = s.mot ∧
    (State.echo s p f src body).prod = s.prod ∧
    (State.echo s p f src body).way = s.way ∧
    (State.echo s p f src body).fe = s.fe ∧
    (State.echo s p f src body).roads = s.roads ∧
    (State.echo s p f src body).hs = s.hs ∧
    (State.echo s p f src body).tw = s.tw ∧
    (State.echo s p f src body).attn = s.attn ∧
    (State.echo s p f src body).clients = s.clients ∧
    (State.echo s p f src body).locks = s.locks ∧
    (State.echo s p f src body).pin = s.pin ∧
    (State.echo s p f src body).age = s.age ∧
    (State.echo s p f src body).tap = s.tap ∧
    (State.echo s p f src body).time.gRate = s.time.gRate ∧
    (State.echo s p f src body).time.rates = s.time.rates ∧
    (State.echo s p f src body).time.gIdx = s.time.gIdx := by
  unfold State.echo
  and_intros <;>
    ((try simp) <;> (try (repeat' split)) <;> (try simp))

@[simp] theorem doIcmpEcho_pending (dt p : Nat) (f : EthFrame) (s : State) :
    (doIcmpEcho dt p f s).pending = s.pending := by
  unfold doIcmpEcho
  extract_lets s1
  have h1 : s1.pending = s.pending := by simp [s1]
  cases s1.ipFor p f with
  | none => exact h1
  | some x => dsimp only [Option.elim]; split <;> simp [h1]

@[simp] theorem doIcmpEcho_free (dt p : Nat) (f : EthFrame) (s : State) :
    (doIcmpEcho dt p f s).free = s.free := by
  unfold doIcmpEcho
  extract_lets s1
  have h1 : s1.free = s.free := by simp [s1]
  cases s1.ipFor p f with
  | none => exact h1
  | some x => dsimp only [Option.elim]; split <;> simp [h1]

@[simp] theorem doIcmpEcho_power (dt p : Nat) (f : EthFrame) (s : State) :
    (doIcmpEcho dt p f s).power = s.power := by
  unfold doIcmpEcho
  extract_lets s1
  have h1 : s1.power = s.power := by simp [s1]
  cases s1.ipFor p f with
  | none => exact h1
  | some x => dsimp only [Option.elim]; split <;> simp [h1]

@[simp] theorem doIcmpEcho_fuses (dt p : Nat) (f : EthFrame) (s : State) :
    (doIcmpEcho dt p f s).fuses = s.fuses := by
  unfold doIcmpEcho
  extract_lets s1
  have h1 : s1.fuses = s.fuses := by simp [s1]
  cases s1.ipFor p f with
  | none => exact h1
  | some x => dsimp only [Option.elim]; split <;> simp [h1]

@[simp] theorem doIcmpEcho_straps (dt p : Nat) (f : EthFrame) (s : State) :
    (doIcmpEcho dt p f s).straps = s.straps := by
  unfold doIcmpEcho
  extract_lets s1
  have h1 : s1.straps = s.straps := by simp [s1]
  cases s1.ipFor p f with
  | none => exact h1
  | some x => dsimp only [Option.elim]; split <;> simp [h1]

@[simp] theorem doIcmpEcho_port (dt p : Nat) (f : EthFrame) (s : State) :
    (doIcmpEcho dt p f s).port = s.port := by
  unfold doIcmpEcho
  extract_lets s1
  have h1 : s1.port = s.port := by simp [s1]
  cases s1.ipFor p f with
  | none => exact h1
  | some x => dsimp only [Option.elim]; split <;> simp [h1]

@[simp] theorem doIcmpEcho_cw (dt p : Nat) (f : EthFrame) (s : State) :
    (doIcmpEcho dt p f s).cw = s.cw := by
  unfold doIcmpEcho
  extract_lets s1
  have h1 : s1.cw = s.cw := by simp [s1]
  cases s1.ipFor p f with
  | none => exact h1
  | some x => dsimp only [Option.elim]; split <;> simp [h1]

@[simp] theorem doIcmpEcho_spill (dt p : Nat) (f : EthFrame) (s : State) :
    (doIcmpEcho dt p f s).spill = s.spill := by
  unfold doIcmpEcho
  extract_lets s1
  have h1 : s1.spill = s.spill := by simp [s1]
  cases s1.ipFor p f with
  | none => exact h1
  | some x => dsimp only [Option.elim]; split <;> simp [h1]

@[simp] theorem doIcmpEcho_red (dt p : Nat) (f : EthFrame) (s : State) :
    (doIcmpEcho dt p f s).red = s.red := by
  unfold doIcmpEcho
  extract_lets s1
  have h1 : s1.red = s.red := by simp [s1]
  cases s1.ipFor p f with
  | none => exact h1
  | some x => dsimp only [Option.elim]; split <;> simp [h1]

@[simp] theorem doIcmpEcho_mot (dt p : Nat) (f : EthFrame) (s : State) :
    (doIcmpEcho dt p f s).mot = s.mot := by
  unfold doIcmpEcho
  extract_lets s1
  have h1 : s1.mot = s.mot := by simp [s1]
  cases s1.ipFor p f with
  | none => exact h1
  | some x => dsimp only [Option.elim]; split <;> simp [h1]

@[simp] theorem doIcmpEcho_prod (dt p : Nat) (f : EthFrame) (s : State) :
    (doIcmpEcho dt p f s).prod = s.prod := by
  unfold doIcmpEcho
  extract_lets s1
  have h1 : s1.prod = s.prod := by simp [s1]
  cases s1.ipFor p f with
  | none => exact h1
  | some x => dsimp only [Option.elim]; split <;> simp [h1]

@[simp] theorem doIcmpEcho_way (dt p : Nat) (f : EthFrame) (s : State) :
    (doIcmpEcho dt p f s).way = s.way := by
  unfold doIcmpEcho
  extract_lets s1
  have h1 : s1.way = s.way := by simp [s1]
  cases s1.ipFor p f with
  | none => exact h1
  | some x => dsimp only [Option.elim]; split <;> simp [h1]

@[simp] theorem doIcmpEcho_fe (dt p : Nat) (f : EthFrame) (s : State) :
    (doIcmpEcho dt p f s).fe = s.fe := by
  unfold doIcmpEcho
  extract_lets s1
  have h1 : s1.fe = s.fe := by simp [s1]
  cases s1.ipFor p f with
  | none => exact h1
  | some x => dsimp only [Option.elim]; split <;> simp [h1]

@[simp] theorem doIcmpEcho_roads (dt p : Nat) (f : EthFrame) (s : State) :
    (doIcmpEcho dt p f s).roads = s.roads := by
  unfold doIcmpEcho
  extract_lets s1
  have h1 : s1.roads = s.roads := by simp [s1]
  cases s1.ipFor p f with
  | none => exact h1
  | some x => dsimp only [Option.elim]; split <;> simp [h1]

@[simp] theorem doIcmpEcho_hs (dt p : Nat) (f : EthFrame) (s : State) :
    (doIcmpEcho dt p f s).hs = s.hs := by
  unfold doIcmpEcho
  extract_lets s1
  have h1 : s1.hs = s.hs := by simp [s1]
  cases s1.ipFor p f with
  | none => exact h1
  | some x => dsimp only [Option.elim]; split <;> simp [h1]

@[simp] theorem doIcmpEcho_tw (dt p : Nat) (f : EthFrame) (s : State) :
    (doIcmpEcho dt p f s).tw = s.tw := by
  unfold doIcmpEcho
  extract_lets s1
  have h1 : s1.tw = s.tw := by simp [s1]
  cases s1.ipFor p f with
  | none => exact h1
  | some x => dsimp only [Option.elim]; split <;> simp [h1]

@[simp] theorem doIcmpEcho_attn (dt p : Nat) (f : EthFrame) (s : State) :
    (doIcmpEcho dt p f s).attn = s.attn := by
  unfold doIcmpEcho
  extract_lets s1
  have h1 : s1.attn = s.attn := by simp [s1]
  cases s1.ipFor p f with
  | none => exact h1
  | some x => dsimp only [Option.elim]; split <;> simp [h1]

@[simp] theorem doIcmpEcho_clients (dt p : Nat) (f : EthFrame) (s : State) :
    (doIcmpEcho dt p f s).clients = s.clients := by
  unfold doIcmpEcho
  extract_lets s1
  have h1 : s1.clients = s.clients := by simp [s1]
  cases s1.ipFor p f with
  | none => exact h1
  | some x => dsimp only [Option.elim]; split <;> simp [h1]

@[simp] theorem doIcmpEcho_locks (dt p : Nat) (f : EthFrame) (s : State) :
    (doIcmpEcho dt p f s).locks = s.locks := by
  unfold doIcmpEcho
  extract_lets s1
  have h1 : s1.locks = s.locks := by simp [s1]
  cases s1.ipFor p f with
  | none => exact h1
  | some x => dsimp only [Option.elim]; split <;> simp [h1]

@[simp] theorem doIcmpEcho_pin (dt p : Nat) (f : EthFrame) (s : State) :
    (doIcmpEcho dt p f s).pin = s.pin := by
  unfold doIcmpEcho
  extract_lets s1
  have h1 : s1.pin = s.pin := by simp [s1]
  cases s1.ipFor p f with
  | none => exact h1
  | some x => dsimp only [Option.elim]; split <;> simp [h1]

@[simp] theorem doIcmpEcho_age (dt p : Nat) (f : EthFrame) (s : State) :
    (doIcmpEcho dt p f s).age = s.age := by
  unfold doIcmpEcho
  extract_lets s1
  have h1 : s1.age = s.age := by simp [s1]
  cases s1.ipFor p f with
  | none => exact h1
  | some x => dsimp only [Option.elim]; split <;> simp [h1]

@[simp] theorem doIcmpEcho_tap (dt p : Nat) (f : EthFrame) (s : State) :
    (doIcmpEcho dt p f s).tap = s.tap := by
  unfold doIcmpEcho
  extract_lets s1
  have h1 : s1.tap = s.tap := by simp [s1]
  cases s1.ipFor p f with
  | none => exact h1
  | some x => dsimp only [Option.elim]; split <;> simp [h1]

@[simp] theorem doIcmpEcho_time_gRate (dt p : Nat) (f : EthFrame) (s : State) :
    (doIcmpEcho dt p f s).time.gRate = s.time.gRate := by
  unfold doIcmpEcho
  extract_lets s1
  have h1 : s1.time.gRate = s.time.gRate := by simp [s1]
  cases s1.ipFor p f with
  | none => exact h1
  | some x => dsimp only [Option.elim]; split <;> simp [h1]

@[simp] theorem doIcmpEcho_time_rates (dt p : Nat) (f : EthFrame) (s : State) :
    (doIcmpEcho dt p f s).time.rates = s.time.rates := by
  unfold doIcmpEcho
  extract_lets s1
  have h1 : s1.time.rates = s.time.rates := by simp [s1]
  cases s1.ipFor p f with
  | none => exact h1
  | some x => dsimp only [Option.elim]; split <;> simp [h1]

@[simp] theorem doIcmpEcho_time_gIdx (dt p : Nat) (f : EthFrame) (s : State) :
    (doIcmpEcho dt p f s).time.gIdx = s.time.gIdx := by
  unfold doIcmpEcho
  extract_lets s1
  have h1 : s1.time.gIdx = s.time.gIdx := by simp [s1]
  cases s1.ipFor p f with
  | none => exact h1
  | some x => dsimp only [Option.elim]; split <;> simp [h1]

@[simp] theorem State.emit_keeps (s : State) (c : Nat) (mac : List Byte) (p : Nat) (e : ClientEntry) (l : Option LaunchMark) :
    (State.emit s c mac p e l).pending = s.pending ∧
    (State.emit s c mac p e l).free = s.free ∧
    (State.emit s c mac p e l).power = s.power ∧
    (State.emit s c mac p e l).fuses = s.fuses ∧
    (State.emit s c mac p e l).straps = s.straps ∧
    (State.emit s c mac p e l).port = s.port ∧
    (State.emit s c mac p e l).spill = s.spill ∧
    (State.emit s c mac p e l).red = s.red ∧
    (State.emit s c mac p e l).mot = s.mot ∧
    (State.emit s c mac p e l).prod = s.prod ∧
    (State.emit s c mac p e l).way = s.way ∧
    (State.emit s c mac p e l).fe = s.fe ∧
    (State.emit s c mac p e l).roads = s.roads ∧
    (State.emit s c mac p e l).hs = s.hs ∧
    (State.emit s c mac p e l).tw = s.tw ∧
    (State.emit s c mac p e l).attn = s.attn ∧
    (State.emit s c mac p e l).clients = s.clients ∧
    (State.emit s c mac p e l).locks = s.locks ∧
    (State.emit s c mac p e l).pin = s.pin ∧
    (State.emit s c mac p e l).age = s.age ∧
    (State.emit s c mac p e l).tap = s.tap ∧
    (State.emit s c mac p e l).time.gRate = s.time.gRate ∧
    (State.emit s c mac p e l).time.rates = s.time.rates ∧
    (State.emit s c mac p e l).time.gIdx = s.time.gIdx := by
  unfold State.emit
  and_intros <;>
    ((try simp) <;> (try (repeat' split)) <;> (try simp))

@[simp] theorem State.emitIdle_keeps (s : State) (c : Nat) (mac : List Byte) (p : Nat) (e : ClientEntry) (l : Option LaunchMark) :
    (State.emitIdle s c mac p e l).pending = s.pending ∧
    (State.emitIdle s c mac p e l).free = s.free ∧
    (State.emitIdle s c mac p e l).power = s.power ∧
    (State.emitIdle s c mac p e l).fuses = s.fuses ∧
    (State.emitIdle s c mac p e l).straps = s.straps ∧
    (State.emitIdle s c mac p e l).port = s.port ∧
    (State.emitIdle s c mac p e l).cw = s.cw ∧
    (State.emitIdle s c mac p e l).spill = s.spill ∧
    (State.emitIdle s c mac p e l).red = s.red ∧
    (State.emitIdle s c mac p e l).mot = s.mot ∧
    (State.emitIdle s c mac p e l).prod = s.prod ∧
    (State.emitIdle s c mac p e l).way = s.way ∧
    (State.emitIdle s c mac p e l).fe = s.fe ∧
    (State.emitIdle s c mac p e l).roads = s.roads ∧
    (State.emitIdle s c mac p e l).hs = s.hs ∧
    (State.emitIdle s c mac p e l).tw = s.tw ∧
    (State.emitIdle s c mac p e l).attn = s.attn ∧
    (State.emitIdle s c mac p e l).clients = s.clients ∧
    (State.emitIdle s c mac p e l).locks = s.locks ∧
    (State.emitIdle s c mac p e l).pin = s.pin ∧
    (State.emitIdle s c mac p e l).age = s.age ∧
    (State.emitIdle s c mac p e l).tap = s.tap ∧
    (State.emitIdle s c mac p e l).time.gRate = s.time.gRate ∧
    (State.emitIdle s c mac p e l).time.rates = s.time.rates ∧
    (State.emitIdle s c mac p e l).time.gIdx = s.time.gIdx := by
  unfold State.emitIdle
  and_intros <;>
    ((try simp) <;> (try (repeat' split)) <;> (try simp))

@[simp] theorem doStreamDatagram_keeps (dt c : Nat) (fs : List LineFinding) (s : State) :
    (doStreamDatagram dt c fs s).pending = s.pending ∧
    (doStreamDatagram dt c fs s).power = s.power ∧
    (doStreamDatagram dt c fs s).fuses = s.fuses ∧
    (doStreamDatagram dt c fs s).straps = s.straps ∧
    (doStreamDatagram dt c fs s).port = s.port ∧
    (doStreamDatagram dt c fs s).red = s.red ∧
    (doStreamDatagram dt c fs s).mot = s.mot ∧
    (doStreamDatagram dt c fs s).prod = s.prod ∧
    (doStreamDatagram dt c fs s).fe = s.fe ∧
    (doStreamDatagram dt c fs s).roads = s.roads ∧
    (doStreamDatagram dt c fs s).hs = s.hs ∧
    (doStreamDatagram dt c fs s).tw = s.tw ∧
    (doStreamDatagram dt c fs s).attn = s.attn ∧
    (doStreamDatagram dt c fs s).clients = s.clients ∧
    (doStreamDatagram dt c fs s).locks = s.locks ∧
    (doStreamDatagram dt c fs s).pin = s.pin ∧
    (doStreamDatagram dt c fs s).tap = s.tap ∧
    (doStreamDatagram dt c fs s).time.gRate = s.time.gRate ∧
    (doStreamDatagram dt c fs s).time.rates = s.time.rates ∧
    (doStreamDatagram dt c fs s).time.gIdx = s.time.gIdx := by
  unfold doStreamDatagram
  and_intros <;>
    ((try simp) <;> (try (repeat' split)) <;> (try simp))

@[simp] theorem doHeartbeat_keeps (dt c : Nat) (s : State) :
    (doHeartbeat dt c s).pending = s.pending ∧
    (doHeartbeat dt c s).free = s.free ∧
    (doHeartbeat dt c s).power = s.power ∧
    (doHeartbeat dt c s).fuses = s.fuses ∧
    (doHeartbeat dt c s).straps = s.straps ∧
    (doHeartbeat dt c s).port = s.port ∧
    (doHeartbeat dt c s).cw = s.cw ∧
    (doHeartbeat dt c s).spill = s.spill ∧
    (doHeartbeat dt c s).red = s.red ∧
    (doHeartbeat dt c s).mot = s.mot ∧
    (doHeartbeat dt c s).prod = s.prod ∧
    (doHeartbeat dt c s).way = s.way ∧
    (doHeartbeat dt c s).fe = s.fe ∧
    (doHeartbeat dt c s).roads = s.roads ∧
    (doHeartbeat dt c s).hs = s.hs ∧
    (doHeartbeat dt c s).tw = s.tw ∧
    (doHeartbeat dt c s).attn = s.attn ∧
    (doHeartbeat dt c s).clients = s.clients ∧
    (doHeartbeat dt c s).locks = s.locks ∧
    (doHeartbeat dt c s).pin = s.pin ∧
    (doHeartbeat dt c s).age = s.age ∧
    (doHeartbeat dt c s).tap = s.tap ∧
    (doHeartbeat dt c s).time.gRate = s.time.gRate ∧
    (doHeartbeat dt c s).time.rates = s.time.rates ∧
    (doHeartbeat dt c s).time.gIdx = s.time.gIdx := by
  unfold doHeartbeat
  and_intros <;>
    ((try simp) <;> (try (repeat' split)) <;> (try simp))

@[simp] theorem State.skipLaunch_keeps (s : State) (entry p : Nat) :
    (State.skipLaunch s entry p).pending = s.pending ∧
    (State.skipLaunch s entry p).free = s.free ∧
    (State.skipLaunch s entry p).power = s.power ∧
    (State.skipLaunch s entry p).time = s.time ∧
    (State.skipLaunch s entry p).fuses = s.fuses ∧
    (State.skipLaunch s entry p).straps = s.straps ∧
    (State.skipLaunch s entry p).port = s.port ∧
    (State.skipLaunch s entry p).cw = s.cw ∧
    (State.skipLaunch s entry p).spill = s.spill ∧
    (State.skipLaunch s entry p).red = s.red ∧
    (State.skipLaunch s entry p).mot = s.mot ∧
    (State.skipLaunch s entry p).prod = s.prod ∧
    (State.skipLaunch s entry p).way = s.way ∧
    (State.skipLaunch s entry p).fe = s.fe ∧
    (State.skipLaunch s entry p).roads = s.roads ∧
    (State.skipLaunch s entry p).hs = s.hs ∧
    (State.skipLaunch s entry p).tw = s.tw ∧
    (State.skipLaunch s entry p).attn = s.attn ∧
    (State.skipLaunch s entry p).clients = s.clients ∧
    (State.skipLaunch s entry p).locks = s.locks ∧
    (State.skipLaunch s entry p).pin = s.pin ∧
    (State.skipLaunch s entry p).age = s.age ∧
    (State.skipLaunch s entry p).tap = s.tap := by
  unfold State.skipLaunch
  and_intros <;>
    ((try simp) <;> (try (repeat' split)) <;> (try simp))

@[simp] theorem launchN_pending (n : Nat) (s : State) (c : Nat) (m : List Byte) (p : Nat) (e : ClientEntry) (l : LaunchMark) :
    (State.launchN n s c m p e l).pending = s.pending := by
  induction n generalizing s with
  | zero => rfl
  | succ n ih => unfold State.launchN; split <;> simp [ih]


@[simp] theorem State_launch_pending (s : State) (entry : Nat) (late : Option Nat) (alarm : Bool) : (s.launch entry late alarm).pending = s.pending := by
  unfold State.launch
  split
  · rfl
  · split
    · split
      · simp
      · dsimp only
        split <;> simp
    · simp

@[simp] theorem launchN_free (n : Nat) (s : State) (c : Nat) (m : List Byte) (p : Nat) (e : ClientEntry) (l : LaunchMark) :
    (State.launchN n s c m p e l).free = s.free := by
  induction n generalizing s with
  | zero => rfl
  | succ n ih => unfold State.launchN; split <;> simp [ih]


@[simp] theorem State_launch_free (s : State) (entry : Nat) (late : Option Nat) (alarm : Bool) : (s.launch entry late alarm).free = s.free := by
  unfold State.launch
  split
  · rfl
  · split
    · split
      · simp
      · dsimp only
        split <;> simp
    · simp

@[simp] theorem launchN_power (n : Nat) (s : State) (c : Nat) (m : List Byte) (p : Nat) (e : ClientEntry) (l : LaunchMark) :
    (State.launchN n s c m p e l).power = s.power := by
  induction n generalizing s with
  | zero => rfl
  | succ n ih => unfold State.launchN; split <;> simp [ih]


@[simp] theorem State_launch_power (s : State) (entry : Nat) (late : Option Nat) (alarm : Bool) : (s.launch entry late alarm).power = s.power := by
  unfold State.launch
  split
  · rfl
  · split
    · split
      · simp
      · dsimp only
        split <;> simp
    · simp

@[simp] theorem launchN_fuses (n : Nat) (s : State) (c : Nat) (m : List Byte) (p : Nat) (e : ClientEntry) (l : LaunchMark) :
    (State.launchN n s c m p e l).fuses = s.fuses := by
  induction n generalizing s with
  | zero => rfl
  | succ n ih => unfold State.launchN; split <;> simp [ih]


@[simp] theorem State_launch_fuses (s : State) (entry : Nat) (late : Option Nat) (alarm : Bool) : (s.launch entry late alarm).fuses = s.fuses := by
  unfold State.launch
  split
  · rfl
  · split
    · split
      · simp
      · dsimp only
        split <;> simp
    · simp

@[simp] theorem launchN_straps (n : Nat) (s : State) (c : Nat) (m : List Byte) (p : Nat) (e : ClientEntry) (l : LaunchMark) :
    (State.launchN n s c m p e l).straps = s.straps := by
  induction n generalizing s with
  | zero => rfl
  | succ n ih => unfold State.launchN; split <;> simp [ih]


@[simp] theorem State_launch_straps (s : State) (entry : Nat) (late : Option Nat) (alarm : Bool) : (s.launch entry late alarm).straps = s.straps := by
  unfold State.launch
  split
  · rfl
  · split
    · split
      · simp
      · dsimp only
        split <;> simp
    · simp

@[simp] theorem launchN_port (n : Nat) (s : State) (c : Nat) (m : List Byte) (p : Nat) (e : ClientEntry) (l : LaunchMark) :
    (State.launchN n s c m p e l).port = s.port := by
  induction n generalizing s with
  | zero => rfl
  | succ n ih => unfold State.launchN; split <;> simp [ih]


@[simp] theorem State_launch_port (s : State) (entry : Nat) (late : Option Nat) (alarm : Bool) : (s.launch entry late alarm).port = s.port := by
  unfold State.launch
  split
  · rfl
  · split
    · split
      · simp
      · dsimp only
        split <;> simp
    · simp

@[simp] theorem launchN_spill (n : Nat) (s : State) (c : Nat) (m : List Byte) (p : Nat) (e : ClientEntry) (l : LaunchMark) :
    (State.launchN n s c m p e l).spill = s.spill := by
  induction n generalizing s with
  | zero => rfl
  | succ n ih => unfold State.launchN; split <;> simp [ih]


@[simp] theorem State_launch_spill (s : State) (entry : Nat) (late : Option Nat) (alarm : Bool) : (s.launch entry late alarm).spill = s.spill := by
  unfold State.launch
  split
  · rfl
  · split
    · split
      · simp
      · dsimp only
        split <;> simp
    · simp

@[simp] theorem launchN_red (n : Nat) (s : State) (c : Nat) (m : List Byte) (p : Nat) (e : ClientEntry) (l : LaunchMark) :
    (State.launchN n s c m p e l).red = s.red := by
  induction n generalizing s with
  | zero => rfl
  | succ n ih => unfold State.launchN; split <;> simp [ih]


@[simp] theorem State_launch_red (s : State) (entry : Nat) (late : Option Nat) (alarm : Bool) : (s.launch entry late alarm).red = s.red := by
  unfold State.launch
  split
  · rfl
  · split
    · split
      · simp
      · dsimp only
        split <;> simp
    · simp

@[simp] theorem launchN_mot (n : Nat) (s : State) (c : Nat) (m : List Byte) (p : Nat) (e : ClientEntry) (l : LaunchMark) :
    (State.launchN n s c m p e l).mot = s.mot := by
  induction n generalizing s with
  | zero => rfl
  | succ n ih => unfold State.launchN; split <;> simp [ih]


@[simp] theorem State_launch_mot (s : State) (entry : Nat) (late : Option Nat) (alarm : Bool) : (s.launch entry late alarm).mot = s.mot := by
  unfold State.launch
  split
  · rfl
  · split
    · split
      · simp
      · dsimp only
        split <;> simp
    · simp

@[simp] theorem launchN_prod (n : Nat) (s : State) (c : Nat) (m : List Byte) (p : Nat) (e : ClientEntry) (l : LaunchMark) :
    (State.launchN n s c m p e l).prod = s.prod := by
  induction n generalizing s with
  | zero => rfl
  | succ n ih => unfold State.launchN; split <;> simp [ih]


@[simp] theorem State_launch_prod (s : State) (entry : Nat) (late : Option Nat) (alarm : Bool) : (s.launch entry late alarm).prod = s.prod := by
  unfold State.launch
  split
  · rfl
  · split
    · split
      · simp
      · dsimp only
        split <;> simp
    · simp

@[simp] theorem launchN_way (n : Nat) (s : State) (c : Nat) (m : List Byte) (p : Nat) (e : ClientEntry) (l : LaunchMark) :
    (State.launchN n s c m p e l).way = s.way := by
  induction n generalizing s with
  | zero => rfl
  | succ n ih => unfold State.launchN; split <;> simp [ih]


@[simp] theorem State_launch_way (s : State) (entry : Nat) (late : Option Nat) (alarm : Bool) : (s.launch entry late alarm).way = s.way := by
  unfold State.launch
  split
  · rfl
  · split
    · split
      · simp
      · dsimp only
        split <;> simp
    · simp

@[simp] theorem launchN_fe (n : Nat) (s : State) (c : Nat) (m : List Byte) (p : Nat) (e : ClientEntry) (l : LaunchMark) :
    (State.launchN n s c m p e l).fe = s.fe := by
  induction n generalizing s with
  | zero => rfl
  | succ n ih => unfold State.launchN; split <;> simp [ih]


@[simp] theorem State_launch_fe (s : State) (entry : Nat) (late : Option Nat) (alarm : Bool) : (s.launch entry late alarm).fe = s.fe := by
  unfold State.launch
  split
  · rfl
  · split
    · split
      · simp
      · dsimp only
        split <;> simp
    · simp

@[simp] theorem launchN_roads (n : Nat) (s : State) (c : Nat) (m : List Byte) (p : Nat) (e : ClientEntry) (l : LaunchMark) :
    (State.launchN n s c m p e l).roads = s.roads := by
  induction n generalizing s with
  | zero => rfl
  | succ n ih => unfold State.launchN; split <;> simp [ih]


@[simp] theorem State_launch_roads (s : State) (entry : Nat) (late : Option Nat) (alarm : Bool) : (s.launch entry late alarm).roads = s.roads := by
  unfold State.launch
  split
  · rfl
  · split
    · split
      · simp
      · dsimp only
        split <;> simp
    · simp

@[simp] theorem launchN_hs (n : Nat) (s : State) (c : Nat) (m : List Byte) (p : Nat) (e : ClientEntry) (l : LaunchMark) :
    (State.launchN n s c m p e l).hs = s.hs := by
  induction n generalizing s with
  | zero => rfl
  | succ n ih => unfold State.launchN; split <;> simp [ih]


@[simp] theorem State_launch_hs (s : State) (entry : Nat) (late : Option Nat) (alarm : Bool) : (s.launch entry late alarm).hs = s.hs := by
  unfold State.launch
  split
  · rfl
  · split
    · split
      · simp
      · dsimp only
        split <;> simp
    · simp

@[simp] theorem launchN_tw (n : Nat) (s : State) (c : Nat) (m : List Byte) (p : Nat) (e : ClientEntry) (l : LaunchMark) :
    (State.launchN n s c m p e l).tw = s.tw := by
  induction n generalizing s with
  | zero => rfl
  | succ n ih => unfold State.launchN; split <;> simp [ih]


@[simp] theorem State_launch_tw (s : State) (entry : Nat) (late : Option Nat) (alarm : Bool) : (s.launch entry late alarm).tw = s.tw := by
  unfold State.launch
  split
  · rfl
  · split
    · split
      · simp
      · dsimp only
        split <;> simp
    · simp

@[simp] theorem launchN_attn (n : Nat) (s : State) (c : Nat) (m : List Byte) (p : Nat) (e : ClientEntry) (l : LaunchMark) :
    (State.launchN n s c m p e l).attn = s.attn := by
  induction n generalizing s with
  | zero => rfl
  | succ n ih => unfold State.launchN; split <;> simp [ih]


@[simp] theorem State_launch_attn (s : State) (entry : Nat) (late : Option Nat) (alarm : Bool) : (s.launch entry late alarm).attn = s.attn := by
  unfold State.launch
  split
  · rfl
  · split
    · split
      · simp
      · dsimp only
        split <;> simp
    · simp

@[simp] theorem launchN_clients (n : Nat) (s : State) (c : Nat) (m : List Byte) (p : Nat) (e : ClientEntry) (l : LaunchMark) :
    (State.launchN n s c m p e l).clients = s.clients := by
  induction n generalizing s with
  | zero => rfl
  | succ n ih => unfold State.launchN; split <;> simp [ih]


@[simp] theorem State_launch_clients (s : State) (entry : Nat) (late : Option Nat) (alarm : Bool) : (s.launch entry late alarm).clients = s.clients := by
  unfold State.launch
  split
  · rfl
  · split
    · split
      · simp
      · dsimp only
        split <;> simp
    · simp

@[simp] theorem launchN_locks (n : Nat) (s : State) (c : Nat) (m : List Byte) (p : Nat) (e : ClientEntry) (l : LaunchMark) :
    (State.launchN n s c m p e l).locks = s.locks := by
  induction n generalizing s with
  | zero => rfl
  | succ n ih => unfold State.launchN; split <;> simp [ih]


@[simp] theorem State_launch_locks (s : State) (entry : Nat) (late : Option Nat) (alarm : Bool) : (s.launch entry late alarm).locks = s.locks := by
  unfold State.launch
  split
  · rfl
  · split
    · split
      · simp
      · dsimp only
        split <;> simp
    · simp

@[simp] theorem launchN_pin (n : Nat) (s : State) (c : Nat) (m : List Byte) (p : Nat) (e : ClientEntry) (l : LaunchMark) :
    (State.launchN n s c m p e l).pin = s.pin := by
  induction n generalizing s with
  | zero => rfl
  | succ n ih => unfold State.launchN; split <;> simp [ih]


@[simp] theorem State_launch_pin (s : State) (entry : Nat) (late : Option Nat) (alarm : Bool) : (s.launch entry late alarm).pin = s.pin := by
  unfold State.launch
  split
  · rfl
  · split
    · split
      · simp
      · dsimp only
        split <;> simp
    · simp

@[simp] theorem launchN_age (n : Nat) (s : State) (c : Nat) (m : List Byte) (p : Nat) (e : ClientEntry) (l : LaunchMark) :
    (State.launchN n s c m p e l).age = s.age := by
  induction n generalizing s with
  | zero => rfl
  | succ n ih => unfold State.launchN; split <;> simp [ih]


@[simp] theorem State_launch_age (s : State) (entry : Nat) (late : Option Nat) (alarm : Bool) : (s.launch entry late alarm).age = s.age := by
  unfold State.launch
  split
  · rfl
  · split
    · split
      · simp
      · dsimp only
        split <;> simp
    · simp

@[simp] theorem launchN_tap (n : Nat) (s : State) (c : Nat) (m : List Byte) (p : Nat) (e : ClientEntry) (l : LaunchMark) :
    (State.launchN n s c m p e l).tap = s.tap := by
  induction n generalizing s with
  | zero => rfl
  | succ n ih => unfold State.launchN; split <;> simp [ih]


@[simp] theorem State_launch_tap (s : State) (entry : Nat) (late : Option Nat) (alarm : Bool) : (s.launch entry late alarm).tap = s.tap := by
  unfold State.launch
  split
  · rfl
  · split
    · split
      · simp
      · dsimp only
        split <;> simp
    · simp

@[simp] theorem launchN_time_gRate (n : Nat) (s : State) (c : Nat) (m : List Byte) (p : Nat) (e : ClientEntry) (l : LaunchMark) :
    (State.launchN n s c m p e l).time.gRate = s.time.gRate := by
  induction n generalizing s with
  | zero => rfl
  | succ n ih => unfold State.launchN; split <;> simp [ih]


@[simp] theorem State_launch_time_gRate (s : State) (entry : Nat) (late : Option Nat) (alarm : Bool) : (s.launch entry late alarm).time.gRate = s.time.gRate := by
  unfold State.launch
  split
  · rfl
  · split
    · split
      · simp
      · dsimp only
        split <;> simp
    · simp

@[simp] theorem launchN_time_rates (n : Nat) (s : State) (c : Nat) (m : List Byte) (p : Nat) (e : ClientEntry) (l : LaunchMark) :
    (State.launchN n s c m p e l).time.rates = s.time.rates := by
  induction n generalizing s with
  | zero => rfl
  | succ n ih => unfold State.launchN; split <;> simp [ih]


@[simp] theorem State_launch_time_rates (s : State) (entry : Nat) (late : Option Nat) (alarm : Bool) : (s.launch entry late alarm).time.rates = s.time.rates := by
  unfold State.launch
  split
  · rfl
  · split
    · split
      · simp
      · dsimp only
        split <;> simp
    · simp

@[simp] theorem launchN_time_gIdx (n : Nat) (s : State) (c : Nat) (m : List Byte) (p : Nat) (e : ClientEntry) (l : LaunchMark) :
    (State.launchN n s c m p e l).time.gIdx = s.time.gIdx := by
  induction n generalizing s with
  | zero => rfl
  | succ n ih => unfold State.launchN; split <;> simp [ih]


@[simp] theorem State_launch_time_gIdx (s : State) (entry : Nat) (late : Option Nat) (alarm : Bool) : (s.launch entry late alarm).time.gIdx = s.time.gIdx := by
  unfold State.launch
  split
  · rfl
  · split
    · split
      · simp
      · dsimp only
        split <;> simp
    · simp

@[simp] theorem State.setOccurrence_keeps (s : State) (entry least : Nat) :
    (State.setOccurrence s entry least).pending = s.pending ∧
    (State.setOccurrence s entry least).free = s.free ∧
    (State.setOccurrence s entry least).power = s.power ∧
    (State.setOccurrence s entry least).fuses = s.fuses ∧
    (State.setOccurrence s entry least).straps = s.straps ∧
    (State.setOccurrence s entry least).port = s.port ∧
    (State.setOccurrence s entry least).cw = s.cw ∧
    (State.setOccurrence s entry least).spill = s.spill ∧
    (State.setOccurrence s entry least).red = s.red ∧
    (State.setOccurrence s entry least).mot = s.mot ∧
    (State.setOccurrence s entry least).prod = s.prod ∧
    (State.setOccurrence s entry least).way = s.way ∧
    (State.setOccurrence s entry least).fe = s.fe ∧
    (State.setOccurrence s entry least).roads = s.roads ∧
    (State.setOccurrence s entry least).hs = s.hs ∧
    (State.setOccurrence s entry least).tw = s.tw ∧
    (State.setOccurrence s entry least).attn = s.attn ∧
    (State.setOccurrence s entry least).clients = s.clients ∧
    (State.setOccurrence s entry least).locks = s.locks ∧
    (State.setOccurrence s entry least).pin = s.pin ∧
    (State.setOccurrence s entry least).age = s.age ∧
    (State.setOccurrence s entry least).tap = s.tap ∧
    (State.setOccurrence s entry least).time.gRate = s.time.gRate ∧
    (State.setOccurrence s entry least).time.rates = s.time.rates ∧
    (State.setOccurrence s entry least).time.gIdx = s.time.gIdx := by
  unfold State.setOccurrence
  and_intros <;>
    ((try simp) <;> (try (repeat' split)) <;> (try simp))

@[simp] theorem State.setOccurrences_keeps (s : State) :
    (State.setOccurrences s).pending = s.pending ∧
    (State.setOccurrences s).free = s.free ∧
    (State.setOccurrences s).power = s.power ∧
    (State.setOccurrences s).fuses = s.fuses ∧
    (State.setOccurrences s).straps = s.straps ∧
    (State.setOccurrences s).port = s.port ∧
    (State.setOccurrences s).cw = s.cw ∧
    (State.setOccurrences s).spill = s.spill ∧
    (State.setOccurrences s).red = s.red ∧
    (State.setOccurrences s).mot = s.mot ∧
    (State.setOccurrences s).prod = s.prod ∧
    (State.setOccurrences s).way = s.way ∧
    (State.setOccurrences s).fe = s.fe ∧
    (State.setOccurrences s).roads = s.roads ∧
    (State.setOccurrences s).hs = s.hs ∧
    (State.setOccurrences s).tw = s.tw ∧
    (State.setOccurrences s).attn = s.attn ∧
    (State.setOccurrences s).clients = s.clients ∧
    (State.setOccurrences s).locks = s.locks ∧
    (State.setOccurrences s).pin = s.pin ∧
    (State.setOccurrences s).age = s.age ∧
    (State.setOccurrences s).tap = s.tap ∧
    (State.setOccurrences s).time.gRate = s.time.gRate ∧
    (State.setOccurrences s).time.rates = s.time.rates ∧
    (State.setOccurrences s).time.gIdx = s.time.gIdx := by
  unfold State.setOccurrences
  and_intros <;>
    ((try simp) <;> (try (repeat' split)) <;> (try simp))

@[simp] theorem State.dropOccurrences_keeps (s : State) (old im : Image) :
    (State.dropOccurrences s old im).pending = s.pending ∧
    (State.dropOccurrences s old im).free = s.free ∧
    (State.dropOccurrences s old im).power = s.power ∧
    (State.dropOccurrences s old im).fuses = s.fuses ∧
    (State.dropOccurrences s old im).straps = s.straps ∧
    (State.dropOccurrences s old im).port = s.port ∧
    (State.dropOccurrences s old im).cw = s.cw ∧
    (State.dropOccurrences s old im).spill = s.spill ∧
    (State.dropOccurrences s old im).red = s.red ∧
    (State.dropOccurrences s old im).mot = s.mot ∧
    (State.dropOccurrences s old im).prod = s.prod ∧
    (State.dropOccurrences s old im).way = s.way ∧
    (State.dropOccurrences s old im).fe = s.fe ∧
    (State.dropOccurrences s old im).roads = s.roads ∧
    (State.dropOccurrences s old im).up = s.up ∧
    (State.dropOccurrences s old im).hs = s.hs ∧
    (State.dropOccurrences s old im).tw = s.tw ∧
    (State.dropOccurrences s old im).attn = s.attn ∧
    (State.dropOccurrences s old im).clients = s.clients ∧
    (State.dropOccurrences s old im).locks = s.locks ∧
    (State.dropOccurrences s old im).pin = s.pin ∧
    (State.dropOccurrences s old im).age = s.age ∧
    (State.dropOccurrences s old im).tap = s.tap ∧
    (State.dropOccurrences s old im).time.gRate = s.time.gRate ∧
    (State.dropOccurrences s old im).time.rates = s.time.rates ∧
    (State.dropOccurrences s old im).time.gIdx = s.time.gIdx := by
  unfold State.dropOccurrences
  and_intros <;>
    ((try simp) <;> (try (repeat' split)) <;> (try simp))

@[simp] theorem State.launchFindings_keeps (s : State) (entry : Nat) (fs : List LineFinding) :
    (State.launchFindings s entry fs).pending = s.pending ∧
    (State.launchFindings s entry fs).power = s.power ∧
    (State.launchFindings s entry fs).time = s.time ∧
    (State.launchFindings s entry fs).fuses = s.fuses ∧
    (State.launchFindings s entry fs).straps = s.straps ∧
    (State.launchFindings s entry fs).port = s.port ∧
    (State.launchFindings s entry fs).red = s.red ∧
    (State.launchFindings s entry fs).mot = s.mot ∧
    (State.launchFindings s entry fs).prod = s.prod ∧
    (State.launchFindings s entry fs).fe = s.fe ∧
    (State.launchFindings s entry fs).roads = s.roads ∧
    (State.launchFindings s entry fs).up = s.up ∧
    (State.launchFindings s entry fs).hs = s.hs ∧
    (State.launchFindings s entry fs).tw = s.tw ∧
    (State.launchFindings s entry fs).attn = s.attn ∧
    (State.launchFindings s entry fs).clients = s.clients ∧
    (State.launchFindings s entry fs).locks = s.locks ∧
    (State.launchFindings s entry fs).pin = s.pin ∧
    (State.launchFindings s entry fs).tap = s.tap := by
  unfold State.launchFindings
  and_intros <;>
    ((try simp) <;> (try (repeat' split)) <;> (try simp))

@[simp] theorem State.runAct_keeps (s : State) (a : Action) :
    (State.runAct s a).pending = s.pending ∧
    (State.runAct s a).free = s.free ∧
    (State.runAct s a).power = s.power ∧
    (State.runAct s a).fuses = s.fuses ∧
    (State.runAct s a).straps = s.straps ∧
    (State.runAct s a).port = s.port ∧
    (State.runAct s a).spill = s.spill ∧
    (State.runAct s a).red = s.red ∧
    (State.runAct s a).mot = s.mot ∧
    (State.runAct s a).prod = s.prod ∧
    (State.runAct s a).way = s.way ∧
    (State.runAct s a).fe = s.fe ∧
    (State.runAct s a).roads = s.roads ∧
    (State.runAct s a).hs = s.hs ∧
    (State.runAct s a).tw = s.tw ∧
    (State.runAct s a).attn = s.attn ∧
    (State.runAct s a).clients = s.clients ∧
    (State.runAct s a).locks = s.locks ∧
    (State.runAct s a).pin = s.pin ∧
    (State.runAct s a).age = s.age ∧
    (State.runAct s a).tap = s.tap ∧
    (State.runAct s a).time.gRate = s.time.gRate ∧
    (State.runAct s a).time.rates = s.time.rates ∧
    (State.runAct s a).time.gIdx = s.time.gIdx := by
  unfold State.runAct
  and_intros <;>
    ((try simp) <;> (try (repeat' split)) <;> (try simp))

@[simp] theorem doPtpDelayReq_keeps (dt x : Nat) (s : State) :
    (doPtpDelayReq dt x s).pending = s.pending ∧
    (doPtpDelayReq dt x s).free = s.free ∧
    (doPtpDelayReq dt x s).power = s.power ∧
    (doPtpDelayReq dt x s).fuses = s.fuses ∧
    (doPtpDelayReq dt x s).straps = s.straps ∧
    (doPtpDelayReq dt x s).port = s.port ∧
    (doPtpDelayReq dt x s).cw = s.cw ∧
    (doPtpDelayReq dt x s).spill = s.spill ∧
    (doPtpDelayReq dt x s).red = s.red ∧
    (doPtpDelayReq dt x s).mot = s.mot ∧
    (doPtpDelayReq dt x s).prod = s.prod ∧
    (doPtpDelayReq dt x s).way = s.way ∧
    (doPtpDelayReq dt x s).fe = s.fe ∧
    (doPtpDelayReq dt x s).roads = s.roads ∧
    (doPtpDelayReq dt x s).hs = s.hs ∧
    (doPtpDelayReq dt x s).tw = s.tw ∧
    (doPtpDelayReq dt x s).attn = s.attn ∧
    (doPtpDelayReq dt x s).clients = s.clients ∧
    (doPtpDelayReq dt x s).locks = s.locks ∧
    (doPtpDelayReq dt x s).pin = s.pin ∧
    (doPtpDelayReq dt x s).age = s.age ∧
    (doPtpDelayReq dt x s).tap = s.tap ∧
    (doPtpDelayReq dt x s).time.gRate = s.time.gRate ∧
    (doPtpDelayReq dt x s).time.rates = s.time.rates ∧
    (doPtpDelayReq dt x s).time.gIdx = s.time.gIdx := by
  unfold doPtpDelayReq
  and_intros <;>
    ((try simp) <;> (try (repeat' split)) <;> (try simp))

@[simp] theorem State.accepted_keeps (s : State) (c : Nat) (cmp : BitVec 16) (acc : Nat) :
    (State.accepted s c cmp acc).pending = s.pending ∧
    (State.accepted s c cmp acc).free = s.free ∧
    (State.accepted s c cmp acc).power = s.power ∧
    (State.accepted s c cmp acc).fuses = s.fuses ∧
    (State.accepted s c cmp acc).straps = s.straps ∧
    (State.accepted s c cmp acc).port = s.port ∧
    (State.accepted s c cmp acc).cw = s.cw ∧
    (State.accepted s c cmp acc).spill = s.spill ∧
    (State.accepted s c cmp acc).red = s.red ∧
    (State.accepted s c cmp acc).mot = s.mot ∧
    (State.accepted s c cmp acc).prod = s.prod ∧
    (State.accepted s c cmp acc).way = s.way ∧
    (State.accepted s c cmp acc).fe = s.fe ∧
    (State.accepted s c cmp acc).roads = s.roads ∧
    (State.accepted s c cmp acc).hs = s.hs ∧
    (State.accepted s c cmp acc).tw = s.tw ∧
    (State.accepted s c cmp acc).attn = s.attn ∧
    (State.accepted s c cmp acc).locks = s.locks ∧
    (State.accepted s c cmp acc).pin = s.pin ∧
    (State.accepted s c cmp acc).age = s.age ∧
    (State.accepted s c cmp acc).tap = s.tap ∧
    (State.accepted s c cmp acc).time.gRate = s.time.gRate ∧
    (State.accepted s c cmp acc).time.rates = s.time.rates ∧
    (State.accepted s c cmp acc).time.gIdx = s.time.gIdx := by
  unfold State.accepted
  and_intros <;>
    ((try simp) <;> (try (repeat' split)) <;> (try simp))

@[simp] theorem State.resend_keeps (s : State) (c : Nat) (cmp : BitVec 16) :
    (State.resend s c cmp).pending = s.pending ∧
    (State.resend s c cmp).free = s.free ∧
    (State.resend s c cmp).power = s.power ∧
    (State.resend s c cmp).time = s.time ∧
    (State.resend s c cmp).fuses = s.fuses ∧
    (State.resend s c cmp).straps = s.straps ∧
    (State.resend s c cmp).port = s.port ∧
    (State.resend s c cmp).cw = s.cw ∧
    (State.resend s c cmp).spill = s.spill ∧
    (State.resend s c cmp).red = s.red ∧
    (State.resend s c cmp).mot = s.mot ∧
    (State.resend s c cmp).prod = s.prod ∧
    (State.resend s c cmp).way = s.way ∧
    (State.resend s c cmp).fe = s.fe ∧
    (State.resend s c cmp).roads = s.roads ∧
    (State.resend s c cmp).up = s.up ∧
    (State.resend s c cmp).hs = s.hs ∧
    (State.resend s c cmp).tw = s.tw ∧
    (State.resend s c cmp).attn = s.attn ∧
    (State.resend s c cmp).locks = s.locks ∧
    (State.resend s c cmp).pin = s.pin ∧
    (State.resend s c cmp).age = s.age ∧
    (State.resend s c cmp).tap = s.tap := by
  unfold State.resend
  and_intros <;>
    ((try simp) <;> (try (repeat' split)) <;> (try simp))

@[simp] theorem State.takeMessage_keeps (s : State) (c role : Nat) (m : List Word) :
    (State.takeMessage s c role m).pending = s.pending ∧
    (State.takeMessage s c role m).free = s.free ∧
    (State.takeMessage s c role m).power = s.power ∧
    (State.takeMessage s c role m).fuses = s.fuses ∧
    (State.takeMessage s c role m).straps = s.straps ∧
    (State.takeMessage s c role m).port = s.port ∧
    (State.takeMessage s c role m).cw = s.cw ∧
    (State.takeMessage s c role m).spill = s.spill ∧
    (State.takeMessage s c role m).red = s.red ∧
    (State.takeMessage s c role m).mot = s.mot ∧
    (State.takeMessage s c role m).prod = s.prod ∧
    (State.takeMessage s c role m).way = s.way ∧
    (State.takeMessage s c role m).fe = s.fe ∧
    (State.takeMessage s c role m).roads = s.roads ∧
    (State.takeMessage s c role m).hs = s.hs ∧
    (State.takeMessage s c role m).tw = s.tw ∧
    (State.takeMessage s c role m).attn = s.attn ∧
    (State.takeMessage s c role m).locks = s.locks ∧
    (State.takeMessage s c role m).pin = s.pin ∧
    (State.takeMessage s c role m).age = s.age ∧
    (State.takeMessage s c role m).tap = s.tap ∧
    (State.takeMessage s c role m).time.gRate = s.time.gRate ∧
    (State.takeMessage s c role m).time.rates = s.time.rates ∧
    (State.takeMessage s c role m).time.gIdx = s.time.gIdx := by
  unfold State.takeMessage
  and_intros <;>
    ((try simp) <;> (try (repeat' split)) <;> (try simp))

@[simp] theorem doMessageAccept_keeps (c : Nat) (s : State) :
    (doMessageAccept c s).pending = s.pending ∧
    (doMessageAccept c s).free = s.free ∧
    (doMessageAccept c s).power = s.power ∧
    (doMessageAccept c s).fuses = s.fuses ∧
    (doMessageAccept c s).straps = s.straps ∧
    (doMessageAccept c s).port = s.port ∧
    (doMessageAccept c s).cw = s.cw ∧
    (doMessageAccept c s).spill = s.spill ∧
    (doMessageAccept c s).red = s.red ∧
    (doMessageAccept c s).mot = s.mot ∧
    (doMessageAccept c s).prod = s.prod ∧
    (doMessageAccept c s).way = s.way ∧
    (doMessageAccept c s).fe = s.fe ∧
    (doMessageAccept c s).roads = s.roads ∧
    (doMessageAccept c s).hs = s.hs ∧
    (doMessageAccept c s).tw = s.tw ∧
    (doMessageAccept c s).attn = s.attn ∧
    (doMessageAccept c s).locks = s.locks ∧
    (doMessageAccept c s).pin = s.pin ∧
    (doMessageAccept c s).age = s.age ∧
    (doMessageAccept c s).tap = s.tap ∧
    (doMessageAccept c s).time.gRate = s.time.gRate ∧
    (doMessageAccept c s).time.rates = s.time.rates ∧
    (doMessageAccept c s).time.gIdx = s.time.gIdx := by
  unfold doMessageAccept
  and_intros <;>
    ((try simp) <;> (try (repeat' split)) <;> (try simp))

@[simp] theorem State.takeControl_keeps (s : State) (p : Nat) (f : EthFrame) (x : IpIn) :
    (State.takeControl s p f x).pending = s.pending ∧
    (State.takeControl s p f x).free = s.free ∧
    (State.takeControl s p f x).power = s.power ∧
    (State.takeControl s p f x).fuses = s.fuses ∧
    (State.takeControl s p f x).straps = s.straps ∧
    (State.takeControl s p f x).port = s.port ∧
    (State.takeControl s p f x).cw = s.cw ∧
    (State.takeControl s p f x).spill = s.spill ∧
    (State.takeControl s p f x).red = s.red ∧
    (State.takeControl s p f x).mot = s.mot ∧
    (State.takeControl s p f x).prod = s.prod ∧
    (State.takeControl s p f x).way = s.way ∧
    (State.takeControl s p f x).fe = s.fe ∧
    (State.takeControl s p f x).roads = s.roads ∧
    (State.takeControl s p f x).hs = s.hs ∧
    (State.takeControl s p f x).tw = s.tw ∧
    (State.takeControl s p f x).attn = s.attn ∧
    (State.takeControl s p f x).locks = s.locks ∧
    (State.takeControl s p f x).pin = s.pin ∧
    (State.takeControl s p f x).age = s.age ∧
    (State.takeControl s p f x).tap = s.tap ∧
    (State.takeControl s p f x).time.gRate = s.time.gRate ∧
    (State.takeControl s p f x).time.rates = s.time.rates ∧
    (State.takeControl s p f x).time.gIdx = s.time.gIdx := by
  unfold State.takeControl
  and_intros <;>
    ((try simp) <;> (try (repeat' split)) <;> (try simp))

@[simp] theorem doControlDatagram_keeps (p : Nat) (f : EthFrame) (s : State) :
    (doControlDatagram p f s).pending = s.pending ∧
    (doControlDatagram p f s).free = s.free ∧
    (doControlDatagram p f s).power = s.power ∧
    (doControlDatagram p f s).fuses = s.fuses ∧
    (doControlDatagram p f s).straps = s.straps ∧
    (doControlDatagram p f s).port = s.port ∧
    (doControlDatagram p f s).cw = s.cw ∧
    (doControlDatagram p f s).spill = s.spill ∧
    (doControlDatagram p f s).red = s.red ∧
    (doControlDatagram p f s).mot = s.mot ∧
    (doControlDatagram p f s).prod = s.prod ∧
    (doControlDatagram p f s).way = s.way ∧
    (doControlDatagram p f s).fe = s.fe ∧
    (doControlDatagram p f s).roads = s.roads ∧
    (doControlDatagram p f s).hs = s.hs ∧
    (doControlDatagram p f s).tw = s.tw ∧
    (doControlDatagram p f s).attn = s.attn ∧
    (doControlDatagram p f s).locks = s.locks ∧
    (doControlDatagram p f s).pin = s.pin ∧
    (doControlDatagram p f s).age = s.age ∧
    (doControlDatagram p f s).tap = s.tap ∧
    (doControlDatagram p f s).time.gRate = s.time.gRate ∧
    (doControlDatagram p f s).time.rates = s.time.rates ∧
    (doControlDatagram p f s).time.gIdx = s.time.gIdx := by
  unfold doControlDatagram
  and_intros <;>
    ((try simp) <;> (try (repeat' split)) <;> (try simp))

@[simp] theorem State.popWork_keeps (s : State) (c : Nat) :
    (State.popWork s c).pending = s.pending ∧
    (State.popWork s c).free = s.free ∧
    (State.popWork s c).power = s.power ∧
    (State.popWork s c).time = s.time ∧
    (State.popWork s c).fuses = s.fuses ∧
    (State.popWork s c).straps = s.straps ∧
    (State.popWork s c).port = s.port ∧
    (State.popWork s c).cw = s.cw ∧
    (State.popWork s c).spill = s.spill ∧
    (State.popWork s c).red = s.red ∧
    (State.popWork s c).mot = s.mot ∧
    (State.popWork s c).prod = s.prod ∧
    (State.popWork s c).way = s.way ∧
    (State.popWork s c).fe = s.fe ∧
    (State.popWork s c).roads = s.roads ∧
    (State.popWork s c).up = s.up ∧
    (State.popWork s c).hs = s.hs ∧
    (State.popWork s c).tw = s.tw ∧
    (State.popWork s c).attn = s.attn ∧
    (State.popWork s c).locks = s.locks ∧
    (State.popWork s c).pin = s.pin ∧
    (State.popWork s c).age = s.age ∧
    (State.popWork s c).tap = s.tap := by
  unfold State.popWork
  and_intros <;>
    ((try simp) <;> (try (repeat' split)) <;> (try simp))

@[simp] theorem State_handle_pending (s : State) (c typ : Nat) (k : List Word → BitVec 16 → State → State)
    (hk : ∀ m x t, (k m x t).pending = t.pending) : (s.handle c typ k).pending = s.pending := by
  unfold State.handle
  (repeat' split) <;> simp [hk]

@[simp] theorem State_handle_free (s : State) (c typ : Nat) (k : List Word → BitVec 16 → State → State)
    (hk : ∀ m x t, (k m x t).free = t.free) : (s.handle c typ k).free = s.free := by
  unfold State.handle
  (repeat' split) <;> simp [hk]

@[simp] theorem State_handle_power (s : State) (c typ : Nat) (k : List Word → BitVec 16 → State → State)
    (hk : ∀ m x t, (k m x t).power = t.power) : (s.handle c typ k).power = s.power := by
  unfold State.handle
  (repeat' split) <;> simp [hk]

@[simp] theorem State_handle_fuses (s : State) (c typ : Nat) (k : List Word → BitVec 16 → State → State)
    (hk : ∀ m x t, (k m x t).fuses = t.fuses) : (s.handle c typ k).fuses = s.fuses := by
  unfold State.handle
  (repeat' split) <;> simp [hk]

@[simp] theorem State_handle_straps (s : State) (c typ : Nat) (k : List Word → BitVec 16 → State → State)
    (hk : ∀ m x t, (k m x t).straps = t.straps) : (s.handle c typ k).straps = s.straps := by
  unfold State.handle
  (repeat' split) <;> simp [hk]

@[simp] theorem State_handle_port (s : State) (c typ : Nat) (k : List Word → BitVec 16 → State → State)
    (hk : ∀ m x t, (k m x t).port = t.port) : (s.handle c typ k).port = s.port := by
  unfold State.handle
  (repeat' split) <;> simp [hk]

@[simp] theorem State_handle_cw (s : State) (c typ : Nat) (k : List Word → BitVec 16 → State → State)
    (hk : ∀ m x t, (k m x t).cw = t.cw) : (s.handle c typ k).cw = s.cw := by
  unfold State.handle
  (repeat' split) <;> simp [hk]

@[simp] theorem State_handle_spill (s : State) (c typ : Nat) (k : List Word → BitVec 16 → State → State)
    (hk : ∀ m x t, (k m x t).spill = t.spill) : (s.handle c typ k).spill = s.spill := by
  unfold State.handle
  (repeat' split) <;> simp [hk]

@[simp] theorem State_handle_red (s : State) (c typ : Nat) (k : List Word → BitVec 16 → State → State)
    (hk : ∀ m x t, (k m x t).red = t.red) : (s.handle c typ k).red = s.red := by
  unfold State.handle
  (repeat' split) <;> simp [hk]

@[simp] theorem State_handle_mot (s : State) (c typ : Nat) (k : List Word → BitVec 16 → State → State)
    (hk : ∀ m x t, (k m x t).mot = t.mot) : (s.handle c typ k).mot = s.mot := by
  unfold State.handle
  (repeat' split) <;> simp [hk]

@[simp] theorem State_handle_prod (s : State) (c typ : Nat) (k : List Word → BitVec 16 → State → State)
    (hk : ∀ m x t, (k m x t).prod = t.prod) : (s.handle c typ k).prod = s.prod := by
  unfold State.handle
  (repeat' split) <;> simp [hk]

@[simp] theorem State_handle_way (s : State) (c typ : Nat) (k : List Word → BitVec 16 → State → State)
    (hk : ∀ m x t, (k m x t).way = t.way) : (s.handle c typ k).way = s.way := by
  unfold State.handle
  (repeat' split) <;> simp [hk]

@[simp] theorem State_handle_fe (s : State) (c typ : Nat) (k : List Word → BitVec 16 → State → State)
    (hk : ∀ m x t, (k m x t).fe = t.fe) : (s.handle c typ k).fe = s.fe := by
  unfold State.handle
  (repeat' split) <;> simp [hk]

@[simp] theorem State_handle_roads (s : State) (c typ : Nat) (k : List Word → BitVec 16 → State → State)
    (hk : ∀ m x t, (k m x t).roads = t.roads) : (s.handle c typ k).roads = s.roads := by
  unfold State.handle
  (repeat' split) <;> simp [hk]

@[simp] theorem State_handle_hs (s : State) (c typ : Nat) (k : List Word → BitVec 16 → State → State)
    (hk : ∀ m x t, (k m x t).hs = t.hs) : (s.handle c typ k).hs = s.hs := by
  unfold State.handle
  (repeat' split) <;> simp [hk]

@[simp] theorem State_handle_tw (s : State) (c typ : Nat) (k : List Word → BitVec 16 → State → State)
    (hk : ∀ m x t, (k m x t).tw = t.tw) : (s.handle c typ k).tw = s.tw := by
  unfold State.handle
  (repeat' split) <;> simp [hk]

@[simp] theorem State_handle_attn (s : State) (c typ : Nat) (k : List Word → BitVec 16 → State → State)
    (hk : ∀ m x t, (k m x t).attn = t.attn) : (s.handle c typ k).attn = s.attn := by
  unfold State.handle
  (repeat' split) <;> simp [hk]

@[simp] theorem State_handle_locks (s : State) (c typ : Nat) (k : List Word → BitVec 16 → State → State)
    (hk : ∀ m x t, (k m x t).locks = t.locks) : (s.handle c typ k).locks = s.locks := by
  unfold State.handle
  (repeat' split) <;> simp [hk]

@[simp] theorem State_handle_pin (s : State) (c typ : Nat) (k : List Word → BitVec 16 → State → State)
    (hk : ∀ m x t, (k m x t).pin = t.pin) : (s.handle c typ k).pin = s.pin := by
  unfold State.handle
  (repeat' split) <;> simp [hk]

@[simp] theorem State_handle_age (s : State) (c typ : Nat) (k : List Word → BitVec 16 → State → State)
    (hk : ∀ m x t, (k m x t).age = t.age) : (s.handle c typ k).age = s.age := by
  unfold State.handle
  (repeat' split) <;> simp [hk]

@[simp] theorem State_handle_tap (s : State) (c typ : Nat) (k : List Word → BitVec 16 → State → State)
    (hk : ∀ m x t, (k m x t).tap = t.tap) : (s.handle c typ k).tap = s.tap := by
  unfold State.handle
  (repeat' split) <;> simp [hk]

@[simp] theorem State_handle_port_inForce (s : State) (c typ : Nat) (k : List Word → BitVec 16 → State → State)
    (hk : ∀ m x t, (k m x t).port.inForce = t.port.inForce) : (s.handle c typ k).port.inForce = s.port.inForce := by
  unfold State.handle
  (repeat' split) <;> simp [hk]

@[simp] theorem State_handle_power_mode (s : State) (c typ : Nat) (k : List Word → BitVec 16 → State → State)
    (hk : ∀ m x t, (k m x t).power.mode = t.power.mode) : (s.handle c typ k).power.mode = s.power.mode := by
  unfold State.handle
  (repeat' split) <;> simp [hk]

@[simp] theorem State_handle_time_gRate (s : State) (c typ : Nat) (k : List Word → BitVec 16 → State → State)
    (hk : ∀ m x t, (k m x t).time.gRate = t.time.gRate) : (s.handle c typ k).time.gRate = s.time.gRate := by
  unfold State.handle
  (repeat' split) <;> simp [hk]

@[simp] theorem State_handle_time_rates (s : State) (c typ : Nat) (k : List Word → BitVec 16 → State → State)
    (hk : ∀ m x t, (k m x t).time.rates = t.time.rates) : (s.handle c typ k).time.rates = s.time.rates := by
  unfold State.handle
  (repeat' split) <;> simp [hk]

@[simp] theorem State_handle_time_gIdx (s : State) (c typ : Nat) (k : List Word → BitVec 16 → State → State)
    (hk : ∀ m x t, (k m x t).time.gIdx = t.time.gIdx) : (s.handle c typ k).time.gIdx = s.time.gIdx := by
  unfold State.handle
  (repeat' split) <;> simp [hk]

@[simp] theorem State.dropRep_keeps (s : State) (c : Nat) (cmp : BitVec 16) (typ : Nat) :
    (State.dropRep s c cmp typ).pending = s.pending ∧
    (State.dropRep s c cmp typ).free = s.free ∧
    (State.dropRep s c cmp typ).power = s.power ∧
    (State.dropRep s c cmp typ).time = s.time ∧
    (State.dropRep s c cmp typ).fuses = s.fuses ∧
    (State.dropRep s c cmp typ).straps = s.straps ∧
    (State.dropRep s c cmp typ).port = s.port ∧
    (State.dropRep s c cmp typ).cw = s.cw ∧
    (State.dropRep s c cmp typ).spill = s.spill ∧
    (State.dropRep s c cmp typ).red = s.red ∧
    (State.dropRep s c cmp typ).mot = s.mot ∧
    (State.dropRep s c cmp typ).prod = s.prod ∧
    (State.dropRep s c cmp typ).way = s.way ∧
    (State.dropRep s c cmp typ).fe = s.fe ∧
    (State.dropRep s c cmp typ).roads = s.roads ∧
    (State.dropRep s c cmp typ).up = s.up ∧
    (State.dropRep s c cmp typ).hs = s.hs ∧
    (State.dropRep s c cmp typ).tw = s.tw ∧
    (State.dropRep s c cmp typ).attn = s.attn ∧
    (State.dropRep s c cmp typ).locks = s.locks ∧
    (State.dropRep s c cmp typ).pin = s.pin ∧
    (State.dropRep s c cmp typ).age = s.age ∧
    (State.dropRep s c cmp typ).tap = s.tap := by
  unfold State.dropRep
  and_intros <;>
    ((try simp) <;> (try (repeat' split)) <;> (try simp))

theorem decideLock_pending (s : State) (c : Nat) (m : List Word) : (s.decideLock c m).2.2.pending = s.pending := by
  unfold State.decideLock
  dsimp only
  (repeat' split) <;> simp


theorem lockClientF_pending (f c : Nat) (s : State) (ds : List Decided) : (State.lockClientF f c s ds).1.pending = s.pending := by
  induction f generalizing s ds with
  | zero => rfl
  | succ f ih =>
    unfold State.lockClientF
    split
    · rename_i m _ _ _
      have h := decideLock_pending s c m
      split
      · split
        · rfl
        · simp [ih]
        · generalize s.decideLock c m = y at *
          obtain ⟨r, k, t⟩ := y
          simpa [ih] using h
      · rfl
    · rfl


@[simp] theorem doLockDecision_pending (s : State) : (doLockDecision s).pending = s.pending := by
  unfold doLockDecision
  have h : ∀ l : List Nat, ∀ x : State × List Decided, (l.foldl (fun (x : State × List Decided) c =>
      State.lockClientF ((nth x.1.clients c).work.length + 1) c x.1 x.2) x).1.pending = x.1.pending := by
    intro l x
    exact foldl_keep (fun x : State × List Decided => x.1.pending) _ (fun b a => lockClientF_pending _ _ _ _) l x
  have h1 := h [5, 4, 0, 1, 2, 3] (s, [])
  generalize ([5, 4, 0, 1, 2, 3].foldl _ (s, [])) = y at *
  obtain ⟨t, ds⟩ := y
  simpa using h1

theorem decideLock_free (s : State) (c : Nat) (m : List Word) : (s.decideLock c m).2.2.free = s.free := by
  unfold State.decideLock
  dsimp only
  (repeat' split) <;> simp


theorem lockClientF_free (f c : Nat) (s : State) (ds : List Decided) : (State.lockClientF f c s ds).1.free = s.free := by
  induction f generalizing s ds with
  | zero => rfl
  | succ f ih =>
    unfold State.lockClientF
    split
    · rename_i m _ _ _
      have h := decideLock_free s c m
      split
      · split
        · rfl
        · simp [ih]
        · generalize s.decideLock c m = y at *
          obtain ⟨r, k, t⟩ := y
          simpa [ih] using h
      · rfl
    · rfl


@[simp] theorem doLockDecision_free (s : State) : (doLockDecision s).free = s.free := by
  unfold doLockDecision
  have h : ∀ l : List Nat, ∀ x : State × List Decided, (l.foldl (fun (x : State × List Decided) c =>
      State.lockClientF ((nth x.1.clients c).work.length + 1) c x.1 x.2) x).1.free = x.1.free := by
    intro l x
    exact foldl_keep (fun x : State × List Decided => x.1.free) _ (fun b a => lockClientF_free _ _ _ _) l x
  have h1 := h [5, 4, 0, 1, 2, 3] (s, [])
  generalize ([5, 4, 0, 1, 2, 3].foldl _ (s, [])) = y at *
  obtain ⟨t, ds⟩ := y
  simpa using h1

theorem decideLock_power (s : State) (c : Nat) (m : List Word) : (s.decideLock c m).2.2.power = s.power := by
  unfold State.decideLock
  dsimp only
  (repeat' split) <;> simp


theorem lockClientF_power (f c : Nat) (s : State) (ds : List Decided) : (State.lockClientF f c s ds).1.power = s.power := by
  induction f generalizing s ds with
  | zero => rfl
  | succ f ih =>
    unfold State.lockClientF
    split
    · rename_i m _ _ _
      have h := decideLock_power s c m
      split
      · split
        · rfl
        · simp [ih]
        · generalize s.decideLock c m = y at *
          obtain ⟨r, k, t⟩ := y
          simpa [ih] using h
      · rfl
    · rfl


@[simp] theorem doLockDecision_power (s : State) : (doLockDecision s).power = s.power := by
  unfold doLockDecision
  have h : ∀ l : List Nat, ∀ x : State × List Decided, (l.foldl (fun (x : State × List Decided) c =>
      State.lockClientF ((nth x.1.clients c).work.length + 1) c x.1 x.2) x).1.power = x.1.power := by
    intro l x
    exact foldl_keep (fun x : State × List Decided => x.1.power) _ (fun b a => lockClientF_power _ _ _ _) l x
  have h1 := h [5, 4, 0, 1, 2, 3] (s, [])
  generalize ([5, 4, 0, 1, 2, 3].foldl _ (s, [])) = y at *
  obtain ⟨t, ds⟩ := y
  simpa using h1

theorem decideLock_fuses (s : State) (c : Nat) (m : List Word) : (s.decideLock c m).2.2.fuses = s.fuses := by
  unfold State.decideLock
  dsimp only
  (repeat' split) <;> simp


theorem lockClientF_fuses (f c : Nat) (s : State) (ds : List Decided) : (State.lockClientF f c s ds).1.fuses = s.fuses := by
  induction f generalizing s ds with
  | zero => rfl
  | succ f ih =>
    unfold State.lockClientF
    split
    · rename_i m _ _ _
      have h := decideLock_fuses s c m
      split
      · split
        · rfl
        · simp [ih]
        · generalize s.decideLock c m = y at *
          obtain ⟨r, k, t⟩ := y
          simpa [ih] using h
      · rfl
    · rfl


@[simp] theorem doLockDecision_fuses (s : State) : (doLockDecision s).fuses = s.fuses := by
  unfold doLockDecision
  have h : ∀ l : List Nat, ∀ x : State × List Decided, (l.foldl (fun (x : State × List Decided) c =>
      State.lockClientF ((nth x.1.clients c).work.length + 1) c x.1 x.2) x).1.fuses = x.1.fuses := by
    intro l x
    exact foldl_keep (fun x : State × List Decided => x.1.fuses) _ (fun b a => lockClientF_fuses _ _ _ _) l x
  have h1 := h [5, 4, 0, 1, 2, 3] (s, [])
  generalize ([5, 4, 0, 1, 2, 3].foldl _ (s, [])) = y at *
  obtain ⟨t, ds⟩ := y
  simpa using h1

theorem decideLock_straps (s : State) (c : Nat) (m : List Word) : (s.decideLock c m).2.2.straps = s.straps := by
  unfold State.decideLock
  dsimp only
  (repeat' split) <;> simp


theorem lockClientF_straps (f c : Nat) (s : State) (ds : List Decided) : (State.lockClientF f c s ds).1.straps = s.straps := by
  induction f generalizing s ds with
  | zero => rfl
  | succ f ih =>
    unfold State.lockClientF
    split
    · rename_i m _ _ _
      have h := decideLock_straps s c m
      split
      · split
        · rfl
        · simp [ih]
        · generalize s.decideLock c m = y at *
          obtain ⟨r, k, t⟩ := y
          simpa [ih] using h
      · rfl
    · rfl


@[simp] theorem doLockDecision_straps (s : State) : (doLockDecision s).straps = s.straps := by
  unfold doLockDecision
  have h : ∀ l : List Nat, ∀ x : State × List Decided, (l.foldl (fun (x : State × List Decided) c =>
      State.lockClientF ((nth x.1.clients c).work.length + 1) c x.1 x.2) x).1.straps = x.1.straps := by
    intro l x
    exact foldl_keep (fun x : State × List Decided => x.1.straps) _ (fun b a => lockClientF_straps _ _ _ _) l x
  have h1 := h [5, 4, 0, 1, 2, 3] (s, [])
  generalize ([5, 4, 0, 1, 2, 3].foldl _ (s, [])) = y at *
  obtain ⟨t, ds⟩ := y
  simpa using h1

theorem decideLock_port (s : State) (c : Nat) (m : List Word) : (s.decideLock c m).2.2.port = s.port := by
  unfold State.decideLock
  dsimp only
  (repeat' split) <;> simp


theorem lockClientF_port (f c : Nat) (s : State) (ds : List Decided) : (State.lockClientF f c s ds).1.port = s.port := by
  induction f generalizing s ds with
  | zero => rfl
  | succ f ih =>
    unfold State.lockClientF
    split
    · rename_i m _ _ _
      have h := decideLock_port s c m
      split
      · split
        · rfl
        · simp [ih]
        · generalize s.decideLock c m = y at *
          obtain ⟨r, k, t⟩ := y
          simpa [ih] using h
      · rfl
    · rfl


@[simp] theorem doLockDecision_port (s : State) : (doLockDecision s).port = s.port := by
  unfold doLockDecision
  have h : ∀ l : List Nat, ∀ x : State × List Decided, (l.foldl (fun (x : State × List Decided) c =>
      State.lockClientF ((nth x.1.clients c).work.length + 1) c x.1 x.2) x).1.port = x.1.port := by
    intro l x
    exact foldl_keep (fun x : State × List Decided => x.1.port) _ (fun b a => lockClientF_port _ _ _ _) l x
  have h1 := h [5, 4, 0, 1, 2, 3] (s, [])
  generalize ([5, 4, 0, 1, 2, 3].foldl _ (s, [])) = y at *
  obtain ⟨t, ds⟩ := y
  simpa using h1

theorem decideLock_cw (s : State) (c : Nat) (m : List Word) : (s.decideLock c m).2.2.cw = s.cw := by
  unfold State.decideLock
  dsimp only
  (repeat' split) <;> simp


theorem lockClientF_cw (f c : Nat) (s : State) (ds : List Decided) : (State.lockClientF f c s ds).1.cw = s.cw := by
  induction f generalizing s ds with
  | zero => rfl
  | succ f ih =>
    unfold State.lockClientF
    split
    · rename_i m _ _ _
      have h := decideLock_cw s c m
      split
      · split
        · rfl
        · simp [ih]
        · generalize s.decideLock c m = y at *
          obtain ⟨r, k, t⟩ := y
          simpa [ih] using h
      · rfl
    · rfl


@[simp] theorem doLockDecision_cw (s : State) : (doLockDecision s).cw = s.cw := by
  unfold doLockDecision
  have h : ∀ l : List Nat, ∀ x : State × List Decided, (l.foldl (fun (x : State × List Decided) c =>
      State.lockClientF ((nth x.1.clients c).work.length + 1) c x.1 x.2) x).1.cw = x.1.cw := by
    intro l x
    exact foldl_keep (fun x : State × List Decided => x.1.cw) _ (fun b a => lockClientF_cw _ _ _ _) l x
  have h1 := h [5, 4, 0, 1, 2, 3] (s, [])
  generalize ([5, 4, 0, 1, 2, 3].foldl _ (s, [])) = y at *
  obtain ⟨t, ds⟩ := y
  simpa using h1

theorem decideLock_spill (s : State) (c : Nat) (m : List Word) : (s.decideLock c m).2.2.spill = s.spill := by
  unfold State.decideLock
  dsimp only
  (repeat' split) <;> simp


theorem lockClientF_spill (f c : Nat) (s : State) (ds : List Decided) : (State.lockClientF f c s ds).1.spill = s.spill := by
  induction f generalizing s ds with
  | zero => rfl
  | succ f ih =>
    unfold State.lockClientF
    split
    · rename_i m _ _ _
      have h := decideLock_spill s c m
      split
      · split
        · rfl
        · simp [ih]
        · generalize s.decideLock c m = y at *
          obtain ⟨r, k, t⟩ := y
          simpa [ih] using h
      · rfl
    · rfl


@[simp] theorem doLockDecision_spill (s : State) : (doLockDecision s).spill = s.spill := by
  unfold doLockDecision
  have h : ∀ l : List Nat, ∀ x : State × List Decided, (l.foldl (fun (x : State × List Decided) c =>
      State.lockClientF ((nth x.1.clients c).work.length + 1) c x.1 x.2) x).1.spill = x.1.spill := by
    intro l x
    exact foldl_keep (fun x : State × List Decided => x.1.spill) _ (fun b a => lockClientF_spill _ _ _ _) l x
  have h1 := h [5, 4, 0, 1, 2, 3] (s, [])
  generalize ([5, 4, 0, 1, 2, 3].foldl _ (s, [])) = y at *
  obtain ⟨t, ds⟩ := y
  simpa using h1

theorem decideLock_red (s : State) (c : Nat) (m : List Word) : (s.decideLock c m).2.2.red = s.red := by
  unfold State.decideLock
  dsimp only
  (repeat' split) <;> simp


theorem lockClientF_red (f c : Nat) (s : State) (ds : List Decided) : (State.lockClientF f c s ds).1.red = s.red := by
  induction f generalizing s ds with
  | zero => rfl
  | succ f ih =>
    unfold State.lockClientF
    split
    · rename_i m _ _ _
      have h := decideLock_red s c m
      split
      · split
        · rfl
        · simp [ih]
        · generalize s.decideLock c m = y at *
          obtain ⟨r, k, t⟩ := y
          simpa [ih] using h
      · rfl
    · rfl


@[simp] theorem doLockDecision_red (s : State) : (doLockDecision s).red = s.red := by
  unfold doLockDecision
  have h : ∀ l : List Nat, ∀ x : State × List Decided, (l.foldl (fun (x : State × List Decided) c =>
      State.lockClientF ((nth x.1.clients c).work.length + 1) c x.1 x.2) x).1.red = x.1.red := by
    intro l x
    exact foldl_keep (fun x : State × List Decided => x.1.red) _ (fun b a => lockClientF_red _ _ _ _) l x
  have h1 := h [5, 4, 0, 1, 2, 3] (s, [])
  generalize ([5, 4, 0, 1, 2, 3].foldl _ (s, [])) = y at *
  obtain ⟨t, ds⟩ := y
  simpa using h1

theorem decideLock_mot (s : State) (c : Nat) (m : List Word) : (s.decideLock c m).2.2.mot = s.mot := by
  unfold State.decideLock
  dsimp only
  (repeat' split) <;> simp


theorem lockClientF_mot (f c : Nat) (s : State) (ds : List Decided) : (State.lockClientF f c s ds).1.mot = s.mot := by
  induction f generalizing s ds with
  | zero => rfl
  | succ f ih =>
    unfold State.lockClientF
    split
    · rename_i m _ _ _
      have h := decideLock_mot s c m
      split
      · split
        · rfl
        · simp [ih]
        · generalize s.decideLock c m = y at *
          obtain ⟨r, k, t⟩ := y
          simpa [ih] using h
      · rfl
    · rfl


@[simp] theorem doLockDecision_mot (s : State) : (doLockDecision s).mot = s.mot := by
  unfold doLockDecision
  have h : ∀ l : List Nat, ∀ x : State × List Decided, (l.foldl (fun (x : State × List Decided) c =>
      State.lockClientF ((nth x.1.clients c).work.length + 1) c x.1 x.2) x).1.mot = x.1.mot := by
    intro l x
    exact foldl_keep (fun x : State × List Decided => x.1.mot) _ (fun b a => lockClientF_mot _ _ _ _) l x
  have h1 := h [5, 4, 0, 1, 2, 3] (s, [])
  generalize ([5, 4, 0, 1, 2, 3].foldl _ (s, [])) = y at *
  obtain ⟨t, ds⟩ := y
  simpa using h1

theorem decideLock_prod (s : State) (c : Nat) (m : List Word) : (s.decideLock c m).2.2.prod = s.prod := by
  unfold State.decideLock
  dsimp only
  (repeat' split) <;> simp


theorem lockClientF_prod (f c : Nat) (s : State) (ds : List Decided) : (State.lockClientF f c s ds).1.prod = s.prod := by
  induction f generalizing s ds with
  | zero => rfl
  | succ f ih =>
    unfold State.lockClientF
    split
    · rename_i m _ _ _
      have h := decideLock_prod s c m
      split
      · split
        · rfl
        · simp [ih]
        · generalize s.decideLock c m = y at *
          obtain ⟨r, k, t⟩ := y
          simpa [ih] using h
      · rfl
    · rfl


@[simp] theorem doLockDecision_prod (s : State) : (doLockDecision s).prod = s.prod := by
  unfold doLockDecision
  have h : ∀ l : List Nat, ∀ x : State × List Decided, (l.foldl (fun (x : State × List Decided) c =>
      State.lockClientF ((nth x.1.clients c).work.length + 1) c x.1 x.2) x).1.prod = x.1.prod := by
    intro l x
    exact foldl_keep (fun x : State × List Decided => x.1.prod) _ (fun b a => lockClientF_prod _ _ _ _) l x
  have h1 := h [5, 4, 0, 1, 2, 3] (s, [])
  generalize ([5, 4, 0, 1, 2, 3].foldl _ (s, [])) = y at *
  obtain ⟨t, ds⟩ := y
  simpa using h1

theorem decideLock_way (s : State) (c : Nat) (m : List Word) : (s.decideLock c m).2.2.way = s.way := by
  unfold State.decideLock
  dsimp only
  (repeat' split) <;> simp


theorem lockClientF_way (f c : Nat) (s : State) (ds : List Decided) : (State.lockClientF f c s ds).1.way = s.way := by
  induction f generalizing s ds with
  | zero => rfl
  | succ f ih =>
    unfold State.lockClientF
    split
    · rename_i m _ _ _
      have h := decideLock_way s c m
      split
      · split
        · rfl
        · simp [ih]
        · generalize s.decideLock c m = y at *
          obtain ⟨r, k, t⟩ := y
          simpa [ih] using h
      · rfl
    · rfl


@[simp] theorem doLockDecision_way (s : State) : (doLockDecision s).way = s.way := by
  unfold doLockDecision
  have h : ∀ l : List Nat, ∀ x : State × List Decided, (l.foldl (fun (x : State × List Decided) c =>
      State.lockClientF ((nth x.1.clients c).work.length + 1) c x.1 x.2) x).1.way = x.1.way := by
    intro l x
    exact foldl_keep (fun x : State × List Decided => x.1.way) _ (fun b a => lockClientF_way _ _ _ _) l x
  have h1 := h [5, 4, 0, 1, 2, 3] (s, [])
  generalize ([5, 4, 0, 1, 2, 3].foldl _ (s, [])) = y at *
  obtain ⟨t, ds⟩ := y
  simpa using h1

theorem decideLock_fe (s : State) (c : Nat) (m : List Word) : (s.decideLock c m).2.2.fe = s.fe := by
  unfold State.decideLock
  dsimp only
  (repeat' split) <;> simp


theorem lockClientF_fe (f c : Nat) (s : State) (ds : List Decided) : (State.lockClientF f c s ds).1.fe = s.fe := by
  induction f generalizing s ds with
  | zero => rfl
  | succ f ih =>
    unfold State.lockClientF
    split
    · rename_i m _ _ _
      have h := decideLock_fe s c m
      split
      · split
        · rfl
        · simp [ih]
        · generalize s.decideLock c m = y at *
          obtain ⟨r, k, t⟩ := y
          simpa [ih] using h
      · rfl
    · rfl


@[simp] theorem doLockDecision_fe (s : State) : (doLockDecision s).fe = s.fe := by
  unfold doLockDecision
  have h : ∀ l : List Nat, ∀ x : State × List Decided, (l.foldl (fun (x : State × List Decided) c =>
      State.lockClientF ((nth x.1.clients c).work.length + 1) c x.1 x.2) x).1.fe = x.1.fe := by
    intro l x
    exact foldl_keep (fun x : State × List Decided => x.1.fe) _ (fun b a => lockClientF_fe _ _ _ _) l x
  have h1 := h [5, 4, 0, 1, 2, 3] (s, [])
  generalize ([5, 4, 0, 1, 2, 3].foldl _ (s, [])) = y at *
  obtain ⟨t, ds⟩ := y
  simpa using h1

theorem decideLock_roads (s : State) (c : Nat) (m : List Word) : (s.decideLock c m).2.2.roads = s.roads := by
  unfold State.decideLock
  dsimp only
  (repeat' split) <;> simp


theorem lockClientF_roads (f c : Nat) (s : State) (ds : List Decided) : (State.lockClientF f c s ds).1.roads = s.roads := by
  induction f generalizing s ds with
  | zero => rfl
  | succ f ih =>
    unfold State.lockClientF
    split
    · rename_i m _ _ _
      have h := decideLock_roads s c m
      split
      · split
        · rfl
        · simp [ih]
        · generalize s.decideLock c m = y at *
          obtain ⟨r, k, t⟩ := y
          simpa [ih] using h
      · rfl
    · rfl


@[simp] theorem doLockDecision_roads (s : State) : (doLockDecision s).roads = s.roads := by
  unfold doLockDecision
  have h : ∀ l : List Nat, ∀ x : State × List Decided, (l.foldl (fun (x : State × List Decided) c =>
      State.lockClientF ((nth x.1.clients c).work.length + 1) c x.1 x.2) x).1.roads = x.1.roads := by
    intro l x
    exact foldl_keep (fun x : State × List Decided => x.1.roads) _ (fun b a => lockClientF_roads _ _ _ _) l x
  have h1 := h [5, 4, 0, 1, 2, 3] (s, [])
  generalize ([5, 4, 0, 1, 2, 3].foldl _ (s, [])) = y at *
  obtain ⟨t, ds⟩ := y
  simpa using h1

theorem decideLock_hs (s : State) (c : Nat) (m : List Word) : (s.decideLock c m).2.2.hs = s.hs := by
  unfold State.decideLock
  dsimp only
  (repeat' split) <;> simp


theorem lockClientF_hs (f c : Nat) (s : State) (ds : List Decided) : (State.lockClientF f c s ds).1.hs = s.hs := by
  induction f generalizing s ds with
  | zero => rfl
  | succ f ih =>
    unfold State.lockClientF
    split
    · rename_i m _ _ _
      have h := decideLock_hs s c m
      split
      · split
        · rfl
        · simp [ih]
        · generalize s.decideLock c m = y at *
          obtain ⟨r, k, t⟩ := y
          simpa [ih] using h
      · rfl
    · rfl


@[simp] theorem doLockDecision_hs (s : State) : (doLockDecision s).hs = s.hs := by
  unfold doLockDecision
  have h : ∀ l : List Nat, ∀ x : State × List Decided, (l.foldl (fun (x : State × List Decided) c =>
      State.lockClientF ((nth x.1.clients c).work.length + 1) c x.1 x.2) x).1.hs = x.1.hs := by
    intro l x
    exact foldl_keep (fun x : State × List Decided => x.1.hs) _ (fun b a => lockClientF_hs _ _ _ _) l x
  have h1 := h [5, 4, 0, 1, 2, 3] (s, [])
  generalize ([5, 4, 0, 1, 2, 3].foldl _ (s, [])) = y at *
  obtain ⟨t, ds⟩ := y
  simpa using h1

theorem decideLock_tw (s : State) (c : Nat) (m : List Word) : (s.decideLock c m).2.2.tw = s.tw := by
  unfold State.decideLock
  dsimp only
  (repeat' split) <;> simp


theorem lockClientF_tw (f c : Nat) (s : State) (ds : List Decided) : (State.lockClientF f c s ds).1.tw = s.tw := by
  induction f generalizing s ds with
  | zero => rfl
  | succ f ih =>
    unfold State.lockClientF
    split
    · rename_i m _ _ _
      have h := decideLock_tw s c m
      split
      · split
        · rfl
        · simp [ih]
        · generalize s.decideLock c m = y at *
          obtain ⟨r, k, t⟩ := y
          simpa [ih] using h
      · rfl
    · rfl


@[simp] theorem doLockDecision_tw (s : State) : (doLockDecision s).tw = s.tw := by
  unfold doLockDecision
  have h : ∀ l : List Nat, ∀ x : State × List Decided, (l.foldl (fun (x : State × List Decided) c =>
      State.lockClientF ((nth x.1.clients c).work.length + 1) c x.1 x.2) x).1.tw = x.1.tw := by
    intro l x
    exact foldl_keep (fun x : State × List Decided => x.1.tw) _ (fun b a => lockClientF_tw _ _ _ _) l x
  have h1 := h [5, 4, 0, 1, 2, 3] (s, [])
  generalize ([5, 4, 0, 1, 2, 3].foldl _ (s, [])) = y at *
  obtain ⟨t, ds⟩ := y
  simpa using h1

theorem decideLock_attn (s : State) (c : Nat) (m : List Word) : (s.decideLock c m).2.2.attn = s.attn := by
  unfold State.decideLock
  dsimp only
  (repeat' split) <;> simp


theorem lockClientF_attn (f c : Nat) (s : State) (ds : List Decided) : (State.lockClientF f c s ds).1.attn = s.attn := by
  induction f generalizing s ds with
  | zero => rfl
  | succ f ih =>
    unfold State.lockClientF
    split
    · rename_i m _ _ _
      have h := decideLock_attn s c m
      split
      · split
        · rfl
        · simp [ih]
        · generalize s.decideLock c m = y at *
          obtain ⟨r, k, t⟩ := y
          simpa [ih] using h
      · rfl
    · rfl


@[simp] theorem doLockDecision_attn (s : State) : (doLockDecision s).attn = s.attn := by
  unfold doLockDecision
  have h : ∀ l : List Nat, ∀ x : State × List Decided, (l.foldl (fun (x : State × List Decided) c =>
      State.lockClientF ((nth x.1.clients c).work.length + 1) c x.1 x.2) x).1.attn = x.1.attn := by
    intro l x
    exact foldl_keep (fun x : State × List Decided => x.1.attn) _ (fun b a => lockClientF_attn _ _ _ _) l x
  have h1 := h [5, 4, 0, 1, 2, 3] (s, [])
  generalize ([5, 4, 0, 1, 2, 3].foldl _ (s, [])) = y at *
  obtain ⟨t, ds⟩ := y
  simpa using h1

theorem decideLock_pin (s : State) (c : Nat) (m : List Word) : (s.decideLock c m).2.2.pin = s.pin := by
  unfold State.decideLock
  dsimp only
  (repeat' split) <;> simp


theorem lockClientF_pin (f c : Nat) (s : State) (ds : List Decided) : (State.lockClientF f c s ds).1.pin = s.pin := by
  induction f generalizing s ds with
  | zero => rfl
  | succ f ih =>
    unfold State.lockClientF
    split
    · rename_i m _ _ _
      have h := decideLock_pin s c m
      split
      · split
        · rfl
        · simp [ih]
        · generalize s.decideLock c m = y at *
          obtain ⟨r, k, t⟩ := y
          simpa [ih] using h
      · rfl
    · rfl


@[simp] theorem doLockDecision_pin (s : State) : (doLockDecision s).pin = s.pin := by
  unfold doLockDecision
  have h : ∀ l : List Nat, ∀ x : State × List Decided, (l.foldl (fun (x : State × List Decided) c =>
      State.lockClientF ((nth x.1.clients c).work.length + 1) c x.1 x.2) x).1.pin = x.1.pin := by
    intro l x
    exact foldl_keep (fun x : State × List Decided => x.1.pin) _ (fun b a => lockClientF_pin _ _ _ _) l x
  have h1 := h [5, 4, 0, 1, 2, 3] (s, [])
  generalize ([5, 4, 0, 1, 2, 3].foldl _ (s, [])) = y at *
  obtain ⟨t, ds⟩ := y
  simpa using h1

theorem decideLock_age (s : State) (c : Nat) (m : List Word) : (s.decideLock c m).2.2.age = s.age := by
  unfold State.decideLock
  dsimp only
  (repeat' split) <;> simp


theorem lockClientF_age (f c : Nat) (s : State) (ds : List Decided) : (State.lockClientF f c s ds).1.age = s.age := by
  induction f generalizing s ds with
  | zero => rfl
  | succ f ih =>
    unfold State.lockClientF
    split
    · rename_i m _ _ _
      have h := decideLock_age s c m
      split
      · split
        · rfl
        · simp [ih]
        · generalize s.decideLock c m = y at *
          obtain ⟨r, k, t⟩ := y
          simpa [ih] using h
      · rfl
    · rfl


@[simp] theorem doLockDecision_age (s : State) : (doLockDecision s).age = s.age := by
  unfold doLockDecision
  have h : ∀ l : List Nat, ∀ x : State × List Decided, (l.foldl (fun (x : State × List Decided) c =>
      State.lockClientF ((nth x.1.clients c).work.length + 1) c x.1 x.2) x).1.age = x.1.age := by
    intro l x
    exact foldl_keep (fun x : State × List Decided => x.1.age) _ (fun b a => lockClientF_age _ _ _ _) l x
  have h1 := h [5, 4, 0, 1, 2, 3] (s, [])
  generalize ([5, 4, 0, 1, 2, 3].foldl _ (s, [])) = y at *
  obtain ⟨t, ds⟩ := y
  simpa using h1

theorem decideLock_tap (s : State) (c : Nat) (m : List Word) : (s.decideLock c m).2.2.tap = s.tap := by
  unfold State.decideLock
  dsimp only
  (repeat' split) <;> simp


theorem lockClientF_tap (f c : Nat) (s : State) (ds : List Decided) : (State.lockClientF f c s ds).1.tap = s.tap := by
  induction f generalizing s ds with
  | zero => rfl
  | succ f ih =>
    unfold State.lockClientF
    split
    · rename_i m _ _ _
      have h := decideLock_tap s c m
      split
      · split
        · rfl
        · simp [ih]
        · generalize s.decideLock c m = y at *
          obtain ⟨r, k, t⟩ := y
          simpa [ih] using h
      · rfl
    · rfl


@[simp] theorem doLockDecision_tap (s : State) : (doLockDecision s).tap = s.tap := by
  unfold doLockDecision
  have h : ∀ l : List Nat, ∀ x : State × List Decided, (l.foldl (fun (x : State × List Decided) c =>
      State.lockClientF ((nth x.1.clients c).work.length + 1) c x.1 x.2) x).1.tap = x.1.tap := by
    intro l x
    exact foldl_keep (fun x : State × List Decided => x.1.tap) _ (fun b a => lockClientF_tap _ _ _ _) l x
  have h1 := h [5, 4, 0, 1, 2, 3] (s, [])
  generalize ([5, 4, 0, 1, 2, 3].foldl _ (s, [])) = y at *
  obtain ⟨t, ds⟩ := y
  simpa using h1

theorem decideLock_time_gRate (s : State) (c : Nat) (m : List Word) : (s.decideLock c m).2.2.time.gRate = s.time.gRate := by
  unfold State.decideLock
  dsimp only
  (repeat' split) <;> simp


theorem lockClientF_time_gRate (f c : Nat) (s : State) (ds : List Decided) : (State.lockClientF f c s ds).1.time.gRate = s.time.gRate := by
  induction f generalizing s ds with
  | zero => rfl
  | succ f ih =>
    unfold State.lockClientF
    split
    · rename_i m _ _ _
      have h := decideLock_time_gRate s c m
      split
      · split
        · rfl
        · simp [ih]
        · generalize s.decideLock c m = y at *
          obtain ⟨r, k, t⟩ := y
          simpa [ih] using h
      · rfl
    · rfl


@[simp] theorem doLockDecision_time_gRate (s : State) : (doLockDecision s).time.gRate = s.time.gRate := by
  unfold doLockDecision
  have h : ∀ l : List Nat, ∀ x : State × List Decided, (l.foldl (fun (x : State × List Decided) c =>
      State.lockClientF ((nth x.1.clients c).work.length + 1) c x.1 x.2) x).1.time.gRate = x.1.time.gRate := by
    intro l x
    exact foldl_keep (fun x : State × List Decided => x.1.time.gRate) _ (fun b a => lockClientF_time_gRate _ _ _ _) l x
  have h1 := h [5, 4, 0, 1, 2, 3] (s, [])
  generalize ([5, 4, 0, 1, 2, 3].foldl _ (s, [])) = y at *
  obtain ⟨t, ds⟩ := y
  simpa using h1

theorem decideLock_time_rates (s : State) (c : Nat) (m : List Word) : (s.decideLock c m).2.2.time.rates = s.time.rates := by
  unfold State.decideLock
  dsimp only
  (repeat' split) <;> simp


theorem lockClientF_time_rates (f c : Nat) (s : State) (ds : List Decided) : (State.lockClientF f c s ds).1.time.rates = s.time.rates := by
  induction f generalizing s ds with
  | zero => rfl
  | succ f ih =>
    unfold State.lockClientF
    split
    · rename_i m _ _ _
      have h := decideLock_time_rates s c m
      split
      · split
        · rfl
        · simp [ih]
        · generalize s.decideLock c m = y at *
          obtain ⟨r, k, t⟩ := y
          simpa [ih] using h
      · rfl
    · rfl


@[simp] theorem doLockDecision_time_rates (s : State) : (doLockDecision s).time.rates = s.time.rates := by
  unfold doLockDecision
  have h : ∀ l : List Nat, ∀ x : State × List Decided, (l.foldl (fun (x : State × List Decided) c =>
      State.lockClientF ((nth x.1.clients c).work.length + 1) c x.1 x.2) x).1.time.rates = x.1.time.rates := by
    intro l x
    exact foldl_keep (fun x : State × List Decided => x.1.time.rates) _ (fun b a => lockClientF_time_rates _ _ _ _) l x
  have h1 := h [5, 4, 0, 1, 2, 3] (s, [])
  generalize ([5, 4, 0, 1, 2, 3].foldl _ (s, [])) = y at *
  obtain ⟨t, ds⟩ := y
  simpa using h1

theorem decideLock_time_gIdx (s : State) (c : Nat) (m : List Word) : (s.decideLock c m).2.2.time.gIdx = s.time.gIdx := by
  unfold State.decideLock
  dsimp only
  (repeat' split) <;> simp


theorem lockClientF_time_gIdx (f c : Nat) (s : State) (ds : List Decided) : (State.lockClientF f c s ds).1.time.gIdx = s.time.gIdx := by
  induction f generalizing s ds with
  | zero => rfl
  | succ f ih =>
    unfold State.lockClientF
    split
    · rename_i m _ _ _
      have h := decideLock_time_gIdx s c m
      split
      · split
        · rfl
        · simp [ih]
        · generalize s.decideLock c m = y at *
          obtain ⟨r, k, t⟩ := y
          simpa [ih] using h
      · rfl
    · rfl


@[simp] theorem doLockDecision_time_gIdx (s : State) : (doLockDecision s).time.gIdx = s.time.gIdx := by
  unfold doLockDecision
  have h : ∀ l : List Nat, ∀ x : State × List Decided, (l.foldl (fun (x : State × List Decided) c =>
      State.lockClientF ((nth x.1.clients c).work.length + 1) c x.1 x.2) x).1.time.gIdx = x.1.time.gIdx := by
    intro l x
    exact foldl_keep (fun x : State × List Decided => x.1.time.gIdx) _ (fun b a => lockClientF_time_gIdx _ _ _ _) l x
  have h1 := h [5, 4, 0, 1, 2, 3] (s, [])
  generalize ([5, 4, 0, 1, 2, 3].foldl _ (s, [])) = y at *
  obtain ⟨t, ds⟩ := y
  simpa using h1

@[simp] theorem doLockLeaseEnd_keeps (dt k : Nat) (s : State) :
    (doLockLeaseEnd dt k s).pending = s.pending ∧
    (doLockLeaseEnd dt k s).free = s.free ∧
    (doLockLeaseEnd dt k s).power = s.power ∧
    (doLockLeaseEnd dt k s).fuses = s.fuses ∧
    (doLockLeaseEnd dt k s).straps = s.straps ∧
    (doLockLeaseEnd dt k s).port = s.port ∧
    (doLockLeaseEnd dt k s).cw = s.cw ∧
    (doLockLeaseEnd dt k s).spill = s.spill ∧
    (doLockLeaseEnd dt k s).red = s.red ∧
    (doLockLeaseEnd dt k s).mot = s.mot ∧
    (doLockLeaseEnd dt k s).prod = s.prod ∧
    (doLockLeaseEnd dt k s).way = s.way ∧
    (doLockLeaseEnd dt k s).fe = s.fe ∧
    (doLockLeaseEnd dt k s).roads = s.roads ∧
    (doLockLeaseEnd dt k s).up = s.up ∧
    (doLockLeaseEnd dt k s).hs = s.hs ∧
    (doLockLeaseEnd dt k s).tw = s.tw ∧
    (doLockLeaseEnd dt k s).attn = s.attn ∧
    (doLockLeaseEnd dt k s).clients = s.clients ∧
    (doLockLeaseEnd dt k s).pin = s.pin ∧
    (doLockLeaseEnd dt k s).age = s.age ∧
    (doLockLeaseEnd dt k s).tap = s.tap ∧
    (doLockLeaseEnd dt k s).time.gRate = s.time.gRate ∧
    (doLockLeaseEnd dt k s).time.rates = s.time.rates ∧
    (doLockLeaseEnd dt k s).time.gIdx = s.time.gIdx := by
  unfold doLockLeaseEnd
  and_intros <;>
    ((try simp) <;> (try (repeat' split)) <;> (try simp))

@[simp] theorem State.freeLocks_keeps (s : State) (c : Nat) :
    (State.freeLocks s c).pending = s.pending ∧
    (State.freeLocks s c).free = s.free ∧
    (State.freeLocks s c).power = s.power ∧
    (State.freeLocks s c).time = s.time ∧
    (State.freeLocks s c).fuses = s.fuses ∧
    (State.freeLocks s c).straps = s.straps ∧
    (State.freeLocks s c).port = s.port ∧
    (State.freeLocks s c).cw = s.cw ∧
    (State.freeLocks s c).spill = s.spill ∧
    (State.freeLocks s c).red = s.red ∧
    (State.freeLocks s c).mot = s.mot ∧
    (State.freeLocks s c).prod = s.prod ∧
    (State.freeLocks s c).way = s.way ∧
    (State.freeLocks s c).fe = s.fe ∧
    (State.freeLocks s c).roads = s.roads ∧
    (State.freeLocks s c).up = s.up ∧
    (State.freeLocks s c).hs = s.hs ∧
    (State.freeLocks s c).tw = s.tw ∧
    (State.freeLocks s c).attn = s.attn ∧
    (State.freeLocks s c).clients = s.clients ∧
    (State.freeLocks s c).pin = s.pin ∧
    (State.freeLocks s c).age = s.age ∧
    (State.freeLocks s c).tap = s.tap := by
  unfold State.freeLocks
  and_intros <;>
    ((try simp) <;> (try (repeat' split)) <;> (try simp))

@[simp] theorem State.dropStaging_keeps (s : State) (c : Nat) :
    (State.dropStaging s c).pending = s.pending ∧
    (State.dropStaging s c).free = s.free ∧
    (State.dropStaging s c).power = s.power ∧
    (State.dropStaging s c).time = s.time ∧
    (State.dropStaging s c).fuses = s.fuses ∧
    (State.dropStaging s c).straps = s.straps ∧
    (State.dropStaging s c).port = s.port ∧
    (State.dropStaging s c).cw = s.cw ∧
    (State.dropStaging s c).spill = s.spill ∧
    (State.dropStaging s c).red = s.red ∧
    (State.dropStaging s c).prod = s.prod ∧
    (State.dropStaging s c).way = s.way ∧
    (State.dropStaging s c).fe = s.fe ∧
    (State.dropStaging s c).roads = s.roads ∧
    (State.dropStaging s c).up = s.up ∧
    (State.dropStaging s c).hs = s.hs ∧
    (State.dropStaging s c).tw = s.tw ∧
    (State.dropStaging s c).attn = s.attn ∧
    (State.dropStaging s c).clients = s.clients ∧
    (State.dropStaging s c).locks = s.locks ∧
    (State.dropStaging s c).pin = s.pin ∧
    (State.dropStaging s c).age = s.age ∧
    (State.dropStaging s c).tap = s.tap := by
  unfold State.dropStaging
  and_intros <;>
    ((try simp) <;> (try (repeat' split)) <;> (try simp))

@[simp] theorem State.orphan_keeps (s : State) (c : Nat) :
    (State.orphan s c).pending = s.pending ∧
    (State.orphan s c).free = s.free ∧
    (State.orphan s c).power = s.power ∧
    (State.orphan s c).fuses = s.fuses ∧
    (State.orphan s c).straps = s.straps ∧
    (State.orphan s c).spill = s.spill ∧
    (State.orphan s c).red = s.red ∧
    (State.orphan s c).prod = s.prod ∧
    (State.orphan s c).way = s.way ∧
    (State.orphan s c).fe = s.fe ∧
    (State.orphan s c).roads = s.roads ∧
    (State.orphan s c).up = s.up ∧
    (State.orphan s c).hs = s.hs ∧
    (State.orphan s c).tw = s.tw ∧
    (State.orphan s c).attn = s.attn ∧
    (State.orphan s c).clients = s.clients ∧
    (State.orphan s c).locks = s.locks ∧
    (State.orphan s c).pin = s.pin ∧
    (State.orphan s c).age = s.age ∧
    (State.orphan s c).tap = s.tap ∧
    (State.orphan s c).port.inForce = s.port.inForce ∧
    (State.orphan s c).time.gRate = s.time.gRate ∧
    (State.orphan s c).time.rates = s.time.rates ∧
    (State.orphan s c).time.gIdx = s.time.gIdx := by
  unfold State.orphan
  and_intros <;>
    ((try simp) <;> (try (repeat' split)) <;> (try simp))

@[simp] theorem State.whereRun_keeps (s : State) (c : Nat) (cmp : BitVec 16) :
    (State.whereRun s c cmp).pending = s.pending ∧
    (State.whereRun s c cmp).free = s.free ∧
    (State.whereRun s c cmp).power = s.power ∧
    (State.whereRun s c cmp).fuses = s.fuses ∧
    (State.whereRun s c cmp).straps = s.straps ∧
    (State.whereRun s c cmp).spill = s.spill ∧
    (State.whereRun s c cmp).red = s.red ∧
    (State.whereRun s c cmp).prod = s.prod ∧
    (State.whereRun s c cmp).way = s.way ∧
    (State.whereRun s c cmp).fe = s.fe ∧
    (State.whereRun s c cmp).roads = s.roads ∧
    (State.whereRun s c cmp).up = s.up ∧
    (State.whereRun s c cmp).hs = s.hs ∧
    (State.whereRun s c cmp).tw = s.tw ∧
    (State.whereRun s c cmp).attn = s.attn ∧
    (State.whereRun s c cmp).pin = s.pin ∧
    (State.whereRun s c cmp).tap = s.tap ∧
    (State.whereRun s c cmp).port.inForce = s.port.inForce ∧
    (State.whereRun s c cmp).time.gRate = s.time.gRate ∧
    (State.whereRun s c cmp).time.rates = s.time.rates ∧
    (State.whereRun s c cmp).time.gIdx = s.time.gIdx := by
  unfold State.whereRun
  and_intros <;>
    ((try simp) <;> (try (repeat' split)) <;> (try simp))

@[simp] theorem doWhere_keeps (c : Nat) (s : State) :
    (doWhere c s).pending = s.pending ∧
    (doWhere c s).free = s.free ∧
    (doWhere c s).power = s.power ∧
    (doWhere c s).fuses = s.fuses ∧
    (doWhere c s).straps = s.straps ∧
    (doWhere c s).spill = s.spill ∧
    (doWhere c s).red = s.red ∧
    (doWhere c s).prod = s.prod ∧
    (doWhere c s).way = s.way ∧
    (doWhere c s).fe = s.fe ∧
    (doWhere c s).roads = s.roads ∧
    (doWhere c s).hs = s.hs ∧
    (doWhere c s).tw = s.tw ∧
    (doWhere c s).attn = s.attn ∧
    (doWhere c s).pin = s.pin ∧
    (doWhere c s).tap = s.tap ∧
    (doWhere c s).port.inForce = s.port.inForce ∧
    (doWhere c s).time.gRate = s.time.gRate ∧
    (doWhere c s).time.rates = s.time.rates ∧
    (doWhere c s).time.gIdx = s.time.gIdx := by
  unfold doWhere
  and_intros <;>
    ((try simp) <;> (try (repeat' split)) <;> (try simp))

@[simp] theorem State.ackRun_keeps (s : State) (c : Nat) (m : Word) :
    (State.ackRun s c m).2.pending = s.pending ∧
    (State.ackRun s c m).2.free = s.free ∧
    (State.ackRun s c m).2.power = s.power ∧
    (State.ackRun s c m).2.time = s.time ∧
    (State.ackRun s c m).2.fuses = s.fuses ∧
    (State.ackRun s c m).2.straps = s.straps ∧
    (State.ackRun s c m).2.port = s.port ∧
    (State.ackRun s c m).2.spill = s.spill ∧
    (State.ackRun s c m).2.red = s.red ∧
    (State.ackRun s c m).2.mot = s.mot ∧
    (State.ackRun s c m).2.prod = s.prod ∧
    (State.ackRun s c m).2.way = s.way ∧
    (State.ackRun s c m).2.fe = s.fe ∧
    (State.ackRun s c m).2.roads = s.roads ∧
    (State.ackRun s c m).2.hs = s.hs ∧
    (State.ackRun s c m).2.tw = s.tw ∧
    (State.ackRun s c m).2.attn = s.attn ∧
    (State.ackRun s c m).2.clients = s.clients ∧
    (State.ackRun s c m).2.locks = s.locks ∧
    (State.ackRun s c m).2.pin = s.pin ∧
    (State.ackRun s c m).2.age = s.age ∧
    (State.ackRun s c m).2.tap = s.tap := by
  unfold State.ackRun
  and_intros <;>
    ((try simp) <;> (try (repeat' split)) <;> (try simp))

@[simp] theorem doAck_keeps (c : Nat) (s : State) :
    (doAck c s).pending = s.pending ∧
    (doAck c s).free = s.free ∧
    (doAck c s).power = s.power ∧
    (doAck c s).fuses = s.fuses ∧
    (doAck c s).straps = s.straps ∧
    (doAck c s).port = s.port ∧
    (doAck c s).spill = s.spill ∧
    (doAck c s).red = s.red ∧
    (doAck c s).mot = s.mot ∧
    (doAck c s).prod = s.prod ∧
    (doAck c s).way = s.way ∧
    (doAck c s).fe = s.fe ∧
    (doAck c s).roads = s.roads ∧
    (doAck c s).hs = s.hs ∧
    (doAck c s).tw = s.tw ∧
    (doAck c s).attn = s.attn ∧
    (doAck c s).locks = s.locks ∧
    (doAck c s).pin = s.pin ∧
    (doAck c s).age = s.age ∧
    (doAck c s).tap = s.tap ∧
    (doAck c s).time.gRate = s.time.gRate ∧
    (doAck c s).time.rates = s.time.rates ∧
    (doAck c s).time.gIdx = s.time.gIdx := by
  unfold doAck
  and_intros <;>
    ((try simp) <;> (try (repeat' split)) <;> (try simp))

@[simp] theorem State.pendOn_keeps (s : State) (c : Nat) (q : PendReq) :
    (State.pendOn s c q).pending = s.pending ∧
    (State.pendOn s c q).free = s.free ∧
    (State.pendOn s c q).power = s.power ∧
    (State.pendOn s c q).time = s.time ∧
    (State.pendOn s c q).fuses = s.fuses ∧
    (State.pendOn s c q).straps = s.straps ∧
    (State.pendOn s c q).port = s.port ∧
    (State.pendOn s c q).spill = s.spill ∧
    (State.pendOn s c q).red = s.red ∧
    (State.pendOn s c q).mot = s.mot ∧
    (State.pendOn s c q).prod = s.prod ∧
    (State.pendOn s c q).way = s.way ∧
    (State.pendOn s c q).fe = s.fe ∧
    (State.pendOn s c q).roads = s.roads ∧
    (State.pendOn s c q).up = s.up ∧
    (State.pendOn s c q).hs = s.hs ∧
    (State.pendOn s c q).tw = s.tw ∧
    (State.pendOn s c q).attn = s.attn ∧
    (State.pendOn s c q).locks = s.locks ∧
    (State.pendOn s c q).pin = s.pin ∧
    (State.pendOn s c q).age = s.age ∧
    (State.pendOn s c q).tap = s.tap := by
  unfold State.pendOn
  and_intros <;>
    ((try simp) <;> (try (repeat' split)) <;> (try simp))

@[simp] theorem doRewind_keeps (c : Nat) (s : State) :
    (doRewind c s).pending = s.pending ∧
    (doRewind c s).free = s.free ∧
    (doRewind c s).power = s.power ∧
    (doRewind c s).fuses = s.fuses ∧
    (doRewind c s).straps = s.straps ∧
    (doRewind c s).port = s.port ∧
    (doRewind c s).spill = s.spill ∧
    (doRewind c s).red = s.red ∧
    (doRewind c s).mot = s.mot ∧
    (doRewind c s).prod = s.prod ∧
    (doRewind c s).way = s.way ∧
    (doRewind c s).fe = s.fe ∧
    (doRewind c s).roads = s.roads ∧
    (doRewind c s).hs = s.hs ∧
    (doRewind c s).tw = s.tw ∧
    (doRewind c s).attn = s.attn ∧
    (doRewind c s).locks = s.locks ∧
    (doRewind c s).pin = s.pin ∧
    (doRewind c s).age = s.age ∧
    (doRewind c s).tap = s.tap ∧
    (doRewind c s).time.gRate = s.time.gRate ∧
    (doRewind c s).time.rates = s.time.rates ∧
    (doRewind c s).time.gIdx = s.time.gIdx := by
  unfold doRewind
  and_intros <;>
    ((try simp) <;> (try (repeat' split)) <;> (try simp))

@[simp] theorem doFlush_keeps (c : Nat) (s : State) :
    (doFlush c s).pending = s.pending ∧
    (doFlush c s).free = s.free ∧
    (doFlush c s).power = s.power ∧
    (doFlush c s).fuses = s.fuses ∧
    (doFlush c s).straps = s.straps ∧
    (doFlush c s).port = s.port ∧
    (doFlush c s).spill = s.spill ∧
    (doFlush c s).red = s.red ∧
    (doFlush c s).mot = s.mot ∧
    (doFlush c s).prod = s.prod ∧
    (doFlush c s).way = s.way ∧
    (doFlush c s).fe = s.fe ∧
    (doFlush c s).roads = s.roads ∧
    (doFlush c s).hs = s.hs ∧
    (doFlush c s).tw = s.tw ∧
    (doFlush c s).attn = s.attn ∧
    (doFlush c s).locks = s.locks ∧
    (doFlush c s).pin = s.pin ∧
    (doFlush c s).age = s.age ∧
    (doFlush c s).tap = s.tap ∧
    (doFlush c s).time.gRate = s.time.gRate ∧
    (doFlush c s).time.rates = s.time.rates ∧
    (doFlush c s).time.gIdx = s.time.gIdx := by
  unfold doFlush
  and_intros <;>
    ((try simp) <;> (try (repeat' split)) <;> (try simp))

@[simp] theorem doVote_keeps (c : Nat) (s : State) :
    (doVote c s).pending = s.pending ∧
    (doVote c s).free = s.free ∧
    (doVote c s).power = s.power ∧
    (doVote c s).fuses = s.fuses ∧
    (doVote c s).straps = s.straps ∧
    (doVote c s).port = s.port ∧
    (doVote c s).cw = s.cw ∧
    (doVote c s).spill = s.spill ∧
    (doVote c s).red = s.red ∧
    (doVote c s).mot = s.mot ∧
    (doVote c s).prod = s.prod ∧
    (doVote c s).way = s.way ∧
    (doVote c s).fe = s.fe ∧
    (doVote c s).roads = s.roads ∧
    (doVote c s).hs = s.hs ∧
    (doVote c s).tw = s.tw ∧
    (doVote c s).attn = s.attn ∧
    (doVote c s).locks = s.locks ∧
    (doVote c s).pin = s.pin ∧
    (doVote c s).age = s.age ∧
    (doVote c s).tap = s.tap ∧
    (doVote c s).time.gRate = s.time.gRate ∧
    (doVote c s).time.rates = s.time.rates ∧
    (doVote c s).time.gIdx = s.time.gIdx := by
  unfold doVote
  and_intros <;>
    ((try simp) <;> (try (repeat' split)) <;> (try simp))

@[simp] theorem State.dropSequence_keeps (s : State) (c typ : Nat) (snaps : List (Nat × BitVec 16)) :
    (State.dropSequence s c typ snaps).pending = s.pending ∧
    (State.dropSequence s c typ snaps).free = s.free ∧
    (State.dropSequence s c typ snaps).power = s.power ∧
    (State.dropSequence s c typ snaps).time = s.time ∧
    (State.dropSequence s c typ snaps).fuses = s.fuses ∧
    (State.dropSequence s c typ snaps).straps = s.straps ∧
    (State.dropSequence s c typ snaps).port = s.port ∧
    (State.dropSequence s c typ snaps).cw = s.cw ∧
    (State.dropSequence s c typ snaps).spill = s.spill ∧
    (State.dropSequence s c typ snaps).red = s.red ∧
    (State.dropSequence s c typ snaps).mot = s.mot ∧
    (State.dropSequence s c typ snaps).prod = s.prod ∧
    (State.dropSequence s c typ snaps).way = s.way ∧
    (State.dropSequence s c typ snaps).fe = s.fe ∧
    (State.dropSequence s c typ snaps).roads = s.roads ∧
    (State.dropSequence s c typ snaps).up = s.up ∧
    (State.dropSequence s c typ snaps).hs = s.hs ∧
    (State.dropSequence s c typ snaps).tw = s.tw ∧
    (State.dropSequence s c typ snaps).attn = s.attn ∧
    (State.dropSequence s c typ snaps).locks = s.locks ∧
    (State.dropSequence s c typ snaps).pin = s.pin ∧
    (State.dropSequence s c typ snaps).age = s.age ∧
    (State.dropSequence s c typ snaps).tap = s.tap := by
  unfold State.dropSequence
  and_intros <;>
    ((try simp) <;> (try (repeat' split)) <;> (try simp))

@[simp] theorem doCalRead_keeps (c : Nat) (s : State) :
    (doCalRead c s).pending = s.pending ∧
    (doCalRead c s).free = s.free ∧
    (doCalRead c s).power = s.power ∧
    (doCalRead c s).fuses = s.fuses ∧
    (doCalRead c s).straps = s.straps ∧
    (doCalRead c s).port = s.port ∧
    (doCalRead c s).cw = s.cw ∧
    (doCalRead c s).spill = s.spill ∧
    (doCalRead c s).red = s.red ∧
    (doCalRead c s).prod = s.prod ∧
    (doCalRead c s).way = s.way ∧
    (doCalRead c s).fe = s.fe ∧
    (doCalRead c s).roads = s.roads ∧
    (doCalRead c s).hs = s.hs ∧
    (doCalRead c s).tw = s.tw ∧
    (doCalRead c s).attn = s.attn ∧
    (doCalRead c s).locks = s.locks ∧
    (doCalRead c s).pin = s.pin ∧
    (doCalRead c s).age = s.age ∧
    (doCalRead c s).tap = s.tap ∧
    (doCalRead c s).time.gRate = s.time.gRate ∧
    (doCalRead c s).time.rates = s.time.rates ∧
    (doCalRead c s).time.gIdx = s.time.gIdx := by
  unfold doCalRead
  and_intros <;>
    ((try simp) <;> (try (repeat' split)) <;> (try simp))

@[simp] theorem doMarginRead_keeps (c : Nat) (s : State) :
    (doMarginRead c s).pending = s.pending ∧
    (doMarginRead c s).free = s.free ∧
    (doMarginRead c s).power = s.power ∧
    (doMarginRead c s).fuses = s.fuses ∧
    (doMarginRead c s).straps = s.straps ∧
    (doMarginRead c s).port = s.port ∧
    (doMarginRead c s).cw = s.cw ∧
    (doMarginRead c s).spill = s.spill ∧
    (doMarginRead c s).red = s.red ∧
    (doMarginRead c s).mot = s.mot ∧
    (doMarginRead c s).prod = s.prod ∧
    (doMarginRead c s).way = s.way ∧
    (doMarginRead c s).fe = s.fe ∧
    (doMarginRead c s).roads = s.roads ∧
    (doMarginRead c s).hs = s.hs ∧
    (doMarginRead c s).tw = s.tw ∧
    (doMarginRead c s).attn = s.attn ∧
    (doMarginRead c s).locks = s.locks ∧
    (doMarginRead c s).pin = s.pin ∧
    (doMarginRead c s).tap = s.tap ∧
    (doMarginRead c s).time.gRate = s.time.gRate ∧
    (doMarginRead c s).time.rates = s.time.rates ∧
    (doMarginRead c s).time.gIdx = s.time.gIdx := by
  unfold doMarginRead
  and_intros <;>
    ((try simp) <;> (try (repeat' split)) <;> (try simp))

@[simp] theorem State.restoreFails_keeps (s : State) (c : Nat) (cmp : BitVec 16) (result : Nat) (keep : Bool) :
    (State.restoreFails s c cmp result keep).pending = s.pending ∧
    (State.restoreFails s c cmp result keep).free = s.free ∧
    (State.restoreFails s c cmp result keep).power = s.power ∧
    (State.restoreFails s c cmp result keep).time = s.time ∧
    (State.restoreFails s c cmp result keep).fuses = s.fuses ∧
    (State.restoreFails s c cmp result keep).straps = s.straps ∧
    (State.restoreFails s c cmp result keep).port = s.port ∧
    (State.restoreFails s c cmp result keep).cw = s.cw ∧
    (State.restoreFails s c cmp result keep).spill = s.spill ∧
    (State.restoreFails s c cmp result keep).red = s.red ∧
    (State.restoreFails s c cmp result keep).prod = s.prod ∧
    (State.restoreFails s c cmp result keep).way = s.way ∧
    (State.restoreFails s c cmp result keep).fe = s.fe ∧
    (State.restoreFails s c cmp result keep).roads = s.roads ∧
    (State.restoreFails s c cmp result keep).up = s.up ∧
    (State.restoreFails s c cmp result keep).hs = s.hs ∧
    (State.restoreFails s c cmp result keep).tw = s.tw ∧
    (State.restoreFails s c cmp result keep).attn = s.attn ∧
    (State.restoreFails s c cmp result keep).locks = s.locks ∧
    (State.restoreFails s c cmp result keep).pin = s.pin ∧
    (State.restoreFails s c cmp result keep).age = s.age ∧
    (State.restoreFails s c cmp result keep).tap = s.tap := by
  unfold State.restoreFails
  and_intros <;>
    ((try simp) <;> (try (repeat' split)) <;> (try simp))

@[simp] theorem State.stageFragment_keeps (s : State) (r : Restore) (frag : Nat) :
    (State.stageFragment s r frag).pending = s.pending ∧
    (State.stageFragment s r frag).free = s.free ∧
    (State.stageFragment s r frag).power = s.power ∧
    (State.stageFragment s r frag).time = s.time ∧
    (State.stageFragment s r frag).fuses = s.fuses ∧
    (State.stageFragment s r frag).straps = s.straps ∧
    (State.stageFragment s r frag).port = s.port ∧
    (State.stageFragment s r frag).cw = s.cw ∧
    (State.stageFragment s r frag).spill = s.spill ∧
    (State.stageFragment s r frag).red = s.red ∧
    (State.stageFragment s r frag).prod = s.prod ∧
    (State.stageFragment s r frag).way = s.way ∧
    (State.stageFragment s r frag).fe = s.fe ∧
    (State.stageFragment s r frag).roads = s.roads ∧
    (State.stageFragment s r frag).up = s.up ∧
    (State.stageFragment s r frag).hs = s.hs ∧
    (State.stageFragment s r frag).tw = s.tw ∧
    (State.stageFragment s r frag).attn = s.attn ∧
    (State.stageFragment s r frag).locks = s.locks ∧
    (State.stageFragment s r frag).pin = s.pin ∧
    (State.stageFragment s r frag).age = s.age ∧
    (State.stageFragment s r frag).tap = s.tap := by
  unfold State.stageFragment
  and_intros <;>
    ((try simp) <;> (try (repeat' split)) <;> (try simp))

@[simp] theorem doCalRestore_pending (c : Nat) (s : State) :
    (doCalRestore c s).pending = s.pending := by
  unfold doCalRestore
  refine State_handle_pending _ _ _ _ ?_
  intro m x t
  dsimp only
  (repeat' split) <;> simp

@[simp] theorem doCalRestore_free (c : Nat) (s : State) :
    (doCalRestore c s).free = s.free := by
  unfold doCalRestore
  refine State_handle_free _ _ _ _ ?_
  intro m x t
  dsimp only
  (repeat' split) <;> simp

@[simp] theorem doCalRestore_power (c : Nat) (s : State) :
    (doCalRestore c s).power = s.power := by
  unfold doCalRestore
  refine State_handle_power _ _ _ _ ?_
  intro m x t
  dsimp only
  (repeat' split) <;> simp

@[simp] theorem doCalRestore_fuses (c : Nat) (s : State) :
    (doCalRestore c s).fuses = s.fuses := by
  unfold doCalRestore
  refine State_handle_fuses _ _ _ _ ?_
  intro m x t
  dsimp only
  (repeat' split) <;> simp

@[simp] theorem doCalRestore_straps (c : Nat) (s : State) :
    (doCalRestore c s).straps = s.straps := by
  unfold doCalRestore
  refine State_handle_straps _ _ _ _ ?_
  intro m x t
  dsimp only
  (repeat' split) <;> simp

@[simp] theorem doCalRestore_port (c : Nat) (s : State) :
    (doCalRestore c s).port = s.port := by
  unfold doCalRestore
  refine State_handle_port _ _ _ _ ?_
  intro m x t
  dsimp only
  (repeat' split) <;> simp

@[simp] theorem doCalRestore_cw (c : Nat) (s : State) :
    (doCalRestore c s).cw = s.cw := by
  unfold doCalRestore
  refine State_handle_cw _ _ _ _ ?_
  intro m x t
  dsimp only
  (repeat' split) <;> simp

@[simp] theorem doCalRestore_spill (c : Nat) (s : State) :
    (doCalRestore c s).spill = s.spill := by
  unfold doCalRestore
  refine State_handle_spill _ _ _ _ ?_
  intro m x t
  dsimp only
  (repeat' split) <;> simp

@[simp] theorem doCalRestore_red (c : Nat) (s : State) :
    (doCalRestore c s).red = s.red := by
  unfold doCalRestore
  refine State_handle_red _ _ _ _ ?_
  intro m x t
  dsimp only
  (repeat' split) <;> simp

@[simp] theorem doCalRestore_prod (c : Nat) (s : State) :
    (doCalRestore c s).prod = s.prod := by
  unfold doCalRestore
  refine State_handle_prod _ _ _ _ ?_
  intro m x t
  dsimp only
  (repeat' split) <;> simp

@[simp] theorem doCalRestore_way (c : Nat) (s : State) :
    (doCalRestore c s).way = s.way := by
  unfold doCalRestore
  refine State_handle_way _ _ _ _ ?_
  intro m x t
  dsimp only
  (repeat' split) <;> simp

@[simp] theorem doCalRestore_fe (c : Nat) (s : State) :
    (doCalRestore c s).fe = s.fe := by
  unfold doCalRestore
  refine State_handle_fe _ _ _ _ ?_
  intro m x t
  dsimp only
  (repeat' split) <;> simp

@[simp] theorem doCalRestore_roads (c : Nat) (s : State) :
    (doCalRestore c s).roads = s.roads := by
  unfold doCalRestore
  refine State_handle_roads _ _ _ _ ?_
  intro m x t
  dsimp only
  (repeat' split) <;> simp

@[simp] theorem doCalRestore_hs (c : Nat) (s : State) :
    (doCalRestore c s).hs = s.hs := by
  unfold doCalRestore
  refine State_handle_hs _ _ _ _ ?_
  intro m x t
  dsimp only
  (repeat' split) <;> simp

@[simp] theorem doCalRestore_tw (c : Nat) (s : State) :
    (doCalRestore c s).tw = s.tw := by
  unfold doCalRestore
  refine State_handle_tw _ _ _ _ ?_
  intro m x t
  dsimp only
  (repeat' split) <;> simp

@[simp] theorem doCalRestore_attn (c : Nat) (s : State) :
    (doCalRestore c s).attn = s.attn := by
  unfold doCalRestore
  refine State_handle_attn _ _ _ _ ?_
  intro m x t
  dsimp only
  (repeat' split) <;> simp

@[simp] theorem doCalRestore_locks (c : Nat) (s : State) :
    (doCalRestore c s).locks = s.locks := by
  unfold doCalRestore
  refine State_handle_locks _ _ _ _ ?_
  intro m x t
  dsimp only
  (repeat' split) <;> simp

@[simp] theorem doCalRestore_pin (c : Nat) (s : State) :
    (doCalRestore c s).pin = s.pin := by
  unfold doCalRestore
  refine State_handle_pin _ _ _ _ ?_
  intro m x t
  dsimp only
  (repeat' split) <;> simp

@[simp] theorem doCalRestore_age (c : Nat) (s : State) :
    (doCalRestore c s).age = s.age := by
  unfold doCalRestore
  refine State_handle_age _ _ _ _ ?_
  intro m x t
  dsimp only
  (repeat' split) <;> simp

@[simp] theorem doCalRestore_tap (c : Nat) (s : State) :
    (doCalRestore c s).tap = s.tap := by
  unfold doCalRestore
  refine State_handle_tap _ _ _ _ ?_
  intro m x t
  dsimp only
  (repeat' split) <;> simp

@[simp] theorem doCalRestore_time_gRate (c : Nat) (s : State) :
    (doCalRestore c s).time.gRate = s.time.gRate := by
  unfold doCalRestore
  refine State_handle_time_gRate _ _ _ _ ?_
  intro m x t
  dsimp only
  (repeat' split) <;> simp

@[simp] theorem doCalRestore_time_rates (c : Nat) (s : State) :
    (doCalRestore c s).time.rates = s.time.rates := by
  unfold doCalRestore
  refine State_handle_time_rates _ _ _ _ ?_
  intro m x t
  dsimp only
  (repeat' split) <;> simp

@[simp] theorem doCalRestore_time_gIdx (c : Nat) (s : State) :
    (doCalRestore c s).time.gIdx = s.time.gIdx := by
  unfold doCalRestore
  refine State_handle_time_gIdx _ _ _ _ ?_
  intro m x t
  dsimp only
  (repeat' split) <;> simp

@[simp] theorem doCalRestoreTimeout_keeps (dt : Nat) (s : State) :
    (doCalRestoreTimeout dt s).pending = s.pending ∧
    (doCalRestoreTimeout dt s).free = s.free ∧
    (doCalRestoreTimeout dt s).power = s.power ∧
    (doCalRestoreTimeout dt s).fuses = s.fuses ∧
    (doCalRestoreTimeout dt s).straps = s.straps ∧
    (doCalRestoreTimeout dt s).port = s.port ∧
    (doCalRestoreTimeout dt s).cw = s.cw ∧
    (doCalRestoreTimeout dt s).spill = s.spill ∧
    (doCalRestoreTimeout dt s).red = s.red ∧
    (doCalRestoreTimeout dt s).prod = s.prod ∧
    (doCalRestoreTimeout dt s).way = s.way ∧
    (doCalRestoreTimeout dt s).fe = s.fe ∧
    (doCalRestoreTimeout dt s).roads = s.roads ∧
    (doCalRestoreTimeout dt s).hs = s.hs ∧
    (doCalRestoreTimeout dt s).tw = s.tw ∧
    (doCalRestoreTimeout dt s).attn = s.attn ∧
    (doCalRestoreTimeout dt s).locks = s.locks ∧
    (doCalRestoreTimeout dt s).pin = s.pin ∧
    (doCalRestoreTimeout dt s).age = s.age ∧
    (doCalRestoreTimeout dt s).tap = s.tap ∧
    (doCalRestoreTimeout dt s).time.gRate = s.time.gRate ∧
    (doCalRestoreTimeout dt s).time.rates = s.time.rates ∧
    (doCalRestoreTimeout dt s).time.gIdx = s.time.gIdx := by
  unfold doCalRestoreTimeout
  and_intros <;>
    ((try simp) <;> (try (repeat' split)) <;> (try simp))

@[simp] theorem doIdentity_keeps (c : Nat) (s : State) :
    (doIdentity c s).pending = s.pending ∧
    (doIdentity c s).free = s.free ∧
    (doIdentity c s).power = s.power ∧
    (doIdentity c s).fuses = s.fuses ∧
    (doIdentity c s).straps = s.straps ∧
    (doIdentity c s).port = s.port ∧
    (doIdentity c s).cw = s.cw ∧
    (doIdentity c s).spill = s.spill ∧
    (doIdentity c s).red = s.red ∧
    (doIdentity c s).mot = s.mot ∧
    (doIdentity c s).prod = s.prod ∧
    (doIdentity c s).way = s.way ∧
    (doIdentity c s).fe = s.fe ∧
    (doIdentity c s).roads = s.roads ∧
    (doIdentity c s).hs = s.hs ∧
    (doIdentity c s).tw = s.tw ∧
    (doIdentity c s).attn = s.attn ∧
    (doIdentity c s).locks = s.locks ∧
    (doIdentity c s).pin = s.pin ∧
    (doIdentity c s).age = s.age ∧
    (doIdentity c s).tap = s.tap ∧
    (doIdentity c s).time.gRate = s.time.gRate ∧
    (doIdentity c s).time.rates = s.time.rates ∧
    (doIdentity c s).time.gIdx = s.time.gIdx := by
  unfold doIdentity
  and_intros <;>
    ((try simp) <;> (try (repeat' split)) <;> (try simp))

@[simp] theorem doReloadImage_pending (c : Nat) (s : State) :
    (doReloadImage c s).pending = s.pending := by
  unfold doReloadImage
  refine State_handle_pending _ _ _ _ ?_
  intro m x t
  split <;> simp

@[simp] theorem doReloadImage_free (c : Nat) (s : State) :
    (doReloadImage c s).free = s.free := by
  unfold doReloadImage
  refine State_handle_free _ _ _ _ ?_
  intro m x t
  split <;> simp

@[simp] theorem doReloadImage_power (c : Nat) (s : State) :
    (doReloadImage c s).power = s.power := by
  unfold doReloadImage
  refine State_handle_power _ _ _ _ ?_
  intro m x t
  split <;> simp

@[simp] theorem doReloadImage_fuses (c : Nat) (s : State) :
    (doReloadImage c s).fuses = s.fuses := by
  unfold doReloadImage
  refine State_handle_fuses _ _ _ _ ?_
  intro m x t
  split <;> simp

@[simp] theorem doReloadImage_straps (c : Nat) (s : State) :
    (doReloadImage c s).straps = s.straps := by
  unfold doReloadImage
  refine State_handle_straps _ _ _ _ ?_
  intro m x t
  split <;> simp

@[simp] theorem doReloadImage_spill (c : Nat) (s : State) :
    (doReloadImage c s).spill = s.spill := by
  unfold doReloadImage
  refine State_handle_spill _ _ _ _ ?_
  intro m x t
  split <;> simp

@[simp] theorem doReloadImage_red (c : Nat) (s : State) :
    (doReloadImage c s).red = s.red := by
  unfold doReloadImage
  refine State_handle_red _ _ _ _ ?_
  intro m x t
  split <;> simp

@[simp] theorem doReloadImage_mot (c : Nat) (s : State) :
    (doReloadImage c s).mot = s.mot := by
  unfold doReloadImage
  refine State_handle_mot _ _ _ _ ?_
  intro m x t
  split <;> simp

@[simp] theorem doReloadImage_prod (c : Nat) (s : State) :
    (doReloadImage c s).prod = s.prod := by
  unfold doReloadImage
  refine State_handle_prod _ _ _ _ ?_
  intro m x t
  split <;> simp

@[simp] theorem doReloadImage_fe (c : Nat) (s : State) :
    (doReloadImage c s).fe = s.fe := by
  unfold doReloadImage
  refine State_handle_fe _ _ _ _ ?_
  intro m x t
  split <;> simp

@[simp] theorem doReloadImage_roads (c : Nat) (s : State) :
    (doReloadImage c s).roads = s.roads := by
  unfold doReloadImage
  refine State_handle_roads _ _ _ _ ?_
  intro m x t
  split <;> simp

@[simp] theorem doReloadImage_hs (c : Nat) (s : State) :
    (doReloadImage c s).hs = s.hs := by
  unfold doReloadImage
  refine State_handle_hs _ _ _ _ ?_
  intro m x t
  split <;> simp

@[simp] theorem doReloadImage_tw (c : Nat) (s : State) :
    (doReloadImage c s).tw = s.tw := by
  unfold doReloadImage
  refine State_handle_tw _ _ _ _ ?_
  intro m x t
  split <;> simp

@[simp] theorem doReloadImage_attn (c : Nat) (s : State) :
    (doReloadImage c s).attn = s.attn := by
  unfold doReloadImage
  refine State_handle_attn _ _ _ _ ?_
  intro m x t
  split <;> simp

@[simp] theorem doReloadImage_locks (c : Nat) (s : State) :
    (doReloadImage c s).locks = s.locks := by
  unfold doReloadImage
  refine State_handle_locks _ _ _ _ ?_
  intro m x t
  split <;> simp

@[simp] theorem doReloadImage_pin (c : Nat) (s : State) :
    (doReloadImage c s).pin = s.pin := by
  unfold doReloadImage
  refine State_handle_pin _ _ _ _ ?_
  intro m x t
  split <;> simp

@[simp] theorem doReloadImage_age (c : Nat) (s : State) :
    (doReloadImage c s).age = s.age := by
  unfold doReloadImage
  refine State_handle_age _ _ _ _ ?_
  intro m x t
  split <;> simp

@[simp] theorem doReloadImage_tap (c : Nat) (s : State) :
    (doReloadImage c s).tap = s.tap := by
  unfold doReloadImage
  refine State_handle_tap _ _ _ _ ?_
  intro m x t
  split <;> simp

@[simp] theorem doReloadImage_port_inForce (c : Nat) (s : State) :
    (doReloadImage c s).port.inForce = s.port.inForce := by
  unfold doReloadImage
  refine State_handle_port_inForce _ _ _ _ ?_
  intro m x t
  split <;> simp

@[simp] theorem doReloadImage_time_gRate (c : Nat) (s : State) :
    (doReloadImage c s).time.gRate = s.time.gRate := by
  unfold doReloadImage
  refine State_handle_time_gRate _ _ _ _ ?_
  intro m x t
  split <;> simp

@[simp] theorem doReloadImage_time_rates (c : Nat) (s : State) :
    (doReloadImage c s).time.rates = s.time.rates := by
  unfold doReloadImage
  refine State_handle_time_rates _ _ _ _ ?_
  intro m x t
  split <;> simp

@[simp] theorem doReloadImage_time_gIdx (c : Nat) (s : State) :
    (doReloadImage c s).time.gIdx = s.time.gIdx := by
  unfold doReloadImage
  refine State_handle_time_gIdx _ _ _ _ ?_
  intro m x t
  split <;> simp

@[simp] theorem doServiceWindow_keeps (c : Nat) (s : State) :
    (doServiceWindow c s).pending = s.pending ∧
    (doServiceWindow c s).free = s.free ∧
    (doServiceWindow c s).fuses = s.fuses ∧
    (doServiceWindow c s).straps = s.straps ∧
    (doServiceWindow c s).port = s.port ∧
    (doServiceWindow c s).cw = s.cw ∧
    (doServiceWindow c s).spill = s.spill ∧
    (doServiceWindow c s).red = s.red ∧
    (doServiceWindow c s).mot = s.mot ∧
    (doServiceWindow c s).prod = s.prod ∧
    (doServiceWindow c s).way = s.way ∧
    (doServiceWindow c s).fe = s.fe ∧
    (doServiceWindow c s).roads = s.roads ∧
    (doServiceWindow c s).hs = s.hs ∧
    (doServiceWindow c s).tw = s.tw ∧
    (doServiceWindow c s).attn = s.attn ∧
    (doServiceWindow c s).locks = s.locks ∧
    (doServiceWindow c s).pin = s.pin ∧
    (doServiceWindow c s).age = s.age ∧
    (doServiceWindow c s).tap = s.tap ∧
    (doServiceWindow c s).power.mode = s.power.mode ∧
    (doServiceWindow c s).time.gRate = s.time.gRate ∧
    (doServiceWindow c s).time.rates = s.time.rates ∧
    (doServiceWindow c s).time.gIdx = s.time.gIdx := by
  unfold doServiceWindow
  and_intros <;>
    ((try simp) <;> (try (repeat' split)) <;> (try simp))

@[simp] theorem doServiceWindowEnd_keeps (dt : Nat) (s : State) :
    (doServiceWindowEnd dt s).pending = s.pending ∧
    (doServiceWindowEnd dt s).free = s.free ∧
    (doServiceWindowEnd dt s).fuses = s.fuses ∧
    (doServiceWindowEnd dt s).straps = s.straps ∧
    (doServiceWindowEnd dt s).port = s.port ∧
    (doServiceWindowEnd dt s).cw = s.cw ∧
    (doServiceWindowEnd dt s).spill = s.spill ∧
    (doServiceWindowEnd dt s).red = s.red ∧
    (doServiceWindowEnd dt s).mot = s.mot ∧
    (doServiceWindowEnd dt s).prod = s.prod ∧
    (doServiceWindowEnd dt s).way = s.way ∧
    (doServiceWindowEnd dt s).fe = s.fe ∧
    (doServiceWindowEnd dt s).roads = s.roads ∧
    (doServiceWindowEnd dt s).up = s.up ∧
    (doServiceWindowEnd dt s).hs = s.hs ∧
    (doServiceWindowEnd dt s).tw = s.tw ∧
    (doServiceWindowEnd dt s).attn = s.attn ∧
    (doServiceWindowEnd dt s).clients = s.clients ∧
    (doServiceWindowEnd dt s).locks = s.locks ∧
    (doServiceWindowEnd dt s).pin = s.pin ∧
    (doServiceWindowEnd dt s).age = s.age ∧
    (doServiceWindowEnd dt s).tap = s.tap ∧
    (doServiceWindowEnd dt s).power.mode = s.power.mode ∧
    (doServiceWindowEnd dt s).time.gRate = s.time.gRate ∧
    (doServiceWindowEnd dt s).time.rates = s.time.rates ∧
    (doServiceWindowEnd dt s).time.gIdx = s.time.gIdx := by
  unfold doServiceWindowEnd
  and_intros <;>
    ((try simp) <;> (try (repeat' split)) <;> (try simp))

@[simp] theorem doPpsLabel_keeps (c : Nat) (s : State) :
    (doPpsLabel c s).pending = s.pending ∧
    (doPpsLabel c s).free = s.free ∧
    (doPpsLabel c s).power = s.power ∧
    (doPpsLabel c s).fuses = s.fuses ∧
    (doPpsLabel c s).straps = s.straps ∧
    (doPpsLabel c s).port = s.port ∧
    (doPpsLabel c s).cw = s.cw ∧
    (doPpsLabel c s).spill = s.spill ∧
    (doPpsLabel c s).red = s.red ∧
    (doPpsLabel c s).mot = s.mot ∧
    (doPpsLabel c s).prod = s.prod ∧
    (doPpsLabel c s).way = s.way ∧
    (doPpsLabel c s).fe = s.fe ∧
    (doPpsLabel c s).roads = s.roads ∧
    (doPpsLabel c s).hs = s.hs ∧
    (doPpsLabel c s).tw = s.tw ∧
    (doPpsLabel c s).attn = s.attn ∧
    (doPpsLabel c s).locks = s.locks ∧
    (doPpsLabel c s).pin = s.pin ∧
    (doPpsLabel c s).age = s.age ∧
    (doPpsLabel c s).tap = s.tap ∧
    (doPpsLabel c s).time.gRate = s.time.gRate ∧
    (doPpsLabel c s).time.rates = s.time.rates ∧
    (doPpsLabel c s).time.gIdx = s.time.gIdx := by
  unfold doPpsLabel
  and_intros <;>
    ((try simp) <;> (try (repeat' split)) <;> (try simp))

@[simp] theorem State.launchRequest_keeps (s : State) (c e t : Nat) (fs : List LineFinding) :
    (State.launchRequest s c e t fs).2.2.pending = s.pending ∧
    (State.launchRequest s c e t fs).2.2.power = s.power ∧
    (State.launchRequest s c e t fs).2.2.fuses = s.fuses ∧
    (State.launchRequest s c e t fs).2.2.straps = s.straps ∧
    (State.launchRequest s c e t fs).2.2.port = s.port ∧
    (State.launchRequest s c e t fs).2.2.red = s.red ∧
    (State.launchRequest s c e t fs).2.2.mot = s.mot ∧
    (State.launchRequest s c e t fs).2.2.prod = s.prod ∧
    (State.launchRequest s c e t fs).2.2.fe = s.fe ∧
    (State.launchRequest s c e t fs).2.2.roads = s.roads ∧
    (State.launchRequest s c e t fs).2.2.hs = s.hs ∧
    (State.launchRequest s c e t fs).2.2.tw = s.tw ∧
    (State.launchRequest s c e t fs).2.2.attn = s.attn ∧
    (State.launchRequest s c e t fs).2.2.clients = s.clients ∧
    (State.launchRequest s c e t fs).2.2.locks = s.locks ∧
    (State.launchRequest s c e t fs).2.2.pin = s.pin ∧
    (State.launchRequest s c e t fs).2.2.tap = s.tap ∧
    (State.launchRequest s c e t fs).2.2.time.gRate = s.time.gRate ∧
    (State.launchRequest s c e t fs).2.2.time.rates = s.time.rates ∧
    (State.launchRequest s c e t fs).2.2.time.gIdx = s.time.gIdx := by
  unfold State.launchRequest
  and_intros <;>
    ((try simp) <;> (try (repeat' split)) <;> (try simp))

@[simp] theorem doLaunch_keeps (c : Nat) (fs : List LineFinding) (s : State) :
    (doLaunch c fs s).pending = s.pending ∧
    (doLaunch c fs s).power = s.power ∧
    (doLaunch c fs s).fuses = s.fuses ∧
    (doLaunch c fs s).straps = s.straps ∧
    (doLaunch c fs s).port = s.port ∧
    (doLaunch c fs s).red = s.red ∧
    (doLaunch c fs s).mot = s.mot ∧
    (doLaunch c fs s).prod = s.prod ∧
    (doLaunch c fs s).fe = s.fe ∧
    (doLaunch c fs s).roads = s.roads ∧
    (doLaunch c fs s).hs = s.hs ∧
    (doLaunch c fs s).tw = s.tw ∧
    (doLaunch c fs s).attn = s.attn ∧
    (doLaunch c fs s).locks = s.locks ∧
    (doLaunch c fs s).pin = s.pin ∧
    (doLaunch c fs s).tap = s.tap ∧
    (doLaunch c fs s).time.gRate = s.time.gRate ∧
    (doLaunch c fs s).time.rates = s.time.rates ∧
    (doLaunch c fs s).time.gIdx = s.time.gIdx := by
  unfold doLaunch
  and_intros <;>
    ((try simp) <;> (try (repeat' split)) <;> (try simp))

@[simp] theorem State.onPin_keeps (s : State) (e : Nat) (f : PinSt → PinSt) :
    (State.onPin s e f).pending = s.pending ∧
    (State.onPin s e f).free = s.free ∧
    (State.onPin s e f).power = s.power ∧
    (State.onPin s e f).time = s.time ∧
    (State.onPin s e f).fuses = s.fuses ∧
    (State.onPin s e f).straps = s.straps ∧
    (State.onPin s e f).port = s.port ∧
    (State.onPin s e f).cw = s.cw ∧
    (State.onPin s e f).spill = s.spill ∧
    (State.onPin s e f).red = s.red ∧
    (State.onPin s e f).mot = s.mot ∧
    (State.onPin s e f).prod = s.prod ∧
    (State.onPin s e f).way = s.way ∧
    (State.onPin s e f).fe = s.fe ∧
    (State.onPin s e f).roads = s.roads ∧
    (State.onPin s e f).up = s.up ∧
    (State.onPin s e f).hs = s.hs ∧
    (State.onPin s e f).tw = s.tw ∧
    (State.onPin s e f).attn = s.attn ∧
    (State.onPin s e f).clients = s.clients ∧
    (State.onPin s e f).locks = s.locks ∧
    (State.onPin s e f).age = s.age ∧
    (State.onPin s e f).tap = s.tap := by
  unfold State.onPin
  and_intros <;>
    ((try simp) <;> (try (repeat' split)) <;> (try simp))

@[simp] theorem State.stepPin_keeps (s : State) (e : Nat) (en : PinEng) :
    (State.stepPin s e en).pending = s.pending ∧
    (State.stepPin s e en).free = s.free ∧
    (State.stepPin s e en).power = s.power ∧
    (State.stepPin s e en).time = s.time ∧
    (State.stepPin s e en).fuses = s.fuses ∧
    (State.stepPin s e en).straps = s.straps ∧
    (State.stepPin s e en).port = s.port ∧
    (State.stepPin s e en).cw = s.cw ∧
    (State.stepPin s e en).spill = s.spill ∧
    (State.stepPin s e en).red = s.red ∧
    (State.stepPin s e en).mot = s.mot ∧
    (State.stepPin s e en).prod = s.prod ∧
    (State.stepPin s e en).way = s.way ∧
    (State.stepPin s e en).fe = s.fe ∧
    (State.stepPin s e en).roads = s.roads ∧
    (State.stepPin s e en).up = s.up ∧
    (State.stepPin s e en).hs = s.hs ∧
    (State.stepPin s e en).tw = s.tw ∧
    (State.stepPin s e en).attn = s.attn ∧
    (State.stepPin s e en).clients = s.clients ∧
    (State.stepPin s e en).locks = s.locks ∧
    (State.stepPin s e en).age = s.age ∧
    (State.stepPin s e en).tap = s.tap := by
  unfold State.stepPin
  and_intros <;>
    ((try simp) <;> (try (repeat' split)) <;> (try simp))

@[simp] theorem State.closeRx_keeps (s : State) (e cause : Nat) :
    (State.closeRx s e cause).pending = s.pending ∧
    (State.closeRx s e cause).free = s.free ∧
    (State.closeRx s e cause).power = s.power ∧
    (State.closeRx s e cause).time = s.time ∧
    (State.closeRx s e cause).fuses = s.fuses ∧
    (State.closeRx s e cause).straps = s.straps ∧
    (State.closeRx s e cause).port = s.port ∧
    (State.closeRx s e cause).spill = s.spill ∧
    (State.closeRx s e cause).red = s.red ∧
    (State.closeRx s e cause).mot = s.mot ∧
    (State.closeRx s e cause).prod = s.prod ∧
    (State.closeRx s e cause).fe = s.fe ∧
    (State.closeRx s e cause).roads = s.roads ∧
    (State.closeRx s e cause).up = s.up ∧
    (State.closeRx s e cause).hs = s.hs ∧
    (State.closeRx s e cause).tw = s.tw ∧
    (State.closeRx s e cause).attn = s.attn ∧
    (State.closeRx s e cause).clients = s.clients ∧
    (State.closeRx s e cause).locks = s.locks ∧
    (State.closeRx s e cause).age = s.age ∧
    (State.closeRx s e cause).tap = s.tap := by
  unfold State.closeRx
  and_intros <;>
    ((try simp) <;> (try (repeat' split)) <;> (try simp))

@[simp] theorem State.drainRx_keeps (s : State) (e : Nat) :
    (State.drainRx s e).pending = s.pending ∧
    (State.drainRx s e).free = s.free ∧
    (State.drainRx s e).power = s.power ∧
    (State.drainRx s e).time = s.time ∧
    (State.drainRx s e).fuses = s.fuses ∧
    (State.drainRx s e).straps = s.straps ∧
    (State.drainRx s e).port = s.port ∧
    (State.drainRx s e).spill = s.spill ∧
    (State.drainRx s e).red = s.red ∧
    (State.drainRx s e).mot = s.mot ∧
    (State.drainRx s e).prod = s.prod ∧
    (State.drainRx s e).fe = s.fe ∧
    (State.drainRx s e).roads = s.roads ∧
    (State.drainRx s e).up = s.up ∧
    (State.drainRx s e).hs = s.hs ∧
    (State.drainRx s e).tw = s.tw ∧
    (State.drainRx s e).attn = s.attn ∧
    (State.drainRx s e).clients = s.clients ∧
    (State.drainRx s e).locks = s.locks ∧
    (State.drainRx s e).age = s.age ∧
    (State.drainRx s e).tap = s.tap := by
  unfold State.drainRx
  and_intros <;>
    ((try simp) <;> (try (repeat' split)) <;> (try simp))

@[simp] theorem doPinSet_keeps (e : Nat) (s : State) :
    (doPinSet e s).pending = s.pending ∧
    (doPinSet e s).free = s.free ∧
    (doPinSet e s).power = s.power ∧
    (doPinSet e s).time = s.time ∧
    (doPinSet e s).fuses = s.fuses ∧
    (doPinSet e s).straps = s.straps ∧
    (doPinSet e s).port = s.port ∧
    (doPinSet e s).cw = s.cw ∧
    (doPinSet e s).spill = s.spill ∧
    (doPinSet e s).red = s.red ∧
    (doPinSet e s).mot = s.mot ∧
    (doPinSet e s).prod = s.prod ∧
    (doPinSet e s).way = s.way ∧
    (doPinSet e s).fe = s.fe ∧
    (doPinSet e s).roads = s.roads ∧
    (doPinSet e s).up = s.up ∧
    (doPinSet e s).hs = s.hs ∧
    (doPinSet e s).tw = s.tw ∧
    (doPinSet e s).attn = s.attn ∧
    (doPinSet e s).clients = s.clients ∧
    (doPinSet e s).locks = s.locks ∧
    (doPinSet e s).age = s.age ∧
    (doPinSet e s).tap = s.tap := by
  unfold doPinSet
  and_intros <;>
    ((try simp) <;> (try (repeat' split)) <;> (try simp))

@[simp] theorem doPinOut_keeps (e : Nat) (s : State) :
    (doPinOut e s).pending = s.pending ∧
    (doPinOut e s).free = s.free ∧
    (doPinOut e s).power = s.power ∧
    (doPinOut e s).time = s.time ∧
    (doPinOut e s).fuses = s.fuses ∧
    (doPinOut e s).straps = s.straps ∧
    (doPinOut e s).port = s.port ∧
    (doPinOut e s).cw = s.cw ∧
    (doPinOut e s).spill = s.spill ∧
    (doPinOut e s).red = s.red ∧
    (doPinOut e s).mot = s.mot ∧
    (doPinOut e s).prod = s.prod ∧
    (doPinOut e s).way = s.way ∧
    (doPinOut e s).fe = s.fe ∧
    (doPinOut e s).roads = s.roads ∧
    (doPinOut e s).up = s.up ∧
    (doPinOut e s).hs = s.hs ∧
    (doPinOut e s).tw = s.tw ∧
    (doPinOut e s).attn = s.attn ∧
    (doPinOut e s).clients = s.clients ∧
    (doPinOut e s).locks = s.locks ∧
    (doPinOut e s).age = s.age ∧
    (doPinOut e s).tap = s.tap := by
  unfold doPinOut
  and_intros <;>
    ((try simp) <;> (try (repeat' split)) <;> (try simp))

@[simp] theorem doPinIn_keeps (e : Nat) (s : State) :
    (doPinIn e s).pending = s.pending ∧
    (doPinIn e s).free = s.free ∧
    (doPinIn e s).power = s.power ∧
    (doPinIn e s).time = s.time ∧
    (doPinIn e s).fuses = s.fuses ∧
    (doPinIn e s).straps = s.straps ∧
    (doPinIn e s).port = s.port ∧
    (doPinIn e s).cw = s.cw ∧
    (doPinIn e s).spill = s.spill ∧
    (doPinIn e s).red = s.red ∧
    (doPinIn e s).mot = s.mot ∧
    (doPinIn e s).prod = s.prod ∧
    (doPinIn e s).way = s.way ∧
    (doPinIn e s).fe = s.fe ∧
    (doPinIn e s).roads = s.roads ∧
    (doPinIn e s).up = s.up ∧
    (doPinIn e s).hs = s.hs ∧
    (doPinIn e s).tw = s.tw ∧
    (doPinIn e s).attn = s.attn ∧
    (doPinIn e s).clients = s.clients ∧
    (doPinIn e s).locks = s.locks ∧
    (doPinIn e s).age = s.age ∧
    (doPinIn e s).tap = s.tap := by
  unfold doPinIn
  and_intros <;>
    ((try simp) <;> (try (repeat' split)) <;> (try simp))

@[simp] theorem doPinPull_keeps (e : Nat) (s : State) :
    (doPinPull e s).pending = s.pending ∧
    (doPinPull e s).free = s.free ∧
    (doPinPull e s).power = s.power ∧
    (doPinPull e s).time = s.time ∧
    (doPinPull e s).fuses = s.fuses ∧
    (doPinPull e s).straps = s.straps ∧
    (doPinPull e s).port = s.port ∧
    (doPinPull e s).spill = s.spill ∧
    (doPinPull e s).red = s.red ∧
    (doPinPull e s).mot = s.mot ∧
    (doPinPull e s).prod = s.prod ∧
    (doPinPull e s).fe = s.fe ∧
    (doPinPull e s).roads = s.roads ∧
    (doPinPull e s).up = s.up ∧
    (doPinPull e s).hs = s.hs ∧
    (doPinPull e s).tw = s.tw ∧
    (doPinPull e s).attn = s.attn ∧
    (doPinPull e s).clients = s.clients ∧
    (doPinPull e s).locks = s.locks ∧
    (doPinPull e s).age = s.age ∧
    (doPinPull e s).tap = s.tap := by
  unfold doPinPull
  and_intros <;>
    ((try simp) <;> (try (repeat' split)) <;> (try simp))

@[simp] theorem doPinPush_keeps (e : Nat) (s : State) :
    (doPinPush e s).pending = s.pending ∧
    (doPinPush e s).free = s.free ∧
    (doPinPush e s).power = s.power ∧
    (doPinPush e s).time = s.time ∧
    (doPinPush e s).fuses = s.fuses ∧
    (doPinPush e s).straps = s.straps ∧
    (doPinPush e s).port = s.port ∧
    (doPinPush e s).cw = s.cw ∧
    (doPinPush e s).spill = s.spill ∧
    (doPinPush e s).red = s.red ∧
    (doPinPush e s).mot = s.mot ∧
    (doPinPush e s).prod = s.prod ∧
    (doPinPush e s).way = s.way ∧
    (doPinPush e s).fe = s.fe ∧
    (doPinPush e s).roads = s.roads ∧
    (doPinPush e s).up = s.up ∧
    (doPinPush e s).hs = s.hs ∧
    (doPinPush e s).tw = s.tw ∧
    (doPinPush e s).attn = s.attn ∧
    (doPinPush e s).clients = s.clients ∧
    (doPinPush e s).locks = s.locks ∧
    (doPinPush e s).age = s.age ∧
    (doPinPush e s).tap = s.tap := by
  unfold doPinPush
  and_intros <;>
    ((try simp) <;> (try (repeat' split)) <;> (try simp))

@[simp] theorem doPinWait_keeps (dt e : Nat) (s : State) :
    (doPinWait dt e s).pending = s.pending ∧
    (doPinWait dt e s).free = s.free ∧
    (doPinWait dt e s).power = s.power ∧
    (doPinWait dt e s).fuses = s.fuses ∧
    (doPinWait dt e s).straps = s.straps ∧
    (doPinWait dt e s).port = s.port ∧
    (doPinWait dt e s).cw = s.cw ∧
    (doPinWait dt e s).spill = s.spill ∧
    (doPinWait dt e s).red = s.red ∧
    (doPinWait dt e s).mot = s.mot ∧
    (doPinWait dt e s).prod = s.prod ∧
    (doPinWait dt e s).way = s.way ∧
    (doPinWait dt e s).fe = s.fe ∧
    (doPinWait dt e s).roads = s.roads ∧
    (doPinWait dt e s).up = s.up ∧
    (doPinWait dt e s).hs = s.hs ∧
    (doPinWait dt e s).tw = s.tw ∧
    (doPinWait dt e s).attn = s.attn ∧
    (doPinWait dt e s).clients = s.clients ∧
    (doPinWait dt e s).locks = s.locks ∧
    (doPinWait dt e s).age = s.age ∧
    (doPinWait dt e s).tap = s.tap ∧
    (doPinWait dt e s).time.gRate = s.time.gRate ∧
    (doPinWait dt e s).time.rates = s.time.rates ∧
    (doPinWait dt e s).time.gIdx = s.time.gIdx := by
  unfold doPinWait
  and_intros <;>
    ((try simp) <;> (try (repeat' split)) <;> (try simp))

@[simp] theorem doPinJmp_keeps (e : Nat) (s : State) :
    (doPinJmp e s).pending = s.pending ∧
    (doPinJmp e s).free = s.free ∧
    (doPinJmp e s).power = s.power ∧
    (doPinJmp e s).time = s.time ∧
    (doPinJmp e s).fuses = s.fuses ∧
    (doPinJmp e s).straps = s.straps ∧
    (doPinJmp e s).port = s.port ∧
    (doPinJmp e s).cw = s.cw ∧
    (doPinJmp e s).spill = s.spill ∧
    (doPinJmp e s).red = s.red ∧
    (doPinJmp e s).mot = s.mot ∧
    (doPinJmp e s).prod = s.prod ∧
    (doPinJmp e s).way = s.way ∧
    (doPinJmp e s).fe = s.fe ∧
    (doPinJmp e s).roads = s.roads ∧
    (doPinJmp e s).up = s.up ∧
    (doPinJmp e s).hs = s.hs ∧
    (doPinJmp e s).tw = s.tw ∧
    (doPinJmp e s).attn = s.attn ∧
    (doPinJmp e s).clients = s.clients ∧
    (doPinJmp e s).locks = s.locks ∧
    (doPinJmp e s).age = s.age ∧
    (doPinJmp e s).tap = s.tap := by
  unfold doPinJmp
  and_intros <;>
    ((try simp) <;> (try (repeat' split)) <;> (try simp))

@[simp] theorem doPinMov_keeps (e : Nat) (s : State) :
    (doPinMov e s).pending = s.pending ∧
    (doPinMov e s).free = s.free ∧
    (doPinMov e s).power = s.power ∧
    (doPinMov e s).time = s.time ∧
    (doPinMov e s).fuses = s.fuses ∧
    (doPinMov e s).straps = s.straps ∧
    (doPinMov e s).port = s.port ∧
    (doPinMov e s).cw = s.cw ∧
    (doPinMov e s).spill = s.spill ∧
    (doPinMov e s).red = s.red ∧
    (doPinMov e s).mot = s.mot ∧
    (doPinMov e s).prod = s.prod ∧
    (doPinMov e s).way = s.way ∧
    (doPinMov e s).fe = s.fe ∧
    (doPinMov e s).roads = s.roads ∧
    (doPinMov e s).up = s.up ∧
    (doPinMov e s).hs = s.hs ∧
    (doPinMov e s).tw = s.tw ∧
    (doPinMov e s).attn = s.attn ∧
    (doPinMov e s).clients = s.clients ∧
    (doPinMov e s).locks = s.locks ∧
    (doPinMov e s).age = s.age ∧
    (doPinMov e s).tap = s.tap := by
  unfold doPinMov
  and_intros <;>
    ((try simp) <;> (try (repeat' split)) <;> (try simp))

@[simp] theorem doPinFlag_keeps (dt e : Nat) (s : State) :
    (doPinFlag dt e s).pending = s.pending ∧
    (doPinFlag dt e s).free = s.free ∧
    (doPinFlag dt e s).power = s.power ∧
    (doPinFlag dt e s).fuses = s.fuses ∧
    (doPinFlag dt e s).straps = s.straps ∧
    (doPinFlag dt e s).port = s.port ∧
    (doPinFlag dt e s).cw = s.cw ∧
    (doPinFlag dt e s).spill = s.spill ∧
    (doPinFlag dt e s).red = s.red ∧
    (doPinFlag dt e s).mot = s.mot ∧
    (doPinFlag dt e s).prod = s.prod ∧
    (doPinFlag dt e s).way = s.way ∧
    (doPinFlag dt e s).fe = s.fe ∧
    (doPinFlag dt e s).roads = s.roads ∧
    (doPinFlag dt e s).up = s.up ∧
    (doPinFlag dt e s).hs = s.hs ∧
    (doPinFlag dt e s).tw = s.tw ∧
    (doPinFlag dt e s).attn = s.attn ∧
    (doPinFlag dt e s).clients = s.clients ∧
    (doPinFlag dt e s).locks = s.locks ∧
    (doPinFlag dt e s).age = s.age ∧
    (doPinFlag dt e s).tap = s.tap ∧
    (doPinFlag dt e s).time.gRate = s.time.gRate ∧
    (doPinFlag dt e s).time.rates = s.time.rates ∧
    (doPinFlag dt e s).time.gIdx = s.time.gIdx := by
  unfold doPinFlag
  and_intros <;>
    ((try simp) <;> (try (repeat' split)) <;> (try simp))

@[simp] theorem doPinStamp_keeps (dt e : Nat) (s : State) :
    (doPinStamp dt e s).pending = s.pending ∧
    (doPinStamp dt e s).free = s.free ∧
    (doPinStamp dt e s).power = s.power ∧
    (doPinStamp dt e s).fuses = s.fuses ∧
    (doPinStamp dt e s).straps = s.straps ∧
    (doPinStamp dt e s).port = s.port ∧
    (doPinStamp dt e s).cw = s.cw ∧
    (doPinStamp dt e s).spill = s.spill ∧
    (doPinStamp dt e s).red = s.red ∧
    (doPinStamp dt e s).mot = s.mot ∧
    (doPinStamp dt e s).prod = s.prod ∧
    (doPinStamp dt e s).way = s.way ∧
    (doPinStamp dt e s).fe = s.fe ∧
    (doPinStamp dt e s).roads = s.roads ∧
    (doPinStamp dt e s).up = s.up ∧
    (doPinStamp dt e s).hs = s.hs ∧
    (doPinStamp dt e s).tw = s.tw ∧
    (doPinStamp dt e s).attn = s.attn ∧
    (doPinStamp dt e s).clients = s.clients ∧
    (doPinStamp dt e s).locks = s.locks ∧
    (doPinStamp dt e s).age = s.age ∧
    (doPinStamp dt e s).tap = s.tap ∧
    (doPinStamp dt e s).time.gRate = s.time.gRate ∧
    (doPinStamp dt e s).time.rates = s.time.rates ∧
    (doPinStamp dt e s).time.gIdx = s.time.gIdx := by
  unfold doPinStamp
  and_intros <;>
    ((try simp) <;> (try (repeat' split)) <;> (try simp))

@[simp] theorem doReservedOpHalt_keeps (e : Nat) (s : State) :
    (doReservedOpHalt e s).pending = s.pending ∧
    (doReservedOpHalt e s).free = s.free ∧
    (doReservedOpHalt e s).power = s.power ∧
    (doReservedOpHalt e s).time = s.time ∧
    (doReservedOpHalt e s).fuses = s.fuses ∧
    (doReservedOpHalt e s).straps = s.straps ∧
    (doReservedOpHalt e s).port = s.port ∧
    (doReservedOpHalt e s).spill = s.spill ∧
    (doReservedOpHalt e s).red = s.red ∧
    (doReservedOpHalt e s).mot = s.mot ∧
    (doReservedOpHalt e s).prod = s.prod ∧
    (doReservedOpHalt e s).fe = s.fe ∧
    (doReservedOpHalt e s).roads = s.roads ∧
    (doReservedOpHalt e s).up = s.up ∧
    (doReservedOpHalt e s).hs = s.hs ∧
    (doReservedOpHalt e s).tw = s.tw ∧
    (doReservedOpHalt e s).attn = s.attn ∧
    (doReservedOpHalt e s).clients = s.clients ∧
    (doReservedOpHalt e s).locks = s.locks ∧
    (doReservedOpHalt e s).age = s.age ∧
    (doReservedOpHalt e s).tap = s.tap := by
  unfold doReservedOpHalt
  and_intros <;>
    ((try simp) <;> (try (repeat' split)) <;> (try simp))

@[simp] theorem State.stopPin_keeps (s : State) (e cause : Nat) :
    (State.stopPin s e cause).pending = s.pending ∧
    (State.stopPin s e cause).free = s.free ∧
    (State.stopPin s e cause).power = s.power ∧
    (State.stopPin s e cause).time = s.time ∧
    (State.stopPin s e cause).fuses = s.fuses ∧
    (State.stopPin s e cause).straps = s.straps ∧
    (State.stopPin s e cause).port = s.port ∧
    (State.stopPin s e cause).spill = s.spill ∧
    (State.stopPin s e cause).red = s.red ∧
    (State.stopPin s e cause).mot = s.mot ∧
    (State.stopPin s e cause).prod = s.prod ∧
    (State.stopPin s e cause).fe = s.fe ∧
    (State.stopPin s e cause).roads = s.roads ∧
    (State.stopPin s e cause).up = s.up ∧
    (State.stopPin s e cause).hs = s.hs ∧
    (State.stopPin s e cause).tw = s.tw ∧
    (State.stopPin s e cause).attn = s.attn ∧
    (State.stopPin s e cause).clients = s.clients ∧
    (State.stopPin s e cause).locks = s.locks ∧
    (State.stopPin s e cause).age = s.age ∧
    (State.stopPin s e cause).tap = s.tap := by
  unfold State.stopPin
  and_intros <;>
    ((try simp) <;> (try (repeat' split)) <;> (try simp))

@[simp] theorem State.stopPins_keeps (s : State) (cause : Nat) :
    (State.stopPins s cause).pending = s.pending ∧
    (State.stopPins s cause).free = s.free ∧
    (State.stopPins s cause).power = s.power ∧
    (State.stopPins s cause).time = s.time ∧
    (State.stopPins s cause).fuses = s.fuses ∧
    (State.stopPins s cause).straps = s.straps ∧
    (State.stopPins s cause).port = s.port ∧
    (State.stopPins s cause).spill = s.spill ∧
    (State.stopPins s cause).red = s.red ∧
    (State.stopPins s cause).mot = s.mot ∧
    (State.stopPins s cause).prod = s.prod ∧
    (State.stopPins s cause).fe = s.fe ∧
    (State.stopPins s cause).roads = s.roads ∧
    (State.stopPins s cause).up = s.up ∧
    (State.stopPins s cause).hs = s.hs ∧
    (State.stopPins s cause).tw = s.tw ∧
    (State.stopPins s cause).attn = s.attn ∧
    (State.stopPins s cause).clients = s.clients ∧
    (State.stopPins s cause).locks = s.locks ∧
    (State.stopPins s cause).age = s.age ∧
    (State.stopPins s cause).tap = s.tap := by
  unfold State.stopPins
  and_intros <;>
    ((try simp) <;> (try (repeat' split)) <;> (try simp))

@[simp] theorem State.initialPads_keeps (s : State) :
    (State.initialPads s).pending = s.pending ∧
    (State.initialPads s).free = s.free ∧
    (State.initialPads s).power = s.power ∧
    (State.initialPads s).time = s.time ∧
    (State.initialPads s).fuses = s.fuses ∧
    (State.initialPads s).straps = s.straps ∧
    (State.initialPads s).port = s.port ∧
    (State.initialPads s).cw = s.cw ∧
    (State.initialPads s).spill = s.spill ∧
    (State.initialPads s).red = s.red ∧
    (State.initialPads s).mot = s.mot ∧
    (State.initialPads s).prod = s.prod ∧
    (State.initialPads s).way = s.way ∧
    (State.initialPads s).fe = s.fe ∧
    (State.initialPads s).roads = s.roads ∧
    (State.initialPads s).up = s.up ∧
    (State.initialPads s).hs = s.hs ∧
    (State.initialPads s).tw = s.tw ∧
    (State.initialPads s).attn = s.attn ∧
    (State.initialPads s).clients = s.clients ∧
    (State.initialPads s).locks = s.locks ∧
    (State.initialPads s).age = s.age ∧
    (State.initialPads s).tap = s.tap := by
  unfold State.initialPads
  and_intros <;>
    ((try simp) <;> (try (repeat' split)) <;> (try simp))

@[simp] theorem State.parkPins_keeps (s : State) :
    (State.parkPins s).pending = s.pending ∧
    (State.parkPins s).free = s.free ∧
    (State.parkPins s).power = s.power ∧
    (State.parkPins s).time = s.time ∧
    (State.parkPins s).fuses = s.fuses ∧
    (State.parkPins s).straps = s.straps ∧
    (State.parkPins s).port = s.port ∧
    (State.parkPins s).spill = s.spill ∧
    (State.parkPins s).red = s.red ∧
    (State.parkPins s).mot = s.mot ∧
    (State.parkPins s).prod = s.prod ∧
    (State.parkPins s).fe = s.fe ∧
    (State.parkPins s).roads = s.roads ∧
    (State.parkPins s).up = s.up ∧
    (State.parkPins s).hs = s.hs ∧
    (State.parkPins s).tw = s.tw ∧
    (State.parkPins s).attn = s.attn ∧
    (State.parkPins s).clients = s.clients ∧
    (State.parkPins s).locks = s.locks ∧
    (State.parkPins s).age = s.age ∧
    (State.parkPins s).tap = s.tap := by
  unfold State.parkPins
  and_intros <;>
    ((try simp) <;> (try (repeat' split)) <;> (try simp))

@[simp] theorem State.restartPins_keeps (s : State) :
    (State.restartPins s).pending = s.pending ∧
    (State.restartPins s).free = s.free ∧
    (State.restartPins s).power = s.power ∧
    (State.restartPins s).time = s.time ∧
    (State.restartPins s).fuses = s.fuses ∧
    (State.restartPins s).straps = s.straps ∧
    (State.restartPins s).port = s.port ∧
    (State.restartPins s).cw = s.cw ∧
    (State.restartPins s).spill = s.spill ∧
    (State.restartPins s).red = s.red ∧
    (State.restartPins s).mot = s.mot ∧
    (State.restartPins s).prod = s.prod ∧
    (State.restartPins s).way = s.way ∧
    (State.restartPins s).fe = s.fe ∧
    (State.restartPins s).roads = s.roads ∧
    (State.restartPins s).up = s.up ∧
    (State.restartPins s).hs = s.hs ∧
    (State.restartPins s).tw = s.tw ∧
    (State.restartPins s).attn = s.attn ∧
    (State.restartPins s).clients = s.clients ∧
    (State.restartPins s).locks = s.locks ∧
    (State.restartPins s).age = s.age ∧
    (State.restartPins s).tap = s.tap := by
  unfold State.restartPins
  and_intros <;>
    ((try simp) <;> (try (repeat' split)) <;> (try simp))

@[simp] theorem State.pinsAtMark_keeps (s : State) :
    (State.pinsAtMark s).pending = s.pending ∧
    (State.pinsAtMark s).free = s.free ∧
    (State.pinsAtMark s).power = s.power ∧
    (State.pinsAtMark s).time = s.time ∧
    (State.pinsAtMark s).fuses = s.fuses ∧
    (State.pinsAtMark s).straps = s.straps ∧
    (State.pinsAtMark s).port = s.port ∧
    (State.pinsAtMark s).cw = s.cw ∧
    (State.pinsAtMark s).spill = s.spill ∧
    (State.pinsAtMark s).red = s.red ∧
    (State.pinsAtMark s).mot = s.mot ∧
    (State.pinsAtMark s).prod = s.prod ∧
    (State.pinsAtMark s).way = s.way ∧
    (State.pinsAtMark s).fe = s.fe ∧
    (State.pinsAtMark s).roads = s.roads ∧
    (State.pinsAtMark s).up = s.up ∧
    (State.pinsAtMark s).hs = s.hs ∧
    (State.pinsAtMark s).tw = s.tw ∧
    (State.pinsAtMark s).attn = s.attn ∧
    (State.pinsAtMark s).clients = s.clients ∧
    (State.pinsAtMark s).locks = s.locks ∧
    (State.pinsAtMark s).age = s.age ∧
    (State.pinsAtMark s).tap = s.tap := by
  unfold State.pinsAtMark
  and_intros <;>
    ((try simp) <;> (try (repeat' split)) <;> (try simp))

@[simp] theorem State.startGroup_keeps (s : State) (g : Nat) :
    (State.startGroup s g).pending = s.pending ∧
    (State.startGroup s g).free = s.free ∧
    (State.startGroup s g).power = s.power ∧
    (State.startGroup s g).time = s.time ∧
    (State.startGroup s g).fuses = s.fuses ∧
    (State.startGroup s g).straps = s.straps ∧
    (State.startGroup s g).port = s.port ∧
    (State.startGroup s g).cw = s.cw ∧
    (State.startGroup s g).spill = s.spill ∧
    (State.startGroup s g).red = s.red ∧
    (State.startGroup s g).mot = s.mot ∧
    (State.startGroup s g).prod = s.prod ∧
    (State.startGroup s g).way = s.way ∧
    (State.startGroup s g).fe = s.fe ∧
    (State.startGroup s g).roads = s.roads ∧
    (State.startGroup s g).up = s.up ∧
    (State.startGroup s g).hs = s.hs ∧
    (State.startGroup s g).tw = s.tw ∧
    (State.startGroup s g).attn = s.attn ∧
    (State.startGroup s g).clients = s.clients ∧
    (State.startGroup s g).locks = s.locks ∧
    (State.startGroup s g).age = s.age ∧
    (State.startGroup s g).tap = s.tap := by
  unfold State.startGroup
  and_intros <;>
    ((try simp) <;> (try (repeat' split)) <;> (try simp))

theorem startPhrase_pending (s : State) (e p : Nat) : ∀ t, s.startPhrase e p = some t → t.pending = s.pending := by
  intro t h
  unfold State.startPhrase at h
  split at h
  · split at h
    · cases h
    · injection h with h; subst h; simp
  · cases h


@[simp] theorem doTxhFill_pending (e : Nat) (s : State) : (doTxhFill e s).pending = s.pending := by
  unfold doTxhFill
  (repeat' split) <;> simp

theorem startPhrase_free (s : State) (e p : Nat) : ∀ t, s.startPhrase e p = some t → t.free = s.free := by
  intro t h
  unfold State.startPhrase at h
  split at h
  · split at h
    · cases h
    · injection h with h; subst h; simp
  · cases h


@[simp] theorem doTxhFill_free (e : Nat) (s : State) : (doTxhFill e s).free = s.free := by
  unfold doTxhFill
  (repeat' split) <;> simp

theorem startPhrase_power (s : State) (e p : Nat) : ∀ t, s.startPhrase e p = some t → t.power = s.power := by
  intro t h
  unfold State.startPhrase at h
  split at h
  · split at h
    · cases h
    · injection h with h; subst h; simp
  · cases h


@[simp] theorem doTxhFill_power (e : Nat) (s : State) : (doTxhFill e s).power = s.power := by
  unfold doTxhFill
  (repeat' split) <;> simp

theorem startPhrase_time (s : State) (e p : Nat) : ∀ t, s.startPhrase e p = some t → t.time = s.time := by
  intro t h
  unfold State.startPhrase at h
  split at h
  · split at h
    · cases h
    · injection h with h; subst h; simp
  · cases h


@[simp] theorem doTxhFill_time (e : Nat) (s : State) : (doTxhFill e s).time = s.time := by
  unfold doTxhFill
  (repeat' split) <;> simp

theorem startPhrase_fuses (s : State) (e p : Nat) : ∀ t, s.startPhrase e p = some t → t.fuses = s.fuses := by
  intro t h
  unfold State.startPhrase at h
  split at h
  · split at h
    · cases h
    · injection h with h; subst h; simp
  · cases h


@[simp] theorem doTxhFill_fuses (e : Nat) (s : State) : (doTxhFill e s).fuses = s.fuses := by
  unfold doTxhFill
  (repeat' split) <;> simp

theorem startPhrase_straps (s : State) (e p : Nat) : ∀ t, s.startPhrase e p = some t → t.straps = s.straps := by
  intro t h
  unfold State.startPhrase at h
  split at h
  · split at h
    · cases h
    · injection h with h; subst h; simp
  · cases h


@[simp] theorem doTxhFill_straps (e : Nat) (s : State) : (doTxhFill e s).straps = s.straps := by
  unfold doTxhFill
  (repeat' split) <;> simp

theorem startPhrase_port (s : State) (e p : Nat) : ∀ t, s.startPhrase e p = some t → t.port = s.port := by
  intro t h
  unfold State.startPhrase at h
  split at h
  · split at h
    · cases h
    · injection h with h; subst h; simp
  · cases h


@[simp] theorem doTxhFill_port (e : Nat) (s : State) : (doTxhFill e s).port = s.port := by
  unfold doTxhFill
  (repeat' split) <;> simp

theorem startPhrase_cw (s : State) (e p : Nat) : ∀ t, s.startPhrase e p = some t → t.cw = s.cw := by
  intro t h
  unfold State.startPhrase at h
  split at h
  · split at h
    · cases h
    · injection h with h; subst h; simp
  · cases h


@[simp] theorem doTxhFill_cw (e : Nat) (s : State) : (doTxhFill e s).cw = s.cw := by
  unfold doTxhFill
  (repeat' split) <;> simp

theorem startPhrase_spill (s : State) (e p : Nat) : ∀ t, s.startPhrase e p = some t → t.spill = s.spill := by
  intro t h
  unfold State.startPhrase at h
  split at h
  · split at h
    · cases h
    · injection h with h; subst h; simp
  · cases h


@[simp] theorem doTxhFill_spill (e : Nat) (s : State) : (doTxhFill e s).spill = s.spill := by
  unfold doTxhFill
  (repeat' split) <;> simp

theorem startPhrase_red (s : State) (e p : Nat) : ∀ t, s.startPhrase e p = some t → t.red = s.red := by
  intro t h
  unfold State.startPhrase at h
  split at h
  · split at h
    · cases h
    · injection h with h; subst h; simp
  · cases h


@[simp] theorem doTxhFill_red (e : Nat) (s : State) : (doTxhFill e s).red = s.red := by
  unfold doTxhFill
  (repeat' split) <;> simp

theorem startPhrase_mot (s : State) (e p : Nat) : ∀ t, s.startPhrase e p = some t → t.mot = s.mot := by
  intro t h
  unfold State.startPhrase at h
  split at h
  · split at h
    · cases h
    · injection h with h; subst h; simp
  · cases h


@[simp] theorem doTxhFill_mot (e : Nat) (s : State) : (doTxhFill e s).mot = s.mot := by
  unfold doTxhFill
  (repeat' split) <;> simp

theorem startPhrase_prod (s : State) (e p : Nat) : ∀ t, s.startPhrase e p = some t → t.prod = s.prod := by
  intro t h
  unfold State.startPhrase at h
  split at h
  · split at h
    · cases h
    · injection h with h; subst h; simp
  · cases h


@[simp] theorem doTxhFill_prod (e : Nat) (s : State) : (doTxhFill e s).prod = s.prod := by
  unfold doTxhFill
  (repeat' split) <;> simp

theorem startPhrase_way (s : State) (e p : Nat) : ∀ t, s.startPhrase e p = some t → t.way = s.way := by
  intro t h
  unfold State.startPhrase at h
  split at h
  · split at h
    · cases h
    · injection h with h; subst h; simp
  · cases h


@[simp] theorem doTxhFill_way (e : Nat) (s : State) : (doTxhFill e s).way = s.way := by
  unfold doTxhFill
  (repeat' split) <;> simp

theorem startPhrase_fe (s : State) (e p : Nat) : ∀ t, s.startPhrase e p = some t → t.fe = s.fe := by
  intro t h
  unfold State.startPhrase at h
  split at h
  · split at h
    · cases h
    · injection h with h; subst h; simp
  · cases h


@[simp] theorem doTxhFill_fe (e : Nat) (s : State) : (doTxhFill e s).fe = s.fe := by
  unfold doTxhFill
  (repeat' split) <;> simp

theorem startPhrase_roads (s : State) (e p : Nat) : ∀ t, s.startPhrase e p = some t → t.roads = s.roads := by
  intro t h
  unfold State.startPhrase at h
  split at h
  · split at h
    · cases h
    · injection h with h; subst h; simp
  · cases h


@[simp] theorem doTxhFill_roads (e : Nat) (s : State) : (doTxhFill e s).roads = s.roads := by
  unfold doTxhFill
  (repeat' split) <;> simp

theorem startPhrase_up (s : State) (e p : Nat) : ∀ t, s.startPhrase e p = some t → t.up = s.up := by
  intro t h
  unfold State.startPhrase at h
  split at h
  · split at h
    · cases h
    · injection h with h; subst h; simp
  · cases h


@[simp] theorem doTxhFill_up (e : Nat) (s : State) : (doTxhFill e s).up = s.up := by
  unfold doTxhFill
  (repeat' split) <;> simp

theorem startPhrase_hs (s : State) (e p : Nat) : ∀ t, s.startPhrase e p = some t → t.hs = s.hs := by
  intro t h
  unfold State.startPhrase at h
  split at h
  · split at h
    · cases h
    · injection h with h; subst h; simp
  · cases h


@[simp] theorem doTxhFill_hs (e : Nat) (s : State) : (doTxhFill e s).hs = s.hs := by
  unfold doTxhFill
  (repeat' split) <;> simp

theorem startPhrase_tw (s : State) (e p : Nat) : ∀ t, s.startPhrase e p = some t → t.tw = s.tw := by
  intro t h
  unfold State.startPhrase at h
  split at h
  · split at h
    · cases h
    · injection h with h; subst h; simp
  · cases h


@[simp] theorem doTxhFill_tw (e : Nat) (s : State) : (doTxhFill e s).tw = s.tw := by
  unfold doTxhFill
  (repeat' split) <;> simp

theorem startPhrase_attn (s : State) (e p : Nat) : ∀ t, s.startPhrase e p = some t → t.attn = s.attn := by
  intro t h
  unfold State.startPhrase at h
  split at h
  · split at h
    · cases h
    · injection h with h; subst h; simp
  · cases h


@[simp] theorem doTxhFill_attn (e : Nat) (s : State) : (doTxhFill e s).attn = s.attn := by
  unfold doTxhFill
  (repeat' split) <;> simp

theorem startPhrase_clients (s : State) (e p : Nat) : ∀ t, s.startPhrase e p = some t → t.clients = s.clients := by
  intro t h
  unfold State.startPhrase at h
  split at h
  · split at h
    · cases h
    · injection h with h; subst h; simp
  · cases h


@[simp] theorem doTxhFill_clients (e : Nat) (s : State) : (doTxhFill e s).clients = s.clients := by
  unfold doTxhFill
  (repeat' split) <;> simp

theorem startPhrase_locks (s : State) (e p : Nat) : ∀ t, s.startPhrase e p = some t → t.locks = s.locks := by
  intro t h
  unfold State.startPhrase at h
  split at h
  · split at h
    · cases h
    · injection h with h; subst h; simp
  · cases h


@[simp] theorem doTxhFill_locks (e : Nat) (s : State) : (doTxhFill e s).locks = s.locks := by
  unfold doTxhFill
  (repeat' split) <;> simp

theorem startPhrase_age (s : State) (e p : Nat) : ∀ t, s.startPhrase e p = some t → t.age = s.age := by
  intro t h
  unfold State.startPhrase at h
  split at h
  · split at h
    · cases h
    · injection h with h; subst h; simp
  · cases h


@[simp] theorem doTxhFill_age (e : Nat) (s : State) : (doTxhFill e s).age = s.age := by
  unfold doTxhFill
  (repeat' split) <;> simp

theorem startPhrase_tap (s : State) (e p : Nat) : ∀ t, s.startPhrase e p = some t → t.tap = s.tap := by
  intro t h
  unfold State.startPhrase at h
  split at h
  · split at h
    · cases h
    · injection h with h; subst h; simp
  · cases h


@[simp] theorem doTxhFill_tap (e : Nat) (s : State) : (doTxhFill e s).tap = s.tap := by
  unfold doTxhFill
  (repeat' split) <;> simp

@[simp] theorem doRxhDrain_keeps (e : Nat) (s : State) :
    (doRxhDrain e s).pending = s.pending ∧
    (doRxhDrain e s).free = s.free ∧
    (doRxhDrain e s).power = s.power ∧
    (doRxhDrain e s).time = s.time ∧
    (doRxhDrain e s).fuses = s.fuses ∧
    (doRxhDrain e s).straps = s.straps ∧
    (doRxhDrain e s).port = s.port ∧
    (doRxhDrain e s).spill = s.spill ∧
    (doRxhDrain e s).red = s.red ∧
    (doRxhDrain e s).mot = s.mot ∧
    (doRxhDrain e s).prod = s.prod ∧
    (doRxhDrain e s).fe = s.fe ∧
    (doRxhDrain e s).roads = s.roads ∧
    (doRxhDrain e s).up = s.up ∧
    (doRxhDrain e s).hs = s.hs ∧
    (doRxhDrain e s).tw = s.tw ∧
    (doRxhDrain e s).attn = s.attn ∧
    (doRxhDrain e s).clients = s.clients ∧
    (doRxhDrain e s).locks = s.locks ∧
    (doRxhDrain e s).age = s.age ∧
    (doRxhDrain e s).tap = s.tap := by
  unfold doRxhDrain
  and_intros <;>
    ((try simp) <;> (try (repeat' split)) <;> (try simp))

@[simp] theorem doRxIdleClose_keeps (e : Nat) (s : State) :
    (doRxIdleClose e s).pending = s.pending ∧
    (doRxIdleClose e s).free = s.free ∧
    (doRxIdleClose e s).power = s.power ∧
    (doRxIdleClose e s).time = s.time ∧
    (doRxIdleClose e s).fuses = s.fuses ∧
    (doRxIdleClose e s).straps = s.straps ∧
    (doRxIdleClose e s).port = s.port ∧
    (doRxIdleClose e s).spill = s.spill ∧
    (doRxIdleClose e s).red = s.red ∧
    (doRxIdleClose e s).mot = s.mot ∧
    (doRxIdleClose e s).prod = s.prod ∧
    (doRxIdleClose e s).fe = s.fe ∧
    (doRxIdleClose e s).roads = s.roads ∧
    (doRxIdleClose e s).up = s.up ∧
    (doRxIdleClose e s).hs = s.hs ∧
    (doRxIdleClose e s).tw = s.tw ∧
    (doRxIdleClose e s).attn = s.attn ∧
    (doRxIdleClose e s).clients = s.clients ∧
    (doRxIdleClose e s).locks = s.locks ∧
    (doRxIdleClose e s).age = s.age ∧
    (doRxIdleClose e s).tap = s.tap := by
  unfold doRxIdleClose
  and_intros <;>
    ((try simp) <;> (try (repeat' split)) <;> (try simp))

@[simp] theorem State.outside_keeps (s : State) (pad : Nat) (high : Bool) :
    (State.outside s pad high).pending = s.pending ∧
    (State.outside s pad high).free = s.free ∧
    (State.outside s pad high).power = s.power ∧
    (State.outside s pad high).time = s.time ∧
    (State.outside s pad high).fuses = s.fuses ∧
    (State.outside s pad high).straps = s.straps ∧
    (State.outside s pad high).port = s.port ∧
    (State.outside s pad high).cw = s.cw ∧
    (State.outside s pad high).spill = s.spill ∧
    (State.outside s pad high).red = s.red ∧
    (State.outside s pad high).mot = s.mot ∧
    (State.outside s pad high).prod = s.prod ∧
    (State.outside s pad high).way = s.way ∧
    (State.outside s pad high).fe = s.fe ∧
    (State.outside s pad high).roads = s.roads ∧
    (State.outside s pad high).up = s.up ∧
    (State.outside s pad high).hs = s.hs ∧
    (State.outside s pad high).tw = s.tw ∧
    (State.outside s pad high).attn = s.attn ∧
    (State.outside s pad high).clients = s.clients ∧
    (State.outside s pad high).locks = s.locks ∧
    (State.outside s pad high).age = s.age ∧
    (State.outside s pad high).tap = s.tap := by
  unfold State.outside
  and_intros <;>
    ((try simp) <;> (try (repeat' split)) <;> (try simp))

@[simp] theorem doPadLevelChange_pending (pad : Nat) (high : Bool) (s : State) :
    (doPadLevelChange pad high s).pending = s.pending := by
  unfold doPadLevelChange
  extract_lets s1
  have h1 : s1.pending = s.pending := by simp [s1]
  split
  · refine (foldl_keep (fun s : State => s.pending) _ ?_ _ _).trans h1
    intro b a; split <;> simp
  · exact h1

@[simp] theorem doPadLevelChange_free (pad : Nat) (high : Bool) (s : State) :
    (doPadLevelChange pad high s).free = s.free := by
  unfold doPadLevelChange
  extract_lets s1
  have h1 : s1.free = s.free := by simp [s1]
  split
  · refine (foldl_keep (fun s : State => s.free) _ ?_ _ _).trans h1
    intro b a; split <;> simp
  · exact h1

@[simp] theorem doPadLevelChange_power (pad : Nat) (high : Bool) (s : State) :
    (doPadLevelChange pad high s).power = s.power := by
  unfold doPadLevelChange
  extract_lets s1
  have h1 : s1.power = s.power := by simp [s1]
  split
  · refine (foldl_keep (fun s : State => s.power) _ ?_ _ _).trans h1
    intro b a; split <;> simp
  · exact h1

@[simp] theorem doPadLevelChange_time (pad : Nat) (high : Bool) (s : State) :
    (doPadLevelChange pad high s).time = s.time := by
  unfold doPadLevelChange
  extract_lets s1
  have h1 : s1.time = s.time := by simp [s1]
  split
  · refine (foldl_keep (fun s : State => s.time) _ ?_ _ _).trans h1
    intro b a; split <;> simp
  · exact h1

@[simp] theorem doPadLevelChange_fuses (pad : Nat) (high : Bool) (s : State) :
    (doPadLevelChange pad high s).fuses = s.fuses := by
  unfold doPadLevelChange
  extract_lets s1
  have h1 : s1.fuses = s.fuses := by simp [s1]
  split
  · refine (foldl_keep (fun s : State => s.fuses) _ ?_ _ _).trans h1
    intro b a; split <;> simp
  · exact h1

@[simp] theorem doPadLevelChange_straps (pad : Nat) (high : Bool) (s : State) :
    (doPadLevelChange pad high s).straps = s.straps := by
  unfold doPadLevelChange
  extract_lets s1
  have h1 : s1.straps = s.straps := by simp [s1]
  split
  · refine (foldl_keep (fun s : State => s.straps) _ ?_ _ _).trans h1
    intro b a; split <;> simp
  · exact h1

@[simp] theorem doPadLevelChange_port (pad : Nat) (high : Bool) (s : State) :
    (doPadLevelChange pad high s).port = s.port := by
  unfold doPadLevelChange
  extract_lets s1
  have h1 : s1.port = s.port := by simp [s1]
  split
  · refine (foldl_keep (fun s : State => s.port) _ ?_ _ _).trans h1
    intro b a; split <;> simp
  · exact h1

@[simp] theorem doPadLevelChange_cw (pad : Nat) (high : Bool) (s : State) :
    (doPadLevelChange pad high s).cw = s.cw := by
  unfold doPadLevelChange
  extract_lets s1
  have h1 : s1.cw = s.cw := by simp [s1]
  split
  · refine (foldl_keep (fun s : State => s.cw) _ ?_ _ _).trans h1
    intro b a; split <;> simp
  · exact h1

@[simp] theorem doPadLevelChange_spill (pad : Nat) (high : Bool) (s : State) :
    (doPadLevelChange pad high s).spill = s.spill := by
  unfold doPadLevelChange
  extract_lets s1
  have h1 : s1.spill = s.spill := by simp [s1]
  split
  · refine (foldl_keep (fun s : State => s.spill) _ ?_ _ _).trans h1
    intro b a; split <;> simp
  · exact h1

@[simp] theorem doPadLevelChange_red (pad : Nat) (high : Bool) (s : State) :
    (doPadLevelChange pad high s).red = s.red := by
  unfold doPadLevelChange
  extract_lets s1
  have h1 : s1.red = s.red := by simp [s1]
  split
  · refine (foldl_keep (fun s : State => s.red) _ ?_ _ _).trans h1
    intro b a; split <;> simp
  · exact h1

@[simp] theorem doPadLevelChange_mot (pad : Nat) (high : Bool) (s : State) :
    (doPadLevelChange pad high s).mot = s.mot := by
  unfold doPadLevelChange
  extract_lets s1
  have h1 : s1.mot = s.mot := by simp [s1]
  split
  · refine (foldl_keep (fun s : State => s.mot) _ ?_ _ _).trans h1
    intro b a; split <;> simp
  · exact h1

@[simp] theorem doPadLevelChange_prod (pad : Nat) (high : Bool) (s : State) :
    (doPadLevelChange pad high s).prod = s.prod := by
  unfold doPadLevelChange
  extract_lets s1
  have h1 : s1.prod = s.prod := by simp [s1]
  split
  · refine (foldl_keep (fun s : State => s.prod) _ ?_ _ _).trans h1
    intro b a; split <;> simp
  · exact h1

@[simp] theorem doPadLevelChange_way (pad : Nat) (high : Bool) (s : State) :
    (doPadLevelChange pad high s).way = s.way := by
  unfold doPadLevelChange
  extract_lets s1
  have h1 : s1.way = s.way := by simp [s1]
  split
  · refine (foldl_keep (fun s : State => s.way) _ ?_ _ _).trans h1
    intro b a; split <;> simp
  · exact h1

@[simp] theorem doPadLevelChange_fe (pad : Nat) (high : Bool) (s : State) :
    (doPadLevelChange pad high s).fe = s.fe := by
  unfold doPadLevelChange
  extract_lets s1
  have h1 : s1.fe = s.fe := by simp [s1]
  split
  · refine (foldl_keep (fun s : State => s.fe) _ ?_ _ _).trans h1
    intro b a; split <;> simp
  · exact h1

@[simp] theorem doPadLevelChange_roads (pad : Nat) (high : Bool) (s : State) :
    (doPadLevelChange pad high s).roads = s.roads := by
  unfold doPadLevelChange
  extract_lets s1
  have h1 : s1.roads = s.roads := by simp [s1]
  split
  · refine (foldl_keep (fun s : State => s.roads) _ ?_ _ _).trans h1
    intro b a; split <;> simp
  · exact h1

@[simp] theorem doPadLevelChange_up (pad : Nat) (high : Bool) (s : State) :
    (doPadLevelChange pad high s).up = s.up := by
  unfold doPadLevelChange
  extract_lets s1
  have h1 : s1.up = s.up := by simp [s1]
  split
  · refine (foldl_keep (fun s : State => s.up) _ ?_ _ _).trans h1
    intro b a; split <;> simp
  · exact h1

@[simp] theorem doPadLevelChange_hs (pad : Nat) (high : Bool) (s : State) :
    (doPadLevelChange pad high s).hs = s.hs := by
  unfold doPadLevelChange
  extract_lets s1
  have h1 : s1.hs = s.hs := by simp [s1]
  split
  · refine (foldl_keep (fun s : State => s.hs) _ ?_ _ _).trans h1
    intro b a; split <;> simp
  · exact h1

@[simp] theorem doPadLevelChange_tw (pad : Nat) (high : Bool) (s : State) :
    (doPadLevelChange pad high s).tw = s.tw := by
  unfold doPadLevelChange
  extract_lets s1
  have h1 : s1.tw = s.tw := by simp [s1]
  split
  · refine (foldl_keep (fun s : State => s.tw) _ ?_ _ _).trans h1
    intro b a; split <;> simp
  · exact h1

@[simp] theorem doPadLevelChange_attn (pad : Nat) (high : Bool) (s : State) :
    (doPadLevelChange pad high s).attn = s.attn := by
  unfold doPadLevelChange
  extract_lets s1
  have h1 : s1.attn = s.attn := by simp [s1]
  split
  · refine (foldl_keep (fun s : State => s.attn) _ ?_ _ _).trans h1
    intro b a; split <;> simp
  · exact h1

@[simp] theorem doPadLevelChange_clients (pad : Nat) (high : Bool) (s : State) :
    (doPadLevelChange pad high s).clients = s.clients := by
  unfold doPadLevelChange
  extract_lets s1
  have h1 : s1.clients = s.clients := by simp [s1]
  split
  · refine (foldl_keep (fun s : State => s.clients) _ ?_ _ _).trans h1
    intro b a; split <;> simp
  · exact h1

@[simp] theorem doPadLevelChange_locks (pad : Nat) (high : Bool) (s : State) :
    (doPadLevelChange pad high s).locks = s.locks := by
  unfold doPadLevelChange
  extract_lets s1
  have h1 : s1.locks = s.locks := by simp [s1]
  split
  · refine (foldl_keep (fun s : State => s.locks) _ ?_ _ _).trans h1
    intro b a; split <;> simp
  · exact h1

@[simp] theorem doPadLevelChange_age (pad : Nat) (high : Bool) (s : State) :
    (doPadLevelChange pad high s).age = s.age := by
  unfold doPadLevelChange
  extract_lets s1
  have h1 : s1.age = s.age := by simp [s1]
  split
  · refine (foldl_keep (fun s : State => s.age) _ ?_ _ _).trans h1
    intro b a; split <;> simp
  · exact h1

@[simp] theorem doPadLevelChange_tap (pad : Nat) (high : Bool) (s : State) :
    (doPadLevelChange pad high s).tap = s.tap := by
  unfold doPadLevelChange
  extract_lets s1
  have h1 : s1.tap = s.tap := by simp [s1]
  split
  · refine (foldl_keep (fun s : State => s.tap) _ ?_ _ _).trans h1
    intro b a; split <;> simp
  · exact h1

@[simp] theorem State.wmReport_keeps (s : State) (c : ActCtx) (reason : Nat) (d0 d1 : Word) :
    (State.wmReport s c reason d0 d1).pending = s.pending ∧
    (State.wmReport s c reason d0 d1).free = s.free ∧
    (State.wmReport s c reason d0 d1).power = s.power ∧
    (State.wmReport s c reason d0 d1).time = s.time ∧
    (State.wmReport s c reason d0 d1).fuses = s.fuses ∧
    (State.wmReport s c reason d0 d1).straps = s.straps ∧
    (State.wmReport s c reason d0 d1).port = s.port ∧
    (State.wmReport s c reason d0 d1).spill = s.spill ∧
    (State.wmReport s c reason d0 d1).red = s.red ∧
    (State.wmReport s c reason d0 d1).mot = s.mot ∧
    (State.wmReport s c reason d0 d1).prod = s.prod ∧
    (State.wmReport s c reason d0 d1).fe = s.fe ∧
    (State.wmReport s c reason d0 d1).roads = s.roads ∧
    (State.wmReport s c reason d0 d1).up = s.up ∧
    (State.wmReport s c reason d0 d1).hs = s.hs ∧
    (State.wmReport s c reason d0 d1).tw = s.tw ∧
    (State.wmReport s c reason d0 d1).attn = s.attn ∧
    (State.wmReport s c reason d0 d1).clients = s.clients ∧
    (State.wmReport s c reason d0 d1).locks = s.locks ∧
    (State.wmReport s c reason d0 d1).pin = s.pin ∧
    (State.wmReport s c reason d0 d1).age = s.age ∧
    (State.wmReport s c reason d0 d1).tap = s.tap := by
  unfold State.wmReport
  and_intros <;>
    ((try simp) <;> (try (repeat' split)) <;> (try simp))

@[simp] theorem State.onEng_keeps (s : State) (e : Nat) (f : WmSt → WmSt) :
    (State.onEng s e f).pending = s.pending ∧
    (State.onEng s e f).free = s.free ∧
    (State.onEng s e f).power = s.power ∧
    (State.onEng s e f).time = s.time ∧
    (State.onEng s e f).fuses = s.fuses ∧
    (State.onEng s e f).straps = s.straps ∧
    (State.onEng s e f).port = s.port ∧
    (State.onEng s e f).cw = s.cw ∧
    (State.onEng s e f).spill = s.spill ∧
    (State.onEng s e f).red = s.red ∧
    (State.onEng s e f).mot = s.mot ∧
    (State.onEng s e f).prod = s.prod ∧
    (State.onEng s e f).fe = s.fe ∧
    (State.onEng s e f).roads = s.roads ∧
    (State.onEng s e f).up = s.up ∧
    (State.onEng s e f).hs = s.hs ∧
    (State.onEng s e f).tw = s.tw ∧
    (State.onEng s e f).attn = s.attn ∧
    (State.onEng s e f).clients = s.clients ∧
    (State.onEng s e f).locks = s.locks ∧
    (State.onEng s e f).pin = s.pin ∧
    (State.onEng s e f).age = s.age ∧
    (State.onEng s e f).tap = s.tap := by
  unfold State.onEng
  and_intros <;>
    ((try simp) <;> (try (repeat' split)) <;> (try simp))

@[simp] theorem State.actEmit_keeps (s : State) (c : ActCtx) (code : Nat) (data : Word) :
    (State.actEmit s c code data).pending = s.pending ∧
    (State.actEmit s c code data).free = s.free ∧
    (State.actEmit s c code data).power = s.power ∧
    (State.actEmit s c code data).time = s.time ∧
    (State.actEmit s c code data).fuses = s.fuses ∧
    (State.actEmit s c code data).straps = s.straps ∧
    (State.actEmit s c code data).port = s.port ∧
    (State.actEmit s c code data).spill = s.spill ∧
    (State.actEmit s c code data).red = s.red ∧
    (State.actEmit s c code data).mot = s.mot ∧
    (State.actEmit s c code data).prod = s.prod ∧
    (State.actEmit s c code data).fe = s.fe ∧
    (State.actEmit s c code data).roads = s.roads ∧
    (State.actEmit s c code data).up = s.up ∧
    (State.actEmit s c code data).hs = s.hs ∧
    (State.actEmit s c code data).tw = s.tw ∧
    (State.actEmit s c code data).attn = s.attn ∧
    (State.actEmit s c code data).clients = s.clients ∧
    (State.actEmit s c code data).locks = s.locks ∧
    (State.actEmit s c code data).pin = s.pin ∧
    (State.actEmit s c code data).age = s.age ∧
    (State.actEmit s c code data).tap = s.tap := by
  unfold State.actEmit
  and_intros <;>
    ((try simp) <;> (try (repeat' split)) <;> (try simp))

@[simp] theorem State.actHold_keeps (s : State) (c : ActCtx) (view before after : Nat) :
    (State.actHold s c view before after).pending = s.pending ∧
    (State.actHold s c view before after).power = s.power ∧
    (State.actHold s c view before after).time = s.time ∧
    (State.actHold s c view before after).fuses = s.fuses ∧
    (State.actHold s c view before after).straps = s.straps ∧
    (State.actHold s c view before after).port = s.port ∧
    (State.actHold s c view before after).spill = s.spill ∧
    (State.actHold s c view before after).red = s.red ∧
    (State.actHold s c view before after).mot = s.mot ∧
    (State.actHold s c view before after).prod = s.prod ∧
    (State.actHold s c view before after).fe = s.fe ∧
    (State.actHold s c view before after).roads = s.roads ∧
    (State.actHold s c view before after).up = s.up ∧
    (State.actHold s c view before after).hs = s.hs ∧
    (State.actHold s c view before after).tw = s.tw ∧
    (State.actHold s c view before after).attn = s.attn ∧
    (State.actHold s c view before after).clients = s.clients ∧
    (State.actHold s c view before after).locks = s.locks ∧
    (State.actHold s c view before after).pin = s.pin ∧
    (State.actHold s c view before after).age = s.age ∧
    (State.actHold s c view before after).tap = s.tap := by
  unfold State.actHold
  and_intros <;>
    ((try simp) <;> (try (repeat' split)) <;> (try simp))

@[simp] theorem State.actLaunch_keeps (s : State) (entry d : Nat) :
    (State.actLaunch s entry d).pending = s.pending ∧
    (State.actLaunch s entry d).free = s.free ∧
    (State.actLaunch s entry d).power = s.power ∧
    (State.actLaunch s entry d).fuses = s.fuses ∧
    (State.actLaunch s entry d).straps = s.straps ∧
    (State.actLaunch s entry d).port = s.port ∧
    (State.actLaunch s entry d).cw = s.cw ∧
    (State.actLaunch s entry d).spill = s.spill ∧
    (State.actLaunch s entry d).red = s.red ∧
    (State.actLaunch s entry d).mot = s.mot ∧
    (State.actLaunch s entry d).prod = s.prod ∧
    (State.actLaunch s entry d).way = s.way ∧
    (State.actLaunch s entry d).fe = s.fe ∧
    (State.actLaunch s entry d).roads = s.roads ∧
    (State.actLaunch s entry d).up = s.up ∧
    (State.actLaunch s entry d).hs = s.hs ∧
    (State.actLaunch s entry d).tw = s.tw ∧
    (State.actLaunch s entry d).attn = s.attn ∧
    (State.actLaunch s entry d).clients = s.clients ∧
    (State.actLaunch s entry d).locks = s.locks ∧
    (State.actLaunch s entry d).pin = s.pin ∧
    (State.actLaunch s entry d).age = s.age ∧
    (State.actLaunch s entry d).tap = s.tap ∧
    (State.actLaunch s entry d).time.gRate = s.time.gRate ∧
    (State.actLaunch s entry d).time.rates = s.time.rates ∧
    (State.actLaunch s entry d).time.gIdx = s.time.gIdx := by
  unfold State.actLaunch
  and_intros <;>
    ((try simp) <;> (try (repeat' split)) <;> (try simp))

@[simp] theorem State.actCall_keeps (s : State) (c : ActCtx) (code : Nat) :
    (State.actCall s c code).pending = s.pending ∧
    (State.actCall s c code).free = s.free ∧
    (State.actCall s c code).power = s.power ∧
    (State.actCall s c code).time = s.time ∧
    (State.actCall s c code).fuses = s.fuses ∧
    (State.actCall s c code).straps = s.straps ∧
    (State.actCall s c code).port = s.port ∧
    (State.actCall s c code).spill = s.spill ∧
    (State.actCall s c code).red = s.red ∧
    (State.actCall s c code).mot = s.mot ∧
    (State.actCall s c code).prod = s.prod ∧
    (State.actCall s c code).fe = s.fe ∧
    (State.actCall s c code).roads = s.roads ∧
    (State.actCall s c code).up = s.up ∧
    (State.actCall s c code).hs = s.hs ∧
    (State.actCall s c code).tw = s.tw ∧
    (State.actCall s c code).clients = s.clients ∧
    (State.actCall s c code).locks = s.locks ∧
    (State.actCall s c code).pin = s.pin ∧
    (State.actCall s c code).age = s.age ∧
    (State.actCall s c code).tap = s.tap := by
  unfold State.actCall
  and_intros <;>
    ((try simp) <;> (try (repeat' split)) <;> (try simp))

@[simp] theorem State.actFlag_keeps (s : State) (action n : Nat) :
    (State.actFlag s action n).pending = s.pending ∧
    (State.actFlag s action n).free = s.free ∧
    (State.actFlag s action n).power = s.power ∧
    (State.actFlag s action n).time = s.time ∧
    (State.actFlag s action n).fuses = s.fuses ∧
    (State.actFlag s action n).straps = s.straps ∧
    (State.actFlag s action n).port = s.port ∧
    (State.actFlag s action n).cw = s.cw ∧
    (State.actFlag s action n).spill = s.spill ∧
    (State.actFlag s action n).red = s.red ∧
    (State.actFlag s action n).mot = s.mot ∧
    (State.actFlag s action n).prod = s.prod ∧
    (State.actFlag s action n).fe = s.fe ∧
    (State.actFlag s action n).roads = s.roads ∧
    (State.actFlag s action n).up = s.up ∧
    (State.actFlag s action n).hs = s.hs ∧
    (State.actFlag s action n).tw = s.tw ∧
    (State.actFlag s action n).attn = s.attn ∧
    (State.actFlag s action n).clients = s.clients ∧
    (State.actFlag s action n).locks = s.locks ∧
    (State.actFlag s action n).pin = s.pin ∧
    (State.actFlag s action n).age = s.age ∧
    (State.actFlag s action n).tap = s.tap := by
  unfold State.actFlag
  and_intros <;>
    ((try simp) <;> (try (repeat' split)) <;> (try simp))

@[simp] theorem State_actPhrase_pending (s : State) (c : ActCtx) (engine phrase : Nat) :
    (State.actPhrase s c engine phrase).pending = s.pending := by
  unfold State.actPhrase
  split
  · rename_i t h; exact startPhrase_pending s engine phrase t h
  · simp

@[simp] theorem State_actPhrase_free (s : State) (c : ActCtx) (engine phrase : Nat) :
    (State.actPhrase s c engine phrase).free = s.free := by
  unfold State.actPhrase
  split
  · rename_i t h; exact startPhrase_free s engine phrase t h
  · simp

@[simp] theorem State_actPhrase_power (s : State) (c : ActCtx) (engine phrase : Nat) :
    (State.actPhrase s c engine phrase).power = s.power := by
  unfold State.actPhrase
  split
  · rename_i t h; exact startPhrase_power s engine phrase t h
  · simp

@[simp] theorem State_actPhrase_time (s : State) (c : ActCtx) (engine phrase : Nat) :
    (State.actPhrase s c engine phrase).time = s.time := by
  unfold State.actPhrase
  split
  · rename_i t h; exact startPhrase_time s engine phrase t h
  · simp

@[simp] theorem State_actPhrase_fuses (s : State) (c : ActCtx) (engine phrase : Nat) :
    (State.actPhrase s c engine phrase).fuses = s.fuses := by
  unfold State.actPhrase
  split
  · rename_i t h; exact startPhrase_fuses s engine phrase t h
  · simp

@[simp] theorem State_actPhrase_straps (s : State) (c : ActCtx) (engine phrase : Nat) :
    (State.actPhrase s c engine phrase).straps = s.straps := by
  unfold State.actPhrase
  split
  · rename_i t h; exact startPhrase_straps s engine phrase t h
  · simp

@[simp] theorem State_actPhrase_port (s : State) (c : ActCtx) (engine phrase : Nat) :
    (State.actPhrase s c engine phrase).port = s.port := by
  unfold State.actPhrase
  split
  · rename_i t h; exact startPhrase_port s engine phrase t h
  · simp

@[simp] theorem State_actPhrase_spill (s : State) (c : ActCtx) (engine phrase : Nat) :
    (State.actPhrase s c engine phrase).spill = s.spill := by
  unfold State.actPhrase
  split
  · rename_i t h; exact startPhrase_spill s engine phrase t h
  · simp

@[simp] theorem State_actPhrase_red (s : State) (c : ActCtx) (engine phrase : Nat) :
    (State.actPhrase s c engine phrase).red = s.red := by
  unfold State.actPhrase
  split
  · rename_i t h; exact startPhrase_red s engine phrase t h
  · simp

@[simp] theorem State_actPhrase_mot (s : State) (c : ActCtx) (engine phrase : Nat) :
    (State.actPhrase s c engine phrase).mot = s.mot := by
  unfold State.actPhrase
  split
  · rename_i t h; exact startPhrase_mot s engine phrase t h
  · simp

@[simp] theorem State_actPhrase_prod (s : State) (c : ActCtx) (engine phrase : Nat) :
    (State.actPhrase s c engine phrase).prod = s.prod := by
  unfold State.actPhrase
  split
  · rename_i t h; exact startPhrase_prod s engine phrase t h
  · simp

@[simp] theorem State_actPhrase_fe (s : State) (c : ActCtx) (engine phrase : Nat) :
    (State.actPhrase s c engine phrase).fe = s.fe := by
  unfold State.actPhrase
  split
  · rename_i t h; exact startPhrase_fe s engine phrase t h
  · simp

@[simp] theorem State_actPhrase_roads (s : State) (c : ActCtx) (engine phrase : Nat) :
    (State.actPhrase s c engine phrase).roads = s.roads := by
  unfold State.actPhrase
  split
  · rename_i t h; exact startPhrase_roads s engine phrase t h
  · simp

@[simp] theorem State_actPhrase_up (s : State) (c : ActCtx) (engine phrase : Nat) :
    (State.actPhrase s c engine phrase).up = s.up := by
  unfold State.actPhrase
  split
  · rename_i t h; exact startPhrase_up s engine phrase t h
  · simp

@[simp] theorem State_actPhrase_hs (s : State) (c : ActCtx) (engine phrase : Nat) :
    (State.actPhrase s c engine phrase).hs = s.hs := by
  unfold State.actPhrase
  split
  · rename_i t h; exact startPhrase_hs s engine phrase t h
  · simp

@[simp] theorem State_actPhrase_tw (s : State) (c : ActCtx) (engine phrase : Nat) :
    (State.actPhrase s c engine phrase).tw = s.tw := by
  unfold State.actPhrase
  split
  · rename_i t h; exact startPhrase_tw s engine phrase t h
  · simp

@[simp] theorem State_actPhrase_attn (s : State) (c : ActCtx) (engine phrase : Nat) :
    (State.actPhrase s c engine phrase).attn = s.attn := by
  unfold State.actPhrase
  split
  · rename_i t h; exact startPhrase_attn s engine phrase t h
  · simp

@[simp] theorem State_actPhrase_clients (s : State) (c : ActCtx) (engine phrase : Nat) :
    (State.actPhrase s c engine phrase).clients = s.clients := by
  unfold State.actPhrase
  split
  · rename_i t h; exact startPhrase_clients s engine phrase t h
  · simp

@[simp] theorem State_actPhrase_locks (s : State) (c : ActCtx) (engine phrase : Nat) :
    (State.actPhrase s c engine phrase).locks = s.locks := by
  unfold State.actPhrase
  split
  · rename_i t h; exact startPhrase_locks s engine phrase t h
  · simp

@[simp] theorem State_actPhrase_age (s : State) (c : ActCtx) (engine phrase : Nat) :
    (State.actPhrase s c engine phrase).age = s.age := by
  unfold State.actPhrase
  split
  · rename_i t h; exact startPhrase_age s engine phrase t h
  · simp

@[simp] theorem State_actPhrase_tap (s : State) (c : ActCtx) (engine phrase : Nat) :
    (State.actPhrase s c engine phrase).tap = s.tap := by
  unfold State.actPhrase
  split
  · rename_i t h; exact startPhrase_tap s engine phrase t h
  · simp

@[simp] theorem State.act_keeps (s : State) (c : ActCtx) (a : Word × Word) :
    (State.act s c a).pending = s.pending ∧
    (State.act s c a).power = s.power ∧
    (State.act s c a).fuses = s.fuses ∧
    (State.act s c a).straps = s.straps ∧
    (State.act s c a).port = s.port ∧
    (State.act s c a).spill = s.spill ∧
    (State.act s c a).red = s.red ∧
    (State.act s c a).mot = s.mot ∧
    (State.act s c a).prod = s.prod ∧
    (State.act s c a).roads = s.roads ∧
    (State.act s c a).up = s.up ∧
    (State.act s c a).hs = s.hs ∧
    (State.act s c a).tw = s.tw ∧
    (State.act s c a).clients = s.clients ∧
    (State.act s c a).locks = s.locks ∧
    (State.act s c a).age = s.age ∧
    (State.act s c a).tap = s.tap ∧
    (State.act s c a).time.gRate = s.time.gRate ∧
    (State.act s c a).time.rates = s.time.rates ∧
    (State.act s c a).time.gIdx = s.time.gIdx := by
  unfold State.act
  and_intros <;>
    ((try simp) <;> (try (repeat' split)) <;> (try simp))

@[simp] theorem State.engineStep_keeps (s : State) (w : Waymarks) (ev : Option (List Word)) (en : WmEngine) :
    (State.engineStep s w ev en).pending = s.pending ∧
    (State.engineStep s w ev en).power = s.power ∧
    (State.engineStep s w ev en).fuses = s.fuses ∧
    (State.engineStep s w ev en).straps = s.straps ∧
    (State.engineStep s w ev en).port = s.port ∧
    (State.engineStep s w ev en).spill = s.spill ∧
    (State.engineStep s w ev en).red = s.red ∧
    (State.engineStep s w ev en).mot = s.mot ∧
    (State.engineStep s w ev en).prod = s.prod ∧
    (State.engineStep s w ev en).roads = s.roads ∧
    (State.engineStep s w ev en).up = s.up ∧
    (State.engineStep s w ev en).hs = s.hs ∧
    (State.engineStep s w ev en).tw = s.tw ∧
    (State.engineStep s w ev en).clients = s.clients ∧
    (State.engineStep s w ev en).locks = s.locks ∧
    (State.engineStep s w ev en).age = s.age ∧
    (State.engineStep s w ev en).tap = s.tap ∧
    (State.engineStep s w ev en).time.gRate = s.time.gRate ∧
    (State.engineStep s w ev en).time.rates = s.time.rates ∧
    (State.engineStep s w ev en).time.gIdx = s.time.gIdx := by
  unfold State.engineStep
  and_intros <;>
    ((try simp) <;> (try (repeat' split)) <;> (try simp))

@[simp] theorem State.pass_keeps (s : State) (ev : Option (List Word)) :
    (State.pass s ev).pending = s.pending ∧
    (State.pass s ev).power = s.power ∧
    (State.pass s ev).fuses = s.fuses ∧
    (State.pass s ev).straps = s.straps ∧
    (State.pass s ev).port = s.port ∧
    (State.pass s ev).spill = s.spill ∧
    (State.pass s ev).red = s.red ∧
    (State.pass s ev).mot = s.mot ∧
    (State.pass s ev).prod = s.prod ∧
    (State.pass s ev).roads = s.roads ∧
    (State.pass s ev).up = s.up ∧
    (State.pass s ev).hs = s.hs ∧
    (State.pass s ev).tw = s.tw ∧
    (State.pass s ev).clients = s.clients ∧
    (State.pass s ev).locks = s.locks ∧
    (State.pass s ev).age = s.age ∧
    (State.pass s ev).tap = s.tap ∧
    (State.pass s ev).time.gRate = s.time.gRate ∧
    (State.pass s ev).time.rates = s.time.rates ∧
    (State.pass s ev).time.gIdx = s.time.gIdx := by
  unfold State.pass
  and_intros <;>
    ((try simp) <;> (try (repeat' split)) <;> (try simp))

@[simp] theorem doEventPass_keeps (s : State) :
    (doEventPass s).pending = s.pending ∧
    (doEventPass s).power = s.power ∧
    (doEventPass s).fuses = s.fuses ∧
    (doEventPass s).straps = s.straps ∧
    (doEventPass s).port = s.port ∧
    (doEventPass s).spill = s.spill ∧
    (doEventPass s).red = s.red ∧
    (doEventPass s).mot = s.mot ∧
    (doEventPass s).prod = s.prod ∧
    (doEventPass s).roads = s.roads ∧
    (doEventPass s).up = s.up ∧
    (doEventPass s).hs = s.hs ∧
    (doEventPass s).tw = s.tw ∧
    (doEventPass s).clients = s.clients ∧
    (doEventPass s).locks = s.locks ∧
    (doEventPass s).age = s.age ∧
    (doEventPass s).tap = s.tap ∧
    (doEventPass s).time.gRate = s.time.gRate ∧
    (doEventPass s).time.rates = s.time.rates ∧
    (doEventPass s).time.gIdx = s.time.gIdx := by
  unfold doEventPass
  and_intros <;>
    ((try simp) <;> (try (repeat' split)) <;> (try simp))

@[simp] theorem State.offerWaiting_keeps (s : State) :
    (State.offerWaiting s).pending = s.pending ∧
    (State.offerWaiting s).power = s.power ∧
    (State.offerWaiting s).fuses = s.fuses ∧
    (State.offerWaiting s).straps = s.straps ∧
    (State.offerWaiting s).port = s.port ∧
    (State.offerWaiting s).spill = s.spill ∧
    (State.offerWaiting s).red = s.red ∧
    (State.offerWaiting s).mot = s.mot ∧
    (State.offerWaiting s).prod = s.prod ∧
    (State.offerWaiting s).roads = s.roads ∧
    (State.offerWaiting s).up = s.up ∧
    (State.offerWaiting s).hs = s.hs ∧
    (State.offerWaiting s).tw = s.tw ∧
    (State.offerWaiting s).clients = s.clients ∧
    (State.offerWaiting s).locks = s.locks ∧
    (State.offerWaiting s).age = s.age ∧
    (State.offerWaiting s).tap = s.tap ∧
    (State.offerWaiting s).time.gRate = s.time.gRate ∧
    (State.offerWaiting s).time.rates = s.time.rates ∧
    (State.offerWaiting s).time.gIdx = s.time.gIdx := by
  unfold State.offerWaiting
  and_intros <;>
    ((try simp) <;> (try (repeat' split)) <;> (try simp))

@[simp] theorem State.markPass_keeps (s : State) :
    (State.markPass s).pending = s.pending ∧
    (State.markPass s).power = s.power ∧
    (State.markPass s).fuses = s.fuses ∧
    (State.markPass s).straps = s.straps ∧
    (State.markPass s).port = s.port ∧
    (State.markPass s).spill = s.spill ∧
    (State.markPass s).red = s.red ∧
    (State.markPass s).mot = s.mot ∧
    (State.markPass s).prod = s.prod ∧
    (State.markPass s).roads = s.roads ∧
    (State.markPass s).up = s.up ∧
    (State.markPass s).hs = s.hs ∧
    (State.markPass s).tw = s.tw ∧
    (State.markPass s).clients = s.clients ∧
    (State.markPass s).locks = s.locks ∧
    (State.markPass s).age = s.age ∧
    (State.markPass s).tap = s.tap ∧
    (State.markPass s).time.gRate = s.time.gRate ∧
    (State.markPass s).time.rates = s.time.rates ∧
    (State.markPass s).time.gIdx = s.time.gIdx := by
  unfold State.markPass
  and_intros <;>
    ((try simp) <;> (try (repeat' split)) <;> (try simp))

@[simp] theorem State.restartEngines_keeps (s : State) (why : Nat) :
    (State.restartEngines s why).pending = s.pending ∧
    (State.restartEngines s why).free = s.free ∧
    (State.restartEngines s why).power = s.power ∧
    (State.restartEngines s why).time = s.time ∧
    (State.restartEngines s why).fuses = s.fuses ∧
    (State.restartEngines s why).straps = s.straps ∧
    (State.restartEngines s why).port = s.port ∧
    (State.restartEngines s why).spill = s.spill ∧
    (State.restartEngines s why).red = s.red ∧
    (State.restartEngines s why).mot = s.mot ∧
    (State.restartEngines s why).prod = s.prod ∧
    (State.restartEngines s why).fe = s.fe ∧
    (State.restartEngines s why).roads = s.roads ∧
    (State.restartEngines s why).up = s.up ∧
    (State.restartEngines s why).hs = s.hs ∧
    (State.restartEngines s why).tw = s.tw ∧
    (State.restartEngines s why).attn = s.attn ∧
    (State.restartEngines s why).clients = s.clients ∧
    (State.restartEngines s why).locks = s.locks ∧
    (State.restartEngines s why).pin = s.pin ∧
    (State.restartEngines s why).age = s.age ∧
    (State.restartEngines s why).tap = s.tap := by
  unfold State.restartEngines
  and_intros <;>
    ((try simp) <;> (try (repeat' split)) <;> (try simp))

@[simp] theorem State.samplingAt_keeps (s : State) (event cause : Nat) (l : List (Word × Nat)) :
    (State.samplingAt s event cause l).pending = s.pending ∧
    (State.samplingAt s event cause l).free = s.free ∧
    (State.samplingAt s event cause l).power = s.power ∧
    (State.samplingAt s event cause l).time = s.time ∧
    (State.samplingAt s event cause l).fuses = s.fuses ∧
    (State.samplingAt s event cause l).straps = s.straps ∧
    (State.samplingAt s event cause l).port = s.port ∧
    (State.samplingAt s event cause l).spill = s.spill ∧
    (State.samplingAt s event cause l).red = s.red ∧
    (State.samplingAt s event cause l).mot = s.mot ∧
    (State.samplingAt s event cause l).prod = s.prod ∧
    (State.samplingAt s event cause l).fe = s.fe ∧
    (State.samplingAt s event cause l).roads = s.roads ∧
    (State.samplingAt s event cause l).up = s.up ∧
    (State.samplingAt s event cause l).hs = s.hs ∧
    (State.samplingAt s event cause l).tw = s.tw ∧
    (State.samplingAt s event cause l).attn = s.attn ∧
    (State.samplingAt s event cause l).clients = s.clients ∧
    (State.samplingAt s event cause l).locks = s.locks ∧
    (State.samplingAt s event cause l).pin = s.pin ∧
    (State.samplingAt s event cause l).age = s.age ∧
    (State.samplingAt s event cause l).tap = s.tap := by
  unfold State.samplingAt
  and_intros <;>
    ((try simp) <;> (try (repeat' split)) <;> (try simp))

@[simp] theorem State.sampling_keeps (s : State) (event cause mark : Nat) (tags : List Word) :
    (State.sampling s event cause mark tags).pending = s.pending ∧
    (State.sampling s event cause mark tags).free = s.free ∧
    (State.sampling s event cause mark tags).power = s.power ∧
    (State.sampling s event cause mark tags).time = s.time ∧
    (State.sampling s event cause mark tags).fuses = s.fuses ∧
    (State.sampling s event cause mark tags).straps = s.straps ∧
    (State.sampling s event cause mark tags).port = s.port ∧
    (State.sampling s event cause mark tags).spill = s.spill ∧
    (State.sampling s event cause mark tags).red = s.red ∧
    (State.sampling s event cause mark tags).mot = s.mot ∧
    (State.sampling s event cause mark tags).prod = s.prod ∧
    (State.sampling s event cause mark tags).fe = s.fe ∧
    (State.sampling s event cause mark tags).roads = s.roads ∧
    (State.sampling s event cause mark tags).up = s.up ∧
    (State.sampling s event cause mark tags).hs = s.hs ∧
    (State.sampling s event cause mark tags).tw = s.tw ∧
    (State.sampling s event cause mark tags).attn = s.attn ∧
    (State.sampling s event cause mark tags).clients = s.clients ∧
    (State.sampling s event cause mark tags).locks = s.locks ∧
    (State.sampling s event cause mark tags).pin = s.pin ∧
    (State.sampling s event cause mark tags).age = s.age ∧
    (State.sampling s event cause mark tags).tap = s.tap := by
  unfold State.sampling
  and_intros <;>
    ((try simp) <;> (try (repeat' split)) <;> (try simp))

@[simp] theorem State.endProduct_keeps (s : State) (im : Image) (e : MotionEntry) :
    (State.endProduct s im e).pending = s.pending ∧
    (State.endProduct s im e).free = s.free ∧
    (State.endProduct s im e).power = s.power ∧
    (State.endProduct s im e).time = s.time ∧
    (State.endProduct s im e).fuses = s.fuses ∧
    (State.endProduct s im e).straps = s.straps ∧
    (State.endProduct s im e).port = s.port ∧
    (State.endProduct s im e).spill = s.spill ∧
    (State.endProduct s im e).red = s.red ∧
    (State.endProduct s im e).mot = s.mot ∧
    (State.endProduct s im e).fe = s.fe ∧
    (State.endProduct s im e).roads = s.roads ∧
    (State.endProduct s im e).up = s.up ∧
    (State.endProduct s im e).hs = s.hs ∧
    (State.endProduct s im e).tw = s.tw ∧
    (State.endProduct s im e).attn = s.attn ∧
    (State.endProduct s im e).clients = s.clients ∧
    (State.endProduct s im e).locks = s.locks ∧
    (State.endProduct s im e).pin = s.pin ∧
    (State.endProduct s im e).age = s.age ∧
    (State.endProduct s im e).tap = s.tap := by
  unfold State.endProduct
  and_intros <;>
    ((try simp) <;> (try (repeat' split)) <;> (try simp))

@[simp] theorem State.endProducts_keeps (s : State) (old im : Image) :
    (State.endProducts s old im).pending = s.pending ∧
    (State.endProducts s old im).free = s.free ∧
    (State.endProducts s old im).power = s.power ∧
    (State.endProducts s old im).time = s.time ∧
    (State.endProducts s old im).fuses = s.fuses ∧
    (State.endProducts s old im).straps = s.straps ∧
    (State.endProducts s old im).port = s.port ∧
    (State.endProducts s old im).spill = s.spill ∧
    (State.endProducts s old im).red = s.red ∧
    (State.endProducts s old im).mot = s.mot ∧
    (State.endProducts s old im).fe = s.fe ∧
    (State.endProducts s old im).roads = s.roads ∧
    (State.endProducts s old im).up = s.up ∧
    (State.endProducts s old im).hs = s.hs ∧
    (State.endProducts s old im).tw = s.tw ∧
    (State.endProducts s old im).attn = s.attn ∧
    (State.endProducts s old im).clients = s.clients ∧
    (State.endProducts s old im).locks = s.locks ∧
    (State.endProducts s old im).pin = s.pin ∧
    (State.endProducts s old im).age = s.age ∧
    (State.endProducts s old im).tap = s.tap := by
  unfold State.endProducts
  and_intros <;>
    ((try simp) <;> (try (repeat' split)) <;> (try simp))

@[simp] theorem State.beginProducts_keeps (s : State) (had : List MotionEntry) (im : Image) :
    (State.beginProducts s had im).pending = s.pending ∧
    (State.beginProducts s had im).free = s.free ∧
    (State.beginProducts s had im).power = s.power ∧
    (State.beginProducts s had im).time = s.time ∧
    (State.beginProducts s had im).fuses = s.fuses ∧
    (State.beginProducts s had im).straps = s.straps ∧
    (State.beginProducts s had im).port = s.port ∧
    (State.beginProducts s had im).cw = s.cw ∧
    (State.beginProducts s had im).spill = s.spill ∧
    (State.beginProducts s had im).red = s.red ∧
    (State.beginProducts s had im).mot = s.mot ∧
    (State.beginProducts s had im).way = s.way ∧
    (State.beginProducts s had im).fe = s.fe ∧
    (State.beginProducts s had im).roads = s.roads ∧
    (State.beginProducts s had im).up = s.up ∧
    (State.beginProducts s had im).hs = s.hs ∧
    (State.beginProducts s had im).tw = s.tw ∧
    (State.beginProducts s had im).attn = s.attn ∧
    (State.beginProducts s had im).clients = s.clients ∧
    (State.beginProducts s had im).locks = s.locks ∧
    (State.beginProducts s had im).pin = s.pin ∧
    (State.beginProducts s had im).age = s.age ∧
    (State.beginProducts s had im).tap = s.tap := by
  unfold State.beginProducts
  and_intros <;>
    ((try simp) <;> (try (repeat' split)) <;> (try simp))

@[simp] theorem State.resumeProducts_keeps (s : State) (had : List MotionEntry) (im : Image) :
    (State.resumeProducts s had im).pending = s.pending ∧
    (State.resumeProducts s had im).free = s.free ∧
    (State.resumeProducts s had im).power = s.power ∧
    (State.resumeProducts s had im).time = s.time ∧
    (State.resumeProducts s had im).fuses = s.fuses ∧
    (State.resumeProducts s had im).straps = s.straps ∧
    (State.resumeProducts s had im).port = s.port ∧
    (State.resumeProducts s had im).spill = s.spill ∧
    (State.resumeProducts s had im).red = s.red ∧
    (State.resumeProducts s had im).mot = s.mot ∧
    (State.resumeProducts s had im).prod = s.prod ∧
    (State.resumeProducts s had im).fe = s.fe ∧
    (State.resumeProducts s had im).roads = s.roads ∧
    (State.resumeProducts s had im).up = s.up ∧
    (State.resumeProducts s had im).hs = s.hs ∧
    (State.resumeProducts s had im).tw = s.tw ∧
    (State.resumeProducts s had im).attn = s.attn ∧
    (State.resumeProducts s had im).clients = s.clients ∧
    (State.resumeProducts s had im).locks = s.locks ∧
    (State.resumeProducts s had im).pin = s.pin ∧
    (State.resumeProducts s had im).age = s.age ∧
    (State.resumeProducts s had im).tap = s.tap := by
  unfold State.resumeProducts
  and_intros <;>
    ((try simp) <;> (try (repeat' split)) <;> (try simp))

@[simp] theorem State.commitStops_keeps (s : State) (old im : Image) :
    (State.commitStops s old im).pending = s.pending ∧
    (State.commitStops s old im).free = s.free ∧
    (State.commitStops s old im).power = s.power ∧
    (State.commitStops s old im).time = s.time ∧
    (State.commitStops s old im).fuses = s.fuses ∧
    (State.commitStops s old im).straps = s.straps ∧
    (State.commitStops s old im).port = s.port ∧
    (State.commitStops s old im).spill = s.spill ∧
    (State.commitStops s old im).red = s.red ∧
    (State.commitStops s old im).fe = s.fe ∧
    (State.commitStops s old im).roads = s.roads ∧
    (State.commitStops s old im).up = s.up ∧
    (State.commitStops s old im).hs = s.hs ∧
    (State.commitStops s old im).tw = s.tw ∧
    (State.commitStops s old im).clients = s.clients ∧
    (State.commitStops s old im).locks = s.locks ∧
    (State.commitStops s old im).age = s.age ∧
    (State.commitStops s old im).tap = s.tap := by
  unfold State.commitStops
  and_intros <;>
    ((try simp) <;> (try (repeat' split)) <;> (try simp))

@[simp] theorem State.commitSensors_keeps (s : State) (old : Option Image) (im : Image) :
    (State.commitSensors s old im).pending = s.pending ∧
    (State.commitSensors s old im).free = s.free ∧
    (State.commitSensors s old im).power = s.power ∧
    (State.commitSensors s old im).time = s.time ∧
    (State.commitSensors s old im).fuses = s.fuses ∧
    (State.commitSensors s old im).straps = s.straps ∧
    (State.commitSensors s old im).port = s.port ∧
    (State.commitSensors s old im).cw = s.cw ∧
    (State.commitSensors s old im).spill = s.spill ∧
    (State.commitSensors s old im).red = s.red ∧
    (State.commitSensors s old im).prod = s.prod ∧
    (State.commitSensors s old im).way = s.way ∧
    (State.commitSensors s old im).roads = s.roads ∧
    (State.commitSensors s old im).up = s.up ∧
    (State.commitSensors s old im).hs = s.hs ∧
    (State.commitSensors s old im).tw = s.tw ∧
    (State.commitSensors s old im).attn = s.attn ∧
    (State.commitSensors s old im).clients = s.clients ∧
    (State.commitSensors s old im).locks = s.locks ∧
    (State.commitSensors s old im).pin = s.pin ∧
    (State.commitSensors s old im).age = s.age ∧
    (State.commitSensors s old im).tap = s.tap := by
  unfold State.commitSensors
  and_intros <;>
    ((try simp) <;> (try (repeat' split)) <;> (try simp))

@[simp] theorem State.commitAccounts_keeps (s : State) (im : Image) :
    (State.commitAccounts s im).pending = s.pending ∧
    (State.commitAccounts s im).free = s.free ∧
    (State.commitAccounts s im).power = s.power ∧
    (State.commitAccounts s im).time = s.time ∧
    (State.commitAccounts s im).fuses = s.fuses ∧
    (State.commitAccounts s im).straps = s.straps ∧
    (State.commitAccounts s im).port = s.port ∧
    (State.commitAccounts s im).spill = s.spill ∧
    (State.commitAccounts s im).red = s.red ∧
    (State.commitAccounts s im).mot = s.mot ∧
    (State.commitAccounts s im).prod = s.prod ∧
    (State.commitAccounts s im).way = s.way ∧
    (State.commitAccounts s im).fe = s.fe ∧
    (State.commitAccounts s im).roads = s.roads ∧
    (State.commitAccounts s im).up = s.up ∧
    (State.commitAccounts s im).hs = s.hs ∧
    (State.commitAccounts s im).tw = s.tw ∧
    (State.commitAccounts s im).attn = s.attn ∧
    (State.commitAccounts s im).clients = s.clients ∧
    (State.commitAccounts s im).locks = s.locks ∧
    (State.commitAccounts s im).pin = s.pin ∧
    (State.commitAccounts s im).age = s.age ∧
    (State.commitAccounts s im).tap = s.tap := by
  unfold State.commitAccounts
  and_intros <;>
    ((try simp) <;> (try (repeat' split)) <;> (try simp))

@[simp] theorem State.takePlanSel_keeps (s : State) :
    (State.takePlanSel s).pending = s.pending ∧
    (State.takePlanSel s).free = s.free ∧
    (State.takePlanSel s).power = s.power ∧
    (State.takePlanSel s).time = s.time ∧
    (State.takePlanSel s).fuses = s.fuses ∧
    (State.takePlanSel s).straps = s.straps ∧
    (State.takePlanSel s).port = s.port ∧
    (State.takePlanSel s).cw = s.cw ∧
    (State.takePlanSel s).spill = s.spill ∧
    (State.takePlanSel s).red = s.red ∧
    (State.takePlanSel s).mot = s.mot ∧
    (State.takePlanSel s).prod = s.prod ∧
    (State.takePlanSel s).fe = s.fe ∧
    (State.takePlanSel s).roads = s.roads ∧
    (State.takePlanSel s).up = s.up ∧
    (State.takePlanSel s).hs = s.hs ∧
    (State.takePlanSel s).tw = s.tw ∧
    (State.takePlanSel s).attn = s.attn ∧
    (State.takePlanSel s).clients = s.clients ∧
    (State.takePlanSel s).locks = s.locks ∧
    (State.takePlanSel s).pin = s.pin ∧
    (State.takePlanSel s).age = s.age ∧
    (State.takePlanSel s).tap = s.tap := by
  unfold State.takePlanSel
  and_intros <;>
    ((try simp) <;> (try (repeat' split)) <;> (try simp))

@[simp] theorem State.commitPlan_keeps (s : State) :
    (State.commitPlan s).1.pending = s.pending ∧
    (State.commitPlan s).1.free = s.free ∧
    (State.commitPlan s).1.power = s.power ∧
    (State.commitPlan s).1.time = s.time ∧
    (State.commitPlan s).1.fuses = s.fuses ∧
    (State.commitPlan s).1.straps = s.straps ∧
    (State.commitPlan s).1.port = s.port ∧
    (State.commitPlan s).1.cw = s.cw ∧
    (State.commitPlan s).1.spill = s.spill ∧
    (State.commitPlan s).1.red = s.red ∧
    (State.commitPlan s).1.mot = s.mot ∧
    (State.commitPlan s).1.prod = s.prod ∧
    (State.commitPlan s).1.fe = s.fe ∧
    (State.commitPlan s).1.roads = s.roads ∧
    (State.commitPlan s).1.up = s.up ∧
    (State.commitPlan s).1.hs = s.hs ∧
    (State.commitPlan s).1.tw = s.tw ∧
    (State.commitPlan s).1.attn = s.attn ∧
    (State.commitPlan s).1.clients = s.clients ∧
    (State.commitPlan s).1.locks = s.locks ∧
    (State.commitPlan s).1.pin = s.pin ∧
    (State.commitPlan s).1.age = s.age ∧
    (State.commitPlan s).1.tap = s.tap := by
  unfold State.commitPlan
  and_intros <;>
    ((try simp) <;> (try (repeat' split)) <;> (try simp))

@[simp] theorem State.settleRoads_keeps (s : State) (cause : Nat) :
    (State.settleRoads s cause).pending = s.pending ∧
    (State.settleRoads s cause).free = s.free ∧
    (State.settleRoads s cause).power = s.power ∧
    (State.settleRoads s cause).time = s.time ∧
    (State.settleRoads s cause).fuses = s.fuses ∧
    (State.settleRoads s cause).straps = s.straps ∧
    (State.settleRoads s cause).port = s.port ∧
    (State.settleRoads s cause).spill = s.spill ∧
    (State.settleRoads s cause).red = s.red ∧
    (State.settleRoads s cause).mot = s.mot ∧
    (State.settleRoads s cause).prod = s.prod ∧
    (State.settleRoads s cause).fe = s.fe ∧
    (State.settleRoads s cause).up = s.up ∧
    (State.settleRoads s cause).hs = s.hs ∧
    (State.settleRoads s cause).tw = s.tw ∧
    (State.settleRoads s cause).attn = s.attn ∧
    (State.settleRoads s cause).clients = s.clients ∧
    (State.settleRoads s cause).locks = s.locks ∧
    (State.settleRoads s cause).pin = s.pin ∧
    (State.settleRoads s cause).age = s.age ∧
    (State.settleRoads s cause).tap = s.tap := by
  unfold State.settleRoads
  and_intros <;>
    ((try simp) <;> (try (repeat' split)) <;> (try simp))

@[simp] theorem State.settlePlan_keeps (s : State) (cause : Nat) :
    (State.settlePlan s cause).pending = s.pending ∧
    (State.settlePlan s cause).free = s.free ∧
    (State.settlePlan s cause).power = s.power ∧
    (State.settlePlan s cause).time = s.time ∧
    (State.settlePlan s cause).fuses = s.fuses ∧
    (State.settlePlan s cause).straps = s.straps ∧
    (State.settlePlan s cause).port = s.port ∧
    (State.settlePlan s cause).spill = s.spill ∧
    (State.settlePlan s cause).mot = s.mot ∧
    (State.settlePlan s cause).prod = s.prod ∧
    (State.settlePlan s cause).fe = s.fe ∧
    (State.settlePlan s cause).up = s.up ∧
    (State.settlePlan s cause).hs = s.hs ∧
    (State.settlePlan s cause).tw = s.tw ∧
    (State.settlePlan s cause).attn = s.attn ∧
    (State.settlePlan s cause).clients = s.clients ∧
    (State.settlePlan s cause).locks = s.locks ∧
    (State.settlePlan s cause).pin = s.pin ∧
    (State.settlePlan s cause).age = s.age ∧
    (State.settlePlan s cause).tap = s.tap := by
  unfold State.settlePlan
  and_intros <;>
    ((try simp) <;> (try (repeat' split)) <;> (try simp))

@[simp] theorem State.resetUi_keeps (s : State) (c : Nat) :
    (State.resetUi s c).pending = s.pending ∧
    (State.resetUi s c).free = s.free ∧
    (State.resetUi s c).power = s.power ∧
    (State.resetUi s c).fuses = s.fuses ∧
    (State.resetUi s c).straps = s.straps ∧
    (State.resetUi s c).spill = s.spill ∧
    (State.resetUi s c).red = s.red ∧
    (State.resetUi s c).prod = s.prod ∧
    (State.resetUi s c).way = s.way ∧
    (State.resetUi s c).fe = s.fe ∧
    (State.resetUi s c).roads = s.roads ∧
    (State.resetUi s c).hs = s.hs ∧
    (State.resetUi s c).tw = s.tw ∧
    (State.resetUi s c).attn = s.attn ∧
    (State.resetUi s c).pin = s.pin ∧
    (State.resetUi s c).tap = s.tap ∧
    (State.resetUi s c).port.inForce = s.port.inForce ∧
    (State.resetUi s c).time.gRate = s.time.gRate ∧
    (State.resetUi s c).time.rates = s.time.rates ∧
    (State.resetUi s c).time.gIdx = s.time.gIdx := by
  unfold State.resetUi
  and_intros <;>
    ((try simp) <;> (try (repeat' split)) <;> (try simp))

@[simp] theorem State.commitClients_keeps (s : State) (old im : Image) :
    (State.commitClients s old im).pending = s.pending ∧
    (State.commitClients s old im).free = s.free ∧
    (State.commitClients s old im).power = s.power ∧
    (State.commitClients s old im).fuses = s.fuses ∧
    (State.commitClients s old im).straps = s.straps ∧
    (State.commitClients s old im).spill = s.spill ∧
    (State.commitClients s old im).red = s.red ∧
    (State.commitClients s old im).prod = s.prod ∧
    (State.commitClients s old im).way = s.way ∧
    (State.commitClients s old im).fe = s.fe ∧
    (State.commitClients s old im).roads = s.roads ∧
    (State.commitClients s old im).hs = s.hs ∧
    (State.commitClients s old im).tw = s.tw ∧
    (State.commitClients s old im).attn = s.attn ∧
    (State.commitClients s old im).pin = s.pin ∧
    (State.commitClients s old im).tap = s.tap ∧
    (State.commitClients s old im).port.inForce = s.port.inForce ∧
    (State.commitClients s old im).time.gRate = s.time.gRate ∧
    (State.commitClients s old im).time.rates = s.time.rates ∧
    (State.commitClients s old im).time.gIdx = s.time.gIdx := by
  unfold State.commitClients
  and_intros <;>
    ((try simp) <;> (try (repeat' split)) <;> (try simp))

@[simp] theorem State.commitFuses_keeps (s : State) (im : Image) (first : Bool) :
    (State.commitFuses s im first).pending = s.pending ∧
    (State.commitFuses s im first).free = s.free ∧
    (State.commitFuses s im first).power = s.power ∧
    (State.commitFuses s im first).time = s.time ∧
    (State.commitFuses s im first).straps = s.straps ∧
    (State.commitFuses s im first).port = s.port ∧
    (State.commitFuses s im first).cw = s.cw ∧
    (State.commitFuses s im first).spill = s.spill ∧
    (State.commitFuses s im first).red = s.red ∧
    (State.commitFuses s im first).mot = s.mot ∧
    (State.commitFuses s im first).prod = s.prod ∧
    (State.commitFuses s im first).way = s.way ∧
    (State.commitFuses s im first).fe = s.fe ∧
    (State.commitFuses s im first).roads = s.roads ∧
    (State.commitFuses s im first).up = s.up ∧
    (State.commitFuses s im first).hs = s.hs ∧
    (State.commitFuses s im first).tw = s.tw ∧
    (State.commitFuses s im first).attn = s.attn ∧
    (State.commitFuses s im first).clients = s.clients ∧
    (State.commitFuses s im first).locks = s.locks ∧
    (State.commitFuses s im first).pin = s.pin ∧
    (State.commitFuses s im first).age = s.age ∧
    (State.commitFuses s im first).tap = s.tap := by
  unfold State.commitFuses
  and_intros <;>
    ((try simp) <;> (try (repeat' split)) <;> (try simp))

@[simp] theorem State.commitWay_keeps (s : State) (old : Option Image) (im : Image) :
    (State.commitWay s old im).pending = s.pending ∧
    (State.commitWay s old im).free = s.free ∧
    (State.commitWay s old im).power = s.power ∧
    (State.commitWay s old im).time = s.time ∧
    (State.commitWay s old im).fuses = s.fuses ∧
    (State.commitWay s old im).straps = s.straps ∧
    (State.commitWay s old im).port = s.port ∧
    (State.commitWay s old im).spill = s.spill ∧
    (State.commitWay s old im).mot = s.mot ∧
    (State.commitWay s old im).prod = s.prod ∧
    (State.commitWay s old im).fe = s.fe ∧
    (State.commitWay s old im).roads = s.roads ∧
    (State.commitWay s old im).up = s.up ∧
    (State.commitWay s old im).hs = s.hs ∧
    (State.commitWay s old im).tw = s.tw ∧
    (State.commitWay s old im).attn = s.attn ∧
    (State.commitWay s old im).clients = s.clients ∧
    (State.commitWay s old im).locks = s.locks ∧
    (State.commitWay s old im).pin = s.pin ∧
    (State.commitWay s old im).age = s.age ∧
    (State.commitWay s old im).tap = s.tap := by
  unfold State.commitWay
  and_intros <;>
    ((try simp) <;> (try (repeat' split)) <;> (try simp))

@[simp] theorem State.commitPins_keeps (s : State) (old : Option Image) (im : Image) :
    (State.commitPins s old im).pending = s.pending ∧
    (State.commitPins s old im).free = s.free ∧
    (State.commitPins s old im).power = s.power ∧
    (State.commitPins s old im).time = s.time ∧
    (State.commitPins s old im).fuses = s.fuses ∧
    (State.commitPins s old im).straps = s.straps ∧
    (State.commitPins s old im).port = s.port ∧
    (State.commitPins s old im).cw = s.cw ∧
    (State.commitPins s old im).spill = s.spill ∧
    (State.commitPins s old im).red = s.red ∧
    (State.commitPins s old im).mot = s.mot ∧
    (State.commitPins s old im).prod = s.prod ∧
    (State.commitPins s old im).way = s.way ∧
    (State.commitPins s old im).fe = s.fe ∧
    (State.commitPins s old im).roads = s.roads ∧
    (State.commitPins s old im).up = s.up ∧
    (State.commitPins s old im).hs = s.hs ∧
    (State.commitPins s old im).tw = s.tw ∧
    (State.commitPins s old im).attn = s.attn ∧
    (State.commitPins s old im).clients = s.clients ∧
    (State.commitPins s old im).locks = s.locks ∧
    (State.commitPins s old im).age = s.age ∧
    (State.commitPins s old im).tap = s.tap := by
  unfold State.commitPins
  and_intros <;>
    ((try simp) <;> (try (repeat' split)) <;> (try simp))

@[simp] theorem State.commitOld_keeps (s : State) (old : Option Image) (im : Image) :
    (State.commitOld s old im).pending = s.pending ∧
    (State.commitOld s old im).free = s.free ∧
    (State.commitOld s old im).power = s.power ∧
    (State.commitOld s old im).fuses = s.fuses ∧
    (State.commitOld s old im).straps = s.straps ∧
    (State.commitOld s old im).spill = s.spill ∧
    (State.commitOld s old im).red = s.red ∧
    (State.commitOld s old im).fe = s.fe ∧
    (State.commitOld s old im).roads = s.roads ∧
    (State.commitOld s old im).hs = s.hs ∧
    (State.commitOld s old im).tw = s.tw ∧
    (State.commitOld s old im).tap = s.tap ∧
    (State.commitOld s old im).port.inForce = s.port.inForce ∧
    (State.commitOld s old im).time.gRate = s.time.gRate ∧
    (State.commitOld s old im).time.rates = s.time.rates ∧
    (State.commitOld s old im).time.gIdx = s.time.gIdx := by
  unfold State.commitOld
  and_intros <;>
    ((try simp) <;> (try (repeat' split)) <;> (try simp))

@[simp] theorem State.putInForce_keeps (s : State) (im : Image) :
    (State.putInForce s im).pending = s.pending ∧
    (State.putInForce s im).free = s.free ∧
    (State.putInForce s im).time = s.time ∧
    (State.putInForce s im).fuses = s.fuses ∧
    (State.putInForce s im).straps = s.straps ∧
    (State.putInForce s im).cw = s.cw ∧
    (State.putInForce s im).spill = s.spill ∧
    (State.putInForce s im).red = s.red ∧
    (State.putInForce s im).mot = s.mot ∧
    (State.putInForce s im).prod = s.prod ∧
    (State.putInForce s im).way = s.way ∧
    (State.putInForce s im).fe = s.fe ∧
    (State.putInForce s im).roads = s.roads ∧
    (State.putInForce s im).up = s.up ∧
    (State.putInForce s im).hs = s.hs ∧
    (State.putInForce s im).tw = s.tw ∧
    (State.putInForce s im).attn = s.attn ∧
    (State.putInForce s im).clients = s.clients ∧
    (State.putInForce s im).locks = s.locks ∧
    (State.putInForce s im).pin = s.pin ∧
    (State.putInForce s im).age = s.age ∧
    (State.putInForce s im).tap = s.tap ∧
    (State.putInForce s im).power.mode = s.power.mode := by
  unfold State.putInForce
  and_intros <;>
    ((try simp) <;> (try (repeat' split)) <;> (try simp))

@[simp] theorem State.commitRoadSect_keeps (s : State) (old : Option Image) (im : Image) :
    (State.commitRoadSect s old im).pending = s.pending ∧
    (State.commitRoadSect s old im).free = s.free ∧
    (State.commitRoadSect s old im).power = s.power ∧
    (State.commitRoadSect s old im).time = s.time ∧
    (State.commitRoadSect s old im).fuses = s.fuses ∧
    (State.commitRoadSect s old im).straps = s.straps ∧
    (State.commitRoadSect s old im).port = s.port ∧
    (State.commitRoadSect s old im).spill = s.spill ∧
    (State.commitRoadSect s old im).red = s.red ∧
    (State.commitRoadSect s old im).mot = s.mot ∧
    (State.commitRoadSect s old im).prod = s.prod ∧
    (State.commitRoadSect s old im).fe = s.fe ∧
    (State.commitRoadSect s old im).up = s.up ∧
    (State.commitRoadSect s old im).hs = s.hs ∧
    (State.commitRoadSect s old im).tw = s.tw ∧
    (State.commitRoadSect s old im).attn = s.attn ∧
    (State.commitRoadSect s old im).clients = s.clients ∧
    (State.commitRoadSect s old im).locks = s.locks ∧
    (State.commitRoadSect s old im).pin = s.pin ∧
    (State.commitRoadSect s old im).age = s.age ∧
    (State.commitRoadSect s old im).tap = s.tap := by
  unfold State.commitRoadSect
  and_intros <;>
    ((try simp) <;> (try (repeat' split)) <;> (try simp))

@[simp] theorem State.commitIslands_keeps (s : State) (old : Option Image) (im : Image) :
    (State.commitIslands s old im).pending = s.pending ∧
    (State.commitIslands s old im).free = s.free ∧
    (State.commitIslands s old im).power = s.power ∧
    (State.commitIslands s old im).fuses = s.fuses ∧
    (State.commitIslands s old im).straps = s.straps ∧
    (State.commitIslands s old im).port = s.port ∧
    (State.commitIslands s old im).spill = s.spill ∧
    (State.commitIslands s old im).up = s.up ∧
    (State.commitIslands s old im).hs = s.hs ∧
    (State.commitIslands s old im).tw = s.tw ∧
    (State.commitIslands s old im).attn = s.attn ∧
    (State.commitIslands s old im).locks = s.locks ∧
    (State.commitIslands s old im).age = s.age ∧
    (State.commitIslands s old im).tap = s.tap ∧
    (State.commitIslands s old im).time.gRate = s.time.gRate ∧
    (State.commitIslands s old im).time.rates = s.time.rates ∧
    (State.commitIslands s old im).time.gIdx = s.time.gIdx := by
  unfold State.commitIslands
  and_intros <;>
    ((try simp) <;> (try (repeat' split)) <;> (try simp))

@[simp] theorem State.commitRecords_keeps (s : State) (first : Bool) (l : Load) (src reason : Nat) (im : Image) :
    (State.commitRecords s first l src reason im).pending = s.pending ∧
    (State.commitRecords s first l src reason im).free = s.free ∧
    (State.commitRecords s first l src reason im).power = s.power ∧
    (State.commitRecords s first l src reason im).time = s.time ∧
    (State.commitRecords s first l src reason im).fuses = s.fuses ∧
    (State.commitRecords s first l src reason im).straps = s.straps ∧
    (State.commitRecords s first l src reason im).port = s.port ∧
    (State.commitRecords s first l src reason im).spill = s.spill ∧
    (State.commitRecords s first l src reason im).red = s.red ∧
    (State.commitRecords s first l src reason im).mot = s.mot ∧
    (State.commitRecords s first l src reason im).prod = s.prod ∧
    (State.commitRecords s first l src reason im).fe = s.fe ∧
    (State.commitRecords s first l src reason im).roads = s.roads ∧
    (State.commitRecords s first l src reason im).up = s.up ∧
    (State.commitRecords s first l src reason im).hs = s.hs ∧
    (State.commitRecords s first l src reason im).tw = s.tw ∧
    (State.commitRecords s first l src reason im).attn = s.attn ∧
    (State.commitRecords s first l src reason im).locks = s.locks ∧
    (State.commitRecords s first l src reason im).pin = s.pin ∧
    (State.commitRecords s first l src reason im).age = s.age ∧
    (State.commitRecords s first l src reason im).tap = s.tap := by
  unfold State.commitRecords
  and_intros <;>
    ((try simp) <;> (try (repeat' split)) <;> (try simp))

@[simp] theorem State.feBegins_keeps (s : State) (o im : Image) (fp : Bool) :
    (State.feBegins s o im fp).pending = s.pending ∧
    (State.feBegins s o im fp).free = s.free ∧
    (State.feBegins s o im fp).power = s.power ∧
    (State.feBegins s o im fp).time = s.time ∧
    (State.feBegins s o im fp).fuses = s.fuses ∧
    (State.feBegins s o im fp).straps = s.straps ∧
    (State.feBegins s o im fp).port = s.port ∧
    (State.feBegins s o im fp).spill = s.spill ∧
    (State.feBegins s o im fp).red = s.red ∧
    (State.feBegins s o im fp).mot = s.mot ∧
    (State.feBegins s o im fp).prod = s.prod ∧
    (State.feBegins s o im fp).fe = s.fe ∧
    (State.feBegins s o im fp).roads = s.roads ∧
    (State.feBegins s o im fp).up = s.up ∧
    (State.feBegins s o im fp).hs = s.hs ∧
    (State.feBegins s o im fp).tw = s.tw ∧
    (State.feBegins s o im fp).attn = s.attn ∧
    (State.feBegins s o im fp).clients = s.clients ∧
    (State.feBegins s o im fp).locks = s.locks ∧
    (State.feBegins s o im fp).pin = s.pin ∧
    (State.feBegins s o im fp).age = s.age ∧
    (State.feBegins s o im fp).tap = s.tap := by
  unfold State.feBegins
  and_intros <;>
    ((try simp) <;> (try (repeat' split)) <;> (try simp))

@[simp] theorem State.commitBegins_keeps (s : State) (old : Option Image) (im : Image) :
    (State.commitBegins s old im).pending = s.pending ∧
    (State.commitBegins s old im).free = s.free ∧
    (State.commitBegins s old im).power = s.power ∧
    (State.commitBegins s old im).time = s.time ∧
    (State.commitBegins s old im).fuses = s.fuses ∧
    (State.commitBegins s old im).straps = s.straps ∧
    (State.commitBegins s old im).port = s.port ∧
    (State.commitBegins s old im).spill = s.spill ∧
    (State.commitBegins s old im).mot = s.mot ∧
    (State.commitBegins s old im).prod = s.prod ∧
    (State.commitBegins s old im).fe = s.fe ∧
    (State.commitBegins s old im).up = s.up ∧
    (State.commitBegins s old im).hs = s.hs ∧
    (State.commitBegins s old im).tw = s.tw ∧
    (State.commitBegins s old im).attn = s.attn ∧
    (State.commitBegins s old im).clients = s.clients ∧
    (State.commitBegins s old im).locks = s.locks ∧
    (State.commitBegins s old im).pin = s.pin ∧
    (State.commitBegins s old im).age = s.age ∧
    (State.commitBegins s old im).tap = s.tap := by
  unfold State.commitBegins
  and_intros <;>
    ((try simp) <;> (try (repeat' split)) <;> (try simp))

@[simp] theorem State.commitImage_keeps (s : State) (l : Load) (im : Image) :
    (State.commitImage s l im).pending = s.pending ∧
    (State.commitImage s l im).free = s.free ∧
    (State.commitImage s l im).straps = s.straps ∧
    (State.commitImage s l im).spill = s.spill ∧
    (State.commitImage s l im).hs = s.hs ∧
    (State.commitImage s l im).tw = s.tw ∧
    (State.commitImage s l im).tap = s.tap ∧
    (State.commitImage s l im).power.mode = s.power.mode ∧
    (State.commitImage s l im).time.gRate = s.time.gRate ∧
    (State.commitImage s l im).time.rates = s.time.rates ∧
    (State.commitImage s l im).time.gIdx = s.time.gIdx := by
  unfold State.commitImage
  and_intros <;>
    ((try simp) <;> (try (repeat' split)) <;> (try simp))

@[simp] theorem State.dropHolds_keeps (s : State) :
    (State.dropHolds s).pending = s.pending ∧
    (State.dropHolds s).free = s.free ∧
    (State.dropHolds s).time = s.time ∧
    (State.dropHolds s).fuses = s.fuses ∧
    (State.dropHolds s).straps = s.straps ∧
    (State.dropHolds s).port = s.port ∧
    (State.dropHolds s).cw = s.cw ∧
    (State.dropHolds s).spill = s.spill ∧
    (State.dropHolds s).red = s.red ∧
    (State.dropHolds s).mot = s.mot ∧
    (State.dropHolds s).prod = s.prod ∧
    (State.dropHolds s).way = s.way ∧
    (State.dropHolds s).fe = s.fe ∧
    (State.dropHolds s).roads = s.roads ∧
    (State.dropHolds s).up = s.up ∧
    (State.dropHolds s).hs = s.hs ∧
    (State.dropHolds s).tw = s.tw ∧
    (State.dropHolds s).attn = s.attn ∧
    (State.dropHolds s).clients = s.clients ∧
    (State.dropHolds s).locks = s.locks ∧
    (State.dropHolds s).pin = s.pin ∧
    (State.dropHolds s).age = s.age ∧
    (State.dropHolds s).tap = s.tap ∧
    (State.dropHolds s).power.mode = s.power.mode := by
  unfold State.dropHolds
  and_intros <;>
    ((try simp) <;> (try (repeat' split)) <;> (try simp))

@[simp] theorem State.addHold_keeps (s : State) (h : Hold) :
    (State.addHold s h).pending = s.pending ∧
    (State.addHold s h).free = s.free ∧
    (State.addHold s h).time = s.time ∧
    (State.addHold s h).fuses = s.fuses ∧
    (State.addHold s h).straps = s.straps ∧
    (State.addHold s h).port = s.port ∧
    (State.addHold s h).cw = s.cw ∧
    (State.addHold s h).spill = s.spill ∧
    (State.addHold s h).red = s.red ∧
    (State.addHold s h).mot = s.mot ∧
    (State.addHold s h).prod = s.prod ∧
    (State.addHold s h).way = s.way ∧
    (State.addHold s h).fe = s.fe ∧
    (State.addHold s h).roads = s.roads ∧
    (State.addHold s h).up = s.up ∧
    (State.addHold s h).hs = s.hs ∧
    (State.addHold s h).tw = s.tw ∧
    (State.addHold s h).attn = s.attn ∧
    (State.addHold s h).clients = s.clients ∧
    (State.addHold s h).locks = s.locks ∧
    (State.addHold s h).pin = s.pin ∧
    (State.addHold s h).age = s.age ∧
    (State.addHold s h).tap = s.tap ∧
    (State.addHold s h).power.mode = s.power.mode := by
  unfold State.addHold
  and_intros <;>
    ((try simp) <;> (try (repeat' split)) <;> (try simp))

@[simp] theorem State.takeDecision_keeps (s : State) :
    (State.takeDecision s).pending = s.pending ∧
    (State.takeDecision s).free = s.free ∧
    (State.takeDecision s).time = s.time ∧
    (State.takeDecision s).fuses = s.fuses ∧
    (State.takeDecision s).straps = s.straps ∧
    (State.takeDecision s).port = s.port ∧
    (State.takeDecision s).cw = s.cw ∧
    (State.takeDecision s).spill = s.spill ∧
    (State.takeDecision s).red = s.red ∧
    (State.takeDecision s).mot = s.mot ∧
    (State.takeDecision s).prod = s.prod ∧
    (State.takeDecision s).way = s.way ∧
    (State.takeDecision s).fe = s.fe ∧
    (State.takeDecision s).roads = s.roads ∧
    (State.takeDecision s).up = s.up ∧
    (State.takeDecision s).hs = s.hs ∧
    (State.takeDecision s).tw = s.tw ∧
    (State.takeDecision s).attn = s.attn ∧
    (State.takeDecision s).clients = s.clients ∧
    (State.takeDecision s).locks = s.locks ∧
    (State.takeDecision s).pin = s.pin ∧
    (State.takeDecision s).age = s.age ∧
    (State.takeDecision s).tap = s.tap ∧
    (State.takeDecision s).power.mode = s.power.mode := by
  unfold State.takeDecision
  and_intros <;>
    ((try simp) <;> (try (repeat' split)) <;> (try simp))

@[simp] theorem State.writeModeChange_keeps (s : State) (from_ : Nat) (dest : Mode) :
    (State.writeModeChange s from_ dest).pending = s.pending ∧
    (State.writeModeChange s from_ dest).free = s.free ∧
    (State.writeModeChange s from_ dest).power = s.power ∧
    (State.writeModeChange s from_ dest).time = s.time ∧
    (State.writeModeChange s from_ dest).fuses = s.fuses ∧
    (State.writeModeChange s from_ dest).straps = s.straps ∧
    (State.writeModeChange s from_ dest).port = s.port ∧
    (State.writeModeChange s from_ dest).spill = s.spill ∧
    (State.writeModeChange s from_ dest).red = s.red ∧
    (State.writeModeChange s from_ dest).mot = s.mot ∧
    (State.writeModeChange s from_ dest).prod = s.prod ∧
    (State.writeModeChange s from_ dest).fe = s.fe ∧
    (State.writeModeChange s from_ dest).roads = s.roads ∧
    (State.writeModeChange s from_ dest).up = s.up ∧
    (State.writeModeChange s from_ dest).hs = s.hs ∧
    (State.writeModeChange s from_ dest).tw = s.tw ∧
    (State.writeModeChange s from_ dest).attn = s.attn ∧
    (State.writeModeChange s from_ dest).clients = s.clients ∧
    (State.writeModeChange s from_ dest).locks = s.locks ∧
    (State.writeModeChange s from_ dest).pin = s.pin ∧
    (State.writeModeChange s from_ dest).age = s.age ∧
    (State.writeModeChange s from_ dest).tap = s.tap := by
  unfold State.writeModeChange
  and_intros <;>
    ((try simp) <;> (try (repeat' split)) <;> (try simp))

@[simp] theorem State.modePads_keeps (s : State) (m : Mode) :
    (State.modePads s m).pending = s.pending ∧
    (State.modePads s m).free = s.free ∧
    (State.modePads s m).time = s.time ∧
    (State.modePads s m).fuses = s.fuses ∧
    (State.modePads s m).straps = s.straps ∧
    (State.modePads s m).port = s.port ∧
    (State.modePads s m).cw = s.cw ∧
    (State.modePads s m).spill = s.spill ∧
    (State.modePads s m).red = s.red ∧
    (State.modePads s m).mot = s.mot ∧
    (State.modePads s m).prod = s.prod ∧
    (State.modePads s m).way = s.way ∧
    (State.modePads s m).fe = s.fe ∧
    (State.modePads s m).roads = s.roads ∧
    (State.modePads s m).up = s.up ∧
    (State.modePads s m).hs = s.hs ∧
    (State.modePads s m).tw = s.tw ∧
    (State.modePads s m).attn = s.attn ∧
    (State.modePads s m).clients = s.clients ∧
    (State.modePads s m).locks = s.locks ∧
    (State.modePads s m).pin = s.pin ∧
    (State.modePads s m).age = s.age ∧
    (State.modePads s m).tap = s.tap ∧
    (State.modePads s m).power.mode = s.power.mode := by
  unfold State.modePads
  and_intros <;>
    ((try simp) <;> (try (repeat' split)) <;> (try simp))

@[simp] theorem State.setMode_keeps (s : State) (m : Mode) :
    (State.setMode s m).pending = s.pending ∧
    (State.setMode s m).free = s.free ∧
    (State.setMode s m).time = s.time ∧
    (State.setMode s m).fuses = s.fuses ∧
    (State.setMode s m).straps = s.straps ∧
    (State.setMode s m).port = s.port ∧
    (State.setMode s m).cw = s.cw ∧
    (State.setMode s m).red = s.red ∧
    (State.setMode s m).mot = s.mot ∧
    (State.setMode s m).prod = s.prod ∧
    (State.setMode s m).way = s.way ∧
    (State.setMode s m).fe = s.fe ∧
    (State.setMode s m).roads = s.roads ∧
    (State.setMode s m).up = s.up ∧
    (State.setMode s m).hs = s.hs ∧
    (State.setMode s m).tw = s.tw ∧
    (State.setMode s m).attn = s.attn ∧
    (State.setMode s m).clients = s.clients ∧
    (State.setMode s m).locks = s.locks ∧
    (State.setMode s m).pin = s.pin ∧
    (State.setMode s m).age = s.age ∧
    (State.setMode s m).tap = s.tap := by
  unfold State.setMode
  and_intros <;>
    ((try simp) <;> (try (repeat' split)) <;> (try simp))

@[simp] theorem State.stopProducts_keeps (s : State) (im : Image) (sel : Nat → Bool) (names : Bool) :
    (State.stopProducts s im sel names).pending = s.pending ∧
    (State.stopProducts s im sel names).free = s.free ∧
    (State.stopProducts s im sel names).power = s.power ∧
    (State.stopProducts s im sel names).time = s.time ∧
    (State.stopProducts s im sel names).fuses = s.fuses ∧
    (State.stopProducts s im sel names).straps = s.straps ∧
    (State.stopProducts s im sel names).port = s.port ∧
    (State.stopProducts s im sel names).spill = s.spill ∧
    (State.stopProducts s im sel names).red = s.red ∧
    (State.stopProducts s im sel names).mot = s.mot ∧
    (State.stopProducts s im sel names).prod = s.prod ∧
    (State.stopProducts s im sel names).fe = s.fe ∧
    (State.stopProducts s im sel names).roads = s.roads ∧
    (State.stopProducts s im sel names).up = s.up ∧
    (State.stopProducts s im sel names).hs = s.hs ∧
    (State.stopProducts s im sel names).tw = s.tw ∧
    (State.stopProducts s im sel names).attn = s.attn ∧
    (State.stopProducts s im sel names).clients = s.clients ∧
    (State.stopProducts s im sel names).locks = s.locks ∧
    (State.stopProducts s im sel names).pin = s.pin ∧
    (State.stopProducts s im sel names).age = s.age ∧
    (State.stopProducts s im sel names).tap = s.tap := by
  unfold State.stopProducts
  and_intros <;>
    ((try simp) <;> (try (repeat' split)) <;> (try simp))

@[simp] theorem State.footpathStops_keeps (s : State) (im : Image) :
    (State.footpathStops s im).pending = s.pending ∧
    (State.footpathStops s im).free = s.free ∧
    (State.footpathStops s im).power = s.power ∧
    (State.footpathStops s im).time = s.time ∧
    (State.footpathStops s im).fuses = s.fuses ∧
    (State.footpathStops s im).straps = s.straps ∧
    (State.footpathStops s im).port = s.port ∧
    (State.footpathStops s im).spill = s.spill ∧
    (State.footpathStops s im).red = s.red ∧
    (State.footpathStops s im).mot = s.mot ∧
    (State.footpathStops s im).prod = s.prod ∧
    (State.footpathStops s im).fe = s.fe ∧
    (State.footpathStops s im).roads = s.roads ∧
    (State.footpathStops s im).up = s.up ∧
    (State.footpathStops s im).hs = s.hs ∧
    (State.footpathStops s im).tw = s.tw ∧
    (State.footpathStops s im).attn = s.attn ∧
    (State.footpathStops s im).clients = s.clients ∧
    (State.footpathStops s im).locks = s.locks ∧
    (State.footpathStops s im).pin = s.pin ∧
    (State.footpathStops s im).age = s.age ∧
    (State.footpathStops s im).tap = s.tap := by
  unfold State.footpathStops
  and_intros <;>
    ((try simp) <;> (try (repeat' split)) <;> (try simp))

@[simp] theorem State.footpathResumes_keeps (s : State) (im : Image) :
    (State.footpathResumes s im).pending = s.pending ∧
    (State.footpathResumes s im).free = s.free ∧
    (State.footpathResumes s im).power = s.power ∧
    (State.footpathResumes s im).time = s.time ∧
    (State.footpathResumes s im).fuses = s.fuses ∧
    (State.footpathResumes s im).straps = s.straps ∧
    (State.footpathResumes s im).port = s.port ∧
    (State.footpathResumes s im).spill = s.spill ∧
    (State.footpathResumes s im).red = s.red ∧
    (State.footpathResumes s im).mot = s.mot ∧
    (State.footpathResumes s im).prod = s.prod ∧
    (State.footpathResumes s im).fe = s.fe ∧
    (State.footpathResumes s im).roads = s.roads ∧
    (State.footpathResumes s im).up = s.up ∧
    (State.footpathResumes s im).hs = s.hs ∧
    (State.footpathResumes s im).tw = s.tw ∧
    (State.footpathResumes s im).attn = s.attn ∧
    (State.footpathResumes s im).clients = s.clients ∧
    (State.footpathResumes s im).locks = s.locks ∧
    (State.footpathResumes s im).pin = s.pin ∧
    (State.footpathResumes s im).age = s.age ∧
    (State.footpathResumes s im).tap = s.tap := by
  unfold State.footpathResumes
  and_intros <;>
    ((try simp) <;> (try (repeat' split)) <;> (try simp))

@[simp] theorem State.abandonWork_keeps (s : State) (typ cause : Nat) :
    (State.abandonWork s typ cause).pending = s.pending ∧
    (State.abandonWork s typ cause).free = s.free ∧
    (State.abandonWork s typ cause).power = s.power ∧
    (State.abandonWork s typ cause).time = s.time ∧
    (State.abandonWork s typ cause).fuses = s.fuses ∧
    (State.abandonWork s typ cause).straps = s.straps ∧
    (State.abandonWork s typ cause).port = s.port ∧
    (State.abandonWork s typ cause).cw = s.cw ∧
    (State.abandonWork s typ cause).spill = s.spill ∧
    (State.abandonWork s typ cause).red = s.red ∧
    (State.abandonWork s typ cause).mot = s.mot ∧
    (State.abandonWork s typ cause).prod = s.prod ∧
    (State.abandonWork s typ cause).way = s.way ∧
    (State.abandonWork s typ cause).fe = s.fe ∧
    (State.abandonWork s typ cause).roads = s.roads ∧
    (State.abandonWork s typ cause).up = s.up ∧
    (State.abandonWork s typ cause).hs = s.hs ∧
    (State.abandonWork s typ cause).tw = s.tw ∧
    (State.abandonWork s typ cause).attn = s.attn ∧
    (State.abandonWork s typ cause).locks = s.locks ∧
    (State.abandonWork s typ cause).pin = s.pin ∧
    (State.abandonWork s typ cause).age = s.age ∧
    (State.abandonWork s typ cause).tap = s.tap := by
  unfold State.abandonWork
  and_intros <;>
    ((try simp) <;> (try (repeat' split)) <;> (try simp))

@[simp] theorem State_abandonPends_pending (s : State) (sel : Nat → Bool) (cause : Nat) : (s.abandonPends sel cause).pending = s.pending := by
  unfold State.abandonPends
  refine foldl_keep (fun s : State => s.pending) _ ?_ _ _
  intro b a
  split <;> simp

@[simp] theorem State_abandonPends_free (s : State) (sel : Nat → Bool) (cause : Nat) : (s.abandonPends sel cause).free = s.free := by
  unfold State.abandonPends
  refine foldl_keep (fun s : State => s.free) _ ?_ _ _
  intro b a
  split <;> simp

@[simp] theorem State_abandonPends_power (s : State) (sel : Nat → Bool) (cause : Nat) : (s.abandonPends sel cause).power = s.power := by
  unfold State.abandonPends
  refine foldl_keep (fun s : State => s.power) _ ?_ _ _
  intro b a
  split <;> simp

@[simp] theorem State_abandonPends_time (s : State) (sel : Nat → Bool) (cause : Nat) : (s.abandonPends sel cause).time = s.time := by
  unfold State.abandonPends
  refine foldl_keep (fun s : State => s.time) _ ?_ _ _
  intro b a
  split <;> simp

@[simp] theorem State_abandonPends_fuses (s : State) (sel : Nat → Bool) (cause : Nat) : (s.abandonPends sel cause).fuses = s.fuses := by
  unfold State.abandonPends
  refine foldl_keep (fun s : State => s.fuses) _ ?_ _ _
  intro b a
  split <;> simp

@[simp] theorem State_abandonPends_straps (s : State) (sel : Nat → Bool) (cause : Nat) : (s.abandonPends sel cause).straps = s.straps := by
  unfold State.abandonPends
  refine foldl_keep (fun s : State => s.straps) _ ?_ _ _
  intro b a
  split <;> simp

@[simp] theorem State_abandonPends_port (s : State) (sel : Nat → Bool) (cause : Nat) : (s.abandonPends sel cause).port = s.port := by
  unfold State.abandonPends
  refine foldl_keep (fun s : State => s.port) _ ?_ _ _
  intro b a
  split <;> simp

@[simp] theorem State_abandonPends_spill (s : State) (sel : Nat → Bool) (cause : Nat) : (s.abandonPends sel cause).spill = s.spill := by
  unfold State.abandonPends
  refine foldl_keep (fun s : State => s.spill) _ ?_ _ _
  intro b a
  split <;> simp

@[simp] theorem State_abandonPends_red (s : State) (sel : Nat → Bool) (cause : Nat) : (s.abandonPends sel cause).red = s.red := by
  unfold State.abandonPends
  refine foldl_keep (fun s : State => s.red) _ ?_ _ _
  intro b a
  split <;> simp

@[simp] theorem State_abandonPends_mot (s : State) (sel : Nat → Bool) (cause : Nat) : (s.abandonPends sel cause).mot = s.mot := by
  unfold State.abandonPends
  refine foldl_keep (fun s : State => s.mot) _ ?_ _ _
  intro b a
  split <;> simp

@[simp] theorem State_abandonPends_prod (s : State) (sel : Nat → Bool) (cause : Nat) : (s.abandonPends sel cause).prod = s.prod := by
  unfold State.abandonPends
  refine foldl_keep (fun s : State => s.prod) _ ?_ _ _
  intro b a
  split <;> simp

@[simp] theorem State_abandonPends_way (s : State) (sel : Nat → Bool) (cause : Nat) : (s.abandonPends sel cause).way = s.way := by
  unfold State.abandonPends
  refine foldl_keep (fun s : State => s.way) _ ?_ _ _
  intro b a
  split <;> simp

@[simp] theorem State_abandonPends_fe (s : State) (sel : Nat → Bool) (cause : Nat) : (s.abandonPends sel cause).fe = s.fe := by
  unfold State.abandonPends
  refine foldl_keep (fun s : State => s.fe) _ ?_ _ _
  intro b a
  split <;> simp

@[simp] theorem State_abandonPends_roads (s : State) (sel : Nat → Bool) (cause : Nat) : (s.abandonPends sel cause).roads = s.roads := by
  unfold State.abandonPends
  refine foldl_keep (fun s : State => s.roads) _ ?_ _ _
  intro b a
  split <;> simp

@[simp] theorem State_abandonPends_up (s : State) (sel : Nat → Bool) (cause : Nat) : (s.abandonPends sel cause).up = s.up := by
  unfold State.abandonPends
  refine foldl_keep (fun s : State => s.up) _ ?_ _ _
  intro b a
  split <;> simp

@[simp] theorem State_abandonPends_hs (s : State) (sel : Nat → Bool) (cause : Nat) : (s.abandonPends sel cause).hs = s.hs := by
  unfold State.abandonPends
  refine foldl_keep (fun s : State => s.hs) _ ?_ _ _
  intro b a
  split <;> simp

@[simp] theorem State_abandonPends_tw (s : State) (sel : Nat → Bool) (cause : Nat) : (s.abandonPends sel cause).tw = s.tw := by
  unfold State.abandonPends
  refine foldl_keep (fun s : State => s.tw) _ ?_ _ _
  intro b a
  split <;> simp

@[simp] theorem State_abandonPends_attn (s : State) (sel : Nat → Bool) (cause : Nat) : (s.abandonPends sel cause).attn = s.attn := by
  unfold State.abandonPends
  refine foldl_keep (fun s : State => s.attn) _ ?_ _ _
  intro b a
  split <;> simp

@[simp] theorem State_abandonPends_locks (s : State) (sel : Nat → Bool) (cause : Nat) : (s.abandonPends sel cause).locks = s.locks := by
  unfold State.abandonPends
  refine foldl_keep (fun s : State => s.locks) _ ?_ _ _
  intro b a
  split <;> simp

@[simp] theorem State_abandonPends_pin (s : State) (sel : Nat → Bool) (cause : Nat) : (s.abandonPends sel cause).pin = s.pin := by
  unfold State.abandonPends
  refine foldl_keep (fun s : State => s.pin) _ ?_ _ _
  intro b a
  split <;> simp

@[simp] theorem State_abandonPends_age (s : State) (sel : Nat → Bool) (cause : Nat) : (s.abandonPends sel cause).age = s.age := by
  unfold State.abandonPends
  refine foldl_keep (fun s : State => s.age) _ ?_ _ _
  intro b a
  split <;> simp

@[simp] theorem State_abandonPends_tap (s : State) (sel : Nat → Bool) (cause : Nat) : (s.abandonPends sel cause).tap = s.tap := by
  unfold State.abandonPends
  refine foldl_keep (fun s : State => s.tap) _ ?_ _ _
  intro b a
  split <;> simp

@[simp] theorem State.fallAbandon_keeps (s : State) :
    (State.fallAbandon s).pending = s.pending ∧
    (State.fallAbandon s).free = s.free ∧
    (State.fallAbandon s).time = s.time ∧
    (State.fallAbandon s).fuses = s.fuses ∧
    (State.fallAbandon s).straps = s.straps ∧
    (State.fallAbandon s).spill = s.spill ∧
    (State.fallAbandon s).red = s.red ∧
    (State.fallAbandon s).mot = s.mot ∧
    (State.fallAbandon s).prod = s.prod ∧
    (State.fallAbandon s).fe = s.fe ∧
    (State.fallAbandon s).up = s.up ∧
    (State.fallAbandon s).hs = s.hs ∧
    (State.fallAbandon s).tw = s.tw ∧
    (State.fallAbandon s).attn = s.attn ∧
    (State.fallAbandon s).locks = s.locks ∧
    (State.fallAbandon s).pin = s.pin ∧
    (State.fallAbandon s).age = s.age ∧
    (State.fallAbandon s).tap = s.tap ∧
    (State.fallAbandon s).port.inForce = s.port.inForce ∧
    (State.fallAbandon s).power.mode = s.power.mode := by
  unfold State.fallAbandon
  and_intros <;>
    ((try simp) <;> (try (repeat' split)) <;> (try simp))

@[simp] theorem State.enterRing_keeps (s : State) :
    (State.enterRing s).pending = s.pending ∧
    (State.enterRing s).free = s.free ∧
    (State.enterRing s).power = s.power ∧
    (State.enterRing s).time = s.time ∧
    (State.enterRing s).fuses = s.fuses ∧
    (State.enterRing s).straps = s.straps ∧
    (State.enterRing s).port = s.port ∧
    (State.enterRing s).spill = s.spill ∧
    (State.enterRing s).red = s.red ∧
    (State.enterRing s).mot = s.mot ∧
    (State.enterRing s).prod = s.prod ∧
    (State.enterRing s).way = s.way ∧
    (State.enterRing s).fe = s.fe ∧
    (State.enterRing s).roads = s.roads ∧
    (State.enterRing s).up = s.up ∧
    (State.enterRing s).hs = s.hs ∧
    (State.enterRing s).tw = s.tw ∧
    (State.enterRing s).attn = s.attn ∧
    (State.enterRing s).clients = s.clients ∧
    (State.enterRing s).locks = s.locks ∧
    (State.enterRing s).pin = s.pin ∧
    (State.enterRing s).age = s.age ∧
    (State.enterRing s).tap = s.tap := by
  unfold State.enterRing
  and_intros <;>
    ((try simp) <;> (try (repeat' split)) <;> (try simp))

@[simp] theorem State.pauseJobs_keeps (s : State) :
    (State.pauseJobs s).pending = s.pending ∧
    (State.pauseJobs s).free = s.free ∧
    (State.pauseJobs s).power = s.power ∧
    (State.pauseJobs s).time = s.time ∧
    (State.pauseJobs s).fuses = s.fuses ∧
    (State.pauseJobs s).straps = s.straps ∧
    (State.pauseJobs s).port = s.port ∧
    (State.pauseJobs s).cw = s.cw ∧
    (State.pauseJobs s).spill = s.spill ∧
    (State.pauseJobs s).mot = s.mot ∧
    (State.pauseJobs s).prod = s.prod ∧
    (State.pauseJobs s).way = s.way ∧
    (State.pauseJobs s).fe = s.fe ∧
    (State.pauseJobs s).roads = s.roads ∧
    (State.pauseJobs s).up = s.up ∧
    (State.pauseJobs s).hs = s.hs ∧
    (State.pauseJobs s).tw = s.tw ∧
    (State.pauseJobs s).attn = s.attn ∧
    (State.pauseJobs s).clients = s.clients ∧
    (State.pauseJobs s).locks = s.locks ∧
    (State.pauseJobs s).pin = s.pin ∧
    (State.pauseJobs s).age = s.age ∧
    (State.pauseJobs s).tap = s.tap := by
  unfold State.pauseJobs
  and_intros <;>
    ((try simp) <;> (try (repeat' split)) <;> (try simp))

@[simp] theorem State.stopRoads_keeps (s : State) (cause : Nat) :
    (State.stopRoads s cause).pending = s.pending ∧
    (State.stopRoads s cause).free = s.free ∧
    (State.stopRoads s cause).power = s.power ∧
    (State.stopRoads s cause).time = s.time ∧
    (State.stopRoads s cause).fuses = s.fuses ∧
    (State.stopRoads s cause).straps = s.straps ∧
    (State.stopRoads s cause).port = s.port ∧
    (State.stopRoads s cause).spill = s.spill ∧
    (State.stopRoads s cause).red = s.red ∧
    (State.stopRoads s cause).mot = s.mot ∧
    (State.stopRoads s cause).prod = s.prod ∧
    (State.stopRoads s cause).fe = s.fe ∧
    (State.stopRoads s cause).up = s.up ∧
    (State.stopRoads s cause).hs = s.hs ∧
    (State.stopRoads s cause).tw = s.tw ∧
    (State.stopRoads s cause).attn = s.attn ∧
    (State.stopRoads s cause).clients = s.clients ∧
    (State.stopRoads s cause).locks = s.locks ∧
    (State.stopRoads s cause).pin = s.pin ∧
    (State.stopRoads s cause).age = s.age ∧
    (State.stopRoads s cause).tap = s.tap := by
  unfold State.stopRoads
  and_intros <;>
    ((try simp) <;> (try (repeat' split)) <;> (try simp))

@[simp] theorem State.powerFor_keeps (s : State) (m : Mode) :
    (State.powerFor s m).pending = s.pending ∧
    (State.powerFor s m).free = s.free ∧
    (State.powerFor s m).power = s.power ∧
    (State.powerFor s m).time = s.time ∧
    (State.powerFor s m).fuses = s.fuses ∧
    (State.powerFor s m).straps = s.straps ∧
    (State.powerFor s m).port = s.port ∧
    (State.powerFor s m).cw = s.cw ∧
    (State.powerFor s m).spill = s.spill ∧
    (State.powerFor s m).red = s.red ∧
    (State.powerFor s m).prod = s.prod ∧
    (State.powerFor s m).way = s.way ∧
    (State.powerFor s m).fe = s.fe ∧
    (State.powerFor s m).roads = s.roads ∧
    (State.powerFor s m).up = s.up ∧
    (State.powerFor s m).hs = s.hs ∧
    (State.powerFor s m).tw = s.tw ∧
    (State.powerFor s m).attn = s.attn ∧
    (State.powerFor s m).clients = s.clients ∧
    (State.powerFor s m).locks = s.locks ∧
    (State.powerFor s m).pin = s.pin ∧
    (State.powerFor s m).age = s.age ∧
    (State.powerFor s m).tap = s.tap := by
  unfold State.powerFor
  and_intros <;>
    ((try simp) <;> (try (repeat' split)) <;> (try simp))

@[simp] theorem State.toFootpath_keeps (s : State) :
    (State.toFootpath s).pending = s.pending ∧
    (State.toFootpath s).free = s.free ∧
    (State.toFootpath s).time = s.time ∧
    (State.toFootpath s).fuses = s.fuses ∧
    (State.toFootpath s).straps = s.straps ∧
    (State.toFootpath s).hs = s.hs ∧
    (State.toFootpath s).tw = s.tw ∧
    (State.toFootpath s).locks = s.locks ∧
    (State.toFootpath s).age = s.age ∧
    (State.toFootpath s).tap = s.tap ∧
    (State.toFootpath s).port.inForce = s.port.inForce := by
  unfold State.toFootpath
  and_intros <;>
    ((try simp) <;> (try (repeat' split)) <;> (try simp))

theorem copyOne_pending (x : State × List Packet × Option Word) (p : Packet) : (State.copyOne x p).1.pending = x.1.pending := by
  unfold State.copyOne
  (repeat' split) <;> simp


theorem copyFold_pending (l : List Packet) (x : State × List Packet × Option Word) : (l.foldl State.copyOne x).1.pending = x.1.pending :=
  foldl_keep (fun x : State × List Packet × Option Word => x.1.pending) _ copyOne_pending l x


@[simp] theorem State_copyRing_pending (s : State) (all : Option Word) : (s.copyRing all).pending = s.pending := by
  unfold State.copyRing
  dsimp only
  split
  · rfl
  · have h := copyFold_pending s.cw.ring (s, [], none)
    generalize s.cw.ring.foldl State.copyOne (s, [], none) = y at *
    obtain ⟨t, ring, first⟩ := y
    simpa using h

theorem copyOne_free (x : State × List Packet × Option Word) (p : Packet) : (State.copyOne x p).1.free = x.1.free := by
  unfold State.copyOne
  (repeat' split) <;> simp


theorem copyFold_free (l : List Packet) (x : State × List Packet × Option Word) : (l.foldl State.copyOne x).1.free = x.1.free :=
  foldl_keep (fun x : State × List Packet × Option Word => x.1.free) _ copyOne_free l x


@[simp] theorem State_copyRing_free (s : State) (all : Option Word) : (s.copyRing all).free = s.free := by
  unfold State.copyRing
  dsimp only
  split
  · rfl
  · have h := copyFold_free s.cw.ring (s, [], none)
    generalize s.cw.ring.foldl State.copyOne (s, [], none) = y at *
    obtain ⟨t, ring, first⟩ := y
    simpa using h

theorem copyOne_power (x : State × List Packet × Option Word) (p : Packet) : (State.copyOne x p).1.power = x.1.power := by
  unfold State.copyOne
  (repeat' split) <;> simp


theorem copyFold_power (l : List Packet) (x : State × List Packet × Option Word) : (l.foldl State.copyOne x).1.power = x.1.power :=
  foldl_keep (fun x : State × List Packet × Option Word => x.1.power) _ copyOne_power l x


@[simp] theorem State_copyRing_power (s : State) (all : Option Word) : (s.copyRing all).power = s.power := by
  unfold State.copyRing
  dsimp only
  split
  · rfl
  · have h := copyFold_power s.cw.ring (s, [], none)
    generalize s.cw.ring.foldl State.copyOne (s, [], none) = y at *
    obtain ⟨t, ring, first⟩ := y
    simpa using h

theorem copyOne_time (x : State × List Packet × Option Word) (p : Packet) : (State.copyOne x p).1.time = x.1.time := by
  unfold State.copyOne
  (repeat' split) <;> simp


theorem copyFold_time (l : List Packet) (x : State × List Packet × Option Word) : (l.foldl State.copyOne x).1.time = x.1.time :=
  foldl_keep (fun x : State × List Packet × Option Word => x.1.time) _ copyOne_time l x


@[simp] theorem State_copyRing_time (s : State) (all : Option Word) : (s.copyRing all).time = s.time := by
  unfold State.copyRing
  dsimp only
  split
  · rfl
  · have h := copyFold_time s.cw.ring (s, [], none)
    generalize s.cw.ring.foldl State.copyOne (s, [], none) = y at *
    obtain ⟨t, ring, first⟩ := y
    simpa using h

theorem copyOne_fuses (x : State × List Packet × Option Word) (p : Packet) : (State.copyOne x p).1.fuses = x.1.fuses := by
  unfold State.copyOne
  (repeat' split) <;> simp


theorem copyFold_fuses (l : List Packet) (x : State × List Packet × Option Word) : (l.foldl State.copyOne x).1.fuses = x.1.fuses :=
  foldl_keep (fun x : State × List Packet × Option Word => x.1.fuses) _ copyOne_fuses l x


@[simp] theorem State_copyRing_fuses (s : State) (all : Option Word) : (s.copyRing all).fuses = s.fuses := by
  unfold State.copyRing
  dsimp only
  split
  · rfl
  · have h := copyFold_fuses s.cw.ring (s, [], none)
    generalize s.cw.ring.foldl State.copyOne (s, [], none) = y at *
    obtain ⟨t, ring, first⟩ := y
    simpa using h

theorem copyOne_straps (x : State × List Packet × Option Word) (p : Packet) : (State.copyOne x p).1.straps = x.1.straps := by
  unfold State.copyOne
  (repeat' split) <;> simp


theorem copyFold_straps (l : List Packet) (x : State × List Packet × Option Word) : (l.foldl State.copyOne x).1.straps = x.1.straps :=
  foldl_keep (fun x : State × List Packet × Option Word => x.1.straps) _ copyOne_straps l x


@[simp] theorem State_copyRing_straps (s : State) (all : Option Word) : (s.copyRing all).straps = s.straps := by
  unfold State.copyRing
  dsimp only
  split
  · rfl
  · have h := copyFold_straps s.cw.ring (s, [], none)
    generalize s.cw.ring.foldl State.copyOne (s, [], none) = y at *
    obtain ⟨t, ring, first⟩ := y
    simpa using h

theorem copyOne_port (x : State × List Packet × Option Word) (p : Packet) : (State.copyOne x p).1.port = x.1.port := by
  unfold State.copyOne
  (repeat' split) <;> simp


theorem copyFold_port (l : List Packet) (x : State × List Packet × Option Word) : (l.foldl State.copyOne x).1.port = x.1.port :=
  foldl_keep (fun x : State × List Packet × Option Word => x.1.port) _ copyOne_port l x


@[simp] theorem State_copyRing_port (s : State) (all : Option Word) : (s.copyRing all).port = s.port := by
  unfold State.copyRing
  dsimp only
  split
  · rfl
  · have h := copyFold_port s.cw.ring (s, [], none)
    generalize s.cw.ring.foldl State.copyOne (s, [], none) = y at *
    obtain ⟨t, ring, first⟩ := y
    simpa using h

theorem copyOne_spill (x : State × List Packet × Option Word) (p : Packet) : (State.copyOne x p).1.spill = x.1.spill := by
  unfold State.copyOne
  (repeat' split) <;> simp


theorem copyFold_spill (l : List Packet) (x : State × List Packet × Option Word) : (l.foldl State.copyOne x).1.spill = x.1.spill :=
  foldl_keep (fun x : State × List Packet × Option Word => x.1.spill) _ copyOne_spill l x


@[simp] theorem State_copyRing_spill (s : State) (all : Option Word) : (s.copyRing all).spill = s.spill := by
  unfold State.copyRing
  dsimp only
  split
  · rfl
  · have h := copyFold_spill s.cw.ring (s, [], none)
    generalize s.cw.ring.foldl State.copyOne (s, [], none) = y at *
    obtain ⟨t, ring, first⟩ := y
    simpa using h

theorem copyOne_red (x : State × List Packet × Option Word) (p : Packet) : (State.copyOne x p).1.red = x.1.red := by
  unfold State.copyOne
  (repeat' split) <;> simp


theorem copyFold_red (l : List Packet) (x : State × List Packet × Option Word) : (l.foldl State.copyOne x).1.red = x.1.red :=
  foldl_keep (fun x : State × List Packet × Option Word => x.1.red) _ copyOne_red l x


@[simp] theorem State_copyRing_red (s : State) (all : Option Word) : (s.copyRing all).red = s.red := by
  unfold State.copyRing
  dsimp only
  split
  · rfl
  · have h := copyFold_red s.cw.ring (s, [], none)
    generalize s.cw.ring.foldl State.copyOne (s, [], none) = y at *
    obtain ⟨t, ring, first⟩ := y
    simpa using h

theorem copyOne_mot (x : State × List Packet × Option Word) (p : Packet) : (State.copyOne x p).1.mot = x.1.mot := by
  unfold State.copyOne
  (repeat' split) <;> simp


theorem copyFold_mot (l : List Packet) (x : State × List Packet × Option Word) : (l.foldl State.copyOne x).1.mot = x.1.mot :=
  foldl_keep (fun x : State × List Packet × Option Word => x.1.mot) _ copyOne_mot l x


@[simp] theorem State_copyRing_mot (s : State) (all : Option Word) : (s.copyRing all).mot = s.mot := by
  unfold State.copyRing
  dsimp only
  split
  · rfl
  · have h := copyFold_mot s.cw.ring (s, [], none)
    generalize s.cw.ring.foldl State.copyOne (s, [], none) = y at *
    obtain ⟨t, ring, first⟩ := y
    simpa using h

theorem copyOne_prod (x : State × List Packet × Option Word) (p : Packet) : (State.copyOne x p).1.prod = x.1.prod := by
  unfold State.copyOne
  (repeat' split) <;> simp


theorem copyFold_prod (l : List Packet) (x : State × List Packet × Option Word) : (l.foldl State.copyOne x).1.prod = x.1.prod :=
  foldl_keep (fun x : State × List Packet × Option Word => x.1.prod) _ copyOne_prod l x


@[simp] theorem State_copyRing_prod (s : State) (all : Option Word) : (s.copyRing all).prod = s.prod := by
  unfold State.copyRing
  dsimp only
  split
  · rfl
  · have h := copyFold_prod s.cw.ring (s, [], none)
    generalize s.cw.ring.foldl State.copyOne (s, [], none) = y at *
    obtain ⟨t, ring, first⟩ := y
    simpa using h

theorem copyOne_fe (x : State × List Packet × Option Word) (p : Packet) : (State.copyOne x p).1.fe = x.1.fe := by
  unfold State.copyOne
  (repeat' split) <;> simp


theorem copyFold_fe (l : List Packet) (x : State × List Packet × Option Word) : (l.foldl State.copyOne x).1.fe = x.1.fe :=
  foldl_keep (fun x : State × List Packet × Option Word => x.1.fe) _ copyOne_fe l x


@[simp] theorem State_copyRing_fe (s : State) (all : Option Word) : (s.copyRing all).fe = s.fe := by
  unfold State.copyRing
  dsimp only
  split
  · rfl
  · have h := copyFold_fe s.cw.ring (s, [], none)
    generalize s.cw.ring.foldl State.copyOne (s, [], none) = y at *
    obtain ⟨t, ring, first⟩ := y
    simpa using h

theorem copyOne_roads (x : State × List Packet × Option Word) (p : Packet) : (State.copyOne x p).1.roads = x.1.roads := by
  unfold State.copyOne
  (repeat' split) <;> simp


theorem copyFold_roads (l : List Packet) (x : State × List Packet × Option Word) : (l.foldl State.copyOne x).1.roads = x.1.roads :=
  foldl_keep (fun x : State × List Packet × Option Word => x.1.roads) _ copyOne_roads l x


@[simp] theorem State_copyRing_roads (s : State) (all : Option Word) : (s.copyRing all).roads = s.roads := by
  unfold State.copyRing
  dsimp only
  split
  · rfl
  · have h := copyFold_roads s.cw.ring (s, [], none)
    generalize s.cw.ring.foldl State.copyOne (s, [], none) = y at *
    obtain ⟨t, ring, first⟩ := y
    simpa using h

theorem copyOne_up (x : State × List Packet × Option Word) (p : Packet) : (State.copyOne x p).1.up = x.1.up := by
  unfold State.copyOne
  (repeat' split) <;> simp


theorem copyFold_up (l : List Packet) (x : State × List Packet × Option Word) : (l.foldl State.copyOne x).1.up = x.1.up :=
  foldl_keep (fun x : State × List Packet × Option Word => x.1.up) _ copyOne_up l x


@[simp] theorem State_copyRing_up (s : State) (all : Option Word) : (s.copyRing all).up = s.up := by
  unfold State.copyRing
  dsimp only
  split
  · rfl
  · have h := copyFold_up s.cw.ring (s, [], none)
    generalize s.cw.ring.foldl State.copyOne (s, [], none) = y at *
    obtain ⟨t, ring, first⟩ := y
    simpa using h

theorem copyOne_hs (x : State × List Packet × Option Word) (p : Packet) : (State.copyOne x p).1.hs = x.1.hs := by
  unfold State.copyOne
  (repeat' split) <;> simp


theorem copyFold_hs (l : List Packet) (x : State × List Packet × Option Word) : (l.foldl State.copyOne x).1.hs = x.1.hs :=
  foldl_keep (fun x : State × List Packet × Option Word => x.1.hs) _ copyOne_hs l x


@[simp] theorem State_copyRing_hs (s : State) (all : Option Word) : (s.copyRing all).hs = s.hs := by
  unfold State.copyRing
  dsimp only
  split
  · rfl
  · have h := copyFold_hs s.cw.ring (s, [], none)
    generalize s.cw.ring.foldl State.copyOne (s, [], none) = y at *
    obtain ⟨t, ring, first⟩ := y
    simpa using h

theorem copyOne_tw (x : State × List Packet × Option Word) (p : Packet) : (State.copyOne x p).1.tw = x.1.tw := by
  unfold State.copyOne
  (repeat' split) <;> simp


theorem copyFold_tw (l : List Packet) (x : State × List Packet × Option Word) : (l.foldl State.copyOne x).1.tw = x.1.tw :=
  foldl_keep (fun x : State × List Packet × Option Word => x.1.tw) _ copyOne_tw l x


@[simp] theorem State_copyRing_tw (s : State) (all : Option Word) : (s.copyRing all).tw = s.tw := by
  unfold State.copyRing
  dsimp only
  split
  · rfl
  · have h := copyFold_tw s.cw.ring (s, [], none)
    generalize s.cw.ring.foldl State.copyOne (s, [], none) = y at *
    obtain ⟨t, ring, first⟩ := y
    simpa using h

theorem copyOne_attn (x : State × List Packet × Option Word) (p : Packet) : (State.copyOne x p).1.attn = x.1.attn := by
  unfold State.copyOne
  (repeat' split) <;> simp


theorem copyFold_attn (l : List Packet) (x : State × List Packet × Option Word) : (l.foldl State.copyOne x).1.attn = x.1.attn :=
  foldl_keep (fun x : State × List Packet × Option Word => x.1.attn) _ copyOne_attn l x


@[simp] theorem State_copyRing_attn (s : State) (all : Option Word) : (s.copyRing all).attn = s.attn := by
  unfold State.copyRing
  dsimp only
  split
  · rfl
  · have h := copyFold_attn s.cw.ring (s, [], none)
    generalize s.cw.ring.foldl State.copyOne (s, [], none) = y at *
    obtain ⟨t, ring, first⟩ := y
    simpa using h

theorem copyOne_clients (x : State × List Packet × Option Word) (p : Packet) : (State.copyOne x p).1.clients = x.1.clients := by
  unfold State.copyOne
  (repeat' split) <;> simp


theorem copyFold_clients (l : List Packet) (x : State × List Packet × Option Word) : (l.foldl State.copyOne x).1.clients = x.1.clients :=
  foldl_keep (fun x : State × List Packet × Option Word => x.1.clients) _ copyOne_clients l x


@[simp] theorem State_copyRing_clients (s : State) (all : Option Word) : (s.copyRing all).clients = s.clients := by
  unfold State.copyRing
  dsimp only
  split
  · rfl
  · have h := copyFold_clients s.cw.ring (s, [], none)
    generalize s.cw.ring.foldl State.copyOne (s, [], none) = y at *
    obtain ⟨t, ring, first⟩ := y
    simpa using h

theorem copyOne_locks (x : State × List Packet × Option Word) (p : Packet) : (State.copyOne x p).1.locks = x.1.locks := by
  unfold State.copyOne
  (repeat' split) <;> simp


theorem copyFold_locks (l : List Packet) (x : State × List Packet × Option Word) : (l.foldl State.copyOne x).1.locks = x.1.locks :=
  foldl_keep (fun x : State × List Packet × Option Word => x.1.locks) _ copyOne_locks l x


@[simp] theorem State_copyRing_locks (s : State) (all : Option Word) : (s.copyRing all).locks = s.locks := by
  unfold State.copyRing
  dsimp only
  split
  · rfl
  · have h := copyFold_locks s.cw.ring (s, [], none)
    generalize s.cw.ring.foldl State.copyOne (s, [], none) = y at *
    obtain ⟨t, ring, first⟩ := y
    simpa using h

theorem copyOne_pin (x : State × List Packet × Option Word) (p : Packet) : (State.copyOne x p).1.pin = x.1.pin := by
  unfold State.copyOne
  (repeat' split) <;> simp


theorem copyFold_pin (l : List Packet) (x : State × List Packet × Option Word) : (l.foldl State.copyOne x).1.pin = x.1.pin :=
  foldl_keep (fun x : State × List Packet × Option Word => x.1.pin) _ copyOne_pin l x


@[simp] theorem State_copyRing_pin (s : State) (all : Option Word) : (s.copyRing all).pin = s.pin := by
  unfold State.copyRing
  dsimp only
  split
  · rfl
  · have h := copyFold_pin s.cw.ring (s, [], none)
    generalize s.cw.ring.foldl State.copyOne (s, [], none) = y at *
    obtain ⟨t, ring, first⟩ := y
    simpa using h

theorem copyOne_age (x : State × List Packet × Option Word) (p : Packet) : (State.copyOne x p).1.age = x.1.age := by
  unfold State.copyOne
  (repeat' split) <;> simp


theorem copyFold_age (l : List Packet) (x : State × List Packet × Option Word) : (l.foldl State.copyOne x).1.age = x.1.age :=
  foldl_keep (fun x : State × List Packet × Option Word => x.1.age) _ copyOne_age l x


@[simp] theorem State_copyRing_age (s : State) (all : Option Word) : (s.copyRing all).age = s.age := by
  unfold State.copyRing
  dsimp only
  split
  · rfl
  · have h := copyFold_age s.cw.ring (s, [], none)
    generalize s.cw.ring.foldl State.copyOne (s, [], none) = y at *
    obtain ⟨t, ring, first⟩ := y
    simpa using h

theorem copyOne_tap (x : State × List Packet × Option Word) (p : Packet) : (State.copyOne x p).1.tap = x.1.tap := by
  unfold State.copyOne
  (repeat' split) <;> simp


theorem copyFold_tap (l : List Packet) (x : State × List Packet × Option Word) : (l.foldl State.copyOne x).1.tap = x.1.tap :=
  foldl_keep (fun x : State × List Packet × Option Word => x.1.tap) _ copyOne_tap l x


@[simp] theorem State_copyRing_tap (s : State) (all : Option Word) : (s.copyRing all).tap = s.tap := by
  unfold State.copyRing
  dsimp only
  split
  · rfl
  · have h := copyFold_tap s.cw.ring (s, [], none)
    generalize s.cw.ring.foldl State.copyOne (s, [], none) = y at *
    obtain ⟨t, ring, first⟩ := y
    simpa using h

@[simp] theorem State.fromFootpath_keeps (s : State) (dest : Mode) :
    (State.fromFootpath s dest).pending = s.pending ∧
    (State.fromFootpath s dest).free = s.free ∧
    (State.fromFootpath s dest).time = s.time ∧
    (State.fromFootpath s dest).fuses = s.fuses ∧
    (State.fromFootpath s dest).straps = s.straps ∧
    (State.fromFootpath s dest).port = s.port ∧
    (State.fromFootpath s dest).up = s.up ∧
    (State.fromFootpath s dest).hs = s.hs ∧
    (State.fromFootpath s dest).tw = s.tw ∧
    (State.fromFootpath s dest).clients = s.clients ∧
    (State.fromFootpath s dest).locks = s.locks ∧
    (State.fromFootpath s dest).pin = s.pin ∧
    (State.fromFootpath s dest).age = s.age ∧
    (State.fromFootpath s dest).tap = s.tap := by
  unfold State.fromFootpath
  and_intros <;>
    ((try simp) <;> (try (repeat' split)) <;> (try simp))

@[simp] theorem State.changeMode_keeps (s : State) (dest : Mode) :
    (State.changeMode s dest).pending = s.pending ∧
    (State.changeMode s dest).free = s.free ∧
    (State.changeMode s dest).time = s.time ∧
    (State.changeMode s dest).fuses = s.fuses ∧
    (State.changeMode s dest).straps = s.straps ∧
    (State.changeMode s dest).hs = s.hs ∧
    (State.changeMode s dest).tw = s.tw ∧
    (State.changeMode s dest).locks = s.locks ∧
    (State.changeMode s dest).age = s.age ∧
    (State.changeMode s dest).tap = s.tap ∧
    (State.changeMode s dest).port.inForce = s.port.inForce := by
  unfold State.changeMode
  and_intros <;>
    ((try simp) <;> (try (repeat' split)) <;> (try simp))

@[simp] theorem State.laybyStops_keeps (s : State) (im : Image) :
    (State.laybyStops s im).pending = s.pending ∧
    (State.laybyStops s im).free = s.free ∧
    (State.laybyStops s im).power = s.power ∧
    (State.laybyStops s im).time = s.time ∧
    (State.laybyStops s im).fuses = s.fuses ∧
    (State.laybyStops s im).straps = s.straps ∧
    (State.laybyStops s im).port = s.port ∧
    (State.laybyStops s im).spill = s.spill ∧
    (State.laybyStops s im).red = s.red ∧
    (State.laybyStops s im).mot = s.mot ∧
    (State.laybyStops s im).prod = s.prod ∧
    (State.laybyStops s im).fe = s.fe ∧
    (State.laybyStops s im).roads = s.roads ∧
    (State.laybyStops s im).up = s.up ∧
    (State.laybyStops s im).hs = s.hs ∧
    (State.laybyStops s im).tw = s.tw ∧
    (State.laybyStops s im).attn = s.attn ∧
    (State.laybyStops s im).clients = s.clients ∧
    (State.laybyStops s im).locks = s.locks ∧
    (State.laybyStops s im).pin = s.pin ∧
    (State.laybyStops s im).age = s.age ∧
    (State.laybyStops s im).tap = s.tap := by
  unfold State.laybyStops
  and_intros <;>
    ((try simp) <;> (try (repeat' split)) <;> (try simp))

@[simp] theorem State.laybyAborts_keeps (s : State) :
    (State.laybyAborts s).pending = s.pending ∧
    (State.laybyAborts s).free = s.free ∧
    (State.laybyAborts s).power = s.power ∧
    (State.laybyAborts s).fuses = s.fuses ∧
    (State.laybyAborts s).straps = s.straps ∧
    (State.laybyAborts s).port = s.port ∧
    (State.laybyAborts s).spill = s.spill ∧
    (State.laybyAborts s).red = s.red ∧
    (State.laybyAborts s).prod = s.prod ∧
    (State.laybyAborts s).way = s.way ∧
    (State.laybyAborts s).fe = s.fe ∧
    (State.laybyAborts s).roads = s.roads ∧
    (State.laybyAborts s).up = s.up ∧
    (State.laybyAborts s).hs = s.hs ∧
    (State.laybyAborts s).tw = s.tw ∧
    (State.laybyAborts s).attn = s.attn ∧
    (State.laybyAborts s).locks = s.locks ∧
    (State.laybyAborts s).pin = s.pin ∧
    (State.laybyAborts s).tap = s.tap ∧
    (State.laybyAborts s).time.gRate = s.time.gRate ∧
    (State.laybyAborts s).time.rates = s.time.rates ∧
    (State.laybyAborts s).time.gIdx = s.time.gIdx := by
  unfold State.laybyAborts
  and_intros <;>
    ((try simp) <;> (try (repeat' split)) <;> (try simp))

@[simp] theorem State.laybyClears_keeps (s : State) :
    (State.laybyClears s).pending = s.pending ∧
    (State.laybyClears s).free = s.free ∧
    (State.laybyClears s).power = s.power ∧
    (State.laybyClears s).time = s.time ∧
    (State.laybyClears s).fuses = s.fuses ∧
    (State.laybyClears s).port = s.port ∧
    (State.laybyClears s).cw = s.cw ∧
    (State.laybyClears s).red = s.red ∧
    (State.laybyClears s).mot = s.mot ∧
    (State.laybyClears s).way = s.way ∧
    (State.laybyClears s).fe = s.fe ∧
    (State.laybyClears s).roads = s.roads ∧
    (State.laybyClears s).up = s.up ∧
    (State.laybyClears s).attn = s.attn ∧
    (State.laybyClears s).clients = s.clients ∧
    (State.laybyClears s).locks = s.locks ∧
    (State.laybyClears s).pin = s.pin ∧
    (State.laybyClears s).age = s.age ∧
    (State.laybyClears s).tap = s.tap := by
  unfold State.laybyClears
  and_intros <;>
    ((try simp) <;> (try (repeat' split)) <;> (try simp))

@[simp] theorem State.enterLayby_keeps (s : State) :
    (State.enterLayby s).pending = s.pending ∧
    (State.enterLayby s).free = s.free ∧
    (State.enterLayby s).fuses = s.fuses ∧
    (State.enterLayby s).locks = s.locks ∧
    (State.enterLayby s).tap = s.tap ∧
    (State.enterLayby s).port.inForce = s.port.inForce ∧
    (State.enterLayby s).time.gRate = s.time.gRate ∧
    (State.enterLayby s).time.rates = s.time.rates ∧
    (State.enterLayby s).time.gIdx = s.time.gIdx := by
  unfold State.enterLayby
  and_intros <;>
    ((try simp) <;> (try (repeat' split)) <;> (try simp))

@[simp] theorem State.lostMileposts_keeps (s : State) :
    (State.lostMileposts s).pending = s.pending ∧
    (State.lostMileposts s).free = s.free ∧
    (State.lostMileposts s).power = s.power ∧
    (State.lostMileposts s).time = s.time ∧
    (State.lostMileposts s).fuses = s.fuses ∧
    (State.lostMileposts s).straps = s.straps ∧
    (State.lostMileposts s).port = s.port ∧
    (State.lostMileposts s).spill = s.spill ∧
    (State.lostMileposts s).red = s.red ∧
    (State.lostMileposts s).mot = s.mot ∧
    (State.lostMileposts s).prod = s.prod ∧
    (State.lostMileposts s).way = s.way ∧
    (State.lostMileposts s).fe = s.fe ∧
    (State.lostMileposts s).roads = s.roads ∧
    (State.lostMileposts s).hs = s.hs ∧
    (State.lostMileposts s).tw = s.tw ∧
    (State.lostMileposts s).attn = s.attn ∧
    (State.lostMileposts s).clients = s.clients ∧
    (State.lostMileposts s).locks = s.locks ∧
    (State.lostMileposts s).pin = s.pin ∧
    (State.lostMileposts s).age = s.age ∧
    (State.lostMileposts s).tap = s.tap := by
  unfold State.lostMileposts
  and_intros <;>
    ((try simp) <;> (try (repeat' split)) <;> (try simp))

@[simp] theorem State.lostSteward_keeps (s : State) :
    (State.lostSteward s).pending = s.pending ∧
    (State.lostSteward s).time = s.time ∧
    (State.lostSteward s).fuses = s.fuses ∧
    (State.lostSteward s).straps = s.straps ∧
    (State.lostSteward s).port = s.port ∧
    (State.lostSteward s).cw = s.cw ∧
    (State.lostSteward s).spill = s.spill ∧
    (State.lostSteward s).red = s.red ∧
    (State.lostSteward s).mot = s.mot ∧
    (State.lostSteward s).prod = s.prod ∧
    (State.lostSteward s).way = s.way ∧
    (State.lostSteward s).fe = s.fe ∧
    (State.lostSteward s).roads = s.roads ∧
    (State.lostSteward s).up = s.up ∧
    (State.lostSteward s).hs = s.hs ∧
    (State.lostSteward s).tw = s.tw ∧
    (State.lostSteward s).attn = s.attn ∧
    (State.lostSteward s).pin = s.pin ∧
    (State.lostSteward s).age = s.age ∧
    (State.lostSteward s).tap = s.tap ∧
    (State.lostSteward s).power.mode = s.power.mode := by
  unfold State.lostSteward
  and_intros <;>
    ((try simp) <;> (try (repeat' split)) <;> (try simp))

@[simp] theorem State.lostIsland_keeps (s : State) (b : Nat) :
    (State.lostIsland s b).pending = s.pending ∧
    (State.lostIsland s b).free = s.free ∧
    (State.lostIsland s b).power = s.power ∧
    (State.lostIsland s b).time = s.time ∧
    (State.lostIsland s b).fuses = s.fuses ∧
    (State.lostIsland s b).straps = s.straps ∧
    (State.lostIsland s b).port = s.port ∧
    (State.lostIsland s b).clients = s.clients ∧
    (State.lostIsland s b).locks = s.locks ∧
    (State.lostIsland s b).age = s.age ∧
    (State.lostIsland s b).tap = s.tap := by
  unfold State.lostIsland
  and_intros <;>
    ((try simp) <;> (try (repeat' split)) <;> (try simp))

@[simp] theorem State.wakeLosses_keeps (s : State) :
    (State.wakeLosses s).pending = s.pending ∧
    (State.wakeLosses s).time = s.time ∧
    (State.wakeLosses s).fuses = s.fuses ∧
    (State.wakeLosses s).straps = s.straps ∧
    (State.wakeLosses s).port = s.port ∧
    (State.wakeLosses s).age = s.age ∧
    (State.wakeLosses s).tap = s.tap ∧
    (State.wakeLosses s).power.mode = s.power.mode := by
  unfold State.wakeLosses
  and_intros <;>
    ((try simp) <;> (try (repeat' split)) <;> (try simp))

@[simp] theorem State.wakeIslands_keeps (s : State) :
    (State.wakeIslands s).pending = s.pending ∧
    (State.wakeIslands s).free = s.free ∧
    (State.wakeIslands s).time = s.time ∧
    (State.wakeIslands s).fuses = s.fuses ∧
    (State.wakeIslands s).straps = s.straps ∧
    (State.wakeIslands s).port = s.port ∧
    (State.wakeIslands s).cw = s.cw ∧
    (State.wakeIslands s).spill = s.spill ∧
    (State.wakeIslands s).red = s.red ∧
    (State.wakeIslands s).mot = s.mot ∧
    (State.wakeIslands s).prod = s.prod ∧
    (State.wakeIslands s).way = s.way ∧
    (State.wakeIslands s).fe = s.fe ∧
    (State.wakeIslands s).roads = s.roads ∧
    (State.wakeIslands s).up = s.up ∧
    (State.wakeIslands s).hs = s.hs ∧
    (State.wakeIslands s).tw = s.tw ∧
    (State.wakeIslands s).attn = s.attn ∧
    (State.wakeIslands s).clients = s.clients ∧
    (State.wakeIslands s).locks = s.locks ∧
    (State.wakeIslands s).pin = s.pin ∧
    (State.wakeIslands s).age = s.age ∧
    (State.wakeIslands s).tap = s.tap ∧
    (State.wakeIslands s).power.mode = s.power.mode := by
  unfold State.wakeIslands
  and_intros <;>
    ((try simp) <;> (try (repeat' split)) <;> (try simp))

@[simp] theorem State.startWake_keeps (s : State) (src : Nat) (chk : WakeCheck) :
    (State.startWake s src chk).pending = s.pending ∧
    (State.startWake s src chk).time = s.time ∧
    (State.startWake s src chk).fuses = s.fuses ∧
    (State.startWake s src chk).straps = s.straps ∧
    (State.startWake s src chk).port = s.port ∧
    (State.startWake s src chk).power.mode = s.power.mode := by
  unfold State.startWake
  and_intros <;>
    ((try simp) <;> (try (repeat' split)) <;> (try simp))

@[simp] theorem State.wakeSource_keeps (s : State) (src : Nat) (level : Mode) (ends : Option Nat) (chk : WakeCheck) :
    (State.wakeSource s src level ends chk).pending = s.pending ∧
    (State.wakeSource s src level ends chk).time = s.time ∧
    (State.wakeSource s src level ends chk).fuses = s.fuses ∧
    (State.wakeSource s src level ends chk).straps = s.straps ∧
    (State.wakeSource s src level ends chk).port = s.port ∧
    (State.wakeSource s src level ends chk).power.mode = s.power.mode := by
  unfold State.wakeSource
  and_intros <;>
    ((try simp) <;> (try (repeat' split)) <;> (try simp))

@[simp] theorem State.wakeResumes_keeps (s : State) (im : Image) :
    (State.wakeResumes s im).pending = s.pending ∧
    (State.wakeResumes s im).free = s.free ∧
    (State.wakeResumes s im).power = s.power ∧
    (State.wakeResumes s im).time = s.time ∧
    (State.wakeResumes s im).fuses = s.fuses ∧
    (State.wakeResumes s im).straps = s.straps ∧
    (State.wakeResumes s im).port = s.port ∧
    (State.wakeResumes s im).spill = s.spill ∧
    (State.wakeResumes s im).red = s.red ∧
    (State.wakeResumes s im).mot = s.mot ∧
    (State.wakeResumes s im).prod = s.prod ∧
    (State.wakeResumes s im).fe = s.fe ∧
    (State.wakeResumes s im).roads = s.roads ∧
    (State.wakeResumes s im).up = s.up ∧
    (State.wakeResumes s im).hs = s.hs ∧
    (State.wakeResumes s im).tw = s.tw ∧
    (State.wakeResumes s im).attn = s.attn ∧
    (State.wakeResumes s im).clients = s.clients ∧
    (State.wakeResumes s im).locks = s.locks ∧
    (State.wakeResumes s im).pin = s.pin ∧
    (State.wakeResumes s im).age = s.age ∧
    (State.wakeResumes s im).tap = s.tap := by
  unfold State.wakeResumes
  and_intros <;>
    ((try simp) <;> (try (repeat' split)) <;> (try simp))

@[simp] theorem State.writeWake_keeps (s : State) (src : Nat) :
    (State.writeWake s src).pending = s.pending ∧
    (State.writeWake s src).free = s.free ∧
    (State.writeWake s src).power = s.power ∧
    (State.writeWake s src).time = s.time ∧
    (State.writeWake s src).fuses = s.fuses ∧
    (State.writeWake s src).straps = s.straps ∧
    (State.writeWake s src).port = s.port ∧
    (State.writeWake s src).spill = s.spill ∧
    (State.writeWake s src).red = s.red ∧
    (State.writeWake s src).mot = s.mot ∧
    (State.writeWake s src).prod = s.prod ∧
    (State.writeWake s src).fe = s.fe ∧
    (State.writeWake s src).roads = s.roads ∧
    (State.writeWake s src).up = s.up ∧
    (State.writeWake s src).hs = s.hs ∧
    (State.writeWake s src).tw = s.tw ∧
    (State.writeWake s src).attn = s.attn ∧
    (State.writeWake s src).clients = s.clients ∧
    (State.writeWake s src).locks = s.locks ∧
    (State.writeWake s src).pin = s.pin ∧
    (State.writeWake s src).age = s.age ∧
    (State.writeWake s src).tap = s.tap := by
  unfold State.writeWake
  and_intros <;>
    ((try simp) <;> (try (repeat' split)) <;> (try simp))

@[simp] theorem State.wakeStart_keeps (s : State) (m : Mode) :
    (State.wakeStart s m).pending = s.pending ∧
    (State.wakeStart s m).free = s.free ∧
    (State.wakeStart s m).power = s.power ∧
    (State.wakeStart s m).time = s.time ∧
    (State.wakeStart s m).fuses = s.fuses ∧
    (State.wakeStart s m).straps = s.straps ∧
    (State.wakeStart s m).port = s.port ∧
    (State.wakeStart s m).cw = s.cw ∧
    (State.wakeStart s m).spill = s.spill ∧
    (State.wakeStart s m).red = s.red ∧
    (State.wakeStart s m).way = s.way ∧
    (State.wakeStart s m).roads = s.roads ∧
    (State.wakeStart s m).up = s.up ∧
    (State.wakeStart s m).hs = s.hs ∧
    (State.wakeStart s m).tw = s.tw ∧
    (State.wakeStart s m).attn = s.attn ∧
    (State.wakeStart s m).clients = s.clients ∧
    (State.wakeStart s m).locks = s.locks ∧
    (State.wakeStart s m).pin = s.pin ∧
    (State.wakeStart s m).age = s.age ∧
    (State.wakeStart s m).tap = s.tap := by
  unfold State.wakeStart
  and_intros <;>
    ((try simp) <;> (try (repeat' split)) <;> (try simp))

@[simp] theorem State.wakeDone_keeps (s : State) (src : Nat) :
    (State.wakeDone s src).pending = s.pending ∧
    (State.wakeDone s src).free = s.free ∧
    (State.wakeDone s src).time = s.time ∧
    (State.wakeDone s src).fuses = s.fuses ∧
    (State.wakeDone s src).straps = s.straps ∧
    (State.wakeDone s src).port = s.port ∧
    (State.wakeDone s src).up = s.up ∧
    (State.wakeDone s src).hs = s.hs ∧
    (State.wakeDone s src).tw = s.tw ∧
    (State.wakeDone s src).attn = s.attn ∧
    (State.wakeDone s src).clients = s.clients ∧
    (State.wakeDone s src).locks = s.locks ∧
    (State.wakeDone s src).pin = s.pin ∧
    (State.wakeDone s src).age = s.age ∧
    (State.wakeDone s src).tap = s.tap := by
  unfold State.wakeDone
  and_intros <;>
    ((try simp) <;> (try (repeat' split)) <;> (try simp))

@[simp] theorem State.islandRuns_keeps (s : State) (island : Nat) :
    (State.islandRuns s island).pending = s.pending ∧
    (State.islandRuns s island).free = s.free ∧
    (State.islandRuns s island).time = s.time ∧
    (State.islandRuns s island).fuses = s.fuses ∧
    (State.islandRuns s island).straps = s.straps ∧
    (State.islandRuns s island).port = s.port ∧
    (State.islandRuns s island).cw = s.cw ∧
    (State.islandRuns s island).spill = s.spill ∧
    (State.islandRuns s island).red = s.red ∧
    (State.islandRuns s island).mot = s.mot ∧
    (State.islandRuns s island).prod = s.prod ∧
    (State.islandRuns s island).way = s.way ∧
    (State.islandRuns s island).fe = s.fe ∧
    (State.islandRuns s island).roads = s.roads ∧
    (State.islandRuns s island).up = s.up ∧
    (State.islandRuns s island).hs = s.hs ∧
    (State.islandRuns s island).attn = s.attn ∧
    (State.islandRuns s island).clients = s.clients ∧
    (State.islandRuns s island).locks = s.locks ∧
    (State.islandRuns s island).age = s.age ∧
    (State.islandRuns s island).tap = s.tap ∧
    (State.islandRuns s island).power.mode = s.power.mode := by
  unfold State.islandRuns
  and_intros <;>
    ((try simp) <;> (try (repeat' split)) <;> (try simp))

@[simp] theorem doIslandRunning_keeps (dt island : Nat) (s : State) :
    (doIslandRunning dt island s).pending = s.pending ∧
    (doIslandRunning dt island s).free = s.free ∧
    (doIslandRunning dt island s).fuses = s.fuses ∧
    (doIslandRunning dt island s).straps = s.straps ∧
    (doIslandRunning dt island s).port = s.port ∧
    (doIslandRunning dt island s).up = s.up ∧
    (doIslandRunning dt island s).hs = s.hs ∧
    (doIslandRunning dt island s).attn = s.attn ∧
    (doIslandRunning dt island s).clients = s.clients ∧
    (doIslandRunning dt island s).locks = s.locks ∧
    (doIslandRunning dt island s).age = s.age ∧
    (doIslandRunning dt island s).tap = s.tap ∧
    (doIslandRunning dt island s).time.gRate = s.time.gRate ∧
    (doIslandRunning dt island s).time.rates = s.time.rates ∧
    (doIslandRunning dt island s).time.gIdx = s.time.gIdx := by
  unfold doIslandRunning
  and_intros <;>
    ((try simp) <;> (try (repeat' split)) <;> (try simp))

@[simp] theorem State.sensorsRest_keeps (s : State) :
    (State.sensorsRest s).pending = s.pending ∧
    (State.sensorsRest s).free = s.free ∧
    (State.sensorsRest s).power = s.power ∧
    (State.sensorsRest s).time = s.time ∧
    (State.sensorsRest s).fuses = s.fuses ∧
    (State.sensorsRest s).straps = s.straps ∧
    (State.sensorsRest s).port = s.port ∧
    (State.sensorsRest s).spill = s.spill ∧
    (State.sensorsRest s).red = s.red ∧
    (State.sensorsRest s).prod = s.prod ∧
    (State.sensorsRest s).roads = s.roads ∧
    (State.sensorsRest s).up = s.up ∧
    (State.sensorsRest s).hs = s.hs ∧
    (State.sensorsRest s).tw = s.tw ∧
    (State.sensorsRest s).attn = s.attn ∧
    (State.sensorsRest s).clients = s.clients ∧
    (State.sensorsRest s).locks = s.locks ∧
    (State.sensorsRest s).pin = s.pin ∧
    (State.sensorsRest s).age = s.age ∧
    (State.sensorsRest s).tap = s.tap := by
  unfold State.sensorsRest
  and_intros <;>
    ((try simp) <;> (try (repeat' split)) <;> (try simp))

@[simp] theorem doLaybyEntryDone_keeps (dt : Nat) (chk : WakeCheck) (s : State) :
    (doLaybyEntryDone dt chk s).pending = s.pending ∧
    (doLaybyEntryDone dt chk s).fuses = s.fuses ∧
    (doLaybyEntryDone dt chk s).straps = s.straps ∧
    (doLaybyEntryDone dt chk s).port = s.port ∧
    (doLaybyEntryDone dt chk s).power.mode = s.power.mode ∧
    (doLaybyEntryDone dt chk s).time.gRate = s.time.gRate ∧
    (doLaybyEntryDone dt chk s).time.rates = s.time.rates ∧
    (doLaybyEntryDone dt chk s).time.gIdx = s.time.gIdx := by
  unfold doLaybyEntryDone
  and_intros <;>
    ((try simp) <;> (try (repeat' split)) <;> (try simp))

@[simp] theorem doTwWakeMatch_keeps (dt : Nat) (addr : BitVec 7) (chk : WakeCheck) (s : State) :
    (doTwWakeMatch dt addr chk s).pending = s.pending ∧
    (doTwWakeMatch dt addr chk s).fuses = s.fuses ∧
    (doTwWakeMatch dt addr chk s).straps = s.straps ∧
    (doTwWakeMatch dt addr chk s).port = s.port ∧
    (doTwWakeMatch dt addr chk s).power.mode = s.power.mode ∧
    (doTwWakeMatch dt addr chk s).time.gRate = s.time.gRate ∧
    (doTwWakeMatch dt addr chk s).time.rates = s.time.rates ∧
    (doTwWakeMatch dt addr chk s).time.gIdx = s.time.gIdx := by
  unfold doTwWakeMatch
  and_intros <;>
    ((try simp) <;> (try (repeat' split)) <;> (try simp))

@[simp] theorem doWakePadRise_keeps (dt highNs : Nat) (chk : WakeCheck) (s : State) :
    (doWakePadRise dt highNs chk s).pending = s.pending ∧
    (doWakePadRise dt highNs chk s).fuses = s.fuses ∧
    (doWakePadRise dt highNs chk s).straps = s.straps ∧
    (doWakePadRise dt highNs chk s).port = s.port ∧
    (doWakePadRise dt highNs chk s).power.mode = s.power.mode ∧
    (doWakePadRise dt highNs chk s).time.gRate = s.time.gRate ∧
    (doWakePadRise dt highNs chk s).time.rates = s.time.rates ∧
    (doWakePadRise dt highNs chk s).time.gIdx = s.time.gIdx := by
  unfold doWakePadRise
  and_intros <;>
    ((try simp) <;> (try (repeat' split)) <;> (try simp))

@[simp] theorem doWakePadFall_keeps (dt : Nat) (s : State) :
    (doWakePadFall dt s).pending = s.pending ∧
    (doWakePadFall dt s).free = s.free ∧
    (doWakePadFall dt s).fuses = s.fuses ∧
    (doWakePadFall dt s).straps = s.straps ∧
    (doWakePadFall dt s).port = s.port ∧
    (doWakePadFall dt s).cw = s.cw ∧
    (doWakePadFall dt s).spill = s.spill ∧
    (doWakePadFall dt s).red = s.red ∧
    (doWakePadFall dt s).mot = s.mot ∧
    (doWakePadFall dt s).prod = s.prod ∧
    (doWakePadFall dt s).way = s.way ∧
    (doWakePadFall dt s).fe = s.fe ∧
    (doWakePadFall dt s).roads = s.roads ∧
    (doWakePadFall dt s).up = s.up ∧
    (doWakePadFall dt s).hs = s.hs ∧
    (doWakePadFall dt s).tw = s.tw ∧
    (doWakePadFall dt s).attn = s.attn ∧
    (doWakePadFall dt s).clients = s.clients ∧
    (doWakePadFall dt s).locks = s.locks ∧
    (doWakePadFall dt s).pin = s.pin ∧
    (doWakePadFall dt s).age = s.age ∧
    (doWakePadFall dt s).tap = s.tap ∧
    (doWakePadFall dt s).power.mode = s.power.mode ∧
    (doWakePadFall dt s).time.gRate = s.time.gRate ∧
    (doWakePadFall dt s).time.rates = s.time.rates ∧
    (doWakePadFall dt s).time.gIdx = s.time.gIdx := by
  unfold doWakePadFall
  and_intros <;>
    ((try simp) <;> (try (repeat' split)) <;> (try simp))

@[simp] theorem doDropComparator_keeps (dt : Nat) (chk : WakeCheck) (s : State) :
    (doDropComparator dt chk s).pending = s.pending ∧
    (doDropComparator dt chk s).fuses = s.fuses ∧
    (doDropComparator dt chk s).straps = s.straps ∧
    (doDropComparator dt chk s).port = s.port ∧
    (doDropComparator dt chk s).power.mode = s.power.mode ∧
    (doDropComparator dt chk s).time.gRate = s.time.gRate ∧
    (doDropComparator dt chk s).time.rates = s.time.rates ∧
    (doDropComparator dt chk s).time.gIdx = s.time.gIdx := by
  unfold doDropComparator
  and_intros <;>
    ((try simp) <;> (try (repeat' split)) <;> (try simp))

@[simp] theorem doCapsizeComparator_keeps (dt : Nat) (chk : WakeCheck) (s : State) :
    (doCapsizeComparator dt chk s).pending = s.pending ∧
    (doCapsizeComparator dt chk s).fuses = s.fuses ∧
    (doCapsizeComparator dt chk s).straps = s.straps ∧
    (doCapsizeComparator dt chk s).port = s.port ∧
    (doCapsizeComparator dt chk s).power.mode = s.power.mode ∧
    (doCapsizeComparator dt chk s).time.gRate = s.time.gRate ∧
    (doCapsizeComparator dt chk s).time.rates = s.time.rates ∧
    (doCapsizeComparator dt chk s).time.gIdx = s.time.gIdx := by
  unfold doCapsizeComparator
  and_intros <;>
    ((try simp) <;> (try (repeat' split)) <;> (try simp))

@[simp] theorem doHoldExpiry_keeps (dt : Nat) (s : State) :
    (doHoldExpiry dt s).pending = s.pending ∧
    (doHoldExpiry dt s).free = s.free ∧
    (doHoldExpiry dt s).fuses = s.fuses ∧
    (doHoldExpiry dt s).straps = s.straps ∧
    (doHoldExpiry dt s).port = s.port ∧
    (doHoldExpiry dt s).cw = s.cw ∧
    (doHoldExpiry dt s).spill = s.spill ∧
    (doHoldExpiry dt s).red = s.red ∧
    (doHoldExpiry dt s).mot = s.mot ∧
    (doHoldExpiry dt s).prod = s.prod ∧
    (doHoldExpiry dt s).way = s.way ∧
    (doHoldExpiry dt s).fe = s.fe ∧
    (doHoldExpiry dt s).roads = s.roads ∧
    (doHoldExpiry dt s).up = s.up ∧
    (doHoldExpiry dt s).hs = s.hs ∧
    (doHoldExpiry dt s).tw = s.tw ∧
    (doHoldExpiry dt s).attn = s.attn ∧
    (doHoldExpiry dt s).clients = s.clients ∧
    (doHoldExpiry dt s).locks = s.locks ∧
    (doHoldExpiry dt s).pin = s.pin ∧
    (doHoldExpiry dt s).age = s.age ∧
    (doHoldExpiry dt s).tap = s.tap ∧
    (doHoldExpiry dt s).power.mode = s.power.mode ∧
    (doHoldExpiry dt s).time.gRate = s.time.gRate ∧
    (doHoldExpiry dt s).time.rates = s.time.rates ∧
    (doHoldExpiry dt s).time.gIdx = s.time.gIdx := by
  unfold doHoldExpiry
  and_intros <;>
    ((try simp) <;> (try (repeat' split)) <;> (try simp))

@[simp] theorem doScheduledActionDue_keeps (dt index : Nat) (chk : WakeCheck) (fs : List LineFinding) (s : State) :
    (doScheduledActionDue dt index chk fs s).pending = s.pending ∧
    (doScheduledActionDue dt index chk fs s).fuses = s.fuses ∧
    (doScheduledActionDue dt index chk fs s).straps = s.straps ∧
    (doScheduledActionDue dt index chk fs s).port = s.port ∧
    (doScheduledActionDue dt index chk fs s).power.mode = s.power.mode ∧
    (doScheduledActionDue dt index chk fs s).time.gRate = s.time.gRate ∧
    (doScheduledActionDue dt index chk fs s).time.rates = s.time.rates ∧
    (doScheduledActionDue dt index chk fs s).time.gIdx = s.time.gIdx := by
  unfold doScheduledActionDue
  and_intros <;>
    ((try simp) <;> (try (repeat' split)) <;> (try simp))

@[simp] theorem State.restoreAtMark_keeps (s : State) :
    (State.restoreAtMark s).pending = s.pending ∧
    (State.restoreAtMark s).free = s.free ∧
    (State.restoreAtMark s).power = s.power ∧
    (State.restoreAtMark s).time = s.time ∧
    (State.restoreAtMark s).fuses = s.fuses ∧
    (State.restoreAtMark s).straps = s.straps ∧
    (State.restoreAtMark s).port = s.port ∧
    (State.restoreAtMark s).cw = s.cw ∧
    (State.restoreAtMark s).spill = s.spill ∧
    (State.restoreAtMark s).red = s.red ∧
    (State.restoreAtMark s).prod = s.prod ∧
    (State.restoreAtMark s).way = s.way ∧
    (State.restoreAtMark s).fe = s.fe ∧
    (State.restoreAtMark s).roads = s.roads ∧
    (State.restoreAtMark s).up = s.up ∧
    (State.restoreAtMark s).hs = s.hs ∧
    (State.restoreAtMark s).tw = s.tw ∧
    (State.restoreAtMark s).attn = s.attn ∧
    (State.restoreAtMark s).locks = s.locks ∧
    (State.restoreAtMark s).pin = s.pin ∧
    (State.restoreAtMark s).age = s.age ∧
    (State.restoreAtMark s).tap = s.tap := by
  unfold State.restoreAtMark
  and_intros <;>
    ((try simp) <;> (try (repeat' split)) <;> (try simp))

@[simp] theorem State.replyFragments_keeps (s : State) (c : Nat) (cmp : BitVec 16) (typ : Nat) (frs : List (List Word)) :
    (State.replyFragments s c cmp typ frs).pending = s.pending ∧
    (State.replyFragments s c cmp typ frs).free = s.free ∧
    (State.replyFragments s c cmp typ frs).power = s.power ∧
    (State.replyFragments s c cmp typ frs).time = s.time ∧
    (State.replyFragments s c cmp typ frs).fuses = s.fuses ∧
    (State.replyFragments s c cmp typ frs).straps = s.straps ∧
    (State.replyFragments s c cmp typ frs).port = s.port ∧
    (State.replyFragments s c cmp typ frs).cw = s.cw ∧
    (State.replyFragments s c cmp typ frs).spill = s.spill ∧
    (State.replyFragments s c cmp typ frs).red = s.red ∧
    (State.replyFragments s c cmp typ frs).mot = s.mot ∧
    (State.replyFragments s c cmp typ frs).prod = s.prod ∧
    (State.replyFragments s c cmp typ frs).way = s.way ∧
    (State.replyFragments s c cmp typ frs).fe = s.fe ∧
    (State.replyFragments s c cmp typ frs).roads = s.roads ∧
    (State.replyFragments s c cmp typ frs).up = s.up ∧
    (State.replyFragments s c cmp typ frs).hs = s.hs ∧
    (State.replyFragments s c cmp typ frs).tw = s.tw ∧
    (State.replyFragments s c cmp typ frs).attn = s.attn ∧
    (State.replyFragments s c cmp typ frs).locks = s.locks ∧
    (State.replyFragments s c cmp typ frs).pin = s.pin ∧
    (State.replyFragments s c cmp typ frs).age = s.age ∧
    (State.replyFragments s c cmp typ frs).tap = s.tap := by
  unfold State.replyFragments
  and_intros <;>
    ((try simp) <;> (try (repeat' split)) <;> (try simp))

@[simp] theorem State.snapshots_keeps (s : State) :
    (State.snapshots s).pending = s.pending ∧
    (State.snapshots s).power = s.power ∧
    (State.snapshots s).time = s.time ∧
    (State.snapshots s).fuses = s.fuses ∧
    (State.snapshots s).straps = s.straps ∧
    (State.snapshots s).port = s.port ∧
    (State.snapshots s).cw = s.cw ∧
    (State.snapshots s).spill = s.spill ∧
    (State.snapshots s).red = s.red ∧
    (State.snapshots s).prod = s.prod ∧
    (State.snapshots s).way = s.way ∧
    (State.snapshots s).fe = s.fe ∧
    (State.snapshots s).roads = s.roads ∧
    (State.snapshots s).up = s.up ∧
    (State.snapshots s).hs = s.hs ∧
    (State.snapshots s).tw = s.tw ∧
    (State.snapshots s).attn = s.attn ∧
    (State.snapshots s).locks = s.locks ∧
    (State.snapshots s).pin = s.pin ∧
    (State.snapshots s).tap = s.tap := by
  unfold State.snapshots
  and_intros <;>
    ((try simp) <;> (try (repeat' split)) <;> (try simp))

@[simp] theorem State.calAtMark_keeps (s : State) (before : Nat) :
    (State.calAtMark s before).pending = s.pending ∧
    (State.calAtMark s before).power = s.power ∧
    (State.calAtMark s before).time = s.time ∧
    (State.calAtMark s before).fuses = s.fuses ∧
    (State.calAtMark s before).straps = s.straps ∧
    (State.calAtMark s before).port = s.port ∧
    (State.calAtMark s before).cw = s.cw ∧
    (State.calAtMark s before).spill = s.spill ∧
    (State.calAtMark s before).red = s.red ∧
    (State.calAtMark s before).prod = s.prod ∧
    (State.calAtMark s before).way = s.way ∧
    (State.calAtMark s before).fe = s.fe ∧
    (State.calAtMark s before).roads = s.roads ∧
    (State.calAtMark s before).up = s.up ∧
    (State.calAtMark s before).hs = s.hs ∧
    (State.calAtMark s before).tw = s.tw ∧
    (State.calAtMark s before).attn = s.attn ∧
    (State.calAtMark s before).locks = s.locks ∧
    (State.calAtMark s before).pin = s.pin ∧
    (State.calAtMark s before).tap = s.tap := by
  unfold State.calAtMark
  and_intros <;>
    ((try simp) <;> (try (repeat' split)) <;> (try simp))

@[simp] theorem State.changeover_keeps (s : State) :
    (State.changeover s).pending = s.pending ∧
    (State.changeover s).free = s.free ∧
    (State.changeover s).fuses = s.fuses ∧
    (State.changeover s).locks = s.locks ∧
    (State.changeover s).tap = s.tap ∧
    (State.changeover s).port.inForce = s.port.inForce ∧
    (State.changeover s).time.gRate = s.time.gRate ∧
    (State.changeover s).time.rates = s.time.rates ∧
    (State.changeover s).time.gIdx = s.time.gIdx := by
  unfold State.changeover
  and_intros <;>
    ((try simp) <;> (try (repeat' split)) <;> (try simp))

@[simp] theorem State.commitAtMark_keeps (s : State) :
    (State.commitAtMark s).pending = s.pending ∧
    (State.commitAtMark s).free = s.free ∧
    (State.commitAtMark s).straps = s.straps ∧
    (State.commitAtMark s).spill = s.spill ∧
    (State.commitAtMark s).hs = s.hs ∧
    (State.commitAtMark s).tw = s.tw ∧
    (State.commitAtMark s).tap = s.tap ∧
    (State.commitAtMark s).power.mode = s.power.mode ∧
    (State.commitAtMark s).time.gRate = s.time.gRate ∧
    (State.commitAtMark s).time.rates = s.time.rates ∧
    (State.commitAtMark s).time.gIdx = s.time.gIdx := by
  unfold State.commitAtMark
  and_intros <;>
    ((try simp) <;> (try (repeat' split)) <;> (try simp))

@[simp] theorem State.livesAtMark_keeps (s : State) :
    (State.livesAtMark s).pending = s.pending ∧
    (State.livesAtMark s).free = s.free ∧
    (State.livesAtMark s).time = s.time ∧
    (State.livesAtMark s).fuses = s.fuses ∧
    (State.livesAtMark s).port = s.port ∧
    (State.livesAtMark s).spill = s.spill ∧
    (State.livesAtMark s).mot = s.mot ∧
    (State.livesAtMark s).prod = s.prod ∧
    (State.livesAtMark s).fe = s.fe ∧
    (State.livesAtMark s).up = s.up ∧
    (State.livesAtMark s).hs = s.hs ∧
    (State.livesAtMark s).tw = s.tw ∧
    (State.livesAtMark s).attn = s.attn ∧
    (State.livesAtMark s).clients = s.clients ∧
    (State.livesAtMark s).locks = s.locks ∧
    (State.livesAtMark s).pin = s.pin ∧
    (State.livesAtMark s).age = s.age ∧
    (State.livesAtMark s).tap = s.tap ∧
    (State.livesAtMark s).power.mode = s.power.mode := by
  unfold State.livesAtMark
  and_intros <;>
    ((try simp) <;> (try (repeat' split)) <;> (try simp))

@[simp] theorem State.resetsAtMark_keeps (s : State) (chk : PointerCheck) :
    (State.resetsAtMark s chk).pending = s.pending ∧
    (State.resetsAtMark s chk).free = s.free ∧
    (State.resetsAtMark s chk).power = s.power ∧
    (State.resetsAtMark s chk).time = s.time ∧
    (State.resetsAtMark s chk).fuses = s.fuses ∧
    (State.resetsAtMark s chk).straps = s.straps ∧
    (State.resetsAtMark s chk).port = s.port ∧
    (State.resetsAtMark s chk).spill = s.spill ∧
    (State.resetsAtMark s chk).red = s.red ∧
    (State.resetsAtMark s chk).mot = s.mot ∧
    (State.resetsAtMark s chk).prod = s.prod ∧
    (State.resetsAtMark s chk).fe = s.fe ∧
    (State.resetsAtMark s chk).roads = s.roads ∧
    (State.resetsAtMark s chk).hs = s.hs ∧
    (State.resetsAtMark s chk).tw = s.tw ∧
    (State.resetsAtMark s chk).attn = s.attn ∧
    (State.resetsAtMark s chk).locks = s.locks ∧
    (State.resetsAtMark s chk).pin = s.pin ∧
    (State.resetsAtMark s chk).age = s.age ∧
    (State.resetsAtMark s chk).tap = s.tap := by
  unfold State.resetsAtMark
  and_intros <;>
    ((try simp) <;> (try (repeat' split)) <;> (try simp))

@[simp] theorem State.ringErrors_keeps (s : State) :
    (State.ringErrors s).pending = s.pending ∧
    (State.ringErrors s).free = s.free ∧
    (State.ringErrors s).power = s.power ∧
    (State.ringErrors s).time = s.time ∧
    (State.ringErrors s).fuses = s.fuses ∧
    (State.ringErrors s).straps = s.straps ∧
    (State.ringErrors s).port = s.port ∧
    (State.ringErrors s).spill = s.spill ∧
    (State.ringErrors s).red = s.red ∧
    (State.ringErrors s).mot = s.mot ∧
    (State.ringErrors s).prod = s.prod ∧
    (State.ringErrors s).fe = s.fe ∧
    (State.ringErrors s).roads = s.roads ∧
    (State.ringErrors s).up = s.up ∧
    (State.ringErrors s).hs = s.hs ∧
    (State.ringErrors s).tw = s.tw ∧
    (State.ringErrors s).attn = s.attn ∧
    (State.ringErrors s).clients = s.clients ∧
    (State.ringErrors s).locks = s.locks ∧
    (State.ringErrors s).pin = s.pin ∧
    (State.ringErrors s).age = s.age ∧
    (State.ringErrors s).tap = s.tap := by
  unfold State.ringErrors
  and_intros <;>
    ((try simp) <;> (try (repeat' split)) <;> (try simp))

@[simp] theorem State.causewayAtMark_keeps (s : State) (chk : PointerCheck) :
    (State.causewayAtMark s chk).pending = s.pending ∧
    (State.causewayAtMark s chk).free = s.free ∧
    (State.causewayAtMark s chk).power = s.power ∧
    (State.causewayAtMark s chk).time = s.time ∧
    (State.causewayAtMark s chk).fuses = s.fuses ∧
    (State.causewayAtMark s chk).straps = s.straps ∧
    (State.causewayAtMark s chk).port = s.port ∧
    (State.causewayAtMark s chk).spill = s.spill ∧
    (State.causewayAtMark s chk).red = s.red ∧
    (State.causewayAtMark s chk).mot = s.mot ∧
    (State.causewayAtMark s chk).prod = s.prod ∧
    (State.causewayAtMark s chk).fe = s.fe ∧
    (State.causewayAtMark s chk).roads = s.roads ∧
    (State.causewayAtMark s chk).hs = s.hs ∧
    (State.causewayAtMark s chk).tw = s.tw ∧
    (State.causewayAtMark s chk).attn = s.attn ∧
    (State.causewayAtMark s chk).locks = s.locks ∧
    (State.causewayAtMark s chk).pin = s.pin ∧
    (State.causewayAtMark s chk).tap = s.tap := by
  unfold State.causewayAtMark
  and_intros <;>
    ((try simp) <;> (try (repeat' split)) <;> (try simp))

@[simp] theorem State.guestAtMark_keeps (s : State) (c : Nat) :
    (State.guestAtMark s c).pending = s.pending ∧
    (State.guestAtMark s c).free = s.free ∧
    (State.guestAtMark s c).power = s.power ∧
    (State.guestAtMark s c).fuses = s.fuses ∧
    (State.guestAtMark s c).straps = s.straps ∧
    (State.guestAtMark s c).port = s.port ∧
    (State.guestAtMark s c).cw = s.cw ∧
    (State.guestAtMark s c).spill = s.spill ∧
    (State.guestAtMark s c).red = s.red ∧
    (State.guestAtMark s c).mot = s.mot ∧
    (State.guestAtMark s c).prod = s.prod ∧
    (State.guestAtMark s c).way = s.way ∧
    (State.guestAtMark s c).fe = s.fe ∧
    (State.guestAtMark s c).roads = s.roads ∧
    (State.guestAtMark s c).hs = s.hs ∧
    (State.guestAtMark s c).tw = s.tw ∧
    (State.guestAtMark s c).attn = s.attn ∧
    (State.guestAtMark s c).locks = s.locks ∧
    (State.guestAtMark s c).pin = s.pin ∧
    (State.guestAtMark s c).age = s.age ∧
    (State.guestAtMark s c).tap = s.tap ∧
    (State.guestAtMark s c).time.gRate = s.time.gRate ∧
    (State.guestAtMark s c).time.rates = s.time.rates ∧
    (State.guestAtMark s c).time.gIdx = s.time.gIdx := by
  unfold State.guestAtMark
  and_intros <;>
    ((try simp) <;> (try (repeat' split)) <;> (try simp))

@[simp] theorem State.clientsAtMark_keeps (s : State) :
    (State.clientsAtMark s).pending = s.pending ∧
    (State.clientsAtMark s).free = s.free ∧
    (State.clientsAtMark s).power = s.power ∧
    (State.clientsAtMark s).fuses = s.fuses ∧
    (State.clientsAtMark s).straps = s.straps ∧
    (State.clientsAtMark s).port = s.port ∧
    (State.clientsAtMark s).cw = s.cw ∧
    (State.clientsAtMark s).spill = s.spill ∧
    (State.clientsAtMark s).red = s.red ∧
    (State.clientsAtMark s).mot = s.mot ∧
    (State.clientsAtMark s).prod = s.prod ∧
    (State.clientsAtMark s).way = s.way ∧
    (State.clientsAtMark s).fe = s.fe ∧
    (State.clientsAtMark s).roads = s.roads ∧
    (State.clientsAtMark s).locks = s.locks ∧
    (State.clientsAtMark s).pin = s.pin ∧
    (State.clientsAtMark s).age = s.age ∧
    (State.clientsAtMark s).tap = s.tap ∧
    (State.clientsAtMark s).time.gRate = s.time.gRate ∧
    (State.clientsAtMark s).time.rates = s.time.rates ∧
    (State.clientsAtMark s).time.gIdx = s.time.gIdx := by
  unfold State.clientsAtMark
  and_intros <;>
    ((try simp) <;> (try (repeat' split)) <;> (try simp))

@[simp] theorem State.markAwake_keeps (s : State) (chk : PointerCheck) (before : Nat) :
    (State.markAwake s chk before).pending = s.pending ∧
    (State.markAwake s chk before).tap = s.tap := by
  unfold State.markAwake
  and_intros <;>
    ((try simp) <;> (try (repeat' split)) <;> (try simp))

@[simp] theorem State.firstResumes_keeps (s : State) (im : Image) :
    (State.firstResumes s im).pending = s.pending ∧
    (State.firstResumes s im).free = s.free ∧
    (State.firstResumes s im).power = s.power ∧
    (State.firstResumes s im).time = s.time ∧
    (State.firstResumes s im).fuses = s.fuses ∧
    (State.firstResumes s im).straps = s.straps ∧
    (State.firstResumes s im).port = s.port ∧
    (State.firstResumes s im).spill = s.spill ∧
    (State.firstResumes s im).red = s.red ∧
    (State.firstResumes s im).mot = s.mot ∧
    (State.firstResumes s im).prod = s.prod ∧
    (State.firstResumes s im).fe = s.fe ∧
    (State.firstResumes s im).roads = s.roads ∧
    (State.firstResumes s im).up = s.up ∧
    (State.firstResumes s im).hs = s.hs ∧
    (State.firstResumes s im).tw = s.tw ∧
    (State.firstResumes s im).attn = s.attn ∧
    (State.firstResumes s im).clients = s.clients ∧
    (State.firstResumes s im).locks = s.locks ∧
    (State.firstResumes s im).pin = s.pin ∧
    (State.firstResumes s im).age = s.age ∧
    (State.firstResumes s im).tap = s.tap := by
  unfold State.firstResumes
  and_intros <;>
    ((try simp) <;> (try (repeat' split)) <;> (try simp))

@[simp] theorem State.firstCommit_keeps (s : State) (l : Load) (im : Image) :
    (State.firstCommit s l im).pending = s.pending ∧
    (State.firstCommit s l im).free = s.free ∧
    (State.firstCommit s l im).straps = s.straps ∧
    (State.firstCommit s l im).hs = s.hs ∧
    (State.firstCommit s l im).tw = s.tw ∧
    (State.firstCommit s l im).tap = s.tap ∧
    (State.firstCommit s l im).time.gRate = s.time.gRate ∧
    (State.firstCommit s l im).time.rates = s.time.rates ∧
    (State.firstCommit s l im).time.gIdx = s.time.gIdx := by
  unfold State.firstCommit
  and_intros <;>
    ((try simp) <;> (try (repeat' split)) <;> (try simp))

@[simp] theorem State.markStarting_keeps (s : State) (chk : PointerCheck) :
    (State.markStarting s chk).pending = s.pending ∧
    (State.markStarting s chk).straps = s.straps ∧
    (State.markStarting s chk).tap = s.tap := by
  unfold State.markStarting
  and_intros <;>
    ((try simp) <;> (try (repeat' split)) <;> (try simp))

@[simp] theorem doGridMark_keeps (chk : PointerCheck) (s : State) :
    (doGridMark chk s).pending = s.pending ∧
    (doGridMark chk s).tap = s.tap := by
  unfold doGridMark
  and_intros <;>
    ((try simp) <;> (try (repeat' split)) <;> (try simp))

@[simp] theorem doReportPeriod_keeps (s : State) :
    (doReportPeriod s).pending = s.pending ∧
    (doReportPeriod s).free = s.free ∧
    (doReportPeriod s).time = s.time ∧
    (doReportPeriod s).fuses = s.fuses ∧
    (doReportPeriod s).straps = s.straps ∧
    (doReportPeriod s).port = s.port ∧
    (doReportPeriod s).spill = s.spill ∧
    (doReportPeriod s).red = s.red ∧
    (doReportPeriod s).mot = s.mot ∧
    (doReportPeriod s).prod = s.prod ∧
    (doReportPeriod s).up = s.up ∧
    (doReportPeriod s).hs = s.hs ∧
    (doReportPeriod s).tw = s.tw ∧
    (doReportPeriod s).attn = s.attn ∧
    (doReportPeriod s).clients = s.clients ∧
    (doReportPeriod s).locks = s.locks ∧
    (doReportPeriod s).pin = s.pin ∧
    (doReportPeriod s).age = s.age ∧
    (doReportPeriod s).tap = s.tap ∧
    (doReportPeriod s).power.mode = s.power.mode := by
  unfold doReportPeriod
  and_intros <;>
    ((try simp) <;> (try (repeat' split)) <;> (try simp))

@[simp] theorem State.hardReset_keeps (s : State) :
    (State.hardReset s).pending = s.pending ∧
    (State.hardReset s).free = s.free ∧
    (State.hardReset s).fuses = s.fuses := by
  unfold State.hardReset
  and_intros <;>
    ((try simp) <;> (try (repeat' split)) <;> (try simp))

@[simp] theorem State.enterReset_keeps (s : State) :
    (State.enterReset s).pending = s.pending ∧
    (State.enterReset s).free = s.free ∧
    (State.enterReset s).fuses = s.fuses := by
  unfold State.enterReset
  and_intros <;>
    ((try simp) <;> (try (repeat' split)) <;> (try simp))

@[simp] theorem State.leaveReset_keeps (s : State) :
    (State.leaveReset s).pending = s.pending ∧
    (State.leaveReset s).free = s.free ∧
    (State.leaveReset s).time = s.time ∧
    (State.leaveReset s).fuses = s.fuses ∧
    (State.leaveReset s).straps = s.straps ∧
    (State.leaveReset s).port = s.port ∧
    (State.leaveReset s).cw = s.cw ∧
    (State.leaveReset s).spill = s.spill ∧
    (State.leaveReset s).red = s.red ∧
    (State.leaveReset s).mot = s.mot ∧
    (State.leaveReset s).prod = s.prod ∧
    (State.leaveReset s).way = s.way ∧
    (State.leaveReset s).fe = s.fe ∧
    (State.leaveReset s).roads = s.roads ∧
    (State.leaveReset s).up = s.up ∧
    (State.leaveReset s).hs = s.hs ∧
    (State.leaveReset s).tw = s.tw ∧
    (State.leaveReset s).attn = s.attn ∧
    (State.leaveReset s).clients = s.clients ∧
    (State.leaveReset s).locks = s.locks ∧
    (State.leaveReset s).pin = s.pin ∧
    (State.leaveReset s).age = s.age ∧
    (State.leaveReset s).tap = s.tap ∧
    (State.leaveReset s).power.mode = s.power.mode := by
  unfold State.leaveReset
  and_intros <;>
    ((try simp) <;> (try (repeat' split)) <;> (try simp))

@[simp] theorem doResetRelease_keeps (dt : Nat) (why : Release) (s : State) :
    (doResetRelease dt why s).pending = s.pending ∧
    (doResetRelease dt why s).free = s.free ∧
    (doResetRelease dt why s).fuses = s.fuses ∧
    (doResetRelease dt why s).straps = s.straps ∧
    (doResetRelease dt why s).port = s.port ∧
    (doResetRelease dt why s).cw = s.cw ∧
    (doResetRelease dt why s).spill = s.spill ∧
    (doResetRelease dt why s).red = s.red ∧
    (doResetRelease dt why s).mot = s.mot ∧
    (doResetRelease dt why s).prod = s.prod ∧
    (doResetRelease dt why s).way = s.way ∧
    (doResetRelease dt why s).fe = s.fe ∧
    (doResetRelease dt why s).roads = s.roads ∧
    (doResetRelease dt why s).up = s.up ∧
    (doResetRelease dt why s).hs = s.hs ∧
    (doResetRelease dt why s).tw = s.tw ∧
    (doResetRelease dt why s).attn = s.attn ∧
    (doResetRelease dt why s).clients = s.clients ∧
    (doResetRelease dt why s).locks = s.locks ∧
    (doResetRelease dt why s).pin = s.pin ∧
    (doResetRelease dt why s).age = s.age ∧
    (doResetRelease dt why s).tap = s.tap ∧
    (doResetRelease dt why s).power.mode = s.power.mode := by
  unfold doResetRelease
  and_intros <;>
    ((try simp) <;> (try (repeat' split)) <;> (try simp))

@[simp] theorem doResetAssert_keeps (lowNs : Nat) (s : State) :
    (doResetAssert lowNs s).pending = s.pending ∧
    (doResetAssert lowNs s).fuses = s.fuses := by
  unfold doResetAssert
  and_intros <;>
    ((try simp) <;> (try (repeat' split)) <;> (try simp))

@[simp] theorem doRailBrownout_keeps (r : Rail) (mv belowNs : Nat) (s : State) :
    (doRailBrownout r mv belowNs s).pending = s.pending ∧
    (doRailBrownout r mv belowNs s).free = s.free ∧
    (doRailBrownout r mv belowNs s).fuses = s.fuses := by
  unfold doRailBrownout
  and_intros <;>
    ((try simp) <;> (try (repeat' split)) <;> (try simp))

@[simp] theorem doClk25Stop_keeps (stoppedNs : Nat) (s : State) :
    (doClk25Stop stoppedNs s).pending = s.pending ∧
    (doClk25Stop stoppedNs s).free = s.free ∧
    (doClk25Stop stoppedNs s).fuses = s.fuses := by
  unfold doClk25Stop
  and_intros <;>
    ((try simp) <;> (try (repeat' split)) <;> (try simp))

@[simp] theorem doStartUp_keeps (clkRanNs : Nat) (slacks : List Nat) (s : State) :
    (doStartUp clkRanNs slacks s).pending = s.pending ∧
    (doStartUp clkRanNs slacks s).free = s.free ∧
    (doStartUp clkRanNs slacks s).time = s.time ∧
    (doStartUp clkRanNs slacks s).fuses = s.fuses ∧
    (doStartUp clkRanNs slacks s).straps = s.straps ∧
    (doStartUp clkRanNs slacks s).port = s.port ∧
    (doStartUp clkRanNs slacks s).cw = s.cw ∧
    (doStartUp clkRanNs slacks s).spill = s.spill ∧
    (doStartUp clkRanNs slacks s).red = s.red ∧
    (doStartUp clkRanNs slacks s).mot = s.mot ∧
    (doStartUp clkRanNs slacks s).prod = s.prod ∧
    (doStartUp clkRanNs slacks s).way = s.way ∧
    (doStartUp clkRanNs slacks s).fe = s.fe ∧
    (doStartUp clkRanNs slacks s).roads = s.roads ∧
    (doStartUp clkRanNs slacks s).up = s.up ∧
    (doStartUp clkRanNs slacks s).hs = s.hs ∧
    (doStartUp clkRanNs slacks s).tw = s.tw ∧
    (doStartUp clkRanNs slacks s).attn = s.attn ∧
    (doStartUp clkRanNs slacks s).clients = s.clients ∧
    (doStartUp clkRanNs slacks s).locks = s.locks ∧
    (doStartUp clkRanNs slacks s).pin = s.pin ∧
    (doStartUp clkRanNs slacks s).tap = s.tap ∧
    (doStartUp clkRanNs slacks s).power.mode = s.power.mode := by
  unfold doStartUp
  and_intros <;>
    ((try simp) <;> (try (repeat' split)) <;> (try simp))

@[simp] theorem doMemoryDieInitDone_keeps (failing : List Nat) (s : State) :
    (doMemoryDieInitDone failing s).pending = s.pending ∧
    (doMemoryDieInitDone failing s).free = s.free ∧
    (doMemoryDieInitDone failing s).time = s.time ∧
    (doMemoryDieInitDone failing s).fuses = s.fuses ∧
    (doMemoryDieInitDone failing s).straps = s.straps ∧
    (doMemoryDieInitDone failing s).spill = s.spill ∧
    (doMemoryDieInitDone failing s).red = s.red ∧
    (doMemoryDieInitDone failing s).mot = s.mot ∧
    (doMemoryDieInitDone failing s).prod = s.prod ∧
    (doMemoryDieInitDone failing s).fe = s.fe ∧
    (doMemoryDieInitDone failing s).roads = s.roads ∧
    (doMemoryDieInitDone failing s).up = s.up ∧
    (doMemoryDieInitDone failing s).hs = s.hs ∧
    (doMemoryDieInitDone failing s).tw = s.tw ∧
    (doMemoryDieInitDone failing s).attn = s.attn ∧
    (doMemoryDieInitDone failing s).clients = s.clients ∧
    (doMemoryDieInitDone failing s).locks = s.locks ∧
    (doMemoryDieInitDone failing s).pin = s.pin ∧
    (doMemoryDieInitDone failing s).tap = s.tap ∧
    (doMemoryDieInitDone failing s).port.inForce = s.port.inForce ∧
    (doMemoryDieInitDone failing s).power.mode = s.power.mode := by
  unfold doMemoryDieInitDone
  and_intros <;>
    ((try simp) <;> (try (repeat' split)) <;> (try simp))

@[simp] theorem doRngHealthTest_keeps (pass : Bool) (s : State) :
    (doRngHealthTest pass s).pending = s.pending ∧
    (doRngHealthTest pass s).time = s.time ∧
    (doRngHealthTest pass s).fuses = s.fuses ∧
    (doRngHealthTest pass s).straps = s.straps ∧
    (doRngHealthTest pass s).cw = s.cw ∧
    (doRngHealthTest pass s).spill = s.spill ∧
    (doRngHealthTest pass s).red = s.red ∧
    (doRngHealthTest pass s).mot = s.mot ∧
    (doRngHealthTest pass s).prod = s.prod ∧
    (doRngHealthTest pass s).way = s.way ∧
    (doRngHealthTest pass s).fe = s.fe ∧
    (doRngHealthTest pass s).roads = s.roads ∧
    (doRngHealthTest pass s).up = s.up ∧
    (doRngHealthTest pass s).hs = s.hs ∧
    (doRngHealthTest pass s).tw = s.tw ∧
    (doRngHealthTest pass s).attn = s.attn ∧
    (doRngHealthTest pass s).clients = s.clients ∧
    (doRngHealthTest pass s).locks = s.locks ∧
    (doRngHealthTest pass s).pin = s.pin ∧
    (doRngHealthTest pass s).age = s.age ∧
    (doRngHealthTest pass s).tap = s.tap ∧
    (doRngHealthTest pass s).port.inForce = s.port.inForce ∧
    (doRngHealthTest pass s).power.mode = s.power.mode := by
  unfold doRngHealthTest
  and_intros <;>
    ((try simp) <;> (try (repeat' split)) <;> (try simp))

@[simp] theorem doDiagAddr_keeps (value : BitVec 16) (s : State) :
    (doDiagAddr value s).pending = s.pending ∧
    (doDiagAddr value s).free = s.free ∧
    (doDiagAddr value s).power = s.power ∧
    (doDiagAddr value s).time = s.time ∧
    (doDiagAddr value s).fuses = s.fuses ∧
    (doDiagAddr value s).straps = s.straps ∧
    (doDiagAddr value s).port = s.port ∧
    (doDiagAddr value s).cw = s.cw ∧
    (doDiagAddr value s).spill = s.spill ∧
    (doDiagAddr value s).red = s.red ∧
    (doDiagAddr value s).mot = s.mot ∧
    (doDiagAddr value s).prod = s.prod ∧
    (doDiagAddr value s).way = s.way ∧
    (doDiagAddr value s).fe = s.fe ∧
    (doDiagAddr value s).roads = s.roads ∧
    (doDiagAddr value s).up = s.up ∧
    (doDiagAddr value s).hs = s.hs ∧
    (doDiagAddr value s).tw = s.tw ∧
    (doDiagAddr value s).attn = s.attn ∧
    (doDiagAddr value s).clients = s.clients ∧
    (doDiagAddr value s).locks = s.locks ∧
    (doDiagAddr value s).pin = s.pin ∧
    (doDiagAddr value s).age = s.age := by
  unfold doDiagAddr
  and_intros <;>
    ((try simp) <;> (try (repeat' split)) <;> (try simp))

@[simp] theorem doDiagData_keeps (s : State) :
    (doDiagData s).pending = s.pending ∧
    (doDiagData s).free = s.free ∧
    (doDiagData s).power = s.power ∧
    (doDiagData s).time = s.time ∧
    (doDiagData s).fuses = s.fuses ∧
    (doDiagData s).straps = s.straps ∧
    (doDiagData s).port = s.port ∧
    (doDiagData s).cw = s.cw ∧
    (doDiagData s).spill = s.spill ∧
    (doDiagData s).red = s.red ∧
    (doDiagData s).mot = s.mot ∧
    (doDiagData s).prod = s.prod ∧
    (doDiagData s).way = s.way ∧
    (doDiagData s).fe = s.fe ∧
    (doDiagData s).roads = s.roads ∧
    (doDiagData s).up = s.up ∧
    (doDiagData s).hs = s.hs ∧
    (doDiagData s).tw = s.tw ∧
    (doDiagData s).attn = s.attn ∧
    (doDiagData s).clients = s.clients ∧
    (doDiagData s).locks = s.locks ∧
    (doDiagData s).pin = s.pin ∧
    (doDiagData s).age = s.age := by
  unfold doDiagData
  and_intros <;>
    ((try simp) <;> (try (repeat' split)) <;> (try simp))

@[simp] theorem doBypass_keeps (s : State) :
    (doBypass s).pending = s.pending ∧
    (doBypass s).free = s.free ∧
    (doBypass s).power = s.power ∧
    (doBypass s).time = s.time ∧
    (doBypass s).fuses = s.fuses ∧
    (doBypass s).straps = s.straps ∧
    (doBypass s).port = s.port ∧
    (doBypass s).cw = s.cw ∧
    (doBypass s).spill = s.spill ∧
    (doBypass s).red = s.red ∧
    (doBypass s).mot = s.mot ∧
    (doBypass s).prod = s.prod ∧
    (doBypass s).way = s.way ∧
    (doBypass s).fe = s.fe ∧
    (doBypass s).roads = s.roads ∧
    (doBypass s).up = s.up ∧
    (doBypass s).hs = s.hs ∧
    (doBypass s).tw = s.tw ∧
    (doBypass s).attn = s.attn ∧
    (doBypass s).clients = s.clients ∧
    (doBypass s).locks = s.locks ∧
    (doBypass s).pin = s.pin ∧
    (doBypass s).age = s.age := by
  unfold doBypass
  and_intros <;>
    ((try simp) <;> (try (repeat' split)) <;> (try simp))

end Sys2Proof.Machine
end

