-- ==== Sys2Proof/Laws/State.lean ====
section
/-! SUPPORT. One lemma for each part of the state and each named update of one part, the queue among
them: true by rfl, so that no proof unfolds a record update. -/

namespace Sys2Proof.Machine

/-! ### State.advance -/

@[simp] theorem advance_pending (s : State) (dt : Nat) : (s.advance dt).pending = s.pending := rfl
@[simp] theorem advance_free (s : State) (dt : Nat) : (s.advance dt).free = s.free := rfl
@[simp] theorem advance_power (s : State) (dt : Nat) : (s.advance dt).power = s.power := rfl
@[simp] theorem advance_time (s : State) (dt : Nat) : (s.advance dt).time = if s.clocked then s.time.advance dt else { s.time with ps := s.time.ps + dt } := rfl
@[simp] theorem advance_fuses (s : State) (dt : Nat) : (s.advance dt).fuses = s.fuses := rfl
@[simp] theorem advance_straps (s : State) (dt : Nat) : (s.advance dt).straps = s.straps := rfl
@[simp] theorem advance_port (s : State) (dt : Nat) : (s.advance dt).port = s.port := rfl
@[simp] theorem advance_cw (s : State) (dt : Nat) : (s.advance dt).cw = s.cw := rfl
@[simp] theorem advance_spill (s : State) (dt : Nat) : (s.advance dt).spill = s.spill := rfl
@[simp] theorem advance_red (s : State) (dt : Nat) : (s.advance dt).red = s.red := rfl
@[simp] theorem advance_mot (s : State) (dt : Nat) : (s.advance dt).mot = s.mot := rfl
@[simp] theorem advance_prod (s : State) (dt : Nat) : (s.advance dt).prod = s.prod := rfl
@[simp] theorem advance_way (s : State) (dt : Nat) : (s.advance dt).way = s.way := rfl
@[simp] theorem advance_fe (s : State) (dt : Nat) : (s.advance dt).fe = s.fe := rfl
@[simp] theorem advance_roads (s : State) (dt : Nat) : (s.advance dt).roads = s.roads := rfl
@[simp] theorem advance_up (s : State) (dt : Nat) : (s.advance dt).up = s.up := rfl
@[simp] theorem advance_hs (s : State) (dt : Nat) : (s.advance dt).hs = s.hs := rfl
@[simp] theorem advance_tw (s : State) (dt : Nat) : (s.advance dt).tw = s.tw := rfl
@[simp] theorem advance_attn (s : State) (dt : Nat) : (s.advance dt).attn = s.attn := rfl
@[simp] theorem advance_clients (s : State) (dt : Nat) : (s.advance dt).clients = s.clients := rfl
@[simp] theorem advance_locks (s : State) (dt : Nat) : (s.advance dt).locks = s.locks := rfl
@[simp] theorem advance_pin (s : State) (dt : Nat) : (s.advance dt).pin = s.pin := rfl
@[simp] theorem advance_age (s : State) (dt : Nat) : (s.advance dt).age = s.age := rfl
@[simp] theorem advance_tap (s : State) (dt : Nat) : (s.advance dt).tap = s.tap := rfl

/-! ### State.takeWord -/

@[simp] theorem takeWord_pending (s : State) : s.takeWord.2.pending = s.pending := rfl
@[simp] theorem takeWord_free (s : State) : s.takeWord.2.free = s.free + 1 := rfl
@[simp] theorem takeWord_power (s : State) : s.takeWord.2.power = s.power := rfl
@[simp] theorem takeWord_time (s : State) : s.takeWord.2.time = s.time := rfl
@[simp] theorem takeWord_fuses (s : State) : s.takeWord.2.fuses = s.fuses := rfl
@[simp] theorem takeWord_straps (s : State) : s.takeWord.2.straps = s.straps := rfl
@[simp] theorem takeWord_port (s : State) : s.takeWord.2.port = s.port := rfl
@[simp] theorem takeWord_cw (s : State) : s.takeWord.2.cw = s.cw := rfl
@[simp] theorem takeWord_spill (s : State) : s.takeWord.2.spill = s.spill := rfl
@[simp] theorem takeWord_red (s : State) : s.takeWord.2.red = s.red := rfl
@[simp] theorem takeWord_mot (s : State) : s.takeWord.2.mot = s.mot := rfl
@[simp] theorem takeWord_prod (s : State) : s.takeWord.2.prod = s.prod := rfl
@[simp] theorem takeWord_way (s : State) : s.takeWord.2.way = s.way := rfl
@[simp] theorem takeWord_fe (s : State) : s.takeWord.2.fe = s.fe := rfl
@[simp] theorem takeWord_roads (s : State) : s.takeWord.2.roads = s.roads := rfl
@[simp] theorem takeWord_up (s : State) : s.takeWord.2.up = s.up := rfl
@[simp] theorem takeWord_hs (s : State) : s.takeWord.2.hs = s.hs := rfl
@[simp] theorem takeWord_tw (s : State) : s.takeWord.2.tw = s.tw := rfl
@[simp] theorem takeWord_attn (s : State) : s.takeWord.2.attn = s.attn := rfl
@[simp] theorem takeWord_clients (s : State) : s.takeWord.2.clients = s.clients := rfl
@[simp] theorem takeWord_locks (s : State) : s.takeWord.2.locks = s.locks := rfl
@[simp] theorem takeWord_pin (s : State) : s.takeWord.2.pin = s.pin := rfl
@[simp] theorem takeWord_age (s : State) : s.takeWord.2.age = s.age := rfl
@[simp] theorem takeWord_tap (s : State) : s.takeWord.2.tap = s.tap := rfl

/-! ### State.takeBool -/

@[simp] theorem takeBool_pending (s : State) : s.takeBool.2.pending = s.pending := rfl
@[simp] theorem takeBool_free (s : State) : s.takeBool.2.free = s.free + 1 := rfl
@[simp] theorem takeBool_power (s : State) : s.takeBool.2.power = s.power := rfl
@[simp] theorem takeBool_time (s : State) : s.takeBool.2.time = s.time := rfl
@[simp] theorem takeBool_fuses (s : State) : s.takeBool.2.fuses = s.fuses := rfl
@[simp] theorem takeBool_straps (s : State) : s.takeBool.2.straps = s.straps := rfl
@[simp] theorem takeBool_port (s : State) : s.takeBool.2.port = s.port := rfl
@[simp] theorem takeBool_cw (s : State) : s.takeBool.2.cw = s.cw := rfl
@[simp] theorem takeBool_spill (s : State) : s.takeBool.2.spill = s.spill := rfl
@[simp] theorem takeBool_red (s : State) : s.takeBool.2.red = s.red := rfl
@[simp] theorem takeBool_mot (s : State) : s.takeBool.2.mot = s.mot := rfl
@[simp] theorem takeBool_prod (s : State) : s.takeBool.2.prod = s.prod := rfl
@[simp] theorem takeBool_way (s : State) : s.takeBool.2.way = s.way := rfl
@[simp] theorem takeBool_fe (s : State) : s.takeBool.2.fe = s.fe := rfl
@[simp] theorem takeBool_roads (s : State) : s.takeBool.2.roads = s.roads := rfl
@[simp] theorem takeBool_up (s : State) : s.takeBool.2.up = s.up := rfl
@[simp] theorem takeBool_hs (s : State) : s.takeBool.2.hs = s.hs := rfl
@[simp] theorem takeBool_tw (s : State) : s.takeBool.2.tw = s.tw := rfl
@[simp] theorem takeBool_attn (s : State) : s.takeBool.2.attn = s.attn := rfl
@[simp] theorem takeBool_clients (s : State) : s.takeBool.2.clients = s.clients := rfl
@[simp] theorem takeBool_locks (s : State) : s.takeBool.2.locks = s.locks := rfl
@[simp] theorem takeBool_pin (s : State) : s.takeBool.2.pin = s.pin := rfl
@[simp] theorem takeBool_age (s : State) : s.takeBool.2.age = s.age := rfl
@[simp] theorem takeBool_tap (s : State) : s.takeBool.2.tap = s.tap := rfl

/-! ### State.takeNat -/

@[simp] theorem takeNat_pending (s : State) : s.takeNat.2.pending = s.pending := rfl
@[simp] theorem takeNat_free (s : State) : s.takeNat.2.free = s.free + 1 := rfl
@[simp] theorem takeNat_power (s : State) : s.takeNat.2.power = s.power := rfl
@[simp] theorem takeNat_time (s : State) : s.takeNat.2.time = s.time := rfl
@[simp] theorem takeNat_fuses (s : State) : s.takeNat.2.fuses = s.fuses := rfl
@[simp] theorem takeNat_straps (s : State) : s.takeNat.2.straps = s.straps := rfl
@[simp] theorem takeNat_port (s : State) : s.takeNat.2.port = s.port := rfl
@[simp] theorem takeNat_cw (s : State) : s.takeNat.2.cw = s.cw := rfl
@[simp] theorem takeNat_spill (s : State) : s.takeNat.2.spill = s.spill := rfl
@[simp] theorem takeNat_red (s : State) : s.takeNat.2.red = s.red := rfl
@[simp] theorem takeNat_mot (s : State) : s.takeNat.2.mot = s.mot := rfl
@[simp] theorem takeNat_prod (s : State) : s.takeNat.2.prod = s.prod := rfl
@[simp] theorem takeNat_way (s : State) : s.takeNat.2.way = s.way := rfl
@[simp] theorem takeNat_fe (s : State) : s.takeNat.2.fe = s.fe := rfl
@[simp] theorem takeNat_roads (s : State) : s.takeNat.2.roads = s.roads := rfl
@[simp] theorem takeNat_up (s : State) : s.takeNat.2.up = s.up := rfl
@[simp] theorem takeNat_hs (s : State) : s.takeNat.2.hs = s.hs := rfl
@[simp] theorem takeNat_tw (s : State) : s.takeNat.2.tw = s.tw := rfl
@[simp] theorem takeNat_attn (s : State) : s.takeNat.2.attn = s.attn := rfl
@[simp] theorem takeNat_clients (s : State) : s.takeNat.2.clients = s.clients := rfl
@[simp] theorem takeNat_locks (s : State) : s.takeNat.2.locks = s.locks := rfl
@[simp] theorem takeNat_pin (s : State) : s.takeNat.2.pin = s.pin := rfl
@[simp] theorem takeNat_age (s : State) : s.takeNat.2.age = s.age := rfl
@[simp] theorem takeNat_tap (s : State) : s.takeNat.2.tap = s.tap := rfl

/-! ### State.takeFindings -/

@[simp] theorem takeFindings_pending (s : State) : s.takeFindings.2.pending = s.pending := rfl
@[simp] theorem takeFindings_free (s : State) : s.takeFindings.2.free = s.free + 1 := rfl
@[simp] theorem takeFindings_power (s : State) : s.takeFindings.2.power = s.power := rfl
@[simp] theorem takeFindings_time (s : State) : s.takeFindings.2.time = s.time := rfl
@[simp] theorem takeFindings_fuses (s : State) : s.takeFindings.2.fuses = s.fuses := rfl
@[simp] theorem takeFindings_straps (s : State) : s.takeFindings.2.straps = s.straps := rfl
@[simp] theorem takeFindings_port (s : State) : s.takeFindings.2.port = s.port := rfl
@[simp] theorem takeFindings_cw (s : State) : s.takeFindings.2.cw = s.cw := rfl
@[simp] theorem takeFindings_spill (s : State) : s.takeFindings.2.spill = s.spill := rfl
@[simp] theorem takeFindings_red (s : State) : s.takeFindings.2.red = s.red := rfl
@[simp] theorem takeFindings_mot (s : State) : s.takeFindings.2.mot = s.mot := rfl
@[simp] theorem takeFindings_prod (s : State) : s.takeFindings.2.prod = s.prod := rfl
@[simp] theorem takeFindings_way (s : State) : s.takeFindings.2.way = s.way := rfl
@[simp] theorem takeFindings_fe (s : State) : s.takeFindings.2.fe = s.fe := rfl
@[simp] theorem takeFindings_roads (s : State) : s.takeFindings.2.roads = s.roads := rfl
@[simp] theorem takeFindings_up (s : State) : s.takeFindings.2.up = s.up := rfl
@[simp] theorem takeFindings_hs (s : State) : s.takeFindings.2.hs = s.hs := rfl
@[simp] theorem takeFindings_tw (s : State) : s.takeFindings.2.tw = s.tw := rfl
@[simp] theorem takeFindings_attn (s : State) : s.takeFindings.2.attn = s.attn := rfl
@[simp] theorem takeFindings_clients (s : State) : s.takeFindings.2.clients = s.clients := rfl
@[simp] theorem takeFindings_locks (s : State) : s.takeFindings.2.locks = s.locks := rfl
@[simp] theorem takeFindings_pin (s : State) : s.takeFindings.2.pin = s.pin := rfl
@[simp] theorem takeFindings_age (s : State) : s.takeFindings.2.age = s.age := rfl
@[simp] theorem takeFindings_tap (s : State) : s.takeFindings.2.tap = s.tap := rfl

/-! ### State.onClient -/

@[simp] theorem onClient_pending (s : State) (c : Nat) (f : Client → Client) : (s.onClient c f).pending = s.pending := rfl
@[simp] theorem onClient_free (s : State) (c : Nat) (f : Client → Client) : (s.onClient c f).free = s.free := rfl
@[simp] theorem onClient_power (s : State) (c : Nat) (f : Client → Client) : (s.onClient c f).power = s.power := rfl
@[simp] theorem onClient_time (s : State) (c : Nat) (f : Client → Client) : (s.onClient c f).time = s.time := rfl
@[simp] theorem onClient_fuses (s : State) (c : Nat) (f : Client → Client) : (s.onClient c f).fuses = s.fuses := rfl
@[simp] theorem onClient_straps (s : State) (c : Nat) (f : Client → Client) : (s.onClient c f).straps = s.straps := rfl
@[simp] theorem onClient_port (s : State) (c : Nat) (f : Client → Client) : (s.onClient c f).port = s.port := rfl
@[simp] theorem onClient_cw (s : State) (c : Nat) (f : Client → Client) : (s.onClient c f).cw = s.cw := rfl
@[simp] theorem onClient_spill (s : State) (c : Nat) (f : Client → Client) : (s.onClient c f).spill = s.spill := rfl
@[simp] theorem onClient_red (s : State) (c : Nat) (f : Client → Client) : (s.onClient c f).red = s.red := rfl
@[simp] theorem onClient_mot (s : State) (c : Nat) (f : Client → Client) : (s.onClient c f).mot = s.mot := rfl
@[simp] theorem onClient_prod (s : State) (c : Nat) (f : Client → Client) : (s.onClient c f).prod = s.prod := rfl
@[simp] theorem onClient_way (s : State) (c : Nat) (f : Client → Client) : (s.onClient c f).way = s.way := rfl
@[simp] theorem onClient_fe (s : State) (c : Nat) (f : Client → Client) : (s.onClient c f).fe = s.fe := rfl
@[simp] theorem onClient_roads (s : State) (c : Nat) (f : Client → Client) : (s.onClient c f).roads = s.roads := rfl
@[simp] theorem onClient_up (s : State) (c : Nat) (f : Client → Client) : (s.onClient c f).up = s.up := rfl
@[simp] theorem onClient_hs (s : State) (c : Nat) (f : Client → Client) : (s.onClient c f).hs = s.hs := rfl
@[simp] theorem onClient_tw (s : State) (c : Nat) (f : Client → Client) : (s.onClient c f).tw = s.tw := rfl
@[simp] theorem onClient_attn (s : State) (c : Nat) (f : Client → Client) : (s.onClient c f).attn = s.attn := rfl
@[simp] theorem onClient_clients (s : State) (c : Nat) (f : Client → Client) : (s.onClient c f).clients = s.clients.modify c f := rfl
@[simp] theorem onClient_locks (s : State) (c : Nat) (f : Client → Client) : (s.onClient c f).locks = s.locks := rfl
@[simp] theorem onClient_pin (s : State) (c : Nat) (f : Client → Client) : (s.onClient c f).pin = s.pin := rfl
@[simp] theorem onClient_age (s : State) (c : Nat) (f : Client → Client) : (s.onClient c f).age = s.age := rfl
@[simp] theorem onClient_tap (s : State) (c : Nat) (f : Client → Client) : (s.onClient c f).tap = s.tap := rfl

/-! ### State.onRoad -/

@[simp] theorem onRoad_pending (s : State) (r : Nat) (f : Road → Road) : (s.onRoad r f).pending = s.pending := rfl
@[simp] theorem onRoad_free (s : State) (r : Nat) (f : Road → Road) : (s.onRoad r f).free = s.free := rfl
@[simp] theorem onRoad_power (s : State) (r : Nat) (f : Road → Road) : (s.onRoad r f).power = s.power := rfl
@[simp] theorem onRoad_time (s : State) (r : Nat) (f : Road → Road) : (s.onRoad r f).time = s.time := rfl
@[simp] theorem onRoad_fuses (s : State) (r : Nat) (f : Road → Road) : (s.onRoad r f).fuses = s.fuses := rfl
@[simp] theorem onRoad_straps (s : State) (r : Nat) (f : Road → Road) : (s.onRoad r f).straps = s.straps := rfl
@[simp] theorem onRoad_port (s : State) (r : Nat) (f : Road → Road) : (s.onRoad r f).port = s.port := rfl
@[simp] theorem onRoad_cw (s : State) (r : Nat) (f : Road → Road) : (s.onRoad r f).cw = s.cw := rfl
@[simp] theorem onRoad_spill (s : State) (r : Nat) (f : Road → Road) : (s.onRoad r f).spill = s.spill := rfl
@[simp] theorem onRoad_red (s : State) (r : Nat) (f : Road → Road) : (s.onRoad r f).red = s.red := rfl
@[simp] theorem onRoad_mot (s : State) (r : Nat) (f : Road → Road) : (s.onRoad r f).mot = s.mot := rfl
@[simp] theorem onRoad_prod (s : State) (r : Nat) (f : Road → Road) : (s.onRoad r f).prod = s.prod := rfl
@[simp] theorem onRoad_way (s : State) (r : Nat) (f : Road → Road) : (s.onRoad r f).way = s.way := rfl
@[simp] theorem onRoad_fe (s : State) (r : Nat) (f : Road → Road) : (s.onRoad r f).fe = s.fe := rfl
@[simp] theorem onRoad_roads (s : State) (r : Nat) (f : Road → Road) : (s.onRoad r f).roads = s.roads.modify r f := rfl
@[simp] theorem onRoad_up (s : State) (r : Nat) (f : Road → Road) : (s.onRoad r f).up = s.up := rfl
@[simp] theorem onRoad_hs (s : State) (r : Nat) (f : Road → Road) : (s.onRoad r f).hs = s.hs := rfl
@[simp] theorem onRoad_tw (s : State) (r : Nat) (f : Road → Road) : (s.onRoad r f).tw = s.tw := rfl
@[simp] theorem onRoad_attn (s : State) (r : Nat) (f : Road → Road) : (s.onRoad r f).attn = s.attn := rfl
@[simp] theorem onRoad_clients (s : State) (r : Nat) (f : Road → Road) : (s.onRoad r f).clients = s.clients := rfl
@[simp] theorem onRoad_locks (s : State) (r : Nat) (f : Road → Road) : (s.onRoad r f).locks = s.locks := rfl
@[simp] theorem onRoad_pin (s : State) (r : Nat) (f : Road → Road) : (s.onRoad r f).pin = s.pin := rfl
@[simp] theorem onRoad_age (s : State) (r : Nat) (f : Road → Road) : (s.onRoad r f).age = s.age := rfl
@[simp] theorem onRoad_tap (s : State) (r : Nat) (f : Road → Road) : (s.onRoad r f).tap = s.tap := rfl

/-! ### State.onNode -/

@[simp] theorem onNode_pending (s : State) (r p : Nat) (f : Node → Node) : (s.onNode r p f).pending = s.pending := rfl
@[simp] theorem onNode_free (s : State) (r p : Nat) (f : Node → Node) : (s.onNode r p f).free = s.free := rfl
@[simp] theorem onNode_power (s : State) (r p : Nat) (f : Node → Node) : (s.onNode r p f).power = s.power := rfl
@[simp] theorem onNode_time (s : State) (r p : Nat) (f : Node → Node) : (s.onNode r p f).time = s.time := rfl
@[simp] theorem onNode_fuses (s : State) (r p : Nat) (f : Node → Node) : (s.onNode r p f).fuses = s.fuses := rfl
@[simp] theorem onNode_straps (s : State) (r p : Nat) (f : Node → Node) : (s.onNode r p f).straps = s.straps := rfl
@[simp] theorem onNode_port (s : State) (r p : Nat) (f : Node → Node) : (s.onNode r p f).port = s.port := rfl
@[simp] theorem onNode_cw (s : State) (r p : Nat) (f : Node → Node) : (s.onNode r p f).cw = s.cw := rfl
@[simp] theorem onNode_spill (s : State) (r p : Nat) (f : Node → Node) : (s.onNode r p f).spill = s.spill := rfl
@[simp] theorem onNode_red (s : State) (r p : Nat) (f : Node → Node) : (s.onNode r p f).red = s.red := rfl
@[simp] theorem onNode_mot (s : State) (r p : Nat) (f : Node → Node) : (s.onNode r p f).mot = s.mot := rfl
@[simp] theorem onNode_prod (s : State) (r p : Nat) (f : Node → Node) : (s.onNode r p f).prod = s.prod := rfl
@[simp] theorem onNode_way (s : State) (r p : Nat) (f : Node → Node) : (s.onNode r p f).way = s.way := rfl
@[simp] theorem onNode_fe (s : State) (r p : Nat) (f : Node → Node) : (s.onNode r p f).fe = s.fe := rfl
@[simp] theorem onNode_roads (s : State) (r p : Nat) (f : Node → Node) : (s.onNode r p f).roads = s.roads.modify r (·.onNode p f) := rfl
@[simp] theorem onNode_up (s : State) (r p : Nat) (f : Node → Node) : (s.onNode r p f).up = s.up := rfl
@[simp] theorem onNode_hs (s : State) (r p : Nat) (f : Node → Node) : (s.onNode r p f).hs = s.hs := rfl
@[simp] theorem onNode_tw (s : State) (r p : Nat) (f : Node → Node) : (s.onNode r p f).tw = s.tw := rfl
@[simp] theorem onNode_attn (s : State) (r p : Nat) (f : Node → Node) : (s.onNode r p f).attn = s.attn := rfl
@[simp] theorem onNode_clients (s : State) (r p : Nat) (f : Node → Node) : (s.onNode r p f).clients = s.clients := rfl
@[simp] theorem onNode_locks (s : State) (r p : Nat) (f : Node → Node) : (s.onNode r p f).locks = s.locks := rfl
@[simp] theorem onNode_pin (s : State) (r p : Nat) (f : Node → Node) : (s.onNode r p f).pin = s.pin := rfl
@[simp] theorem onNode_age (s : State) (r p : Nat) (f : Node → Node) : (s.onNode r p f).age = s.age := rfl
@[simp] theorem onNode_tap (s : State) (r p : Nat) (f : Node → Node) : (s.onNode r p f).tap = s.tap := rfl

/-! ### State.onFe -/

@[simp] theorem onFe_pending (s : State) (ch : Nat) (f : FeCh → FeCh) : (s.onFe ch f).pending = s.pending := rfl
@[simp] theorem onFe_free (s : State) (ch : Nat) (f : FeCh → FeCh) : (s.onFe ch f).free = s.free := rfl
@[simp] theorem onFe_power (s : State) (ch : Nat) (f : FeCh → FeCh) : (s.onFe ch f).power = s.power := rfl
@[simp] theorem onFe_time (s : State) (ch : Nat) (f : FeCh → FeCh) : (s.onFe ch f).time = s.time := rfl
@[simp] theorem onFe_fuses (s : State) (ch : Nat) (f : FeCh → FeCh) : (s.onFe ch f).fuses = s.fuses := rfl
@[simp] theorem onFe_straps (s : State) (ch : Nat) (f : FeCh → FeCh) : (s.onFe ch f).straps = s.straps := rfl
@[simp] theorem onFe_port (s : State) (ch : Nat) (f : FeCh → FeCh) : (s.onFe ch f).port = s.port := rfl
@[simp] theorem onFe_cw (s : State) (ch : Nat) (f : FeCh → FeCh) : (s.onFe ch f).cw = s.cw := rfl
@[simp] theorem onFe_spill (s : State) (ch : Nat) (f : FeCh → FeCh) : (s.onFe ch f).spill = s.spill := rfl
@[simp] theorem onFe_red (s : State) (ch : Nat) (f : FeCh → FeCh) : (s.onFe ch f).red = s.red := rfl
@[simp] theorem onFe_mot (s : State) (ch : Nat) (f : FeCh → FeCh) : (s.onFe ch f).mot = s.mot := rfl
@[simp] theorem onFe_prod (s : State) (ch : Nat) (f : FeCh → FeCh) : (s.onFe ch f).prod = s.prod := rfl
@[simp] theorem onFe_way (s : State) (ch : Nat) (f : FeCh → FeCh) : (s.onFe ch f).way = s.way := rfl
@[simp] theorem onFe_fe (s : State) (ch : Nat) (f : FeCh → FeCh) : (s.onFe ch f).fe = { s.fe with ch := s.fe.ch.modify ch f } := rfl
@[simp] theorem onFe_roads (s : State) (ch : Nat) (f : FeCh → FeCh) : (s.onFe ch f).roads = s.roads := rfl
@[simp] theorem onFe_up (s : State) (ch : Nat) (f : FeCh → FeCh) : (s.onFe ch f).up = s.up := rfl
@[simp] theorem onFe_hs (s : State) (ch : Nat) (f : FeCh → FeCh) : (s.onFe ch f).hs = s.hs := rfl
@[simp] theorem onFe_tw (s : State) (ch : Nat) (f : FeCh → FeCh) : (s.onFe ch f).tw = s.tw := rfl
@[simp] theorem onFe_attn (s : State) (ch : Nat) (f : FeCh → FeCh) : (s.onFe ch f).attn = s.attn := rfl
@[simp] theorem onFe_clients (s : State) (ch : Nat) (f : FeCh → FeCh) : (s.onFe ch f).clients = s.clients := rfl
@[simp] theorem onFe_locks (s : State) (ch : Nat) (f : FeCh → FeCh) : (s.onFe ch f).locks = s.locks := rfl
@[simp] theorem onFe_pin (s : State) (ch : Nat) (f : FeCh → FeCh) : (s.onFe ch f).pin = s.pin := rfl
@[simp] theorem onFe_age (s : State) (ch : Nat) (f : FeCh → FeCh) : (s.onFe ch f).age = s.age := rfl
@[simp] theorem onFe_tap (s : State) (ch : Nat) (f : FeCh → FeCh) : (s.onFe ch f).tap = s.tap := rfl

/-! ### State.onPin -/

@[simp] theorem onPin_pending (s : State) (e : Nat) (f : PinSt → PinSt) : (s.onPin e f).pending = s.pending := rfl
@[simp] theorem onPin_free (s : State) (e : Nat) (f : PinSt → PinSt) : (s.onPin e f).free = s.free := rfl
@[simp] theorem onPin_power (s : State) (e : Nat) (f : PinSt → PinSt) : (s.onPin e f).power = s.power := rfl
@[simp] theorem onPin_time (s : State) (e : Nat) (f : PinSt → PinSt) : (s.onPin e f).time = s.time := rfl
@[simp] theorem onPin_fuses (s : State) (e : Nat) (f : PinSt → PinSt) : (s.onPin e f).fuses = s.fuses := rfl
@[simp] theorem onPin_straps (s : State) (e : Nat) (f : PinSt → PinSt) : (s.onPin e f).straps = s.straps := rfl
@[simp] theorem onPin_port (s : State) (e : Nat) (f : PinSt → PinSt) : (s.onPin e f).port = s.port := rfl
@[simp] theorem onPin_cw (s : State) (e : Nat) (f : PinSt → PinSt) : (s.onPin e f).cw = s.cw := rfl
@[simp] theorem onPin_spill (s : State) (e : Nat) (f : PinSt → PinSt) : (s.onPin e f).spill = s.spill := rfl
@[simp] theorem onPin_red (s : State) (e : Nat) (f : PinSt → PinSt) : (s.onPin e f).red = s.red := rfl
@[simp] theorem onPin_mot (s : State) (e : Nat) (f : PinSt → PinSt) : (s.onPin e f).mot = s.mot := rfl
@[simp] theorem onPin_prod (s : State) (e : Nat) (f : PinSt → PinSt) : (s.onPin e f).prod = s.prod := rfl
@[simp] theorem onPin_way (s : State) (e : Nat) (f : PinSt → PinSt) : (s.onPin e f).way = s.way := rfl
@[simp] theorem onPin_fe (s : State) (e : Nat) (f : PinSt → PinSt) : (s.onPin e f).fe = s.fe := rfl
@[simp] theorem onPin_roads (s : State) (e : Nat) (f : PinSt → PinSt) : (s.onPin e f).roads = s.roads := rfl
@[simp] theorem onPin_up (s : State) (e : Nat) (f : PinSt → PinSt) : (s.onPin e f).up = s.up := rfl
@[simp] theorem onPin_hs (s : State) (e : Nat) (f : PinSt → PinSt) : (s.onPin e f).hs = s.hs := rfl
@[simp] theorem onPin_tw (s : State) (e : Nat) (f : PinSt → PinSt) : (s.onPin e f).tw = s.tw := rfl
@[simp] theorem onPin_attn (s : State) (e : Nat) (f : PinSt → PinSt) : (s.onPin e f).attn = s.attn := rfl
@[simp] theorem onPin_clients (s : State) (e : Nat) (f : PinSt → PinSt) : (s.onPin e f).clients = s.clients := rfl
@[simp] theorem onPin_locks (s : State) (e : Nat) (f : PinSt → PinSt) : (s.onPin e f).locks = s.locks := rfl
@[simp] theorem onPin_pin (s : State) (e : Nat) (f : PinSt → PinSt) : (s.onPin e f).pin = { s.pin with eng := s.pin.eng.modify e f } := rfl
@[simp] theorem onPin_age (s : State) (e : Nat) (f : PinSt → PinSt) : (s.onPin e f).age = s.age := rfl
@[simp] theorem onPin_tap (s : State) (e : Nat) (f : PinSt → PinSt) : (s.onPin e f).tap = s.tap := rfl

/-! ### State.onEng -/

@[simp] theorem onEng_pending (s : State) (e : Nat) (f : WmSt → WmSt) : (s.onEng e f).pending = s.pending := rfl
@[simp] theorem onEng_free (s : State) (e : Nat) (f : WmSt → WmSt) : (s.onEng e f).free = s.free := rfl
@[simp] theorem onEng_power (s : State) (e : Nat) (f : WmSt → WmSt) : (s.onEng e f).power = s.power := rfl
@[simp] theorem onEng_time (s : State) (e : Nat) (f : WmSt → WmSt) : (s.onEng e f).time = s.time := rfl
@[simp] theorem onEng_fuses (s : State) (e : Nat) (f : WmSt → WmSt) : (s.onEng e f).fuses = s.fuses := rfl
@[simp] theorem onEng_straps (s : State) (e : Nat) (f : WmSt → WmSt) : (s.onEng e f).straps = s.straps := rfl
@[simp] theorem onEng_port (s : State) (e : Nat) (f : WmSt → WmSt) : (s.onEng e f).port = s.port := rfl
@[simp] theorem onEng_cw (s : State) (e : Nat) (f : WmSt → WmSt) : (s.onEng e f).cw = s.cw := rfl
@[simp] theorem onEng_spill (s : State) (e : Nat) (f : WmSt → WmSt) : (s.onEng e f).spill = s.spill := rfl
@[simp] theorem onEng_red (s : State) (e : Nat) (f : WmSt → WmSt) : (s.onEng e f).red = s.red := rfl
@[simp] theorem onEng_mot (s : State) (e : Nat) (f : WmSt → WmSt) : (s.onEng e f).mot = s.mot := rfl
@[simp] theorem onEng_prod (s : State) (e : Nat) (f : WmSt → WmSt) : (s.onEng e f).prod = s.prod := rfl
@[simp] theorem onEng_way (s : State) (e : Nat) (f : WmSt → WmSt) : (s.onEng e f).way = { s.way with eng := s.way.eng.modify e f } := rfl
@[simp] theorem onEng_fe (s : State) (e : Nat) (f : WmSt → WmSt) : (s.onEng e f).fe = s.fe := rfl
@[simp] theorem onEng_roads (s : State) (e : Nat) (f : WmSt → WmSt) : (s.onEng e f).roads = s.roads := rfl
@[simp] theorem onEng_up (s : State) (e : Nat) (f : WmSt → WmSt) : (s.onEng e f).up = s.up := rfl
@[simp] theorem onEng_hs (s : State) (e : Nat) (f : WmSt → WmSt) : (s.onEng e f).hs = s.hs := rfl
@[simp] theorem onEng_tw (s : State) (e : Nat) (f : WmSt → WmSt) : (s.onEng e f).tw = s.tw := rfl
@[simp] theorem onEng_attn (s : State) (e : Nat) (f : WmSt → WmSt) : (s.onEng e f).attn = s.attn := rfl
@[simp] theorem onEng_clients (s : State) (e : Nat) (f : WmSt → WmSt) : (s.onEng e f).clients = s.clients := rfl
@[simp] theorem onEng_locks (s : State) (e : Nat) (f : WmSt → WmSt) : (s.onEng e f).locks = s.locks := rfl
@[simp] theorem onEng_pin (s : State) (e : Nat) (f : WmSt → WmSt) : (s.onEng e f).pin = s.pin := rfl
@[simp] theorem onEng_age (s : State) (e : Nat) (f : WmSt → WmSt) : (s.onEng e f).age = s.age := rfl
@[simp] theorem onEng_tap (s : State) (e : Nat) (f : WmSt → WmSt) : (s.onEng e f).tap = s.tap := rfl

/-! ### State.onRec -/

@[simp] theorem onRec_pending (s : State) (r : Nat) (f : RecSt → RecSt) : (s.onRec r f).pending = s.pending := rfl
@[simp] theorem onRec_free (s : State) (r : Nat) (f : RecSt → RecSt) : (s.onRec r f).free = s.free := rfl
@[simp] theorem onRec_power (s : State) (r : Nat) (f : RecSt → RecSt) : (s.onRec r f).power = s.power := rfl
@[simp] theorem onRec_time (s : State) (r : Nat) (f : RecSt → RecSt) : (s.onRec r f).time = s.time := rfl
@[simp] theorem onRec_fuses (s : State) (r : Nat) (f : RecSt → RecSt) : (s.onRec r f).fuses = s.fuses := rfl
@[simp] theorem onRec_straps (s : State) (r : Nat) (f : RecSt → RecSt) : (s.onRec r f).straps = s.straps := rfl
@[simp] theorem onRec_port (s : State) (r : Nat) (f : RecSt → RecSt) : (s.onRec r f).port = s.port := rfl
@[simp] theorem onRec_cw (s : State) (r : Nat) (f : RecSt → RecSt) : (s.onRec r f).cw = s.cw := rfl
@[simp] theorem onRec_spill (s : State) (r : Nat) (f : RecSt → RecSt) : (s.onRec r f).spill = s.spill := rfl
@[simp] theorem onRec_red (s : State) (r : Nat) (f : RecSt → RecSt) : (s.onRec r f).red = s.red := rfl
@[simp] theorem onRec_mot (s : State) (r : Nat) (f : RecSt → RecSt) : (s.onRec r f).mot = s.mot := rfl
@[simp] theorem onRec_prod (s : State) (r : Nat) (f : RecSt → RecSt) : (s.onRec r f).prod = s.prod := rfl
@[simp] theorem onRec_way (s : State) (r : Nat) (f : RecSt → RecSt) : (s.onRec r f).way = { s.way with recs := s.way.recs.modify r f } := rfl
@[simp] theorem onRec_fe (s : State) (r : Nat) (f : RecSt → RecSt) : (s.onRec r f).fe = s.fe := rfl
@[simp] theorem onRec_roads (s : State) (r : Nat) (f : RecSt → RecSt) : (s.onRec r f).roads = s.roads := rfl
@[simp] theorem onRec_up (s : State) (r : Nat) (f : RecSt → RecSt) : (s.onRec r f).up = s.up := rfl
@[simp] theorem onRec_hs (s : State) (r : Nat) (f : RecSt → RecSt) : (s.onRec r f).hs = s.hs := rfl
@[simp] theorem onRec_tw (s : State) (r : Nat) (f : RecSt → RecSt) : (s.onRec r f).tw = s.tw := rfl
@[simp] theorem onRec_attn (s : State) (r : Nat) (f : RecSt → RecSt) : (s.onRec r f).attn = s.attn := rfl
@[simp] theorem onRec_clients (s : State) (r : Nat) (f : RecSt → RecSt) : (s.onRec r f).clients = s.clients := rfl
@[simp] theorem onRec_locks (s : State) (r : Nat) (f : RecSt → RecSt) : (s.onRec r f).locks = s.locks := rfl
@[simp] theorem onRec_pin (s : State) (r : Nat) (f : RecSt → RecSt) : (s.onRec r f).pin = s.pin := rfl
@[simp] theorem onRec_age (s : State) (r : Nat) (f : RecSt → RecSt) : (s.onRec r f).age = s.age := rfl
@[simp] theorem onRec_tap (s : State) (r : Nat) (f : RecSt → RecSt) : (s.onRec r f).tap = s.tap := rfl

/-! ### State.onCal -/

@[simp] theorem onCal_pending (s : State) (i : Nat) (f : CalCh → CalCh) : (s.onCal i f).pending = s.pending := rfl
@[simp] theorem onCal_free (s : State) (i : Nat) (f : CalCh → CalCh) : (s.onCal i f).free = s.free := rfl
@[simp] theorem onCal_power (s : State) (i : Nat) (f : CalCh → CalCh) : (s.onCal i f).power = s.power := rfl
@[simp] theorem onCal_time (s : State) (i : Nat) (f : CalCh → CalCh) : (s.onCal i f).time = s.time := rfl
@[simp] theorem onCal_fuses (s : State) (i : Nat) (f : CalCh → CalCh) : (s.onCal i f).fuses = s.fuses := rfl
@[simp] theorem onCal_straps (s : State) (i : Nat) (f : CalCh → CalCh) : (s.onCal i f).straps = s.straps := rfl
@[simp] theorem onCal_port (s : State) (i : Nat) (f : CalCh → CalCh) : (s.onCal i f).port = s.port := rfl
@[simp] theorem onCal_cw (s : State) (i : Nat) (f : CalCh → CalCh) : (s.onCal i f).cw = s.cw := rfl
@[simp] theorem onCal_spill (s : State) (i : Nat) (f : CalCh → CalCh) : (s.onCal i f).spill = s.spill := rfl
@[simp] theorem onCal_red (s : State) (i : Nat) (f : CalCh → CalCh) : (s.onCal i f).red = s.red := rfl
@[simp] theorem onCal_mot (s : State) (i : Nat) (f : CalCh → CalCh) : (s.onCal i f).mot = { s.mot with cal := s.mot.cal.modify i f } := rfl
@[simp] theorem onCal_prod (s : State) (i : Nat) (f : CalCh → CalCh) : (s.onCal i f).prod = s.prod := rfl
@[simp] theorem onCal_way (s : State) (i : Nat) (f : CalCh → CalCh) : (s.onCal i f).way = s.way := rfl
@[simp] theorem onCal_fe (s : State) (i : Nat) (f : CalCh → CalCh) : (s.onCal i f).fe = s.fe := rfl
@[simp] theorem onCal_roads (s : State) (i : Nat) (f : CalCh → CalCh) : (s.onCal i f).roads = s.roads := rfl
@[simp] theorem onCal_up (s : State) (i : Nat) (f : CalCh → CalCh) : (s.onCal i f).up = s.up := rfl
@[simp] theorem onCal_hs (s : State) (i : Nat) (f : CalCh → CalCh) : (s.onCal i f).hs = s.hs := rfl
@[simp] theorem onCal_tw (s : State) (i : Nat) (f : CalCh → CalCh) : (s.onCal i f).tw = s.tw := rfl
@[simp] theorem onCal_attn (s : State) (i : Nat) (f : CalCh → CalCh) : (s.onCal i f).attn = s.attn := rfl
@[simp] theorem onCal_clients (s : State) (i : Nat) (f : CalCh → CalCh) : (s.onCal i f).clients = s.clients := rfl
@[simp] theorem onCal_locks (s : State) (i : Nat) (f : CalCh → CalCh) : (s.onCal i f).locks = s.locks := rfl
@[simp] theorem onCal_pin (s : State) (i : Nat) (f : CalCh → CalCh) : (s.onCal i f).pin = s.pin := rfl
@[simp] theorem onCal_age (s : State) (i : Nat) (f : CalCh → CalCh) : (s.onCal i f).age = s.age := rfl
@[simp] theorem onCal_tap (s : State) (i : Nat) (f : CalCh → CalCh) : (s.onCal i f).tap = s.tap := rfl

/-! ### State.onPort -/

@[simp] theorem onPort_pending (s : State) (p : Nat) (f : UpPort → UpPort) : (s.onPort p f).pending = s.pending := rfl
@[simp] theorem onPort_free (s : State) (p : Nat) (f : UpPort → UpPort) : (s.onPort p f).free = s.free := rfl
@[simp] theorem onPort_power (s : State) (p : Nat) (f : UpPort → UpPort) : (s.onPort p f).power = s.power := rfl
@[simp] theorem onPort_time (s : State) (p : Nat) (f : UpPort → UpPort) : (s.onPort p f).time = s.time := rfl
@[simp] theorem onPort_fuses (s : State) (p : Nat) (f : UpPort → UpPort) : (s.onPort p f).fuses = s.fuses := rfl
@[simp] theorem onPort_straps (s : State) (p : Nat) (f : UpPort → UpPort) : (s.onPort p f).straps = s.straps := rfl
@[simp] theorem onPort_port (s : State) (p : Nat) (f : UpPort → UpPort) : (s.onPort p f).port = s.port := rfl
@[simp] theorem onPort_cw (s : State) (p : Nat) (f : UpPort → UpPort) : (s.onPort p f).cw = s.cw := rfl
@[simp] theorem onPort_spill (s : State) (p : Nat) (f : UpPort → UpPort) : (s.onPort p f).spill = s.spill := rfl
@[simp] theorem onPort_red (s : State) (p : Nat) (f : UpPort → UpPort) : (s.onPort p f).red = s.red := rfl
@[simp] theorem onPort_mot (s : State) (p : Nat) (f : UpPort → UpPort) : (s.onPort p f).mot = s.mot := rfl
@[simp] theorem onPort_prod (s : State) (p : Nat) (f : UpPort → UpPort) : (s.onPort p f).prod = s.prod := rfl
@[simp] theorem onPort_way (s : State) (p : Nat) (f : UpPort → UpPort) : (s.onPort p f).way = s.way := rfl
@[simp] theorem onPort_fe (s : State) (p : Nat) (f : UpPort → UpPort) : (s.onPort p f).fe = s.fe := rfl
@[simp] theorem onPort_roads (s : State) (p : Nat) (f : UpPort → UpPort) : (s.onPort p f).roads = s.roads := rfl
@[simp] theorem onPort_up (s : State) (p : Nat) (f : UpPort → UpPort) : (s.onPort p f).up = { s.up with ports := s.up.ports.modify p f } := rfl
@[simp] theorem onPort_hs (s : State) (p : Nat) (f : UpPort → UpPort) : (s.onPort p f).hs = s.hs := rfl
@[simp] theorem onPort_tw (s : State) (p : Nat) (f : UpPort → UpPort) : (s.onPort p f).tw = s.tw := rfl
@[simp] theorem onPort_attn (s : State) (p : Nat) (f : UpPort → UpPort) : (s.onPort p f).attn = s.attn := rfl
@[simp] theorem onPort_clients (s : State) (p : Nat) (f : UpPort → UpPort) : (s.onPort p f).clients = s.clients := rfl
@[simp] theorem onPort_locks (s : State) (p : Nat) (f : UpPort → UpPort) : (s.onPort p f).locks = s.locks := rfl
@[simp] theorem onPort_pin (s : State) (p : Nat) (f : UpPort → UpPort) : (s.onPort p f).pin = s.pin := rfl
@[simp] theorem onPort_age (s : State) (p : Nat) (f : UpPort → UpPort) : (s.onPort p f).age = s.age := rfl
@[simp] theorem onPort_tap (s : State) (p : Nat) (f : UpPort → UpPort) : (s.onPort p f).tap = s.tap := rfl

/-! ### State.addAct -/

@[simp] theorem addAct_pending (s : State) (a : Action) : (s.addAct a).pending = s.pending := rfl
@[simp] theorem addAct_free (s : State) (a : Action) : (s.addAct a).free = s.free := rfl
@[simp] theorem addAct_power (s : State) (a : Action) : (s.addAct a).power = s.power := rfl
@[simp] theorem addAct_time (s : State) (a : Action) : (s.addAct a).time = { s.time with acts := s.time.acts ++ [a] } := rfl
@[simp] theorem addAct_fuses (s : State) (a : Action) : (s.addAct a).fuses = s.fuses := rfl
@[simp] theorem addAct_straps (s : State) (a : Action) : (s.addAct a).straps = s.straps := rfl
@[simp] theorem addAct_port (s : State) (a : Action) : (s.addAct a).port = s.port := rfl
@[simp] theorem addAct_cw (s : State) (a : Action) : (s.addAct a).cw = s.cw := rfl
@[simp] theorem addAct_spill (s : State) (a : Action) : (s.addAct a).spill = s.spill := rfl
@[simp] theorem addAct_red (s : State) (a : Action) : (s.addAct a).red = s.red := rfl
@[simp] theorem addAct_mot (s : State) (a : Action) : (s.addAct a).mot = s.mot := rfl
@[simp] theorem addAct_prod (s : State) (a : Action) : (s.addAct a).prod = s.prod := rfl
@[simp] theorem addAct_way (s : State) (a : Action) : (s.addAct a).way = s.way := rfl
@[simp] theorem addAct_fe (s : State) (a : Action) : (s.addAct a).fe = s.fe := rfl
@[simp] theorem addAct_roads (s : State) (a : Action) : (s.addAct a).roads = s.roads := rfl
@[simp] theorem addAct_up (s : State) (a : Action) : (s.addAct a).up = s.up := rfl
@[simp] theorem addAct_hs (s : State) (a : Action) : (s.addAct a).hs = s.hs := rfl
@[simp] theorem addAct_tw (s : State) (a : Action) : (s.addAct a).tw = s.tw := rfl
@[simp] theorem addAct_attn (s : State) (a : Action) : (s.addAct a).attn = s.attn := rfl
@[simp] theorem addAct_clients (s : State) (a : Action) : (s.addAct a).clients = s.clients := rfl
@[simp] theorem addAct_locks (s : State) (a : Action) : (s.addAct a).locks = s.locks := rfl
@[simp] theorem addAct_pin (s : State) (a : Action) : (s.addAct a).pin = s.pin := rfl
@[simp] theorem addAct_age (s : State) (a : Action) : (s.addAct a).age = s.age := rfl
@[simp] theorem addAct_tap (s : State) (a : Action) : (s.addAct a).tap = s.tap := rfl

end Sys2Proof.Machine
end

