-- ==== Sys2Proof/Tests/Slice0.lean ====
section
/-! SUPPORT. The model's own tests. For every statement that has hypotheses a theorem witness_<its name> gives concrete states
and operands that meet them all, clause by clause: it applies the statement to them, with a proof of every hypothesis, and
concludes that the command answers a next state there. Then one ill-formed term for each check of WellFormed, and examples
that the spec works out itself. -/

open Sys2Proof Sys2Proof.Machine
namespace Sys2Proof.Tests

set_option Elab.async false

/-! ### States for the witnesses -/

/-- An image with attention calls of three attempts, U0 an Operator with launch entry 0, and the hub at 10.0.0.1. -/
def im0 : Image :=
  { (default : Image) with
    clients :=
      { (default : ClientTable) with
        attnAddr := 0x10, attnRetry := 5, attnTries := 3, causeMask := 7
        net := { mac := [2, 0, 0, 0, 0, 1], ipaddr := 0x0A000001, prefixLen := 24, gateway := 0, streamPort := 5001
                 ctrlPort := 5000, heartbeat := 1 }
        time := { n0Domain := 0, n1Domain := 1, n0Transport := 1, n1Transport := 0, ppsFalling := false, tc := false
                  lockNs := 1000, unlockUs := 100, stepUs := 100 }
        clients := [{ addr := 0x0A000002, port := 5002, role := 1, slotted := false, viewset := 0, window := 1, rate := 100 }]
        launches := [{ used := true, tb := 2, port := 0, client := 0, host := true, periodic := false, maxDgram := 1
                       periodMs := 0, phaseUs := 0 }] } }

/-- A hub that runs in Highway: HS and TW are Keepers (STRAP1 code 5, STRAP3 code 3), STRAP13 code 6 allows Service windows. -/
def hub : State :=
  { State.reset with
    power := { Power.init with phase := .running, resetN := true, memDone := true, session := some 5, mode := some .highway
                               islands := List.replicate 12 .running }
    time := { Time.init with ps := 7000000000000, gIdx := 7168, issued := 7168 }
    straps := { Straps.init with accepted := true, codes := [0, 5, 0, 3, 0, 0, 0, 0, 0, 0, 0, 0, 0, 6, 0, 0] }
    port := { ImagePort.init with inForce := some im0 } }

/-- HS holds a response open. -/
def hsOpen : State := { hub with hs := { Port.init with isOpen := true, content := 1, lines := 1, from_ := 1 } }

/-- A frame of 16 words that asks for nothing, as its bits on HSDI (R424, R427). -/
def goodFrame : List Bool := serialBits (0x10000000#32 :: List.replicate 15 0)

/-- A data line that a rejected frame carried. -/
def lineAgain : Body :=
  { Body.none_ with content := 1, ws := [1, 2, 3, 4], took := [{ item := .nothing, lines := 1, before := 0, whole := true }] }

/-- HS after that frame. -/
def hsAgain : State := { hub with hs := { Port.init with again := some lineAgain, rejected := true, from_ := 1 } }

/-- The next state of a command: what a witness of a completion shows. -/
abbrev completes (c : Instr) (s : State) : Prop := ∃ t, exec c s = .next t

/-- The two-wire port in a read of one data line, held. -/
def twHeld : State :=
  { hub with tw := { Port.init with isOpen := true, stretch := true, content := 1, lines := 1, from_ := 1, bytesRead := 32 } }

/-- A held read that ends otherwise. -/
def twEnding (e : TwEnd) : State := { twHeld with tw := { twHeld.tw with ending := e } }

/-- A transaction open without a hold. -/
def twOpen : State := { hub with tw := { Port.init with isOpen := true } }

/-- A QUIET request. -/
def quiet : List Byte := [0, 0, 0, 0x13] ++ List.replicate 12 0

/-- Both ports hold a partial message for more than 1 s. -/
def partials : State :=
  { hub with hs := { Port.init with asmN := 2, asmWords := [1], asmNext := 1 }
             tw := { Port.init with asmN := 2, asmWords := [1], asmNext := 1 } }

/-- A call of cause 0x4 waits, with one of cause 0x1 behind it. -/
def calls : State :=
  { hub with attn := { Attn.init with c4 := some ⟨4, 2, 0⟩, c1 := some ⟨1, 0, 0⟩, seq := 15 } }

/-- A call was tried n times. -/
def tried (n : Nat) : State := { hub with attn := { Attn.init with cur := some (⟨4, 2, 0⟩, n) } }

/-- A message from client c in role r. -/
def msg (c r typ : Nat) (ws : List Word) : List Word := mailWords typ 7 (identWord c r) ws

/-- The message just accepted of a client, as its work. -/
def atWork (typ : Nat) (m : List Word) : Client :=
  { Client.init with nextIn := some 8, lastCmp := some 7, work := [(m, 0)], vote := 2
                     reps := [{ cmp := 7, typ := typ, acc := 0, body := none }] }

/-- The hub with HS an Operator and a message of it at work. -/
def atHs (typ : Nat) (ws : List Word) : State :=
  { hub with straps := { hub.straps with codes := [0, 3, 0, 2, 0, 0, 0, 0, 0, 0, 0, 0, 0, 6, 0, 0] }
             clients := hub.clients.set 4 (atWork typ (msg 4 1 typ ws))
             cw := { Causeway.init with readers := (List.replicate 11 { Reader.init with count := 9, next := 4, delivered := 3 }) } }

/-- The hub with a message in the inbound slot of HS. -/
def slotHs (m : List Word) : State := { hub with clients := hub.clients.set 4 { Client.init with inSlot := some m } }

/-- A restore of client c with one fragment staged, and the next one at work. -/
def staging (c : Nat) (verified : Bool) : State :=
  { atHs 0x09 [0x2801, 7, 8] with
    mot := { Motion.init with restore := some { client := c, words := [5, 6], frags := 1, last := 1000000000000, verified := verified
                                                ready := [], commit := none, cmp := 6, acc := 0 } } }

/-- A Service window that ends 7 s after the release of RESET_N. -/
def windowed : State := { hub with power := { hub.power with service := some 7000000000 } }

/-- PPS is locked at edge 3, and a label for edge 5 is at work. -/
def ppsLocked : State :=
  { atHs 0x0E [5, 100] with time := { hub.time with pps := { Time.init.pps with st := 2, count := 3 } } }

/-- A LAUNCH of U0 for entry e at an instant of TB-G. -/
def launchAsked (hi e : Nat) : State :=
  { hub with clients := hub.clients.set 0 (atWork 0x0F (msg 0 1 0x0F [word (1 - e), 3000000000, word (hi + 1)])) }

/-- TW and HS ask for lock 2 within one decision. -/
def contend : State :=
  let s := atHs 0x06 [0x2003C]
  { s with clients := s.clients.set 5 (atWork 0x06 (msg 5 1 0x06 [0x2001E])) }

/-- HS holds lock 2 until 7 s, and asks to free lock k. -/
def holding (k : Nat) : State :=
  let s := atHs 0x07 [word k]
  { s with locks := s.locks.set 2 { holder := some 4, ends := 7000001000 } }

/-- The address of U0's station. -/
def macU0 : List Byte := [2, 0, 0, 0, 0, 9]

/-- The hub with port 0 linked and U0 resolved and learned there. -/
def linkedHub : State :=
  { hub with up := { Uplink.init with
      ports := [{ UpPort.init with link := true }, { UpPort.init with link := true }]
      macs := [(macU0, 0, 0)]
      arps := { mac := some macU0, misses := 1, last := 0, asked := true } :: List.replicate 3 default } }

/-- A closed packet of the Causeway that reader r takes as its milepost m. -/
def stored (r : Nat) (m : Word) (ws : List Word) : Packet :=
  { wholePacket 0 0 0 ws with inCw := true, gmp := 1, mps := [(r, m)] }

/-- U0's reader has one packet to deliver. -/
def streamHub : State :=
  { linkedHub with cw := { Causeway.init with
      gmp := 1, closed := [stored 0 1 [1, 2, 3, 4]], readers := { Reader.init with count := 1 } :: List.replicate 10 Reader.init } }

/-- A partner that can use 2.4 Vpp alone. -/
def partner24 : LinkPartner := { at24 := true, at10 := false }

/-- An IPv4 frame from U0 to the hub. -/
def ipFrame (proto : Nat) (body : List Byte) : EthFrame :=
  { bytes := etherFrame [2, 0, 0, 0, 0, 1] macU0 0x0800 (ipDatagram 1 proto 0x0A000002 0x0A000001 body), fcsGood := true }

/-- What the hub takes of such a frame. -/
def ipIn (proto : Nat) (body : List Byte) : IpIn := { src := 0x0A000002, dst := 0x0A000001, proto := proto, body := body }

/-- The ICMP echo request, with its checksum. -/
def echoBody : List Byte := [8, 0, 0xF7, 0xFE, 0, 1, 0, 0]

/-- A control datagram from U0. -/
def ctrlUdp : List Byte :=
  udpBody false 0x0A000002 0x0A000001 5002 5000 (bytesOfWords ([0x14000000, 0] ++ msg 0 1 0x0A []))

/-- No client has that address. -/
def strange : State :=
  { linkedHub with port := { ImagePort.init with inForce := some { im0 with clients := { im0.clients with clients := [] } } } }

/-- An ARP frame from a station with address spa. -/
def arpFrame (op : Nat) (spa : Word) : EthFrame :=
  { bytes := etherFrame bcast macU0 0x0806 (arpPacket op macU0 spa [0, 0, 0, 0, 0, 0] 0x0A000001), fcsGood := true }

/-- A frame between two stations. -/
def passing (dst : List Byte) (good : Bool) : EthFrame := { bytes := etherFrame dst [2, 0, 0, 0, 0, 7] 0x88B5 [], fcsGood := good }

/-- A forwarded frame of 1,532 bytes. -/
def waitingFrame : Egress := { (default : Egress) with bytes := List.replicate 1532 0, fwd := true }

/-- Both ports linked, with 24 KiB of forwarded frames queued on port 1. -/
def crowded : State :=
  { linkedHub with up := { linkedHub.up with
      ports := [{ UpPort.init with link := true },
                { UpPort.init with link := true, queue := (List.range 16).map fun _ => waitingFrame }] } }

/-- The hub with one launch of entry 0 scheduled for t on TB-G. -/
def launchSet (t : Nat) : State :=
  { linkedHub with time := { hub.time with acts := [{ tb := 2, t := t, entry := 0, periodic := false, stepped := false, alarm := false }] } }

/-- Its instant has come. -/
def actHub : State := launchSet 6999999900

/-- The same in Footpath. -/
def inFootpath : State := { actHub with power := { hub.power with mode := some .footpath, islands := (List.range 12).map (islandIn .footpath) } }

/-- The hub in Layby, with every wake source armed. -/
def layby : State :=
  { actHub with
    power := { hub.power with mode := some .layby, islands := (List.range 12).map (islandIn .layby) }
    port := { ImagePort.init with inForce := some { im0 with
      recogs := List.replicate 6 { view := 0, en := true, hold := 0, w := List.replicate 8 0 } } } }

/-- A master. -/
def masterId : PortId := { clock := 7, port := 1 }

/-- Domain 0 follows a master. -/
def mastered : State :=
  { linkedHub with time := { hub.time with n := [{ Ptp.init with master := some masterId, st := .locked }, Ptp.init] } }

/-- Layby entry is at its last step. -/
def entering : State := { layby with power := { layby.power with entering := some 0 } }

/-- A wake in which islands 8 and 9 still power. -/
def waking2 : State :=
  { layby with power := { layby.power with
      waking := some 5, islands := List.replicate 8 .running ++ [.waking, .waking, .running, .running]
      holds := [{ src := 5, level := .footpath, ends := none }] } }

/-- A wake in which island 8 alone still powers. -/
def waking1 : State := { waking2 with power := { waking2.power with islands := waking2.power.islands.set 9 .running } }

/-- RESET_N is high and CLK25 is waited for. -/
def clkWaiting : State := { State.reset with power := { Power.init with phase := .clkWait, resetN := true } }

/-- Start-up is at its second step, with nothing done yet. -/
def starting : State := { State.reset with power := { Power.init with phase := .starting, resetN := true, islands := List.replicate 12 .running } }

/-- Sixteen readings of code 0. -/
def zeros : List StrapReading := List.replicate 16 { checkMv := 0, raw := 0 }

/-- One scan of code 0 has been taken. -/
def scanned : State := { starting with straps := { Straps.init with prev := some (List.replicate 16 (some 0)), firstScan := some 0 } }

/-- Strap hold, with strap 3 the lowest that failed. -/
def inHold : State := { starting with straps := { Straps.init with hold := true, failed := 3, firstScan := some 0 } }

/-- The live straps have read code 1 twice. -/
def liveHub : State := { hub with straps := { hub.straps with liveRun := some ([0, 0, 1], 2) } }

/-- An open strap. -/
def openStrap : StrapReading := { checkMv := 200, raw := 0x1234 }

/-- A wake has left the rest of the die to scrub. -/
def woken : State := { hub with power := { hub.power with scrubDue := true } }

/-- One spill device in the stripe set, one powered triad. -/
def ageing : State :=
  { hub with
    spill := { Spill.init with done := true, devs := { SpillUnit.none_ with state := 0, spare := 3 } :: List.replicate 3 SpillUnit.none_ }
    mot := { Motion.init with triads := { Triad.init with powered := true, settled := true } :: List.replicate 5 Triad.init } }

/-- An image with pin engine 0, phrase 1 and one word in the store. -/
def pinImage (w : BitVec 16) : Image :=
  { im0 with
    pins := some
      { (default : Pins) with
        store := [w]
        phrases := [(1, [7, 8])]
        engines :=
          [{ (default : PinEng) with engine := 0, outBase := 4, outCount := 8, setBase := 14, setCount := 4, inBase := 2, rxMax := 4, rxIdle := 1, sensePad := 3 }] } }

/-- Pin engine 0 runs, and the word w stands at its PC. -/
def pinHub (w : BitVec 16) (st : PinSt) : State :=
  { hub with
    port := { ImagePort.init with inForce := some (pinImage w) }
    pin := { Pin.init with eng := { st with run := .running } :: List.replicate 7 PinSt.init, level := 0x1234, input := 0x00F0, dir := 0x0F00, flags := 2 } }

/-- An engine with something in each register. -/
def full_ : PinSt := { PinSt.init with c0 := 5, c1 := 1, osr := 0xA5A5A5A5, osrN := 20, isr := 0x0F, isrN := 4, txh := some 9, stall := 1 }

/-- Another engine has set flag 1 at the clock edge in progress. -/
def flagged : State :=
  let s := pinHub 0x9880 full_
  { s with pin := { s.pin with flagEdge := some 700000000, flagWas := 0, flagActs := [(0, 1)] } }

/-- 19_pin_engines.md R490: at one edge, a set wins over a clear or a toggle, and a clear over a toggle, in whatever order. -/
theorem test_flag_priority :
    flagWord 0 [(2, 3), (1, 3), (0, 3)] = 8 ∧ flagWord 8 [(1, 3), (2, 3)] = 0 ∧ flagWord 8 [(2, 3), (1, 4)] = 0 := by decide

/-- An engine with an open receive packet of one word. -/
def receiving : PinSt :=
  { PinSt.init with rxh := some (3, false), rx := some { mark := 7000, phrase := 0, stamp := 0, data := [2], lastMark := 7000 } }

/-- A master's Announce. -/
def announce : Announce :=
  { sender := masterId, priority1 := 128, clockClass := 6, accuracy := 0x21, variance := 100, priority2 := 128
    grandmaster := 9, steps := 0, seq := 5, rxPort := 0, logInterval := 1 }

/-- Domain 0 has heard that master's Announce 1 s ago. -/
def announced : State :=
  { hub with time := { hub.time with n := [{ Ptp.init with foreign := [{ newest := { announce with seq := 4 }, heard := [6000000000000] }] }, Ptp.init] } }

/-- Domain 0 follows a master, and another one that it hears is qualified. -/
def twoMasters : State :=
  { mastered with time := { mastered.time with n := [{ Ptp.init with
      master := some { clock := 3, port := 1 }, st := .locked
      foreign := [{ newest := announce, heard := [7000000000000, 6000000000000] }] }, Ptp.init] } }

/-- A Sync of that master. -/
def syncMsg (two : Bool) : SyncMsg :=
  { sender := masterId, seq := 4, twoStep := two, origin := 0, correction := 0, logInterval := 0 }

/-- Domain 0 acquires its master and has fifteen good Syncs behind it; a two-step Sync and a Delay_Req are open. -/
def acquiring : State :=
  { linkedHub with time := { hub.time with n := [{ Ptp.init with
      master := some masterId, st := .acquiring, good := 15, twoStep := some (4, 500, 10), t3 := [some 400, none], delaySeq := 2
      msDiff := 50 }, Ptp.init] } }

/-- PPS has seven edges of a run behind it. -/
def ppsRun (st : Nat) : State :=
  { hub with time := { hub.time with pps := { Time.init.pps with st := st, run := 7, count := 65535, last := 7000000000000 } } }

/-- A recipe of channel 2 that blanks, at 1 S/s, and its scan entry. -/
def recipe2 : Recipe := { (default : Recipe) with ch := 2, rate := 6, blank := true, pinP := 4, pinN := 5 }
/-- Its scan entry. -/
def scan2 : ScanEntry := { (default : ScanEntry) with ch := 2, phase := 100 }
/-- An image that converts on channel 2 alone. -/
def feImage : Image :=
  { im0 with
    inertial := { im0.inertial with blankGuard := 3, cal := { im0.inertial.cal with enable := 0x3F, feGainPer := 3600, feOffPer := 60 } }
    fe := some { (default : FrontEnd) with recipes := [recipe2], scan := [scan2], fblankGuard := 0, injMax := 1, trigMask := 4 } }

/-- A conversion of channel 2. -/
def conv2 (k : ConvKind) : Conv := { (default : Conv) with kind := k, recipe := recipe2, scan := scan2 }

/-- The hub with channel 2 idle, or converting. -/
def feHub (v : Option Conv) : State :=
  { hub with port := { ImagePort.init with inForce := some feImage }
             fe := { Fe.init with ch := Fe.init.ch.set 2 { FeCh.init with conv := v }, blank := true, blankEnd := some 0 } }

/-- A gain step of channel 2 fell due at this mark. -/
def feStepped : State :=
  { feHub none with fe := { (feHub none).fe with ch := Fe.init.ch.set 2 { FeCh.init with gainAt := some 7168 } } }

/-- A trigger of channel 2 is pending. -/
def fePending : State :=
  { feHub none with fe := { (feHub none).fe with ch := Fe.init.ch.set 2 { FeCh.init with pend := some (5, 1, 0) } } }

/-- The trigger starts channel 2 alone. -/
theorem trig_two : setBits 32 (4 : BitVec 32).toNat = [2] := by decide

/-- TB-G stands where the next output of channel 2 is planned to begin. -/
def feDue : State :=
  { feHub none with time := { hub.time with gIdx := nextGrid recipe2 scan2 (7168 * markAcc) / markAcc
                                            gAcc := nextGrid recipe2 scan2 (7168 * markAcc) % markAcc } }

/-- The same without blanking. -/
def feClear : State := { feDue with fe := { feDue.fe with blank := false, blankEnd := none } }

/-- Channel 2 converts with a curve that takes a word of channel 3, which converts too. -/
def feWaits : State :=
  { feHub none with fe := { Fe.init with
      ch := (Fe.init.ch.set 2 { FeCh.init with conv := some { conv2 .grid with refs := [(3, 0)] } }).set 3
        { FeCh.init with conv := some (conv2 .grid) } } }

/-- Six readings at rest. -/
def readings : List TriadReading := List.replicate 6 { x := 0, y := 0, z := 0, overload := false, temp := 20 }

/-- The hub with six good triads, an instant to sample and all calibration on. -/
def senseHub : State :=
  { hub with
    port := { ImagePort.init with inForce := some feImage }
    mot := { Motion.init with
      triads := List.replicate 6 { Triad.init with powered := true, settled := true }, instant := 57344, robust := [false, true]
      dwell := [0, 7], blockDone := { BlockNote.init with whole := true } } }

/-- Triad 2 is in fault. -/
def faulty : State := { senseHub with mot := { senseHub.mot with triads := senseHub.mot.triads.set 2 { Triad.init with powered := true, fault := true } } }

/-- A record period of one value that has ended. -/
def recDone : RecDone := { (default : RecDone) with first := 0, disp := [[0, 0, 0, 0]], corner := 4 }

/-- The hub 2,000 s on, with that record period complete and entries of the wave record and the heave statistics. -/
def recHub : State :=
  { senseHub with
    time := { hub.time with gIdx := 2048000, issued := 2048000 }
    prod := { Prod.init with
      recDone := some recDone
      entries := [{ entry := { kind := 3, view := 9, pktSamples := 0, credit := 0 }, since := 0, ends := none },
                  { entry := { kind := 4, view := 9, pktSamples := 0, credit := 0 }, since := 0, ends := none }] } }

/-- The same period, with a value missing, so that no wave record comes of it. -/
def recPast : State := { recHub with prod := { recHub.prod with recDone := some { recDone with broken := true } } }

/-- The period when a restore takes the update of this mark. -/
def recSkipped : State :=
  { recHub with mot := { recHub.mot with cal := recHub.mot.cal.map fun c => { c with skipAt := some 2048000 } } }

/-- The restore falls on the mark of the last report. -/
def updSkipped : State :=
  { recHub with mot := { recHub.mot with
      cal := recHub.mot.cal.map fun c => { c with skipAt := some (2048000 / reportMarks * reportMarks) } } }

/-- A vector of a source, usable. -/
def inp (v : List Int) : Inp := { v := v, code := 0, ok := true, blank := false, beyond := false }

/-- A recogniser entry with its words. -/
def recog (hold : Nat) (w : List Word) : Recog := { view := 3, en := true, hold := hold, w := w }

/-- The hub with every recogniser on: SLAM, CREST, CAPSIZE and TILT with thresholds that the inputs meet, DROP below 1 g. -/
def recogHub (slam : RecSt) : State :=
  { hub with
    port := { ImagePort.init with inForce := some { feImage with recogs :=
      [recog 100 [0, 1], recog 0 [0, 0], recog 0 [0x3F800000, 0], recog 0 [0, 0], recog 0 [0xBF800000, 0, 0],
       recog 0 [1, 0, 0xBF800000, 0, 0, 1]] } }
    time := { hub.time with gIdx := 7168, issued := 7168 }
    mot := { Motion.init with last := some 57344, hist := List.replicate 8 [inp [0, 0, 0]] }
    prod := { Prod.init with lastIn := some 7168, inFlags := [0], inputs := List.replicate 256 [0, 0, 0], lastDisp := some (7000, [5, 0, 0, 0]) }
    way := { Way.init with recs := slam :: List.replicate 5 RecSt.init } }

/-- Engine 0 with a transition to state 2 that holds at once. -/
def wmImage : Image :=
  { im0 with
    wm := some { (default : Waymarks) with
      engines := [{ (default : WmEngine) with engine := 0, nstate := 3 }]
      trans := [{ (default : WmTrans) with next := 2, used := true }]
      conds := [(0, 0)] } }

/-- An event waits for that engine. -/
def eventHub : State :=
  { hub with way := { Way.init with evq := [[0, 0, 0, 0]] }, port := { ImagePort.init with inForce := some wmImage } }

/-- Thirty-two events have been offered in this mark. -/
def carriedHub : State := { eventHub with way := { eventHub.way with carried := 32 } }

/-- A value clamped to at least 0 is above −1, whatever the value. -/
theorem neg_lt_clamp (hi w : Word) (h : f32Lt 0xBF800000 hi = true) : f32Lt 0xBF800000 (clampW 0 hi w) = true := by
  unfold clampW
  split
  · rename_i h0
    split
    · simp only [f32Le, f32Lt, Bool.and_eq_true, decide_eq_true_eq] at h0 ⊢
      refine ⟨⟨by decide, h0.1.2⟩, ?_⟩
      have : f32Int 0xBF800000 < f32Int 0 := by decide
      omega
    · exact h
  · decide

/-- A mean square is above −1, so the first comparison of DRIFT fails, whatever the values are. -/
theorem drift_fails (inputs : List (List Int)) (mark : Nat) :
    (driftStats (recog 0 [1, 0, 0xBF800000, 0, 0, 1]) inputs mark).2 ≠ 0 := by
  have h : f32Lt 0xBF800000 (clampW 0 0x7F7FFFFF (Config.strapdown 9 mark (inputs.take 256))) = true :=
    neg_lt_clamp _ _ (by decide)
  have e : (driftStats (recog 0 [1, 0, 0xBF800000, 0, 0, 1]) inputs mark).2 =
      b2n (f32Lt 0xBF800000 (clampW 0 0x7F7FFFFF (Config.strapdown 9 mark (inputs.take 256)))) * 2 +
      b2n (f32Lt (clampW 0 0x7F7FFFFF (Config.strapdown 9 mark (inputs.take 256))) 0) +
      4 * b2n (f32Lt 0 (clampW 0 0x7F7FFFFF (Config.strapdown 10 mark (inputs.take 256)))) +
      8 * b2n (f32Lt 0 (f32Abs (Config.strapdown 11 mark (inputs.take 256)))) := rfl
  rw [e, h]
  simp [b2n]

/-- The tilt of no force at all is not below 0. -/
theorem tilt_at_rest (f : List Word) (h : (f.map fxOf).all (· == 0) = true) : f32Lt 0xBF800000 (tiltOf f) = true := by
  unfold tiltOf
  simp only [h, if_true]
  exact neg_lt_clamp _ _ (by decide)

/-- The entry of position 0 of road 0: any node, one channel of one sample per second. -/
def nodeEntry0 : NodeEntry :=
  { pos := 0, uid := 0, maker := 0, model := 0, mpay := [], mlen := 0
    chans := [{ ch := 0, rate := 6, mode := 0, phase := 0, pktSamples := 10, view := 1, credit := 0 }] }

/-- An image whose road 0 has that node. -/
def roadImage : Image := { im0 with roads := [{ road := 0, strict := false, nodes := [nodeEntry0] }] }

/-- The hub with road 0 enabled and in a given state, at mark n. -/
def roadHub (n : Nat) (rd : Road) : State :=
  { hub with
    straps := { hub.straps with codes := [0, 5, 0, 3, 0, 0, 0, 0, 1, 0, 0, 0, 0, 6, 0, 0] }
    time := { hub.time with gIdx := n, issued := n }
    port := { ImagePort.init with inForce := some roadImage }
    roads := rd :: List.replicate 7 Road.init }

/-- A node at position 0 with a slot, whose command number 3 is outstanding. -/
def node0 : Node :=
  { (default : Node) with pos := 0, admitted := true, wasAdmitted := true, latch := some 0, txoff := some 9000, slotM := 1
                          chans := nodeEntry0.chans, pred := 20000, cur := some ({ op := 6, payload := [] }, 3, 1, 7100) }

/-- A road that has launched its MARK 7168 and waits for an ENUM reply at position 0. -/
def offering : Road := { Road.init with on := true, launched := some 7168, enumWait := true, enumPos := some 0, hold := 9000, enumAt := 4600000 }

/-- A road with that node, which it asked in mark n. -/
def nodeRoad (n : Nat) : Road :=
  { Road.init with on := true, started := true, launched := some n, nodes := [node0], ackPos := some 0, echoPos := some 0, hold := 100, launchAt := 4700000 }

/-- The road with the node silent for 64 marks. -/
def silentRoad : Road := { nodeRoad 7168 with nodes := [{ node0 with empty := 64 }] }

/-- The road at the end of delay cycle 6. -/
def cycleSix : Road := { nodeRoad 7167 with cycle := 6 }

/-- An ENUM frame of node 9 at position 0, of maker 1 and model 1, with four channels (R269). -/
def enumBytes : List Byte := withCrc [0xC0, 9, 0, 0, 0, 0, 0, 0, 0, 1, 0, 1, 0, 4, 0, 0]

/-- A frame as a burst in the echo window (R264, R265). -/
def upRx (bs : List Byte) (arrive : Nat) : UpRx := { groups := burstGroups 2 [bs], arrive := arrive }

/-- The ACK of command 3 from position 0, its STAT saying that a command was refused; and its ECHO frame of MARK 7168. -/
def ackBytes : List Byte := withCrc [0x00, 3, 0x10]
/-- That ECHO frame. -/
def echoBytes : List Byte := withCrc [0x80, 0]

/-- A SLOT frame with one sample. -/
def slotRx : SlotRx := { groups := burstGroups 2 [ackBytes ++ [5, 0, 0]], stray := 1 }

/-- A packet of a producer, open. -/
def openHub : State :=
  { hub with cw := { Causeway.init with opens := [{ openPacket 3 0x04000000 7000 8 with words := [1, 2, 3] }] } }

/-- Reader 4 with a request that waits. -/
def requested (m : Option Word) : State :=
  { atHs 0x03 [4] with cw := { Causeway.init with
      closed := [stored 4 1 [1, 2, 3, 4]]
      readers := List.replicate 11 { Reader.init with count := 9, next := 4, pend := some { rewindTo := m, client := 4, cmp := 7 } } } }

/-- A reduction entry, and the hub with job 0 placed or running. -/
def redEntry0 : RedEntry := { (default : RedEntry) with kind := 5, view := 9, period := 1, deadline := 100 }
/-- Its job's instance. -/
def inst0 : JobInst := { job := 0, entry := redEntry0, first := 5120, release := 6144, deadline := 6244, core := 1 }
/-- The hub with job 0. -/
def redHub (insts : List JobInst) : State :=
  { hub with
    port := { ImagePort.init with inForce := some { im0 with products := { im0.products with red := [redEntry0] } } }
    red := { insts := insts, next := [(0, 6144)] } }

/-- One spill device of 1 Gbit found, and a class 0 packet to spill. -/
def spillHub : State :=
  { hub with
    spill := { Spill.init with done := true, density := 134217728, devs := { SpillUnit.none_ with state := 0, density := 134217728 } :: List.replicate 3 SpillUnit.none_ }
    cw := { Causeway.init with gmp := 1, closed := [stored 6 1 [1, 2, 3, 4]] } }

/-- A raw class 2 packet in spill, with stage 1 of the roll-up active. -/
def rollHub : State :=
  { spillHub with
    spill := { spillHub.spill with stages := [true, false, false] }
    cw := { Causeway.init with gmp := 1, closed := [{ stored 6 1 [0x100, 0x200] with page := some 1, klass := 2, rate := 6 }] } }

/-- Straps accepted with two spill selects fitted; discovery has not come. -/
def discovering : State :=
  { hub with straps := { hub.straps with codes := [0, 5, 0, 3, 0, 0, 0, 0, 0, 0, 2, 0, 0, 6, 0, 0] } }

/-- A page with one packet. -/
def page5 : Page :=
  { seq := 5, page := 0, stream := 0, devmask := 1, npkt := 1, first := some (4, 7000), tail := none, checkpoint := List.replicate 11 3 }

/-- A journal of two places, the second with a bad CRC. -/
def journal : List JournalEntry :=
  [{ copies := [(page5.checkWords, page5.entryWords)] }, { copies := [([], List.replicate 8 0)] }]

/-- 13_placement.md R363–R365: a good entry is visible with its checkpoint, and the sequence ends at a bad one. -/
theorem test_visible_pages : (visiblePages none journal).map (fun x => (x.1.seq, x.2)) = [(5, some (List.replicate 11 3))] := by
  decide +kernel

/-- Two devices, the second silent. -/
def devices : List SpillDev :=
  [{ answers := true, octal := true, density := 134217728, blockPages := 2, spare := 4, readCmd := 0xEE, dummy := 16 }, default]

/-- A valid route image of 832 bytes: strap expectations that fit the hub, a client table with one empty view set, and plan
0. -/
def goodWords : List Word :=
  [0x49524B45, 0x1030000, 0x340, 0, 7, 0x81924100, 0, 0, 0x8378331F] ++
  List.replicate 7 0 ++
  [0x1010000, 0x70, 0x20, 0x3EEE3B0, 0x9010000, 0x90, 0x1E0, 0xBF2849EC, 0xB010000, 0x270, 0xD0, 0x242CDACF,
  0x80001, 0x40001, 0x10001, 0x10001, 0x100001, 0x10001, 0x400001, 0x10001, 0x1000000, 0, 0, 0, 0x10000] ++
  List.replicate 9 0 ++
  [0xA000001, 0x18000000] ++
  List.replicate 104 0 ++
  [0x1000000, 0, 0, 0, 1] ++
  List.replicate 47 0

/-- A device that holds these words. -/
def flash (ws : List Word) : FlashDev :=
  { answers := true, sfdp := true, octal := true, strobe := true, cmdOmitted := false, readCmd := 0xEE, dummy := 16, density := 2097152
    bytes := bytesOfWords ws }

/-- The hub while a load reads its second source; HS and TW are Operators, as an image without a key section needs (R469). -/
def loading : State :=
  { hub with
    straps := { hub.straps with codes := [0, 3, 0, 2, 0, 0, 0, 0, 0, 4, 0, 0, 0, 6, 0, 0] }
    port := { ImagePort.init with
      inForce := some im0
      load := some { trigger := 3, src := 1, tried := 0, reply := none, staged := none, ready := [], commit := none } } }

/-- The outcome is a valid image. -/
def isGood : LoadOutcome → Bool
  | .good _ => true
  | .bad .. => false

/-- A Keeper port without a key section is refused with 0x0D (R469). -/
theorem test_keeper_needs_keys :
    checkStraps { loading with straps := { loading.straps with codes := loading.straps.codes.set 1 5 } }
      { im0 with masks := List.replicate 16 0xFFFF } = [{ step := 13, code := 0x0D, sect := 9, off := 7 }] := by decide +kernel

/-- The image of goodWords is valid, its CRCs being those of an independent computation. -/
theorem good_image : ∃ im, (loading.advance 5).validate (flash goodWords) = .good im := by
  have h : isGood ((loading.advance 5).validate (flash goodWords)) = true := by decide +kernel
  revert h
  generalize (loading.advance 5).validate (flash goodWords) = o
  intro h
  cases o with
  | good im => exact ⟨im, rfl⟩
  | bad a b c d => exact absurd h Bool.false_ne_true

/-- The port in image hold, with IMGREL_N as given. -/
def inImageHold (rel : Bool) (rise : Option Nat) : State :=
  { hub with port := { ImagePort.init with rel := rel, riseAt := rise, hold := true } }

/-- A load that reads its source, with no image in force. -/
def firstLoad : State := { loading with port := { loading.port with inForce := none } }

/-- The image staged, with every island ready but the last. -/
def stagedLoad (commit : Option Nat) (ready : List Nat) : State :=
  { loading with port := { loading.port with load := some { trigger := 3, src := 1, tried := 0, reply := none, staged := some roadImage, ready := ready, commit := commit } } }

/-- The first image staged, between step 1 of start-up and m0. -/
def beforeM0 : State :=
  { stagedLoad (some 7169) (List.range 12) with power := { hub.power with phase := .starting, mode := none } }

/-- A change to Lane whose mark is the next one. -/
def toLane : State := { hub with power := { hub.power with change := some (.lane, 7169) } }

/-- A report is due. -/
def reportDue : State := { hub with time := { hub.time with gIdx := 614400, issued := 614400 } }

/-- CLK25 has stopped. -/
def noClock : State := { hub with power := { hub.power with clkOk := false } }

/-! ### One witness for each clause of each statement about commands -/

theorem witness_ClockedSerialPort (h : Obligations.ClockedSerialPort) :
    completes (.hselFall 7 []) hub ∧
      completes (.hselFall 7 []) hsAgain ∧
      completes (.hselRise 5 1024 goodFrame) hsOpen ∧
      completes (.hselRise 5 1022 []) hsOpen :=
  ⟨(h.2.1 7 [] hub (by decide) (by decide) rfl).imp fun _ x => x.1,
   (h.2.2.1 7 hsAgain lineAgain (by decide) rfl rfl (by decide) (by decide) rfl rfl (by decide)).imp fun _ x => x.1,
   (h.2.2.2.1 5 1024 goodFrame hsOpen (by decide) (by decide +kernel)).imp fun _ x => x.1,
   (h.2.2.2.2 5 1022 [] hsOpen (by decide) (by decide +kernel)).imp fun _ x => x.1⟩

theorem witness_TwoWirePort (h : Obligations.TwoWirePort) :
    completes (.twRead 1 0x60 16 .stop []) hub ∧
      completes (.twStretchEnd 40000000) twHeld ∧
      completes (.twStretchEnd 40000000) (twEnding .recovery) ∧
      completes (.twStretchEnd 40000000) (twEnding .brokenAck) ∧
      completes (.twRead 1 0x60 16 .stop []) twOpen ∧
      completes (.twWrite 1 0x60 quiet .stop) hub ∧
      completes (.twWrite 1 0x60 [0] .stop) hub ∧
      completes .twRepeatedStart twOpen ∧
      completes (.twBusTimeout 5) twOpen ∧
      completes (.fragmentTimeout 0 0) partials ∧
      completes (.fragmentTimeout 0 1) partials :=
  ⟨(h.1 1 0x60 16 .stop [] hub (by decide) (by decide)).imp fun _ x => x.1,
   (h.2.1 40000000 twHeld (by decide) (by decide) (by decide)).imp fun _ x => x.1,
   (h.2.2.1 40000000 (twEnding .recovery) rfl rfl rfl).imp fun _ x => x.1,
   (h.2.2.2.1 40000000 (twEnding .brokenAck) rfl rfl (.inl rfl)).imp fun _ x => x.1,
   (h.2.2.2.2.1 1 0x60 16 .stop twOpen (by decide) rfl rfl).imp fun _ x => x.1,
   (h.2.2.2.2.2.1 1 0x60 quiet .stop hub (by decide) (by decide) (by decide) (by decide)).imp fun _ x => x.1,
   (h.2.2.2.2.2.1 1 0x60 [0] .stop hub (by decide) (by decide) (by decide) (by decide)).imp fun _ x => x.1,
   (h.2.2.2.2.2.2.1 twOpen (by decide) (by decide)).imp fun _ x => x.1,
   (h.2.2.2.2.2.2.2.1 5 twOpen (by decide)).imp fun _ x => x.1,
   (h.2.2.2.2.2.2.2.2 0 0 partials (by decide) (by decide)).imp fun _ x => x.1,
   (h.2.2.2.2.2.2.2.2 0 1 partials (by decide) (by decide)).imp fun _ x => x.1⟩

theorem witness_AttentionCalls (h : Obligations.AttentionCalls) :
    completes (.attentionCall 1 .acknowledged) calls ∧
      completes (.attentionCall 1 (.lostArbitration 80000)) calls ∧
      completes (.attnRetry 1 .acknowledged) (tried 1) ∧
      completes (.attnRetry 1 (.notAcknowledged 90000)) (tried 1) ∧
      completes (.attnRetry 1 (.notAcknowledged 90000)) (tried 2) :=
  ⟨(h.2.1 1 calls _ _ im0 (by decide) (by decide) rfl rfl).imp fun _ x => x.1,
   (h.2.2.1 1 calls _ _ im0 (.lostArbitration 80000) (by decide) (by decide) rfl rfl (by decide) (by decide)).imp fun _ x => x.1,
   (h.2.2.2.1 1 (tried 1) _ _ im0 (by decide) rfl (by decide) rfl).imp fun _ x => x.1,
   (h.2.2.2.2 1 (tried 1) _ _ im0 (.notAcknowledged 90000) (by decide) rfl (by decide) rfl (by decide)).imp fun _ x => x.1,
   (h.2.2.2.2 1 (tried 2) _ _ im0 (.notAcknowledged 90000) (by decide) rfl (by decide) rfl (by decide)).imp fun _ x => x.1⟩

theorem witness_MessagesAccepted (h : Obligations.MessagesAccepted) :
    completes (.messageAccept 4) (slotHs (msg 4 0 0x01 [])) ∧
      completes (.messageAccept 4) (slotHs (msg 4 0 0x10 [])) ∧
      completes (.messageAccept 4) (slotHs [0, 0, 0]) :=
  ⟨(h.1 4 (slotHs (msg 4 0 0x01 [])) _ 0 3 (some 8) (by decide) rfl (by decide) (by decide +kernel) (by decide +kernel)
      (by decide +kernel) (by decide) (by decide +kernel) (by decide +kernel) (by decide) (by decide)).imp fun _ x => x.1,
   (h.2.1 4 (slotHs (msg 4 0 0x10 [])) _ 0 0xC7 (by decide) rfl (by decide) (by decide +kernel) (by decide +kernel)
       (by decide +kernel) (by decide) (by decide +kernel)).imp fun _ x => x.1,
   ⟨_, h.2.2 4 (slotHs [0, 0, 0]) _ rfl (by decide) (by decide +kernel)⟩⟩

theorem witness_ReaderMessages (h : Obligations.ReaderMessages) :
    completes (.where_ 4) (atHs 0x01 []) ∧
      completes (.ack 4) (atHs 0x02 [2]) ∧
      completes (.rewind 4) (atHs 0x03 [4]) ∧
      completes (.flush 4) (atHs 0x04 []) ∧
      completes (.vote 4) (atHs 0x05 [1]) :=
  ⟨(h.1 4 (atHs 0x01 []) _ ⟨(by decide), (by decide), (by decide), 0, [], rfl⟩).imp fun _ x => x.1,
   (h.2.1 4 (atHs 0x02 [2]) _ ⟨(by decide), (by decide), (by decide), 0, [], rfl⟩ (by decide)).imp fun _ x => x.1,
   (h.2.2.1 4 (atHs 0x03 [4]) _ ⟨(by decide), (by decide), (by decide), 0, [], rfl⟩ (by decide)).imp fun _ x => x.1,
   (h.2.2.2.1 4 (atHs 0x04 []) _ ⟨(by decide), (by decide), (by decide), 0, [], rfl⟩ (by decide)).imp fun _ x => x.1,
   (h.2.2.2.2 4 (atHs 0x05 [1]) _ ⟨(by decide), (by decide), (by decide), 0, [], rfl⟩).imp fun _ x => x.1⟩

theorem witness_RecordMessages (h : Obligations.RecordMessages) :
    completes (.calRead 4) (atHs 0x08 []) ∧
      completes (.marginRead 4) (atHs 0x0B []) ∧
      completes (.calRestore 4) (atHs 0x09 [0x2800, 5, 6]) ∧
      completes (.calRestore 4) (staging 4 false) ∧
      completes (.calRestore 4) (staging 5 false) ∧
      completes (.calRestoreTimeout 4000000000000) (staging 4 false) :=
  ⟨(h.1 4 (atHs 0x08 []) _ ⟨(by decide), (by decide), (by decide), 0, [], rfl⟩).imp fun _ x => x.1,
   (h.2.1 4 (atHs 0x0B []) _ ⟨(by decide), (by decide), (by decide), 0, [], rfl⟩).imp fun _ x => x.1,
   (h.2.2.1 4 (atHs 0x09 [0x2800, 5, 6]) _ ⟨(by decide), (by decide), (by decide), 0, [], rfl⟩ (by decide)
       (by decide)).imp fun _ ⟨_, x⟩ => x.1,
   (h.2.2.2.1 4 (staging 4 false) _ _ ⟨(by decide), (by decide), (by decide), 0, [], rfl⟩ rfl (by decide) (by decide)
       (by decide) (by decide)).imp fun _ ⟨_, x⟩ => x.1,
   (h.2.2.2.2.1 4 (staging 5 false) _ _ ⟨(by decide), (by decide), (by decide), 0, [], rfl⟩ rfl
       (by decide)).imp fun _ x => x.1,
   (h.2.2.2.2.2 4000000000000 (staging 4 false) _ rfl (by decide) (by decide)).imp fun _ x => x.1⟩

theorem witness_SystemMessages (h : Obligations.SystemMessages) :
    completes (.identity 4) (atHs 0x0A []) ∧
      completes (.reloadImage 4) (atHs 0x0C []) ∧
      completes (.serviceWindow 4) (atHs 0x0D [600]) ∧
      completes (.serviceWindowEnd 5) windowed ∧
      completes (.ppsLabel 4) ppsLocked ∧
      completes (.launch ⟨0, []⟩) (launchAsked 7 1) ∧
      completes (.launch ⟨0, []⟩) (launchAsked 7 0) :=
  ⟨(h.1 4 (atHs 0x0A []) _ ⟨(by decide), (by decide), (by decide), 0, [], rfl⟩).imp fun _ x => x.1,
   (h.2.1 4 (atHs 0x0C []) _ ⟨(by decide), (by decide), (by decide), 0, [], rfl⟩).imp fun _ x => x.1,
   (h.2.2.1 4 (atHs 0x0D [600]) _ ⟨(by decide), (by decide), (by decide), 0, [], rfl⟩).imp fun _ x => x.1,
   (h.2.2.2.1 5 windowed 7000000000 rfl).imp fun _ x => x.1,
   (h.2.2.2.2.1 4 ppsLocked _ ⟨(by decide), (by decide), (by decide), 0, [], rfl⟩ (by decide) (by decide)
       (by decide)).imp fun _ x => x.1,
   (h.2.2.2.2.2.1 0 [] (launchAsked 7 1) _ _ 37359738368 ⟨(by decide), (by decide), (by decide), 0, [], rfl⟩ rfl
       (by decide) (by decide) (by decide +kernel)).imp fun _ x => x.1,
   (h.2.2.2.2.2.2 0 [] (launchAsked 7 0) _ ⟨(by decide), (by decide), (by decide), 0, [], rfl⟩ (by decide)).imp fun _ x => x.1⟩

theorem witness_LocksDecided (h : Obligations.LocksDecided) :
    completes .lockDecision (atHs 0x06 [0x3003C]) ∧
      completes .lockDecision contend ∧
      completes .lockDecision (holding 2) ∧
      completes (.lockLeaseEnd 1000000 2) (holding 2) :=
  ⟨(h.1 4 (atHs 0x06 [0x3003C]) _ 0 3 (by decide)
      (fun i => by rcases i with _ | _ | _ | _ | _ | _ | i <;> first | (intro; rfl) | (intro hi; exact absurd rfl hi))
          rfl (by decide) (by decide) (by decide) (by decide)).imp fun _ x => x.1,
   (h.2.1 contend _ 0 _ 0 2 (by decide) (by decide) rfl rfl (by decide) (by decide) (of_decide_eq_true rfl) (by decide)
       (by decide) (of_decide_eq_true rfl) (by decide) (by decide) (of_decide_eq_true rfl) (by decide)).imp fun _ x => x.1,
   (h.2.2.1 4 (holding 2) _ 0 (by decide)
       (fun i => by rcases i with _ | _ | _ | _ | _ | _ | i <;> first | (intro; rfl) | (intro hi; exact absurd rfl hi))
           rfl (by decide) (by decide)).imp fun _ x => x.1,
   (h.2.2.2 1000000 2 (holding 2) 4 rfl (by decide)).imp fun _ x => x.1⟩

theorem witness_LinksServe (h : Obligations.LinksServe) :
    completes (.linkUp ⟨1, 0⟩ partner24) hub ∧
      completes (.linkUp ⟨1, 0⟩ { partner24 with at24 := false }) hub ∧
      completes (.linkDown 0) linkedHub ∧
      completes (.macAgeOut 300000000000000 0) linkedHub ∧
      completes (.egressPortFree ⟨1, 0⟩) linkedHub :=
  ⟨(h.1 1 0 partner24 hub true (by decide) (by decide) (by decide) rfl).imp fun _ x => x.1,
   (h.2.1 1 0 { partner24 with at24 := false } hub (by decide) (by decide) (by decide) rfl).imp fun _ x => x.1,
   (h.2.2.2.1 0 linkedHub (by decide) (by decide)).imp fun _ x => x.1,
   (h.2.2.2.2.1 300000000000000 0 linkedHub _ rfl (by decide)).imp fun _ x => x.1,
   (h.2.2.2.2.2 1 0 linkedHub (by decide) (by decide) (by decide)).imp fun _ x => x.1⟩

theorem witness_SwitchForwards (h : Obligations.SwitchForwards) :
    completes (.frameReceive 1 0 (passing macU0 true)) linkedHub ∧
      completes (.frameReceive 1 0 (passing bcast false)) linkedHub ∧
      completes (.frameReceive 1 0 (passing bcast false)) crowded :=
  ⟨(h.1 1 0 (passing macU0 true) linkedHub (by decide) (by decide) (by decide) rfl (by decide) (by decide)).imp fun _ x
      => x.1,
   (h.2.1 1 0 (passing bcast false) linkedHub (by decide) (by decide) (by decide) (by decide) (by decide) (by decide)
       (by decide) (by decide)).imp fun _ x => x.1,
   (h.2.2 1 0 (passing bcast false) crowded (by decide) (by decide) (by decide) (by decide) (by decide) (by decide)
       (by decide) (by decide +kernel)).imp fun _ x => x.1⟩

theorem witness_AddressesResolved (h : Obligations.AddressesResolved) :
    completes (.arpReceive 0 (arpFrame 1 0x0A000002)) linkedHub ∧
      completes (.arpRetry 1 0) hub ∧
      completes (.arpRefresh 60000000000000 0) linkedHub ∧
      completes (.icmpEcho 1 0 (ipFrame 1 echoBody)) linkedHub :=
  ⟨(h.1 0 (arpFrame 1 0x0A000002) linkedHub (by decide) (by decide) (by decide)).imp fun _ x => x.1,
   (h.2.1 1 0 hub 0x0A000002 (by decide) (by decide) (by decide) (by decide) rfl).imp fun _ x => x.1,
   (h.2.2.1 60000000000000 0 linkedHub 0x0A000002 macU0 (by decide) (by decide) rfl (by decide) rfl).imp fun _ x => x.1,
   (h.2.2.2 1 0 (ipFrame 1 echoBody) linkedHub (ipIn 1 echoBody) (by decide +kernel) rfl (by decide) (by decide)
       (by decide) (by decide) (by decide +kernel) (by decide) (by decide)).imp fun _ x => x.1⟩

theorem witness_DatagramsGo (h : Obligations.DatagramsGo) :
    completes (.controlDatagram 0 (ipFrame 17 ctrlUdp)) linkedHub ∧
      completes (.controlDatagram 0 (ipFrame 17 ctrlUdp)) strange ∧
      completes (.streamDatagram 1 0 []) streamHub ∧
      completes (.heartbeat 1 0) linkedHub ∧
      completes (.ptpDelayReq 1 0) mastered :=
  ⟨(h.1 0 (ipFrame 17 ctrlUdp) linkedHub (ipIn 17 ctrlUdp) 0 (msg 0 1 0x0A []) (by decide +kernel) rfl (by decide)
      (by decide +kernel) (by decide) (by decide +kernel)).imp fun _ x => x.1,
   (h.2.1 0 (ipFrame 17 ctrlUdp) strange (ipIn 17 ctrlUdp) (by decide +kernel) rfl (by decide) (by decide +kernel)
      (by decide)).imp fun _ x => x.1,
   (h.2.2.1 1 0 [] streamHub _ macU0 0 rfl rfl (by decide) (by decide)).imp fun _ x => x.1,
   (h.2.2.2.1 1 0 linkedHub _ macU0 0 rfl rfl (by decide) (by decide) (by decide) (by decide) (by decide) (by decide)).imp fun _ x => x.1,
   (h.2.2.2.2 1 0 mastered masterId (by decide) (by decide) (by decide) rfl).imp fun _ x => x.1⟩

theorem witness_ActionsExecute (h : Obligations.ActionsExecute) :
    completes (.scheduledActionDue 1 0 ⟨allGood, []⟩) actHub ∧
      completes (.scheduledActionDue 1 0 ⟨allGood, []⟩) layby ∧
      completes (.scheduledActionDue 1 0 ⟨allGood, []⟩) inFootpath ∧
      completes (.scheduledActionDue 1 0 ⟨allGood, []⟩) (launchSet 8000000000) :=
  ⟨(h.1 1 0 [] actHub _ rfl (by decide) (by decide) (by decide) (by decide)).imp fun _ x => x.1,
   (h.2.1 1 0 [] layby _ rfl (by decide) (by decide) (by decide) (by decide) (by decide) (by decide)).imp fun _ x => x.1,
   (h.2.2.1 1 0 allGood [] inFootpath _ rfl (by decide) (by decide) (by decide)).imp fun _ x => x.1,
   ⟨_, h.2.2.2.1 1 0 allGood [] (launchSet 8000000000) _ rfl (by decide)⟩⟩

theorem witness_HubWakes (h : Obligations.HubWakes) :
    completes (.laybyEntryDone 1 allGood) entering ∧
      completes (.twWakeMatch 1 0x60 true allGood) layby ∧
      completes (.wakePadRise 1 10000 allGood) layby ∧
      completes (.wakePadRise 1 10000 allGood) hub ∧
      completes (.dropComparator 1 allGood) layby ∧
      completes (.capsizeComparator 1 allGood) layby ∧
      completes (.islandRunning 1 9) waking2 ∧
      completes (.islandRunning 1 8) waking1 ∧
      completes (.wakePadFall 1) waking2 ∧
      completes (.holdExpiry 1) waking2 :=
  ⟨(h.1 1 allGood entering 0 rfl rfl).imp fun _ x => x.1,
   (h.2.1 1 0x60 true layby (by decide) (by decide) (by decide) (by decide) (by decide) (by decide) (by decide)).imp fun _ x => x.1,
   (h.2.2.1 1 10000 layby (by decide) (by decide) (by decide) (by decide) (by decide) (by decide)).imp fun _ x => x.1,
   (h.2.2.2.1 1 10000 allGood hub (by decide) (by decide) (by decide)).imp fun _ x => x.1,
   (h.2.2.2.2.1 1 layby (by decide) (by decide) (by decide) (by decide)).imp fun _ x => x.1,
   (h.2.2.2.2.2.1 1 layby (by decide) (by decide) (by decide) (by decide)).imp fun _ x => x.1,
   (h.2.2.2.2.2.2.1 1 9 waking2 (by decide) ⟨8, by decide, by decide⟩).imp fun _ x => x.1,
   (h.2.2.2.2.2.2.2.1 1 8 waking1 5 (by decide)
       (fun j => by rcases j with _ | _ | _ | _ | _ | _ | _ | _ | _ | _ | _ | _ | j <;> first | (intro; decide) | (intro hj; exact absurd rfl hj) | (intro _; exact (by decide : (default : IslSt) ≠ .waking))) rfl).imp fun _ x => x.1,
   (h.2.2.2.2.2.2.2.2.1 1 waking2).imp fun _ x => x.1,
   (h.2.2.2.2.2.2.2.2.2 1 waking2).imp fun _ x => x.1⟩

theorem witness_StartsUp (h : Obligations.StartsUp) :
    completes (.resetRelease 5 .resetN) State.reset ∧
      completes (.resetRelease 5 (.rail .vmain 3100)) State.reset ∧
      completes (.startUp 1000000 (List.replicate 12 900)) clkWaiting ∧
      completes (.memoryDieInitDone [3, 31]) starting ∧
      completes (.rngHealthTest true) starting :=
  ⟨(h.1 5 State.reset (by decide)).imp fun _ x => x.1,
   (h.2.1 5 .vmain 3100 State.reset (by decide)).imp fun _ x => x.1,
   (h.2.2.1 1000000 (List.replicate 12 900) clkWaiting (by decide) (by decide) (by decide)).imp fun _ x => x.1,
   (h.2.2.2.1 [3, 31] starting (by decide) (by decide) (by decide)).imp fun _ x => x.1,
   (h.2.2.2.2 starting (by decide) (by decide)).imp fun _ x => x.1⟩

theorem witness_Resets (h : Obligations.Resets) :
    completes (.resetAssert 10000) hub ∧
      completes (.resetAssert 999) hub ∧
      completes (.railBrownout .vkeep 1000 20000) hub ∧
      completes (.clk25Stop 4000) hub :=
  ⟨(h.1 10000 hub (by decide)).imp fun _ x => x.1,
   ⟨_, h.2.1 999 hub (by decide)⟩,
   (h.2.2.1 .vkeep 1000 20000 hub (by decide) (by decide)).imp fun _ x => x.1,
   (h.2.2.2 4000 hub (by decide)).imp fun _ x => x.1⟩

theorem witness_StrapsScan (h : Obligations.StrapsScan) :
    completes (.strapScan 5 zeros) scanned ∧
      completes (.strapHold 100000000000 zeros) scanned ∧
      completes (.mode0Burst 5) inHold :=
  ⟨(h.1 5 zeros scanned (by decide) (by decide) (by decide) (by decide)).imp fun _ x => x.1,
   (h.2.1 100000000000 zeros scanned 0 (by decide) (by decide) (by decide) rfl (by decide)).imp fun _ x => x.1,
   (h.2.2 5 inHold (by decide)).imp fun _ x => x.1⟩

theorem witness_StrapsReread (h : Obligations.StrapsReread) :
    completes (.strapRescan 5 zeros) hub ∧
      completes (.liveStrapRead 5 { checkMv := 0, raw := 0 } { checkMv := 0, raw := 0 } { checkMv := 0, raw := 1909 }) liveHub ∧
      completes (.liveStrapRead 5 openStrap openStrap openStrap) hub ∧
      completes (.supplyTrip 3000 10000000) hub ∧
      completes (.supplyClear 5000 1000000000) hub :=
  ⟨(h.1 5 zeros hub (by decide) (by decide)).imp fun _ x => x.1,
   (h.2.1 5 { checkMv := 0, raw := 0 } { checkMv := 0, raw := 0 } { checkMv := 0, raw := 1909 } 0 0 1 liveHub
       (by decide) (by decide) (by decide) (by decide) (by decide) (by decide) (by decide)).imp fun _ x => x.1,
   (h.2.2.1 5 openStrap openStrap openStrap hub (by decide) (by decide)).imp fun _ x => x.1,
   (h.2.2.2.1 3000 10000000 hub (by decide) (by decide) (by decide)).imp fun _ x => x.1,
   (h.2.2.2.2 5000 1000000000 hub (by decide) (by decide) (by decide)).imp fun _ x => x.1⟩

theorem witness_TestAccess (h : Obligations.TestAccess) :
    completes (.diagAddr 5) hub ∧
      completes .diagData hub ∧
      completes .bypass hub :=
  ⟨⟨_, h.1 5 hub (by decide)⟩,
   ⟨_, h.2.1 hub (by decide)⟩,
   ⟨_, h.2.2.1 hub (by decide)⟩⟩

theorem witness_AgeingRecorded (h : Obligations.AgeingRecorded) :
    completes (.slackMeasurement (List.replicate 12 900)) hub ∧
      completes (.retentionTest (31 :: List.replicate 31 64)) hub ∧
      completes (.lifeHour 20 70) hub ∧
      completes (.memsResonanceTest 0 30 990) ageing ∧
      completes (.spillPageReadback 0 [1, 4] true 40 100) ageing ∧
      completes (.scrub []) hub ∧
      completes (.scrub []) woken ∧
      completes (.scrub [{ place := .die 2097152, errors := 1, caught := false }]) hub ∧
      completes (.scrub [{ place := .die 67108863, errors := 2, caught := false }]) hub ∧
      completes (.scrub [{ place := .die 0, errors := 3, caught := false }]) hub :=
  ⟨(h.1 (List.replicate 12 900) hub (by decide) (by decide) (by decide)).imp fun _ x => x.1,
   (h.2.1 (31 :: List.replicate 31 64) hub (by decide) (by decide) (by decide)).imp fun _ x => x.1,
   (h.2.2.1 20 70 hub).imp fun _ x => x.1,
   (h.2.2.2.1 0 30 990 ageing (by decide) (by decide) (by decide) (by decide)).imp fun _ x => x.1,
   (h.2.2.2.2.1 0 [1, 4] true 40 100 ageing (by decide) (by decide) (by decide) (by decide) (by decide)
       (by decide)).imp fun _ x => x.1,
   (h.2.2.2.2.2.1 [] hub (by decide) rfl).imp fun _ x => x.1,
   (h.2.2.2.2.2.2.1 [] woken (by decide) rfl).imp fun _ x => x.1,
   (h.2.2.2.2.2.2.2.2.1 2097152 hub (by decide) rfl (by decide) (by decide)).imp fun _ x => x.1,
   (h.2.2.2.2.2.2.2.2.2.1 67108863 hub (by decide) rfl (by decide) (by decide)).imp fun _ x => x.1,
   (h.2.2.2.2.2.2.2.2.2.2 0 3 hub (by decide) rfl (by decide) (by decide) (by decide)).imp fun _ x => x.1⟩

theorem witness_PinsDrive (h : Obligations.PinsDrive) :
    completes (.pinSet 0) (pinHub 0x1058 full_) ∧
      completes (.pinOut 0) (pinHub 0x2060 full_) ∧
      completes (.pinMov 0) (pinHub 0x8050 full_) :=
  ⟨(h.1 0 (pinHub 0x1058 full_) _ _ 0x1058 rfl).imp fun _ x => x.1,
   (h.2.1 0 (pinHub 0x2060 full_) _ _ 0x2060 rfl).imp fun _ x => x.1,
   (h.2.2 0 (pinHub 0x8050 full_) _ _ 0x8050 rfl).imp fun _ x => x.1⟩

theorem witness_PinsMoveWords (h : Obligations.PinsMoveWords) :
    completes (.pinIn 0) (pinHub 0x3040 full_) ∧
      completes (.pinPull 0) (pinHub 0x4000 full_) ∧
      completes (.pinPush 0) (pinHub 0x5000 full_) ∧
      completes (.pinStamp 5 0) (pinHub 0xA000 full_) :=
  ⟨(h.1 0 (pinHub 0x3040 full_) _ _ 0x3040 rfl).imp fun _ x => x.1,
   (h.2.1 0 (pinHub 0x4000 full_) _ _ 0x4000 9 rfl rfl).imp fun _ x => x.1,
   (h.2.2.1 0 (pinHub 0x5000 full_) _ _ 0x5000 rfl rfl).imp fun _ x => x.1,
   (h.2.2.2 5 0 (pinHub 0xA000 full_) _ _ 0xA000 rfl rfl).imp fun _ x => x.1⟩

theorem witness_PinsBranch (h : Obligations.PinsBranch) :
    completes (.pinWait 5 0) (pinHub 0x6280 full_) ∧
      completes (.pinWait 5 0) (pinHub 0x6800 { full_ with gridAt := some 7167 }) ∧
      completes (.pinJmp 0) (pinHub 0x7228 full_) ∧
      completes (.pinFlag ⟨5, 0⟩) (pinHub 0x9880 full_) ∧
      completes (.pinFlag ⟨5, 0⟩) flagged :=
  ⟨(h.1 5 0 (pinHub 0x6280 full_) _ _ 0x6280 rfl (by decide)).imp fun _ x => x.1,
   (h.2.1 5 0 (pinHub 0x6800 { full_ with gridAt := some 7167 }) _ _ 0x6800 7167 rfl (by decide) rfl
       (by decide)).imp fun _ x => x.1,
   (h.2.2.1 0 (pinHub 0x7228 full_) _ _ 0x7228 rfl).imp fun _ x => x.1,
   (h.2.2.2.1 5 0 (pinHub 0x9880 full_) _ _ 0x9880 rfl (by decide)).imp fun _ x => x.1,
   (h.2.2.2.2.1 5 0 flagged _ _ 0x9880 rfl (by decide)).imp fun _ x => x.1⟩

theorem witness_PinsStall (h : Obligations.PinsStall) :
    completes (.pinPull 0) (pinHub 0x4000 PinSt.init) ∧
      completes (.pinPull 0) (pinHub 0x4000 { PinSt.init with phrase := some (1, 2) }) ∧
      completes (.pinPush 0) (pinHub 0x5000 { PinSt.init with rxh := some (3, false) }) ∧
      completes (.pinStamp 5 0) (pinHub 0xA000 { PinSt.init with rxh := some (3, false) }) ∧
      completes (.pinWait 5 0) (pinHub 0x6080 full_) :=
  ⟨(h.1 0 (pinHub 0x4000 PinSt.init) _ _ 0x4000 rfl rfl rfl).imp fun _ x => x.1,
   (h.2.1 0 (pinHub 0x4000 { PinSt.init with phrase := some (1, 2) }) _ _ 0x4000 1 2 rfl rfl rfl
       (by decide)).imp fun _ x => x.1,
   (h.2.2.1 0 (pinHub 0x5000 { PinSt.init with rxh := some (3, false) }) _ _ 0x5000 _ rfl rfl).imp fun _ x => x.1,
   (h.2.2.2.1 5 0 (pinHub 0xA000 { PinSt.init with rxh := some (3, false) }) _ _ 0xA000 _ rfl rfl).imp fun _ x => x.1,
   (h.2.2.2.2 5 0 (pinHub 0x6080 full_) _ _ 0x6080 rfl (by decide)).imp fun _ x => x.1⟩

theorem witness_PinsDispatch (h : Obligations.PinsDispatch) :
    completes (.txhFill 0) (pinHub 0 { PinSt.init with phrase := some (1, 1) }) ∧
      completes (.rxhDrain 0) (pinHub 0 receiving) ∧
      completes (.rxIdleClose 0) (pinHub 0 receiving) ∧
      completes (.reservedOpHalt 0) (pinHub 0 receiving) ∧
      completes (.padLevelChange 3 true) hub :=
  ⟨(h.1 0 (pinHub 0 { PinSt.init with phrase := some (1, 1) }) _ 1 1 8 rfl rfl rfl rfl).imp fun _ x => x.1,
   (h.2.1 0 (pinHub 0 receiving) _ _ _ 3 rfl rfl rfl rfl (by decide)).imp fun _ x => x.1,
   (h.2.2.1 0 (pinHub 0 receiving) _ _ _ rfl rfl rfl (by decide) (by decide) (by decide)).imp fun _ x => x.1,
   (h.2.2.2.1 0 (pinHub 0 receiving) _ _ rfl rfl (by decide) (by decide)).imp fun _ x => x.1,
   (h.2.2.2.2 3 true hub (by decide)).imp fun _ x => x.1⟩

theorem witness_PtpMasters (h : Obligations.PtpMasters) :
    completes (.ptpAnnounce ⟨1, 0⟩ announce) announced ∧
      completes (.ptpAnnounce ⟨1, 0⟩ announce) hub ∧
      completes (.announceReceiptTimeout 9000000000000 0) mastered ∧
      completes (.announceReceiptTimeout 1000000000000 0) twoMasters ∧
      completes (.syncTimeout 9000000000000 0) mastered :=
  ⟨(h.1 1 0 announce announced announce (by decide) (by decide) (by decide) (by decide) (by decide) (by decide)).imp fun _ x
      => x.1,
   (h.2.1 1 0 announce hub (by decide) (by decide) (by decide) (by decide) (by decide) (by decide)).imp fun _ x => x.1,
   (h.2.2.1 9000000000000 0 mastered (by decide) (by decide) (by decide) (by decide) (by decide)).imp fun _ x => x.1,
   (h.2.2.2.1 1000000000000 0 twoMasters announce (by decide) (by decide) (by decide) (by decide)).imp fun _ x => x.1,
   (h.2.2.2.2 9000000000000 0 mastered (by decide) (by decide) (by decide)).imp fun _ x => x.1⟩

theorem witness_PtpMeasures (h : Obligations.PtpMeasures) :
    completes (.ptpSync 5 0 (syncMsg false)) acquiring ∧
      completes (.ptpSync 5 0 (syncMsg true)) acquiring ∧
      completes (.ptpFollowUp 5 0 (syncMsg true)) acquiring ∧
      completes (.ptpDelayResp ⟨0, 0, masterId⟩ 2 900 0 1) acquiring :=
  ⟨(h.1 5 0 (syncMsg false) acquiring (by decide) (by decide) (by decide) (by decide) (by decide)).imp fun _ x => x.1,
   (h.2.1 5 0 (syncMsg true) acquiring (by decide) (by decide) (by decide)).imp fun _ x => x.1,
   (h.2.2.1 5 0 (syncMsg true) acquiring 500 10 (by decide) (by decide) rfl).imp fun _ x => x.1,
   (h.2.2.2 0 0 masterId 2 900 0 1 acquiring 400 (by decide) (by decide) (by decide) rfl rfl rfl).imp fun _ x => x.1⟩

theorem witness_PpsEdges (h : Obligations.PpsEdges) :
    completes (.ppsEdge 1000000000000 true 100) (ppsRun 1) ∧
      completes (.ppsEdge 1000000000000 true 99) (ppsRun 1) ∧
      completes (.ppsTimeout 1000010000000) (ppsRun 2) :=
  ⟨(h.1 1000000000000 true 100 (ppsRun 1) (by decide) (by decide) (by decide)).imp fun _ x => x.1,
   ⟨_, h.2.1 1000000000000 true 99 (ppsRun 1) (by decide)⟩,
   (h.2.2 1000010000000 (ppsRun 2) (by decide) (by decide)).imp fun _ x => x.1⟩

theorem witness_FeRequests (h : Obligations.FeRequests) :
    completes (.feBlankAssert 5) (feHub (some (conv2 .grid))) ∧
      completes (.feBlankRelease 5) (feHub none) ∧
      completes (.blankGuardEnd 5) (feHub none) ∧
      completes (.feCalStepDue 5 2 true) (feHub none) ∧
      completes (.feCalStepDue 5 2 true) feStepped ∧
      completes (.feTrigEdge 5) (feHub none) ∧
      completes (.feTrigEdge 5) fePending ∧
      completes (.complianceTrip 5 2) (feHub (some (conv2 .grid))) ∧
      completes (.clampEvent 4 2001) (feHub (some (conv2 .grid))) ∧
      completes (.clampEvent 4 2000) hub :=
  ⟨(h.1 5 (feHub (some (conv2 .grid)))).imp fun _ x => x.1,
   (h.2.1 5 (feHub none) _ feImage rfl rfl rfl).imp fun _ x => x.1,
   (h.2.2.1 5 (feHub none) 0 rfl).imp fun _ x => x.1,
   (h.2.2.2.1 5 2 true (feHub none) recipe2 scan2 rfl rfl (by decide) (by decide) (by decide) (by decide)
       (by decide)).imp fun _ x => x.1,
   ⟨_, h.2.2.2.2.1 5 2 true feStepped (by decide)⟩,
   (h.2.2.2.2.2.1 5 (feHub none) _ rfl (fun _ h => nomatch h)
       (fun ch hc => by
         obtain rfl : ch = 2 := List.mem_singleton.1 (trig_two ▸ hc)
         exact ⟨by decide, rfl, recipe2, rfl, by decide⟩) (by decide)).imp fun _ x => x.1,
   (h.2.2.2.2.2.2.1 5 fePending _ 2 recipe2 rfl trig_two rfl (by decide) (fun _ h => nomatch h) (by decide) (by decide)
       nofun).imp fun _ x => x.1,
   (h.2.2.2.2.2.2.2.1 5 2 (feHub (some (conv2 .grid))) (by decide)).imp fun _ x => x.1,
   (h.2.2.2.2.2.2.2.2.1 4 2001 (feHub (some (conv2 .grid))) (by decide) (by decide)).imp fun _ x => x.1,
   ⟨_, h.2.2.2.2.2.2.2.2.2 4 2000 hub (by decide)⟩⟩

theorem witness_FeConverts (h : Obligations.FeConverts) :
    completes (.feConversionStart 0 2 .grid) feClear ∧
      completes (.feConversionStart 0 2 .grid) feDue ∧
      completes (.feConversionEnd 0 2 default) (feHub (some (conv2 .grid))) ∧
      completes (.feConversionEnd 0 2 default) feWaits ∧
      completes (.feConversionEnd 0 2 default) (feHub (some (conv2 .calOffset))) ∧
      completes (.feConversionEnd 0 2 default) (feHub (some (conv2 .calGain))) ∧
      completes (.feConversionEnd 0 2 default) (feHub (some { conv2 .grid with dropped := true })) ∧
      completes (.feConversionEnd 0 2 default) (feHub (some (conv2 .grid))) :=
  ⟨(h.1 0 2 feClear recipe2 scan2 7097900390625000000000000 rfl rfl (by decide) (by decide) rfl (by decide) rfl
      (by decide) (by decide)).imp fun _ x => x.1,
   (h.2.1 0 2 feDue recipe2 scan2 7097900390625000000000000 rfl rfl (by decide) (by decide) rfl (by decide) rfl
      (by decide) rfl (by decide)).imp fun _ x => x.1,
   (h.2.2.1 0 2 default (feHub (some (conv2 .grid))) _ rfl rfl rfl rfl (.inr rfl) (by decide)).imp fun _ x => x.1,
   (h.2.2.2.1 0 2 default feWaits _ (conv2 .grid) (3, 0) rfl rfl rfl rfl rfl (.head _) (by decide) (.head _) rfl rfl
       (by decide) (by decide)).imp fun _ x => x.1,
   (h.2.2.2.2.1 0 2 default (feHub (some (conv2 .calOffset))) _ rfl rfl rfl rfl (by decide) (by decide)).imp fun _ x => x.1,
   (h.2.2.2.2.2.1 0 2 default (feHub (some (conv2 .calGain))) _ rfl rfl rfl rfl (by decide)).imp fun _ x => x.1,
   (h.2.2.2.2.2.2.1 0 2 default (feHub (some { conv2 .grid with dropped := true })) _ rfl rfl rfl (by decide)).imp fun _ x => x.1,
   (h.2.2.2.2.2.2.2 0 2 default (feHub (some (conv2 .grid))) _ rfl rfl (by decide) rfl rfl rfl (.inr rfl)).imp fun _ x => x.1⟩

theorem witness_TriadsSense (h : Obligations.TriadsSense) :
    completes (.inertialInstant readings) senseHub ∧
      completes (.triadFault 2 7) senseHub ∧
      completes (.triadFaultClear 1 2) faulty ∧
      completes (.triadSettled 1 2) senseHub :=
  ⟨(h.1 readings senseHub (by decide) (by decide)).imp fun _ x => x.1,
   (h.2.1 2 7 senseHub (by decide) (by decide) (by decide)).imp fun _ x => x.1,
   (h.2.2.1 1 2 faulty (by decide) (by decide)).imp fun _ x => x.1,
   (h.2.2.2 1 2 senseHub (by decide) (by decide) (by decide)).imp fun _ x => x.1⟩

theorem witness_CrossoverDecides (h : Obligations.CrossoverDecides) :
    completes (.inertialInstant readings) senseHub :=
  (h readings senseHub 0 (by decide) (by decide) (by decide) (by decide) (by decide) (by decide)).imp fun _ x => x.1

theorem witness_ProductsSample (h : Obligations.ProductsSample) :
    completes .strapdownSample senseHub :=
  (h senseHub (by decide) (by decide) (by decide) (by decide)).imp fun _ x => x.1

theorem witness_RecordsWritten (h : Obligations.RecordsWritten) :
    completes .waveRecordWrite recHub ∧
      completes .heaveStats recHub :=
  ⟨(h.1 recHub recDone _ rfl rfl (by decide) (by decide) (by decide) (by decide) (by decide)).imp fun _ x => x.1,
   (h.2 recHub recDone _ rfl rfl (by decide) (by decide) (by decide) (by decide)).imp fun _ x => x.1⟩

theorem witness_CornerSteps (h : Obligations.CornerSteps) :
    completes .recordPeriodEnd recPast ∧
      completes .recordPeriodEnd recSkipped :=
  ⟨(h.1 recPast { recDone with broken := true } recDone.dmean recDone.h4s rfl (by decide) (by decide) (by decide) (by decide)
      (if_neg (by decide)).symm (by decide +kernel)).imp fun _ x => x.1,
   (h.2.1 recSkipped recDone rfl (by decide) (by decide) (by decide)).imp fun _ x => x.1⟩

theorem witness_CalibrationUpdates (h : Obligations.CalibrationUpdates) :
    completes (.calBlockEnd 5 2) senseHub ∧
      completes (.calUpdate 2) recHub ∧
      completes (.calUpdate 2) updSkipped :=
  ⟨(h.1 5 2 senseHub (by decide) (by decide) (by decide) (by decide)).imp fun _ x => x.1,
   (h.2.1 2 recHub (by decide) (by decide) (by decide) (by decide) (by decide)).imp fun _ x => x.1,
   (h.2.2.1 2 updSkipped (by decide) (by decide) (by decide) (by decide) (by decide)).imp fun _ x => x.1⟩

theorem witness_SlamAndCrest (h : Obligations.SlamAndCrest) :
    completes .slam (recogHub RecSt.init) ∧
      completes .crest (recogHub RecSt.init) :=
  ⟨(h.1 (recogHub RecSt.init) _ 57344 (inp [0, 0, 0]) rfl rfl rfl (by decide) (by decide) (by decide) (by decide)
      (by decide) (by decide) (by decide)).imp fun _ x => x.1,
   (h.2 (recogHub RecSt.init) _ 7000 [5, 0, 0, 0] rfl rfl (by decide) (by decide) (by decide) (by decide)).imp fun _ x
       => x.1⟩

/-- Every recogniser of that hub runs, has seen nothing and is idle. -/
theorem recogHub_idle (r : Fin 6) (q : Nat) :
    (recogHub RecSt.init).recRuns r = true ∧ (nth (recogHub RecSt.init).way.recs r).seenAt ≠ some q ∧
      (nth (recogHub RecSt.init).way.recs r).active = false :=
  match r with
  | 0 | 1 | 2 | 3 | 4 | 5 => ⟨rfl, nofun, rfl⟩

theorem witness_RecognisersOnset (h : Obligations.RecognisersOnset) :
    completes .drop (recogHub RecSt.init) ∧
      completes .capsize (recogHub RecSt.init) ∧
      completes .tilt (recogHub RecSt.init) ∧
      completes .drift (recogHub RecSt.init) :=
  ⟨(h.1 (recogHub RecSt.init) _ 57344 (inp [0, 0, 0]) rfl rfl rfl (by decide) (by decide) (by decide) (by decide)
      (by decide) (by decide) (by decide)).imp fun _ x => x.1,
   (h.2.1 (recogHub RecSt.init) _ 7168 rfl rfl (recogHub_idle 3 0).1 (by decide) rfl (recogHub_idle 3 _).2.1 rfl rfl
       (by decide +kernel) (by decide +kernel)).imp fun _ x => x.1,
   (h.2.2.1 (recogHub RecSt.init) _ 7168 rfl rfl (recogHub_idle 4 0).1 (by decide) rfl (recogHub_idle 4 _).2.1 rfl rfl
       (by decide +kernel) rfl (tilt_at_rest _ (by decide))).imp fun _ x => x.1,
   (h.2.2.2 (recogHub RecSt.init) _ rfl (recogHub_idle 5 0).1 (by decide) (by decide) (by decide) rfl
       (recogHub_idle 5 _).2.1 rfl (by decide +kernel) rfl (drift_fails _ _) (by decide +kernel)).imp fun _ x => x.1⟩

theorem witness_EventsOffered (h : Obligations.EventsOffered) :
    completes .eventPass eventHub ∧
      completes .eventPass carriedHub :=
  ⟨(h.1 eventHub _ _ rfl (by decide) (by decide) (by decide)).imp fun _ x => x.1,
   ⟨_, h.2 carriedHub (by decide)⟩⟩

theorem witness_RoadsEnumerate (h : Obligations.RoadsEnumerate) :
    completes (.roadStart 0) (roadHub 7168 Road.init) ∧
      completes (.markLaunch 0) (roadHub 7168 (nodeRoad 7167)) ∧
      completes (.enumReply 0 (upRx enumBytes 9500000)) (roadHub 7168 offering) ∧
      completes (.ackFrame 0 1 (burstGroups 2 [ackBytes]) 9500000 2) (roadHub 7168 (nodeRoad 7168)) ∧
      completes (.ackFrame 0 0 (burstGroups 2 [[0, 3, 0x10, 0, 0]]) 9720000 0) (roadHub 7168 (nodeRoad 7168)) ∧
      completes (.echoWindowEnd 0) (roadHub 7168 offering) :=
  ⟨(h.1 0 (roadHub 7168 Road.init) (by decide) (by decide) (by decide) (by decide)).imp fun _ x => x.1,
   (h.2.1 0 (roadHub 7168 (nodeRoad 7167)) (by decide) (by decide) (by decide) (by decide)).imp fun _ x => x.1,
   (h.2.2.1 0 (upRx enumBytes 9500000) (roadHub 7168 offering) 0 enumBytes true (by decide) (by decide) (by decide) rfl
       (by decide +kernel) (by decide +kernel) (by decide) (by decide) (by decide) (by decide +kernel)).imp fun _ x => x.1,
   (h.2.2.2.1 0 1 (burstGroups 2 [ackBytes]) 9500000 2 (roadHub 7168 (nodeRoad 7168)) ackBytes node0 _ 1 7100 (by decide)
       (by decide) (by decide) (by decide)
       (by decide +kernel) (by decide +kernel) (by decide +kernel) rfl).imp fun _ x => x.1,
   (h.2.2.2.2.1 0 0 (burstGroups 2 [[0, 3, 0x10, 0, 0]]) 9720000 0 (roadHub 7168 (nodeRoad 7168)) [0, 3, 0x10, 0, 0] (by decide)
       (by decide) (by decide) (by decide)
       (by decide +kernel)).imp fun _ x => x.1,
   (h.2.2.2.2.2 0 (roadHub 7168 offering) (by decide) (by decide) (by decide) (by decide) (by decide) (by decide)
       (by decide) (by decide)).imp fun _ x => x.1⟩

theorem witness_RoadsReceive (h : Obligations.RoadsReceive) :
    completes (.slotFrame 0 0 slotRx) (roadHub 7168 (nodeRoad 7168)) ∧
      completes (.echoFrame 0 (upRx [0x80, 0, 0, 0] 9500000)) (roadHub 7168 (nodeRoad 7168)) ∧
      completes (.echoFrame 0 (upRx echoBytes 9510000)) (roadHub 7168 { nodeRoad 7168 with hold := 9619 }) :=
  ⟨(h.1 0 0 slotRx (roadHub 7168 (nodeRoad 7168)) node0 (by decide) (by decide) rfl (by decide)).imp fun _ x => x.1,
   (h.2.1 0 (upRx [0x80, 0, 0, 0] 9500000) (roadHub 7168 (nodeRoad 7168)) 0 [0x80, 0, 0, 0] node0 (by decide) (by decide) rfl
       rfl rfl rfl (by decide +kernel)).imp fun _ x => x.1,
   (h.2.2 0 (upRx echoBytes 9510000) (roadHub 7168 { nodeRoad 7168 with hold := 9619 }) 0 echoBytes node0 (by decide)
       (by decide) rfl rfl rfl rfl (by decide +kernel) (by decide +kernel) (by decide)).imp fun _ x => x.1⟩

theorem witness_RoadsLoseAndPredict (h : Obligations.RoadsLoseAndPredict) :
    completes (.nodeLost 0 0) (roadHub 7168 silentRoad) ∧
      completes (.delayCycleEnd 0) (roadHub 7167 cycleSix) :=
  ⟨(h.1 0 0 (roadHub 7168 silentRoad) _ (by decide) rfl (by decide) (by decide)).imp fun _ x => x.1,
   (h.2.1 0 (roadHub 7167 cycleSix) (by decide) (by decide) (by decide) (by decide)
       (by decide)).imp fun _ x => x.1⟩

theorem witness_PacketsOpenAndClose (h : Obligations.PacketsOpenAndClose) :
    completes (.packetOpen { producer := 3, tag := 5, maxWords := 8, mark := 7000 }) hub ∧
      completes (.packetClose 0x04000000) openHub :=
  ⟨(h.1 { producer := 3, tag := 5, maxWords := 8, mark := 7000 } hub (by decide) (by decide) (by decide) (by decide)
      (by decide)).imp fun _ ⟨_, x⟩ => x.1,
   (h.2 0x04000000 openHub _ ⟨(by decide), (by decide)⟩ rfl (by decide) (by decide) (by decide)).imp fun _ ⟨_, x⟩ => x.1⟩

theorem witness_ReadersMove (h : Obligations.ReadersMove) :
    completes (.rewindTakeEffect 4) (requested (some 3)) ∧
      completes (.flushTakeEffect 4) (requested none) :=
  ⟨(h.1 4 (requested (some 3)) _ 3 (by decide) rfl rfl (by decide)).imp fun _ x => x.1,
   (h.2 4 (requested none) _ (by decide) rfl rfl (by decide)).imp fun _ x => x.1⟩

theorem witness_JobsRun (h : Obligations.JobsRun) :
    completes (.reductionRelease ⟨0, []⟩) (redHub []) ∧
      completes (.reductionComplete 0) (redHub [inst0]) :=
  ⟨(h.1 0 [] (redHub []) 6144 redEntry0 (by decide) rfl (by decide) (by decide) (by decide)).imp fun _ x => x.1,
   (h.2 0 (redHub [inst0]) inst0 rfl (by decide)).imp fun _ x => x.1⟩

theorem witness_SpillWorks (h : Obligations.SpillWorks) :
    completes (.spillPageCommit ⟨0, []⟩) spillHub ∧
      completes (.spillDeviceFail 0 1) spillHub ∧
      completes .spillRollup rollHub ∧
      completes (.spillDiscoveryDone devices journal) discovering :=
  ⟨(h.1 0 [] spillHub (by decide) (by decide)).imp fun _ ⟨_, x⟩ => x.1,
   (h.2.1 0 1 spillHub (by decide) (by decide) (by decide) (by decide) (by decide) (by decide)).imp fun _ x => x.1,
   (h.2.2.1 rollHub 0 _ (by decide) (by decide) rfl (by decide)).imp fun _ x => x.1,
   (h.2.2.2 devices journal discovering (by decide) (by decide)).imp fun _ x => x.1⟩

theorem witness_ImageLoads (h : Obligations.ImageLoads) :
    completes (.busRelease 5) hub ∧
      completes (.busRelease 5) firstLoad ∧
      completes (.imgrelRise 5) (inImageHold false none) ∧
      completes (.imageHoldRetry 10000000000000) (inImageHold true none) ∧
      completes (.loadAttempt 5 1 (flash goodWords)) loading ∧
      completes (.loadAttempt 5 1 default) loading ∧
      completes (.islandReady 11 true) (stagedLoad none (List.range 11)) :=
  ⟨(h.1 5 hub rfl).imp fun _ x => x.1,
   (h.2.1 5 firstLoad _ rfl rfl rfl).imp fun _ x => x.1,
   (h.2.2.1 5 (inImageHold false none) rfl).imp fun _ x => x.1,
   (h.2.2.2.1 10000000000000 (inImageHold true none) rfl rfl (.inl (by decide))).imp fun _ x => x.1,
   ((good_image.elim fun im hv => (h.2.2.2.2.1 5 1 (flash goodWords) loading _ im rfl rfl (by decide) (by decide)
       (by decide) hv).imp fun _ x => x.1)),
   (h.2.2.2.2.2.1 5 1 default loading _ 1 0 none 0 rfl rfl (by decide) (by decide) (by decide) rfl
       (by decide)).imp fun _ x => x.1,
   (h.2.2.2.2.2.2 11 (stagedLoad none (List.range 11)) _ roadImage rfl rfl rfl (by decide) (by decide)).imp fun _ x => x.1⟩

theorem witness_GridMarks (h : Obligations.GridMarks) :
    completes (.gridMark default) hub ∧
      completes (.gridMark default) (stagedLoad (some 7169) (List.range 12)) ∧
      completes (.gridMark default) beforeM0 ∧
      completes (.gridMark default) toLane ∧
      completes (.gridMark default) layby ∧
      completes (.gridMark default) noClock :=
  ⟨(h.1 default hub (by decide)).imp fun _ x => x.1,
   (h.2.1 default (stagedLoad (some 7169) (List.range 12)) _ roadImage 7169 (by decide) (by decide) (by decide) rfl rfl
       rfl (by decide)).imp fun _ x => x.1,
   (h.2.2.1 default beforeM0 _ roadImage 7169 (by decide) (by decide) rfl rfl rfl (by decide)).imp fun _ x => x.1,
   (h.2.2.2.1 default toLane 7169 .lane (by decide) (by decide) (by decide) (by decide) rfl (by decide)).imp fun _ x => x.1,
   (h.2.2.2.2.1 default layby (by decide) (by decide) (by decide)).imp fun _ x => x.1,
   ⟨_, h.2.2.2.2.2 default noClock (by decide)⟩⟩

theorem witness_PeriodReported (h : Obligations.PeriodReported) :
    completes .reportPeriod reportDue :=
  (h reportDue ⟨(by decide), (by decide)⟩ (by decide) (by decide)).imp fun _ x => x.1

theorem witness_PinCounterWraps (h : Obligations.PinCounterWraps) :
    completes (.pinSet 0) (pinHub 0x1058 full_) ∧
      completes (.pinOut 0) (pinHub 0x2060 full_) ∧
      completes (.pinIn 0) (pinHub 0x3040 full_) ∧
      completes (.pinPull 0) (pinHub 0x4000 full_) ∧
      completes (.pinPush 0) (pinHub 0x5000 full_) ∧
      completes (.pinWait 5 0) (pinHub 0x6280 full_) ∧
      completes (.pinJmp 0) (pinHub 0x7228 PinSt.init) ∧
      completes (.pinMov 0) (pinHub 0x8050 full_) ∧
      completes (.pinFlag ⟨5, 0⟩) (pinHub 0x9880 full_) ∧
      completes (.pinStamp 5 0) (pinHub 0xA000 full_) :=
  ⟨((h 0 5 (pinHub 0x1058 full_) _ _ 0x1058).1 rfl).imp fun _ x => x.1,
   ((h 0 5 (pinHub 0x2060 full_) _ _ 0x2060).2.1 rfl).imp fun _ x => x.1,
   ((h 0 5 (pinHub 0x3040 full_) _ _ 0x3040).2.2.1 rfl).imp fun _ x => x.1,
   ((h 0 5 (pinHub 0x4000 full_) _ _ 0x4000).2.2.2.1 rfl (by decide)).imp fun _ x => x.1,
   ((h 0 5 (pinHub 0x5000 full_) _ _ 0x5000).2.2.2.2.1 rfl rfl).imp fun _ x => x.1,
   ((h 0 5 (pinHub 0x6280 full_) _ _ 0x6280).2.2.2.2.2.1 rfl (.inl (by decide))).imp fun _ x => x.1,
   ((h 0 5 (pinHub 0x7228 PinSt.init) _ _ 0x7228).2.2.2.2.2.2.1 rfl (by decide)).imp fun _ x => x.1,
   ((h 0 5 (pinHub 0x8050 full_) _ _ 0x8050).2.2.2.2.2.2.2.1 rfl).imp fun _ x => x.1,
   ((h 0 5 (pinHub 0x9880 full_) _ _ 0x9880).2.2.2.2.2.2.2.2.1 rfl).imp fun _ x => x.1,
   ((h 0 5 (pinHub 0xA000 full_) _ _ 0xA000).2.2.2.2.2.2.2.2.2 rfl rfl).imp fun _ x => x.1⟩

/-! ### Statements over any command, and over the functions that a meaning calls -/

theorem witness_QueueKept (h : Obligations.QueueKept) : step hub = .next hub ∧ ∃ t, exec (.holdExpiry 1) hub = .next t
    ∧ t.pending = hub.pending :=
  ⟨h.1 hub rfl, _, rfl, h.2 (.holdExpiry 1) hub _ rfl⟩

theorem witness_WellFormedCompletes (h : Obligations.WellFormedCompletes) :
    (∃ t, exec .strapdownSample hub = .next t) ∧ exec (.strapScan 0 []) hub = .fault .illFormed :=
  ⟨(h .strapdownSample hub).1 rfl, (h (.strapScan 0 []) hub).2 rfl⟩

theorem witness_FusesStay (h : Obligations.FusesStay) : ∃ t, exec (.resetAssert 10000) hub = .next t ∧ hub.fuses.stay
    t.fuses :=
  ⟨_, rfl, h (.resetAssert 10000) hub _ rfl⟩

theorem witness_ImageChangesAtMarks (h : Obligations.ImageChangesAtMarks) :
    ∃ t, exec (.islandReady 11 true) (stagedLoad none (List.range 11)) = .next t ∧ t.port.inForce = some im0 :=
  ⟨_, rfl, h (.islandReady 11 true) (stagedLoad none (List.range 11)) _ rfl (fun _ => nofun) (fun _ => nofun)
      (fun _ _ _ => nofun) (fun _ => nofun)⟩

theorem witness_ModeChangesAtMarks (h : Obligations.ModeChangesAtMarks) :
    ∃ t, exec (.vote 4) (atHs 0x05 [1]) = .next t ∧ t.power.mode = some .highway :=
  ⟨_, rfl, h (.vote 4) (atHs 0x05 [1]) _ rfl (fun _ => nofun) (fun _ _ => nofun) (fun _ => nofun) (fun _ _ _ => nofun)
      (fun _ => nofun)⟩

theorem witness_RateStays (h : Obligations.RateStays) : ∃ t, exec (.gridMark default) hub = .next t ∧ t.time.rateOk :=
  ⟨_, rfl, h (.gridMark default) hub _ ⟨by decide, by decide⟩ rfl⟩

theorem witness_JmpConditions (h : Obligations.JmpConditions) (p : Pin) (en : PinEng) :
    jmpTaken p en full_ 1 = (true, { full_ with c0 := 4 }) ∧ jmpTaken p en full_ 2 = (true, { full_ with c1 := 0 }) ∧
      jmpTaken p en PinSt.init 1 = (false, PinSt.init) ∧ jmpTaken p en PinSt.init 2 = (false, PinSt.init) :=
  ⟨(h p en full_).2.1 (by decide), (h p en full_).2.2.2.1 (by decide), (h p en PinSt.init).2.2.1 rfl,
   (h p en PinSt.init).2.2.2.2.1 rfl⟩

/-- The corner at both ends of its range, up and down. -/
theorem witness_CornerSteps_choice (h : Obligations.CornerSteps) (run : Nat) (d hm0 : Word) :
    let c := senseHub.calBlock
    (exceedsUp d hm0 c.hvUp = true → (nextCorner c c.hvMax run d hm0).1 = c.hvMax) ∧
      (exceedsUp d hm0 c.hvUp = false → belowDown d c.hvDown = true → 2 ≤ run →
        (nextCorner c c.hvMin run d hm0).1 = max c.hvMin (c.hvMin - 1)) := by
  intro c
  refine ⟨fun e => ?_, fun e b r => ?_⟩
  · exact ((h.2.2 c c.hvMax run d hm0 (by decide) (by decide)).1 e).trans (by decide)
  · exact (h.2.2 c c.hvMin run d hm0 (by decide) (by decide)).2.1 e b r

/-- A channel in a state after some departures. -/
def calAt (st off : Nat) : CalCh := { (default : CalCh) with st := st, offRun := off }

/-- Each row of the state table. -/
theorem witness_CalibrationUpdates_verdict (h : Obligations.CalibrationUpdates) :
    let c := calAt
    (verdict (c 0 0) true false false 0 0 0 true).st = 1 ∧ (verdict (c 1 0) true true false 0 0 0 true).st = 3 ∧
      (verdict (c 1 0) true false false 3 4 2 true).st = 2 ∧
      (verdict { calAt 1 0 with wasSettled := true } true false false 9 4 0 true).st = 2 ∧ (verdict (c 2 0) true false false 9 4 0 true).st = 1 ∧
      verdict (c 3 5) true false true 0 4 0 true = ⟨1, true, true⟩ ∧ verdict (c 3 4) true false true 0 4 0 true = ⟨3,
          false, false⟩ ∧
      (verdict (c 3 0) true false false 4 4 0 true).st = 2 :=
  ⟨(h.2.2.2 _ _ _ _ _ _ _ _).1 rfl, (h.2.2.2 _ _ _ _ _ _ _ _).2.1 (.inl rfl) (.inl rfl), (h.2.2.2 _ _ _ _ _ _ _ _).2.2.1 rfl
      rfl rfl rfl,
   (h.2.2.2 { calAt 1 0 with wasSettled := true } true false false 9 4 0 true).2.2.2.1 (.inl rfl) rfl rfl rfl,
   (h.2.2.2 _ _ _ _ _ _ _ _).2.2.2.2.1 rfl rfl rfl rfl, (h.2.2.2 (calAt 3 5) _ _ _ _ _ _ _).2.2.2.2.2.1 rfl rfl (by decide),
   (h.2.2.2 (calAt 3 4) _ _ _ _ _ _ _).2.2.2.2.2.2.1 rfl (.inr rfl) (by decide),
   (h.2.2.2 _ _ _ _ _ _ _ _).2.2.2.2.2.2.2 rfl rfl rfl⟩

/-- Three echoes leave the prediction, four give a new one, with half the step of four cycles where it is known. -/
theorem witness_RoadsLoseAndPredict_cycle (h : Obligations.RoadsLoseAndPredict) :
    (Node.endCycle { node0 with got := [1, 2, 3] } 7).pred = 20000 ∧
      (Node.endCycle { node0 with got := [1, 2, 3, 4] } 7).pred = meanPs [1, 2, 3, 4] ∧
      (Node.endCycle { node0 with got := [4, 4, 4, 4], means := [(3, 2)] } 7).pred = meanPs [4, 4, 4, 4] + (meanPs [4, 4, 4, 4] - 2) / 2 :=
  ⟨(h.2.2 { node0 with got := [1, 2, 3] } 7).1 (by decide), (h.2.2 { node0 with got := [1, 2, 3, 4] } 7).2.1 (by decide)
      (by decide), (h.2.2 { node0 with got := [4, 4, 4, 4], means := [(3, 2)] } 7).2.2 (3, 2) (by decide) (by decide)⟩

/-- 16_host_serial.md R427: on the clocked serial port the least significant byte comes first, each with its most significant bit
first. -/
theorem test_serial_bits :
    serialBits [0x00000180] = [true, false, false, false, false, false, false, false, false, false, false, false, false, false,
      false, true] ++ List.replicate 16 false := by decide

/-! ### The checks of WellFormed refuse a term each -/

theorem test_wf_startUp : (Instr.startUp 0 []).wf = false := rfl
theorem test_wf_memoryDieInitDone : (Instr.memoryDieInitDone [32]).wf = false := rfl
theorem test_wf_strapScan : (Instr.strapScan 0 []).wf = false := rfl
theorem test_wf_strapHold : (Instr.strapHold 0 []).wf = false := rfl
theorem test_wf_strapRescan : (Instr.strapRescan 0 []).wf = false := rfl
theorem test_wf_inertialInstant : (Instr.inertialInstant []).wf = false := rfl
theorem test_wf_spillDeviceFail_discovery : (Instr.spillDeviceFail 0 4).wf = false := rfl
theorem test_wf_spillDeviceFail_zero : (Instr.spillDeviceFail 0 0).wf = false := rfl
theorem test_wf_slackMeasurement : (Instr.slackMeasurement []).wf = false := rfl
theorem test_wf_retentionTest : (Instr.retentionTest []).wf = false := rfl

/-- The scan meaning faults on such a term. -/
theorem test_strapScan_illFormed : exec (.strapScan 0 []) hub = .fault .illFormed := rfl

/-! ### The spec's own examples -/

/-- ASCII "123456789". -/
def digits : List Byte := [0x31, 0x32, 0x33, 0x34, 0x35, 0x36, 0x37, 0x38, 0x39]

/-- 03_route_image.md R80. -/
theorem test_crc32c_check_value : crc32c digits = 0xE3069283 := by decide +kernel

/-- 10_roads.md R270. -/
theorem test_crc16_check_value : crc16 digits = 0x29B1 := by decide +kernel

/-- 00_scope.md R9, its worked example. -/
theorem test_later_across_the_wrap : later32 5 0xFFFFFFF0 = true ∧ later32 0xFFFFFFF0 5 = false := by decide

/-- 10_roads.md, node 37 on the pier: the MARK's first bytes. -/
theorem test_pier_mark : (markFrame 0x41C2A8 false 2 0x25 0x3472).take 7 = [0x11, 0xA8, 0xC2, 0x02, 0x25, 0x72, 0x34] := by
  decide +kernel

/-- The pier's ROAD2: D_max 41.300 µs. -/
def pierRoad : Road :=
  { Road.init with
    dmax := 41300000
    nodes := (List.range 60).map fun p => { node0 with pos := p, slotM := 1, pred := 38920000 } }

/-- The same: T_M, HOLD, the slot's start and TXOFF. -/
theorem test_pier_times :
    pierRoad.tM = 202840625 ∧ holdFor pierRoad.tM 38920000 = 13426 ∧ pierRoad.slotStart 37 = 674500000 ∧
      units50 (pierRoad.txTarget { node0 with pos := 37, pred := 38920000 }) = 7839 := by decide +kernel

/-- 11_in_phase.md R291, its worked check: mark 0x0041C2A8 on ROAD2 asks node 37. -/
theorem test_pier_echo : pierRoad.echoPlan 2 0x41C2A8 = some 37 := by decide +kernel

/-- The same: the sample word of node 37. -/
theorem test_pier_sample : sampleWord 0xF3A2 0 = 0x00F3A200 := by decide

/-- 04_inertial.md, the discus buoy's stream 5: its source tag and its packet's lines. -/
theorem test_buoy_stream :
    streamTag 5 { (default : Stream) with source := 2, axes := 3, rate := 19, view := 0x0C } = 0x0011850C ∧
      packLines 512 3 = 385 := by decide +kernel

/-- 04_inertial.md R123, its worked check: 260 lines per 1024 marks. -/
theorem test_pier_demand : packDemand 16 256 1 = 260 ∧ linesOf 64 = 17 := by decide

/-- 08_front_end.md, the three-wire RTD recipe. -/
def rtd : Recipe :=
  parseRecipe [0x00104A06, 0x04300210, 0x12910000, 0xFC080028, 0x10FFF000, 0x42C80000, 0x38D1B717, 0x1838A000, 0x003C0000, 1, 0, 0]

/-- Its fields. -/
theorem test_rtd_fields :
    (rtd.ch, rtd.view, rtd.lead, rtd.auto, rtd.gain, rtd.rate) = (0, 0x10, 1, false, 5, 6) ∧
      (rtd.pinP, rtd.pinN, rtd.exaPin, rtd.exbPin, rtd.retPin) = (1, 3, 0, 2, 4) ∧
      (rtd.istep, rtd.pre, rtd.retVb, rtd.discharge, rtd.curve) = (9, 1, true, 40, 16) ∧
      (rtd.ow, rtd.blank, rtd.basic, rtd.pktSamples, rtd.credit) = (true, false, true, 60, 1) := by decide +kernel

/-- 09_conversion.md, the RTD recipe with WIN 13: an occupancy of 250,232.78 µs; and FE4's, scheme 0 with WIN 11 and DISCHARGE
20 µs: 31,346.39 µs; in steps of 10 ns, rounded down. -/
theorem test_occupancies :
    occAcc rtd { (default : ScanEntry) with win := 13 } / 10 ^ 16 = 25023278 ∧
      occAcc { (default : Recipe) with discharge := 20 } { (default : ScanEntry) with win := 11 } / 10 ^ 16 = 3134639 := by
  decide +kernel

/-- 12_causeway.md R311, its worked check: CREDIT 6160 gains 7.52 lines a mark and saturates at 7700 lines. -/
theorem test_account :
    (Account.refill { balance := 0, credit := 6160, largest := 385, beyond := 0 }).balance * 100 / 4096 = 751 ∧
      (Account.refill { balance := 7700 * 4096, credit := 6160, largest := 385, beyond := 0 }).balance = 7700 * 4096 := by decide

/-- 08_front_end.md, the RTD's two windows: 54,263.94 µV and 54,103.92 µV over 512.6 µA and 511.1 µA give 105.859 Ω. -/
theorem test_rtd_value :
    quantityOf rtd [fxRat 5126 (10 ^ 7), fxRat 5111 (10 ^ 7)] [fxRat 5426394 (10 ^ 8), fxRat 5410392 (10 ^ 8)] [] * 1000 / fxOne =
      105859 := by decide +kernel

/-- 09_conversion.md R253, its worked check: 100 dbar at a latitude of 48.5° are 99,132 mm. -/
theorem test_tide_depth :
    let y := fxWord (unescoDepth (fxRat 485 10) (fxInt 100))
    toCounts y 0x3A83126F = (99132, false) := by decide +kernel

/-- 05_sea_reference.md R133, its worked check: LAT 48.5° and HEIGHT 2.0 m give 1.0002756 g. -/
theorem test_gravity_reference : roundDiv (gravityRef 0x42420000 0x40000000 * 10 ^ 7) (2 ^ 96) = 10002756 := by decide +kernel

/-- 10_roads.md, node 37's SLOT frame: what a burst of it reads as, header CRC and one sample of 0xF3A2. -/
theorem test_pier_slot :
    readSlot { groups := burstGroups 2 [withCrc [0x65, 9, 0] ++ [0xA2, 0xF3, 0]], stray := 0 } 1 =
      { present := true, crcGood := true, ack := 9, stat := 0, samples := [(0x00F3A2, 0)], stray := 0 } := by decide +kernel

end Sys2Proof.Tests
end

section
/-! PROOFS. The frame of a command as a relation that composes, then the straps that are read again and the supply comparator
(02_straps.md R43–R45, R57). -/

namespace Sys2Proof.Machine

/-! ### OnlyWrites composes -/

theorem Part.same_trans {p : Part} {s t u : State} (h : p.same s t) (k : p.same t u) : p.same s u := by
  cases p <;> exact Eq.trans k h

theorem OnlyWrites.mono {ps qs : List Part} {s t : State} (h : OnlyWrites ps s t) (hsub : ps ⊆ qs) : OnlyWrites qs s t :=
  ⟨h.1, fun p hp => h.2 p fun hps => hp (hsub hps)⟩

/-- What two steps write is what either of them writes. -/
theorem OnlyWrites.trans {ps qs : List Part} {s t u : State} (h : OnlyWrites ps s t) (k : OnlyWrites qs t u) :
    OnlyWrites (ps ++ qs) s u :=
  ⟨k.1.trans h.1, fun p hp =>
    Part.same_trans (h.2 p fun hps => hp (List.mem_append_left _ hps)) (k.2 p fun hqs => hp (List.mem_append_right _ hqs))⟩

theorem onlyWrites_advance (s : State) (dt : Nat) : OnlyWrites [.time] s (s.advance dt) :=
  ⟨advance_pending s dt, fun p hp => by cases p <;> simp_all [Part.same]⟩

theorem onlyWrites_straps (s : State) (st : Straps) : OnlyWrites [.straps] s { s with straps := st } :=
  ⟨rfl, fun p hp => by cases p <;> simp_all [Part.same]⟩

theorem onlyWrites_writeStraps (s : State) (reason invalid drift : Nat) :
    OnlyWrites [.cw, .way] s (s.writeStraps reason invalid drift) :=
  ⟨(State.writeStraps_keeps s reason invalid drift).1, fun p hp => by cases p <;> simp_all [Part.same]⟩

/-- A reading of the straps after dt: the clocks move and the straps take what was read. -/
theorem onlyWrites_advance_straps (s : State) (dt : Nat) (st : Straps) :
    OnlyWrites [.time, .straps] s { s.advance dt with straps := st } :=
  (onlyWrites_advance s dt).trans (onlyWrites_straps _ st)

@[simp] theorem advance_awake (s : State) (dt : Nat) : (s.advance dt).awake = s.awake := rfl

/-! ### STRAP_RESCAN -/

/-- The straps after a rescan: its codes are the result, its raw readings are shown for the reset-time set (R43). -/
def Straps.rescanned (st : Straps) (rs : List StrapReading) : Straps :=
  { st with
    rescan := resetStraps.map (scanCode rs)
    readings := (List.range 16).map fun n => if resetStraps.contains n then (nth rs n).raw else nth st.readings n }

@[simp] theorem Straps.rescanned_rescan (st : Straps) (rs : List StrapReading) :
    (st.rescanned rs).rescan = resetStraps.map (scanCode rs) := rfl

@[simp] theorem Straps.rescanned_codes (st : Straps) (rs : List StrapReading) : (st.rescanned rs).codes = st.codes := rfl

theorem doStrapRescan_of_same_result {dt : Nat} {rs : List StrapReading} {s : State} (hawake : s.awake = true)
    (hsame : resetStraps.map (scanCode rs) = s.straps.rescan) :
    doStrapRescan dt rs s = { s.advance dt with straps := s.straps.rescanned rs } := by
  simp [doStrapRescan, Straps.rescanned, hawake, hsame]

theorem doStrapRescan_of_new_result {dt : Nat} {rs : List StrapReading} {s : State} (hawake : s.awake = true)
    (hnew : resetStraps.map (scanCode rs) ≠ s.straps.rescan) :
    ∃ invalid drift, doStrapRescan dt rs s =
      State.writeStraps { s.advance dt with straps := s.straps.rescanned rs } 5 invalid drift := by
  simp only [doStrapRescan, Straps.rescanned, advance_awake, hawake, advance_straps, beq_iff_eq, hnew, if_true, if_false]
  exact ⟨_, _, rfl⟩

/-- Recorded or not, a rescan leaves its result in the straps and writes at most the record besides (R43). -/
theorem doStrapRescan_straps {dt : Nat} {rs : List StrapReading} {s : State} (hawake : s.awake = true) :
    (doStrapRescan dt rs s).straps = s.straps.rescanned rs ∧
      OnlyWrites [.time, .straps, .cw, .way] s (doStrapRescan dt rs s) := by
  have hread := onlyWrites_advance_straps s dt (s.straps.rescanned rs)
  by_cases hres : resetStraps.map (scanCode rs) = s.straps.rescan
  · rw [doStrapRescan_of_same_result hawake hres]
    exact ⟨rfl, hread.mono (List.subset_append_left _ _)⟩
  · obtain ⟨invalid, drift, heq⟩ := doStrapRescan_of_new_result (dt := dt) hawake hres
    rw [heq]
    exact ⟨by simp, hread.trans (onlyWrites_writeStraps _ 5 invalid drift)⟩

theorem exec_strapRescan {dt : Nat} {rs : List StrapReading} {s : State} (hlen : rs.length = 16) :
    exec (.strapRescan dt rs) s = .next (doStrapRescan dt rs s) :=
  if_pos hlen

/-! ### LIVE_STRAP_READ -/

theorem exec_liveStrapRead {dt : Nat} {r12 r13 r14 : StrapReading} {s : State} (hawake : s.awake = true) :
    exec (.liveStrapRead dt r12 r13 r14) s = .next { s.advance dt with straps := s.straps.live r12 r13 r14 } :=
  congrArg Host.Outcome.next (if_pos hawake)

theorem Straps.live_codes (st : Straps) (r12 r13 r14 : StrapReading) : (st.live r12 r13 r14).codes = st.codes := by
  unfold Straps.live
  split
  · dsimp only
    split <;> rfl
  · rfl

theorem Straps.live_livePend_of_third {st : Straps} {r12 r13 r14 : StrapReading} {a b c : Nat}
    (ha : strapCode r12 = some a) (hb : strapCode r13 = some b) (hc : strapCode r14 = some c)
    (hvalid : strapReserved 12 a = false) (hdiff : [a, b, c] ≠ st.triple) (hrun : st.liveRun = some ([a, b, c], 2)) :
    (st.live r12 r13 r14).livePend = some [a, b, c] := by
  have hdiff' : ([a, b, c] == [nth st.codes 12, nth st.codes 13, nth st.codes 14]) = false :=
    beq_eq_false_iff_ne.mpr hdiff
  simp only [Straps.live, Straps.triple, ha, hb, hc, hvalid, hdiff', hrun, Bool.or_self, Bool.false_eq_true, if_false,
    BEq.rfl, if_true, Nat.reduceAdd, Nat.le_refl]

/-- An invalid reading of STRAP12 ends the run and leaves a triple that waits to be committed waiting (R45). -/
theorem Straps.live_of_invalid (st : Straps) {r12 : StrapReading} (r13 r14 : StrapReading) (hinv : strapCode r12 = none) :
    (st.live r12 r13 r14).liveRun = none ∧ (st.live r12 r13 r14).livePend = st.livePend := by
  simp [Straps.live, hinv]

/-! ### SUPPLY_TRIP and SUPPLY_CLEAR -/

theorem exec_supplyTrip {mv below : Nat} {s : State} (hacc : s.straps.accepted = true) (hlow : mv < s.supplyThreshold)
    (hlong : 10000000 ≤ below) :
    exec (.supplyTrip mv below) s = .next { s with straps := { s.straps with tripped := true } } :=
  congrArg Host.Outcome.next (if_pos (by simp [hacc, hlow, hlong]))

theorem exec_supplyClear {mv above : Nat} {s : State} (hacc : s.straps.accepted = true)
    (hhigh : s.supplyThreshold + 150 < mv) (hlong : 1000000000 ≤ above) :
    exec (.supplyClear mv above) s = .next { s with straps := { s.straps with tripped := false } } :=
  congrArg Host.Outcome.next (if_pos (by simp [hacc, hhigh, hlong]))

/-! ### The statement -/

/-- Settles O13: each clause reads off the state that its command answers, with the frame composed from its writes. -/
theorem strapsReread : Obligations.StrapsReread := by
  unfold Obligations.StrapsReread
  refine ⟨?rescan, ?third, ?invalid, ?trip, ?clear⟩
  case rescan =>
    intro dt rs s hlen hawake
    obtain ⟨hstraps, hframe⟩ := doStrapRescan_straps (dt := dt) (rs := rs) hawake
    refine ⟨_, exec_strapRescan hlen, by simp [hstraps], by simp [hstraps], fun hsame => ?_, hframe⟩
    rw [doStrapRescan_of_same_result hawake hsame]
    exact onlyWrites_advance_straps s dt _
  case third =>
    intro dt r12 r13 r14 a b c s hawake ha hb hc hvalid hdiff hrun
    exact ⟨_, exec_liveStrapRead hawake, Straps.live_livePend_of_third ha hb hc hvalid hdiff hrun,
      Straps.live_codes s.straps r12 r13 r14, onlyWrites_advance_straps s dt _⟩
  case invalid =>
    intro dt r12 r13 r14 s hawake hinv
    obtain ⟨hrun, hpend⟩ := Straps.live_of_invalid s.straps r13 r14 hinv
    exact ⟨_, exec_liveStrapRead hawake, hrun, hpend, onlyWrites_advance_straps s dt _⟩
  case trip =>
    intro mv below s hacc hlow hlong
    exact ⟨_, exec_supplyTrip hacc hlow hlong, rfl, onlyWrites_straps s _⟩
  case clear =>
    intro mv above s hacc hhigh hlong
    exact ⟨_, exec_supplyClear hacc hhigh hlong, rfl, onlyWrites_straps s _⟩

end Sys2Proof.Machine
end

section
/-! PROOFS. The pin engines: the conditions of JMP with the counters that a loop runs down, and PC after an instruction that
does not transfer control (19_pin_engines.md R487–R489). -/

namespace Sys2Proof.Machine

/-! ### The conditions of JMP (R489) -/

/-- A condition of JMP counts a register down: it transfers control, and the register loses 1, where it is not 0. -/
def CountsDown (p : Pin) (en : PinEng) (cond : Nat) (reg : Word → PinSt) : Prop :=
  ∀ c, jmpTaken p en (reg c) cond = if c = 0 then (false, reg c) else (true, reg (c - 1))

theorem countsDown_c0 (p : Pin) (en : PinEng) (st : PinSt) : CountsDown p en 1 fun c => { st with c0 := c } := fun _ => rfl

theorem countsDown_c1 (p : Pin) (en : PinEng) (st : PinSt) : CountsDown p en 2 fun c => { st with c1 := c } := fun _ => rfl

section
variable {p : Pin} {en : PinEng} {cond : Nat} {reg : Word → PinSt}

theorem CountsDown.taken (h : CountsDown p en cond reg) {c : Word} (hc : c ≠ 0) :
    jmpTaken p en (reg c) cond = (true, reg (c - 1)) := (h c).trans (if_neg hc)

theorem CountsDown.fallsThrough (h : CountsDown p en cond reg) {c : Word} (hc : c = 0) :
    jmpTaken p en (reg c) cond = (false, reg c) := (h c).trans (if_pos hc)

/-- As long as the register is not run out, each pass takes 1 from it. -/
theorem CountsDown.passes (h : CountsDown p en cond reg) :
    ∀ (n : Nat) (c : Word), n ≤ c.toNat → jmpPasses p en cond n (reg c) = reg (c - BitVec.ofNat 32 n)
  | 0, c, _ => by simp [jmpPasses]
  | n + 1, c, hn => by
    have hc : c ≠ 0 := by rintro rfl; simp at hn
    have hrest : n ≤ (c - 1).toNat := by bv_omega
    have hsub : c - 1 - BitVec.ofNat 32 n = c - BitVec.ofNat 32 (n + 1) := by
      rw [BitVec.ofNat_add]; bv_omega
    rw [jmpPasses, h.taken hc, h.passes n (c - 1) hrest, hsub]

/-- Every pass before the register is run out goes back. -/
theorem CountsDown.goesBack (h : CountsDown p en cond reg) {n : Nat} {c : Word} (hn : n < c.toNat) :
    (jmpTaken p en (jmpPasses p en cond n (reg c)) cond).1 = true := by
  have hleft : c - BitVec.ofNat 32 n ≠ 0 := by bv_omega
  rw [h.passes n c (Nat.le_of_lt hn), h.taken hleft]

/-- A counter loaded with c is 0 after c passes. -/
theorem CountsDown.runsOut (h : CountsDown p en cond reg) (c : Word) : jmpPasses p en cond c.toNat (reg c) = reg 0 := by
  rw [h.passes c.toNat c (Nat.le_refl _), BitVec.ofNat_toNat, BitVec.setWidth_eq, BitVec.sub_self, BitVec.ofNat_eq_ofNat]

end

/-- A JMP that does not transfer control leaves every register as it was. -/
theorem jmpTaken_of_not_taken {p : Pin} {en : PinEng} {st : PinSt} {cond : Nat} (h : (jmpTaken p en st cond).1 = false) :
    (jmpTaken p en st cond).2 = st := by
  unfold jmpTaken at h ⊢
  split
  case h_2 | h_3 =>
    split
    · rfl
    · simp_all
  all_goals rfl

/-- Settles O20: both counters count down, and the other conditions read the pads, OSR and RXH. -/
theorem jmpConditions : Obligations.JmpConditions := by
  intro p en st
  have h0 := countsDown_c0 p en st
  have h1 := countsDown_c1 p en st
  exact ⟨rfl, h0.taken, h0.fallsThrough, h1.taken, h1.fallsThrough, rfl, rfl, rfl, rfl,
    fun _ => jmpTaken_of_not_taken,
    fun _ => h0.goesBack, h0.runsOut st.c0, congrArg Prod.fst (h0.fallsThrough rfl),
    fun _ => h1.goesBack, h1.runsOut st.c1, congrArg Prod.fst (h1.fallsThrough rfl)⟩

/-! ### One engine's registers and its PC -/

/-- PC of engine e, where the hub has it. -/
def State.pinPc (s : State) (e : Nat) : Option Nat := s.pin.eng[e]?.map (·.pc)

@[simp] theorem State.onPin_engine (s : State) (e : Nat) (f : PinSt → PinSt) :
    (s.onPin e f).pin.eng[e]? = s.pin.eng[e]?.map f := List.getElem?_modify_eq f e s.pin.eng

theorem State.onPin_pinPc {s : State} {e pc : Nat} {f : PinSt → PinSt} (h : s.pinPc e = some pc)
    (hf : ∀ st, (f st).pc = st.pc) : (s.onPin e f).pinPc e = some pc := by
  simpa [State.pinPc, Function.comp_def, hf] using h

/-- PC lies in the engines, not in the pads. -/
theorem State.pinPc_congr {s t : State} {e pc : Nat} (h : s.pinPc e = some pc) (heng : t.pin.eng = s.pin.eng) :
    t.pinPc e = some pc := by
  rwa [State.pinPc, heng]

/-- A completed instruction moves PC from where it was fetched, as R487 says. -/
theorem State.stepPin_pinPc {s : State} {e pc : Nat} (en : PinEng) (h : s.pinPc e = some pc) :
    (s.stepPin e en).pinPc e = some (nextPc en pc) := by
  obtain ⟨st, hst, rfl⟩ := Option.map_eq_some_iff.mp h
  rw [State.pinPc, State.stepPin, State.onPin_engine, hst, Option.map_some, Option.map_some]

theorem State.nth_eng_pc {s : State} {e pc : Nat} (h : s.pinPc e = some pc) : (nth s.pin.eng e).pc = pc := by
  obtain ⟨st, hst, hpc⟩ := Option.map_eq_some_iff.mp h
  rw [nth, List.getD_eq_getElem?_getD, hst, Option.getD_some, hpc]

/-- Time that passes changes neither an engine nor its program. -/
@[simp] theorem State.fetchPin_advance (s : State) (dt e op : Nat) : (s.advance dt).fetchPin e op = s.fetchPin e op := rfl

/-- What an engine fetches belongs to its registers. -/
theorem State.engine_of_fetchPin {s : State} {e op w : Nat} {en : PinEng} {st : PinSt}
    (h : s.fetchPin e op = some (en, st, w)) : s.pin.eng[e]? = some st := by
  unfold State.fetchPin at h
  split at h
  case h_1 en' st' _ hst =>
    obtain ⟨-, hfetched⟩ := Option.ite_none_right_eq_some.mp h
    cases hfetched
    exact hst
  case h_2 => cases h

theorem State.pinPc_of_fetchPin {s : State} {e op w : Nat} {en : PinEng} {st : PinSt}
    (h : s.fetchPin e op = some (en, st, w)) : s.pinPc e = some st.pc := by
  rw [State.pinPc, State.engine_of_fetchPin h, Option.map_some]

/-! ### PC after each instruction (R487) -/

section
variable {s : State} {e w : Nat} {en : PinEng} {st : PinSt}

theorem doPinSet_pinPc (h : s.fetchPin e 1 = some (en, st, w)) : (doPinSet e s).pinPc e = some (nextPc en st.pc) := by
  have hpc := State.pinPc_of_fetchPin h
  simp only [doPinSet, h]
  refine State.stepPin_pinPc en ?_
  split
  case h_3 | h_4 => exact State.onPin_pinPc hpc fun _ => rfl
  all_goals exact State.pinPc_congr hpc rfl

theorem doPinOut_pinPc (h : s.fetchPin e 2 = some (en, st, w)) : (doPinOut e s).pinPc e = some (nextPc en st.pc) := by
  have hpc := State.pinPc_of_fetchPin h
  simp only [doPinOut, h]
  refine State.stepPin_pinPc en (State.onPin_pinPc ?_ fun _ => rfl)
  split
  case h_3 | h_4 => exact State.onPin_pinPc hpc fun _ => rfl
  all_goals exact State.pinPc_congr hpc rfl

theorem doPinIn_pinPc (h : s.fetchPin e 3 = some (en, st, w)) : (doPinIn e s).pinPc e = some (nextPc en st.pc) := by
  simp only [doPinIn, h]
  exact State.stepPin_pinPc en (State.onPin_pinPc (State.pinPc_of_fetchPin h) fun _ => rfl)

theorem doPinPull_pinPc (h : s.fetchPin e 4 = some (en, st, w)) (hfull : st.txh ≠ none) :
    (doPinPull e s).pinPc e = some (nextPc en st.pc) := by
  obtain ⟨x, hx⟩ := Option.ne_none_iff_exists'.mp hfull
  simp only [doPinPull, h, hx]
  exact State.stepPin_pinPc en (State.onPin_pinPc (State.pinPc_of_fetchPin h) fun _ => rfl)

theorem doPinPush_pinPc (h : s.fetchPin e 5 = some (en, st, w)) (hempty : st.rxh = none) :
    (doPinPush e s).pinPc e = some (nextPc en st.pc) := by
  simp only [doPinPush, h, hempty]
  exact State.stepPin_pinPc en (State.onPin_pinPc (State.pinPc_of_fetchPin h) fun _ => rfl)

theorem doPinWait_pinPc_of_pad {dt : Nat} (h : s.fetchPin e 6 = some (en, st, w)) (hkind : sfld w 11 10 = 0)
    (hpad : s.pin.pad (sfld w 8 5) = bitOf w 9) : (doPinWait dt e s).pinPc e = some (nextPc en st.pc) := by
  rw [← State.fetchPin_advance s dt] at h
  simp only [doPinWait, h, hkind, advance_pin, hpad, BEq.rfl, if_true]
  exact State.stepPin_pinPc en (State.pinPc_of_fetchPin h)

theorem doPinWait_pinPc_of_flag {dt : Nat} (h : s.fetchPin e 6 = some (en, st, w)) (hkind : sfld w 11 10 = 1)
    (hflag : s.pin.flags.getLsbD (sfld w 8 5) = bitOf w 9) : (doPinWait dt e s).pinPc e = some (nextPc en st.pc) := by
  rw [← State.fetchPin_advance s dt] at h
  simp only [doPinWait, h, hkind, advance_pin, hflag, BEq.rfl, if_true]
  exact State.stepPin_pinPc en (State.pinPc_of_fetchPin h)

theorem doPinWait_pinPc_of_grid {dt m : Nat} (h : s.fetchPin e 6 = some (en, st, w)) (hkind : 2 ≤ sfld w 11 10)
    (hgrid : st.gridAt = some m) (hpast : (s.advance dt).pastCommon m = true) :
    (doPinWait dt e s).pinPc e = some (nextPc en st.pc) := by
  have hnotPad : sfld w 11 10 ≠ 0 := by omega
  have hnotFlag : sfld w 11 10 ≠ 1 := by omega
  rw [← State.fetchPin_advance s dt] at h
  simp only [doPinWait, h, hgrid, hpast, if_true]
  exact State.stepPin_pinPc en (State.onPin_pinPc (State.pinPc_of_fetchPin h) fun _ => rfl)

theorem doPinJmp_pinPc (h : s.fetchPin e 7 = some (en, st, w)) (hnot : (jmpTaken s.pin en st (sfld w 11 9)).1 = false) :
    (doPinJmp e s).pinPc e = some (nextPc en st.pc) := by
  simp only [doPinJmp, h, hnot, jmpTaken_of_not_taken hnot, Bool.false_eq_true, if_false]
  refine State.stepPin_pinPc en ?_
  rw [State.pinPc, State.onPin_engine, State.engine_of_fetchPin h, Option.map_some, Option.map_some]

theorem doPinMov_pinPc (h : s.fetchPin e 8 = some (en, st, w)) : (doPinMov e s).pinPc e = some (nextPc en st.pc) := by
  have hpc := State.pinPc_of_fetchPin h
  simp only [doPinMov, h]
  refine State.stepPin_pinPc en ?_
  split
  case h_2 | h_3 | h_4 | h_5 => exact State.onPin_pinPc hpc fun _ => rfl
  all_goals exact State.pinPc_congr hpc rfl

theorem doPinFlag_pinPc {dt : Nat} (h : s.fetchPin e 9 = some (en, st, w)) :
    (doPinFlag dt e s).pinPc e = some (nextPc en st.pc) := by
  rw [← State.fetchPin_advance s dt] at h
  simp only [doPinFlag, h]
  exact State.stepPin_pinPc en (State.pinPc_of_fetchPin h)

theorem doPinStamp_pinPc {dt : Nat} (h : s.fetchPin e 10 = some (en, st, w)) (hempty : st.rxh = none) :
    (doPinStamp dt e s).pinPc e = some (nextPc en st.pc) := by
  rw [← State.fetchPin_advance s dt] at h
  simp only [doPinStamp, h, hempty]
  exact State.stepPin_pinPc en (State.onPin_pinPc (State.pinPc_of_fetchPin h) fun _ => rfl)

end

/-- Settles O21: each command runs its instruction, which ends in the step of PC. -/
theorem pinCounterWraps : Obligations.PinCounterWraps := by
  intro e dt s en st w next
  refine ⟨fun h => ⟨_, rfl, State.nth_eng_pc (doPinSet_pinPc h)⟩, fun h => ⟨_, rfl, State.nth_eng_pc (doPinOut_pinPc h)⟩,
    fun h => ⟨_, rfl, State.nth_eng_pc (doPinIn_pinPc h)⟩,
    fun h hfull => ⟨_, rfl, State.nth_eng_pc (doPinPull_pinPc h hfull)⟩,
    fun h hempty => ⟨_, rfl, State.nth_eng_pc (doPinPush_pinPc h hempty)⟩, fun h hstands => ⟨_, rfl, State.nth_eng_pc ?wait⟩,
    fun h hnot => ⟨_, rfl, State.nth_eng_pc (doPinJmp_pinPc h hnot)⟩,
    fun h => ⟨_, rfl, State.nth_eng_pc (doPinMov_pinPc h)⟩, fun h => ⟨_, rfl, State.nth_eng_pc (doPinFlag_pinPc h)⟩,
    fun h hempty => ⟨_, rfl, State.nth_eng_pc (doPinStamp_pinPc h hempty)⟩⟩
  case wait =>
    obtain ⟨hkind, hpad⟩ | ⟨hkind, hflag⟩ | ⟨hkind, m, hgrid, hpast⟩ := hstands
    · exact doPinWait_pinPc_of_pad h hkind hpad
    · exact doPinWait_pinPc_of_flag h hkind hflag
    · exact doPinWait_pinPc_of_grid h hkind hgrid hpast

end Sys2Proof.Machine
end

section
/-! PROOFS. The whole machine: what every command answers, and what no command changes of the queue, the fuses, the image and the
mode in force and TB-G's rate correction. -/

namespace Sys2Proof.Machine

/-! ### What a command answers -/

/-- The state that each command leads to where it is well formed. -/
def effect (c : Instr) (s : State) : State :=
  match c with
  | .resetRelease dt why => doResetRelease dt why s
  | .resetAssert lowNs => doResetAssert lowNs s
  | .railBrownout r mv belowNs => doRailBrownout r mv belowNs s
  | .clk25Stop stoppedNs => doClk25Stop stoppedNs s
  | .startUp clkRanNs slacks => doStartUp clkRanNs slacks s
  | .memoryDieInitDone failing => doMemoryDieInitDone failing s
  | .rngHealthTest pass => doRngHealthTest pass s
  | .strapScan dt rs => doStrapScan dt rs s
  | .strapHold dt rs => doStrapHold dt rs s
  | .mode0Burst dt => doMode0Burst dt s
  | .strapRescan dt rs => doStrapRescan dt rs s
  | .liveStrapRead dt r12 r13 r14 => doLiveStrapRead dt r12 r13 r14 s
  | .supplyTrip mv belowNs => doSupplyTrip mv belowNs s
  | .supplyClear mv aboveNs => doSupplyClear mv aboveNs s
  | .busRelease dt => doBusRelease dt s
  | .imgrelRise dt => doImgrelRise dt s
  | .loadAttempt dt src dev => doLoadAttempt dt src.val dev s
  | .imageHoldRetry dt => doImageHoldRetry dt s
  | .islandReady island ok => doIslandReady island.val ok s
  | .reloadImage c => doReloadImage c.val s
  | .gridMark chk => doGridMark chk s
  | .laybyEntryDone dt chk => doLaybyEntryDone dt chk s
  | .reportPeriod => doReportPeriod s
  | .inertialInstant triads => doInertialInstant triads s
  | .triadFault src code => doTriadFault src.val code s
  | .triadFaultClear dt src => doTriadFaultClear dt src.val s
  | .triadSettled dt src => doTriadSettled dt src.val s
  | .feBlankAssert dt => doFeBlankAssert dt s
  | .feBlankRelease dt => doFeBlankRelease dt s
  | .blankGuardEnd dt => doBlankGuardEnd dt s
  | .strapdownSample => doStrapdownSample s
  | .calBlockEnd dt ch => doCalBlockEnd ch.val (s.advance dt)
  | .calUpdate ch => doCalUpdate ch.val s
  | .recordPeriodEnd => doRecordPeriodEnd s
  | .waveRecordWrite => doWaveRecordWrite s
  | .heaveStats => doHeaveStats s
  | .feCalStepDue dt ch gain => doFeCalStepDue dt ch.val gain s
  | .calRestore c => doCalRestore c.val s
  | .calRestoreTimeout dt => doCalRestoreTimeout dt s
  | .slam => doSlam s
  | .crest => doCrest s
  | .drop => doDrop s
  | .capsize => doCapsize s
  | .tilt => doTilt s
  | .drift => doDrift s
  | .eventPass => doEventPass s
  | .feConversionStart dt ch kind => doFeConversionStart dt ch.val kind s
  | .feConversionEnd dt ch r => doFeConversionEnd dt ch.val r s
  | .feTrigEdge dt => doFeTrigEdge dt s
  | .complianceTrip dt ch => doComplianceTrip dt ch.val s
  | .clampEvent pin nanoamp => doClampEvent pin.val nanoamp s
  | .roadStart r => doRoadStart r.val s
  | .markLaunch r => doMarkLaunch r.val s
  | .slotFrame r pos rx => doSlotFrame r.val pos.val rx s
  | .echoFrame r rx => doEchoFrame r.val rx s
  | .enumReply r rx => doEnumReply r.val rx s
  | .ackFrame r before groups arrive after => doAckFrame r.val before { groups := groups, arrive := arrive } after s
  | .echoWindowEnd r => doEchoWindowEnd r.val s
  | .nodeLost r pos => doNodeLost r.val pos.val s
  | .delayCycleEnd r => doDelayCycleEnd r.val s
  | .packetOpen req => doPacketOpen req s
  | .packetClose tag => doPacketClose tag s
  | .rewindTakeEffect rd => doRewindTakeEffect rd.val s
  | .flushTakeEffect rd => doFlushTakeEffect rd.val s
  | .scrub findings => doScrub findings s
  | .reductionRelease job => doReductionRelease job.what job.findings s
  | .reductionComplete job => doReductionComplete job s
  | .spillPageCommit stream => doSpillPageCommit stream.what.val stream.findings s
  | .spillDeviceFail dev cause => doSpillDeviceFail dev.val cause.val s
  | .spillRollup => doSpillRollup s
  | .spillDiscoveryDone devs journal => doSpillDiscoveryDone devs journal s
  | .ptpAnnounce domain m => doPtpAnnounce domain.dt domain.what m s
  | .ptpSync dt domain m => doPtpSync dt domain m s
  | .ptpFollowUp dt domain m => doPtpFollowUp dt domain m s
  | .ptpDelayReq dt domain => doPtpDelayReq dt domain.val s
  | .ptpDelayResp src seq receiveTime correction logInterval =>
    doPtpDelayResp src.port src.domain src.sender seq receiveTime correction logInterval s
  | .announceReceiptTimeout dt domain => doAnnounceReceiptTimeout dt domain s
  | .syncTimeout dt domain => doSyncTimeout dt domain s
  | .ppsEdge dt rising widthNs => doPpsEdge dt rising widthNs s
  | .ppsTimeout dt => doPpsTimeout dt s
  | .scheduledActionDue dt index chk => doScheduledActionDue dt index chk.what chk.findings s
  | .linkUp port partner => doLinkUp port.dt port.what.val partner s
  | .linkDown port => doLinkDown port.val s
  | .frameReceive dt port f => doFrameReceive dt port.val f s
  | .macAgeOut dt index => doMacAgeOut dt index s
  | .arpReceive port f => doArpReceive port.val f s
  | .arpRetry dt c => doArpRetry dt c.val s
  | .arpRefresh dt c => doArpRefresh dt c.val s
  | .icmpEcho dt port f => doIcmpEcho dt port.val f s
  | .controlDatagram port f => doControlDatagram port.val f s
  | .streamDatagram dt c findings => doStreamDatagram dt c.val findings s
  | .heartbeat dt c => doHeartbeat dt c.val s
  | .hselFall dt findings => doHselFall dt findings s
  | .hselRise dt edges hsdi => doHselRise dt edges hsdi s
  | .twRead dt addr bytesRead ending findings => doTwRead dt addr bytesRead ending findings s
  | .twWrite dt addr bytes ending => doTwWrite dt addr bytes ending s
  | .twStretchEnd dt => doTwStretchEnd dt s
  | .twRepeatedStart => doTwRepeatedStart s
  | .twBusTimeout dt => doTwBusTimeout dt s
  | .fragmentTimeout dt c => doFragmentTimeout dt (4 + c.val) s
  | .attentionCall dt out => doAttentionCall dt out s
  | .attnRetry dt out => doAttnRetry dt out s
  | .twWakeMatch dt addr _ chk => doTwWakeMatch dt addr chk s
  | .wakePadRise dt highNs chk => doWakePadRise dt highNs chk s
  | .wakePadFall dt => doWakePadFall dt s
  | .dropComparator dt chk => doDropComparator dt chk s
  | .capsizeComparator dt chk => doCapsizeComparator dt chk s
  | .holdExpiry dt => doHoldExpiry dt s
  | .messageAccept c => doMessageAccept c.val s
  | .where_ c => doWhere c.val s
  | .ack c => doAck c.val s
  | .rewind c => doRewind c.val s
  | .flush c => doFlush c.val s
  | .vote c => doVote c.val s
  | .lockDecision => doLockDecision s
  | .lockLeaseEnd dt lock => doLockLeaseEnd dt lock.val s
  | .calRead c => doCalRead c.val s
  | .identity c => doIdentity c.val s
  | .marginRead c => doMarginRead c.val s
  | .serviceWindow c => doServiceWindow c.val s
  | .serviceWindowEnd dt => doServiceWindowEnd dt s
  | .ppsLabel c => doPpsLabel c.val s
  | .launch c => doLaunch c.what.val c.findings s
  | .pinSet e => doPinSet e.val s
  | .pinOut e => doPinOut e.val s
  | .pinIn e => doPinIn e.val s
  | .pinPull e => doPinPull e.val s
  | .pinPush e => doPinPush e.val s
  | .pinWait dt e => doPinWait dt e.val s
  | .pinJmp e => doPinJmp e.val s
  | .pinMov e => doPinMov e.val s
  | .pinFlag e => doPinFlag e.dt e.what.val s
  | .pinStamp dt e => doPinStamp dt e.val s
  | .reservedOpHalt e => doReservedOpHalt e.val s
  | .txhFill e => doTxhFill e.val s
  | .rxhDrain e => doRxhDrain e.val s
  | .rxIdleClose e => doRxIdleClose e.val s
  | .slackMeasurement slacks => doSlackMeasurement slacks s
  | .retentionTest tret => doRetentionTest tret s
  | .memsResonanceTest src resPpm qTenths => doMemsResonanceTest src.val resPpm qTenths s
  | .lifeHour meanCaseC dieMaxC => doLifeHour meanCaseC dieMaxC s
  | .diagAddr value => doDiagAddr value s
  | .diagData => doDiagData s
  | .bypass => doBypass s
  | .egressPortFree port => doEgressPortFree port.dt port.what.val s
  | .islandRunning dt island => doIslandRunning dt island.val s
  | .padLevelChange pad high => doPadLevelChange pad.val high s
  | .spillPageReadback dev symbols eraseSlow eraseTime eraseCount =>
    doSpillPageReadback dev.val symbols eraseSlow eraseTime eraseCount s

theorem exec_of_wf {c : Instr} (h : c.wf = true) (s : State) : exec c s = .next (effect c s) := by
  cases c
  case startUp | strapScan | strapHold | strapRescan | inertialInstant | slackMeasurement | retentionTest =>
    exact if_pos (beq_iff_eq.mp h)
  case memoryDieInitDone => exact if_pos h
  case spillDeviceFail =>
    exact if_pos (by simpa [Instr.wf] using h)
  all_goals rfl

theorem exec_of_not_wf {c : Instr} (h : c.wf = false) (s : State) : exec c s = .fault .illFormed := by
  cases c
  case startUp | strapScan | strapHold | strapRescan | inertialInstant | slackMeasurement | retentionTest =>
    exact if_neg (beq_eq_false_iff_ne.mp h)
  case memoryDieInitDone => exact if_neg (by simpa [Instr.wf] using h)
  case spillDeviceFail => exact if_neg (by simpa [Instr.wf] using h)
  all_goals cases h

/-- What a command answers, it answers by its effect. -/
theorem eq_effect_of_exec {c : Instr} {s t : State} (h : exec c s = .next t) : t = effect c s := by
  cases hwf : c.wf
  · rw [exec_of_not_wf hwf] at h; cases h
  · rw [exec_of_wf hwf] at h; cases h; rfl

/-- Settles O1: the front of the queue is what a step takes. -/
theorem stepRunsFront : Obligations.StepRunsFront := fun _ _ => rfl

/-- Settles O3: whether a command completes is whether it is well formed. -/
theorem wellFormedCompletes : Obligations.WellFormedCompletes :=
  fun _ s => ⟨fun h => ⟨_, exec_of_wf h s⟩, fun h => exec_of_not_wf h s⟩

/-! ### The queue -/

theorem effect_pending (c : Instr) (s : State) : (effect c s).pending = s.pending := by
  cases c <;> simp [effect]

/-- Settles O2: no effect touches the queue. -/
theorem queueKept : Obligations.QueueKept := by
  refine ⟨fun s h => ?_, fun c s t h => ?_⟩
  · simp [step, h]
  · rw [eq_effect_of_exec h, effect_pending]

/-! ### The fuses (R67, R87, R475) -/

theorem Fuses.stay_refl (f : Fuses) : f.stay f := ⟨fun _ h => h, fun h => h, Nat.le_refl _⟩

/-- A count that is raised to a larger one only does not fall. -/
theorem le_raised {r n : Nat} {c : Prop} [Decidable (c ∧ r < n)] : r ≤ if c ∧ r < n then n else r := by
  split
  next h => exact Nat.le_of_lt h.2
  next => exact Nat.le_refl r

/-- A commit blows what the image asks for and no fuse that is blown already (R67, R87, R475). -/
theorem State.commitFuses_stay (s : State) (im : Image) (first : Bool) : s.fuses.stay (s.commitFuses im first).fuses := by
  simp only [State.commitFuses, ite_fuses]
  refine ⟨fun h hs => ?keys, fun hs => ?blown, ?rollback⟩
  case keys =>
    simp only [apply_ite Fuses.keyHash, ite_self]
    split <;> simp [hs]
  case blown => simp [apply_ite Fuses.sealBlown, hs]
  case rollback =>
    simp only [apply_ite Fuses.rollback, Bool.and_eq_true, decide_eq_true_eq]
    exact le_raised

theorem State.commitImage_stay (s : State) (l : Load) (im : Image) : s.fuses.stay (s.commitImage l im).fuses := by
  simpa [State.commitImage] using State.commitFuses_stay
    (((s.commitOld s.port.inForce im).putInForce im).commitIslands s.port.inForce im).commitPlan.1.setOccurrences im
    s.port.inForce.isNone

theorem State.firstCommit_stay (s : State) (l : Load) (im : Image) : s.fuses.stay (s.firstCommit l im).fuses := by
  simpa [State.firstCommit] using State.commitImage_stay { s with cw := { s.cw with preM0 := [] } } l im

theorem State.commitAtMark_stay (s : State) : s.fuses.stay s.commitAtMark.fuses := by
  unfold State.commitAtMark
  split
  · exact State.commitImage_stay s _ _
  · exact Fuses.stay_refl _

theorem State.markAwake_stay (s : State) (chk : PointerCheck) (before : Nat) :
    s.fuses.stay (s.markAwake chk before).fuses := by
  have h := State.commitAtMark_stay ((s.findings 1 noPacket chk.found).calAtMark before).changeover
  simp only [State.changeover_keeps, State.calAtMark_keeps, State.findings_keeps] at h
  unfold State.markAwake
  dsimp only
  split <;> simpa using h

theorem State.markStarting_stay (s : State) (chk : PointerCheck) : s.fuses.stay (s.markStarting chk).fuses := by
  unfold State.markStarting
  split
  · simpa using State.firstCommit_stay s _ _
  · split <;> simp [Fuses.stay_refl]

/-- A grid mark does nothing without its clock; otherwise TB-G comes to the mark, and the rest follows the phase (R371, R510,
R516, R523). -/
theorem doGridMark_cases (chk : PointerCheck) (s : State) :
    doGridMark chk s = s ∨ ∃ u, u = { s with time := s.time.atMark }.afterStep ∧
      (doGridMark chk s = u.markAwake chk s.mark ∨ doGridMark chk s = u.tbgAtMark ∨
        doGridMark chk s = u.markStarting chk ∨ doGridMark chk s = u) := by
  unfold doGridMark
  split
  · refine .inr ⟨_, rfl, ?_⟩
    dsimp only
    split
    · split
      · exact .inl rfl
      · exact .inr (.inl rfl)
    · exact .inr (.inr (.inl rfl))
    · exact .inr (.inr (.inr rfl))
  · exact .inl rfl

theorem doGridMark_stay (chk : PointerCheck) (s : State) : s.fuses.stay (doGridMark chk s).fuses := by
  obtain heq | ⟨u, hu, heq⟩ := doGridMark_cases chk s
  · rw [heq]; exact Fuses.stay_refl _
  · have hfuses : u.fuses = s.fuses := by rw [hu]; simp
    rw [← hfuses]
    obtain heq | heq | heq | heq := heq <;> rw [heq]
    · exact State.markAwake_stay u chk _
    · simp [Fuses.stay_refl]
    · exact State.markStarting_stay u chk
    · exact Fuses.stay_refl _

/-- Settles O4: only a grid mark writes fuses, at a commit, and it blows without unblowing. -/
theorem fusesStay : Obligations.FusesStay := by
  intro c s t h
  rw [eq_effect_of_exec h]
  cases c
  case gridMark chk => exact doGridMark_stay chk s
  all_goals simp [effect, Fuses.stay_refl]

/-! ### The image and the mode in force -/

/-- Settles O5: of the commands that remain none writes the image in force. -/
theorem imageChangesAtMarks : Obligations.ImageChangesAtMarks := by
  intro c s t h hmark hassert hrail hclk
  rw [eq_effect_of_exec h]
  cases c
  case gridMark chk => exact absurd rfl (hmark chk)
  case resetAssert n => exact absurd rfl (hassert n)
  case railBrownout r mv n => exact absurd rfl (hrail r mv n)
  case clk25Stop n => exact absurd rfl (hclk n)
  all_goals simp [effect]

/-- Settles O6: of the commands that remain none writes the mode in force. -/
theorem modeChangesAtMarks : Obligations.ModeChangesAtMarks := by
  intro c s t h hmark hisland hassert hrail hclk
  rw [eq_effect_of_exec h]
  cases c
  case gridMark chk => exact absurd rfl (hmark chk)
  case islandRunning dt i => exact absurd rfl (hisland dt i)
  case resetAssert n => exact absurd rfl (hassert n)
  case railBrownout r mv n => exact absurd rfl (hrail r mv n)
  case clk25Stop n => exact absurd rfl (hclk n)
  all_goals simp [effect]

/-! ### The rate correction of TB-G (R371, R373, R378) -/

theorem Time.rateOk_of_eq {t u : Time} (h : t.rateOk) (hrate : u.gRate = t.gRate) (hrates : u.rates = t.rates) : u.rateOk := by
  simpa [Time.rateOk, hrate, hrates] using h

/-- R373: the slew law is clamped to 1 ppm. -/
theorem slewed_bounds (rate offset : Int) : -1000000 ≤ slewed rate offset ∧ slewed rate offset ≤ 1000000 := by
  unfold slewed
  dsimp only
  omega

/-- The rounded mean of n numbers within b of 0 is within b of 0. -/
theorem roundDiv_bounds {x b : Int} {n : Nat} (hn : 0 < n) (hlo : -(b * n) ≤ x) (hhi : x ≤ b * n) :
    -b ≤ roundDiv x n ∧ roundDiv x n ≤ b := by
  have hn' : (0 : Int) < n := by exact_mod_cast hn
  have hprod : 0 ≤ b * n := by omega
  have hb : 0 ≤ b := Int.not_lt.mp fun hneg => Int.not_lt.mpr hprod (Int.mul_neg_of_neg_of_pos hneg hn')
  have hsucc : (b + 1) * (2 * n) = 2 * (b * n) + 2 * n := by rw [Int.add_mul, Int.one_mul, Int.mul_left_comm]
  have hquot {y : Int} (hy : 0 ≤ y) (hyb : y ≤ b * n) : 0 ≤ (2 * y + n) / (2 * n) ∧ (2 * y + n) / (2 * n) ≤ b :=
    ⟨Int.ediv_nonneg (by omega) (by omega), Int.lt_add_one_iff.mp (Int.ediv_lt_of_lt_mul (by omega) (by rw [hsucc]; omega))⟩
  unfold roundDiv
  split
  next hx =>
    obtain ⟨h0, h1⟩ := hquot hx hhi
    omega
  next hx =>
    obtain ⟨h0, h1⟩ := hquot (y := -x) (by omega) (by omega)
    omega

theorem sum_bounds {b : Int} {l : List Int} (h : ∀ r ∈ l, -b ≤ r ∧ r ≤ b) : -(b * l.length) ≤ l.sum ∧ l.sum ≤ b * l.length := by
  induction l with
  | nil => simp
  | cons a l ih =>
    have ha := h a (List.mem_cons_self ..)
    have hl := ih fun r hr => h r (List.mem_cons_of_mem _ hr)
    simp only [List.sum_cons, List.length_cons, Int.natCast_succ, Int.mul_add, Int.mul_one]
    omega

/-- R378: a holdover's rate is a mean of corrections that were within the bounds. -/
theorem meanRate_bounds {l : List Int} (h : ∀ r ∈ l, -1000000 ≤ r ∧ r ≤ 1000000) :
    -1000000 ≤ meanRate l ∧ meanRate l ≤ 1000000 := by
  unfold meanRate
  cases l with
  | nil => simp
  | cons a l =>
    obtain ⟨hlo, hhi⟩ := sum_bounds (b := 1000000) h
    exact roundDiv_bounds (Nat.succ_pos _) hlo hhi

theorem mem_take_cons_bounds {a : Int} {l : List Int} {n : Nat} (ha : -1000000 ≤ a ∧ a ≤ 1000000)
    (hl : ∀ r ∈ l, -1000000 ≤ r ∧ r ≤ 1000000) : ∀ r ∈ (a :: l).take n, -1000000 ≤ r ∧ r ≤ 1000000 := by
  intro r hr
  obtain rfl | hr := List.mem_cons.mp (List.mem_of_mem_take hr)
  · exact ha
  · exact hl r hr

theorem Time.steer_rateOk {t : Time} (h : t.rateOk) (stepNs : Int) (g : GSrc) : (t.steer stepNs g).rateOk := by
  obtain ⟨hrate, hrates⟩ := h
  unfold Time.steer
  dsimp only
  split
  · exact ⟨hrate, mem_take_cons_bounds hrate hrates⟩
  · exact ⟨slewed_bounds _ _, mem_take_cons_bounds (slewed_bounds _ _) hrates⟩

theorem zero_bounds : (-1000000 : Int) ≤ 0 ∧ (0 : Int) ≤ 1000000 := by decide

theorem Time.discipline_rateOk {t : Time} (h : t.rateOk) (order : List GSrc) (stepNs : Int) :
    (t.discipline order stepNs).rateOk := by
  unfold Time.discipline
  dsimp only
  split
  · exact Time.steer_rateOk (by exact h) stepNs _
  · split
    · exact ⟨zero_bounds, h.2⟩
    · split
      · exact ⟨meanRate_bounds h.2, h.2⟩
      · exact h

theorem State.tbgAtMark_rateOk {s : State} (h : s.time.rateOk) : s.tbgAtMark.time.rateOk := by
  have hu := Time.discipline_rateOk (t := s.time.noteRates) h (gOrder (s.strap 5)) s.stepNs
  unfold State.tbgAtMark
  dsimp only
  split <;> refine Time.rateOk_of_eq hu ?_ ?_ <;> simp

/-- The end of a mark: TB-G is disciplined, and what waits is sent. -/
theorem State.markEnd_rateOk {s : State} (h : s.time.rateOk) : s.tbgAtMark.settle.pump.time.rateOk :=
  Time.rateOk_of_eq (State.tbgAtMark_rateOk h) (by simp) (by simp)

theorem State.markAwake_rateOk {s : State} (h : s.time.rateOk) (chk : PointerCheck) (before : Nat) :
    (s.markAwake chk before).time.rateOk := by
  unfold State.markAwake
  dsimp only
  split
  · exact State.markEnd_rateOk (Time.rateOk_of_eq h (by simp) (by simp))
  · exact State.tbgAtMark_rateOk (Time.rateOk_of_eq h (by simp) (by simp))

theorem State.markStarting_rateOk {s : State} (h : s.time.rateOk) (chk : PointerCheck) :
    (s.markStarting chk).time.rateOk := by
  unfold State.markStarting
  split
  · exact State.markEnd_rateOk (Time.rateOk_of_eq h (by simp) (by simp))
  · split
    · exact State.tbgAtMark_rateOk (Time.rateOk_of_eq h (by simp) (by simp))
    · exact h

theorem doGridMark_rateOk {s : State} (h : s.time.rateOk) (chk : PointerCheck) : (doGridMark chk s).time.rateOk := by
  obtain heq | ⟨u, hu, heq⟩ := doGridMark_cases chk s
  · rw [heq]; exact h
  · have hrate : u.time.rateOk :=
      Time.rateOk_of_eq h (by rw [hu]; simp [Time.atMark]) (by rw [hu]; simp [Time.atMark])
    obtain heq | heq | heq | heq := heq <;> rw [heq]
    · exact State.markAwake_rateOk hrate chk _
    · exact State.tbgAtMark_rateOk hrate
    · exact State.markStarting_rateOk hrate chk
    · exact hrate

/-- A measurement of a domain moves only that domain and the actions on it (R381, R391). -/
theorem State.measureN_rateOk {s : State} (h : s.time.rateOk) (x : Nat) (f : Ptp → Ptp) (ms : Int) :
    (s.measureN x f ms).time.rateOk := by
  unfold State.measureN
  dsimp only
  split
  · exact Time.rateOk_of_eq h (by simp [Time.passActs]) (by simp [Time.passActs])
  · exact Time.rateOk_of_eq h (by simp) (by simp)

theorem doPtpSync_rateOk {s : State} (h : s.time.rateOk) (dt : Nat) (x : Fin 2) (m : SyncMsg) :
    (doPtpSync dt x m s).time.rateOk := by
  have hadv : (s.advance dt).time.rateOk := Time.rateOk_of_eq h (by simp) (by simp)
  unfold doPtpSync
  dsimp only
  split
  · split
    · exact Time.rateOk_of_eq hadv (by simp) (by simp)
    · exact State.measureN_rateOk hadv _ _ _
  · exact hadv

theorem doPtpFollowUp_rateOk {s : State} (h : s.time.rateOk) (dt : Nat) (x : Fin 2) (m : SyncMsg) :
    (doPtpFollowUp dt x m s).time.rateOk := by
  have hadv : (s.advance dt).time.rateOk := Time.rateOk_of_eq h (by simp) (by simp)
  unfold doPtpFollowUp
  dsimp only
  split
  · split
    · split
      · exact State.measureN_rateOk hadv _ _ _
      · exact hadv
    · exact hadv
  · exact hadv

theorem Time.applied_rateOk (t : Time) : t.applied.rateOk :=
  ⟨zero_bounds, fun _ hr => by cases hr⟩

/-- TB-G goes on through a reset (R371). -/
theorem State.enterReset_rateOk {s : State} (h : s.time.rateOk) : s.enterReset.time.rateOk := by
  have hreset : s.hardReset.time.rateOk := Time.rateOk_of_eq h rfl rfl
  unfold State.enterReset
  dsimp only
  split <;> exact hreset

theorem doResetRelease_rateOk {s : State} (h : s.time.rateOk) (dt : Nat) (why : Release) :
    (doResetRelease dt why s).time.rateOk := by
  have hadv : (s.advance dt).time.rateOk := Time.rateOk_of_eq h (by simp) (by simp)
  unfold doResetRelease
  dsimp only
  split
  · split
    · exact hadv
    · exact Time.rateOk_of_eq hadv (by simp) (by simp)
  · split
    · simp only [State.leaveReset_keeps]
      split
      · exact Time.applied_rateOk _
      · exact hadv
    · exact hadv

theorem doResetAssert_rateOk {s : State} (h : s.time.rateOk) (low : Nat) : (doResetAssert low s).time.rateOk := by
  unfold doResetAssert
  dsimp only
  split
  · exact State.enterReset_rateOk h
  · split
    · exact h
    · split
      · exact State.enterReset_rateOk h
      · exact h

theorem doRailBrownout_rateOk {s : State} (h : s.time.rateOk) (r : Rail) (mv below : Nat) :
    (doRailBrownout r mv below s).time.rateOk := by
  unfold doRailBrownout
  dsimp only
  split
  · split
    · exact Time.applied_rateOk _
    · exact State.enterReset_rateOk h
  · exact h

theorem doClk25Stop_rateOk {s : State} (h : s.time.rateOk) (stopped : Nat) : (doClk25Stop stopped s).time.rateOk := by
  unfold doClk25Stop
  dsimp only
  split
  · simpa using State.enterReset_rateOk h
  · exact h

/-- Settles O7: a grid mark slews within the bounds or takes a mean of corrections within them, a power-on reset starts at 0,
and nothing else writes the correction. -/
theorem rateStays : Obligations.RateStays := by
  intro c s t h hexec
  rw [eq_effect_of_exec hexec]
  cases c
  case gridMark chk => exact doGridMark_rateOk h chk
  case resetRelease dt why => exact doResetRelease_rateOk h dt why
  case resetAssert low => exact doResetAssert_rateOk h low
  case railBrownout r mv below => exact doRailBrownout_rateOk h r mv below
  case clk25Stop stopped => exact doClk25Stop_rateOk h stopped
  case ptpSync dt x m => exact doPtpSync_rateOk h dt x m
  case ptpFollowUp dt x m => exact doPtpFollowUp_rateOk h dt x m
  all_goals exact Time.rateOk_of_eq h (by simp [effect]) (by simp [effect])

/-! ### The state after reset -/

theorem reset_rateOk : State.reset.time.rateOk := ⟨by decide, fun _ hr => by cases hr⟩

/-- Settles O8: the clocks start at their reset values. -/
theorem rateAtReset : Obligations.RateAtReset := ⟨rfl, reset_rateOk⟩

/-- Settles O9: each value is read off the reset state. -/
theorem resetState : Obligations.ResetState := by
  unfold Obligations.ResetState
  decide

end Sys2Proof.Machine
end

section
/-! PROOFS. What the proofs about single commands share: reading a list after it changed, and the packet that a write closes. -/

namespace Sys2Proof.Machine

/-! ### nth -/

section
variable {α : Type} [Inhabited α]

theorem nth_of_lt {l : List α} {i : Nat} (h : i < l.length) : nth l i = l[i] := by
  simp [nth, h]

theorem nth_of_le {l : List α} {i : Nat} (h : l.length ≤ i) : nth l i = default := by
  simp [nth, List.getD_eq_getElem?_getD, h]

theorem nth_of_getElem? {l : List α} {i : Nat} {a : α} (h : l[i]? = some a) : nth l i = a := by
  simp [nth, List.getD_eq_getElem?_getD, h]

theorem nth_modify_same {l : List α} {i : Nat} (h : i < l.length) (f : α → α) : nth (l.modify i f) i = f (nth l i) := by
  simp [nth, List.getD_eq_getElem?_getD, h]

theorem nth_modify_ne (l : List α) {i j : Nat} (h : j ≠ i) (f : α → α) : nth (l.modify i f) j = nth l j := by
  simp [nth, List.getD_eq_getElem?_getD, h.symm]

theorem nth_set_same {l : List α} {i : Nat} (h : i < l.length) (a : α) : nth (l.set i a) i = a := by
  simp [nth, List.getD_eq_getElem?_getD, h]

theorem nth_set_ne (l : List α) {i j : Nat} (h : j ≠ i) (a : α) : nth (l.set i a) j = nth l j := by
  simp [nth, List.getD_eq_getElem?_getD, h.symm]

theorem nth_mapIdx {β : Type} [Inhabited β] {l : List β} {i : Nat} (h : i < l.length) (f : Nat → β → α) :
    nth (l.mapIdx f) i = f i (nth l i) := by
  simp [nth, List.getD_eq_getElem?_getD, h]

theorem nth_map {β : Type} [Inhabited β] {l : List β} {i : Nat} (h : i < l.length) (f : β → α) :
    nth (l.map f) i = f (nth l i) := by
  simp [nth, List.getD_eq_getElem?_getD, h]

theorem nth_map_range {n i : Nat} (h : i < n) (f : Nat → α) : nth ((List.range n).map f) i = f i := by
  simp [nth, List.getD_eq_getElem?_getD, h]

end

/-! ### The packet that closed last (R308, R314) -/

@[simp] theorem Packet.flagged_tag (p : Packet) : p.flagged.tag = p.tag := rfl
@[simp] theorem Packet.flagged_words (p : Packet) : p.flagged.words = p.words := rfl
@[simp] theorem Packet.flagged_mark (p : Packet) : p.flagged.mark = p.mark := rfl

@[simp] theorem Causeway.toRing_closed (cw : Causeway) (p : Packet) : (cw.toRing p).closed = cw.closed := rfl
@[simp] theorem Causeway.peaks_closed (cw : Causeway) : cw.peaks.closed = cw.closed := rfl

/-- A packet that closes into the Causeway is the last one there, as the next global milepost. -/
theorem Causeway.closeIn_closed (cw : Causeway) (adm : Nat → Bool) (p : Packet) :
    (cw.closeIn adm p).closed =
      cw.closed ++ [{ p with gmp := cw.gmp + 1, mps := newMps adm cw.readers, inCw := true }] := by
  unfold Causeway.closeIn
  dsimp only
  split <;> rfl

theorem State.seats_of_full {s : State} (h : s.full = true) : s.seats = true := by
  simp [State.seats, h]

@[simp] theorem State.noteProd_seats (s : State) (p : Packet) : (s.noteProd p).seats = s.seats := by
  unfold State.noteProd
  split <;> rfl

/-- Where packets close into the Causeway, the packet written is the one that closed last. -/
theorem State.writePacket_last {s : State} (h : s.intoCauseway) (p : Packet) :
    ∃ q, (s.writePacket p).cw.closed.getLast? = some q ∧ q.tag = p.tag ∧ q.words = p.words ∧ q.mark = p.mark := by
  obtain ⟨hstoring, hfull⟩ := h
  simp only [State.writePacket, hstoring, if_true, State.noteProd_seats, State.seats_of_full hfull,
    Causeway.closeIn_closed, List.getLast?_concat]
  exact ⟨_, rfl, rfl, rfl, rfl⟩

theorem State.writePacket_closedLast {s : State} (h : s.intoCauseway) (p : Packet) :
    (s.writePacket p).closedLast p.tag p.words := by
  obtain ⟨q, hlast, htag, hwords, -⟩ := State.writePacket_last h p
  exact ⟨q, hlast, htag, hwords⟩

theorem State.writeRec_closedLast {s : State} (h : s.intoCauseway) (kind mark : Nat) (ws : List Word) :
    (s.writeRec kind mark ws).closedLast (recTag kind) ws :=
  State.writePacket_closedLast h _

theorem State.writeError_closedLast {s : State} (h : s.intoCauseway) (code unit : Nat) (d0 d1 : Word) (count : Nat) :
    (s.writeError code unit d0 d1 count).closedLast (recTag 7)
      [word (at_ code 24 + at_ unit 16), d0, d1, word (satN 32 count)] :=
  State.writePacket_closedLast h _

/-- Whether packets close into the Causeway follows from the power state alone. -/
theorem State.intoCauseway_of_power {s t : State} (h : s.intoCauseway) (hpower : t.power = s.power) : t.intoCauseway := by
  obtain ⟨hstoring, hfull⟩ := h
  constructor
  · simpa [State.storing, State.running, State.awake, State.full, State.inMode, hpower] using hstoring
  · simpa [State.full, State.inMode, hpower] using hfull

end Sys2Proof.Machine
end

section
/-! PROOFS. Inertial sensing (04_inertial.md): one instant through stages 1 to 3 and the crossover, and readout faults of the
triads. -/

namespace Sys2Proof.Machine

/-! ### What stage 4 leaves of the motion state -/

/-- Opening, filling and closing packets leaves the motion state alone. -/
@[simp] theorem State.putBlock_mot (s : State) (producer : Nat) (tag : Word) (mark idx pkt axes : Nat) (ws : List Word) :
    (s.putBlock producer tag mark idx pkt axes ws).mot = s.mot := by simp

/-- A stream's output changes what the stream keeps and nothing else of the motion state. -/
theorem State.streamAt_mot (s : State) (i k : Nat) :
    ∃ l, (s.streamAt i k).mot = { s.mot with streams := l } := by
  unfold State.streamAt
  dsimp only
  split
  · exact ⟨s.mot.streams, by simp⟩
  · split
    · split
      · exact ⟨_, rfl⟩
      · exact ⟨_, by simp; rfl⟩
    · exact ⟨_, rfl⟩

theorem State.foldl_streamAt_mot (l : List Nat) (i : Nat) (s : State) :
    ∃ ss, (l.foldl (fun s k => s.streamAt i k) s).mot = { s.mot with streams := ss } := by
  induction l generalizing s with
  | nil => exact ⟨_, rfl⟩
  | cons k l ih =>
    obtain ⟨ss, hss⟩ := State.streamAt_mot s i k
    obtain ⟨ts, hts⟩ := ih (s.streamAt i k)
    exact ⟨ts, by rw [List.foldl_cons, hts, hss]⟩

/-- The motion state after an instant: what stages 1 to 3 give, and the next instant (R104, R105). -/
theorem doInertialInstant_mot {s : State} (rs : List TriadReading) (h : s.samples s.mot.instant = true) :
    ∃ ss, (doInertialInstant rs s).mot =
      { (s.triadsAt s.mot.instant).sense (s.strap 11) (s.footpathAt s.mot.instant) s.magBlanked rs with
        instant := nextInstant s.mot.instant s.mark, last := some s.mot.instant, streams := ss } := by
  unfold doInertialInstant
  simp only [h, if_true, State.closeStopped_keeps]
  obtain ⟨ss, hss⟩ := State.foldl_streamAt_mot (List.range
    ((s.triadsAt s.mot.instant).sense (s.strap 11) (s.footpathAt s.mot.instant) s.magBlanked rs).streams.length) s.mot.instant
    { s with mot := (s.triadsAt s.mot.instant).sense (s.strap 11) (s.footpathAt s.mot.instant) s.magBlanked rs }
  have htime := foldl_time _ (fun b k => (State.streamAt_keeps b s.mot.instant k).2.2.2.1) (List.range
    ((s.triadsAt s.mot.instant).sense (s.strap 11) (s.footpathAt s.mot.instant) s.magBlanked rs).streams.length)
    { s with mot := (s.triadsAt s.mot.instant).sense (s.strap 11) (s.footpathAt s.mot.instant) s.magBlanked rs }
  simp only [State.mark, hss, htime]
  exact ⟨_, rfl⟩

/-! ### Stages 1 to 3 -/

@[simp] theorem Motion.noteBlock_triads (m : Motion) (f : BlockNote → BlockNote) : (m.noteBlock f).triads = m.triads := by
  unfold Motion.noteBlock; split <;> rfl

@[simp] theorem Motion.noteBlock_cal (m : Motion) (f : BlockNote → BlockNote) : (m.noteBlock f).cal = m.cal := by
  unfold Motion.noteBlock; split <;> rfl

@[simp] theorem Motion.takeTemps_cal (m : Motion) (rs : List TriadReading) : (m.takeTemps rs).cal = m.cal := by
  unfold Motion.takeTemps; split <;> rfl

@[simp] theorem Motion.takeTemps_instant (m : Motion) (rs : List TriadReading) : (m.takeTemps rs).instant = m.instant := by
  unfold Motion.takeTemps; split <;> rfl

@[simp] theorem Motion.takeTemps_robust (m : Motion) (rs : List TriadReading) : (m.takeTemps rs).robust = m.robust := by
  unfold Motion.takeTemps; split <;> rfl

@[simp] theorem Motion.takeTemps_dwell (m : Motion) (rs : List TriadReading) : (m.takeTemps rs).dwell = m.dwell := by
  unfold Motion.takeTemps; split <;> rfl

section
variable (m : Motion) (orient : Nat) (footpath magBlank : Bool) (rs : List TriadReading)

@[simp] theorem Motion.sense_triads : (m.sense orient footpath magBlank rs).triads = (m.takeTemps rs).triads := by
  simp [Motion.sense]

@[simp] theorem Motion.sense_cal : (m.sense orient footpath magBlank rs).cal = m.cal := by
  simp [Motion.sense]

/-- R106: a powered triad is measured at a common instant. -/
theorem Motion.nth_takeTemps_triads {i : Nat} (h : i < m.triads.length) :
    nth (m.takeTemps rs).triads i =
      if m.instant % 8 = 0 ∧ (nth m.triads i).powered = true then (nth m.triads i).measure (nth rs i).temp
      else nth m.triads i := by
  unfold Motion.takeTemps
  by_cases hcommon : m.instant % 8 = 0
  · simp [hcommon, nth_mapIdx h]
  · simp [hcommon]

/-- A measured die temperature leaves whether a triad is usable. -/
@[simp] theorem Triad.measure_ok (t : Triad) (x : Int) : (t.measure x).ok = t.ok := by
  unfold Triad.measure; split <;> rfl

theorem Motion.takeTemps_ok (i : Nat) (h : (nth m.triads i).ok = true) : (nth (m.takeTemps rs).triads i).ok = true := by
  by_cases hi : i < m.triads.length
  · rw [Motion.nth_takeTemps_triads m rs hi]
    split <;> simp [h]
  · have hdefault : nth m.triads i = default := by simp [nth, List.getD_eq_getElem?_getD, Nat.le_of_not_lt hi]
    exact absurd (hdefault ▸ h) (by decide)

end

@[simp] theorem State.triadsAt_instant (s : State) (i : Nat) : (s.triadsAt i).instant = s.mot.instant := by
  unfold State.triadsAt
  split
  · split <;> rfl
  · rfl

@[simp] theorem State.triadsAt_cal (s : State) (i : Nat) : (s.triadsAt i).cal = s.mot.cal := by
  unfold State.triadsAt
  split
  · split <;> rfl
  · rfl

@[simp] theorem State.triadsAt_robust (s : State) (i : Nat) : (s.triadsAt i).robust = s.mot.robust := by
  unfold State.triadsAt
  split
  · split <;> rfl
  · rfl

@[simp] theorem State.triadsAt_dwell (s : State) (i : Nat) : (s.triadsAt i).dwell = s.mot.dwell := by
  unfold State.triadsAt
  split
  · split <;> rfl
  · rfl

@[simp] theorem State.triadsAt_length (s : State) (i : Nat) : (s.triadsAt i).triads.length = s.mot.triads.length := by
  unfold State.triadsAt
  split
  · split
    · rfl
    · simp [powerTriads]
  · rfl

/-! ### The crossover (R112–R114) -/

section
variable {m : Motion} {orient f : Nat} {magBlank : Bool} {rs : List TriadReading}

/-- Where both triads of a fused channel are usable, outside Footpath, the crossover decides (R113, R114, R117). -/
theorem Motion.sense_crossover (hf : f < 2) (hsens : (nth m.triads (sensitiveOf f)).ok = true)
    (hrob : (nth m.triads (robustOf f)).ok = true) :
    let x := crossover f (nth m.robust f) (nth m.dwell f)
      (stageOne (m.takeTemps rs) (sensitiveOf f) (nth rs (sensitiveOf f)))
      (stageOne (m.takeTemps rs) (robustOf f) (nth rs (robustOf f))) (nth rs (sensitiveOf f)).overload
    nth (m.sense orient false magBlank rs).robust f = x.1 ∧ nth (m.sense orient false magBlank rs).dwell f = x.2 := by
  have hs := Motion.takeTemps_ok m rs _ hsens
  have hr := Motion.takeTemps_ok m rs _ hrob
  have h6 : sensitiveOf f < 6 ∧ robustOf f < 6 := by unfold sensitiveOf robustOf; split <;> decide
  simp [Motion.sense, nth_map_range hf, takesRobust, hs, hr, nth_map_range h6.1, nth_map_range h6.2]

end

theorem leaves_iff (f : Nat) (sens rob : List Int) (o : Bool) :
    leaves f sens rob o = true ↔ (∃ x ∈ sens, leaveLsb (sensitiveOf f) ≤ x.natAbs) ∨ o = true ∨
      (∃ x ∈ rob, leaveLsb (robustOf f) ≤ x.natAbs) := by
  simp [leaves, anyAtOrAbove, or_assoc]

theorem quiet_iff (f : Nat) (rob : List Int) (o : Bool) :
    quiet f rob o = true ↔ (∀ x ∈ rob, x.natAbs ≤ returnLsb (robustOf f)) ∧ o = false := by
  simp [quiet, allAtOrBelow]

/-- Settles O29: the sensed choice and dwell count are those of the crossover. -/
theorem crossoverDecides : Obligations.CrossoverDecides := by
  intro rs s f hlen hsamples hfoot hf hsens hrob
  obtain ⟨ss, hmot⟩ := doInertialInstant_mot rs hsamples
  obtain ⟨hrobust, hdwell⟩ := Motion.sense_crossover (orient := s.strap 11) (magBlank := s.magBlanked) (rs := rs) hf hsens hrob
  refine ⟨_, if_pos hlen, ?_⟩
  rw [hmot, hfoot]
  dsimp only
  rw [hrobust, hdwell, State.triadsAt_robust, State.triadsAt_dwell]
  refine ⟨fun hnot => ?leave, fun hnot => ?back, ?dwell⟩
  case leave =>
    simp only [crossover, hnot, Bool.false_eq_true, if_false]
    exact leaves_iff _ _ _ _
  case back => simp [crossover, hnot]
  case dwell =>
    simp only [crossover, quiet_iff]
    split <;> rfl

/-! ### Readout faults and settling (R117, R126) -/

theorem Motion.onTriad_same {m : Motion} {i : Nat} (h : i < m.triads.length) (f : Triad → Triad) :
    nth (m.onTriad i f).triads i = f (nth m.triads i) := nth_modify_same h f

theorem Motion.onTriad_ne (m : Motion) {i j : Nat} (h : j ≠ i) (f : Triad → Triad) :
    nth (m.onTriad i f).triads j = nth m.triads j := nth_modify_ne _ h f

/-! #### Recognisers leave the triads -/

@[simp] theorem State.noteEvent_triads (s : State) (r : Nat) : (s.noteEvent r).mot.triads = s.mot.triads := by
  unfold State.noteEvent; split <;> rfl

@[simp] theorem State.recEnd_triads (s : State) (r kind mark off : Nat) (ws : List Word) :
    (s.recEnd r kind mark off ws).mot.triads = s.mot.triads := by
  unfold State.recEnd
  dsimp only [State.onRec]
  split <;> simp

@[simp] theorem State.forceEnd_triads (s : State) (r : Nat) : (s.forceEnd r).mot.triads = s.mot.triads := by
  unfold State.forceEnd
  dsimp only [State.onRec]
  split <;> simp

@[simp] theorem State.forceEnds_triads (s : State) (sel : Nat → Bool) : (s.forceEnds sel).mot.triads = s.mot.triads :=
  foldl_keep (fun s : State => s.mot.triads) _ State.forceEnd_triads _ s

section
variable {s : State} {src : Nat}

theorem doTriadFault_triads (code : Word) (hpow : (nth s.mot.triads src).powered = true)
    (hgood : (nth s.mot.triads src).fault = false) :
    (doTriadFault src code s).mot.triads = (s.mot.onTriad src fun t => { t with fault := true }).triads := by
  simp [doTriadFault, hpow, hgood, Motion.onTriad]

theorem doTriadFault_closedLast (code : Word) (hpow : (nth s.mot.triads src).powered = true)
    (hgood : (nth s.mot.triads src).fault = false) (h : s.intoCauseway) :
    (doTriadFault src code s).closedLast (recTag 7) [word (at_ 1 24 + at_ src 16), code, 0, 1] := by
  simp only [doTriadFault, hpow, hgood, Bool.not_false, Bool.and_self, if_true]
  exact State.writeError_closedLast (State.intoCauseway_of_power h (by simp)) 1 src code 0 1

theorem doTriadFaultClear_eq (dt : Nat) (hbad : (nth s.mot.triads src).fault = true) :
    doTriadFaultClear dt src s =
      { s.advance dt with mot := s.mot.onTriad src fun t => { t with fault := false, settled := false } } := by
  simp [doTriadFaultClear, hbad]

theorem doTriadSettled_eq (dt : Nat) (hpow : (nth s.mot.triads src).powered = true)
    (hgood : (nth s.mot.triads src).fault = false) :
    doTriadSettled dt src s = { s.advance dt with mot := s.mot.onTriad src fun t => { t with settled := true } } := by
  simp [doTriadSettled, hpow, hgood]

end

theorem onlyWrites_mot (s : State) (m : Motion) : OnlyWrites [.mot] s { s with mot := m } :=
  ⟨rfl, fun p hp => by cases p <;> simp_all [Part.same]⟩

theorem onlyWrites_advance_mot (s : State) (dt : Nat) (m : Motion) : OnlyWrites [.time, .mot] s { s.advance dt with mot := m } :=
  (onlyWrites_advance s dt).trans (onlyWrites_mot _ m)

/-- Settles O28: stages 1 to 3 decide the instant, and each event of a triad changes that triad. -/
theorem triadsSense : Obligations.TriadsSense := by
  refine ⟨?instant, ?fault, ?clear, ?settled⟩
  case instant =>
    intro rs s hlen hsamples
    obtain ⟨ss, hmot⟩ := doInertialInstant_mot rs hsamples
    refine ⟨_, if_pos hlen, by rw [hmot], by rw [hmot], by rw [hmot], fun i hi => ?_, by rw [hmot]; simp,
      by simp, fun p hp => by cases p <;> simp_all [Part.same]⟩
    rw [hmot, Motion.sense_triads, Motion.nth_takeTemps_triads _ _ (by simpa using hi), State.triadsAt_instant]
  case fault =>
    intro src code s hi hpow hgood
    have htriads := doTriadFault_triads code hpow hgood
    exact ⟨_, rfl, by rw [htriads, Motion.onTriad_same hi], fun i hne => by rw [htriads, Motion.onTriad_ne _ hne],
      doTriadFault_closedLast code hpow hgood, by simp, fun p hp => by cases p <;> simp_all [Part.same]⟩
  case clear =>
    intro dt src s hi hbad
    refine ⟨_, congrArg Host.Outcome.next (doTriadFaultClear_eq dt hbad), Motion.onTriad_same hi _, fun i hne => Motion.onTriad_ne _ hne _,
      onlyWrites_advance_mot s dt _⟩
  case settled =>
    intro dt src s hi hpow hgood
    exact ⟨_, congrArg Host.Outcome.next (doTriadSettled_eq dt hpow hgood), Motion.onTriad_same hi _, fun i hne => Motion.onTriad_ne _ hne _,
      onlyWrites_advance_mot s dt _⟩

end Sys2Proof.Machine
end

section
/-! PROOFS. Motion products (06_motion_products.md): the strapdown sample, the wave record and the heave statistics. -/

namespace Sys2Proof.Machine

/-! ### The strapdown solution (R160–R163) -/

/-- What the strapdown solution has: its inputs and their last mark, DECL over time, the attitude value, and what they come from. -/
def State.solution (s : State) :=
  (s.prod.inputs, s.prod.lastIn, s.prod.decls, s.prod.att, s.mot.hist, s.port)

theorem State.declAt_congr {s t : State} (hdecls : t.prod.decls = s.prod.decls) (hport : t.port = s.port) (mark : Nat) :
    t.declAt mark = s.declAt mark := by
  simp [State.declAt, State.calBlock, hdecls, hport]

@[simp] theorem State.putValue_prod (s : State) (e : MotionEntry) (mark g n : Nat) (ws : List Word) :
    (s.putValue e mark g n ws).prod = s.prod := by simp

theorem State.endAttitude_solution (s : State) (ref : Nat) : (s.endAttitude ref).solution = s.solution := by
  simp [State.solution, State.endAttitude]

theorem State.beginRecord_solution (s : State) (ref : Nat) : (s.beginRecord ref).solution = s.solution := rfl

theorem State.noteDisp_solution (s : State) (ref : Nat) (v : List Word) : (s.noteDisp ref v).solution = s.solution := by
  unfold State.noteDisp State.solution
  dsimp only
  split <;> rfl

theorem State.closeRecord_solution (s : State) (ref : Nat) : (s.closeRecord ref).solution = s.solution := by
  unfold State.closeRecord
  split
  · split <;> rfl
  · rfl

theorem State.putDisp_solution (s : State) (ref : Nat) (v : List Word) : (s.putDisp ref v).solution = s.solution := by
  unfold State.putDisp State.solution
  split
  · split <;> simp
  · rfl

/-- A displacement value leaves the solution that it is formed from (R162). -/
theorem State.displacementAt_solution (s : State) (q : Nat) : (s.displacementAt q).solution = s.solution := by
  unfold State.displacementAt State.displacement
  split
  · dsimp only
    rw [State.putDisp_solution, State.closeRecord_solution, State.noteDisp_solution]
    split
    · exact State.beginRecord_solution _ _
    · rfl
  · rfl

/-- The attitude value joins the solution at a mark that is a multiple of 64, for 0.5 s before (R163). -/
theorem State.attitudeAt_solution (s : State) (q : Nat) :
    (s.attitudeAt q).solution =
      (s.prod.inputs, s.prod.lastIn, s.prod.decls,
        if q % 64 = 0 ∧ 512 ≤ q then attitudeOf s.prod.inputs (q - 512) (s.declAt (q - 512)) else s.prod.att,
        s.mot.hist, s.port) := by
  unfold State.attitudeAt
  split
  · dsimp only
    rw [State.endAttitude_solution]
    split <;> simp [State.solution]
  · rfl

/-- The state as the input of mark q has joined the solution (R160). -/
theorem doStrapdownSample_solution {s : State} (hrun : s.running = true) (hawake : s.awake = true) (hq : s.mark % 4 = 0)
    (hlast : s.prod.lastIn ≠ some s.mark) :
    ∃ u : State, (doStrapdownSample s).solution = (u.attitudeAt s.mark).solution ∧ u.prod.lastIn = some s.mark ∧ u.mot = s.mot ∧
      u.prod.inputs.head? = some (strapInput s.mot (s.inMode .footpath) s.mark
        (if s.mark ≠ 0 ∧ s.prod.lastIn = some (s.mark - 4) then s.prod.inputs.head? else none)) := by
  have hdue : (s.running && s.awake && s.mark % 4 == 0 && s.prod.lastIn != some s.mark) = true := by
    simp [hrun, hawake, hq, hlast]
  unfold doStrapdownSample
  simp only [hdue, if_true, State.displacementAt_solution]
  refine ⟨_, rfl, rfl, rfl, ?_⟩
  have hjoined : (s.mark != 0 && s.prod.lastIn == some (s.mark - 4)) = true ↔
      s.mark ≠ 0 ∧ s.prod.lastIn = some (s.mark - 4) := by simp
  simp only [hjoined, inputsKept, List.take_succ_cons, List.head?_cons]
  split <;> rfl

/-- Settles O30: the sample's input joins the solution, which then gives the attitude value. -/
theorem productsSample : Obligations.ProductsSample := by
  intro s hrun hawake hq hlast
  obtain ⟨u, hsol, hlastIn, hmot, hhead⟩ := doStrapdownSample_solution hrun hawake hq hlast
  rw [State.attitudeAt_solution] at hsol
  simp only [State.solution] at hsol
  injection hsol with hinputs hsol
  injection hsol with hin hsol
  injection hsol with hdecls hsol
  injection hsol with hatt hsol
  injection hsol with hhist hport
  refine ⟨_, rfl, by rw [hin, hlastIn], by rw [hinputs, hhead], fun h64 h512 => ?_, by rw [hhist, hmot], by simp,
    fun p hp => by cases p <;> simp_all [Part.same]⟩
  rw [hatt, if_pos ⟨h64, h512⟩, hinputs, State.declAt_congr hdecls hport]

/-! ### The records of a period (R172, R173) -/

theorem State.awake_of_full {s : State} (h : s.full = true) : s.awake = true := by simp [State.awake, h]

theorem State.intoCauseway_of_full {s : State} (hrun : s.running = true) (hfull : s.full = true)
    (hwake : s.power.waking = none) : s.intoCauseway :=
  ⟨by simp [State.storing, hrun, State.awake_of_full hfull, hwake], hfull⟩

/-- The record of a product is the packet that closed last, and its header names the first mark of the period. -/
theorem State.productRecord_last {s : State} (h : s.intoCauseway) (kind view first : Nat) (ws : List Word) :
    (s.writePacket (wholePacket 10 (productTag kind view) first ws)).closedLast (productTag kind view) ws ∧
      ∃ q, (s.writePacket (wholePacket 10 (productTag kind view) first ws)).cw.closed.getLast? = some q ∧ q.mark = first := by
  obtain ⟨q, hlast, htag, hwords, hmark⟩ := State.writePacket_last h (wholePacket 10 (productTag kind view) first ws)
  exact ⟨⟨q, hlast, htag, hwords⟩, q, hlast, hmark⟩

/-- The wave record of a period that is due (R172). -/
theorem doWaveRecordWrite_eq {s : State} {d : RecDone} {e : MotionEntry} (hrec : s.prod.recDone = some d)
    (hentry : s.prodEntry 3 d.first = some e) (hrun : s.running = true) (hfull : s.full = true) (hdue : s.waveDue d = true)
    (hdone : d.waveDone = false) (hmark : d.first + (s.wavePeriod + 128) * 1024 ≤ s.mark) :
    ∃ u : State, ∃ w, doWaveRecordWrite s = u.writePacket (wholePacket 10 (productTag 3 e.view) d.first (s.waveRecord d w).1) ∧
      u.power = s.power ∧ u.prod.recDone = some { d with waveDone := true } := by
  simp only [doWaveRecordWrite, hrec, hentry, hrun, hfull, hdue, hdone, hmark, Bool.not_false, Bool.and_self, decide_true,
    if_true]
  exact ⟨_, _, rfl, rfl, rfl⟩

/-- The heave statistics of a period that has ended (R173). -/
theorem doHeaveStats_eq {s : State} {d : RecDone} {e : MotionEntry} (hrec : s.prod.recDone = some d)
    (hentry : s.prodEntry 4 d.first = some e) (hrun : s.running = true) (hawake : s.awake = true)
    (hdone : d.statsDone = false) (hmark : d.first + (s.wavePeriod + 128) * 1024 ≤ s.mark) :
    ∃ u : State, ∃ w, doHeaveStats s = u.writePacket (wholePacket 10 (productTag 4 e.view) d.first (s.statsRecord d w)) ∧
      u.power = s.power ∧ u.prod.recDone = some { d with statsDone := true } := by
  simp only [doHeaveStats, hrec, hentry, hrun, hawake, hdone, hmark, Bool.not_false, Bool.and_self, decide_true, if_true]
  exact ⟨_, _, rfl, rfl, rfl⟩

theorem doWaveRecordWrite_frame (s : State) : OnlyWrites [.free, .cw, .prod, .way] s (doWaveRecordWrite s) :=
  ⟨by simp, fun p hp => by cases p <;> simp_all [Part.same]⟩

theorem doHeaveStats_frame (s : State) : OnlyWrites [.free, .cw, .prod, .way] s (doHeaveStats s) :=
  ⟨by simp, fun p hp => by cases p <;> simp_all [Part.same]⟩

/-- Settles O31: the record that is due is written whole, for the first mark of its period. -/
theorem recordsWritten : Obligations.RecordsWritten := by
  refine ⟨?wave, ?stats⟩
  case wave =>
    intro s d e hrec hentry hrun hfull hdue hdone hmark
    obtain ⟨u, w, heq, hpower, hmarked⟩ := doWaveRecordWrite_eq hrec hentry hrun hfull hdue hdone hmark
    refine ⟨_, rfl, by rw [heq]; simp [hmarked], fun hwake => ?_, doWaveRecordWrite_frame s⟩
    rw [heq]
    exact ⟨w, State.productRecord_last (State.intoCauseway_of_power (State.intoCauseway_of_full hrun hfull hwake) hpower) ..⟩
  case stats =>
    intro s d e hrec hentry hrun hawake hdone hmark
    obtain ⟨u, w, heq, hpower, hmarked⟩ := doHeaveStats_eq hrec hentry hrun hawake hdone hmark
    refine ⟨_, rfl, by rw [heq]; simp [hmarked], fun hinto => ?_, doHeaveStats_frame s⟩
    rw [heq]
    exact ⟨w, State.productRecord_last (State.intoCauseway_of_power hinto hpower) ..⟩

end Sys2Proof.Machine
end

section
/-! PROOFS. Calibration against the sea (05_sea_reference.md): the heave corner, blocks, updates and the convergence states. -/

namespace Sys2Proof.Machine

/-! ### The heave corner (R143) -/

section
variable {c : CalBlock} {corner run : Nat} {d hm0 : Word}

theorem nextCorner_up (hup : exceedsUp d hm0 c.hvUp = true) (hlo : c.hvMin ≤ corner) (hhi : corner ≤ c.hvMax) :
    (nextCorner c corner run d hm0).1 = min c.hvMax (corner + 1) := by
  simp only [nextCorner, hup, if_true]
  omega

theorem nextCorner_down (hup : exceedsUp d hm0 c.hvUp = false) (hdown : belowDown d c.hvDown = true) (hrun : 2 ≤ run)
    (hhi : corner ≤ c.hvMax) : (nextCorner c corner run d hm0).1 = max c.hvMin (corner - 1) := by
  simp only [nextCorner, hup, hdown, if_true, Bool.false_eq_true, if_false, Nat.reduceLeDiff, hrun,
    Nat.min_eq_right (show corner - 1 ≤ c.hvMax by omega)]

theorem nextCorner_stays (hup : exceedsUp d hm0 c.hvUp = false) (hnot : ¬(belowDown d c.hvDown = true ∧ 2 ≤ run))
    (hlo : c.hvMin ≤ corner) (hhi : corner ≤ c.hvMax) : (nextCorner c corner run d hm0).1 = corner := by
  have h3 : ¬3 ≤ if belowDown d c.hvDown = true then run + 1 else 0 := by
    split
    next hdown =>
      have hshort : ¬2 ≤ run := fun h2 => hnot ⟨hdown, h2⟩
      omega
    next => omega
  simp only [nextCorner, hup, h3, Bool.false_eq_true, if_false]
  omega

theorem nextCorner_bounds (hlo : c.hvMin ≤ c.hvMax) :
    c.hvMin ≤ (nextCorner c corner run d hm0).1 ∧ (nextCorner c corner run d hm0).1 ≤ c.hvMax := by
  simp only [nextCorner]
  omega

end

/-- What an update of the heave channel leaves: its channel, the corner that waits, and the run below HV_DOWN (R143, R151). -/
theorem State.heaveUpdate_mot (s : State) (first : Nat) (d hm0 : Word) :
    (s.heaveUpdate first d hm0).mot = { s.mot with
      cal := s.mot.cal.modify 6 fun _ => (heaveStep s.calBlock s.mot d hm0).1
      cornerNext := (heaveStep s.calBlock s.mot d hm0).2.1
      downRun := (heaveStep s.calBlock s.mot d hm0).2.2.1
      steady := (heaveStep s.calBlock s.mot d hm0).2.2.2 } := by
  simp [State.heaveUpdate, State.onCal]

theorem heaveStep_terms (b : CalBlock) (m : Motion) (d hm0 : Word) :
    nth (heaveStep b m d hm0).1.terms 0 = cornerWord (nextCorner b (m.cornerNext.getD m.corner) m.downRun d hm0).1 ∧
      nth (heaveStep b m d hm0).1.terms 1 = d := ⟨rfl, rfl⟩

/-- A corner waits for the next record where the corner steps (R143). -/
theorem heaveStep_cornerNext (b : CalBlock) (m : Motion) (d hm0 : Word) :
    (heaveStep b m d hm0).2.1 =
      if (nextCorner b (m.cornerNext.getD m.corner) m.downRun d hm0).1 = m.cornerNext.getD m.corner then m.cornerNext
      else some (nextCorner b (m.cornerNext.getD m.corner) m.downRun d hm0).1 := by
  simp only [heaveStep, bne_iff_ne, ne_eq, ite_not]

/-- The record period in progress has ended and waits for its records. -/
def State.periodEnded (s : State) (r : RecDone) : State :=
  { s with prod := { s.prod with recDone := some { r with ended := true } } }

section
variable {s : State} {r : RecDone}

/-- The wave record, Hm0 and the mean heave that end a period: those of R169 where a wave record is due, or those of R173. -/
def State.periodResult (s : State) (r : RecDone) : List Word × Word × Word :=
  if s.full && s.waveDue r then s.waveRecord r 0 else ([], r.h4s, r.dmean)

theorem State.periodResult_eq {d hm0 : Word} (hx : (d, hm0) = (if s.full = true ∧ s.waveDue r = true then
      ((s.waveRecord r 0).2.2, (s.waveRecord r 0).2.1) else (r.dmean, r.h4s))) :
    (s.periodResult r).2.2 = d ∧ (s.periodResult r).2.1 = hm0 := by
  unfold State.periodResult
  simp only [Bool.and_eq_true]
  split at hx
  next hdue =>
    rw [if_pos hdue]
    exact ⟨congrArg (·.1) hx.symm, congrArg (·.2) hx.symm⟩
  next hnot =>
    rw [if_neg hnot]
    exact ⟨congrArg (·.1) hx.symm, congrArg (·.2) hx.symm⟩

theorem doRecordPeriodEnd_eq (hrec : s.prod.recDone = some r) (hruns : s.calRuns 6 = true) (hended : r.ended = false) :
    doRecordPeriodEnd s =
      if (nth s.mot.cal 6).skips s.mark = true then s.periodEnded r
      else if f32IsNan (s.periodResult r).2.2 = true then (s.periodEnded r).heaveEmpty
      else (s.periodEnded r).heaveUpdate r.first (s.periodResult r).2.2 (s.periodResult r).2.1 := by
  simp only [doRecordPeriodEnd, hrec, hruns, hended, Bool.not_false, Bool.and_self, if_true]
  rfl

end

theorem doRecordPeriodEnd_frame (s : State) : OnlyWrites [.cw, .mot, .prod, .way] s (doRecordPeriodEnd s) :=
  ⟨by simp, fun p hp => by cases p <;> simp_all [Part.same]⟩

theorem onlyWrites_prod (s : State) (p : Prod) : OnlyWrites [.prod] s { s with prod := p } :=
  ⟨rfl, fun p hp => by cases p <;> simp_all [Part.same]⟩

/-- Settles O32: the period's update takes the corner that R143 decides, unless a restore discards it. -/
theorem cornerSteps : Obligations.CornerSteps := by
  refine ⟨?update, ?skipped, ?steps⟩
  case update =>
    intro s r d hm0 hrec hruns hended hlen hskip hx hd
    obtain ⟨hmean, hh⟩ := State.periodResult_eq hx
    have heq := doRecordPeriodEnd_eq hrec hruns hended
    rw [hskip, hmean, hh, hd, if_neg Bool.false_ne_true, if_neg Bool.false_ne_true] at heq
    have hmot := State.heaveUpdate_mot (s.periodEnded r) r.first d hm0
    obtain ⟨h0, h1⟩ := heaveStep_terms s.calBlock s.mot d hm0
    have hchannel : nth (s.mot.cal.modify 6 fun _ => (heaveStep s.calBlock s.mot d hm0).1) 6 =
        (heaveStep s.calBlock s.mot d hm0).1 := nth_modify_same hlen _
    refine ⟨_, rfl, by rw [heq]; simp [State.periodEnded], ⟨?_, ?_, ?_, ?_⟩, ?_, doRecordPeriodEnd_frame s⟩
    all_goals rw [heq, hmot]
    · exact heaveStep_cornerNext s.calBlock s.mot d hm0
    · rfl
    · rfl
    · exact (congrArg (fun c : CalCh => nth c.terms 0) hchannel).trans h0
    · exact (congrArg (fun c : CalCh => nth c.terms 1) hchannel).trans h1
  case skipped =>
    intro s r hrec hruns hended hskip
    have heq := doRecordPeriodEnd_eq hrec hruns hended
    rw [if_pos hskip] at heq
    exact ⟨_, congrArg Host.Outcome.next heq, rfl, rfl, onlyWrites_prod s _⟩
  case steps =>
    intro c corner run d hm0 hlo hhi
    exact ⟨fun hup => nextCorner_up hup hlo hhi, fun hup hdown hrun => nextCorner_down hup hdown hrun hhi,
      fun hup hnot => nextCorner_stays hup hnot hlo hhi, nextCorner_bounds (Nat.le_trans hlo hhi)⟩

/-! ### Blocks (R131, R132) -/

/-- A block that ended is taken once by each channel, which keeps it or discards it. -/
theorem doCalBlockEnd_mot {s : State} {i : Nat} (hruns : s.calRuns i = true) (hwhole : s.mot.blockDone.whole = true)
    (hnew : i ∉ s.mot.blockDone.taken) :
    (doCalBlockEnd i s).mot = { s.mot with
      blockDone := { s.mot.blockDone with taken := i :: s.mot.blockDone.taken }
      cal := s.mot.cal.modify i fun c =>
        if s.discards i (meanOf (s.blockOf i)) = true then { c with discarded := c.discarded + 1 }
        else { c with accepted := c.accepted + 1, total := c.total + 1, blocks := s.blockOf i :: c.blocks } } := by
  have hnew' : s.mot.blockDone.taken.contains i = false := by simpa using hnew
  simp only [doCalBlockEnd, hruns, hwhole, hnew', Bool.not_false, Bool.and_self, if_true]
  split <;> rfl

theorem doCalBlockEnd_frame (i : Nat) (s : State) : OnlyWrites [.mot] s (doCalBlockEnd i s) :=
  ⟨by simp, fun p hp => by cases p <;> simp_all [Part.same]⟩

/-! ### The 600 s update (R147–R151) -/

@[simp] theorem Motion.settleTriad_cal (m : Motion) (i st : Nat) : (m.settleTriad i st).cal = m.cal := by
  unfold Motion.settleTriad; split <;> rfl

theorem pairOf_ne (i : Nat) : pairOf i ≠ some i := by
  unfold pairOf
  split <;> simp

section
variable (s : State) (i : Nat) (c' : CalCh) (changed : Bool) (mark cov : Nat) (dpsi : Int)

/-- An update changes its channel; the channel that it is paired with has at most its terms moved to the same mark (R150). -/
theorem State.takeUpdate_cal :
    (s.takeUpdate i c' changed mark cov dpsi).mot.cal = s.mot.cal.modify i (fun _ => c') ∨
      ∃ j, pairOf i = some j ∧
        (s.takeUpdate i c' changed mark cov dpsi).mot.cal = (s.mot.cal.modify i fun _ => c').modify j (·.moveNext mark) := by
  unfold State.takeUpdate
  cases hpair : pairOf i with
  | none => exact .inl (by simp [State.onCal])
  | some j =>
    cases changed
    · exact .inl (by simp [State.onCal])
    · exact .inr ⟨j, rfl, by simp [State.onCal]⟩

theorem State.takeUpdate_same (h : i < s.mot.cal.length) : nth (s.takeUpdate i c' changed mark cov dpsi).mot.cal i = c' := by
  obtain hcal | ⟨j, hpair, hcal⟩ := State.takeUpdate_cal s i c' changed mark cov dpsi
  · rw [hcal, nth_modify_same h]
  · rw [hcal, nth_modify_ne _ fun heq => pairOf_ne i (hpair.trans (congrArg some heq.symm)), nth_modify_same h]

theorem State.takeUpdate_other {k : Nat} (hne : k ≠ i) (hnot : pairOf i ≠ some k) :
    nth (s.takeUpdate i c' changed mark cov dpsi).mot.cal k = nth s.mot.cal k := by
  obtain hcal | ⟨j, hpair, hcal⟩ := State.takeUpdate_cal s i c' changed mark cov dpsi
  · rw [hcal, nth_modify_ne _ hne]
  · rw [hcal, nth_modify_ne _ fun heq => hnot (hpair.trans (congrArg some heq.symm)), nth_modify_ne _ hne]

theorem State.takeUpdate_pair {k : Nat} (hpair : pairOf i = some k) :
    nth (s.takeUpdate i c' changed mark cov dpsi).mot.cal k = nth s.mot.cal k ∨
      nth (s.takeUpdate i c' changed mark cov dpsi).mot.cal k = (nth s.mot.cal k).moveNext mark := by
  have hne : k ≠ i := fun heq => pairOf_ne i (heq ▸ hpair)
  obtain hcal | ⟨j, hj, hcal⟩ := State.takeUpdate_cal s i c' changed mark cov dpsi
  · exact .inl (by rw [hcal, nth_modify_ne _ hne])
  · obtain rfl : j = k := by simpa [hj] using hpair
    by_cases hlt : j < (s.mot.cal.modify i fun _ => c').length
    · exact .inr (by rw [hcal, nth_modify_same hlt, nth_modify_ne _ hne])
    · refine .inl ?_
      rw [hcal, List.modify_eq_self (Nat.le_of_not_lt hlt), nth_modify_ne _ hne]

end

/-- New terms wait for their mark behind those that wait already (R150). -/
theorem CalCh.mem_updated_next {c : CalCh} {v : Verdict} {e : Estimate} {res low base mark : Nat} {dep : Bool}
    {x : Nat × List Word × List Word} (h : x ∈ (c.updated v e res low base mark dep).next) : x ∈ c.next ∨ x.1 = mark := by
  unfold CalCh.updated at h
  dsimp only at h
  split at h
  · obtain h | h := List.mem_append.mp h
    · exact .inl h
    · exact .inr (by rw [List.mem_singleton.mp h])
  · exact .inl h

section
variable {s : State} {i : Nat}

/-- The last mark at which the 600 s updates fell due. -/
def State.updateMark (s : State) : Nat := s.mark / reportMarks * reportMarks

theorem doCalUpdate_due (hruns : s.calRuns i = true) (hmark : s.updateMark ≠ 0) (hdue : (nth s.mot.cal i).updAt < s.updateMark)
    (hskip : (nth s.mot.cal i).skips s.updateMark = false) :
    ∃ v e res low dep changed cov dpsi acc disc mark,
      doCalUpdate i s = (s.takeUpdate i
          ((nth s.mot.cal i).updated v e res low s.updateMark (s.termsMark i s.updateMark) dep) changed
          (s.termsMark i s.updateMark) cov dpsi).writePacket
        (calUpdateRec i ((nth s.mot.cal i).updated v e res low s.updateMark (s.termsMark i s.updateMark) dep) changed acc disc
          mark) := by
  have hcond : (s.calRuns i && s.updateMark != 0 && decide ((nth s.mot.cal i).updAt < s.updateMark)) = true := by
    simp [hruns, hmark, hdue]
  unfold State.updateMark at *
  simp only [doCalUpdate, hcond, hskip, if_true, Bool.false_eq_true, if_false]
  exact ⟨_, _, _, _, _, _, _, _, _, _, _, rfl⟩

theorem doCalUpdate_skipped (hruns : s.calRuns i = true) (hmark : s.updateMark ≠ 0)
    (hdue : (nth s.mot.cal i).updAt < s.updateMark) (hskip : (nth s.mot.cal i).skips s.updateMark = true) :
    doCalUpdate i s = s.onCal i fun c => { c with updAt := s.updateMark, accepted := 0, discarded := 0 } := by
  have hcond : (s.calRuns i && s.updateMark != 0 && decide ((nth s.mot.cal i).updAt < s.updateMark)) = true := by
    simp [hruns, hmark, hdue]
  unfold State.updateMark at *
  simp only [doCalUpdate, hcond, hskip, if_true]

end

theorem doCalUpdate_frame (i : Nat) (s : State) : OnlyWrites [.cw, .mot, .way] s (doCalUpdate i s) :=
  ⟨by simp, fun p hp => by cases p <;> simp_all [Part.same]⟩

/-- Settles O33: blocks, updates and the state table of R147, each read off its function. -/
theorem calibrationUpdates : Obligations.CalibrationUpdates := by
  refine ⟨?block, ?update, ?skipped, ?table⟩
  case block =>
    intro dt ch s hlen hruns hwhole hnew
    have hmot : (doCalBlockEnd ch.val (s.advance dt)).mot = _ := doCalBlockEnd_mot (s := s.advance dt) hruns hwhole hnew
    refine ⟨_, rfl, by rw [hmot]; rfl, ?_, fun i hne => ?_, (onlyWrites_advance s dt).trans (doCalBlockEnd_frame _ _)⟩
    · rw [hmot]
      exact nth_modify_same hlen _
    · rw [hmot]
      exact nth_modify_ne _ hne _
  case update =>
    intro ch s hlen hruns hmark hdue hskip
    obtain ⟨v, e, res, low, dep, changed, cov, dpsi, acc, disc, mark, heq⟩ := doCalUpdate_due hruns hmark hdue hskip
    have hsame := State.takeUpdate_same s ch.val
      ((nth s.mot.cal ch.val).updated v e res low s.updateMark (s.termsMark ch.val s.updateMark) dep) changed
      (s.termsMark ch.val s.updateMark) cov dpsi hlen
    have hframe : OnlyWrites [.cw, .mot, .way] s _ := heq ▸ doCalUpdate_frame ch.val s
    refine ⟨_, congrArg Host.Outcome.next heq, ?_, ?_, ?_, ?_, ?_, fun hinto => ?_, fun i hne hnot => ?_, fun i hpair => ?_,
      hframe⟩
    case refine_6 =>
      refine (State.writePacket_last (State.intoCauseway_of_power hinto ?_) _).imp
        fun q ⟨hlast, htag, hwords, _⟩ => ⟨hlast, htag, congrArg List.length hwords⟩
      simp
    all_goals simp only [State.writePacket_keeps]
    case refine_7 => exact State.takeUpdate_other _ _ _ _ _ _ _ hne hnot
    case refine_8 => exact State.takeUpdate_pair _ _ _ _ _ _ _ hpair
    all_goals rw [hsame]
    case refine_5 => exact fun x hx => CalCh.mem_updated_next hx
    all_goals rfl
  case skipped =>
    intro ch s hlen hruns hmark hdue hskip
    exact ⟨_, congrArg Host.Outcome.next (doCalUpdate_skipped hruns hmark hdue hskip), nth_modify_same hlen _,
      fun i hne => nth_modify_ne _ hne _, onlyWrites_mot s _⟩
  case table =>
    intro c enough most dep res lim low also
    refine ⟨fun hst => ?_, fun hst hbad => ?_, fun hst hnew hmost hdep => ?_, fun hst hwas hmost hdep => ?_,
      fun hst hnew hmost hdep => ?_, fun hst hdep hrun => ?_, fun hst hbad hrun => ?_, fun hst hmost hdep => ?_⟩
    · simp only [verdict, hst]
      split <;> rfl
    · obtain hst | hst := hst <;> simp [verdict, hst, hbad]
    · simp [verdict, hst, hnew, hmost, hdep]
    · obtain hst | hst := hst <;> simp [verdict, hst, hwas, hmost, hdep]
    · simp [verdict, hst, hnew, hmost, hdep]
    · simp [verdict, hst, hdep, hrun]
    · simp [verdict, hst, hbad, Nat.not_le.mpr hrun]
    · simp [verdict, hst, hmost, hdep]

end Sys2Proof.Machine
end

section
/-! PROOFS. The recognisers (06_motion_products.md R174–R182): what an onset leaves in its recogniser and writes, and the commands
that find one. -/

namespace Sys2Proof.Machine

/-! ### One recogniser changed -/

@[simp] theorem State.onRec_recs (s : State) (r : Nat) (f : RecSt → RecSt) : (s.onRec r f).way.recs = s.way.recs.modify r f := rfl
@[simp] theorem State.onRec_recogOf (s : State) (r k : Nat) (f : RecSt → RecSt) : (s.onRec r f).recogOf k = s.recogOf k := rfl
@[simp] theorem State.onRec_cw (s : State) (r : Nat) (f : RecSt → RecSt) : (s.onRec r f).cw = s.cw := rfl
@[simp] theorem State.onRec_mot (s : State) (r : Nat) (f : RecSt → RecSt) : (s.onRec r f).mot = s.mot := rfl
@[simp] theorem State.onRec_prod (s : State) (r : Nat) (f : RecSt → RecSt) : (s.onRec r f).prod = s.prod := rfl
@[simp] theorem State.onRec_time (s : State) (r : Nat) (f : RecSt → RecSt) : (s.onRec r f).time = s.time := rfl
@[simp] theorem State.onRec_mark (s : State) (r : Nat) (f : RecSt → RecSt) : (s.onRec r f).mark = s.mark := rfl
@[simp] theorem State.onRec_inputUsable (s : State) (r bit : Nat) (f : RecSt → RecSt) :
    (s.onRec r f).inputUsable bit = s.inputUsable bit := rfl

/-- Closing packets leaves the recognisers. -/
@[simp] theorem State.writePacket_recs (s : State) (p : Packet) : (s.writePacket p).way.recs = s.way.recs := by
  have hnote (p : Packet) : (s.noteProd p).way.recs = s.way.recs := by unfold State.noteProd; split <;> rfl
  unfold State.writePacket
  dsimp only
  split
  · split <;> exact hnote _
  · rfl

@[simp] theorem Way.offer_recs (w : Way) (r k : Nat) (mark : Word) (ws : List Word) : (w.offer r k mark ws).recs = w.recs := by
  unfold Way.offer
  dsimp only
  split
  · rfl
  · split <;> rfl

@[simp] theorem State.noteEvent_recs (s : State) (r : Nat) : (s.noteEvent r).way.recs = s.way.recs := by
  unfold State.noteEvent; split <;> rfl

@[simp] theorem State.noteEvent_recogOf (s : State) (r k : Nat) : (s.noteEvent r).recogOf k = s.recogOf k := by
  unfold State.noteEvent; split <;> rfl

/-! ### A written event (R179) -/

/-- Words 4–7 of the event that recogniser r writes next (R179). -/
def State.eventHead (s : State) (r kind off : Nat) : List Word :=
  [word (at_ r 28 + at_ kind 24 + ((nth s.way.recs r).seq + 1) % 2 ^ 16), word off,
   word (satN 32 (nth s.way.recs r).suppressed), word (at_ s.modeNow 30)]

section
variable {s : State} {r kind mark off : Nat} {ws : List Word} {e : Recog}

/-- An event is one packet of its recogniser, which then counts on from its SEQ (R179). -/
theorem State.writeEvent_eq (he : s.recogOf r = some e) :
    ∃ u : State, (s.writeEvent r kind mark off ws).cw = (u.writePacket (wholePacket 11 (eventTag (0x10 + r) e.view) mark
        (s.eventHead r kind off ++ (ws ++ List.replicate 8 0).take 8))).cw ∧
      (s.writeEvent r kind mark off ws).way.recs = u.way.recs ∧ u.power = s.power ∧
      u.way.recs = s.way.recs.modify r fun x =>
        { x with seq := ((nth s.way.recs r).seq + 1) % 2 ^ 16, suppressed := 0
                 lastWritten := if kind = 1 ∨ kind = 3 then some mark else x.lastWritten } := by
  refine ⟨s.onRec r fun x =>
    { x with seq := ((nth s.way.recs r).seq + 1) % 2 ^ 16, suppressed := 0
             lastWritten := if kind = 1 ∨ kind = 3 then some mark else x.lastWritten }, ?_, ?_, rfl, rfl⟩
  · simp only [State.writeEvent, he]
    split <;> simp [State.eventHead]
  · simp only [State.writeEvent, he]
    split <;> simp

end

/-! ### An onset (R175, R176) -/

/-- A recogniser after its onset, held off or written. -/
def RecSt.begun (x : RecSt) (held : Bool) (mark inst : Nat) : RecSt :=
  let y := { x with active := true, onRun := 0, offRun := 0, written := !held, onsetAt := inst }
  if held then { y with suppressed := x.suppressed + 1 }
  else { y with seq := (x.seq + 1) % 2 ^ 16, suppressed := 0, lastWritten := some mark }

section
variable {s : State} {r mark off inst : Nat} {ws : List Word} {e : Recog}

/-- The state as an onset of recogniser r is noted, before its event. -/
def State.onsetNoted (s : State) (r inst : Nat) (held : Bool) : State :=
  (s.noteEvent r).onRec r fun x =>
    { x with active := true, onRun := 0, offRun := 0, written := !held, onsetAt := inst,
             suppressed := if held then x.suppressed + 1 else x.suppressed }

theorem State.onset_eq (he : s.recogOf r = some e) :
    s.onset r mark off inst ws =
      if (nth s.way.recs r).heldOff e.hold mark = true then s.onsetNoted r inst ((nth s.way.recs r).heldOff e.hold mark)
      else (s.onsetNoted r inst ((nth s.way.recs r).heldOff e.hold mark)).writeEvent r 1 mark off ws := by
  simp only [State.onset, he, State.noteEvent_recs, State.onsetNoted]

theorem State.onset_same (he : s.recogOf r = some e) (hr : r < s.way.recs.length) :
    nth (s.onset r mark off inst ws).way.recs r =
      (nth s.way.recs r).begun ((nth s.way.recs r).heldOff e.hold mark) mark inst := by
  rw [State.onset_eq he]
  split
  next hheld => simp [State.onsetNoted, hheld, RecSt.begun, nth_modify_same hr]
  next hheld =>
    obtain ⟨u, -, hrecs, -, hu⟩ := State.writeEvent_eq (s := s.onsetNoted r inst ((nth s.way.recs r).heldOff e.hold mark))
      (r := r) (kind := 1) (mark := mark) (off := off) (ws := ws) (e := e) (by simpa [State.onsetNoted] using he)
    rw [hrecs, hu]
    simp [State.onsetNoted, hheld, RecSt.begun, nth_modify_same, hr]

theorem State.onset_ne (he : s.recogOf r = some e) {k : Nat} (hk : k ≠ r) :
    nth (s.onset r mark off inst ws).way.recs k = nth s.way.recs k := by
  rw [State.onset_eq he]
  split
  next => simp [State.onsetNoted, nth_modify_ne _ hk]
  next =>
    obtain ⟨u, -, hrecs, -, hu⟩ := State.writeEvent_eq (s := s.onsetNoted r inst ((nth s.way.recs r).heldOff e.hold mark))
      (r := r) (kind := 1) (mark := mark) (off := off) (ws := ws) (e := e) (by simpa [State.onsetNoted] using he)
    rw [hrecs, hu, nth_modify_ne _ hk]
    simp [State.onsetNoted, nth_modify_ne _ hk]

theorem State.onset_heldOff (he : s.recogOf r = some e) (hheld : (nth s.way.recs r).heldOff e.hold mark = true) :
    (s.onset r mark off inst ws).cw = s.cw := by
  rw [State.onset_eq he, if_pos hheld]
  simp [State.onsetNoted]

/-- An onset that is not held off is the packet that closed last, with KIND 1 and the next SEQ (R179). -/
theorem State.onset_last (he : s.recogOf r = some e) (hr : r < s.way.recs.length)
    (hheld : (nth s.way.recs r).heldOff e.hold mark = false) (hinto : s.intoCauseway) :
    ∃ q, (s.onset r mark off inst ws).cw.closed.getLast? = some q ∧ q.tag = eventTag (0x10 + r) e.view ∧ q.mark = mark ∧
      nth q.words 0 = word (at_ r 28 + at_ 1 24 + ((nth s.way.recs r).seq + 1) % 65536) ∧ q.words.length = 12 := by
  rw [State.onset_eq he, hheld, if_neg Bool.false_ne_true]
  obtain ⟨u, hcw, -, hpower, -⟩ := State.writeEvent_eq (s := s.onsetNoted r inst false)
    (r := r) (kind := 1) (mark := mark) (off := off) (ws := ws) (e := e) (by simpa [State.onsetNoted] using he)
  obtain ⟨q, hlast, htag, hwords, hmark⟩ := State.writePacket_last
    (State.intoCauseway_of_power hinto (hpower.trans (by simp [State.onsetNoted]))) (wholePacket 11 (eventTag (0x10 + r) e.view) mark
      ((s.onsetNoted r inst false).eventHead r 1 off ++ (ws ++ List.replicate 8 0).take 8))
  have hseq : (nth (s.onsetNoted r inst false).way.recs r).seq = (nth s.way.recs r).seq := by
    simp [State.onsetNoted, nth_modify_same hr]
  refine ⟨q, by rw [hcw, hlast], htag, hmark, ?_, ?_⟩
  · rw [hwords, ← hseq]
    rfl
  · rw [hwords]
    simp [wholePacket, State.eventHead]

end

/-! ### SLAM, DROP, CAPSIZE, TILT and DRIFT begin (R177) -/

/-- Two changes of one recogniser are one. -/
@[simp] theorem State.onRec_onRec (s : State) (r : Nat) (f g : RecSt → RecSt) : (s.onRec r f).onRec r g = s.onRec r (g ∘ f) := by
  simp [State.onRec, List.modify_modify_eq]

section
variable {s : State} {r mark off inst : Nat} {ws : List Word} {e : Recog} {f : RecSt → RecSt}

/-- An onset after a change of the recogniser that begins. -/
theorem State.onRec_onset_same (he : s.recogOf r = some e) (hr : r < s.way.recs.length) :
    nth ((s.onRec r f).onset r mark off inst ws).way.recs r =
      (f (nth s.way.recs r)).begun ((f (nth s.way.recs r)).heldOff e.hold mark) mark inst := by
  rw [State.onset_same (by simpa using he) (by simpa using hr)]
  simp [nth_modify_same hr]

theorem State.onRec_onset_ne (he : s.recogOf r = some e) {k : Nat} (hk : k ≠ r) :
    nth ((s.onRec r f).onset r mark off inst ws).way.recs k = nth s.way.recs k := by
  rw [State.onset_ne (by simpa using he) hk]
  simp [nth_modify_ne _ hk]

@[simp] theorem RecSt.begun_active (x : RecSt) (held : Bool) (mark inst : Nat) : (x.begun held mark inst).active = true := by
  unfold RecSt.begun; cases held <;> rfl
@[simp] theorem RecSt.begun_onsetAt (x : RecSt) (held : Bool) (mark inst : Nat) : (x.begun held mark inst).onsetAt = inst := by
  unfold RecSt.begun; cases held <;> rfl
@[simp] theorem RecSt.begun_onRun (x : RecSt) (held : Bool) (mark inst : Nat) : (x.begun held mark inst).onRun = 0 := by
  unfold RecSt.begun; cases held <;> rfl
@[simp] theorem RecSt.begun_peakW (x : RecSt) (held : Bool) (mark inst : Nat) : (x.begun held mark inst).peakW = x.peakW := by
  unfold RecSt.begun; cases held <;> rfl

end

/-- A SLAM at instant i before its onset: the instant is seen, counted, and the peak so far. -/
def RecSt.slamSeen (i run sq : Nat) (ws : List Word) (x : RecSt) : RecSt :=
  { x with seenAt := some i, onRun := run, peak := sq, peakAt := i, peakW := ws }

/-- The squared difference of SLAM at the newest ACC-C instant (R174). -/
def State.slamSquare (s : State) : Nat := squares ((List.range 3).map (slamDelta (nth s.mot.hist 2)))

/-- SLAM's onset (R177): SLAM_MIN consecutive instants at the threshold. -/
theorem doSlam_onset {s : State} {e : Recog} {i : Nat} {inp : Inp} (he : s.recogOf 0 = some e) (hi : s.mot.last = some i)
    (hinp : s.newest 2 = some inp) (hruns : s.recRuns 0 = true) (hlen : 0 < s.way.recs.length)
    (hseen : (nth s.way.recs 0).seenAt ≠ some i) (hok : inp.ok = true) (hidle : (nth s.way.recs 0).active = false)
    (hreach : reaches s.slamSquare slamG (nth e.w 0) 1 1 = true) (hrun : (nth e.w 1).toNat ≤ (nth s.way.recs 0).onRun + 1) :
    doSlam s =
      (s.onRec 0 (RecSt.slamSeen i ((nth s.way.recs 0).onRun + 1) s.slamSquare (vecWords 2 inp.v))).onset 0
        (eventAt (i / 8) (i % 8)).1 (eventAt (i / 8) (i % 8)).2 i (gWord s.slamSquare slamG :: vecWords 2 inp.v) := by
  unfold State.slamSquare at hreach
  simp only [doSlam, he, hi, hinp, hruns, Bool.true_and, bne_iff_ne, ne_eq, hseen, not_false_eq_true, if_true, hok,
    State.onRec_recs, State.onRec_mot, nth_modify_same hlen, hidle, Bool.false_eq_true, if_false, State.slamIdle, runOf, hreach,
    hrun, State.onRec_onRec]
  rfl

theorem doSlam_frame (s : State) : OnlyWrites [.cw, .mot, .way, .attn] s (doSlam s) :=
  ⟨by simp, fun p hp => by cases p <;> simp_all [Part.same]⟩

theorem doCrest_frame (s : State) : OnlyWrites [.cw, .way, .attn] s (doCrest s) :=
  ⟨by simp, fun p hp => by cases p <;> simp_all [Part.same]⟩

/-! ### CREST takes a heave value (R177) -/

/-- Recogniser 1 has taken a heave value, and the others are as they were. -/
def State.heaveTaken (s t : State) : Prop :=
  (nth t.way.recs 1).seenAt = (nth s.way.recs 1).seenAt ∧ (nth t.way.recs 1).prevHeave = (nth s.way.recs 1).prevHeave ∧
  (∀ r, r ≠ 1 → nth t.way.recs r = nth s.way.recs r) ∧ t.way.recs.length = s.way.recs.length

theorem State.heaveTaken_trans {s t u : State} (hst : s.heaveTaken t) (htu : t.heaveTaken u) : s.heaveTaken u := by
  obtain ⟨hseen, hheave, hother, hlen⟩ := hst
  obtain ⟨hseen', hheave', hother', hlen'⟩ := htu
  exact ⟨hseen'.trans hseen, hheave'.trans hheave, fun r hr => (hother' r hr).trans (hother r hr), hlen'.trans hlen⟩

section
variable {s : State} {f : RecSt → RecSt} (hlen : 1 < s.way.recs.length)
include hlen

theorem State.heaveTaken_of_recs {t : State} (ht : t.way.recs = s.way.recs.modify 1 f)
    (hseen : (f (nth s.way.recs 1)).seenAt = (nth s.way.recs 1).seenAt)
    (hheave : (f (nth s.way.recs 1)).prevHeave = (nth s.way.recs 1).prevHeave) : s.heaveTaken t := by
  refine ⟨?_, ?_, fun r hr => ?_, ?_⟩
  · rw [ht, nth_modify_same hlen, hseen]
  · rw [ht, nth_modify_same hlen, hheave]
  · rw [ht, nth_modify_ne _ hr]
  · rw [ht, List.length_modify]

theorem State.crestEvent_taken {e : Recog} (he : s.recogOf 1 = some e) (ref : Nat) (w : Wave) :
    s.heaveTaken (s.crestEvent e ref w) := by
  unfold State.crestEvent
  dsimp only
  split
  · exact State.heaveTaken_of_recs hlen rfl rfl rfl
  · obtain ⟨u, -, hrecs, -, hu⟩ := State.writeEvent_eq he
    exact State.heaveTaken_of_recs hlen (hrecs.trans hu) rfl rfl

/-- An up-crossing changes only the wave in progress and what an event counts. -/
theorem State.crestUp_taken {e : Recog} (he : s.recogOf 1 = some e) (ref : Nat) (h : Word) (st : RecSt) :
    s.heaveTaken (s.crestUp e ref h st) := by
  have hwave (g : RecSt → List Word) : s.heaveTaken (s.onRec 1 fun x => { x with wave := g x }) :=
    State.heaveTaken_of_recs hlen rfl rfl rfl
  unfold State.crestUp
  dsimp only
  split
  · exact hwave _
  · split
    · split
      · exact State.heaveTaken_trans (hwave _) (State.crestEvent_taken (by simpa using hlen) (by simpa using he) ref _)
      · exact hwave _
    · exact hwave _

theorem State.crestValue_taken {e : Recog} (he : s.recogOf 1 = some e) (ref : Nat) {v : List Word}
    (hgood : bitOf (nth v 3).toNat 1 = false) :
    (s.onRec 1 fun x => { x with prevHeave := nth v 0 }).heaveTaken (s.crestValue e ref v) := by
  have hlen' : 1 < (s.onRec 1 fun x => { x with prevHeave := nth v 0 }).way.recs.length := by simpa using hlen
  simp only [State.crestValue, hgood, Bool.false_eq_true, if_false]
  split
  · exact State.crestUp_taken hlen' (by simpa using he) ref _ _
  · exact State.heaveTaken_of_recs hlen' rfl rfl rfl

end

theorem doCrest_takes {s : State} {e : Recog} {ref : Nat} {v : List Word} (he : s.recogOf 1 = some e)
    (hdisp : s.prod.lastDisp = some (ref, v)) (hruns : s.recRuns 1 = true) (hlen : 1 < s.way.recs.length)
    (hseen : (nth s.way.recs 1).seenAt ≠ some ref) (hgood : bitOf (nth v 3).toNat 1 = false) :
    (nth (doCrest s).way.recs 1).seenAt = some ref ∧ (nth (doCrest s).way.recs 1).prevHeave = nth v 0 ∧
      ∀ r, r ≠ 1 → nth (doCrest s).way.recs r = nth s.way.recs r := by
  have heq : doCrest s = (s.onRec 1 fun x => { x with seenAt := some ref }).crestValue e ref v := by
    simp only [doCrest, he, hdisp, hruns, Bool.true_and, bne_iff_ne, ne_eq, hseen, not_false_eq_true, if_true]
  obtain ⟨hat, hheave, hother, -⟩ := State.crestValue_taken (s := s.onRec 1 fun x => { x with seenAt := some ref })
    (by simpa using hlen) (by simpa using he) ref hgood
  rw [heq]
  refine ⟨hat.trans ?_, hheave.trans ?_, fun r hr => (hother r hr).trans ?_⟩
  · simp [nth_modify_same hlen]
  · simp [nth_modify_same hlen]
  · simp [nth_modify_ne _ hr]

/-- Settles O34: SLAM begins as an onset of the state that has seen the instant; of CREST, what follows the heave value leaves it. -/
theorem slamAndCrest : Obligations.SlamAndCrest := by
  unfold Obligations.SlamAndCrest
  refine ⟨fun s e i inp he hi hinp hruns hlen hseen hok hidle hreach hrun => ⟨_, rfl, ?_⟩,
    fun s e ref v he hdisp hruns hlen hseen hgood => ⟨_, rfl, ?_⟩⟩
  · have hzero : 0 < s.way.recs.length := by omega
    have hframe := doSlam_frame s
    rw [doSlam_onset he hi hinp hruns hzero hseen hok hidle hreach hrun] at hframe ⊢
    rw [State.onRec_onset_same he hzero]
    have hold : (RecSt.slamSeen i ((nth s.way.recs 0).onRun + 1) s.slamSquare (vecWords 2 inp.v) (nth s.way.recs 0)).heldOff e.hold
        (eventAt (i / 8) (i % 8)).1 = (nth s.way.recs 0).heldOff e.hold (eventAt (i / 8) (i % 8)).1 := rfl
    refine ⟨by simp, by simp, by simp, by simp [RecSt.slamSeen], fun hheld => ⟨?_, ?_, ?_⟩,
      fun hheld => ⟨?_, ?_, fun hinto => ?_⟩, fun r hr => State.onRec_onset_ne he hr, hframe⟩
    · exact State.onset_heldOff (s := s.onRec 0 _) he (by simp [nth_modify_same hzero, hold, hheld])
    · rw [hold, hheld]; rfl
    · rw [hold, hheld]; rfl
    · rw [hold, hheld]; rfl
    · rw [hold, hheld]; rfl
    · have hlast := State.onset_last (s := s.onRec 0 (RecSt.slamSeen i ((nth s.way.recs 0).onRun + 1) s.slamSquare
        (vecWords 2 inp.v))) (mark := (eventAt (i / 8) (i % 8)).1) (off := (eventAt (i / 8) (i % 8)).2)
        (inst := i) (ws := gWord s.slamSquare slamG :: vecWords 2 inp.v) he (by simpa using hzero)
        (by simp only [State.onRec_recs, nth_modify_same hzero, hold, hheld]) hinto
      simp only [State.onRec_recs, nth_modify_same hzero] at hlast
      simpa only [RecSt.slamSeen, show at_ 0 28 = 0 from rfl, Nat.zero_add, Nat.add_zero] using hlast
  · obtain ⟨hat, hheave, hother⟩ := doCrest_takes he hdisp hruns (by omega) hseen hgood
    exact ⟨hat, hheave, hother, doCrest_frame s⟩

/-! ### The onsets of DROP, CAPSIZE, TILT and DRIFT (R177) -/

/-- What an onset of recogniser r at instant j comes to, whatever was noted of r in the step before it. -/
theorem onset_of_eq {s t : State} {r mark off j : Nat} {ws : List Word} {e : Recog} {f : RecSt → RecSt}
    (heq : t = (s.onRec r f).onset r mark off j ws) (he : s.recogOf r = some e) (hr : r < s.way.recs.length) :
    (nth t.way.recs r).active = true ∧ (nth t.way.recs r).onsetAt = j ∧
      ∀ k, k ≠ r → nth t.way.recs k = nth s.way.recs k := by
  rw [heq, State.onRec_onset_same he hr]
  exact ⟨by simp, by simp, fun k hk => State.onRec_onset_ne he hk⟩

theorem doDrop_frame (s : State) : OnlyWrites [.cw, .mot, .way, .attn] s (doDrop s) :=
  ⟨by simp, fun p hp => by cases p <;> simp_all [Part.same]⟩

theorem doCapsize_frame (s : State) : OnlyWrites [.cw, .mot, .way, .attn] s (doCapsize s) :=
  ⟨by simp, fun p hp => by cases p <;> simp_all [Part.same]⟩

theorem doTilt_frame (s : State) : OnlyWrites [.cw, .mot, .way, .attn] s (doTilt s) :=
  ⟨by simp, fun p hp => by cases p <;> simp_all [Part.same]⟩

theorem doDrift_frame (s : State) : OnlyWrites [.cw, .mot, .way, .attn] s (doDrift s) :=
  ⟨by simp, fun p hp => by cases p <;> simp_all [Part.same]⟩

section
variable {s : State} {e : Recog} {q : Nat}

/-- DROP's onset: DROP_T below the threshold at the common instants. -/
theorem doDrop_onset {i : Nat} {inp : Inp} (he : s.recogOf 2 = some e) (hi : s.mot.last = some i)
    (hinp : (nth s.mot.hist 0)[i % 8]? = some inp) (hruns : s.recRuns 2 = true) (hlen : 2 < s.way.recs.length)
    (hseen : (nth s.way.recs 2).seenAt ≠ some (i - i % 8)) (hok : inp.ok = true) (hidle : (nth s.way.recs 2).active = false)
    (hlow : reaches (squares inp.v) accAG (nth e.w 0) 1 1 = false)
    (hlong : marksReach ((nth s.way.recs 2).onRun + 1) (nth e.w 1).toNat = true) :
    ∃ f mark off ws, doDrop s = (s.onRec 2 f).onset 2 mark off (i - i % 8) ws := by
  simp only [doDrop, he, hi, hinp, hruns, Bool.true_and, bne_iff_ne, ne_eq, hseen, not_false_eq_true, if_true, hok,
    State.onRec_recs, nth_modify_same hlen, hidle, Bool.false_eq_true, if_false, State.dropIdle, runOf, hlow, Bool.not_false,
    hlong, State.onRec_onRec]
  exact ⟨_, _, _, _, rfl⟩

/-- CAPSIZE's onset: CAPS_T with the mean of Z at the threshold. -/
theorem doCapsize_onset (he : s.recogOf 3 = some e) (hq : s.prod.lastIn = some q) (hruns : s.recRuns 3 = true)
    (hmark : q % 64 = 0) (hlen : 3 < s.way.recs.length) (hseen : (nth s.way.recs 3).seenAt ≠ some q)
    (husable : s.inputUsable 20 = true) (hidle : (nth s.way.recs 3).active = false)
    (hmean : f32Int (nth e.w 0) * (accAG * (meanZ s.prod.inputs 256).2 : Nat) ≤ (meanZ s.prod.inputs 256).1 * 2 ^ 149)
    (hlong : 16 * (nth e.w 1).toNat ≤ (nth s.way.recs 3).onRun + 1) :
    ∃ f mark off ws, doCapsize s = (s.onRec 3 f).onset 3 mark off (8 * q) ws := by
  simp only [doCapsize, he, hq, hruns, hmark, Bool.true_and, beq_self_eq_true, bne_iff_ne, ne_eq, hseen, not_false_eq_true,
    if_true, State.onRec_recs, nth_modify_same hlen, hidle, Bool.false_eq_true, if_false, State.onRec_inputUsable, husable,
    State.capsizeValue, State.onRec_prod, runOf, decide_eq_true hmean, hlong, State.onRec_onRec]
  exact ⟨_, _, _, _, rfl⟩

/-- TILT's onset: the tilt of the mean over TILT_WIN above its limit, while CAPSIZE is not active. -/
theorem doTilt_onset (he : s.recogOf 4 = some e) (hq : s.prod.lastIn = some q) (hruns : s.recRuns 4 = true)
    (hmark : q % 1024 = 0) (hlen : 4 < s.way.recs.length) (hseen : (nth s.way.recs 4).seenAt ≠ some q)
    (husable : s.inputUsable 20 = true) (hcaps : (nth s.way.recs 3).active = false)
    (hfull : (nth e.w 2).toNat * 256 ≤ s.prod.inputs.length) (hidle : (nth s.way.recs 4).active = false)
    (htilt : f32Lt (nth e.w 0) (tiltOf (meanForce s.prod.inputs ((nth e.w 2).toNat * 256))) = true) :
    ∃ f mark off ws, doTilt s = (s.onRec 4 f).onset 4 mark off (8 * q) ws := by
  simp only [doTilt, he, hq, hruns, hmark, Bool.true_and, beq_self_eq_true, bne_iff_ne, ne_eq, hseen, not_false_eq_true,
    if_true, State.onRec_recs, nth_modify_same hlen, nth_modify_ne _ (show 3 ≠ 4 by decide), hcaps, hidle, Bool.false_eq_true,
    if_false, Bool.not_false, Bool.and_true, State.onRec_inputUsable, husable, State.onRec_prod, decide_eq_true_eq, hfull, htilt]
  exact ⟨_, _, _, _, rfl⟩

/-- DRIFT's onset: so many windows in a row with a statistic past its limit. -/
theorem doDrift_onset (he : s.recogOf 5 = some e) (hruns : s.recRuns 5 = true) (hwin : (nth e.w 0).toNat ≠ 0)
    (hmark : s.mark % ((nth e.w 0).toNat * 1024) = 0) (hpos : s.mark ≠ 0) (hlen : 5 < s.way.recs.length)
    (hseen : (nth s.way.recs 5).seenAt ≠ some s.mark) (husable : s.inputUsable 24 = true)
    (hfull : (nth e.w 0).toNat * 1024 / 4 ≤ s.prod.inputs.length) (hidle : (nth s.way.recs 5).active = false)
    (hfailed : (driftStats e s.prod.inputs s.mark).2 ≠ 0) (hlong : (nth e.w 5).toNat ≤ (nth s.way.recs 5).onRun + 1) :
    ∃ f mark off ws, doDrift s = (s.onRec 5 f).onset 5 mark off (8 * s.mark) ws := by
  have hwin' : (nth e.w 0).toNat * 1024 ≠ 0 := by omega
  simp only [doDrift, he, hruns, hmark, Bool.true_and, Bool.and_true, beq_self_eq_true, bne_iff_ne, ne_eq, hwin', hpos, hseen,
    not_false_eq_true, Bool.and_eq_true, and_self, decide_eq_true_eq, hfull, if_true, State.onRec_recs,
    nth_modify_same hlen, hidle, Bool.false_eq_true, if_false, State.onRec_inputUsable, husable,
    State.onRec_prod, hfailed, runOf, hlong, State.onRec_onRec]
  exact ⟨_, _, _, _, rfl⟩

end

/-- Settles O35: each of the four commands is an onset of the state in which the recogniser has seen its input. -/
theorem recognisersOnset : Obligations.RecognisersOnset := by
  unfold Obligations.RecognisersOnset
  refine ⟨fun s e i inp he hi hinp hruns hlen hseen hok hidle hlow hlong => ⟨_, rfl, ?_⟩,
    fun s e q he hq hruns hmark hlen hseen husable hidle hmean hlong => ⟨_, rfl, ?_⟩,
    fun s e q he hq hruns hmark hlen hseen husable hcaps hfull hidle htilt => ⟨_, rfl, ?_⟩,
    fun s e he hruns hwin hmark hpos hlen hseen husable hfull hidle hfailed hlong => ⟨_, rfl, ?_⟩⟩
  · obtain ⟨f, mark, off, ws, heq⟩ := doDrop_onset he hi hinp hruns (by omega) hseen hok hidle hlow hlong
    obtain ⟨hactive, hat, hother⟩ := onset_of_eq heq he (by omega)
    exact ⟨hactive, hat, hother, doDrop_frame s⟩
  · obtain ⟨f, mark, off, ws, heq⟩ := doCapsize_onset he hq hruns hmark (by omega) hseen husable hidle hmean hlong
    obtain ⟨hactive, hat, hother⟩ := onset_of_eq heq he (by omega)
    exact ⟨hactive, hat, hother, doCapsize_frame s⟩
  · obtain ⟨f, mark, off, ws, heq⟩ := doTilt_onset he hq hruns hmark (by omega) hseen husable hcaps hfull hidle htilt
    obtain ⟨hactive, hat, hother⟩ := onset_of_eq heq he (by omega)
    exact ⟨hactive, hat, hother, doTilt_frame s⟩
  · obtain ⟨f, mark, off, ws, heq⟩ := doDrift_onset he hruns hwin hmark hpos (by omega) hseen husable hfull hidle hfailed hlong
    obtain ⟨hactive, hat, hother⟩ := onset_of_eq heq he (by omega)
    exact ⟨hactive, hat, hother, doDrift_frame s⟩

/-! ### An event pass (R189–R191) -/

/-- From s to t, as the actions of a pass may leave it: the events that wait, the events offered, the recognisers and the marks
issued are as they were, and no engine comes or goes. -/
def State.passKeeps (s t : State) : Prop :=
  t.way.evq = s.way.evq ∧ t.way.carried = s.way.carried ∧ t.way.recs = s.way.recs ∧
  t.way.eng.length = s.way.eng.length ∧ t.time.issued = s.time.issued

theorem State.passKeeps_trans {s t u : State} (hst : s.passKeeps t) (htu : t.passKeeps u) : s.passKeeps u := by
  obtain ⟨hevq, hcarried, hrecs, heng, hissued⟩ := hst
  obtain ⟨hevq', hcarried', hrecs', heng', hissued'⟩ := htu
  exact ⟨hevq'.trans hevq, hcarried'.trans hcarried, hrecs'.trans hrecs, heng'.trans heng, hissued'.trans hissued⟩

theorem State.passKeeps_of_way {s t : State} (hway : t.way = s.way) (htime : t.time = s.time) : s.passKeeps t := by
  simp [State.passKeeps, hway, htime]

theorem State.onEng_passKeeps (s : State) (e : Nat) (f : WmSt → WmSt) : s.passKeeps (s.onEng e f) := by
  simp [State.passKeeps, State.onEng]

theorem State.writePacket_passKeeps (s : State) (p : Packet) : s.passKeeps (s.writePacket p) := by
  have hnote (p : Packet) : s.passKeeps (s.noteProd p) := by
    unfold State.noteProd; split <;> exact ⟨rfl, rfl, rfl, rfl, rfl⟩
  unfold State.writePacket
  dsimp only
  split
  · split <;> exact hnote _
  · exact ⟨rfl, rfl, rfl, rfl, rfl⟩

/-- Whatever an action does, it offers no event and takes none. -/
theorem State.act_passKeeps (s : State) (c : ActCtx) (a : Word × Word) : s.passKeeps (s.act c a) := by
  unfold State.act
  dsimp only
  split
  · -- EMIT
    unfold State.actEmit
    dsimp only
    split
    · exact State.onEng_passKeeps _ _ _
    · exact State.passKeeps_trans (State.onEng_passKeeps _ _ _) (State.writePacket_passKeeps _ _)
  · -- HOLD
    unfold State.actHold
    dsimp only
    split
    · exact State.writePacket_passKeeps _ _
    · exact State.passKeeps_trans (t := { s with cw := _, free := _, way := { s.way with regions := _ } }) ⟨rfl, rfl, rfl, rfl, rfl⟩
        (State.writePacket_passKeeps _ _)
  · exact State.onEng_passKeeps _ _ _
  · -- LAUNCH
    unfold State.actLaunch
    split <;> exact ⟨rfl, rfl, rfl, rfl, rfl⟩
  · exact State.passKeeps_of_way (by simp) (by simp)
  · exact ⟨rfl, rfl, rfl, rfl, rfl⟩
  · -- CALL
    unfold State.actCall
    split
    · exact State.writePacket_passKeeps _ _
    · exact ⟨rfl, rfl, rfl, rfl, rfl⟩
  · exact ⟨rfl, rfl, rfl, rfl, rfl⟩
  · -- PHRASE
    unfold State.actPhrase
    split
    next t ht =>
      unfold State.startPhrase at ht
      split at ht
      · split at ht
        · cases ht
        · cases ht
          exact State.passKeeps_of_way (by simp) (by simp)
      · cases ht
    next => exact State.writePacket_passKeeps _ _
  · exact ⟨rfl, rfl, rfl, rfl, rfl⟩

theorem State.foldl_passKeeps {α : Type} (l : List α) (f : State → α → State)
    (hf : ∀ (s : State) (x : α), s.passKeeps (f s x)) (s : State) :
    s.passKeeps (l.foldl f s) := by
  induction l generalizing s with
  | nil => exact ⟨rfl, rfl, rfl, rfl, rfl⟩
  | cons x l ih => exact State.passKeeps_trans (hf s x) (ih _)

theorem State.engineStep_passKeeps (s : State) (w : Waymarks) (ev : Option (List Word)) (en : WmEngine) :
    s.passKeeps (s.engineStep w ev en) := by
  unfold State.engineStep
  dsimp only
  split
  · exact ⟨rfl, rfl, rfl, rfl, rfl⟩
  · exact State.passKeeps_trans (State.foldl_passKeeps _ _ (fun s j => State.act_passKeeps s _ _) _) (State.onEng_passKeeps _ _ _)

theorem State.pass_passKeeps (s : State) (ev : Option (List Word)) : s.passKeeps (s.pass ev) := by
  unfold State.pass
  split
  · exact ⟨rfl, rfl, rfl, rfl, rfl⟩
  · exact State.foldl_passKeeps _ _ (fun s en => State.engineStep_passKeeps s _ ev en) _

/-- The engine whose first slot that holds has a transition is in its next state, and its timer starts at this mark. -/
theorem State.engineStep_taken {s : State} {w : Waymarks} {ev : Option (List Word)} {en : WmEngine} {k : Nat} {tr : WmTrans}
    (hen : en.engine < s.way.eng.length) (hpick : s.pickSlot w ev en (nth s.way.eng en.engine).st = some (k, tr)) :
    (nth (s.engineStep w ev en).way.eng en.engine).st = tr.next ∧
      (nth (s.engineStep w ev en).way.eng en.engine).timer = s.time.issued := by
  simp only [State.engineStep, hpick]
  have hacts (l : List Nat) (c : Nat → ActCtx) := State.foldl_passKeeps l
    (fun s j => s.act (c j) (nth w.acts (tr.actFirst + j))) (fun s j => State.act_passKeeps s _ _) s
  obtain ⟨-, -, -, hlen, hissued⟩ := hacts (List.range tr.actN) fun j =>
    { eng := en, from_ := (nth s.way.eng en.engine).st, dest := tr.next, slot := k, index := tr.actFirst + j, ev := ev }
  simp only [State.onEng]
  rw [nth_modify_same (by rw [hlen]; exact hen)]
  exact ⟨rfl, hissued⟩

theorem doEventPass_frame (s : State) : OnlyWrites [.free, .time, .cw, .way, .fe, .attn, .pin] s (doEventPass s) :=
  ⟨by simp, fun p hp => by cases p <;> simp_all [Part.same]⟩

/-- Settles O36: the actions of a pass leave the event queue and the recognisers, and the one engine of the pass its transition. -/
theorem eventsOffered : Obligations.EventsOffered := by
  unfold Obligations.EventsOffered
  refine ⟨fun s e rest hq hrun hawake hcount => ⟨_, rfl, ?_⟩, fun s hfull => ?_⟩
  · have heq : doEventPass s = { s with way := { s.way with evq := rest, carried := s.way.carried + 1 } }.pass (some e) := by
      simp only [doEventPass, hq, hrun, hawake, decide_eq_true hcount, Bool.and_self, if_true]
    have hframe := doEventPass_frame s
    rw [heq] at hframe ⊢
    obtain ⟨hevq, hcarried, hrecs, -, -⟩ :=
      State.pass_passKeeps { s with way := { s.way with evq := rest, carried := s.way.carried + 1 } } (some e)
    refine ⟨hevq, hcarried, hrecs, fun w en k tr hw hen hlen hpick => ?_, hframe⟩
    have hpass : { s with way := { s.way with evq := rest, carried := s.way.carried + 1 } }.pass (some e) =
        { s with way := { s.way with evq := rest, carried := s.way.carried + 1 } }.engineStep w (some e) en := by
      have hwm : { s with way := { s.way with evq := rest, carried := s.way.carried + 1 } }.wm = some w := hw
      have hruns : w.engines.filter (State.engRuns { s with way := { s.way with evq := rest, carried := s.way.carried + 1 } }) = [en] := hen
      simp only [State.pass, hwm, hruns, List.foldl_cons, List.foldl_nil]
    rw [hpass]
    exact State.engineStep_taken hlen hpick
  · have hnot : decide (s.way.carried < 32) = false := by simpa using hfull
    have heq : doEventPass s = s := by
      unfold doEventPass
      split <;> simp [hnot]
    exact congrArg Host.Outcome.next heq

end Sys2Proof.Machine
end

section
/-! PROOFS. The pin engines (19_pin_engines.md R486–R497): what an instruction leaves in its engine, the pads and the flags. -/

namespace Sys2Proof.Machine

/-! ### Masks -/

theorem maskOf_succ (n : Nat) (f : Nat → Bool) : maskOf (n + 1) f = maskOf n f + b2n (f n) * 2 ^ n := by
  simp [maskOf, List.range_succ]

theorem maskOf_lt (n : Nat) (f : Nat → Bool) : maskOf n f < 2 ^ n := by
  induction n with
  | zero => simp [maskOf]
  | succ n ih =>
    rw [maskOf_succ]
    cases f n <;> simp [b2n] <;> omega

theorem testBit_maskOf (n i : Nat) (f : Nat → Bool) : (maskOf n f).testBit i = (decide (i < n) && f i) := by
  induction n with
  | zero => simp [maskOf]
  | succ n ih =>
    rw [maskOf_succ, Nat.add_comm, Nat.mul_comm, Nat.testBit_two_pow_mul_add _ (maskOf_lt n f), ih]
    split
    next hlt => simp [hlt, Nat.lt_succ_of_lt hlt]
    next hge =>
      by_cases heq : i = n
      · subst heq
        cases f i <;> simp [b2n]
      · have hgt : ¬ i < n + 1 := by omega
        have hbit : (b2n (f n)).testBit (i - n) = false := by
          obtain ⟨k, hk⟩ : ∃ k, i - n = k + 1 := ⟨i - n - 1, by omega⟩
          rw [hk, Nat.testBit_succ]
          cases f n <;> simp [b2n]
        simp [hgt, hbit]

theorem getLsbD_ofNat_maskOf {n i : Nat} (hi : i < n) (f : Nat → Bool) : (BitVec.ofNat n (maskOf n f)).getLsbD i = f i := by
  rw [BitVec.getLsbD_ofNat, testBit_maskOf]
  simp [hi]

/-! ### One engine changed -/

@[simp] theorem State.onPin_level (s : State) (e : Nat) (f : PinSt → PinSt) : (s.onPin e f).pin.level = s.pin.level := rfl
@[simp] theorem State.onPin_dir (s : State) (e : Nat) (f : PinSt → PinSt) : (s.onPin e f).pin.dir = s.pin.dir := rfl
@[simp] theorem State.onPin_flags (s : State) (e : Nat) (f : PinSt → PinSt) : (s.onPin e f).pin.flags = s.pin.flags := rfl
@[simp] theorem State.onPin_pad (s : State) (e : Nat) (f : PinSt → PinSt) : (s.onPin e f).pin.pad = s.pin.pad := rfl

/-- Two changes of one engine are one. -/
theorem State.onPin_onPin (s : State) (e : Nat) (f g : PinSt → PinSt) : (s.onPin e f).onPin e g = s.onPin e (g ∘ f) := by
  simp [State.onPin, List.modify_modify_eq]

theorem State.nth_onPin_same {s : State} {e : Nat} {st : PinSt} (h : s.pin.eng[e]? = some st) (f : PinSt → PinSt) :
    nth (s.onPin e f).pin.eng e = f st := nth_of_getElem? (by simp [h])

theorem State.nth_onPin_ne (s : State) {e i : Nat} (hi : i ≠ e) (f : PinSt → PinSt) :
    nth (s.onPin e f).pin.eng i = nth s.pin.eng i := nth_modify_ne _ hi f

/-! ### Pads and counters: SET, OUT and MOV (R488, R491) -/

section
variable {s : State} {e w : Nat} {en : PinEng} {st : PinSt}

theorem doPinSet_eq (h : s.fetchPin e 1 = some (en, st, w)) :
    doPinSet e s = { s with pin := { s.pin with
        level := if sfld w 11 9 = 0 then putPads s.pin.level en.setBase en.setCount (sfld w 8 3) else s.pin.level
        dir := if sfld w 11 9 = 1 then putPads s.pin.dir en.setBase en.setCount (sfld w 8 3) else s.pin.dir } }.onPin e fun st =>
      { st with pc := nextPc en st.pc, stall := 0
                c0 := if sfld w 11 9 = 2 then word (sfld w 8 3) else st.c0
                c1 := if sfld w 11 9 = 3 then word (sfld w 8 3) else st.c1 } := by
  simp only [doPinSet, h, State.stepPin]
  generalize sfld w 11 9 = kind
  match kind with
  | 0 | 1 => rfl
  | 2 | 3 => exact State.onPin_onPin _ _ _ _
  | _ + 4 => simp

theorem doPinOut_eq (h : s.fetchPin e 2 = some (en, st, w)) :
    doPinOut e s = { s with pin := { s.pin with
        level := if sfld w 11 9 = 0 then
            putPads s.pin.level en.outBase (min (sfld w 8 3) en.outCount) (shiftOut en.outRight st.osr (sfld w 8 3)).2.1
          else s.pin.level
        dir := if sfld w 11 9 = 1 then
            putPads s.pin.dir en.outBase (min (sfld w 8 3) en.outCount) (shiftOut en.outRight st.osr (sfld w 8 3)).2.1
          else s.pin.dir } }.onPin e fun x =>
      { x with pc := nextPc en x.pc, stall := 0
               osr := (shiftOut en.outRight st.osr (sfld w 8 3)).2.2, osrN := x.osrN - sfld w 8 3
               c0 := if sfld w 11 9 = 2 then word (shiftOut en.outRight st.osr (sfld w 8 3)).1 else x.c0
               c1 := if sfld w 11 9 = 3 then word (shiftOut en.outRight st.osr (sfld w 8 3)).1 else x.c1 } := by
  simp only [doPinOut, h, State.stepPin]
  generalize sfld w 11 9 = kind
  match kind with
  | 0 | 1 => exact State.onPin_onPin _ _ _ _
  | 2 | 3 => simp only [State.onPin_onPin]; rfl
  | _ + 4 => simp only [State.onPin_onPin]; rfl

theorem doPinMov_eq (h : s.fetchPin e 8 = some (en, st, w)) :
    doPinMov e s = { s with pin := { s.pin with
        level := if sfld w 11 9 = 0 then
            putPads s.pin.level en.outBase en.outCount (movXform (sfld w 5 4) (movSource s.pin en st (sfld w 8 6))).toNat
          else s.pin.level } }.onPin e fun x =>
      { x with pc := nextPc en x.pc, stall := 0
               c0 := if sfld w 11 9 = 1 then movXform (sfld w 5 4) (movSource s.pin en st (sfld w 8 6)) else x.c0
               c1 := if sfld w 11 9 = 2 then movXform (sfld w 5 4) (movSource s.pin en st (sfld w 8 6)) else x.c1
               osr := if sfld w 11 9 = 3 then movXform (sfld w 5 4) (movSource s.pin en st (sfld w 8 6)) else x.osr
               osrN := if sfld w 11 9 = 3 then 32 else x.osrN
               isr := if sfld w 11 9 = 4 then movXform (sfld w 5 4) (movSource s.pin en st (sfld w 8 6)) else x.isr
               isrN := if sfld w 11 9 = 4 then 0 else x.isrN } := by
  simp only [doPinMov, h, State.stepPin]
  generalize sfld w 11 9 = kind
  match kind with
  | 0 => rfl
  | 1 | 2 | 3 | 4 => exact State.onPin_onPin _ _ _ _
  | _ + 5 => simp

end

/-! ### What each instruction writes -/

theorem doPinSet_frame (e : Nat) (s : State) : OnlyWrites [.pin] s (doPinSet e s) :=
  ⟨by simp, fun p hp => by cases p <;> simp_all [Part.same]⟩

theorem doPinOut_frame (e : Nat) (s : State) : OnlyWrites [.pin] s (doPinOut e s) :=
  ⟨by simp, fun p hp => by cases p <;> simp_all [Part.same]⟩

theorem doPinMov_frame (e : Nat) (s : State) : OnlyWrites [.pin] s (doPinMov e s) :=
  ⟨by simp, fun p hp => by cases p <;> simp_all [Part.same]⟩

/-- What a change of the pads and of one engine leaves: that engine, the other ones and the flags. -/
theorem State.nth_onPin_pads {s : State} {e : Nat} {st : PinSt} (h : s.pin.eng[e]? = some st) (level dir : BitVec 16)
    (f : PinSt → PinSt) :
    nth ({ s with pin := { s.pin with level := level, dir := dir } }.onPin e f).pin.eng e = f st ∧
      (∀ i, i ≠ e → nth ({ s with pin := { s.pin with level := level, dir := dir } }.onPin e f).pin.eng i = nth s.pin.eng i) :=
  ⟨State.nth_onPin_same h f, fun _ hi => State.nth_onPin_ne _ hi f⟩

/-- Settles O16: each of the three is one change of the pads and of the engine that executes it. -/
theorem pinsDrive : Obligations.PinsDrive := by
  unfold Obligations.PinsDrive
  refine ⟨fun e s en st w h => ⟨_, rfl, ?_⟩, fun e s en st w h => ⟨_, rfl, ?_⟩, fun e s en st w h => ⟨_, rfl, ?_⟩⟩
  · have hframe := doPinSet_frame e.val s
    rw [doPinSet_eq h] at hframe ⊢
    obtain ⟨hown, hother⟩ := State.nth_onPin_pads (State.engine_of_fetchPin h) _ _ _
    exact ⟨rfl, rfl, hown, hother, rfl, hframe⟩
  · have hframe := doPinOut_frame e.val s
    rw [doPinOut_eq h] at hframe ⊢
    obtain ⟨hown, hother⟩ := State.nth_onPin_pads (State.engine_of_fetchPin h) _ _ _
    exact ⟨rfl, rfl, hown, hother, rfl, hframe⟩
  · have hframe := doPinMov_frame e.val s
    rw [doPinMov_eq h] at hframe ⊢
    obtain ⟨hown, hother⟩ := State.nth_onPin_pads (State.engine_of_fetchPin h) _ s.pin.dir _
    exact ⟨rfl, rfl, hown, hother, rfl, hframe⟩

/-! ### Words: IN, PULL, PUSH and STAMP (R488, R494) -/

theorem doPinIn_frame (e : Nat) (s : State) : OnlyWrites [.pin] s (doPinIn e s) :=
  ⟨by simp, fun p hp => by cases p <;> simp_all [Part.same]⟩

theorem doPinPull_frame (e : Nat) (s : State) : OnlyWrites [.cw, .way, .pin] s (doPinPull e s) :=
  ⟨by simp, fun p hp => by cases p <;> simp_all [Part.same]⟩

theorem doPinPush_frame (e : Nat) (s : State) : OnlyWrites [.pin] s (doPinPush e s) :=
  ⟨by simp, fun p hp => by cases p <;> simp_all [Part.same]⟩

theorem doPinStamp_frame (dt e : Nat) (s : State) : OnlyWrites [.pin, .time] s (doPinStamp dt e s) :=
  ⟨by simp, fun p hp => by cases p <;> simp_all [Part.same]⟩

theorem doPinWait_frame (dt e : Nat) (s : State) : OnlyWrites [.pin, .time] s (doPinWait dt e s) :=
  ⟨by simp, fun p hp => by cases p <;> simp_all [Part.same]⟩

theorem doPinJmp_frame (e : Nat) (s : State) : OnlyWrites [.pin] s (doPinJmp e s) :=
  ⟨by simp, fun p hp => by cases p <;> simp_all [Part.same]⟩

theorem doPinFlag_frame (dt e : Nat) (s : State) : OnlyWrites [.pin, .time] s (doPinFlag dt e s) :=
  ⟨by simp, fun p hp => by cases p <;> simp_all [Part.same]⟩

/-- A change of one engine writes only the PIN island. -/
theorem onlyWrites_onPin (s : State) (e : Nat) (f : PinSt → PinSt) : OnlyWrites [.pin] s (s.onPin e f) :=
  ⟨rfl, fun p hp => by cases p <;> simp_all [Part.same, State.onPin]⟩

section
variable {s : State} {e w : Nat} {en : PinEng} {st : PinSt}

theorem doPinIn_eq (h : s.fetchPin e 3 = some (en, st, w)) :
    doPinIn e s = s.onPin e fun x =>
      { x with pc := nextPc en x.pc, stall := 0, isrN := min 32 (x.isrN + sfld w 8 3)
               isr := shiftIn en.inRight x.isr (sfld w 8 3)
                 (match sfld w 11 9 with
                   | 0 => s.pin.padBits en.inBase
                   | 1 => st.c0.toNat
                   | 2 => st.c1.toNat
                   | 4 => 2 ^ 32 - 1
                   | _ => 0) } := by
  simp only [doPinIn, h, State.stepPin, State.onPin_onPin]
  rfl

theorem doPinPull_full {x : Word} (h : s.fetchPin e 4 = some (en, st, w)) (hfull : st.txh = some x) :
    doPinPull e s = s.onPin e fun y => { y with pc := nextPc en y.pc, stall := 0, osr := x, osrN := 32, txh := none } := by
  simp only [doPinPull, h, hfull, State.stepPin, State.onPin_onPin]
  rfl

theorem doPinPush_empty (h : s.fetchPin e 5 = some (en, st, w)) (hempty : st.rxh = none) :
    doPinPush e s = s.onPin e fun x =>
      { x with pc := nextPc en x.pc, stall := 0, rxh := some (x.isr, false), isr := 0, isrN := 0 } := by
  simp only [doPinPush, h, hempty, State.stepPin, State.onPin_onPin]
  rfl

theorem doPinStamp_empty (dt : Nat) (h : s.fetchPin e 10 = some (en, st, w)) (hempty : st.rxh = none) :
    doPinStamp dt e s = (s.advance dt).onPin e fun x =>
      { x with pc := nextPc en x.pc, stall := 0, stampAt := none
               rxh := some (st.stampAt.getD (s.advance dt).stamp, true) } := by
  simp only [doPinStamp, State.fetchPin_advance, h, hempty, State.stepPin, State.onPin_onPin]
  rfl

end

/-- Settles O17: each of the four that can go on is one change of its engine. -/
theorem pinsMoveWords : Obligations.PinsMoveWords := by
  unfold Obligations.PinsMoveWords
  refine ⟨fun e s en st w h => ⟨_, rfl, ?_⟩, fun e s en st w x h hfull => ⟨_, rfl, ?_⟩,
    fun e s en st w h hempty => ⟨_, rfl, ?_⟩, fun dt e s en st w h hempty => ⟨_, rfl, ?_⟩⟩
  · rw [doPinIn_eq h]
    exact ⟨State.nth_onPin_same (State.engine_of_fetchPin h) _, fun i hi => State.nth_onPin_ne s hi _, rfl, rfl,
      onlyWrites_onPin s _ _⟩
  · rw [doPinPull_full h hfull]
    exact ⟨State.nth_onPin_same (State.engine_of_fetchPin h) _, fun i hi => State.nth_onPin_ne s hi _, rfl, rfl,
      onlyWrites_onPin s _ _⟩
  · rw [doPinPush_empty h hempty]
    exact ⟨State.nth_onPin_same (State.engine_of_fetchPin h) _, fun i hi => State.nth_onPin_ne s hi _, rfl, rfl,
      onlyWrites_onPin s _ _⟩
  · have hframe := doPinStamp_frame dt e.val s
    rw [doPinStamp_empty dt h hempty] at hframe ⊢
    exact ⟨State.nth_onPin_same (s := s.advance dt) (State.engine_of_fetchPin h) _,
      fun i hi => State.nth_onPin_ne (s.advance dt) hi _, hframe⟩

/-! ### WAIT, JMP and FLAG (R487–R490) -/

section
variable {s : State} {e w : Nat} {en : PinEng} {st : PinSt} (dt : Nat)

/-- WAIT on a pad (0) or a pin flag (1) looks at its level. -/
def Pin.waitLevel (p : Pin) (w : Nat) : Bool :=
  if sfld w 11 10 = 0 then p.pad (sfld w 8 5) else p.flags.getLsbD (sfld w 8 5)

theorem doPinWait_level (h : s.fetchPin e 6 = some (en, st, w)) (hkind : sfld w 11 10 = 0 ∨ sfld w 11 10 = 1) :
    doPinWait dt e s =
      if s.pin.waitLevel w = bitOf w 9 then (s.advance dt).stepPin e en
      else (s.advance dt).onPin e fun st => { st with stall := 3 } := by
  simp only [doPinWait, State.fetchPin_advance, h]
  rcases hkind with hkind | hkind <;> simp [hkind, Pin.waitLevel]

theorem doPinWait_grid {m : Nat} (h : s.fetchPin e 6 = some (en, st, w)) (hkind : 2 ≤ sfld w 11 10) (hgrid : st.gridAt = some m)
    (hpast : (s.advance dt).pastCommon m = true) :
    doPinWait dt e s = (s.advance dt).onPin e fun x => { x with pc := nextPc en x.pc, stall := 0, gridAt := none } := by
  obtain ⟨k, hk⟩ : ∃ k, sfld w 11 10 = k + 2 := ⟨sfld w 11 10 - 2, by omega⟩
  simp only [doPinWait, State.fetchPin_advance, h, hk, hgrid, hpast, if_true, State.stepPin, State.onPin_onPin]
  rfl

theorem doPinJmp_eq (h : s.fetchPin e 7 = some (en, st, w)) :
    doPinJmp e s = s.onPin e fun _ =>
      if (jmpTaken s.pin en st (sfld w 11 9)).1 then { (jmpTaken s.pin en st (sfld w 11 9)).2 with pc := sfld w 8 3 }
      else { (jmpTaken s.pin en st (sfld w 11 9)).2 with
        pc := nextPc en (jmpTaken s.pin en st (sfld w 11 9)).2.pc, stall := 0 } := by
  simp only [doPinJmp, h, State.stepPin, State.onPin_onPin]
  split
  · rfl
  · rfl

theorem doPinFlag_eq (h : s.fetchPin e 9 = some (en, st, w)) :
    doPinFlag dt e s =
      { s.advance dt with pin := s.pin.flagged ((s.advance dt).now / 10000) (sfld w 11 10, sfld w 9 7) }.stepPin e en := by
  simp only [doPinFlag, State.fetchPin_advance, h]
  rfl

end

theorem Pin.flagged_flags (p : Pin) (t : Nat) (act : Nat × Nat) :
    (p.flagged t act).flags =
      if p.flagEdge = some t then flagWord p.flagWas (p.flagActs ++ [act]) else flagWord p.flags [act] := by
  unfold Pin.flagged
  split <;> rfl

/-- One flag after the changes of an edge (R490). -/
theorem flagWord_getLsbD (flags : BitVec 8) (acts : List (Nat × Nat)) {i : Nat} (hi : i < 8) :
    (flagWord flags acts).getLsbD i =
      if (0, i) ∈ acts then true else if (1, i) ∈ acts then false else if (2, i) ∈ acts then !flags.getLsbD i
      else flags.getLsbD i := by
  rw [flagWord, getLsbD_ofNat_maskOf hi]
  simp only [List.contains_iff_mem]

/-- FLAG leaves the engine past itself, the others as they were. -/
theorem doPinFlag_engines {s : State} {e w : Nat} {en : PinEng} {st : PinSt} (dt : Nat)
    (h : s.fetchPin e 9 = some (en, st, w)) :
    nth (doPinFlag dt e s).pin.eng e = { st with pc := nextPc en st.pc, stall := 0 } ∧
      ∀ i, i ≠ e → nth (doPinFlag dt e s).pin.eng i = nth s.pin.eng i := by
  rw [doPinFlag_eq dt h]
  exact ⟨State.nth_onPin_same (s := { s.advance dt with pin := s.pin.flagged _ _ }) (State.engine_of_fetchPin h) _,
    fun i hi => State.nth_onPin_ne { s.advance dt with pin := s.pin.flagged _ _ } hi _⟩

theorem doPinFlag_flags {s : State} {e w : Nat} {en : PinEng} {st : PinSt} (dt : Nat)
    (h : s.fetchPin e 9 = some (en, st, w)) :
    (doPinFlag dt e s).pin.flags =
      if s.pin.flagEdge = some ((s.advance dt).now / 10000) then
        flagWord s.pin.flagWas (s.pin.flagActs ++ [(sfld w 11 10, sfld w 9 7)])
      else flagWord s.pin.flags [(sfld w 11 10, sfld w 9 7)] := by
  rw [doPinFlag_eq dt h, ← Pin.flagged_flags]
  rfl

/-- A JMP leaves PC where it was when it does not transfer control. -/
theorem jmpTaken_pc (p : Pin) (en : PinEng) (st : PinSt) (cond : Nat) : (jmpTaken p en st cond).2.pc = st.pc := by
  match cond with
  | 0 | 3 | 4 | 5 | 6 | _ + 7 => rfl
  | 1 | 2 => simp only [jmpTaken]; split <;> rfl

/-- Settles O18: WAIT, JMP and FLAG are one change of their engine; a flag's changes at one edge are decided in the order of R490. -/
theorem pinsBranch : Obligations.PinsBranch := by
  unfold Obligations.PinsBranch
  refine ⟨fun dt e s en st w h hlevel => ⟨_, rfl, ?_⟩, fun dt e s en st w m h hkind hgrid hpast => ⟨_, rfl, ?_⟩,
    fun e s en st w h => ⟨_, rfl, ?_⟩, fun dt e s en st w h hedge => ⟨_, rfl, ?_⟩, fun dt e s en st w h hedge => ⟨_, rfl, ?_⟩,
    fun flags acts i hi => ?_⟩
  · have hframe := doPinWait_frame dt e.val s
    have hmet : s.pin.waitLevel w = bitOf w 9 := by
      rcases hlevel with ⟨hkind, hlevel⟩ | ⟨hkind, hlevel⟩ <;> simp [Pin.waitLevel, hkind, hlevel]
    rw [doPinWait_level dt h (hlevel.imp And.left And.left), if_pos hmet] at hframe ⊢
    exact ⟨State.nth_onPin_same (s := s.advance dt) (State.engine_of_fetchPin h) _,
      fun i hi => State.nth_onPin_ne (s.advance dt) hi _, hframe⟩
  · have hframe := doPinWait_frame dt e.val s
    rw [doPinWait_grid dt h hkind hgrid hpast] at hframe ⊢
    exact ⟨State.nth_onPin_same (s := s.advance dt) (State.engine_of_fetchPin h) _, hframe⟩
  · rw [doPinJmp_eq h, jmpTaken_pc]
    exact ⟨State.nth_onPin_same (State.engine_of_fetchPin h) _, fun i hi => State.nth_onPin_ne s hi _, onlyWrites_onPin s _ _⟩
  · obtain ⟨hown, hother⟩ := doPinFlag_engines dt h
    exact ⟨by rw [doPinFlag_flags dt h, if_neg hedge], hown, hother, doPinFlag_frame dt e.val s⟩
  · obtain ⟨hown, hother⟩ := doPinFlag_engines dt h
    exact ⟨by rw [doPinFlag_flags dt h, if_pos hedge], hown, hother, doPinFlag_frame dt e.val s⟩
  · rw [flagWord_getLsbD flags acts hi]
    exact ⟨fun hset => if_pos hset, fun hset hclear => by rw [if_neg hset, if_pos hclear],
      fun hset hclear htoggle => by rw [if_neg hset, if_neg hclear, if_pos htoggle],
      fun hset hclear htoggle => by rw [if_neg hset, if_neg hclear, if_neg htoggle]⟩

/-! ### Receive packets (R496, R497) -/

/-- What is left of an engine when its open receive packet closes. -/
def PinSt.rxClosed (st : PinSt) : PinSt :=
  match st.rx with
  | none => st
  | some r =>
    { st with rx := none, seq := if r.data.isEmpty && r.stamp == 0xFFFFFFFF then st.seq else (st.seq + 1) % 65536 }

theorem State.closeRx_engine {s : State} {e cause : Nat} {en : PinEng} {st : PinSt} (hen : s.pinEntry e = some en)
    (hst : s.pin.eng[e]? = some st) : (s.closeRx e cause).pin.eng[e]? = some st.rxClosed := by
  cases hrx : st.rx with
  | none => simp only [State.closeRx, PinSt.rxClosed, hen, hst, hrx]
  | some r =>
    simp only [State.closeRx, PinSt.rxClosed, hen, hst, hrx]
    split <;> simp [hst]

theorem State.entry_of_fetchPin {s : State} {e op w : Nat} {en : PinEng} {st : PinSt}
    (h : s.fetchPin e op = some (en, st, w)) : s.pinEntry e = some en := by
  unfold State.fetchPin at h
  split at h
  case h_1 en' st' hen _ =>
    obtain ⟨-, hfetched⟩ := Option.ite_none_right_eq_some.mp h
    cases hfetched
    exact hen
  case h_2 => cases h

@[simp] theorem PinSt.rxClosed_pc (st : PinSt) : st.rxClosed.pc = st.pc := by
  unfold PinSt.rxClosed; split <;> rfl
@[simp] theorem PinSt.rxClosed_rx (st : PinSt) : st.rxClosed.rx = none := by
  unfold PinSt.rxClosed
  split
  · assumption
  · rfl

/-! ### Stalls (R486) -/

section
variable {s : State} {e w : Nat} {en : PinEng} {st : PinSt}

theorem doPinPull_stalls (h : s.fetchPin e 4 = some (en, st, w)) (hempty : st.txh = none) (hphrase : st.phrase = none) :
    doPinPull e s = s.onPin e fun st => { st with stall := 1 } := by
  simp only [doPinPull, h, hempty, hphrase]

theorem doPinPull_phraseEnds {p i : Nat} (h : s.fetchPin e 4 = some (en, st, w)) (hempty : st.txh = none)
    (hphrase : st.phrase = some (p, i)) (hend : (s.phraseWords p).length ≤ i) :
    doPinPull e s = ((s.onPin e fun st => { st with stall := 1 }).closeRx e 3).onPin e fun st => { st with phrase := none } := by
  have hend' : ((s.onPin e fun st => { st with stall := 1 }).phraseWords p).length ≤ i := hend
  simp only [doPinPull, h, hempty, hphrase, hend', if_true]

theorem doPinPush_stalls {x : Word × Bool} (h : s.fetchPin e 5 = some (en, st, w)) (hfull : st.rxh = some x) :
    doPinPush e s = s.onPin e fun st => { st with stall := 2 } := by
  simp only [doPinPush, h, hfull]

theorem doPinStamp_stalls {x : Word × Bool} (dt : Nat) (h : s.fetchPin e 10 = some (en, st, w)) (hfull : st.rxh = some x) :
    doPinStamp dt e s = (s.advance dt).onPin e fun x =>
      { x with stall := 4, stampAt := some (st.stampAt.getD (s.advance dt).stamp) } := by
  simp only [doPinStamp, State.fetchPin_advance, h, hfull]

end

/-- Settles O19: a stall changes only STALL, and what STAMP keeps; the end of a phrase closes the receive packet. -/
theorem pinsStall : Obligations.PinsStall := by
  unfold Obligations.PinsStall
  refine ⟨fun e s en st w h hempty hphrase => ⟨_, rfl, ?_⟩, fun e s en st w p i h hempty hphrase hend => ⟨_, rfl, ?_⟩,
    fun e s en st w x h hfull => ⟨_, rfl, ?_⟩, fun dt e s en st w x h hfull => ⟨_, rfl, ?_⟩,
    fun dt e s en st w h hlevel => ⟨_, rfl, ?_⟩⟩
  · have hframe := doPinPull_frame e.val s
    rw [doPinPull_stalls h hempty hphrase] at hframe ⊢
    exact ⟨State.nth_onPin_same (State.engine_of_fetchPin h) _, hframe⟩
  · have hframe := doPinPull_frame e.val s
    rw [doPinPull_phraseEnds h hempty hphrase hend] at hframe ⊢
    have hstalled : (s.onPin e.val fun st => { st with stall := 1 }).pin.eng[e.val]? = some { st with stall := 1 } := by
      simp [State.engine_of_fetchPin h]
    have hentry : (s.onPin e.val fun st => { st with stall := 1 }).pinEntry e.val = some en := State.entry_of_fetchPin (s := s) h
    rw [State.nth_onPin_same (State.closeRx_engine (en := en) hentry hstalled)]
    exact ⟨rfl, PinSt.rxClosed_pc _, PinSt.rxClosed_rx _, hframe⟩
  · rw [doPinPush_stalls h hfull]
    exact ⟨State.nth_onPin_same (State.engine_of_fetchPin h) _, onlyWrites_onPin s _ _⟩
  · have hframe := doPinStamp_frame dt e.val s
    rw [doPinStamp_stalls dt h hfull] at hframe ⊢
    exact ⟨State.nth_onPin_same (s := s.advance dt) (State.engine_of_fetchPin h) _, hframe⟩
  · have hframe := doPinWait_frame dt e.val s
    have hnot : ¬ s.pin.waitLevel w = bitOf w 9 := by
      rcases hlevel with ⟨hkind, hlevel⟩ | ⟨hkind, hlevel⟩ <;> simpa [Pin.waitLevel, hkind] using hlevel
    rw [doPinWait_level dt h (hlevel.imp And.left And.left), if_neg hnot] at hframe ⊢
    exact ⟨State.nth_onPin_same (s := s.advance dt) (State.engine_of_fetchPin h) _, hframe⟩

/-! ### The dispatcher and the pads (R484, R486, R493, R497) -/

theorem doTxhFill_eq {s : State} {e p i : Nat} {st : PinSt} {w : Word} (hst : s.pin.eng[e]? = some st) (hempty : st.txh = none)
    (hphrase : st.phrase = some (p, i)) (hw : (s.phraseWords p)[i]? = some w) :
    doTxhFill e s = s.onPin e fun st => { st with txh := some w, phrase := some (p, i + 1) } := by
  simp only [doTxhFill, hst, hempty, hphrase, hw]

theorem doRxhDrain_joins {s : State} {e : Nat} {en : PinEng} {st : PinSt} {r : RxPkt} {w : Word}
    (hen : s.pinEntry e = some en) (hst : s.pin.eng[e]? = some st) (hrxh : st.rxh = some (w, false)) (hrx : st.rx = some r)
    (hroom : r.data.length + 1 < en.rxMax) :
    ∃ f : PinSt → PinSt, doRxhDrain e s = s.onPin e f ∧
      f st = { st with rxh := none, rx := some { r with data := r.data ++ [w], lastMark := s.time.issued } } := by
  have hshort : ¬ en.rxMax ≤ (r.data ++ [w]).length := by simp; omega
  simp only [doRxhDrain, State.drainRx, hen, hst, hrxh, State.onPin_engine, Option.map_some, Option.bind_some, hrx, hshort,
    if_false]
  exact ⟨_, rfl, by simp only [hrx]⟩

theorem doRxIdleClose_eq {s : State} {e : Nat} {en : PinEng} {st : PinSt} {r : RxPkt} (hen : s.pinEntry e = some en)
    (hst : s.pin.eng[e]? = some st) (hrx : st.rx = some r) (hidle : en.rxIdle ≠ 0)
    (hdue : r.lastMark + en.rxIdle ≤ s.time.issued) : doRxIdleClose e s = s.closeRx e 4 := by
  simp only [doRxIdleClose, hen, hst, Option.bind_some, hrx, ne_eq, hidle, not_false_eq_true, hdue, and_self, if_true]

theorem doReservedOpHalt_eq {s : State} {e : Nat} {en : PinEng} {st : PinSt} (hen : s.pinEntry e = some en)
    (hst : s.pin.eng[e]? = some st) (hrun : st.run = .running) (hop : opReserved (opOf (s.storeWord st.pc)) = true) :
    doReservedOpHalt e s = (s.onPin e fun st => { st with run := .halted, phrase := none, txh := none, stall := 0 }).writePacket
      (s.abortRec e 3 st) := by
  have hcond : (st.run == .running && (s.pinEntry e).isSome && opReserved (opOf (s.storeWord st.pc))) = true := by
    simp [hrun, hen, hop]
  simp only [doReservedOpHalt, hst, hcond, if_true]

theorem putPads_getLsbD (old : BitVec 16) (base count v : Nat) {n : Nat} (hn : n < 16) :
    (putPads old base count v).getLsbD n =
      if base ≤ n ∧ n < base + count then bitOf v (n - base) else old.getLsbD n := by
  rw [putPads, getLsbD_ofNat_maskOf hn]

@[simp] theorem State.outside_dir (s : State) (pad : Nat) (high : Bool) : (s.outside pad high).pin.dir = s.pin.dir := by
  rw [State.outside]
@[simp] theorem State.outside_level (s : State) (pad : Nat) (high : Bool) : (s.outside pad high).pin.level = s.pin.level := by
  rw [State.outside]
@[simp] theorem State.outside_input (s : State) (pad : Nat) (high : Bool) :
    (s.outside pad high).pin.input = putPads s.pin.input pad 1 (b2n high) := by
  rw [State.outside]

/-- The level outside one pad, the others as they were. -/
theorem State.outside_pad {s : State} {pad : Nat} (high : Bool) (hin : s.pin.dir.getLsbD pad = false) (hpad : pad < 16) :
    (s.outside pad high).pin.pad pad = high ∧
      ∀ n, n < 16 → n ≠ pad → (s.outside pad high).pin.pad n = s.pin.pad n := by
  refine ⟨?_, fun n hn hne => ?_⟩
  · rw [Pin.pad, State.outside_dir, hin, if_neg Bool.false_ne_true, State.outside_input, putPads_getLsbD _ _ _ _ hpad,
      if_pos ⟨Nat.le_refl pad, Nat.lt_succ_self pad⟩]
    cases high <;> simp [bitOf, b2n]
  · rw [Pin.pad, State.outside_dir, State.outside_level, State.outside_input, putPads_getLsbD _ _ _ _ hn,
      if_neg (show ¬ (pad ≤ n ∧ n < pad + 1) by omega), Pin.pad]

/-- Engines that go on leave the pads. -/
theorem State.foldl_stepPin_pad (l : List Nat) (pick : State → Nat → Option PinEng) (s : State) :
    (l.foldl (fun s e => match pick s e with | some en => s.stepPin e en | none => s) s).pin.pad = s.pin.pad := by
  induction l generalizing s with
  | nil => rfl
  | cons e l ih =>
    rw [List.foldl_cons, ih]
    split <;> rfl

theorem doPadLevelChange_pad (pad : Nat) (high : Bool) (s : State) :
    (doPadLevelChange pad high s).pin.pad = (s.outside pad high).pin.pad := by
  unfold doPadLevelChange
  dsimp only
  split
  · exact State.foldl_stepPin_pad _ (fun s e => s.waitsPad e pad high) _
  · rfl

theorem doRxIdleClose_frame (e : Nat) (s : State) : OnlyWrites [.cw, .way, .pin] s (doRxIdleClose e s) :=
  ⟨by simp, fun p hp => by cases p <;> simp_all [Part.same]⟩

theorem doReservedOpHalt_frame (e : Nat) (s : State) : OnlyWrites [.cw, .way, .pin] s (doReservedOpHalt e s) :=
  ⟨by simp, fun p hp => by cases p <;> simp_all [Part.same]⟩

theorem doPadLevelChange_frame (pad : Nat) (high : Bool) (s : State) : OnlyWrites [.pin] s (doPadLevelChange pad high s) :=
  ⟨by simp, fun p hp => by cases p <;> simp_all [Part.same]⟩

/-- Settles O22: each of the dispatcher's commands is one change of its engine, and a WAIT that a pad ends leaves the pads. -/
theorem pinsDispatch : Obligations.PinsDispatch := by
  unfold Obligations.PinsDispatch
  refine ⟨fun e s st p i w hst hempty hphrase hw => ⟨_, rfl, ?_⟩, fun e s en st r w hen hst hrxh hrx hroom => ⟨_, rfl, ?_⟩,
    fun e s en st r hen hst hrx hidle hdue hdata => ⟨_, rfl, ?_⟩, fun e s en st hen hst hrun hop => ⟨_, rfl, ?_⟩,
    fun pad high s hin => ⟨_, rfl, ?_⟩⟩
  · rw [doTxhFill_eq hst hempty hphrase hw]
    exact ⟨State.nth_onPin_same hst _, fun i hi => State.nth_onPin_ne s hi _, onlyWrites_onPin s _ _⟩
  · obtain ⟨f, heq, hf⟩ := doRxhDrain_joins hen hst hrxh hrx hroom
    rw [heq, ← hf]
    exact ⟨State.nth_onPin_same hst _, onlyWrites_onPin s _ _⟩
  · have hframe := doRxIdleClose_frame e.val s
    rw [doRxIdleClose_eq hen hst hrx hidle hdue] at hframe ⊢
    have hclosed : st.rxClosed = { st with rx := none, seq := (st.seq + 1) % 65536 } := by
      simp [PinSt.rxClosed, hrx, hdata]
    exact ⟨by rw [nth_of_getElem? (State.closeRx_engine hen hst), hclosed], hframe⟩
  · have hframe := doReservedOpHalt_frame e.val s
    rw [doReservedOpHalt_eq hen hst hrun hop] at hframe ⊢
    simp only [State.writePacket_keeps]
    exact ⟨State.nth_onPin_same hst _, rfl, rfl, hframe⟩
  · obtain ⟨hown, hother⟩ := State.outside_pad high hin pad.isLt
    rw [doPadLevelChange_pad]
    exact ⟨hown, hother, doPadLevelChange_frame pad.val high s⟩

end Sys2Proof.Machine
end

section
/-! PROOFS. Reset, start-up, the straps of start-up and test access (20_modes.md R522–R525, 02_straps.md R40, R41, 22_pads_electrical.md
R559). -/

namespace Sys2Proof.Machine

/-! ### What a packet leaves in the Causeway -/

/-- A close changes neither the banks, the open packets, nor what the checks have counted. -/
theorem State.writePacket_cw (s : State) (p : Packet) :
    (s.writePacket p).cw = { (s.writePacket p).cw with
      opens := s.cw.opens, uncorr := s.cw.uncorr, corr := s.cw.corr, uncorr24 := s.cw.uncorr24, retired := s.cw.retired
      dieRetired := s.cw.dieRetired, resetDue := s.cw.resetDue, roll3 := s.cw.roll3, other := s.cw.other } := by
  have hnote (q : Packet) : (s.noteProd q).cw = s.cw := by simp
  have hclose (cw : Causeway) (adm : Nat → Bool) (q : Packet) :
      (cw.closeIn adm q) = { cw.closeIn adm q with
        opens := cw.opens, uncorr := cw.uncorr, corr := cw.corr, uncorr24 := cw.uncorr24, retired := cw.retired
        dieRetired := cw.dieRetired, resetDue := cw.resetDue, roll3 := cw.roll3, other := cw.other } := by
    unfold Causeway.closeIn; dsimp only; split <;> rfl
  unfold State.writePacket
  dsimp only
  split
  · split
    · dsimp only
      rw [hclose, hnote]
      rfl
    · dsimp only
      rw [hnote]
      rfl
  · rfl

section
variable (s : State) (p : Packet)

@[simp] theorem State.writePacket_opens : (s.writePacket p).cw.opens = s.cw.opens := by rw [s.writePacket_cw p]
@[simp] theorem State.writePacket_retired : (s.writePacket p).cw.retired = s.cw.retired := by rw [s.writePacket_cw p]
@[simp] theorem State.writePacket_uncorr : (s.writePacket p).cw.uncorr = s.cw.uncorr := by rw [s.writePacket_cw p]
@[simp] theorem State.writePacket_corr : (s.writePacket p).cw.corr = s.cw.corr := by rw [s.writePacket_cw p]
@[simp] theorem State.writePacket_dieRetired : (s.writePacket p).cw.dieRetired = s.cw.dieRetired := by rw [s.writePacket_cw p]

end

/-! ### Release of reset and start-up (R371, R522, R523) -/

section
variable (s : State)

@[simp] theorem State.leaveReset_time : s.leaveReset.time = s.time := by
  unfold State.leaveReset; split <;> rfl
@[simp] theorem State.leaveReset_resetN : s.leaveReset.power.resetN = s.power.resetN := by
  unfold State.leaveReset; split <;> rfl
@[simp] theorem State.leaveReset_rails : s.leaveReset.power.rails = s.power.rails := by
  unfold State.leaveReset; split <;> rfl
@[simp] theorem State.leaveReset_clkOk : s.leaveReset.power.clkOk = s.power.clkOk := by
  unfold State.leaveReset; split <;> rfl

/-- The conditions of t = 0 begin the wait for CLK25. -/
theorem State.leaveReset_phase {s : State} (hphase : s.power.phase = .inReset) (hn : s.power.resetN = true)
    (hrails : s.power.rails.all id = true) : s.leaveReset.power.phase = .clkWait := by
  simp only [State.leaveReset, hphase, hn, hrails, beq_self_eq_true, Bool.and_self, if_true]

theorem doResetRelease_frame (dt : Nat) (why : Release) : OnlyWrites [.power, .time] s (doResetRelease dt why s) :=
  ⟨by simp, fun p hp => by cases p <;> simp_all [Part.same]⟩

theorem doStartUp_frame (ran : Nat) (slacks : List Nat) : OnlyWrites [.power, .age] s (doStartUp ran slacks s) :=
  ⟨by simp, fun p hp => by cases p <;> simp_all [Part.same]⟩

theorem doMemoryDieInitDone_frame (failing : List Nat) :
    OnlyWrites [.power, .port, .cw, .way, .age] s (doMemoryDieInitDone failing s) :=
  ⟨by simp, fun p hp => by cases p <;> simp_all [Part.same]⟩

theorem doRngHealthTest_frame (pass : Bool) : OnlyWrites [.free, .power, .port] s (doRngHealthTest pass s) :=
  ⟨by simp, fun p hp => by cases p <;> simp_all [Part.same]⟩

end

/-- RESET_N rises: TB-L counts from here. -/
theorem doResetRelease_resetN {s : State} (dt : Nat) (hlow : s.power.resetN = false) :
    doResetRelease dt .resetN s =
      { s.advance dt with
        power := { s.power with resetN := true }
        time := { (s.advance dt).time with lBase := (s.advance dt).time.ps } }.leaveReset := by
  have hlow' : (s.advance dt).power.resetN = false := hlow
  simp only [doResetRelease, hlow', Bool.false_eq_true, if_false]
  rfl

/-- A rail comes in range; VKEEP applied starts the time bases. -/
theorem doResetRelease_rail {s : State} {r : Rail} {mv : Nat} (dt : Nat) (hmv : railRising r < mv) :
    doResetRelease dt (.rail r mv) s =
      { s.advance dt with
        power := { s.power with rails := s.power.rails.set (railNo r) true }
        time := if r = Rail.vkeep && !nth s.power.rails 4 then (s.advance dt).time.applied else (s.advance dt).time }.leaveReset := by
  have hrails : (s.advance dt).power.rails = s.power.rails := rfl
  simp only [doResetRelease, hmv, if_true, hrails]
  split <;> rfl

/-- A bank that a retirement names is retired from then on, and the others stay retired. -/
theorem State.retireBank_retired (s : State) (b st : Nat) {x : Nat} :
    x ∈ (s.retireBank b st).cw.retired ↔ x ∈ s.cw.retired ∨ x = b := by
  unfold State.retireBank
  split
  next hin =>
    have hin' : b ∈ s.cw.retired := by simpa using hin
    exact ⟨Or.inl, fun h => h.elim id fun h => h ▸ hin'⟩
  next =>
    simp only [State.writeError, State.writePacket_retired]
    split <;> simp

theorem State.foldl_retireBank_retired (l : List Nat) (st : Nat) (s : State) {x : Nat} :
    x ∈ (l.foldl (fun s b => s.retireBank b st) s).cw.retired ↔ x ∈ s.cw.retired ∨ x ∈ l := by
  induction l generalizing s with
  | nil => simp
  | cons b l ih => rw [List.foldl_cons, ih, State.retireBank_retired, List.mem_cons, or_assoc]

theorem doMemoryDieInitDone_eq {s : State} (failing : List Nat) (hphase : s.power.phase = .starting)
    (hmem : s.power.memDone = false) : ∃ u : State, doMemoryDieInitDone failing s = u.nameCommit ∧ u.power.memDone = true ∧
      u.cw = (failing.foldl (fun s b => s.retireBank b 1) s).cw := by
  have hcond : (s.power.phase == .starting && !s.power.memDone) = true := by simp [hphase, hmem]
  simp only [doMemoryDieInitDone, hcond, if_true]
  exact ⟨_, rfl, rfl, rfl⟩

theorem doRngHealthTest_eq {s : State} (hnone : s.power.session = none)
    (hphase : s.power.phase = .starting ∨ s.power.phase = .running) : ∃ u : State, doRngHealthTest true s = u.nameCommit ∧
      u.power.session = some (Config.randomWord s.free) := by
  have hcond : (true && s.power.session.isNone && (s.power.phase == .starting || s.running)) = true := by
    rcases hphase with hphase | hphase <;> simp [hnone, hphase, State.running]
  simp only [doRngHealthTest, hcond, if_true]
  exact ⟨_, rfl, rfl⟩

theorem doStartUp_eq {s : State} {ran : Nat} (slacks : List Nat) (hphase : s.power.phase = .clkWait) (hran : 1000000 ≤ ran) :
    ∃ u : State, doStartUp ran slacks s = u.measureSlack slacks ∧ u.power.phase = .starting ∧ u.power.clkOk = true ∧
      u.power.islands = (List.replicate 12 IslSt.running).set 7 .off := by
  have hcond : (s.power.phase == .clkWait && decide (1000000 ≤ ran)) = true := by simp [hphase, hran]
  simp only [doStartUp, hcond, if_true]
  exact ⟨_, rfl, rfl, rfl, rfl⟩

/-- Settles O10: a release changes one line and may begin the wait for CLK25; each step of start-up follows from its condition. -/
theorem startsUp : Obligations.StartsUp := by
  unfold Obligations.StartsUp
  refine ⟨fun dt s hlow => ⟨_, rfl, ?_⟩, fun dt r mv s hmv => ⟨_, rfl, ?_⟩,
    fun ran slacks s hphase hran hlen => ⟨_, if_pos hlen, ?_⟩, fun failing s hphase hmem hlt => ⟨_, if_pos ?_, ?_⟩,
    fun s hnone hphase => ⟨_, rfl, ?_⟩⟩
  · have hframe := doResetRelease_frame s dt .resetN
    rw [doResetRelease_resetN dt hlow] at hframe ⊢
    exact ⟨by simp, by simp, by rw [State.leaveReset_time]; exact State.advance_ps s dt,
      fun hphase hrails => State.leaveReset_phase hphase rfl hrails, hframe⟩
  · have hframe := doResetRelease_frame s dt (.rail r mv)
    rw [doResetRelease_rail dt hmv] at hframe ⊢
    refine ⟨by simp, fun hr hlow => ?_, fun hphase hn hrails => State.leaveReset_phase hphase hn (by simpa using hrails), hframe⟩
    simp [hr, hlow, Time.applied, Time.init]
  · obtain ⟨u, heq, hstarting, hclk, hislands⟩ := doStartUp_eq slacks hphase hran
    have hframe := doStartUp_frame s ran slacks
    rw [heq] at hframe ⊢
    exact ⟨hstarting, hclk, hislands, hframe⟩
  · simpa using hlt
  · obtain ⟨u, heq, hmem', hcw⟩ := doMemoryDieInitDone_eq failing hphase hmem
    have hframe := doMemoryDieInitDone_frame s failing
    rw [heq] at hframe ⊢
    refine ⟨by simpa using hmem', fun b hb => ?_, hframe⟩
    simp only [State.nameCommit_keeps, hcw]
    exact (State.foldl_retireBank_retired failing 1 s).mpr (Or.inr hb)
  · obtain ⟨u, heq, hsession⟩ := doRngHealthTest_eq hnone hphase
    have hframe := doRngHealthTest_frame s true
    rw [heq] at hframe ⊢
    exact ⟨by simpa using hsession, hframe⟩

/-! ### Resets (R371, R522, R537, R546) -/

/-- What a reset leaves, whatever record waits for the first commit. -/
theorem State.enterReset_eq (s : State) :
    ∃ recs, s.enterReset = { s.hardReset with cw := { s.hardReset.cw with preM0 := recs } } := by
  unfold State.enterReset
  dsimp only
  split
  · exact ⟨_, rfl⟩
  · exact ⟨_, rfl⟩

theorem doResetAssert_eq {s : State} {low : Nat} (hlow : 10000 ≤ low) :
    doResetAssert low s = { s.enterReset with power := { s.enterReset.power with resetN := false } } := by
  simp only [doResetAssert, hlow, if_true]

theorem doResetAssert_short {s : State} {low : Nat} (hlow : low < 1000) : doResetAssert low s = s := by
  have hnot : ¬ 10000 ≤ low := by omega
  simp only [doResetAssert, hnot, if_false, hlow, if_true]

/-- A rail that fails: the hub in reset, the rail out of range, and after loss of VKEEP every time base at its start. -/
theorem doRailBrownout_eq {s : State} {r : Rail} {mv below : Nat} (hmv : mv < railFalling r) (hbelow : 20000 ≤ below) :
    doRailBrownout r mv below s =
      { s.enterReset with
        power := { s.enterReset.power with rails := s.enterReset.power.rails.set (railNo r) false }
        time := if r = .vkeep then s.enterReset.time.applied else s.enterReset.time } := by
  simp only [doRailBrownout, hmv, hbelow, and_self, if_true]
  split <;> rfl

theorem doClk25Stop_eq {s : State} {stopped : Nat} (hstopped : 4000 ≤ stopped) :
    doClk25Stop stopped s = { s.enterReset with power := { s.enterReset.power with clkOk := false } }.leaveReset := by
  simp only [doClk25Stop, hstopped, if_true]

theorem State.leaveReset_mode (s : State) : s.leaveReset.power.mode = s.power.mode := by
  unfold State.leaveReset; split <;> rfl

/-- Settles O11: each reset is the hub in reset with one line changed. -/
theorem resets : Obligations.Resets := by
  unfold Obligations.Resets
  refine ⟨fun low s hlow => ⟨_, rfl, ?_⟩, fun low s hlow => congrArg Host.Outcome.next (doResetAssert_short hlow),
    fun r mv below s hmv hbelow => ⟨_, rfl, ?_⟩, fun stopped s hstopped => ⟨_, rfl, ?_⟩⟩
  · rw [doResetAssert_eq hlow]
    obtain ⟨recs, heq⟩ := s.enterReset_eq
    rw [heq]
    exact ⟨rfl, rfl, rfl, rfl, rfl, rfl, rfl, rfl, rfl, rfl⟩
  · rw [doRailBrownout_eq hmv hbelow]
    obtain ⟨recs, heq⟩ := s.enterReset_eq
    rw [heq]
    refine ⟨rfl, rfl, rfl, rfl, ?_, ?_, rfl⟩
    · dsimp only
      split <;> rfl
    · dsimp only
      split <;> rfl
  · rw [doClk25Stop_eq hstopped]
    obtain ⟨recs, heq⟩ := s.enterReset_eq
    rw [heq]
    refine ⟨by simp, ?_, ?_, ?_, ?_, ?_⟩
    · simp; rfl
    · rw [State.leaveReset_mode]; rfl
    · simp
    · simp; rfl
    · simp

/-! ### Strap scans (R40, R41) -/

section
variable (s : State) (dt : Nat) (rs : List StrapReading)

theorem doStrapScan_frame : OnlyWrites [.power, .time, .straps, .port] s (doStrapScan dt rs s) :=
  ⟨by simp, fun p hp => by cases p <;> simp_all [Part.same]⟩

theorem doStrapHold_frame : OnlyWrites [.power, .time, .straps, .port] s (doStrapHold dt rs s) :=
  ⟨by simp, fun p hp => by cases p <;> simp_all [Part.same]⟩

theorem doMode0Burst_frame : OnlyWrites [.time, .straps] s (doMode0Burst dt s) :=
  ⟨by simp, fun p hp => by cases p <;> simp_all [Part.same]⟩

end

/-- One scan, as its acceptance decides. -/
theorem Straps.scan_cases (st : Straps) (now : Nat) (rs : List StrapReading) :
    (st.scan now rs).readings = rs.map StrapReading.raw ∧
      (st.scan now rs).prev = some ((List.range 16).map (scanCode rs)) ∧
      (st.scan now rs).accepted = (st.accepted || scanAccepts st.prev rs) ∧
      (st.scan now rs).hold = (st.hold && !scanAccepts st.prev rs) ∧ (st.scan now rs).holdFrom = st.holdFrom ∧
      ∀ p, st.prev = some p → scanAccepts st.prev rs = true →
        (st.scan now rs).codes = acceptedCodes p ((List.range 16).map (scanCode rs)) := by
  cases hprev : st.prev with
  | none => simp [Straps.scan, scanAccepts, hprev]
  | some p =>
    cases hacc : scanAccepts (some p) rs with
    | false =>
      have hall : resetStraps.all (agreeing p ((List.range 16).map (scanCode rs))) = false := hacc
      simp [Straps.scan, hprev, hall]
    | true =>
      have hall : resetStraps.all (agreeing p ((List.range 16).map (scanCode rs))) = true := hacc
      simp [Straps.scan, hprev, hall]

@[simp] theorem State.uplinkByStrap_mode1 (s : State) : s.uplinkByStrap.power.mode1 = s.power.mode1 := rfl

/-- A scan of the hub: the straps, and the image load that an accepted set begins. -/
theorem State.strapScan_straps (s : State) (rs : List StrapReading) : (s.strapScan rs).straps = s.straps.scan s.now rs := by
  unfold State.strapScan
  dsimp only
  split <;> rfl

theorem State.strapScan_load {s : State} {rs : List StrapReading} (hacc : (s.straps.scan s.now rs).accepted = true) :
    (s.strapScan rs).port.load = some (newLoad 1 none) := by
  simp only [State.strapScan, hacc, if_true]
  rfl

theorem State.strapScan_mode1 (s : State) (rs : List StrapReading) :
    (s.strapScan rs).power.mode1 = (s.power.mode1 && !(s.straps.scan s.now rs).accepted) := by
  unfold State.strapScan
  dsimp only
  split
  next hacc => simp [hacc]
  next hnot => simp [hnot]

/-- The hub as a strap hold begins, or goes on (R41). -/
def State.inStrapHold (s : State) : State :=
  if s.straps.hold then s else
    { s with straps := { s.straps with hold := true, holdFrom := s.now }, power := { s.power with mode1 := true, mode0 := false } }

theorem doStrapScan_eq {s : State} {dt : Nat} {rs : List StrapReading} (hphase : s.power.phase = .starting)
    (hacc : s.straps.accepted = false) (hhold : s.straps.hold = false) : doStrapScan dt rs s = (s.advance dt).strapScan rs := by
  simp [doStrapScan, hphase, hacc, hhold]

theorem doStrapHold_eq {s : State} {dt f : Nat} {rs : List StrapReading} (hphase : s.power.phase = .starting)
    (hacc : s.straps.accepted = false) (hfirst : s.straps.firstScan = some f) (hlate : f + msPs 100 ≤ s.now + dt) :
    doStrapHold dt rs s = (s.advance dt).inStrapHold.strapScan rs := by
  simp [doStrapHold, hphase, hacc, hfirst, hlate, State.inStrapHold]

theorem State.inStrapHold_straps (s : State) : s.inStrapHold.straps.hold = true ∧
    s.inStrapHold.straps.accepted = s.straps.accepted ∧ s.inStrapHold.straps.prev = s.straps.prev ∧
    (s.straps.hold = false → s.inStrapHold.power.mode1 = true ∧ s.inStrapHold.straps.holdFrom = s.now) := by
  unfold State.inStrapHold
  split
  next hhold => simp [hhold]
  next => exact ⟨rfl, rfl, rfl, fun _ => ⟨rfl, rfl⟩⟩

/-- Settles O12: a scan decides by the scan before it; strap hold makes the same scan after it has begun. -/
theorem strapsScan : Obligations.StrapsScan := by
  unfold Obligations.StrapsScan
  refine ⟨fun dt rs s hlen hphase hacc hhold => ⟨_, if_pos hlen, ?_⟩,
    fun dt rs s f hlen hphase hacc hfirst hlate => ⟨_, if_pos hlen, ?_⟩, fun dt s hhold => ⟨_, rfl, ?_, doMode0Burst_frame s dt⟩⟩
  · have hframe := doStrapScan_frame s dt rs
    rw [doStrapScan_eq hphase hacc hhold] at hframe ⊢
    obtain ⟨hreadings, hprev, haccepted, -, -, hcodes⟩ := Straps.scan_cases s.straps (s.now + dt) rs
    rw [hacc, Bool.false_or] at haccepted
    have hscan : ((s.advance dt).strapScan rs).straps = s.straps.scan (s.now + dt) rs := by
      rw [State.strapScan_straps, State.advance_now]
      rfl
    rw [hscan]
    refine ⟨hreadings, hprev, haccepted, fun p hp hyes => ⟨hcodes p hp hyes, State.strapScan_load ?_⟩, hframe⟩
    rw [State.advance_now]
    exact haccepted.trans hyes
  · have hframe := doStrapHold_frame s dt rs
    rw [doStrapHold_eq hphase hacc hfirst hlate] at hframe ⊢
    obtain ⟨hhold, hacc', hprev', hnew⟩ := State.inStrapHold_straps (s.advance dt)
    obtain ⟨hreadings, -, haccepted, hholds, hfrom, -⟩ :=
      Straps.scan_cases (s.advance dt).inStrapHold.straps (s.advance dt).inStrapHold.now rs
    rw [hacc', hprev', show (s.advance dt).straps.accepted = false from hacc, Bool.false_or] at haccepted
    rw [hhold, hprev', Bool.true_and] at hholds
    rw [State.strapScan_straps, State.strapScan_mode1, haccepted]
    refine ⟨rfl, hholds, hreadings, fun hwas => ?_, hframe⟩
    obtain ⟨hmode1, hat⟩ := hnew hwas
    exact ⟨by rw [hmode1, Bool.true_and]; rfl, by rw [hfrom, hat, State.advance_now]⟩
  · have hhold' : (s.advance dt).straps.hold = true := hhold
    simp only [doMode0Burst, hhold', if_true]
    rfl

/-! ### Test access (R481, R559) -/

/-- Settles O14: each command writes its registers where test access is open. -/
theorem testAccess : Obligations.TestAccess := by
  unfold Obligations.TestAccess
  refine ⟨fun v s hopen => congrArg Host.Outcome.next (if_pos hopen), fun s hopen => congrArg Host.Outcome.next (if_pos hopen),
    fun s hopen => congrArg Host.Outcome.next (if_pos hopen), fun v s hshut => ?_⟩
  have hnot : ¬ s.testOpen = true := by simp [hshut]
  exact ⟨congrArg Host.Outcome.next (if_neg hnot), congrArg Host.Outcome.next (if_neg hnot),
    congrArg Host.Outcome.next (if_neg hnot)⟩

end Sys2Proof.Machine
end

section
/-! PROOFS. What lets waiting frames leave (15_uplink.md R399, 17_mailboxes.md R450): the outbound side of the clients, and the
clocks but for an egress timestamp. -/

namespace Sys2Proof.Machine

/-! ### Clocks that only send -/

theorem SameClocks.of_time {s t : State} (h : t.time = s.time) : SameClocks s t := by
  refine ⟨by rw [h], by rw [h], fun x => by rw [h]⟩

theorem SameClocks.trans {s t u : State} (h : SameClocks s t) (k : SameClocks t u) : SameClocks s u := by
  obtain ⟨htime, hlen, hn⟩ := h
  obtain ⟨htime', hlen', hn'⟩ := k
  refine ⟨by rw [htime', htime], hlen'.trans hlen, fun x => ?_⟩
  rw [hn', hn]

/-- The clocks of a state count alone. -/
theorem SameClocks.congr_left {s s' t : State} (hs : s'.time = s.time) (h : SameClocks s t) : SameClocks s' t := by
  obtain ⟨htime, hlen, hn⟩ := h
  exact ⟨by rw [hs]; exact htime, by rw [hs]; exact hlen, fun x => by rw [hs]; exact hn x⟩

theorem OnlyWrites.sends {ps : List Part} {s t : State} (h : OnlyWrites ps s t) (htime : t.time = s.time) : OnlySends ps s t :=
  ⟨h.mono (List.subset_cons_self _ _), SameClocks.of_time htime⟩

theorem OnlySends.mono {ps qs : List Part} {s t : State} (h : OnlySends ps s t) (hsub : ps ⊆ qs) : OnlySends qs s t :=
  ⟨h.1.mono (List.cons_subset_cons _ hsub), h.2⟩

theorem OnlySends.trans {ps : List Part} {s t u : State} (h : OnlySends ps s t) (k : OnlySends ps t u) : OnlySends ps s u := by
  obtain ⟨⟨hpend, hparts⟩, hclocks⟩ := h
  obtain ⟨⟨hpend', hparts'⟩, hclocks'⟩ := k
  exact ⟨⟨hpend'.trans hpend, fun p hp => Part.same_trans (hparts p hp) (hparts' p hp)⟩, hclocks.trans hclocks'⟩

theorem OnlyWrites.refl (ps : List Part) (s : State) : OnlyWrites ps s s := ⟨rfl, fun p _ => by cases p <;> rfl⟩

theorem OnlySends.refl (ps : List Part) (s : State) : OnlySends ps s s := (OnlyWrites.refl ps s).sends rfl

/-- What a change of clients alone writes. -/
theorem onlySends_clients (s : State) (cs : List Client) : OnlySends [.up, .clients] s { s with clients := cs } :=
  OnlyWrites.sends ⟨rfl, fun p hp => by cases p <;> simp_all [Part.same]⟩ rfl

/-- What a change of the uplink alone writes. -/
theorem onlySends_up (s : State) (u : Uplink) : OnlySends [.up, .clients] s { s with up := u } :=
  OnlyWrites.sends ⟨rfl, fun p hp => by cases p <;> simp_all [Part.same]⟩ rfl

/-- A change of one element leaves every element as it was, or changed. -/
theorem nth_modify_cases {α : Type} [Inhabited α] (l : List α) (i j : Nat) (f : α → α) :
    nth (l.modify i f) j = nth l j ∨ nth (l.modify i f) j = f (nth l j) := by
  by_cases hj : j = i
  · subst hj
    by_cases hlt : j < l.length
    · exact Or.inr (nth_modify_same hlt f)
    · simp [nth, List.getD_eq_getElem?_getD, hlt]
  · exact Or.inl (nth_modify_ne l hj f)

/-! ### Frames that leave (R380, R399) -/

theorem State.noteEgress_sends (s : State) (p : Nat) (e : Egress) : OnlySends [.up, .clients] s (s.noteEgress p e) := by
  unfold State.noteEgress
  split
  next x seq _ =>
    split
    next =>
      refine ⟨⟨rfl, fun p hp => by cases p <;> simp_all [Part.same]⟩, rfl, by simp [Time.onN], fun y => ?_⟩
      rcases nth_modify_cases s.time.n x y (fun n => { n with t3 := n.t3.set p (some (s.nNs x)) }) with hkept | hset
      · rw [Time.onN, hkept]
      · rw [Time.onN, hset]
    next => exact OnlySends.refl _ s
  next => exact OnlySends.refl _ s

theorem State.serve_sends (s : State) (p : Nat) : OnlySends [.up, .clients] s (s.serve p) := by
  unfold State.serve
  split
  · split
    · exact (onlySends_up s _).trans (State.noteEgress_sends _ _ _)
    · exact OnlySends.refl _ s
  · exact OnlySends.refl _ s

theorem State.send_sends (s : State) (p : Nat) (e : Egress) : OnlySends [.up, .clients] s (s.send p e) := by
  unfold State.send
  split
  · exact (onlySends_up s _).trans (State.serve_sends _ p)
  · exact OnlySends.refl _ s

theorem State.sendControl_sends (s : State) (c : Nat) (slot : Bool) (msg : List Word) :
    OnlySends [.up, .clients] s (s.sendControl c slot msg) := by
  unfold State.sendControl
  split
  · exact ((onlySends_up s _).trans (onlySends_up _ _)).trans (State.send_sends _ _ _)
  · exact OnlySends.refl _ s

@[simp] theorem State.sendControl_clients (s : State) (c : Nat) (slot : Bool) (msg : List Word) :
    (s.sendControl c slot msg).clients = s.clients := by simp

/-! ### The outbound side of a client (R450, R453, R458) -/

/-- The inbound side of a client and its vote are the same: what a client has sent, and what is left of it to handle. -/
def Client.sameInbound (a b : Client) : Prop :=
  b.inSlot = a.inSlot ∧ b.seen = a.seen ∧ b.work = a.work ∧ b.nextIn = a.nextIn ∧ b.kfloor = a.kfloor ∧ b.lastCmp = a.lastCmp ∧
  b.vote = a.vote

theorem Client.sameInbound.refl (a : Client) : a.sameInbound a := ⟨rfl, rfl, rfl, rfl, rfl, rfl, rfl⟩

theorem Client.sameInbound.trans {a b c : Client} (h : a.sameInbound b) (k : b.sameInbound c) : a.sameInbound c := by
  obtain ⟨h1, h2, h3, h4, h5, h6, h7⟩ := h
  obtain ⟨k1, k2, k3, k4, k5, k6, k7⟩ := k
  exact ⟨k1.trans h1, k2.trans h2, k3.trans h3, k4.trans h4, k5.trans h5, k6.trans h6, k7.trans h7⟩

/-- From s to t only messages to the clients are made, queued or sent. -/
def State.mails (s t : State) : Prop :=
  OnlySends [.up, .clients] s t ∧ t.clients.length = s.clients.length ∧
  ∀ i, (nth s.clients i).sameInbound (nth t.clients i)

theorem State.mails.refl (s : State) : s.mails s := ⟨OnlySends.refl _ s, rfl, fun _ => Client.sameInbound.refl _⟩

theorem State.mails.trans {s t u : State} (h : s.mails t) (k : t.mails u) : s.mails u := by
  obtain ⟨hsends, hlen, hsame⟩ := h
  obtain ⟨hsends', hlen', hsame'⟩ := k
  exact ⟨hsends.trans hsends', hlen'.trans hlen, fun i => (hsame i).trans (hsame' i)⟩

theorem State.onClient_mails (s : State) (c : Nat) {f : Client → Client} (hf : ∀ a : Client, a.sameInbound (f a)) :
    s.mails (s.onClient c f) := by
  refine ⟨onlySends_clients s _, by simp [State.onClient], fun i => ?_⟩
  rcases nth_modify_cases s.clients c i f with hkept | hset
  · rw [State.onClient, hkept]
    exact Client.sameInbound.refl _
  · rw [State.onClient, hset]
    exact hf _

theorem Client.enqueue_same (c : Client) (o : Out) : c.sameInbound (c.enqueue o) := by
  unfold Client.enqueue
  split
  · split <;> exact ⟨rfl, rfl, rfl, rfl, rfl, rfl, rfl⟩
  · split <;> exact ⟨rfl, rfl, rfl, rfl, rfl, rfl, rfl⟩

theorem Client.release_same (c : Client) : c.sameInbound c.release := by
  unfold Client.release
  split
  · exact ⟨rfl, rfl, rfl, rfl, rfl, rfl, rfl⟩
  · split <;> exact ⟨rfl, rfl, rfl, rfl, rfl, rfl, rfl⟩

theorem Client.buildF_same (now : Nat → List Word → List Word) (f : Nat) (c : Client) (ident : Word) (guest : Bool) (rel : Nat) :
    c.sameInbound (Client.buildF now f c ident guest rel) := by
  induction f generalizing c with
  | zero => exact Client.sameInbound.refl c
  | succ f ih =>
    unfold Client.buildF
    split
    · exact Client.sameInbound.refl c
    · split
      · exact Client.sameInbound.refl c
      · dsimp only
        split
        · exact Client.sameInbound.trans ⟨rfl, rfl, rfl, rfl, rfl, rfl, rfl⟩ (ih _)
        · refine Client.sameInbound.trans (Client.sameInbound.trans ?_ (Client.enqueue_same _ _)) (ih _)
          exact ⟨rfl, rfl, rfl, rfl, rfl, rfl, rfl⟩

theorem State.buildReps_mails (s : State) (c : Nat) : s.mails (s.buildReps c) :=
  State.onClient_mails s c fun a => Client.buildF_same _ _ a _ _ _

theorem State.pushRep_mails (s : State) (c : Nat) (r : Rep) : s.mails (s.pushRep c r) := by
  refine State.mails.trans (State.onClient_mails s c ?_) (State.buildReps_mails _ c)
  exact fun _ => ⟨rfl, rfl, rfl, rfl, rfl, rfl, rfl⟩

theorem State.reply_mails (s : State) (c : Nat) (cmp : BitVec 16) (typ acc result : Nat) (payload : List Word) :
    s.mails (s.reply c cmp typ acc result payload) := State.pushRep_mails s c _

theorem State.pendReply_mails (s : State) (c : Nat) (cmp : BitVec 16) (typ acc : Nat) :
    s.mails (s.pendReply c cmp typ acc) := State.pushRep_mails s c _

theorem State.resolve_mails (s : State) (c : Nat) (cmp : BitVec 16) (typ : Nat) (f : Rep → Nat × List (List Word)) :
    s.mails (s.resolve c cmp typ f) := by
  refine State.mails.trans (State.onClient_mails s c ?_) (State.buildReps_mails _ c)
  exact fun _ => ⟨rfl, rfl, rfl, rfl, rfl, rfl, rfl⟩

theorem State.resolveResult_mails (s : State) (c : Nat) (cmp : BitVec 16) (typ result : Nat) (payload : List Word) :
    s.mails (s.resolveResult c cmp typ result payload) := State.resolve_mails s c cmp typ _

theorem State.dropRep_mails (s : State) (c : Nat) (cmp : BitVec 16) (typ : Nat) : s.mails (s.dropRep c cmp typ) := by
  refine State.mails.trans (State.onClient_mails s c ?_) (State.buildReps_mails _ c)
  exact fun _ => ⟨rfl, rfl, rfl, rfl, rfl, rfl, rfl⟩

theorem State.sendControl_mails (s : State) (c : Nat) (slot : Bool) (msg : List Word) : s.mails (s.sendControl c slot msg) :=
  ⟨State.sendControl_sends s c slot msg, by rw [State.sendControl_clients], fun i => by
    rw [State.sendControl_clients]; exact Client.sameInbound.refl _⟩

theorem State.pumpOne_mails (s : State) (c : Nat) : s.mails (s.pumpOne c) := by
  unfold State.pumpOne
  split
  · split
    · exact State.mails.refl s
    · exact State.mails.trans (State.sendControl_mails s c true _) (State.onClient_mails _ c Client.release_same)
  · exact State.mails.refl s

theorem State.foldl_mails {α : Type} (l : List α) {f : State → α → State} (hf : ∀ (s : State) (x : α), s.mails (f s x))
    (s : State) : s.mails (l.foldl f s) := by
  induction l generalizing s with
  | nil => exact State.mails.refl s
  | cons x l ih => exact State.mails.trans (hf s x) (ih _)

theorem State.pump_mails (s : State) : s.mails s.pump := State.foldl_mails _ State.pumpOne_mails s

/-! ### What mail leaves as it was -/

section
variable {s t : State} (h : s.mails t)
include h

theorem State.mails.same (p : Part) (hp : p ∉ [Part.time, .up, .clients]) : p.same s t := h.1.1.2 p hp
theorem State.mails.cw : t.cw = s.cw := h.same .cw (by simp)
theorem State.mails.mot : t.mot = s.mot := h.same .mot (by simp)
theorem State.mails.age : t.age = s.age := h.same .age (by simp)
theorem State.mails.port : t.port = s.port := h.same .port (by simp)
theorem State.mails.power : t.power = s.power := h.same .power (by simp)
theorem State.mails.locks : t.locks = s.locks := h.same .locks (by simp)
theorem State.mails.clocks : SameClocks s t := h.1.2
theorem State.mails.length : t.clients.length = s.clients.length := h.2.1
theorem State.mails.work (i : Nat) : (nth t.clients i).work = (nth s.clients i).work := (h.2.2 i).2.2.1
theorem State.mails.vote (i : Nat) : (nth t.clients i).vote = (nth s.clients i).vote := (h.2.2 i).2.2.2.2.2.2

end

/-! ### Acceptance (R448, R449, R455) -/

theorem State.accepted_mails (s : State) (c : Nat) (cmp : BitVec 16) (acc : Nat) : s.mails (s.accepted c cmp acc) := by
  unfold State.accepted
  split
  · dsimp only
    split
    · exact State.onClient_mails s c fun _ => ⟨rfl, rfl, rfl, rfl, rfl, rfl, rfl⟩
    · exact State.sendControl_mails s c false _
  · exact State.mails.refl s

/-- ACC of R455. -/
theorem Client.classify_acc (cl : Client) (role typ : Nat) (cmp : BitVec 16) : (cl.classify role typ cmp).1 ≤ 4 := by
  unfold Client.classify
  dsimp only
  repeat' split
  all_goals simp

@[simp] theorem State.onClient_length (s : State) (c : Nat) (f : Client → Client) :
    (s.onClient c f).clients.length = s.clients.length := by simp [State.onClient]

theorem State.onClient_same {s : State} {c : Nat} (hc : c < s.clients.length) (f : Client → Client) :
    nth (s.onClient c f).clients c = f (nth s.clients c) := nth_modify_same hc f

theorem State.onClient_ne (s : State) {c i : Nat} (hi : i ≠ c) (f : Client → Client) :
    nth (s.onClient c f).clients i = nth s.clients i := nth_modify_ne _ hi f

theorem State.onClient_sends (s : State) (c : Nat) (f : Client → Client) : OnlySends [.up, .clients] s (s.onClient c f) :=
  onlySends_clients s _

/-- A client that has taken a message with its new NEXT_IN, before it joins the work. -/
def Client.taken (m : List Word) (role acc : Nat) (next : Option (BitVec 16)) (cl : Client) : Client :=
  { cl with
    nextIn := next
    lastCmp := if acc = 0 ∨ acc = 1 ∨ acc = 3 then some (msgCmp m) else cl.lastCmp
    lastReply := if acc = 0 ∨ acc = 1 ∨ acc = 3 then none else cl.lastReply
    kfloor := if isTagged role (msgType m) ∧ (acc = 0 ∨ acc = 1) then some (msgCmp m) else cl.kfloor }

theorem State.takeMessage_joins {s : State} {c role acc : Nat} {m : List Word} {next : Option (BitVec 16)}
    (hok : s.refusal c role m = none) (hclass : (nth s.clients c).classify role (msgType m) (msgCmp m) = (acc, next))
    (hrep : acc ≠ 2) (hold : acc ≠ 4) :
    s.takeMessage c role m =
      (((s.onClient c (Client.taken m role acc next)).accepted c (msgCmp m) acc).onClient c
        fun cl => { cl with work := cl.work ++ [(m, acc)] }).pendReply c (msgCmp m) (msgType m) acc := by
  simp only [State.takeMessage, hok, hclass, hrep, hold, if_false]
  rfl

theorem State.takeMessage_refused {s : State} {c role r : Nat} {m : List Word} (hbad : s.refusal c role m = some r) :
    s.takeMessage c role m = (s.accepted c (msgCmp m) 0xFF).reply c (msgCmp m) (msgType m) 0xFF r [] := by
  simp only [State.takeMessage, hbad]

section
variable {s : State} {c role : Nat} {m : List Word}

/-- The slot of client c emptied. -/
def State.slotTaken (s : State) (c : Nat) : State := s.onClient c fun cl => { cl with inSlot := none }

theorem State.slotTaken_refusal (s : State) (c role : Nat) (m : List Word) :
    (s.slotTaken c).refusal c role m = s.refusal c role m := rfl

theorem doMessageAccept_good (hslot : (nth s.clients c).inSlot = some m) (hon : s.mailOn c = true) (hmin : 3 ≤ m.length)
    (hmax : m.length ≤ 32) (hcrc : m.getLast? = some (crc32c (bytesOfWords (m.take (m.length - 1)))))
    (hrole : s.roleOf c = some role) : doMessageAccept c s = ((s.slotTaken c).takeMessage c role m).pump := by
  have hcond : (decide (3 ≤ m.length) && decide (m.length ≤ 32) &&
      m.getLast? == some (crc32c (bytesOfWords (m.take (m.length - 1))))) = true := by simp [hmin, hmax, hcrc]
  have hrole' : (s.onClient c fun cl => { cl with inSlot := none }).roleOf c = some role := hrole
  simp only [doMessageAccept, hslot, hon, if_true, hcond, hrole']
  rfl

theorem doMessageAccept_badCrc (hslot : (nth s.clients c).inSlot = some m) (hon : s.mailOn c = true)
    (hcrc : m.getLast? ≠ some (crc32c (bytesOfWords (m.take (m.length - 1))))) : doMessageAccept c s = s.slotTaken c := by
  have hcond : (decide (3 ≤ m.length) && decide (m.length ≤ 32) &&
      m.getLast? == some (crc32c (bytesOfWords (m.take (m.length - 1))))) = false := by simp [hcrc]
  simp only [doMessageAccept, hslot, hon, if_true, hcond]
  rfl

end

/-- Settles O56: an accepted message moves NEXT_IN and joins the work before anything is sent; a refused one is only answered. -/
theorem messagesAccepted : Obligations.MessagesAccepted := by
  unfold Obligations.MessagesAccepted
  refine ⟨fun c s m role acc next hc hslot hon hmin hmax hcrc hrole hok hclass hrep hold => ⟨_, rfl, ?_⟩,
    fun c s m role r hc hslot hon hmin hmax hcrc hrole hbad => ⟨_, rfl, ?_⟩,
    fun c s m hslot hon hcrc => congrArg Host.Outcome.next (doMessageAccept_badCrc hslot hon hcrc)⟩
  · have hcur : nth (s.slotTaken c).clients c = { nth s.clients c with inSlot := none } := State.onClient_same hc _
    have hclass' : (nth (s.slotTaken c).clients c).classify role (msgType m) (msgCmp m) = (acc, next) := by rw [hcur]; exact hclass
    have hacc : acc = 0 ∨ acc = 1 ∨ acc = 3 := by
      have hle := Client.classify_acc (nth s.clients c) role (msgType m) (msgCmp m)
      rw [hclass] at hle
      simp only at hle
      omega
    rw [doMessageAccept_good hslot hon hmin hmax hcrc hrole, State.takeMessage_joins (s := s.slotTaken c) hok hclass' hrep hold]
    have htaken := State.accepted_mails ((s.slotTaken c).onClient c (Client.taken m role acc next)) c (msgCmp m) acc
    have hjoined := State.mails.trans (State.pendReply_mails
      ((((s.slotTaken c).onClient c (Client.taken m role acc next)).accepted c (msgCmp m) acc).onClient c
        fun cl => { cl with work := cl.work ++ [(m, acc)] }) c (msgCmp m) (msgType m) acc) (State.pump_mails _)
    have hown : nth ((s.slotTaken c).onClient c (Client.taken m role acc next)).clients c =
        Client.taken m role acc next { nth s.clients c with inSlot := none } := by
      rw [State.onClient_same (by simpa [State.slotTaken] using hc), hcur]
    obtain ⟨hsends, hlen, hsame⟩ := htaken
    obtain ⟨hsends', -, hsame'⟩ := hjoined
    have hlen' : c.val < (((s.slotTaken c).onClient c (Client.taken m role acc next)).accepted c (msgCmp m) acc).clients.length := by
      rw [hlen]; simpa [State.slotTaken] using hc
    obtain ⟨hslot1, -, hwork1, hnext1, -, hcmp1, -⟩ := hsame c
    obtain ⟨hslot2, -, hwork2, hnext2, -, hcmp2, -⟩ := hsame' c
    rw [State.onClient_same hlen'] at hslot2 hwork2 hnext2 hcmp2
    rw [hown] at hslot1 hwork1 hnext1 hcmp1
    refine ⟨by rw [hslot2, hslot1]; rfl, by rw [hnext2, hnext1]; rfl, ?_, ?_, fun i hi => ?_, ?_⟩
    · rw [hcmp2, hcmp1]
      exact if_pos hacc
    · rw [hwork2, hwork1]
      rfl
    · obtain ⟨-, -, hworki, hnexti, -⟩ := hsame i
      obtain ⟨-, -, hworki', hnexti', -⟩ := hsame' i
      rw [State.onClient_ne _ hi] at hworki' hnexti'
      rw [State.onClient_ne _ hi, State.slotTaken, State.onClient_ne _ hi] at hworki hnexti
      exact ⟨hworki'.trans hworki, hnexti'.trans hnexti⟩
    · exact (((State.onClient_sends s c _).trans (State.onClient_sends _ c _)).trans hsends).trans
        ((State.onClient_sends _ c _).trans hsends')
  · have hbad' : (s.slotTaken c).refusal c role m = some r := hbad
    rw [doMessageAccept_good hslot hon hmin hmax hcrc hrole, State.takeMessage_refused hbad']
    obtain ⟨hsends, -, hsame⟩ := State.mails.trans (State.mails.trans (State.accepted_mails (s.slotTaken c) c (msgCmp m) 0xFF)
      (State.reply_mails _ c (msgCmp m) (msgType m) 0xFF r [])) (State.pump_mails _)
    obtain ⟨hslot1, -, hwork1, hnext1, hfloor1, hcmp1, -⟩ := hsame c
    rw [State.slotTaken, State.onClient_same hc] at hslot1 hwork1 hnext1 hfloor1 hcmp1
    exact ⟨hslot1, hnext1, hcmp1, hfloor1, hwork1, (State.onClient_sends s c _).trans hsends⟩

end Sys2Proof.Machine
end

section
/-! PROOFS. Messages handled (17_mailboxes.md R449 steps 7 to 9, R457–R463): what each leaves, past the replies it sends. -/

namespace Sys2Proof.Machine

/-! ### The oldest message of a client's work (R449) -/

section
variable {s : State} {c typ : Nat} {m : List Word} {k : List Word → BitVec 16 → State → State}

/-- A message that may run is handled without its place in the work, and what can leave leaves. -/
theorem State.handle_runs (h : s.runs c typ m) : s.handle c typ k = (k m (msgCmp m) (s.popWork c)).pump := by
  obtain ⟨-, htyp, hgo, a, rest, hwork⟩ := h
  simp only [State.handle, hwork, htyp, if_true, hgo]

theorem State.popWork_sends (s : State) (c : Nat) : OnlySends [.up, .clients] s (s.popWork c) := State.onClient_sends s c _

theorem State.popWork_same (hc : c < s.clients.length) :
    nth (s.popWork c).clients c = { nth s.clients c with work := (nth s.clients c).work.drop 1 } := State.onClient_same hc _

theorem State.popWork_ne {i : Nat} (hi : i ≠ c) : nth (s.popWork c).clients i = nth s.clients i := State.onClient_ne s hi _

/-- Whatever only mails after the message has left the work keeps that. -/
theorem worked_of_mails {t u : State} (hc : c < s.clients.length) (hmails : t.mails u)
    (hclients : t.clients = (s.popWork c).clients) : worked s u c := by
  rw [worked, hmails.work c, hclients, State.popWork_same hc]

end

/-- From s to t what one step alone writes, among more. -/
theorem OnlySends.after {ps qs rs : List Part} {s t u : State} (h : OnlySends ps s t) (k : OnlySends qs t u) (hps : ps ⊆ rs)
    (hqs : qs ⊆ rs) : OnlySends rs s u := (h.mono hps).trans (k.mono hqs)

theorem onlySends_cw (s : State) (cw : Causeway) : OnlySends [.cw] s { s with cw := cw } :=
  OnlyWrites.sends ⟨rfl, fun p hp => by cases p <;> simp_all [Part.same]⟩ rfl

theorem onlySends_mot (s : State) (m : Motion) : OnlySends [.mot] s { s with mot := m } :=
  OnlyWrites.sends ⟨rfl, fun p hp => by cases p <;> simp_all [Part.same]⟩ rfl

theorem onlySends_age (s : State) (a : Ageing) : OnlySends [.age] s { s with age := a } :=
  OnlyWrites.sends ⟨rfl, fun p hp => by cases p <;> simp_all [Part.same]⟩ rfl

theorem onlySends_port (s : State) (p : ImagePort) : OnlySends [.port] s { s with port := p } :=
  OnlyWrites.sends ⟨rfl, fun p hp => by cases p <;> simp_all [Part.same]⟩ rfl

theorem onlySends_power (s : State) (p : Power) : OnlySends [.power] s { s with power := p } :=
  OnlyWrites.sends ⟨rfl, fun p hp => by cases p <;> simp_all [Part.same]⟩ rfl

theorem onlySends_locks (s : State) (l : List Lock) : OnlySends [.locks] s { s with locks := l } :=
  OnlyWrites.sends ⟨rfl, fun p hp => by cases p <;> simp_all [Part.same]⟩ rfl

/-! ### VOTE (R457) -/

theorem doVote_runs {s : State} {c : Nat} {m : List Word} (h : s.runs c 0x05 m) :
    ((s.popWork c).onClient c fun cl => { cl with vote := fld (nth m 2) 1 0 }).mails (doVote c s) := by
  rw [doVote, State.handle_runs h]
  exact State.mails.trans (State.resolveResult_mails _ _ _ _ _ _) (State.pump_mails _)

/-! ### ACK, REWIND and FLUSH (R461) -/

/-- ACK takes M where it is new and delivered. -/
theorem State.ackRun_eq (s : State) (c : Nat) (m : Word) :
    (s.ackRun c m).2 =
      if later32 m (nth s.cw.readers c).acked = true ∧ later32 m (nth s.cw.readers c).delivered = false then
        { s with
          cw := s.cw.onReader c fun rd => { rd with acked := m }
          up := { s.up with clients := s.up.clients.modify c fun u =>
            { u with flight := u.flight.filter fun x => later32 x.1 m } } }
      else s := by
  unfold State.ackRun
  dsimp only
  split
  next hold => simp_all
  next hnew =>
    split
    next hfar => simp_all
    next hnear => simp_all

theorem State.ackRun_sends (s : State) (c : Nat) (m : Word) : OnlySends [.cw, .up, .clients] s (s.ackRun c m).2 := by
  rw [State.ackRun_eq]
  split
  · exact OnlyWrites.sends ⟨rfl, fun p hp => by cases p <;> simp_all [Part.same]⟩ rfl
  · exact OnlySends.refl _ s

theorem doAck_runs {s : State} {c : Nat} {m : List Word} (h : s.runs c 0x02 m) :
    ((s.popWork c).ackRun c (nth m 2)).2.mails (doAck c s) := by
  rw [doAck, State.handle_runs h]
  exact State.mails.trans (State.resolveResult_mails _ _ _ _ _ _) (State.pump_mails _)

theorem State.pendOn_mails (s : State) (c : Nat) (q : PendReq) :
    ({ s with cw := s.cw.onReader c fun rd => { rd with pend := some q } } : State).mails (s.pendOn c q) := by
  unfold State.pendOn
  dsimp only
  split
  · exact State.resolveResult_mails _ _ _ _ _ _
  · exact State.mails.refl _

theorem doRewind_runs {s : State} {c : Nat} {m : List Word} (h : s.runs c 0x03 m) :
    State.mails (if later32 (nth m 2) ((nth s.cw.readers c).delivered + 1) = true then s.popWork c
      else { s.popWork c with cw := s.cw.onReader c fun rd =>
        { rd with pend := some { rewindTo := some (nth m 2), client := c, cmp := msgCmp m } } }) (doRewind c s) := by
  rw [doRewind, State.handle_runs h]
  refine State.mails.trans ?_ (State.pump_mails _)
  have hreaders : (s.popWork c).cw = s.cw := rfl
  rw [hreaders]
  split
  · exact State.resolveResult_mails _ _ _ _ _ _
  · exact State.pendOn_mails _ _ _

theorem doFlush_runs {s : State} {c : Nat} {m : List Word} (h : s.runs c 0x04 m) :
    State.mails { s.popWork c with cw := s.cw.onReader c fun rd =>
      { rd with pend := some { rewindTo := none, client := c, cmp := msgCmp m } } } (doFlush c s) := by
  rw [doFlush, State.handle_runs h]
  exact State.mails.trans (State.pendOn_mails _ _ _) (State.pump_mails _)

/-- A change of one reader. -/
theorem Causeway.onReader_same {cw : Causeway} {r : Nat} (hr : r < cw.readers.length) (f : Reader → Reader) :
    nth (cw.onReader r f).readers r = f (nth cw.readers r) := nth_modify_same hr f

theorem Causeway.onReader_ne (cw : Causeway) {r i : Nat} (hi : i ≠ r) (f : Reader → Reader) :
    nth (cw.onReader r f).readers i = nth cw.readers i := nth_modify_ne _ hi f

/-- What a command comes to that changes only its reader and then mails. -/
theorem reader_of_mails {s t : State} {c : Nat} {f : Reader → Reader} (hc : c < s.clients.length)
    (hr : c < s.cw.readers.length)
    (hmails : State.mails { s.popWork c with cw := s.cw.onReader c f } t) :
    worked s t c ∧ nth t.cw.readers c = f (nth s.cw.readers c) ∧ (∀ i, i ≠ c → nth t.cw.readers i = nth s.cw.readers i) ∧
      OnlySends [.cw, .up, .clients] s t := by
  refine ⟨worked_of_mails hc hmails rfl, ?_, fun i hi => ?_, ?_⟩
  · rw [hmails.cw, Causeway.onReader_same hr]
  · rw [hmails.cw, Causeway.onReader_ne _ hi]
  · exact ((State.popWork_sends s c).after (onlySends_cw _ _) (by simp) (by simp)).after hmails.1 (List.Subset.refl _) (by simp)

/-- What a command comes to that only mails. -/
theorem popWork_of_mails {s t : State} {c : Nat} (hc : c < s.clients.length) (hmails : (s.popWork c).mails t) :
    worked s t c ∧ OnlySends [.up, .clients] s t :=
  ⟨worked_of_mails hc hmails rfl, (State.popWork_sends s c).trans hmails.1⟩

/-! ### WHERE (R453, R460) -/

/-- A change of the requests that wait at one reader leaves every reader's cursor. -/
theorem nth_onReader_pend (cw : Causeway) (c r : Nat) (f : Option PendReq → Option PendReq) :
    nth (cw.onReader c fun rd => { rd with pend := f rd.pend }).readers r =
      { nth cw.readers r with pend := (nth (cw.onReader c fun rd => { rd with pend := f rd.pend }).readers r).pend } := by
  rcases nth_modify_cases cw.readers c r (fun rd => { rd with pend := f rd.pend }) with hkept | hset
  · rw [Causeway.onReader, hkept]
  · rw [Causeway.onReader, hset]

/-- A request that waits or not is no part of the backlog. -/
theorem Causeway.backlog_pend (cw : Causeway) (c r : Nat) (f : Option PendReq → Option PendReq) :
    (cw.onReader c fun rd => { rd with pend := f rd.pend }).backlog r = cw.backlog r := by
  have hpool : (cw.onReader c fun rd => { rd with pend := f rd.pend }).pool r = cw.pool r := by
    unfold Causeway.pool
    rw [nth_onReader_pend]
    rfl
  have hbegun : (cw.onReader c fun rd => { rd with pend := f rd.pend }).begun r = cw.begun r := by
    unfold Causeway.begun
    rw [nth_onReader_pend, hpool]
  unfold Causeway.backlog Causeway.backlogRaw
  rw [hpool, hbegun, nth_onReader_pend]
  rfl

/-- The locks, the staged restore and the work in progress of client c let go (R453). -/
def State.letGo (s : State) (c : Nat) : State := ((s.freeLocks c).dropStaging c).orphan c

section
variable (s : State) (c : Nat)

theorem State.letGo_time : (s.letGo c).time = (s.orphan c).time := by
  unfold State.letGo State.dropStaging
  split
  · split <;> rfl
  · rfl

theorem State.letGo_port : (s.letGo c).port = (s.orphan c).port := by
  unfold State.letGo State.dropStaging
  split
  · split <;> rfl
  · rfl

theorem State.letGo_cw : (s.letGo c).cw =
    s.cw.onReader c fun rd => { rd with pend := rd.pend.map fun q => { q with client := noClient } } := by
  unfold State.letGo State.dropStaging
  split
  · split <;> rfl
  · rfl

theorem State.letGo_clients : (s.letGo c).clients = s.clients := by
  unfold State.letGo State.dropStaging
  split
  · split <;> rfl
  · rfl

theorem State.letGo_locks : (s.letGo c).locks = (s.freeLocks c).locks := by
  unfold State.letGo State.dropStaging
  split
  · split <;> rfl
  · rfl

end

/-- A lock after a client's locks are freed. -/
theorem State.freeLocks_nth (s : State) (c k : Nat) :
    nth (s.freeLocks c).locks k = if (nth s.locks k).holder = some c then Lock.free else nth s.locks k := by
  by_cases hk : k < s.locks.length
  · simp [State.freeLocks, nth_map hk]
  · have hdefault (l : List Lock) (hl : l.length = s.locks.length) : nth l k = default := by
      simp [nth, List.getD_eq_getElem?_getD, hl, hk]
    rw [hdefault _ (by simp [State.freeLocks]), hdefault _ rfl]
    exact (if_neg (show ¬ (default : Lock).holder = some c from nofun)).symm

theorem State.pumpOne_dropped (s : State) (c i : Nat) : (nth (s.pumpOne c).clients i).dropped = (nth s.clients i).dropped := by
  have hrelease (a : Client) : a.release.dropped = a.dropped := by
    unfold Client.release
    split
    · rfl
    · split <;> rfl
  unfold State.pumpOne
  split
  · split
    · rfl
    · rcases nth_modify_cases s.clients c i Client.release with hkept | hset
      · rw [State.onClient, State.sendControl_clients, hkept]
      · rw [State.onClient, State.sendControl_clients, hset, hrelease]
  · rfl

theorem State.pump_dropped (s : State) (i : Nat) : (nth s.pump.clients i).dropped = (nth s.clients i).dropped := by
  have hfold (l : List Nat) (s : State) : (nth (l.foldl State.pumpOne s).clients i).dropped = (nth s.clients i).dropped := by
    induction l generalizing s with
    | nil => rfl
    | cons x l ih => rw [List.foldl_cons, ih, State.pumpOne_dropped]
  exact hfold _ s

/-- The hub as WHERE makes its reply: everything of the client let go, and nothing of it waits to be sent. -/
def State.whereCleared (s : State) (c : Nat) (cmp : BitVec 16) : State :=
  let s := (s.letGo c).onClient c fun cl =>
    { cl with outSlot := none, outQ := [], guestQ := [],
              reps := cl.reps.dropWhile fun r => !(r.cmp == cmp && r.typ == 0x01 && r.body.isNone) }
  { s with
    mot := { s.mot with calSnaps := s.mot.calSnaps.filter fun x => x.1 != c }
    age := { s.age with snaps := s.age.snaps.filter fun x => x.1 != c } }

/-- PEAK of the client's reader and DROPPED cleared. -/
def State.countsCleared (s : State) (c : Nat) : State :=
  { s with cw := s.cw.onReader c fun rd => { rd with peak := s.cw.backlog c } }.onClient c fun cl => { cl with dropped := 0 }

theorem State.whereRun_eq (s : State) (c : Nat) (cmp : BitVec 16) :
    ∃ words, s.whereRun c cmp = ((s.whereCleared c cmp).resolveResult c cmp 0x01 0x00 words).countsCleared c :=
  ⟨_, rfl⟩

theorem doWhere_frame (c : Nat) (s : State) :
    OnlyWrites [.time, .port, .cw, .mot, .up, .clients, .locks, .age] s (doWhere c s) :=
  ⟨by simp, fun p hp => by cases p <;> simp_all [Part.same]⟩

/-- What WHERE comes to on its client, past what it sends. -/
theorem doWhere_runs {s : State} {c : Nat} {m : List Word} (h : s.runs c 0x01 m) :
    ∃ v : State, ((s.popWork c).whereCleared c (msgCmp m)).mails v ∧ (v.countsCleared c).mails (doWhere c s) ∧
      (nth (doWhere c s).clients c).dropped = (nth (v.countsCleared c).clients c).dropped := by
  obtain ⟨words, heq⟩ := State.whereRun_eq (s.popWork c) c (msgCmp m)
  refine ⟨_, State.resolveResult_mails _ c (msgCmp m) 0x01 0x00 words, ?_, ?_⟩
  · rw [doWhere, State.handle_runs h, heq]
    exact State.pump_mails _
  · rw [doWhere, State.handle_runs h, heq, State.pump_dropped]

/-- No label waits for its edge on behalf of a client whose work goes on without a reply. -/
theorem State.orphan_labels (s : State) {c : Nat} (hc : c < noClient) :
    ∀ x ∈ (s.orphan c).time.pps.pendLabels, x.2.2.1 ≠ c := by
  intro x hx
  obtain ⟨y, -, rfl⟩ := List.mem_map.mp hx
  split
  · exact Nat.ne_of_gt hc
  · assumption

/-- Settles O57: each message leaves the work, changes its reader, its client or its locks, and is answered. -/
theorem readerMessages : Obligations.ReaderMessages := by
  unfold Obligations.ReaderMessages
  refine ⟨fun c s m h => ⟨_, rfl, ?_⟩, fun c s m h hr => ⟨_, rfl, ?_⟩, fun c s m h hr => ⟨_, rfl, ?_⟩,
    fun c s m h hr => ⟨_, rfl, ?_⟩, fun c s m h => ⟨_, rfl, ?_⟩⟩
  · obtain ⟨v, hreply, hleave, hdropped⟩ := doWhere_runs h
    have hc : c.val < s.clients.length := h.1
    have hcleared : (nth ((s.popWork c).whereCleared c (msgCmp m)).clients c).work = (nth s.clients c).work.drop 1 := by
      have hlen : c.val < ((s.popWork c).letGo c).clients.length := by
        rw [State.letGo_clients]; simpa [State.popWork] using hc
      show (nth (((s.popWork c).letGo c).onClient c _).clients c).work = _
      rw [State.onClient_same hlen, State.letGo_clients, State.popWork_same hc]
    have hclocks : SameClocks (s.orphan c) (doWhere c s) := by
      have htime : ((s.popWork c).whereCleared c (msgCmp m)).time = (s.orphan c).time := State.letGo_time (s.popWork c) c
      exact (SameClocks.congr_left htime.symm hreply.clocks).trans (SameClocks.congr_left rfl hleave.clocks)
    have hlen : c.val < v.clients.length := by
      rw [hreply.length]
      show c.val < (((s.popWork c).letGo c).onClient c _).clients.length
      rw [State.onClient_length, State.letGo_clients]
      simpa [State.popWork] using hc
    refine ⟨?_, ?_, fun hr => ?_, ?_, hclocks, ?_, fun k => ?_, doWhere_frame c s⟩
    · rw [worked, hleave.work c, State.countsCleared, State.onClient_same (by exact hlen), ← hcleared]
      exact hreply.work c
    · rw [hdropped, State.countsCleared, State.onClient_same (by exact hlen)]
    · have hcw : v.cw = s.cw.onReader c fun rd => { rd with pend := rd.pend.map fun q => { q with client := noClient } } :=
        hreply.cw.trans (State.letGo_cw (s.popWork c) c)
      rw [hleave.cw]
      show nth (v.cw.onReader c _).readers c = _
      rw [Causeway.onReader_same (by rw [hcw]; simpa [Causeway.onReader] using hr), hcw, Causeway.backlog_pend s.cw c c fun x =>
        x.map fun q => { q with client := noClient }, Causeway.onReader_same hr]
    · rw [hclocks.1]
      exact State.orphan_labels s (by have := c.isLt; simp only [noClient]; omega)
    · exact hleave.port.trans (hreply.port.trans (State.letGo_port (s.popWork c) c))
    · have hlocks : (doWhere c s).locks = (s.freeLocks c).locks :=
        hleave.locks.trans (hreply.locks.trans (State.letGo_locks (s.popWork c) c))
      rw [hlocks, State.freeLocks_nth]
  · have hacks := doAck_runs h
    have hframe := ((State.popWork_sends s c).after (State.ackRun_sends _ c (nth m 2)) (by simp) (List.Subset.refl _)).after
      hacks.1 (List.Subset.refl _) (by simp)
    rw [State.ackRun_eq] at hacks
    have hc : c.val < s.clients.length := h.1
    have hreaders : (s.popWork c).cw = s.cw := rfl
    rw [hreaders] at hacks
    split at hacks
    next hnew =>
      rw [if_pos hnew]
      refine ⟨worked_of_mails hc hacks rfl, ?_, fun i hi => ?_, ?_⟩
      · rw [hacks.cw]; exact Causeway.onReader_same hr _
      · rw [hacks.cw]; exact Causeway.onReader_ne _ hi _
      · exact hframe
    next hold =>
      rw [if_neg hold]
      obtain ⟨hworked, -⟩ := popWork_of_mails hc hacks
      exact ⟨hworked, by rw [hacks.cw, hreaders], fun i hi => by rw [hacks.cw, hreaders], hframe⟩
  · have hrewinds := doRewind_runs h
    split at hrewinds
    next hfar =>
      rw [if_pos hfar]
      obtain ⟨hworked, hsends⟩ := popWork_of_mails h.1 hrewinds
      exact ⟨hworked, by rw [hrewinds.cw]; rfl, fun i hi => by rw [hrewinds.cw]; rfl, hsends.mono (by simp)⟩
    next hnear =>
      rw [if_neg hnear]
      exact reader_of_mails h.1 hr hrewinds
  · exact reader_of_mails h.1 hr (doFlush_runs h)
  · have hvotes := doVote_runs h
    have hc : c.val < s.clients.length := h.1
    have hc' : c.val < (s.popWork c).clients.length := by simpa [State.popWork] using hc
    refine ⟨?_, ?_, fun i hi => ?_, ((State.popWork_sends s c).trans (State.onClient_sends _ c _)).trans hvotes.1⟩
    · rw [worked, hvotes.work c, State.onClient_same hc', State.popWork_same hc]
    · rw [hvotes.vote c, State.onClient_same hc']
    · rw [hvotes.vote i, State.onClient_ne _ hi, State.popWork_ne hi]

end Sys2Proof.Machine
end

section
/-! PROOFS. Calibration and margin records, system messages and locks (17_mailboxes.md R459, R462, R463, 05_sea_reference.md R156,
R157). -/

namespace Sys2Proof.Machine

/-! ### CAL-READ, MARGIN-READ and CAL-RESTORE (R156, R157, R532) -/

theorem State.dropSequence_mails (s : State) (c typ : Nat) (snaps : List (Nat × BitVec 16)) :
    s.mails (s.dropSequence c typ snaps) := by
  unfold State.dropSequence
  dsimp only
  refine State.mails.trans (t := match snaps.find? (·.1 == c) with
    | some (_, cmp) => s.dropRep c cmp typ
    | none => s) ?_ (State.onClient_mails _ c fun _ => ⟨rfl, rfl, rfl, rfl, rfl, rfl, rfl⟩)
  split
  · exact State.dropRep_mails _ _ _ _
  · exact State.mails.refl s

/-- What a command comes to that mails, writes a part that mail leaves, and mails again. -/
theorem worked_of_step {s t u v : State} {c : Nat} {ps : List Part} (hc : c < s.clients.length) (hmails : (s.popWork c).mails t)
    (hmails' : u.mails v) (hclients : u.clients = t.clients) (hwrites : OnlySends ps t u) :
    worked s v c ∧ OnlySends (ps ++ [.up, .clients]) s v := by
  refine ⟨?_, (((State.popWork_sends s c).trans hmails.1).after hwrites (by simp) (by simp)).after hmails'.1
    (List.Subset.refl _) (by simp)⟩
  rw [worked, hmails'.work c, hclients, hmails.work c, State.popWork_same hc]

theorem doCalRead_runs {s : State} {c : Nat} {m : List Word} (h : s.runs c 0x08 m) :
    ∃ t, (s.popWork c).mails t ∧ State.mails { t with mot := { t.mot with
      calSnaps := t.mot.calSnaps.filter (fun x => x.1 != c) ++ [(c, msgCmp m)] } } (doCalRead c s) := by
  refine ⟨_, State.dropSequence_mails (s.popWork c) c 0x08 s.mot.calSnaps, ?_⟩
  rw [doCalRead, State.handle_runs h]
  exact State.pump_mails _

theorem doMarginRead_runs {s : State} {c : Nat} {m : List Word} (h : s.runs c 0x0B m) :
    ∃ t, (s.popWork c).mails t ∧ State.mails { t with age := { t.age with
      snaps := t.age.snaps.filter (fun x => x.1 != c) ++ [(c, msgCmp m)] } } (doMarginRead c s) := by
  refine ⟨_, State.dropSequence_mails (s.popWork c) c 0x0B s.age.snaps, ?_⟩
  rw [doMarginRead, State.handle_runs h]
  exact State.pump_mails _

/-- A fragment that is not the last one is staged. -/
theorem State.stageFragment_mails {s : State} {r : Restore} {frag : Nat} (hfrag : frag < 39) :
    State.mails { s with mot := { s.mot with restore := some r } } (s.stageFragment r frag) := by
  simp only [State.stageFragment, hfrag, if_true]
  exact State.dropRep_mails _ _ _ _

/-- A restore that starts at its fragment 0. -/
theorem doCalRestore_first {s : State} {c : Nat} {m : List Word} (h : s.runs c 0x09 m) (hnone : s.mot.restore = none)
    (hfrag : fld (nth m 2) 7 0 = 0) :
    ∃ r : Restore, State.mails { s.popWork c with mot := { s.mot with restore := some r } } (doCalRestore c s) ∧ r.client = c ∧
      r.words = (m.take (m.length - 5)).drop 3 ∧ r.frags = 1 ∧ r.last = s.now ∧ r.verified = false := by
  have hnone' : (s.popWork c).mot.restore = none := hnone
  rw [doCalRestore, State.handle_runs h]
  simp only [hnone', hfrag, if_true]
  exact ⟨_, State.mails.trans (State.stageFragment_mails (s := s.popWork c) (by decide)) (State.pump_mails _), rfl, rfl, rfl, rfl, rfl⟩

/-- A fragment that follows the ones staged. -/
theorem doCalRestore_next {s : State} {c : Nat} {m : List Word} {r : Restore} (h : s.runs c 0x09 m)
    (hstaged : s.mot.restore = some r) (hclient : r.client = c) (hopen : r.verified = false)
    (hfrag : fld (nth m 2) 7 0 = r.frags) (hmore : r.frags < 39) :
    ∃ q : Restore, State.mails { s.popWork c with mot := { s.mot with restore := some q } } (doCalRestore c s) ∧ q.client = c ∧
      q.words = r.words ++ (m.take (m.length - 5)).drop 3 ∧ q.frags = r.frags + 1 ∧ q.last = s.now ∧ q.verified = false := by
  have hstaged' : (s.popWork c).mot.restore = some r := hstaged
  have hown : ¬ (r.client ≠ c ∨ r.verified = true) := by simp [hclient, hopen]
  rw [doCalRestore, State.handle_runs h]
  simp only [hstaged', hfrag, hown, if_true, if_false]
  exact ⟨_, State.mails.trans (State.stageFragment_mails (s := s.popWork c) hmore) (State.pump_mails _), rfl, rfl, rfl, rfl, rfl⟩

/-- Another client's restore, and one that is verified, refuse a fragment. -/
theorem doCalRestore_refused {s : State} {c : Nat} {m : List Word} {r : Restore} (h : s.runs c 0x09 m)
    (hstaged : s.mot.restore = some r) (hother : r.client ≠ c ∨ r.verified = true) : (s.popWork c).mails (doCalRestore c s) := by
  have hstaged' : (s.popWork c).mot.restore = some r := hstaged
  rw [doCalRestore, State.handle_runs h]
  simp only [hstaged', hother, if_true]
  exact State.mails.trans (State.resolveResult_mails _ _ _ _ _ _) (State.pump_mails _)

/-- Staged fragments that wait too long go. -/
theorem doCalRestoreTimeout_runs {s : State} {r : Restore} (dt : Nat) (hstaged : s.mot.restore = some r)
    (hopen : r.verified = false) (hlate : r.last + secPs 10 ≤ s.now + dt) :
    State.mails { s.advance dt with mot := { s.mot with restore := none } } (doCalRestoreTimeout dt s) := by
  have hstaged' : (s.advance dt).mot.restore = some r := hstaged
  have hcond : (!r.verified && decide (r.last + secPs 10 ≤ (s.advance dt).now)) = true := by simp [hopen, hlate]
  simp only [doCalRestoreTimeout, hstaged', hcond, if_true]
  exact State.mails.trans (State.reply_mails _ _ _ _ _ _ _) (State.pump_mails _)

theorem doCalRestoreTimeout_frame (dt : Nat) (s : State) : OnlyWrites [.time, .mot, .up, .clients] s (doCalRestoreTimeout dt s) :=
  ⟨by simp, fun p hp => by cases p <;> simp_all [Part.same]⟩

/-- What a command comes to that changes only the calibration state of its client and then mails. -/
theorem mot_of_mails {s t : State} {c : Nat} {x : Motion} (hc : c < s.clients.length)
    (hmails : State.mails { s.popWork c with mot := x } t) :
    worked s t c ∧ t.mot = x ∧ OnlySends [.mot, .up, .clients] s t := by
  obtain ⟨hworked, hsends⟩ := worked_of_step hc (State.mails.refl _) hmails rfl (onlySends_mot (s.popWork c) x)
  exact ⟨hworked, hmails.mot, hsends⟩

/-- Settles O58: a read asks for its snapshot; a fragment is staged, or answered; staged fragments end with their time. -/
theorem recordMessages : Obligations.RecordMessages := by
  unfold Obligations.RecordMessages
  refine ⟨fun c s m h => ⟨_, rfl, ?_⟩, fun c s m h => ⟨_, rfl, ?_⟩, fun c s m h hnone hfrag => ?_,
    fun c s m r h hstaged hclient hopen hfrag hmore => ?_, fun c s m r h hstaged hother => ⟨_, rfl, ?_⟩,
    fun dt s r hstaged hopen hlate => ⟨_, rfl, ?_, doCalRestoreTimeout_frame dt s⟩⟩
  · obtain ⟨t, hdrop, hreads⟩ := doCalRead_runs h
    obtain ⟨hworked, hsends⟩ := worked_of_step h.1 hdrop hreads rfl (onlySends_mot t _)
    exact ⟨hworked, by rw [hreads.mot, hdrop.mot]; rfl, hsends⟩
  · obtain ⟨t, hdrop, hreads⟩ := doMarginRead_runs h
    obtain ⟨hworked, hsends⟩ := worked_of_step h.1 hdrop hreads rfl (onlySends_age t _)
    exact ⟨hworked, by rw [hreads.age, hdrop.age]; rfl, hsends⟩
  · obtain ⟨r, hstages, hr⟩ := doCalRestore_first h hnone hfrag
    obtain ⟨hworked, hmot, hsends⟩ := mot_of_mails h.1 hstages
    obtain ⟨hclient, hwords, hfrags, hlast, hopen⟩ := hr
    exact ⟨_, r, rfl, hworked, hmot, hclient, hwords, hfrags, hlast, hopen, hsends⟩
  · obtain ⟨q, hstages, hclient', hwords, hfrags, hlast, hopen'⟩ := doCalRestore_next h hstaged hclient hopen hfrag hmore
    obtain ⟨hworked, hmot, hsends⟩ := mot_of_mails h.1 hstages
    exact ⟨_, q, rfl, hworked, hmot, hclient', hwords, hfrags, hlast, hopen', hsends⟩
  · exact popWork_of_mails h.1 (doCalRestore_refused h hstaged hother)
  · exact (doCalRestoreTimeout_runs dt hstaged hopen hlate).mot

/-! ### Messages about the hub (R3, R98, R386, R463, R480) -/

/-- A client of the host ports is not pumped. -/
theorem State.pump_host (s : State) {c : Nat} (hc : 4 ≤ c) : nth s.pump.clients c = nth s.clients c := by
  have hone (s : State) {i : Nat} (hi : i < 4) : nth (s.pumpOne i).clients c = nth s.clients c := by
    unfold State.pumpOne
    split
    · split
      · rfl
      · rw [State.onClient_ne _ (by omega), State.sendControl_clients]
    · rfl
  have hfold (l : List Nat) (hl : ∀ i ∈ l, i < 4) (s : State) : nth (l.foldl State.pumpOne s).clients c = nth s.clients c := by
    induction l generalizing s with
    | nil => rfl
    | cons i l ih =>
      rw [List.foldl_cons, ih (fun j hj => hl j (List.mem_cons_of_mem _ hj)), hone s (hl i List.mem_cons_self)]
  exact hfold _ (fun i hi => List.mem_range.mp hi) s

/-- The one reply that waits for its body, with a free outbound slot, is in the slot once its body is there. -/
theorem Client.build_single {cl : Client} {r : Rep} {now : Nat → List Word → List Word} {ident : Word} {rel typ : Nat}
    {body : List Word} (hreps : cl.reps = [r]) (hbody : r.body = some (typ, [body])) (hfree : cl.outSlot = none) :
    (cl.build now ident false rel).outSlot = some (mailWords typ cl.nextOut ident (now typ body)) ∧
      (cl.build now ident false rel).nextOut = cl.nextOut + 1 := by
  simp [Client.build, Client.buildF, hreps, hbody, Client.enqueue, hfree, buildMsgs]

theorem doIdentity_runs {s : State} {c : Nat} {m : List Word} (h : s.runs c 0x0A m) :
    doIdentity c s = ((s.popWork c).resolveResult c (msgCmp m) 0x0A 0x00 identityRecord).pump := by
  rw [doIdentity, State.handle_runs h]

/-- A client whose IDENTITY has its reply (R3, R458). -/
def Client.identified (cmp : BitVec 16) (cl : Client) : Client :=
  { cl with reps := resolveFirst cmp 0x0A (fun r => (0x0A + 0x80, [replyWord cmp r.acc 0 :: identityRecord])) cl.reps }

/-- The identity record in the only reply that waits is in the outbound slot at once. -/
theorem State.identity_slot {s : State} {c acc : Nat} {cmp : BitVec 16} (hc : c < s.clients.length)
    (hreps : (nth s.clients c).reps = [{ cmp := cmp, typ := 0x0A, acc := acc, body := none }])
    (hfree : (nth s.clients c).outSlot = none) (hrole : s.roleOf c ≠ some 2) :
    (nth (s.resolveResult c cmp 0x0A 0x00 identityRecord).clients c).outSlot =
        some (mailWords 0x8A (nth s.clients c).nextOut (s.identOf c) (replyWord cmp acc 0 :: identityRecord)) ∧
      (nth (s.resolveResult c cmp 0x0A 0x00 identityRecord).clients c).nextOut = (nth s.clients c).nextOut + 1 := by
  have hguest : (s.roleOf c == some 2) = false := by simpa using hrole
  have hfill : resolveFirst cmp 0x0A (fun r => (0x0A + 0x80, [replyWord cmp r.acc 0 :: identityRecord])) (nth s.clients c).reps =
      [{ cmp := cmp, typ := 0x0A, acc := acc, body := some (0x8A, [replyWord cmp acc 0 :: identityRecord]) }] := by
    rw [hreps]
    simp [resolveFirst]
  have hcur : nth (s.onClient c (Client.identified cmp)).clients c = (nth s.clients c).identified cmp := State.onClient_same hc _
  have hrole' : ((s.onClient c (Client.identified cmp)).roleOf c == some 2) = false := hguest
  have hbuilt : nth (s.resolveResult c cmp 0x0A 0x00 identityRecord).clients c =
      ((nth s.clients c).identified cmp).build ((s.onClient c (Client.identified cmp)).present c) (s.identOf c) false
        (max (s.mark + 1) ((((nth s.clients c).identified cmp).seen.getD 0) + 1)) := by
    show nth ((s.onClient c (Client.identified cmp)).buildReps c).clients c = _
    rw [State.buildReps, hrole', State.onClient_same (by simpa using hc), hcur]
    rfl
  have hpresent : (s.onClient c (Client.identified cmp)).present c 0x8A (replyWord cmp acc 0 :: identityRecord) =
      replyWord cmp acc 0 :: identityRecord :=
    rfl
  rw [hbuilt]
  have hsingle := Client.build_single (cl := (nth s.clients c).identified cmp)
    (now := (s.onClient c (Client.identified cmp)).present c) (ident := s.identOf c)
    (rel := max (s.mark + 1) ((((nth s.clients c).identified cmp).seen.getD 0) + 1)) hfill rfl hfree
  rwa [hpresent] at hsingle

theorem State.loadRecord_sends (s : State) (result src trigger sect : Nat) (h : Option Header) (detail : Nat) :
    OnlySends [.cw, .way] s (s.loadRecord result src trigger sect h detail) :=
  OnlyWrites.sends ⟨by simp, fun p hp => by cases p <;> simp_all [Part.same]⟩ (by simp)

theorem doReloadImage_accepted {s : State} {c : Nat} {m : List Word} (h : s.runs c 0x0C m) (hok : s.reloadRefusal = none) :
    State.mails { s.popWork c with port := { s.port with load := some (newLoad 2 (some (c, msgCmp m))) } } (doReloadImage c s) := by
  have hok' : (s.popWork c).reloadRefusal = none := hok
  rw [doReloadImage, State.handle_runs h, hok']
  exact State.pump_mails _

theorem doReloadImage_refused {s : State} {c r : Nat} {m : List Word} (h : s.runs c 0x0C m) (hbad : s.reloadRefusal = some r) :
    State.mails ((s.popWork c).loadRecord r 0xFF 2 0 none 0) (doReloadImage c s) := by
  have hbad' : (s.popWork c).reloadRefusal = some r := hbad
  rw [doReloadImage, State.handle_runs h, hbad']
  exact State.mails.trans (State.resolveResult_mails _ _ _ _ _ _) (State.pump_mails _)

/-- The end of the Service window that a SERVICE-WINDOW gives. -/
theorem State.windowRun_end (s : State) (d : Nat) :
    (s.windowRun d).2 = if d = 0 then none else if s.strap 13 = 6 then some (s.tbL + d * 10 ^ 9) else s.power.service := by
  unfold State.windowRun
  split
  · rfl
  · by_cases hstrap : s.strap 13 = 6
    · simp [hstrap]
    · simp [hstrap]

theorem doServiceWindow_runs {s : State} {c : Nat} {m : List Word} (h : s.runs c 0x0D m) :
    State.mails { s.popWork c with power := { s.power with service := (s.windowRun (fld (nth m 2) 15 0)).2 } }
      (doServiceWindow c s) := by
  rw [doServiceWindow, State.handle_runs h]
  exact State.mails.trans (State.resolveResult_mails _ _ _ _ _ _) (State.pump_mails _)

theorem doServiceWindowEnd_eq {s : State} {e : Nat} (dt : Nat) (hopen : s.power.service = some e) :
    doServiceWindowEnd dt s =
      { s.advance dt with power := { s.power with service := if e ≤ (s.advance dt).tbL then none else some e } } := by
  have hopen' : (s.advance dt).power.service = some e := hopen
  simp only [doServiceWindowEnd, hopen']
  split
  · rfl
  · rw [← hopen]
    rfl

theorem doServiceWindowEnd_frame (dt : Nat) (s : State) : OnlyWrites [.power, .time] s (doServiceWindowEnd dt s) :=
  ⟨by simp, fun p hp => by cases p <;> simp_all [Part.same]⟩

/-- A label for an edge among the sixteen accepted waits while PPS is locked. -/
theorem doPpsLabel_accepted {s : State} {c : Nat} {m : List Word} (h : s.runs c 0x0E m) (hlocked : 2 ≤ s.time.pps.st)
    (hlo : -7 ≤ (BitVec.ofNat 16 (fld (nth m 2) 15 0) - s.time.pps.count).toInt)
    (hhi : (BitVec.ofNat 16 (fld (nth m 2) 15 0) - s.time.pps.count).toInt ≤ 8) :
    State.mails { s.popWork c with time := { s.time with pps := { s.time.pps with
      pendLabels := s.time.pps.pendLabels ++ [(fld (nth m 2) 31 16 * 2 ^ 32 + (nth m 3).toNat,
        BitVec.ofNat 16 (fld (nth m 2) 15 0), c, msgCmp m)] } } } (doPpsLabel c s) := by
  have hpps : (s.popWork c).time = s.time := rfl
  have hst : ¬ s.time.pps.st < 2 := by omega
  have hedge : ¬ ((BitVec.ofNat 16 (fld (nth m 2) 15 0) - s.time.pps.count).toInt < -7 ∨
      8 < (BitVec.ofNat 16 (fld (nth m 2) 15 0) - s.time.pps.count).toInt) := by omega
  rw [doPpsLabel, State.handle_runs h]
  simp only [hpps, hst, hedge, if_false]
  exact State.pump_mails _

theorem doPpsLabel_frame (c : Nat) (s : State) : OnlyWrites [.time, .up, .clients] s (doPpsLabel c s) :=
  ⟨by simp, fun p hp => by cases p <;> simp_all [Part.same]⟩

/-- A launch of the client's own entry inside the window is scheduled. -/
theorem doLaunch_scheduled {s : State} {c u : Nat} {m : List Word} {l : LaunchEntry} (fs : List LineFinding)
    (h : s.runs c 0x0F m) (hentry : s.launchEntry (fld (nth m 2) 3 0) = some l) (hhost : l.host = true) (hown : l.client = c)
    (hclass : s.classify l.tb ((nth m 3).toNat + (nth m 4).toNat * 2 ^ 32) = .scheduled u) :
    State.mails ((s.popWork c).addAct
      { tb := l.tb, t := u, entry := fld (nth m 2) 3 0, periodic := false, stepped := false, alarm := false }) (doLaunch c fs s) := by
  have hentry' : (s.popWork c).launchEntry (fld (nth m 2) 3 0) = some l := hentry
  have hclass' : (s.popWork c).classify l.tb ((nth m 3).toNat + (nth m 4).toNat * 2 ^ 32) = .scheduled u := hclass
  have hmine : ¬ ((!l.host) = true ∨ l.client ≠ c) := by simp [hhost, hown]
  rw [doLaunch, State.handle_runs h]
  simp only [State.launchRequest, hentry', hmine, if_false, hclass']
  exact State.mails.trans (State.resolveResult_mails _ _ _ _ _ _) (State.pump_mails _)

theorem doLaunch_unknown {s : State} {c : Nat} {m : List Word} (fs : List LineFinding) (h : s.runs c 0x0F m)
    (hentry : s.launchEntry (fld (nth m 2) 3 0) = none) : (s.popWork c).mails (doLaunch c fs s) := by
  have hentry' : (s.popWork c).launchEntry (fld (nth m 2) 3 0) = none := hentry
  rw [doLaunch, State.handle_runs h]
  simp only [State.launchRequest, hentry']
  exact State.mails.trans (State.resolveResult_mails _ _ _ _ _ _) (State.pump_mails _)

/-- What a command comes to that changes the clocks for its client and then mails. -/
theorem time_of_mails {s t : State} {c : Nat} {x : Time} (hc : c < s.clients.length)
    (hmails : State.mails { s.popWork c with time := x } t) :
    worked s t c ∧ SameClocks { s with time := x } t ∧ OnlyWrites [.time, .up, .clients] s t := by
  have hstep : OnlyWrites [.time, .up, .clients] s { s.popWork c with time := x } :=
    ⟨rfl, fun p hp => by cases p <;> simp_all [Part.same, State.popWork, State.onClient]⟩
  obtain ⟨⟨hpend, hparts⟩, hclocks⟩ := hmails.1
  exact ⟨worked_of_mails hc hmails rfl, SameClocks.congr_left rfl hclocks,
    ⟨hpend.trans hstep.1, fun p hp => Part.same_trans (hstep.2 p hp) (hparts p hp)⟩⟩

/-- Settles O59: each message leaves the work, changes the one thing it asks for, and is answered. -/
theorem systemMessages : Obligations.SystemMessages := by
  unfold Obligations.SystemMessages
  refine ⟨fun c s m h => ⟨_, rfl, ?_⟩, fun c s m h => ⟨_, rfl, ?_⟩, fun c s m h => ⟨_, rfl, ?_⟩,
    fun dt s e hopen => ⟨_, rfl, ?_, doServiceWindowEnd_frame dt s⟩, fun c s m h hlocked hlo hhi => ⟨_, rfl, ?_⟩,
    fun c fs s m l u h hentry hhost hown hclass => ⟨_, rfl, ?_⟩, fun c fs s m h hentry => ⟨_, rfl, ?_⟩⟩
  · have hmails : (s.popWork c).mails (doIdentity c s) := by
      rw [doIdentity_runs h]
      exact State.mails.trans (State.resolveResult_mails _ _ _ _ _ _) (State.pump_mails _)
    obtain ⟨hworked, hsends⟩ := popWork_of_mails h.1 hmails
    refine ⟨hworked, fun acc hreps hfree hrole hhost => ?_, hsends⟩
    have hc : c.val < (s.popWork c).clients.length := by simpa [State.popWork] using h.1
    have hslot := State.identity_slot (s := s.popWork c) (acc := acc) (cmp := msgCmp m) hc
      (by rw [State.popWork_same h.1]; exact hreps) (by rw [State.popWork_same h.1]; exact hfree) hrole
    rw [State.popWork_same h.1] at hslot
    rw [doIdentity_runs h, State.pump_host _ hhost]
    exact hslot
  · cases hrefuse : s.reloadRefusal with
    | none =>
      have hloads := doReloadImage_accepted h hrefuse
      obtain ⟨hworked, hsends⟩ := worked_of_step h.1 (State.mails.refl _) hloads rfl (onlySends_port (s.popWork c) _)
      rw [if_pos rfl]
      exact ⟨hworked, hloads.port, fun _ => hsends, hsends.mono (by simp)⟩
    | some r =>
      have hrefuses := doReloadImage_refused h hrefuse
      obtain ⟨hworked, hsends⟩ := worked_of_step h.1 (State.mails.refl _) hrefuses (by simp) (State.loadRecord_sends _ _ _ _ _ _ _)
      rw [if_neg (by simp)]
      refine ⟨hworked, hrefuses.port.trans (by simp [State.popWork, State.onClient]), nofun, hsends.mono (by simp)⟩
  · have hwindow := doServiceWindow_runs h
    obtain ⟨hworked, hsends⟩ := worked_of_step h.1 (State.mails.refl _) hwindow rfl (onlySends_power (s.popWork c) _)
    exact ⟨hworked, by rw [hwindow.power, State.windowRun_end], hsends⟩
  · rw [doServiceWindowEnd_eq dt hopen]
  · exact time_of_mails h.1 (doPpsLabel_accepted h hlocked hlo hhi)
  · exact time_of_mails h.1 (doLaunch_scheduled fs h hentry hhost hown hclass)
  · exact popWork_of_mails h.1 (doLaunch_unknown fs h hentry)

/-! ### Locks (R462) -/

/-- One client's turn in a lock decision. -/
def lockTurn (x : State × List Decided) (c : Nat) : State × List Decided :=
  State.lockClientF ((nth x.1.clients c).work.length + 1) c x.1 x.2

/-- The turns of a lock decision, TW before HS before U0 to U3. -/
def State.lockTurns (s : State) : State × List Decided := [5, 4, 0, 1, 2, 3].foldl lockTurn (s, [])

/-- Past the turns a lock decision only replies. -/
theorem doLockDecision_mails (s : State) : s.lockTurns.1.mails (doLockDecision s) :=
  State.mails.trans (State.foldl_mails _ (fun _ _ => State.resolveResult_mails _ _ _ _ _ _) _) (State.pump_mails _)

@[simp] theorem State.decideLock_clients (s : State) (c : Nat) (m : List Word) : (s.decideLock c m).2.2.clients = s.clients := by
  unfold State.decideLock
  dsimp only
  repeat' split
  all_goals rfl

theorem State.decideLock_sends (s : State) (c : Nat) (m : List Word) : OnlySends [.locks] s (s.decideLock c m).2.2 := by
  unfold State.decideLock
  dsimp only
  split
  · split
    · exact OnlySends.refl _ s
    · split
      · exact onlySends_locks s _
      · exact OnlySends.refl _ s
  · split
    · exact onlySends_locks s _
    · exact OnlySends.refl _ s

/-- What a LOCK does to the locks: it takes a free lock, or the client's own, for a lease of 1 to 3600 s. -/
theorem State.decideLock_lock (s : State) (c : Nat) {m : List Word} (hlock : msgType m = 0x06) :
    (s.decideLock c m).2.2.locks =
      if (1 ≤ fld (nth m 2) 15 0 ∧ fld (nth m 2) 15 0 ≤ 3600) ∧
          (s.lockHolder (fld (nth m 2) 18 16) = none ∨ s.lockHolder (fld (nth m 2) 18 16) = some c) then
        s.locks.set (fld (nth m 2) 18 16) { holder := some c, ends := s.tbL + fld (nth m 2) 15 0 * 10 ^ 9 }
      else s.locks := by
  simp only [State.decideLock, hlock, if_true]
  by_cases hlease : fld (nth m 2) 15 0 = 0 ∨ 3600 < fld (nth m 2) 15 0
  · have hout : ¬ (1 ≤ fld (nth m 2) 15 0 ∧ fld (nth m 2) 15 0 ≤ 3600) := by omega
    rw [if_pos hlease, if_neg (fun h => hout h.1)]
  · have hin : 1 ≤ fld (nth m 2) 15 0 ∧ fld (nth m 2) 15 0 ≤ 3600 := by omega
    rw [if_neg hlease]
    by_cases hfree : s.lockHolder (fld (nth m 2) 18 16) = none ∨ s.lockHolder (fld (nth m 2) 18 16) = some c
    · rw [if_pos hfree, if_pos (And.intro hin hfree)]
    · rw [if_neg hfree, if_neg (fun h => hfree h.2)]

/-- What an UNLOCK does to the locks: the client's own is freed. -/
theorem State.decideLock_unlock (s : State) (c : Nat) {m : List Word} (hunlock : msgType m = 0x07) :
    (s.decideLock c m).2.2.locks =
      if s.lockHolder (fld (nth m 2) 2 0) = some c then s.locks.set (fld (nth m 2) 2 0) Lock.free else s.locks := by
  have hne : ¬ msgType m = 0x06 := by omega
  simp only [State.decideLock, hne, if_false]
  split <;> rfl

/-- A client without work is passed over. -/
theorem lockTurn_idle {x : State × List Decided} {c : Nat} (h : (nth x.1.clients c).work = []) : lockTurn x c = x := by
  simp only [lockTurn, State.lockClientF, h]

/-- The one message of a client is decided in its turn. -/
theorem lockTurn_one {x : State × List Decided} {c a : Nat} {m : List Word} (hwork : (nth x.1.clients c).work = [(m, a)])
    (htyp : msgType m = 0x06 ∨ msgType m = 0x07) (hgo : x.1.gate c m = .go) :
    (lockTurn x c).1 = (x.1.decideLock c m).2.2.popWork c := by
  have hc : c < x.1.clients.length := by
    refine Decidable.byContradiction fun hge => ?_
    simp [nth, List.getD_eq_getElem?_getD, hge] at hwork
    cases hwork
  have hdone : (nth ((x.1.decideLock c m).2.2.popWork c).clients c).work = [] := by
    rw [State.popWork_same (by simpa using hc), State.decideLock_clients, hwork]
    rfl
  simp only [lockTurn, hwork, List.length_singleton, State.lockClientF, htyp, if_true, hgo, hdone]

theorem foldl_lockTurn_idle {l : List Nat} {x : State × List Decided} (h : ∀ i ∈ l, (nth x.1.clients i).work = []) :
    l.foldl lockTurn x = x := by
  induction l with
  | nil => rfl
  | cons i l ih =>
    rw [List.foldl_cons, lockTurn_idle (h i List.mem_cons_self)]
    exact ih fun j hj => h j (List.mem_cons_of_mem _ hj)

/-- The turns when only client c has a message. -/
theorem State.lockTurns_one {s : State} {c a : Nat} {m : List Word} (hc : c ∈ [5, 4, 0, 1, 2, 3])
    (hidle : ∀ i, i ≠ c → (nth s.clients i).work = []) (hwork : (nth s.clients c).work = [(m, a)])
    (htyp : msgType m = 0x06 ∨ msgType m = 0x07) (hgo : s.gate c m = .go) :
    s.lockTurns.1 = (s.decideLock c m).2.2.popWork c := by
  obtain ⟨before, after, hsplit⟩ := List.append_of_mem hc
  have hnodup : (before ++ c :: after).Nodup := by rw [← hsplit]; decide
  obtain ⟨-, hafter, hdisjoint⟩ := List.nodup_append.mp hnodup
  have hbefore : ∀ i ∈ before, i ≠ c := fun i hi => hdisjoint i hi c List.mem_cons_self
  have hnot : ∀ i ∈ after, i ≠ c := fun i hi heq => (List.nodup_cons.mp hafter).1 (heq ▸ hi)
  have hturn := lockTurn_one (x := (s, [])) hwork htyp hgo
  rw [State.lockTurns, hsplit, List.foldl_append, foldl_lockTurn_idle fun i hi => hidle i (hbefore i hi), List.foldl_cons,
    foldl_lockTurn_idle, hturn]
  intro i hi
  rw [hturn, State.popWork_ne (hnot i hi), State.decideLock_clients]
  exact hidle i (hnot i hi)

/-- What a decision of one message comes to. -/
theorem doLockDecision_one {s : State} {c a : Nat} {m : List Word} (hc : c < 6) (hlen : s.clients.length = 6)
    (hidle : ∀ i, i ≠ c → (nth s.clients i).work = []) (hwork : (nth s.clients c).work = [(m, a)])
    (htyp : msgType m = 0x06 ∨ msgType m = 0x07) (hgo : s.gate c m = .go) :
    worked s (doLockDecision s) c ∧ (doLockDecision s).locks = (s.decideLock c m).2.2.locks ∧
      OnlySends [.up, .clients, .locks] s (doLockDecision s) := by
  have hmails := doLockDecision_mails s
  rw [State.lockTurns_one (by simp; omega) hidle hwork htyp hgo] at hmails
  refine ⟨?_, hmails.locks, ?_⟩
  · rw [worked, hmails.work c, State.popWork_same (by simpa [hlen] using hc), State.decideLock_clients]
  · exact ((State.decideLock_sends s c m).after (State.popWork_sends _ c) (by simp) (by simp)).after hmails.1
      (List.Subset.refl _) (by simp)

/-- A lease that runs keeps its lock. -/
theorem State.lockHolder_of_lease {s : State} {k c e : Nat} (hlock : nth s.locks k = { holder := some c, ends := e })
    (hlive : s.tbL < e) : s.lockHolder k = some c := by
  simp only [State.lockHolder, hlock, Nat.not_le.mpr hlive, if_false]

theorem State.decideLock_time (s : State) (c : Nat) (m : List Word) : (s.decideLock c m).2.2.time = s.time := by
  unfold State.decideLock
  dsimp only
  repeat' split
  all_goals rfl

theorem State.gate_locks (s : State) (c c' : Nat) (m m' : List Word) :
    ((s.decideLock c m).2.2.popWork c).gate c' m' = s.gate c' m' := by
  unfold State.decideLock
  dsimp only
  repeat' split
  all_goals rfl

theorem doLockLeaseEnd_frame (dt k : Nat) (s : State) : OnlyWrites [.time, .locks] s (doLockLeaseEnd dt k s) :=
  ⟨by simp, fun p hp => by cases p <;> simp_all [Part.same]⟩

/-- Settles O60: the turns of a decision change only the locks and the work; TW's turn comes before that of HS. -/
theorem locksDecided : Obligations.LocksDecided := by
  unfold Obligations.LocksDecided
  refine ⟨fun c s m a k hlen hidle hwork htyp hgo hk hfree => ⟨_, rfl, ?_⟩,
    fun s m5 a5 m4 a4 k hlen hidle hwork5 hwork4 htyp5 htyp4 hgo5 hgo4 hk5 hk4 hlt hmin hmax hfree => ⟨_, rfl, ?_⟩,
    fun c s m a hlen hidle hwork htyp hgo => ⟨_, rfl, ?_⟩,
    fun dt k s c hheld hends => ⟨_, rfl, ?_, doLockLeaseEnd_frame dt k.val s⟩⟩
  · obtain ⟨hworked, hlocks, hsends⟩ := doLockDecision_one c.isLt hlen hidle hwork (Or.inl htyp) hgo
    rw [State.decideLock_lock s c htyp, hk] at hlocks
    refine ⟨hworked, ?_, hsends⟩
    simp only [hlocks, hfree, true_or, and_true]
  · have hmails := doLockDecision_mails s
    have hturn5 := lockTurn_one (x := (s, [])) hwork5 (Or.inl htyp5) hgo5
    have hwork4' : (nth (lockTurn (s, []) 5).1.clients 4).work = [(m4, a4)] := by
      rw [hturn5, State.popWork_ne (by decide), State.decideLock_clients, hwork4]
    have hgo4' : (lockTurn (s, []) 5).1.gate 4 m4 = .go := by rw [hturn5, State.gate_locks, hgo4]
    have hturn4 := lockTurn_one hwork4' (Or.inl htyp4) hgo4'
    have hturns : s.lockTurns.1 = ((lockTurn (s, []) 5).1.decideLock 4 m4).2.2.popWork 4 := by
      rw [State.lockTurns, List.foldl_cons, List.foldl_cons, foldl_lockTurn_idle, hturn4]
      intro i hi
      have hlow : i < 4 := by simp at hi; omega
      rw [hturn4, State.popWork_ne (by omega), State.decideLock_clients, hturn5, State.popWork_ne (by omega),
        State.decideLock_clients]
      exact hidle i hlow
    have hlocks5 : (lockTurn (s, []) 5).1.locks =
        s.locks.set k { holder := some 5, ends := s.tbL + fld (nth m5 2) 15 0 * 10 ^ 9 } := by
      rw [hturn5]
      show (s.decideLock 5 m5).2.2.locks = _
      rw [State.decideLock_lock s 5 htyp5, hk5, if_pos ⟨⟨hmin, hmax⟩, Or.inl hfree⟩]
    have htb : (lockTurn (s, []) 5).1.tbL = s.tbL := by
      rw [hturn5]
      show ((s.decideLock 5 m5).2.2.time.ps - (s.decideLock 5 m5).2.2.time.lBase) / 1000 = s.tbL
      rw [State.decideLock_time]
      rfl
    have hheld : (lockTurn (s, []) 5).1.lockHolder k = some 5 :=
      State.lockHolder_of_lease (by rw [hlocks5, nth_set_same hlt]) (by rw [htb]; omega)
    have hlocks : (doLockDecision s).locks = (lockTurn (s, []) 5).1.locks := by
      rw [hmails.locks, hturns]
      show ((lockTurn (s, []) 5).1.decideLock 4 m4).2.2.locks = _
      rw [State.decideLock_lock _ 4 htyp4, hk4, hheld]
      simp
    refine ⟨by rw [hlocks, hlocks5, nth_set_same hlt], ?_⟩
    rw [hturns, hturn5] at hmails
    exact ((((State.decideLock_sends s 5 m5).after (State.popWork_sends _ 5) (by simp) (by simp)).after
      (State.decideLock_sends _ 4 m4) (List.Subset.refl _) (by simp)).after (State.popWork_sends _ 4) (List.Subset.refl _)
      (by simp)).after hmails.1 (List.Subset.refl _) (by simp)
  · obtain ⟨hworked, hlocks, hsends⟩ := doLockDecision_one c.isLt hlen hidle hwork (Or.inr htyp) hgo
    rw [State.decideLock_unlock s c htyp] at hlocks
    exact ⟨hworked, hlocks, hsends⟩
  · have hlive : (nth (s.advance dt).locks k.val).holder = some c := hheld
    have hends' : (nth (s.advance dt).locks k.val).ends ≤ (s.advance dt).tbL := hends
    have hover : (s.advance dt).lockHolder k.val = none := by simp only [State.lockHolder, hlive, hends', if_true]
    simp only [doLockLeaseEnd, hlive, hover, Option.isSome_some, Option.isNone_none, Bool.and_self, if_true]
    rfl

end Sys2Proof.Machine
end

section
/-! PROOFS. The PTP domains and PPS (14_time.md R379–R386). -/

namespace Sys2Proof.Machine

/-! ### A domain as time passes -/

theorem State.advance_n (s : State) (dt x : Nat) :
    nth (s.advance dt).time.n x = { nth s.time.n x with acc := (nth (s.advance dt).time.n x).acc } := by
  by_cases hx : x < s.time.n.length
  · unfold State.advance
    dsimp only
    split
    · simp only [Time.advance, nth_map hx]
    · rfl
  · have hdefault (l : List Ptp) (hl : l.length = s.time.n.length) : nth l x = default := by
      simp [nth, List.getD_eq_getElem?_getD, hl, hx]
    have hlen : (s.advance dt).time.n.length = s.time.n.length := by
      unfold State.advance
      dsimp only
      split <;> simp [Time.advance]
    rw [hdefault _ hlen, hdefault _ rfl]

@[simp] theorem State.advance_n_length (s : State) (dt : Nat) : (s.advance dt).time.n.length = s.time.n.length := by
  unfold State.advance
  dsimp only
  split <;> simp [Time.advance]

@[simp] theorem State.advance_pps (s : State) (dt : Nat) : (s.advance dt).time.pps = s.time.pps := by
  unfold State.advance
  dsimp only
  split <;> rfl

/-! ### One domain changed (R393) -/

section
variable (s : State) (x : Nat) (f : Ptp → Ptp)

@[simp] theorem State.onN_time : (s.onN x f).time = s.time.onN x f := by
  unfold State.onN
  dsimp only
  split <;> simp

theorem State.onN_nth {s : State} {x : Nat} (hx : x < s.time.n.length) (f : Ptp → Ptp) :
    nth (s.onN x f).time.n x = f (nth s.time.n x) := by
  rw [State.onN_time]
  exact nth_modify_same hx f

/-- A change that leaves the state of the domain has no record. -/
theorem State.onN_of_same_st {s : State} {x : Nat} (hx : x < s.time.n.length) {f : Ptp → Ptp}
    (hst : (f (nth s.time.n x)).st = (nth s.time.n x).st) : s.onN x f = { s with time := s.time.onN x f } := by
  have hsame : (nth (s.time.onN x f).n x).st = (nth s.time.n x).st := by
    rw [Time.onN, nth_modify_same hx, hst]
  simp only [State.onN, hsame, beq_self_eq_true, if_true]

end

theorem onlyWrites_time (s : State) (t : Time) : OnlyWrites [.time] s { s with time := t } :=
  ⟨rfl, fun p hp => by cases p <;> simp_all [Part.same]⟩

theorem onlyWrites_advance_time (s : State) (dt : Nat) (t : Time) : OnlyWrites [.time] s { s.advance dt with time := t } :=
  ⟨rfl, fun p hp => by cases p <;> simp_all [Part.same]⟩

/-! ### Masters (R379, R381) -/

/-- The best master selected: what is known of it, and whether the domain acquires afresh. -/
theorem Ptp.select_some {p : Ptp} {now : Nat} {b : Announce} (h : p.best now = some b) :
    (p.select now).master = some b.sender ∧ (p.select now).grand = b.grandmaster ∧ (p.select now).annIv = b.logInterval ∧
      (p.select now).foreign = p.foreign ∧
      (p.select now).lastAnn = (if p.master = some b.sender then p.lastAnn else now) ∧
      (p.select now).st = (if p.master = some b.sender ∧ p.grand = b.grandmaster ∧ (p.st = .acquiring ∨ p.st = .locked) then p.st
        else .acquiring) := by
  simp only [Ptp.select, h]
  by_cases hmaster : p.master = some b.sender
  · by_cases hsame : p.grand = b.grandmaster ∧ (p.st = .acquiring ∨ p.st = .locked)
    · obtain ⟨hgrand, hst⟩ := hsame
      rcases hst with hst | hst <;> simp [hmaster, hgrand, hst]
    · have hnot : (p.grand == b.grandmaster && (p.st == .acquiring || p.st == .locked)) = false := by
        simpa using hsame
      simp [hmaster, hnot, hsame, Ptp.toAcquiring]
  · simp [hmaster, Ptp.toAcquiring]

theorem Ptp.select_none {p : Ptp} {now : Nat} (h : p.best now = none) : p.select now = p := by
  simp only [Ptp.select, h]

/-- The domain in an Announce, before the best master is selected. -/
def Ptp.noted (p : Ptp) (now : Nat) (m : Announce) : Ptp :=
  { p.heard now m with lastAnn := if p.master == some m.sender then now else p.lastAnn }

theorem Ptp.loseMaster_none {p : Ptp} {now : Nat} (hbest : p.dropMaster.best now = none) (hst : p.st = .locked) :
    p.loseMaster now = p.dropMaster.toHoldover := by
  simp [Ptp.loseMaster, hbest, hst]

theorem Ptp.loseMaster_some {p : Ptp} {now : Nat} {b : Announce} (hbest : p.dropMaster.best now = some b) :
    p.loseMaster now = p.dropMaster.select now := by
  simp [Ptp.loseMaster, hbest]

section
variable {s : State} {dt : Nat} {x : Fin 2}

theorem doPtpAnnounce_eq {m : Announce} (hup : s.uplinkOn = true) (hon : s.domainOn x = true) (hlo : -3 ≤ m.logInterval)
    (hhi : m.logInterval ≤ 4) : doPtpAnnounce dt x m s =
      (s.advance dt).onN x fun p => (p.noted (s.now + dt) m).select (s.now + dt) := by
  have hup' : (s.advance dt).uplinkOn = true := hup
  have hon' : (s.advance dt).domainOn x = true := hon
  simp only [doPtpAnnounce, hup', hon', hlo, hhi, decide_true, Bool.and_self, if_true, Ptp.announce, State.advance_now]
  rfl

theorem doAnnounceReceiptTimeout_eq (hmaster : (nth s.time.n x).master ≠ none)
    (hlate : (nth s.time.n x).lastAnn + 3 * pow2Sec (nth s.time.n x).annIv ≤ s.now + dt) :
    doAnnounceReceiptTimeout dt x s = (s.advance dt).onN x fun p => p.loseMaster (s.now + dt) := by
  have hsome : (nth s.time.n x).master.isSome = true := Option.isSome_iff_ne_none.mpr hmaster
  have hcond : ((nth (s.advance dt).time.n x).master.isSome && decide ((nth (s.advance dt).time.n x).lastAnn +
      3 * pow2Sec (nth (s.advance dt).time.n x).annIv ≤ s.now + dt)) = true := by
    rw [State.advance_n]
    simp [hsome, hlate]
  simp only [doAnnounceReceiptTimeout, State.advance_now, hcond, if_true]

theorem doSyncTimeout_eq (hst : (nth s.time.n x).st = .locked ∨ (nth s.time.n x).st = .acquiring)
    (hlate : (nth s.time.n x).lastSync + 4 * pow2Sec (nth s.time.n x).syncIv ≤ s.now + dt) :
    doSyncTimeout dt x s = (s.advance dt).onN x Ptp.toHoldover := by
  have hcond : (((nth (s.advance dt).time.n x).st == .locked || (nth (s.advance dt).time.n x).st == .acquiring) &&
      decide ((nth (s.advance dt).time.n x).lastSync + 4 * pow2Sec (nth (s.advance dt).time.n x).syncIv ≤ (s.advance dt).now)) =
        true := by
    rw [State.advance_n, State.advance_now]
    rcases hst with hst | hst <;> simp [hst, hlate]
  simp only [doSyncTimeout, hcond, if_true]

theorem doPtpAnnounce_frame (m : Announce) : OnlyWrites [.time, .cw, .way] s (doPtpAnnounce dt x m s) :=
  ⟨by simp, fun p hp => by cases p <;> simp_all [Part.same]⟩

theorem doAnnounceReceiptTimeout_frame : OnlyWrites [.time, .cw, .way] s (doAnnounceReceiptTimeout dt x s) :=
  ⟨by simp, fun p hp => by cases p <;> simp_all [Part.same]⟩

theorem doSyncTimeout_frame : OnlyWrites [.time, .cw, .way] s (doSyncTimeout dt x s) :=
  ⟨by simp, fun p hp => by cases p <;> simp_all [Part.same]⟩

/-- Domain x exists. -/
theorem domain_lt (x : Fin 2) (hlen : s.time.n.length = 2) : x.val < (s.advance dt).time.n.length := by
  rw [State.advance_n_length, hlen]
  exact x.isLt

end

/-- Settles O23: the best master decides whether a domain goes on, and a domain without one or without Syncs is in holdover. -/
theorem ptpMasters : Obligations.PtpMasters := by
  unfold Obligations.PtpMasters
  refine ⟨fun dt x m s b hup hon hlo hhi hlen hbest => ⟨_, rfl, ?_⟩, fun dt x m s hup hon hlo hhi hlen hbest => ⟨_, rfl, ?_⟩,
    fun dt x s hlen hmaster hlocked hbest hlate => ⟨_, rfl, ?_⟩, fun dt x s b hlen hmaster hbest hlate => ⟨_, rfl, ?_⟩,
    fun dt x s hlen hst hlate => ⟨_, rfl, ?_⟩⟩
  · have hframe := doPtpAnnounce_frame (s := s) (dt := dt) (x := x) m
    rw [doPtpAnnounce_eq hup hon hlo hhi] at hframe ⊢
    rw [State.onN_nth (domain_lt x hlen), State.advance_n]
    obtain ⟨hm, hg, hiv, hforeign, hann, hst⟩ := Ptp.select_some (p := Ptp.noted { nth s.time.n x with
      acc := (nth (s.advance dt).time.n x).acc } (s.now + dt) m) hbest
    refine ⟨hm, hg, hiv, hforeign, fun hsame => ?_, fun hchange => ?_, fun hkept hgrand hgo => ?_, hframe⟩
    · rw [hann]
      split
      next hmine =>
        have hmine' : (nth s.time.n x).master = some b.sender := hmine
        exact if_pos (by simp [← hsame, hmine'])
      next => rfl
    · rw [hst]
      exact if_neg fun ⟨hkept, hgrand, _⟩ => hchange.elim (· hkept) (· hgrand)
    · rw [hst]
      exact if_pos ⟨hkept, hgrand, hgo⟩
  · rw [doPtpAnnounce_eq hup hon hlo hhi]
    have hselect : (Ptp.noted (nth (s.advance dt).time.n x) (s.now + dt) m).select (s.now + dt) =
        Ptp.noted (nth (s.advance dt).time.n x) (s.now + dt) m := by
      rw [State.advance_n]
      exact Ptp.select_none hbest
    have hst : ((Ptp.noted (nth (s.advance dt).time.n x) (s.now + dt) m).select (s.now + dt)).st =
        (nth (s.advance dt).time.n x).st := by rw [hselect]; rfl
    rw [State.onN_nth (domain_lt x hlen), hselect, State.onN_of_same_st (domain_lt x hlen) hst, State.advance_n]
    exact ⟨rfl, rfl, rfl, onlyWrites_advance_time s dt _⟩
  · have hframe := doAnnounceReceiptTimeout_frame (s := s) (dt := dt) (x := x)
    rw [doAnnounceReceiptTimeout_eq hmaster hlate] at hframe ⊢
    have hlose := Ptp.loseMaster_none (p := { nth s.time.n x with acc := (nth (s.advance dt).time.n x).acc }) hbest hlocked
    rw [State.onN_nth (domain_lt x hlen), State.advance_n, hlose]
    exact ⟨rfl, rfl, rfl, hframe⟩
  · have hframe := doAnnounceReceiptTimeout_frame (s := s) (dt := dt) (x := x)
    rw [doAnnounceReceiptTimeout_eq hmaster hlate] at hframe ⊢
    have hbest' : (Ptp.dropMaster { nth s.time.n x with acc := (nth (s.advance dt).time.n x).acc }).best (s.now + dt) = some b := hbest
    have hlose := Ptp.loseMaster_some hbest'
    obtain ⟨hm, hg, -, -, -, hst⟩ := Ptp.select_some hbest'
    rw [State.onN_nth (domain_lt x hlen), State.advance_n, hlose]
    exact ⟨hm, hg, hst.trans (if_neg fun h => nomatch h.1), hframe⟩
  · have hframe := doSyncTimeout_frame (s := s) (dt := dt) (x := x)
    rw [doSyncTimeout_eq hst hlate] at hframe ⊢
    rw [State.onN_nth (domain_lt x hlen), State.advance_n]
    exact ⟨rfl, rfl, rfl, hframe⟩

/-! ### Measurements (R379–R381) -/

/-- What the servo leaves of a measurement in every state of a domain. -/
theorem Ptp.measure_cases (p : Ptp) (now : Nat) (tb : TimeBlock) (d : Int) :
    (p.measure now tb d).offset = d - p.pathDelay ∧ (p.measure now tb d).twoStep = p.twoStep ∧
      (p.measure now tb d).lastSync = now := by
  unfold Ptp.measure
  dsimp only
  repeat' split
  all_goals exact ⟨rfl, rfl, rfl⟩

/-- The sixteenth measurement in a row within LOCK_NS locks. -/
theorem Ptp.measure_locks {p : Ptp} {now : Nat} {tb : TimeBlock} {d : Int} (hst : p.st = .acquiring) (hgood : p.good = 15)
    (hnear : (d - p.pathDelay).natAbs ≤ tb.lockNs) (hstep : tb.lockNs ≤ tb.stepUs * 1000) :
    (p.measure now tb d).st = .locked := by
  have hsmall : ¬ tb.stepUs * 1000 < (d - p.pathDelay).natAbs := by omega
  simp [Ptp.measure, hst, hsmall, hnear, hgood]

section
variable {s : State} {dt x : Nat}

@[simp] theorem State.hears_advance (id : PortId) (iv : Int) : (s.advance dt).hears x id iv = s.hears x id iv := by
  have hup : (s.advance dt).uplinkOn = s.uplinkOn := rfl
  have hon : (s.advance dt).domainOn x = s.domainOn x := rfl
  unfold State.hears
  rw [hup, hon, State.advance_n]

/-- A measurement of one domain: its clock stepped or steered. -/
theorem State.measureN_nth (hx : x < s.time.n.length) (f : Ptp → Ptp) (d : Int) :
    nth (s.measureN x f d).time.n x = (f (nth s.time.n x)).measure s.now s.timeBlock d := by
  unfold State.measureN
  dsimp only
  split
  · exact State.onN_nth hx _
  · exact State.onN_nth hx _

theorem doPtpSync_oneStep {x : Fin 2} {m : SyncMsg} (hears : s.hears x m.sender m.logInterval = true) (hone : m.twoStep = false) :
    doPtpSync dt x m s = (s.advance dt).measureN x (fun p => { p with syncIv := m.logInterval })
      (((s.advance dt).nNs x : Int) - m.origin - m.correction) := by
  have hears' : (s.advance dt).hears x m.sender m.logInterval = true := (State.hears_advance _ _).trans hears
  simp only [doPtpSync, hears', if_true, hone, Bool.false_eq_true, if_false]

theorem doPtpSync_twoStep {x : Fin 2} {m : SyncMsg} (hears : s.hears x m.sender m.logInterval = true) (htwo : m.twoStep = true) :
    doPtpSync dt x m s = (s.advance dt).onN x fun p =>
      { p with twoStep := some (m.seq, (s.advance dt).nNs x, m.correction), syncIv := m.logInterval, lastSync := (s.advance dt).now } := by
  have hears' : (s.advance dt).hears x m.sender m.logInterval = true := (State.hears_advance _ _).trans hears
  simp only [doPtpSync, hears', htwo, if_true]

theorem doPtpFollowUp_eq {x : Fin 2} {m : SyncMsg} {t2 : Nat} {corr : Int} (hears : s.hears x m.sender m.logInterval = true)
    (hwait : (nth s.time.n x).twoStep = some (m.seq, t2, corr)) :
    doPtpFollowUp dt x m s = (s.advance dt).measureN x (fun p => { p with twoStep := none })
      ((t2 : Int) - m.origin - corr - m.correction) := by
  have hears' : (s.advance dt).hears x m.sender m.logInterval = true := (State.hears_advance _ _).trans hears
  have hwait' : (nth (s.advance dt).time.n x).twoStep = some (m.seq, t2, corr) := by rw [State.advance_n]; exact hwait
  simp only [doPtpFollowUp, hears', if_true, hwait']

theorem doPtpDelayResp_eq {port x : Fin 2} {sender : PortId} {seq : BitVec 16} {t3 : Nat} (t4 : Nat) (corr iv : Int)
    (hup : s.uplinkOn = true) (hon : s.domainOn x = true) (ht3 : nth (nth s.time.n x).t3 port = some t3)
    (hmaster : (nth s.time.n x).master = some sender) (hseq : (nth s.time.n x).delaySeq = seq) :
    doPtpDelayResp port x sender seq t4 corr iv s = s.onN x fun p => { p with
      t3 := [none, none], pathDelay := (p.msDiff + ((t4 : Int) - t3 - corr)) / 2
      delayIv := if -7 ≤ iv ∧ iv ≤ 5 then iv else p.delayIv } := by
  simp only [doPtpDelayResp, ht3, hup, hon, hmaster, hseq, beq_self_eq_true, Bool.and_self, if_true]

theorem doPtpSync_frame (x : Fin 2) (m : SyncMsg) : OnlyWrites [.time, .cw, .way] s (doPtpSync dt x m s) :=
  ⟨by simp, fun p hp => by cases p <;> simp_all [Part.same]⟩

theorem doPtpFollowUp_frame (x : Fin 2) (m : SyncMsg) : OnlyWrites [.time, .cw, .way] s (doPtpFollowUp dt x m s) :=
  ⟨by simp, fun p hp => by cases p <;> simp_all [Part.same]⟩

end

/-- Settles O24: a one-step Sync and a Follow_Up are one measurement; a two-step Sync and a Delay_Resp change only their domain. -/
theorem ptpMeasures : Obligations.PtpMeasures := by
  unfold Obligations.PtpMeasures
  refine ⟨fun dt x m s hlen hears hone hsource hholdover => ⟨_, rfl, ?_⟩, fun dt x m s hlen hears htwo => ⟨_, rfl, ?_⟩,
    fun dt x m s t2 corr hlen hears hwait => ⟨_, rfl, ?_⟩,
    fun port x sender seq t4 corr iv s t3 hlen hup hon ht3 hmaster hseq => ⟨_, rfl, ?_⟩⟩
  · have hframe := doPtpSync_frame (s := s) (dt := dt) x m
    rw [doPtpSync_oneStep hears hone] at hframe ⊢
    rw [State.measureN_nth (domain_lt x hlen)]
    obtain ⟨hoffset, -, hlast⟩ := Ptp.measure_cases { nth (s.advance dt).time.n x with syncIv := m.logInterval } (s.advance dt).now
      (s.advance dt).timeBlock (((s.advance dt).nNs x : Int) - m.origin - m.correction)
    have hdelay : (nth (s.advance dt).time.n x).pathDelay = (nth s.time.n x).pathDelay := by rw [State.advance_n]
    refine ⟨hoffset.trans (by rw [← hdelay]), hlast.trans (State.advance_now s dt), fun hst hgood hnear hstep => ?_, hframe⟩
    rw [hoffset] at hnear
    refine Ptp.measure_locks ?_ ?_ hnear hstep
    · show (nth (s.advance dt).time.n x).st = _
      rw [State.advance_n, hst]
    · show (nth (s.advance dt).time.n x).good = _
      rw [State.advance_n, hgood]
  · rw [doPtpSync_twoStep hears htwo, State.onN_nth (domain_lt x hlen), State.onN_of_same_st (domain_lt x hlen) rfl, State.advance_n]
    exact ⟨rfl, rfl, onlyWrites_advance_time s dt _⟩
  · have hframe := doPtpFollowUp_frame (s := s) (dt := dt) x m
    rw [doPtpFollowUp_eq hears hwait] at hframe ⊢
    rw [State.measureN_nth (domain_lt x hlen)]
    obtain ⟨hoffset, htwo, -⟩ := Ptp.measure_cases { nth (s.advance dt).time.n x with twoStep := none } (s.advance dt).now
      (s.advance dt).timeBlock ((t2 : Int) - m.origin - corr - m.correction)
    have hdelay : (nth (s.advance dt).time.n x).pathDelay = (nth s.time.n x).pathDelay := by rw [State.advance_n]
    exact ⟨htwo, hoffset.trans (by rw [← hdelay]), hframe⟩
  · have hx : x.val < s.time.n.length := by rw [hlen]; exact x.isLt
    rw [doPtpDelayResp_eq t4 corr iv hup hon ht3 hmaster hseq, State.onN_nth hx, State.onN_of_same_st hx rfl]
    exact ⟨rfl, rfl, onlyWrites_time s _⟩

/-! ### PPS (R384–R386) -/

/-- An edge counts and is the last one, whatever it does to the lock. -/
theorem Pps.edge_cases (p : Pps) (now g : Nat) :
    (p.edge now g).count = p.count + 1 ∧ (p.edge now g).last = now ∧ (p.edge now g).pendLabels = p.pendLabels := by
  unfold Pps.edge
  dsimp only
  split
  · split <;> exact ⟨rfl, rfl, rfl⟩
  · exact ⟨rfl, rfl, rfl⟩

theorem Pps.edge_locks {p : Pps} {now : Nat} (g : Nat) (hst : p.st = 1) (hrun : p.run = 7) (hgood : ppsGood (now - p.last) = true) :
    (p.edge now g).st = 2 := by
  simp [Pps.edge, hst, hrun, hgood]

theorem Pps.edge_unlocks {p : Pps} {now : Nat} (g : Nat) (hst : p.st = 2) (hfar : ppsNear (now - p.last) = false) :
    (p.edge now g).st = 1 ∧ (p.edge now g).label = none := by
  simp [Pps.edge, hst, hfar, Pps.unlock]

section
variable {s : State}

theorem State.applyLabel_none (h : s.time.pps.pendLabels = []) : s.applyLabel = s := by
  have heta : { s.time.pps with pendLabels := [] } = s.time.pps := by rw [← h]
  rw [State.applyLabel, h, List.foldl_nil, heta]

theorem State.dropLabel_none (h : s.time.pps.pendLabels = []) : s.dropLabel = s := by
  have heta : { s.time.pps with pendLabels := [] } = s.time.pps := by rw [← h]
  rw [State.dropLabel, h, List.foldl_nil, heta]

/-- Answering the labels that wait changes no clock. -/
theorem State.dropLabel_pps : s.dropLabel.time.pps = { s.time.pps with pendLabels := [] } := by
  have hfold (l : List (Nat × BitVec 16 × Nat × BitVec 16)) (t : State) :
      (l.foldl (fun (s : State) x => s.resolveResult x.2.2.1 x.2.2.2 0x0E 0x03 []) t).time = t.time := by
    induction l generalizing t with
    | nil => rfl
    | cons x l ih =>
      rw [List.foldl_cons, ih]
      simp
  rw [State.dropLabel, hfold]

/-- The hub at an edge, before its record and the labels that wait for it. -/
def State.ppsEdged (s : State) : State :=
  { s with time := { s.time with
    pps := s.time.pps.edge s.now s.gNs
    gOffset := if s.time.gSrc == some GSrc.pps then (s.time.pps.edge s.now s.gNs).err else s.time.gOffset } }

/-- The hub at an edge with the record of a change of state (R393). -/
def State.ppsReported (s : State) (before : Nat) : State := if s.time.pps.st == before then s else s.writeTime 0x04

@[simp] theorem State.ppsReported_time (s : State) (before : Nat) : (s.ppsReported before).time = s.time := by
  unfold State.ppsReported
  split <;> simp

/-- An edge when no label waits: the source after it, with a record where its state changes. -/
theorem doPpsEdge_eq {dt width : Nat} {rising : Bool} (hwidth : 100 ≤ width) (hpol : rising ≠ s.time.pps.falling)
    (hnone : s.time.pps.pendLabels = []) :
    doPpsEdge dt rising width s = (s.advance dt).ppsEdged.ppsReported s.time.pps.st := by
  have hcond : (decide (100 ≤ width) && (rising != (s.advance dt).time.pps.falling)) = true := by
    rw [State.advance_pps]
    simp [hwidth, hpol]
  have hpend : ((s.advance dt).ppsEdged.ppsReported (s.advance dt).time.pps.st).time.pps.pendLabels = [] := by
    rw [State.ppsReported_time]
    refine (Pps.edge_cases (s.advance dt).time.pps _ _).2.2.trans ?_
    rw [State.advance_pps, hnone]
  have heq : doPpsEdge dt rising width s =
      if 2 ≤ (s.advance dt).ppsEdged.time.pps.st then ((s.advance dt).ppsEdged.ppsReported (s.advance dt).time.pps.st).applyLabel
      else ((s.advance dt).ppsEdged.ppsReported (s.advance dt).time.pps.st).dropLabel := by
    simp only [doPpsEdge, hcond, if_true]
    rfl
  rw [heq, State.applyLabel_none hpend, State.dropLabel_none hpend, ite_self, State.advance_pps]

theorem doPpsEdge_short {dt width : Nat} {rising : Bool} (hwidth : width < 100) : doPpsEdge dt rising width s = s.advance dt := by
  have hcond : decide (100 ≤ width) = false := by simpa using hwidth
  simp [doPpsEdge, hcond]

theorem onlyWrites_writeTime (s : State) (reason : Nat) : OnlyWrites [.cw, .way] s (s.writeTime reason) :=
  ⟨by simp, fun p hp => by cases p <;> simp_all [Part.same]⟩

theorem onlyWrites_ppsReported (s : State) (before : Nat) : OnlyWrites [.cw, .way] s (s.ppsReported before) := by
  unfold State.ppsReported
  split
  · exact OnlyWrites.refl _ s
  · exact onlyWrites_writeTime s _

theorem doPpsTimeout_eq {dt : Nat} (hlocked : 2 ≤ s.time.pps.st) (hlate : s.time.pps.last + 1000010000000 ≤ s.now + dt) :
    doPpsTimeout dt s = ({ s.advance dt with time := { (s.advance dt).time with
      pps := s.time.pps.unlock 0 } }.writeTime 0x04).dropLabel := by
  have hcond : (decide (2 ≤ s.time.pps.st) && decide (s.time.pps.last + 1000010000000 ≤ (s.advance dt).now)) = true := by
    rw [State.advance_now]
    simp [hlocked, hlate]
  simp only [doPpsTimeout, State.advance_pps, hcond, if_true]

theorem doPpsTimeout_frame (dt : Nat) : OnlyWrites [.time, .cw, .way, .clients] s (doPpsTimeout dt s) :=
  ⟨by simp, fun p hp => by cases p <;> simp_all [Part.same]⟩

end

/-- Settles O25: an edge and a timeout change the source as R385 says; the records and answers leave the clocks. -/
theorem ppsEdges : Obligations.PpsEdges := by
  unfold Obligations.PpsEdges
  refine ⟨fun dt rising width s hwidth hpol hnone => ⟨_, rfl, ?_⟩,
    fun dt rising width s hwidth => congrArg Host.Outcome.next (doPpsEdge_short hwidth), fun dt s hlocked hlate => ⟨_, rfl, ?_⟩⟩
  · rw [doPpsEdge_eq hwidth hpol hnone, State.ppsReported_time]
    obtain ⟨hcount, hlast, -⟩ := Pps.edge_cases s.time.pps (s.advance dt).now (s.advance dt).gNs
    have hpps : (s.advance dt).ppsEdged.time.pps = s.time.pps.edge (s.advance dt).now (s.advance dt).gNs := by
      simp only [State.ppsEdged, State.advance_pps]
    rw [hpps]
    refine ⟨hcount, hlast.trans (State.advance_now s dt), fun hst hrun hgood => ?_, fun hst hfar => ?_, ?_⟩
    · exact Pps.edge_locks _ hst hrun (by rw [State.advance_now]; exact hgood)
    · exact Pps.edge_unlocks _ hst (by rw [State.advance_now]; exact hfar)
    · exact (onlyWrites_advance_time s dt _).trans (onlyWrites_ppsReported _ _)
  · have hframe := doPpsTimeout_frame (s := s) dt
    rw [doPpsTimeout_eq hlocked hlate] at hframe ⊢
    rw [State.dropLabel_pps]
    have htime (u : State) : (u.writeTime 0x04).time = u.time := by simp
    rw [htime]
    exact ⟨rfl, rfl, rfl, hframe⟩

end Sys2Proof.Machine
end

section
/-! PROOFS. The uplink ports (15_uplink.md): frames that wait and leave, the switch, address resolution and datagrams. -/

namespace Sys2Proof.Machine

/-! ### One port changed -/

@[simp] theorem State.onPort_up (s : State) (p : Nat) (f : UpPort → UpPort) :
    (s.onPort p f).up = { s.up with ports := s.up.ports.modify p f } := rfl

theorem State.onPort_same {s : State} {p : Nat} (hp : p < s.up.ports.length) (f : UpPort → UpPort) :
    nth (s.onPort p f).up.ports p = f (nth s.up.ports p) := nth_modify_same hp f

theorem State.onPort_ne (s : State) {p q : Nat} (hq : q ≠ p) (f : UpPort → UpPort) :
    nth (s.onPort p f).up.ports q = nth s.up.ports q := nth_modify_ne _ hq f

theorem State.lt_ports_of_link {s : State} {p : Nat} (h : (nth s.up.ports p).link = true) : p < s.up.ports.length := by
  refine Decidable.byContradiction fun hge => ?_
  have hnone : nth s.up.ports p = default := by simp [nth, List.getD_eq_getElem?_getD, hge]
  rw [hnone] at h
  exact nomatch h

theorem State.lt_ports {s : State} {p : Nat} (h : s.linked p = true) : p < s.up.ports.length := by
  simp only [State.linked, Bool.and_eq_true] at h
  exact State.lt_ports_of_link h.2

theorem onlyWrites_up (s : State) (u : Uplink) : OnlyWrites [.up] s { s with up := u } :=
  ⟨rfl, fun p hp => by cases p <;> simp_all [Part.same]⟩

theorem onlyWrites_advance_up (s : State) (dt : Nat) (u : Uplink) : OnlyWrites [.time, .up] s { s.advance dt with up := u } :=
  ⟨rfl, fun p hp => by cases p <;> simp_all [Part.same]⟩

/-! ### What starting a frame changes (R399) -/

@[simp] theorem State.noteEgress_up (s : State) (p : Nat) (e : Egress) : (s.noteEgress p e).up = s.up := by
  unfold State.noteEgress
  repeat' split
  all_goals rfl

theorem State.noteEgress_plain (s : State) (p : Nat) {e : Egress} (h : e.delayReq = none) : s.noteEgress p e = s := by
  simp only [State.noteEgress, h]

/-- A frame that nothing is written into as it leaves. -/
def Egress.plain (e : Egress) : Prop := e.ptpIn = none ∧ e.delayReq = none

theorem ownFrame_plain (prio : Nat) (bs : List Byte) : (ownFrame prio bs).plain := ⟨rfl, rfl⟩

theorem State.leaving_plain (s : State) {e : Egress} (h : e.plain) : s.leaving e = e := by
  obtain ⟨hin, hreq⟩ := h
  simp only [State.leaving, hin, hreq]

/-- The frame that a port starts waits there. -/
theorem pickFrame_mem {launch : Option Nat} {q : List Egress} {e : Egress} (h : pickFrame launch q = some e) : e ∈ q := by
  have hfold (l : List Egress) (a : Option Egress)
      (hl : l.foldl (fun a e => match a with | none => some e | some b => if e.prio < b.prio then some e else some b) a = some e) :
      e ∈ l ∨ a = some e := by
    induction l generalizing a with
    | nil => exact Or.inr hl
    | cons x l ih =>
      rcases ih _ hl with hmem | heq
      · exact Or.inl (List.mem_cons_of_mem _ hmem)
      · rcases a with _ | b
        · exact Or.inl (by simp_all)
        · dsimp only at heq
          split at heq
          · exact Or.inl (by simp_all)
          · exact Or.inr heq
  rcases hfold _ _ h with hmem | hnone
  · exact (List.mem_filter.mp hmem).1
  · exact nomatch hnone

theorem State.serve_idle {s : State} {p : Nat} (h : (nth s.up.ports p).tx ≠ none) : s.serve p = s := by
  have hbusy : (nth s.up.ports p).tx.isNone = false := by rw [Option.isNone_eq_false_iff, Option.isSome_iff_ne_none]; exact h
  simp only [State.serve, hbusy, Bool.and_false, Bool.false_eq_true, if_false]

theorem State.serve_none {s : State} {p : Nat} (h : pickFrame (s.nextLaunch p) (nth s.up.ports p).queue = none) : s.serve p = s := by
  simp only [State.serve, h, ite_self]

theorem State.serve_some {s : State} {p : Nat} {e : Egress} (hlinked : s.linked p = true) (hfree : (nth s.up.ports p).tx = none)
    (hpick : pickFrame (s.nextLaunch p) (nth s.up.ports p).queue = some e) :
    s.serve p = (s.onPort p (·.start e (s.leaving e))).noteEgress p e := by
  have hcond : (s.linked p && (nth s.up.ports p).tx.isNone) = true := by simp [hlinked, hfree]
  simp only [State.serve, hcond, if_true, hpick]

theorem State.serve_cases (s : State) (p : Nat) :
    s.serve p = s ∨ s.linked p = true ∧ (nth s.up.ports p).tx = none ∧ ∃ e, pickFrame (s.nextLaunch p) (nth s.up.ports p).queue = some e ∧
      s.serve p = (s.onPort p (·.start e (s.leaving e))).noteEgress p e := by
  by_cases hlinked : s.linked p = true
  · by_cases hfree : (nth s.up.ports p).tx = none
    · rcases hpick : pickFrame (s.nextLaunch p) (nth s.up.ports p).queue with _ | e
      · exact Or.inl (State.serve_none hpick)
      · exact Or.inr ⟨hlinked, hfree, e, rfl, State.serve_some hlinked hfree hpick⟩
    · exact Or.inl (State.serve_idle hfree)
  · exact Or.inl (by simp [State.serve, hlinked])

/-- A port differs at most in the frame on the wire and in those that wait. -/
def UpPort.sameBut (u v : UpPort) : Prop := v = { u with queue := v.queue, tx := v.tx }

theorem UpPort.sameBut.refl (u : UpPort) : u.sameBut u := rfl

theorem UpPort.sameBut.trans {u v w : UpPort} (h : u.sameBut v) (k : v.sameBut w) : u.sameBut w := by
  unfold UpPort.sameBut at *
  rw [k, h]

/-- From s to t the uplink changes at most in the frames of port p. -/
def State.frames (p : Nat) (s t : State) : Prop :=
  t.up = { s.up with ports := t.up.ports } ∧ t.up.ports.length = s.up.ports.length ∧
  (nth s.up.ports p).sameBut (nth t.up.ports p) ∧ ∀ q, q ≠ p → nth t.up.ports q = nth s.up.ports q

theorem State.frames.refl (p : Nat) (s : State) : s.frames p s := ⟨rfl, rfl, UpPort.sameBut.refl _, fun _ _ => rfl⟩

theorem State.frames.trans {p : Nat} {s t u : State} (h : s.frames p t) (k : t.frames p u) : s.frames p u := by
  obtain ⟨hup, hlen, hsame, hne⟩ := h
  obtain ⟨hup', hlen', hsame', hne'⟩ := k
  exact ⟨by rw [hup', hup], hlen'.trans hlen, hsame.trans hsame', fun q hq => (hne' q hq).trans (hne q hq)⟩

theorem State.frames_onPort (s : State) (p : Nat) {f : UpPort → UpPort} (hf : ∀ u : UpPort, u.sameBut (f u)) :
    s.frames p (s.onPort p f) := by
  refine ⟨rfl, by simp, ?_, fun q hq => State.onPort_ne s hq f⟩
  rcases nth_modify_cases s.up.ports p p f with hkept | hset
  · rw [State.onPort_up, hkept]
    exact UpPort.sameBut.refl _
  · rw [State.onPort_up, hset]
    exact hf _

theorem State.serve_frames (s : State) (p : Nat) : s.frames p (s.serve p) := by
  rcases s.serve_cases p with hsame | ⟨-, -, e, -, hstart⟩
  · rw [hsame]
    exact State.frames.refl p s
  · have hport := State.frames_onPort s p (f := (·.start e (s.leaving e))) fun _ => rfl
    simpa only [State.frames, hstart, State.noteEgress_up] using hport

theorem State.send_frames (s : State) (p : Nat) (e : Egress) : s.frames p (s.send p e) := by
  unfold State.send
  split
  · exact State.frames.trans (State.frames_onPort s p (f := fun u => { u with queue := u.queue ++ [e] }) fun _ => rfl)
      (State.serve_frames _ p)
  · exact State.frames.refl p s

section
variable {s : State} {p : Nat} {e : Egress}

@[simp] theorem State.send_arps : (s.send p e).up.arps = s.up.arps := by rw [(s.send_frames p e).1]
@[simp] theorem State.send_macs : (s.send p e).up.macs = s.up.macs := by rw [(s.send_frames p e).1]
@[simp] theorem State.send_ipId : (s.send p e).up.ipId = s.up.ipId := by rw [(s.send_frames p e).1]
@[simp] theorem State.send_upClients : (s.send p e).up.clients = s.up.clients := by rw [(s.send_frames p e).1]

theorem State.send_port_ne {q : Nat} (hq : q ≠ p) : nth (s.send p e).up.ports q = nth s.up.ports q := (s.send_frames p e).2.2.2 q hq

/-- A frame that waits at a port, or is on the wire there, stays so until the wire is free. -/
theorem State.serve_sentOn (hp : p < s.up.ports.length) (he : e.plain) (h : e ∈ (nth s.up.ports p).queue) : (s.serve p).sentOn p e := by
  rcases s.serve_cases p with hsame | ⟨-, -, b, -, hstart⟩
  · rw [hsame]
    exact Or.inr h
  · have hport : nth (s.serve p).up.ports p = (nth s.up.ports p).start b (s.leaving b) := by
      rw [hstart, State.noteEgress_up, State.onPort_same hp]
    rw [State.sentOn, hport]
    by_cases hbe : b = e
    · exact Or.inl (by rw [hbe, UpPort.start, State.leaving_plain s he])
    · exact Or.inr ((List.mem_erase_of_ne (Ne.symm hbe)).mpr h)

theorem State.send_sentOn (hlinked : s.linked p = true) (he : e.plain) : (s.send p e).sentOn p e := by
  have hp := State.lt_ports hlinked
  rw [State.send, if_pos hlinked]
  refine State.serve_sentOn (by simpa using hp) he ?_
  rw [State.onPort_same hp]
  simp

end

/-! ### Links (R395, R397, R417) -/

/-- A port as it waits for its partner: what it asks for (R395). -/
def State.asks (s : State) (p : Nat) : State := s.onPort p fun u => { u with req24 := s.upAmp p == 0 }

/-- A port that has just linked (R397). -/
def State.linkedNow (s : State) (p : Nat) (amp : Bool) : State :=
  (s.asks p).onPort p fun u => { u with link := true, amp24 := amp, queue := [], tx := none }

/-- The unresolved clients are to be asked for again (R402). -/
def State.askAgain (s : State) : State :=
  { s with up := { s.up with arps := s.up.arps.map fun (a : Arp) => if a.mac.isNone then { a with asked := false } else a } }

section
variable {dt p : Nat} {partner : LinkPartner} {s : State} {amp : Bool}

theorem doLinkUp_links (hon : s.uplinkOn = true) (hdown : (nth s.up.ports p).link = false)
    (hamp : linkAmp (s.upAmp p) partner = some amp) :
    doLinkUp dt p partner s =
      (((s.advance dt).linkedNow p amp).askAgain).send p (ownFrame 3 (s.arpRequest s.net.ipaddr)) := by
  have hcond : ((s.advance dt).uplinkOn && !(nth (s.advance dt).up.ports p).link) = true := by
    have hon' : (s.advance dt).uplinkOn = true := hon
    simp [hon', hdown]
  have hamp' : linkAmp (((s.advance dt).asks p).upAmp p) partner = some amp := hamp
  rw [doLinkUp, if_pos hcond]
  simp only [State.asks] at hamp'
  simp only [hamp']
  rfl

theorem doLinkUp_refuses (hon : s.uplinkOn = true) (hdown : (nth s.up.ports p).link = false)
    (hamp : linkAmp (s.upAmp p) partner = none) : doLinkUp dt p partner s = (s.advance dt).asks p := by
  have hcond : ((s.advance dt).uplinkOn && !(nth (s.advance dt).up.ports p).link) = true := by
    have hon' : (s.advance dt).uplinkOn = true := hon
    simp [hon', hdown]
  have hamp' : linkAmp (((s.advance dt).asks p).upAmp p) partner = none := hamp
  rw [doLinkUp, if_pos hcond]
  simp only [State.asks] at hamp'
  simp only [hamp']
  rfl

theorem State.linkedNow_port (hp : p < s.up.ports.length) :
    nth (s.linkedNow p amp).up.ports p =
      { nth s.up.ports p with req24 := s.upAmp p == 0, link := true, amp24 := amp, queue := [], tx := none } := by
  have hlen : p < (s.asks p).up.ports.length := by simpa [State.asks] using hp
  rw [State.linkedNow, State.onPort_same hlen, State.asks, State.onPort_same hp]

theorem doLinkUp_frame (dt p : Nat) (partner : LinkPartner) (s : State) : OnlyWrites [.time, .up] s (doLinkUp dt p partner s) :=
  ⟨by simp, fun p hp => by cases p <;> simp_all [Part.same]⟩

/-! ### A link that falls (R417) -/

@[simp] theorem State.takeBack_ports (s : State) (b : Back) : (s.takeBack b).up.ports = s.up.ports := rfl
@[simp] theorem State.takeBack_macs (s : State) (b : Back) : (s.takeBack b).up.macs = s.up.macs := rfl

@[simp] theorem State.launchDone_up (s : State) : s.launchDone.up = s.up := by
  unfold State.launchDone
  split <;> rfl

theorem State.dropLink_ports (s : State) (p : Nat) :
    (s.dropLink p).up.ports =
      s.up.ports.modify p fun u => { u with link := false, amp24 := false, req24 := false, queue := [], tx := none } := by
  simp only [State.dropLink]
  exact foldl_keep (fun s : State => s.up.ports) State.takeBack (fun s b => State.takeBack_ports s b) _ _

theorem State.dropLink_macs (s : State) (p : Nat) : (s.dropLink p).up.macs = s.up.macs.filter (·.2.1 != p) := by
  simp only [State.dropLink]
  exact foldl_keep (fun s : State => s.up.macs) State.takeBack (fun s b => State.takeBack_macs s b) _ _

theorem doLinkDown_eq (hup : (nth s.up.ports p).link = true) : doLinkDown p s = (s.dropLink p).launchDone := by
  simp only [doLinkDown, hup, if_true]

theorem doLinkDown_frame (p : Nat) (s : State) : OnlyWrites [.power, .cw, .up] s (doLinkDown p s) :=
  ⟨by simp, fun p hp => by cases p <;> simp_all [Part.same]⟩

theorem doMacAgeOut_old {index : Nat} {m : List Byte × Nat × Nat} (hm : s.up.macs[index]? = some m)
    (hold : m.2.2 + secPs 300 ≤ s.now + dt) :
    doMacAgeOut dt index s = { s.advance dt with up := { s.up with macs := s.up.macs.eraseIdx index } } := by
  have hm' : (s.advance dt).up.macs[index]? = some m := hm
  have hold' : m.2.2 + secPs 300 ≤ (s.advance dt).now := by rwa [State.advance_now]
  simp only [doMacAgeOut, hm', hold', if_true]
  rfl

/-! ### A port that becomes free (R399, R450) -/

theorem State.pump_idle (hempty : ∀ c, c < 4 → (nth s.clients c).outSlot = none) : s.pump = s := by
  have hone (c : Nat) (hc : c ∈ List.range 4) : s.pumpOne c = s := by
    simp only [State.pumpOne, hempty c (List.mem_range.mp hc)]
  unfold State.pump
  generalize List.range 4 = l at hone
  induction l with
  | nil => rfl
  | cons c l ih =>
    rw [List.foldl_cons, hone c List.mem_cons_self]
    exact ih fun i hi => hone i (List.mem_cons_of_mem _ hi)

/-- A port whose frame has left (R399). -/
def State.freed (s : State) (p : Nat) : State := s.onPort p fun u => { u with tx := none }

theorem doEgressPortFree_eq (hlinked : s.linked p = true) (hempty : ∀ c, c < 4 → (nth s.clients c).outSlot = none) :
    doEgressPortFree dt p s = (((s.advance dt).freed p).serve p).launchDone := by
  have hlinked' : (s.advance dt).linked p = true := hlinked
  have hpump : ((s.advance dt).freed p).pump = (s.advance dt).freed p := State.pump_idle hempty
  rw [doEgressPortFree, if_pos hlinked']
  simp only [State.freed] at hpump ⊢
  rw [hpump]

theorem State.noteEgress_t3 {e : Egress} {x : Nat} {seq : BitVec 16} (hreq : e.delayReq = some (x, seq))
    (hseq : (nth s.time.n x).delaySeq = seq) (hx : x < s.time.n.length) :
    nth (s.noteEgress p e).time.n x = { nth s.time.n x with t3 := (nth s.time.n x).t3.set p (some (s.nNs x)) } := by
  simp only [State.noteEgress, hreq, hseq, if_true, Time.onN, nth_modify_same hx]

end

@[simp] theorem State.launchDone_time (s : State) : s.launchDone.time = s.time := by simp

section
variable {dt p : Nat} {s : State}

theorem State.freed_port (hp : p < s.up.ports.length) : nth (s.freed p).up.ports p = { nth s.up.ports p with tx := none } :=
  State.onPort_same hp _

/-- The port after the frame that it picked has started, or as it is where none may start (R399). -/
theorem State.freed_serve_port (hlinked : s.linked p = true) :
    nth ((s.freed p).serve p).up.ports p =
      match pickFrame (s.nextLaunch p) (nth s.up.ports p).queue with
      | some e => { nth s.up.ports p with tx := none }.start e (s.leaving e)
      | none => { nth s.up.ports p with tx := none } := by
  have hp := State.lt_ports hlinked
  have hport := State.freed_port hp
  have hqueue : (nth (s.freed p).up.ports p).queue = (nth s.up.ports p).queue := by rw [hport]
  have hlinked' : (s.freed p).linked p = true := by
    simp only [State.linked, hport]
    exact hlinked
  have hnext : (s.freed p).nextLaunch p = s.nextLaunch p := rfl
  rcases hpick : pickFrame (s.nextLaunch p) (nth s.up.ports p).queue with _ | e
  · rw [State.serve_none (by rw [hnext, hqueue]; exact hpick), hport]
  · have hlen : p < (s.freed p).up.ports.length := by simpa [State.freed] using hp
    rw [State.serve_some hlinked' (by rw [hport]) (by rw [hnext, hqueue]; exact hpick), State.noteEgress_up,
      State.onPort_same hlen, hport]
    rfl

/-- The egress time of a Delay_Req that starts is kept for its answer (R380). -/
theorem State.freed_serve_t3 {e : Egress} {x : Nat} {seq : BitVec 16} (hlinked : s.linked p = true)
    (hpick : pickFrame (s.nextLaunch p) (nth s.up.ports p).queue = some e) (hreq : e.delayReq = some (x, seq))
    (hseq : (nth s.time.n x).delaySeq = seq) (hx : x < s.time.n.length) (ht3 : p < (nth s.time.n x).t3.length) :
    nth (nth ((s.freed p).serve p).time.n x).t3 p = some (s.nNs x) := by
  have hport := State.freed_port (State.lt_ports hlinked)
  have hqueue : (nth (s.freed p).up.ports p).queue = (nth s.up.ports p).queue := by rw [hport]
  have hlinked' : (s.freed p).linked p = true := by
    simp only [State.linked, hport]
    exact hlinked
  have hpick' : pickFrame ((s.freed p).nextLaunch p) (nth (s.freed p).up.ports p).queue = some e := by
    rw [hqueue]
    exact hpick
  rw [State.serve_some hlinked' (by rw [hport]) hpick',
    State.noteEgress_t3 (s := (s.freed p).onPort p (·.start e ((s.freed p).leaving e))) hreq hseq hx]
  exact nth_set_same ht3 _

end

/-- Settles O49: what each command does to its port is stated once; the frames that start afterwards leave the rest as it is. -/
theorem linksServe : Obligations.LinksServe := by
  unfold Obligations.LinksServe
  refine ⟨fun dt p partner s amp hon hp hdown hamp => ⟨_, rfl, ?_⟩, fun dt p partner s hon hp hdown hamp => ⟨_, rfl, ?_⟩,
    fun x => ⟨rfl, rfl, rfl⟩, fun p s hp hup => ⟨_, rfl, ?_⟩, fun dt index s m hm hold => ⟨_, rfl, ?_⟩,
    fun dt p s hlinked hempty hp => ⟨_, rfl, ?_⟩⟩
  · have hframe := doLinkUp_frame dt p.val partner s
    rw [doLinkUp_links hon hdown hamp] at hframe ⊢
    have hport : nth ((s.advance dt).linkedNow p.val amp).askAgain.up.ports p.val =
        { nth s.up.ports p.val with req24 := s.upAmp p.val == 0, link := true, amp24 := amp, queue := [], tx := none } :=
      State.linkedNow_port (s := s.advance dt) hp
    have hlinked : ((s.advance dt).linkedNow p.val amp).askAgain.linked p.val = true := by
      have hon' : ((s.advance dt).linkedNow p.val amp).askAgain.uplinkOn = true := hon
      simp [State.linked, hon', hport]
    obtain ⟨-, -, hsame, -⟩ :=
      ((s.advance dt).linkedNow p.val amp).askAgain.send_frames p.val (ownFrame 3 (s.arpRequest s.net.ipaddr))
    rw [UpPort.sameBut, hport] at hsame
    exact ⟨by rw [hsame], by rw [hsame], by rw [hsame], State.send_sentOn hlinked (ownFrame_plain _ _), hframe⟩
  · have hframe := doLinkUp_frame dt p.val partner s
    rw [doLinkUp_refuses hon hdown hamp] at hframe ⊢
    exact ⟨State.onPort_same (s := s.advance dt) hp _, hframe⟩
  · have hframe := doLinkDown_frame p.val s
    rw [doLinkDown_eq hup] at hframe ⊢
    rw [State.launchDone_up, State.dropLink_ports, State.dropLink_macs, nth_modify_same hp]
    exact ⟨rfl, rfl, rfl, rfl, hframe⟩
  · rw [doMacAgeOut_old hm hold]
    exact ⟨rfl, onlyWrites_advance_up s dt _⟩
  · have hlinked' : (s.advance dt).linked p.val = true := hlinked
    have heq : doEgressPortFree dt p.val s = (((s.advance dt).freed p.val).serve p.val).launchDone :=
      doEgressPortFree_eq hlinked hempty
    have hclocks : SameClocks (s.advance dt) (((s.advance dt).freed p.val).serve p.val) :=
      (State.serve_sends ((s.advance dt).freed p.val) p.val).2
    have hframe : OnlyWrites [.time, .power, .up] s (((s.advance dt).freed p.val).serve p.val).launchDone :=
      ⟨by simp [State.freed], fun p hp => by cases p <;> simp_all [Part.same, State.freed]⟩
    change nth (doEgressPortFree dt p.val s).up.ports p.val = _ ∧ _ ∧ _ ∧ OnlyWrites [.time, .power, .up] s (doEgressPortFree dt p.val s)
    rw [heq, State.launchDone_up]
    refine ⟨State.freed_serve_port hlinked', fun e x seq hpick hreq hseq hx ht3 => ?_, ?_, hframe⟩
    · rw [State.launchDone_time]
      have hn := s.advance_n dt x
      exact State.freed_serve_t3 hlinked' hpick hreq (by rw [hn]; exact hseq) (by rwa [State.advance_n_length]) (by rw [hn]; exact ht3)
    · exact hclocks.trans (SameClocks.of_time (State.launchDone_time _))

/-! ### The switch (R394, R398, R399) -/

/-- Whether the UPLINK island runs follows from the power state and the straps. -/
theorem State.uplinkOn_of {s t : State} (hpower : t.power = s.power) (hstraps : t.straps = s.straps) :
    t.uplinkOn = s.uplinkOn := by
  simp only [State.uplinkOn, State.full, State.inMode, State.strap, hpower, hstraps]

@[simp] theorem State.learn_ports (s : State) (p : Nat) (src : List Byte) : (s.learn p src).up.ports = s.up.ports := by
  unfold State.learn
  dsimp only
  split <;> rfl

/-- A source address that is learned, or learned again, is the last of the table (R398). -/
theorem State.learn_macs {s : State} {p : Nat} {src : List Byte} (huni : isGroup src = false)
    (hroom : (s.up.macs.filter (·.1 != src)).length < 64) :
    (s.learn p src).up.macs = s.up.macs.filter (·.1 != src) ++ [(src, p, s.now)] := by
  have hcond : (isGroup src || decide (64 ≤ (s.up.macs.filter (·.1 != src)).length)) = false := by
    simp [huni, hroom]
  simp only [State.learn, hcond, Bool.false_eq_true, if_false]

/-- Where other stations are learned does not change with a source address. -/
theorem State.learn_learnedOn (s : State) (p : Nat) {src dst : List Byte} (hne : dst ≠ src) :
    (s.learn p src).learnedOn dst = s.learnedOn dst := by
  unfold State.learn
  dsimp only
  split
  · rfl
  · have hsame : ∀ m ∈ s.up.macs, (m.1 != src && m.1 == dst) = (m.1 == dst) := by
      intro m _
      by_cases hm : m.1 = dst
      · simp [hm, hne]
      · simp [hm]
    have hfind : (s.up.macs.filter (·.1 != src)).find? (·.1 == dst) = s.up.macs.find? (·.1 == dst) := by
      rw [List.find?_filter]
      exact congrArg (fun q => s.up.macs.find? q) (funext fun m => by
        by_cases hm : m.1 = dst
        · simp [hm, hne]
        · simp [hm])
    simp only [State.learnedOn, List.find?_append, hfind]
    simp [Ne.symm hne]

section
variable {dt p : Nat} {f : EthFrame} {s : State}

/-- The switch's own part of a frame: its source is learned, or its bad FCS counted (R394, R398). -/
def State.noted (s : State) (p : Nat) (f : EthFrame) : State :=
  if f.fcsGood then s.learn p (frameSrc f.bytes) else s.onPort p fun u => { u with fcsErr := u.fcsErr + 1 }

theorem doFrameReceive_eq (hlinked : s.linked p = true) (hlen : lengthOk f.bytes = true) (hsrc : frameSrc f.bytes ≠ s.net.mac) :
    doFrameReceive dt p f s =
      if ((s.advance dt).noted p f).goesAcross p (frameDst f.bytes) then
        (((s.advance dt).noted p f).crossing f).2.forward (1 - p) (((s.advance dt).noted p f).crossing f).1
      else (s.advance dt).noted p f := by
  have hcond : ((s.advance dt).linked p && lengthOk f.bytes && frameSrc f.bytes != (s.advance dt).net.mac) = true := by
    have hlinked' : (s.advance dt).linked p = true := hlinked
    have hsrc' : frameSrc f.bytes ≠ (s.advance dt).net.mac := hsrc
    simp [hlinked', hlen, hsrc']
  rw [doFrameReceive, if_pos hcond]
  rfl

@[simp] theorem State.crossing_up (s : State) (f : EthFrame) : (s.crossing f).2.up = s.up := by simp

@[simp] theorem State.forward_macs (s : State) (q : Nat) (e : Egress) : (s.forward q e).up.macs = s.up.macs := by
  unfold State.forward
  split
  · rfl
  · split
    · rfl
    · exact State.send_macs

/-- A frame as the switch forwards it without a transparent clock (R383, R399). -/
def forwarded (f : EthFrame) : Egress :=
  { prio := if (ptpEvent f.bytes).isSome then 1 else 4, bytes := f.bytes, fcsGood := f.fcsGood, back := none, ctrl := false,
    fwd := true, ptpIn := none, delayReq := none, alarm := false }

theorem State.crossing_plain (htc : s.timeBlock.tc = false) : s.crossing f = (forwarded f, s) := by
  simp only [State.crossing, htc, Bool.false_and, Bool.false_eq_true, if_false]
  rfl

theorem doFrameReceive_group (hlinked : s.linked p = true) (hlen : lengthOk f.bytes = true) (hsrc : frameSrc f.bytes ≠ s.net.mac)
    (hgroup : isGroup (frameDst f.bytes) = true) (htc : s.timeBlock.tc = false) :
    doFrameReceive dt p f s = ((s.advance dt).noted p f).forward (1 - p) (forwarded f) := by
  have hacross : ((s.advance dt).noted p f).goesAcross p (frameDst f.bytes) = true := by
    simp only [State.goesAcross, hgroup, if_true]
  have hport : ((s.advance dt).noted p f).port = s.port := by
    unfold State.noted
    split <;> simp
  have htc' : ((s.advance dt).noted p f).timeBlock.tc = false := by
    simpa only [State.timeBlock, hport] using htc
  rw [doFrameReceive_eq hlinked hlen hsrc, if_pos hacross, State.crossing_plain htc']

theorem State.noted_port_ne {q : Nat} (hq : q ≠ p) : nth (s.noted p f).up.ports q = nth s.up.ports q := by
  unfold State.noted
  split
  · rw [State.learn_ports]
  · exact State.onPort_ne s hq _

theorem State.noted_fcsErr (hp : p < s.up.ports.length) :
    (nth (s.noted p f).up.ports p).fcsErr = (nth s.up.ports p).fcsErr + (if f.fcsGood then 0 else 1) := by
  unfold State.noted
  split
  · rw [State.learn_ports, Nat.add_zero]
  · rw [State.onPort_same hp]

theorem State.noted_linked {q : Nat} (hq : q ≠ p) : (s.noted p f).linked q = s.linked q := by
  have hon : (s.noted p f).uplinkOn = s.uplinkOn := by
    unfold State.noted
    split
    · exact State.uplinkOn_of (by simp) (by simp)
    · rfl
  rw [State.linked, State.linked, State.noted_port_ne hq, hon]

theorem State.forward_room {e : Egress} (hlinked : s.linked p = true)
    (hroom : (nth s.up.ports p).fwdBytes + e.bytes.length + 4 ≤ 24576) : s.forward p e = s.send p e := by
  have hfits : decide (24576 < (nth s.up.ports p).fwdBytes + e.bytes.length + 4) = false := by simpa using hroom
  simp only [State.forward, hlinked, Bool.not_true, Bool.false_eq_true, if_false, hfits]

theorem State.forward_full {e : Egress} (hlinked : s.linked p = true)
    (hfull : 24576 < (nth s.up.ports p).fwdBytes + e.bytes.length + 4) :
    s.forward p e = s.onPort p fun u => { u with discards := u.discards + 1 } := by
  simp only [State.forward, hlinked, Bool.not_true, Bool.false_eq_true, if_false, decide_eq_true hfull, if_true]

theorem doFrameReceive_frame (dt p : Nat) (f : EthFrame) (s : State) : OnlyWrites [.free, .time, .up] s (doFrameReceive dt p f s) :=
  ⟨by simp, fun p hp => by cases p <;> simp_all [Part.same]⟩

theorem onlyWrites_noted_forward (dt p q : Nat) (f : EthFrame) (e : Egress) (s : State) :
    OnlyWrites [.time, .up] s (((s.advance dt).noted p f).forward q e) := by
  unfold State.noted
  split
  · exact ⟨by simp, fun p hp => by cases p <;> simp_all [Part.same]⟩
  · exact ⟨by simp, fun p hp => by cases p <;> simp_all [Part.same]⟩

end

/-- Settles O50: what is noted of a frame is stated apart from where it goes, and a group address always goes across. -/
theorem switchForwards : Obligations.SwitchForwards := by
  unfold Obligations.SwitchForwards
  refine ⟨fun dt p f s hlinked hlen hsrc hgood huni hroom => ⟨_, rfl, ?_, fun hstays hne => ?_, doFrameReceive_frame dt p.val f s⟩,
    fun dt p f s hlinked hlen hsrc hgroup hother hports htc hroom => ⟨_, rfl, ?_⟩,
    fun dt p f s hlinked hlen hsrc hgroup hother hports htc hfull => ⟨_, rfl, ?_⟩⟩
  · have hnoted : ((s.advance dt).noted p.val f).up.macs =
        s.up.macs.filter (·.1 != frameSrc f.bytes) ++ [(frameSrc f.bytes, p.val, s.now + dt)] := by
      rw [State.noted, if_pos hgood, State.learn_macs (s := s.advance dt) huni hroom, State.advance_now]
      rfl
    rw [doFrameReceive_eq hlinked hlen hsrc]
    split
    · rw [State.forward_macs, State.crossing_up, hnoted]
    · exact hnoted
  · have hstays' : ((s.advance dt).noted p.val f).goesAcross p.val (frameDst f.bytes) = false := by
      have hnet : ((s.advance dt).learn p.val (frameSrc f.bytes)).net = s.net := by simp [State.net]
      rw [State.noted, if_pos hgood, State.goesAcross, State.learn_learnedOn _ _ hne, hnet]
      exact hstays
    rw [doFrameReceive_eq hlinked hlen hsrc, hstays', if_neg Bool.false_ne_true, State.noted, if_pos hgood, State.learn_ports]
    rfl
  · have hne : 1 - p.val ≠ p.val := by omega
    have hp : p.val < (s.advance dt).up.ports.length := by rw [advance_up, hports]; exact p.isLt
    have hother' : ((s.advance dt).noted p.val f).linked (1 - p.val) = true := by
      rw [State.noted_linked hne]
      exact hother
    rw [doFrameReceive_group hlinked hlen hsrc hgroup htc,
      State.forward_room hother' (by rw [State.noted_port_ne hne]; exact hroom)]
    refine ⟨State.send_sentOn hother' ⟨rfl, rfl⟩, ?_, ?_⟩
    · rw [State.send_port_ne (Ne.symm hne), State.noted_fcsErr hp]
      rfl
    · rw [← State.forward_room hother' (by rw [State.noted_port_ne hne]; exact hroom)]
      exact onlyWrites_noted_forward dt _ _ f _ s
  · have hne : 1 - p.val ≠ p.val := by omega
    have hother' : ((s.advance dt).noted p.val f).linked (1 - p.val) = true := by
      rw [State.noted_linked hne]
      exact hother
    have hfull' : 24576 < (nth ((s.advance dt).noted p.val f).up.ports (1 - p.val)).fwdBytes + (forwarded f).bytes.length + 4 := by
      rw [State.noted_port_ne hne]
      exact hfull
    have hframe := onlyWrites_noted_forward dt p.val (1 - p.val) f (forwarded f) s
    rw [doFrameReceive_group hlinked hlen hsrc hgroup htc]
    rw [State.forward_full hother' hfull'] at hframe ⊢
    refine ⟨?_, hframe⟩
    rw [State.onPort_same (State.lt_ports hother'), State.noted_port_ne hne]
    rfl

/-! ### Address resolution (R402) -/

@[simp] theorem State.sendControl_arps (s : State) (c : Nat) (slot : Bool) (msg : List Word) :
    (s.sendControl c slot msg).up.arps = s.up.arps := by
  unfold State.sendControl
  split
  · exact State.send_arps
  · rfl

@[simp] theorem State.pump_arps (s : State) : s.pump.up.arps = s.up.arps := by
  refine foldl_keep (fun s : State => s.up.arps) State.pumpOne (fun s c => ?_) _ _
  unfold State.pumpOne
  split
  · split
    · rfl
    · exact State.sendControl_arps s c true _
  · rfl

@[simp] theorem State.sendAll_arps (s : State) (e : Egress) : (s.sendAll e).up.arps = s.up.arps := by
  rw [State.sendAll, State.send_arps, State.send_arps]

@[simp] theorem State.learn_arps (s : State) (p : Nat) (src : List Byte) : (s.learn p src).up.arps = s.up.arps := by
  unfold State.learn
  dsimp only
  split <;> rfl

@[simp] theorem State.learn_ipId (s : State) (p : Nat) (src : List Byte) : (s.learn p src).up.ipId = s.up.ipId := by
  unfold State.learn
  dsimp only
  split <;> rfl

@[simp] theorem State.learn_linked (s : State) (p q : Nat) (src : List Byte) : (s.learn p src).linked q = s.linked q := by
  rw [State.linked, State.linked, State.learn_ports, State.uplinkOn_of (s := s) (by simp) (by simp)]

@[simp] theorem State.learn_net (s : State) (p : Nat) (src : List Byte) : (s.learn p src).net = s.net := by simp [State.net]

@[simp] theorem State.learn_arpTarget (s : State) (p c : Nat) (src : List Byte) :
    (s.learn p src).arpTarget c = s.arpTarget c := by
  simp [State.arpTarget, State.clientEntry]

theorem State.learn_sends (s : State) (p : Nat) (src : List Byte) : OnlySends [.up, .clients] s (s.learn p src) := by
  unfold State.learn
  dsimp only
  split
  · exact OnlySends.refl _ s
  · exact onlySends_up s _

/-- The ARP packet of a frame. -/
def arpOf (f : EthFrame) : List Byte := (f.bytes.drop 14).take 28
/-- Its operation. -/
def arpOp (f : EthFrame) : Nat := beNat (((arpOf f).drop 6).take 2)
/-- The hardware address of its sender. -/
def arpSha (f : EthFrame) : List Byte := ((arpOf f).drop 8).take 6
/-- The protocol address of its sender. -/
def arpSpa (f : EthFrame) : Word := word (beNat (((arpOf f).drop 14).take 4))
/-- The protocol address that it asks for. -/
def arpTpa (f : EthFrame) : Word := word (beNat (((arpOf f).drop 24).take 4))

/-- The entry of client c, resolved where an answer names it (R402). -/
def State.answered (s : State) (f : EthFrame) (c : Nat) (x : Arp) : Arp :=
  if s.arpTarget c == some (arpSpa f) then { x with mac := some (arpSha f), misses := 0, asked := false } else x

/-- The clients that an answer names, resolved by it (R402). -/
def State.resolved (s : State) (f : EthFrame) : State :=
  { s with up := { s.up with arps := s.up.arps.mapIdx (s.answered f) } }

section
variable {dt p : Nat} {f : EthFrame} {s : State}

theorem doArpReceive_eq (hfor : s.forHub p f = true) (htype : frameType f.bytes = 0x0806)
    (hhead : (arpOf f).take 6 = beBytes 2 1 ++ beBytes 2 0x0800 ++ [6, 4]) :
    doArpReceive p f s =
      if arpSpa f = s.net.ipaddr then (s.learn p (frameSrc f.bytes)).onPort p fun u => { u with arpConf := u.arpConf + 1 }
      else if arpOp f = 1 ∧ arpTpa f = s.net.ipaddr then
        (s.learn p (frameSrc f.bytes)).send p
          (ownFrame 3 (etherFrame (arpSha f) s.net.mac 0x0806 (arpPacket 2 s.net.mac s.net.ipaddr (arpSha f) (arpSpa f))))
      else if arpOp f = 2 then ((s.learn p (frameSrc f.bytes)).resolved f).pump
      else s.learn p (frameSrc f.bytes) := by
  have hcond : (s.forHub p f && frameType f.bytes == 0x0806 &&
      ((f.bytes.drop 14).take 28).take 6 == beBytes 2 1 ++ beBytes 2 0x0800 ++ [6, 4]) = true := by
    rw [hfor, htype, show ((f.bytes.drop 14).take 28).take 6 = _ from hhead]
    simp
  rw [doArpReceive, if_pos hcond]
  simp only [State.learn_net]
  rfl

theorem State.linked_of_forHub (hfor : s.forHub p f = true) : s.linked p = true := by
  simp only [State.forHub, Bool.and_eq_true] at hfor
  exact hfor.1.1.1.1

theorem doArpReceive_sends (p : Nat) (f : EthFrame) (s : State) : OnlySends [.up, .clients] s (doArpReceive p f s) := by
  unfold doArpReceive
  dsimp only
  have hlearn := s.learn_sends p (frameSrc f.bytes)
  split
  · split
    · exact hlearn.trans (onlySends_up _ _)
    · split
      · exact hlearn.trans (State.send_sends _ _ _)
      · split
        · exact (hlearn.trans (onlySends_up _ _)).trans (State.pump_mails _).1
        · exact hlearn
  · exact OnlySends.refl _ s

theorem State.resolved_mac {c : Nat} (hc : c < s.up.arps.length) (htarget : s.arpTarget c = some (arpSpa f)) :
    (nth (s.resolved f).up.arps c).mac = some (arpSha f) := by
  have harp : nth (s.resolved f).up.arps c = { nth s.up.arps c with mac := some (arpSha f), misses := 0, asked := false } := by
    rw [State.resolved, nth_mapIdx hc, State.answered, htarget, if_pos (beq_self_eq_true _)]
  rw [harp]

theorem State.askFor_arps {c : Nat} {t : Word} (g : Arp → Arp) (htarget : s.arpTarget c = some t) (hc : c < s.up.arps.length) :
    nth (s.askFor c g).up.arps c = { g (nth s.up.arps c) with last := s.now, asked := true } := by
  simp only [State.askFor, htarget, State.sendAll_arps]
  exact nth_modify_same hc _

theorem doArpRetry_eq {c : Nat} (hon : s.uplinkOn = true) (hmac : (nth s.up.arps c).mac = none)
    (hdue : (nth s.up.arps c).asked = false ∨ (nth s.up.arps c).last + secPs 1 ≤ s.now + dt) :
    doArpRetry dt c s = (s.advance dt).askFor c id := by
  have hon' : (s.advance dt).uplinkOn = true := hon
  have hcond : ((s.advance dt).uplinkOn && (nth (s.advance dt).up.arps c).mac.isNone &&
      (!(nth (s.advance dt).up.arps c).asked || decide ((nth (s.advance dt).up.arps c).last + secPs 1 ≤ (s.advance dt).now))) =
        true := by
    rw [advance_up, State.advance_now, hon', hmac]
    rcases hdue with hask | hlast
    · simp [hask]
    · simp [hlast]
  exact if_pos hcond

theorem doArpRefresh_eq {c : Nat} {m : List Byte} (hon : s.uplinkOn = true) (hmac : (nth s.up.arps c).mac = some m)
    (hdue : (nth s.up.arps c).last + secPs 60 ≤ s.now + dt) :
    doArpRefresh dt c s =
      if 3 ≤ (nth s.up.arps c).misses + b2n (nth s.up.arps c).asked then
        { s.advance dt with
          up := { s.up with
            arps := s.up.arps.set c { mac := none, misses := 0, last := (nth s.up.arps c).last, asked := false } } }
      else (s.advance dt).askFor c fun x => { x with misses := (nth s.up.arps c).misses + b2n (nth s.up.arps c).asked } := by
  have hon' : (s.advance dt).uplinkOn = true := hon
  have hcond : ((s.advance dt).uplinkOn && (nth (s.advance dt).up.arps c).mac.isSome &&
      decide ((nth (s.advance dt).up.arps c).last + secPs 60 ≤ (s.advance dt).now)) = true := by
    rw [advance_up, State.advance_now, hon', hmac]
    simp [hdue]
  exact if_pos hcond

theorem doArpRetry_frame (dt c : Nat) (s : State) : OnlyWrites [.time, .up] s (doArpRetry dt c s) :=
  ⟨by simp, fun p hp => by cases p <;> simp_all [Part.same]⟩

theorem doArpRefresh_frame (dt c : Nat) (s : State) : OnlyWrites [.time, .up] s (doArpRefresh dt c s) :=
  ⟨by simp, fun p hp => by cases p <;> simp_all [Part.same]⟩

/-! ### The ICMP echo reply (R402) -/

/-- The reply to an echo request. -/
def echoReply (s : State) (f : EthFrame) (x : IpIn) : Egress :=
  ownFrame 3 (etherFrame (frameSrc f.bytes) s.net.mac 0x0800 (ipDatagram (s.up.ipId + 1).toNat 1 s.net.ipaddr x.src
    ([0, 0] ++ beBytes 2 (inetSum ([0, 0, 0, 0] ++ x.body.drop 4)) ++ x.body.drop 4)))

/-- The hub as it answers an echo request: the identification and the answer counted. -/
def State.echoed (s : State) (p : Nat) (f : EthFrame) : State :=
  { s with up := { s.up with
    ipId := s.up.ipId + 1
    pings := (s.up.pings.filter fun t => decide (s.now < t + secPs 1)) ++ [s.now] } }.learn p (frameSrc f.bytes)

theorem State.forHub_of_ipFor {x : IpIn} (h : s.ipFor p f = some x) : s.forHub p f = true := by
  unfold State.ipFor at h
  refine Decidable.byContradiction fun hfor => ?_
  simp [hfor] at h

theorem doIcmpEcho_eq {x : IpIn} (hip : (s.advance dt).ipFor p f = some x) (hproto : x.proto = 1) (htype : nth x.body 0 = 8)
    (hcode : nth x.body 1 = 0) (hmin : 8 ≤ x.body.length) (hmax : x.body.length ≤ 1480) (hsum : inetSum x.body = 0)
    (hrate : (s.up.pings.filter fun t => decide (s.now + dt < t + secPs 1)).length < 8) :
    doIcmpEcho dt p f s = ((s.advance dt).echoed p f).send p (echoReply s f x) := by
  have hrate' : ((s.advance dt).up.pings.filter fun t => decide ((s.advance dt).now < t + secPs 1)).length < 8 := by
    rw [State.advance_now]
    exact hrate
  have hcond : (nth x.body 0 == 8 && nth x.body 1 == 0 && decide (8 ≤ x.body.length) && decide (x.body.length ≤ 1480) &&
      inetSum x.body == 0 &&
      decide (((s.advance dt).up.pings.filter fun t => decide ((s.advance dt).now < t + secPs 1)).length < 8)) = true := by
    simp only [htype, hcode, hmin, hmax, hsum, hrate', decide_true, beq_self_eq_true, Bool.and_self]
  simp only [doIcmpEcho, hip, Option.elim_some, hproto, if_true, State.echo]
  rw [if_pos hcond]
  simp only [State.learn_net]
  rfl

theorem doIcmpEcho_frame (dt p : Nat) (f : EthFrame) (s : State) : OnlyWrites [.time, .up] s (doIcmpEcho dt p f s) :=
  ⟨by simp, fun p hp => by cases p <;> simp_all [Part.same]⟩

end

/-- Settles O51: an ARP packet takes one of four ways; a request leaves the table's other entries and every other part. -/
theorem addressesResolved : Obligations.AddressesResolved := by
  unfold Obligations.AddressesResolved
  refine ⟨fun p f s hfor htype hhead => ⟨_, rfl, fun hown hp => ?_, fun hother hop c hc htarget => ?_,
      fun hother hop htpa hp => ?_, doArpReceive_sends p.val f s⟩,
    fun dt c s a hon hc hmac hdue htarget => ⟨_, rfl, ?_, doArpRetry_frame dt c.val s⟩,
    fun dt c s a m hon hc hmac hdue htarget => ⟨_, rfl, ?_, fun hfew => ?_, doArpRefresh_frame dt c.val s⟩,
    fun dt p f s x hip hproto htype hcode hmin hmax hsum hrate hp => ⟨_, rfl, ?_, ?_, doIcmpEcho_frame dt p.val f s⟩⟩
  · rw [doArpReceive_eq hfor htype hhead, if_pos (by exact hown), State.onPort_same (by rwa [State.learn_ports]), State.learn_ports]
  · have hanswer : ¬ (arpOp f = 1 ∧ arpTpa f = s.net.ipaddr) := by
      rintro ⟨hone, -⟩
      exact absurd (hone.symm.trans hop) (by decide)
    have htarget' : (s.learn p.val (frameSrc f.bytes)).arpTarget c = some (arpSpa f) := by
      rw [State.learn_arpTarget]
      exact htarget
    rw [doArpReceive_eq hfor htype hhead, if_neg (by exact hother), if_neg hanswer, if_pos (by exact hop), State.pump_arps]
    exact State.resolved_mac (by rwa [State.learn_arps]) htarget'
  · rw [doArpReceive_eq hfor htype hhead, if_neg (by exact hother), if_pos ⟨by exact hop, by exact htpa⟩]
    exact State.send_sentOn (by rw [State.learn_linked]; exact State.linked_of_forHub hfor) (ownFrame_plain _ _)
  · rw [doArpRetry_eq hon hmac hdue, State.askFor_arps (s := s.advance dt) id htarget hc, State.advance_now]
    rfl
  · rw [doArpRefresh_eq hon hmac hdue]
    split
    · rw [nth_set_same hc]
    · rw [State.askFor_arps (s := s.advance dt) _ htarget hc]
      exact hmac
  · rw [doArpRefresh_eq hon hmac hdue, if_neg (by omega), State.askFor_arps (s := s.advance dt) _ htarget hc, State.advance_now]
    exact ⟨rfl, rfl⟩
  · rw [doIcmpEcho_eq hip hproto htype hcode hmin hmax hsum hrate, State.send_ipId, State.echoed, State.learn_ipId]
    rfl
  · rw [doIcmpEcho_eq hip hproto htype hcode hmin hmax hsum hrate]
    refine State.send_sentOn ?_ (ownFrame_plain _ _)
    rw [State.echoed, State.learn_linked]
    exact State.linked_of_forHub (State.forHub_of_ipFor hip)

end Sys2Proof.Machine
end

section
/-! PROOFS. Datagrams of the uplink (15_uplink.md R401, R410–R414; 14_time.md R379, R380). -/

namespace Sys2Proof.Machine

/-! ### Control datagrams (R406, R414) -/

/-- From s to t only the uplink and the clients change, and as many clients stay. -/
def State.serves (s t : State) : Prop := OnlySends [.up, .clients] s t ∧ t.clients.length = s.clients.length

theorem State.serves.refl (s : State) : s.serves s := ⟨OnlySends.refl _ s, rfl⟩

theorem State.serves.trans {s t u : State} (h : s.serves t) (k : t.serves u) : s.serves u :=
  ⟨h.1.trans k.1, k.2.trans h.2⟩

theorem State.mails.serves {s t : State} (h : s.mails t) : s.serves t := ⟨h.1, h.2.1⟩

theorem State.onClient_serves (s : State) (c : Nat) (f : Client → Client) : s.serves (s.onClient c f) :=
  ⟨State.onClient_sends s c f, State.onClient_length s c f⟩

theorem State.learn_serves (s : State) (p : Nat) (src : List Byte) : s.serves (s.learn p src) :=
  ⟨s.learn_sends p src, by simp⟩

theorem State.resend_serves (s : State) (c : Nat) (cmp : BitVec 16) : s.serves (s.resend c cmp) := by
  unfold State.resend
  split
  · split
    · exact State.onClient_serves s c _
    · exact State.serves.refl s
  · exact State.serves.refl s

theorem State.takeMessage_serves (s : State) (c role : Nat) (m : List Word) : s.serves (s.takeMessage c role m) := by
  unfold State.takeMessage
  dsimp only
  split
  · exact ((State.accepted_mails s c _ _).trans (State.reply_mails _ c _ _ _ _ _)).serves
  · have htaken (f : Client → Client) (acc : Nat) : s.serves ((s.onClient c f).accepted c (msgCmp m) acc) :=
      (State.onClient_serves s c f).trans (State.accepted_mails _ c _ acc).serves
    split
    · exact (htaken _ _).trans (State.resend_serves _ c _)
    · split
      · exact (htaken _ _).trans (State.reply_mails _ c _ _ _ _ _).serves
      · exact ((htaken _ _).trans (State.onClient_serves _ c _)).trans (State.pendReply_mails _ c _ _ _).serves

theorem doMessageAccept_serves (c : Nat) (s : State) : s.serves (doMessageAccept c s) := by
  unfold doMessageAccept
  split
  · exact State.serves.refl s
  · split
    · dsimp only
      split
      · split
        · exact ((State.onClient_serves s c _).trans (State.takeMessage_serves _ c _ _)).trans (State.pump_mails _).serves
        · exact State.onClient_serves s c _
      · exact State.onClient_serves s c _
    · exact State.serves.refl s

@[simp] theorem State.learn_senderOf (s : State) (p : Nat) (from_ : List Byte) (src : Word) :
    (s.learn p from_).senderOf src = s.senderOf src := by
  simp [State.senderOf, State.clientEntry]

section
variable {p : Nat} {f : EthFrame} {s : State} {x : IpIn}

theorem doControlDatagram_message {c : Nat} {m : List Word} (hip : s.ipFor p f = some x) (hproto : x.proto = 17)
    (hport : beNat ((x.body.drop 2).take 2) = s.net.ctrlPort) (hfrom : s.senderOf x.src = some c)
    (hmsg : controlMessage s.net.ctrlPort x.src x.dst x.body = some m) :
    doControlDatagram p f s = (doMessageAccept c (s.learn p (frameSrc f.bytes))).arrive c m := by
  simp only [doControlDatagram, hip, Option.elim_some, hproto, if_true, State.takeControl, State.learn_net, hport, ne_eq,
    not_true_eq_false, if_false, State.learn_senderOf, hfrom, hmsg]

theorem doControlDatagram_unknown (hip : s.ipFor p f = some x) (hproto : x.proto = 17)
    (hport : beNat ((x.body.drop 2).take 2) = s.net.ctrlPort) (hfrom : s.senderOf x.src = none) :
    doControlDatagram p f s = (s.learn p (frameSrc f.bytes)).onPort p fun u => { u with unknown := u.unknown + 1 } := by
  simp only [doControlDatagram, hip, Option.elim_some, hproto, if_true, State.takeControl, State.learn_net, hport, ne_eq,
    not_true_eq_false, if_false, State.learn_senderOf, hfrom]

end

/-! ### Stream datagrams (R410–R412) -/

section
variable {s : State} {c p : Nat} {mac : List Byte} {e : ClientEntry} {l : Option LaunchMark}

/-- A datagram takes the client's next SEQ and is its last one. -/
theorem State.emit_clients : ∃ g : UpClient → UpClient, (s.emit c mac p e l).up.clients = s.up.clients.modify c g ∧
    ∀ u, (g u).seq = (nth s.up.clients c).seq + 1 ∧ (g u).lastSent = s.now := by
  unfold State.emit
  dsimp only
  split
  · exact ⟨_, State.send_upClients, fun _ => ⟨rfl, rfl⟩⟩
  · exact ⟨_, State.send_upClients, fun _ => ⟨rfl, rfl⟩⟩
  · exact ⟨_, State.send_upClients, fun _ => ⟨rfl, rfl⟩⟩

theorem State.emitIdle_clients : ∃ g : UpClient → UpClient, (s.emitIdle c mac p e l).up.clients = s.up.clients.modify c g ∧
    ∀ u, (g u).seq = (nth s.up.clients c).seq + 1 ∧ (g u).lastSent = s.now := by
  unfold State.emitIdle
  exact ⟨_, State.send_upClients, fun _ => ⟨rfl, rfl⟩⟩

variable {dt : Nat}

theorem doStreamDatagram_ready (fs : List LineFinding) (hentry : s.clientEntry c = some e) (hroute : s.route c = some (mac, p))
    (hready : (s.advance dt).streamReady c e p = true) :
    doStreamDatagram dt c fs s = ((s.advance dt).readFindings c fs).emit c mac p e none := by
  have hentry' : (s.advance dt).clientEntry c = some e := hentry
  have hroute' : (s.advance dt).route c = some (mac, p) := hroute
  simp only [doStreamDatagram, hentry', hroute', hready, if_true]

theorem doHeartbeat_silent (hentry : s.clientEntry c = some e) (hroute : s.route c = some (mac, p)) (hun : e.slotted = false)
    (hserved : (s.advance dt).served c = true) (hroom : s.roomFor p = true) (hfrag : (nth s.up.clients c).frag = none)
    (hsilent : (nth s.up.clients c).lastSent + secPs s.net.heartbeat ≤ s.now + dt) :
    doHeartbeat dt c s = (s.advance dt).emitIdle c mac p e none := by
  have hentry' : (s.advance dt).clientEntry c = some e := hentry
  have hroute' : (s.advance dt).route c = some (mac, p) := hroute
  have hroom' : (s.advance dt).roomFor p = true := hroom
  have hbetween : (s.advance dt).betweenPackets c = true := by simp [State.betweenPackets, hfrag]
  have hsilent' : (nth (s.advance dt).up.clients c).lastSent + secPs (s.advance dt).net.heartbeat ≤ (s.advance dt).now := by
    rw [State.advance_now]
    exact hsilent
  simp only [doHeartbeat, hentry', hroute', hun, hserved, hroom', hbetween, decide_eq_true hsilent', Bool.not_false,
    Bool.and_self, if_true]

theorem doStreamDatagram_frame (dt c : Nat) (fs : List LineFinding) (s : State) :
    OnlyWrites [.free, .time, .cw, .spill, .way, .up, .age] s (doStreamDatagram dt c fs s) :=
  ⟨by simp, fun p hp => by cases p <;> simp_all [Part.same]⟩

theorem doHeartbeat_frame (dt c : Nat) (s : State) : OnlyWrites [.time, .up] s (doHeartbeat dt c s) :=
  ⟨by simp, fun p hp => by cases p <;> simp_all [Part.same]⟩

theorem doPtpDelayReq_frame (dt x : Nat) (s : State) : OnlyWrites [.time, .up] s (doPtpDelayReq dt x s) :=
  ⟨by simp, fun p hp => by cases p <;> simp_all [Part.same]⟩

end

/-! ### Delay_Req (R379, R380) -/

/-- The Delay_Req frame of a domain as it waits. -/
def isDelayReq (e : Egress) (x : Nat) (seq : BitVec 16) : Prop := e.prio = 1 ∧ e.ptpIn = none ∧ e.delayReq = some (x, seq)

/-- A domain that sends its next Delay_Req: no port has timestamped it yet. -/
def State.asksDelay (s : State) (x : Nat) (seq : BitVec 16) : State :=
  { s with time := s.time.onN x fun p => { p with delaySeq := seq, t3 := [none, none] } }

theorem doPtpDelayReq_eq {dt x : Nat} {s : State} {id : PortId} (hon : s.uplinkOn = true) (hdomain : s.domainOn x = true)
    (hmaster : (nth s.time.n x).master = some id) :
    ∃ (t : State) (e : Egress), doPtpDelayReq dt x s = t.sendAll e ∧ isDelayReq e x ((nth s.time.n x).delaySeq + 1) ∧
      t.time = ((s.advance dt).asksDelay x ((nth s.time.n x).delaySeq + 1)).time ∧ t.up.ports = s.up.ports ∧
      t.power = s.power ∧ t.straps = s.straps ∧ t.port = s.port := by
  have hn := s.advance_n dt x
  have hcond : ((s.advance dt).uplinkOn && (s.advance dt).domainOn x && (nth (s.advance dt).time.n x).master.isSome) = true := by
    have hon' : (s.advance dt).uplinkOn = true := hon
    have hdomain' : (s.advance dt).domainOn x = true := hdomain
    rw [hon', hdomain', hn, hmaster]
    rfl
  have hseq : (nth (s.advance dt).time.n x).delaySeq = (nth s.time.n x).delaySeq := by rw [hn]
  rw [← hseq, doPtpDelayReq, if_pos hcond]
  dsimp only
  by_cases hl2 : (if x = 0 then s.timeBlock.n0Transport else s.timeBlock.n1Transport) = 0
  · refine ⟨_, _, if_pos hl2, ?_⟩
    exact ⟨⟨rfl, rfl, rfl⟩, rfl, rfl, rfl, rfl, rfl⟩
  · refine ⟨_, _, if_neg hl2, ?_⟩
    exact ⟨⟨rfl, rfl, rfl⟩, rfl, rfl, rfl, rfl, rfl⟩

/-! ### A Delay_Req at a port (R380, R399) -/

section
variable {s : State} {p x : Nat} {e : Egress} {seq : BitVec 16}

theorem State.send_linked (q : Nat) : (s.send p e).linked q = s.linked q := by
  obtain ⟨-, -, hsame, hne⟩ := s.send_frames p e
  have hlink : (nth (s.send p e).up.ports q).link = (nth s.up.ports q).link := by
    by_cases hq : q = p
    · rw [hq, hsame]
    · rw [hne q hq]
  rw [State.linked, State.linked, hlink, State.uplinkOn_of (s := s) (by simp) (by simp)]

/-- At a free port without a launch the frame starts at once. -/
theorem State.send_starts (hlinked : s.linked p = true) (hfree : (nth s.up.ports p).tx = none)
    (hempty : (nth s.up.ports p).queue = []) (hnext : s.nextLaunch p = none) :
    s.send p e = ((s.onPort p fun u => { u with queue := u.queue ++ [e] }).onPort p (·.start e (s.leaving e))).noteEgress p e := by
  have hp := State.lt_ports hlinked
  have hport : nth (s.onPort p fun u => { u with queue := u.queue ++ [e] }).up.ports p = { nth s.up.ports p with queue := [e] } := by
    rw [State.onPort_same hp, hempty]
    rfl
  have hlinked' : (s.onPort p fun u => { u with queue := u.queue ++ [e] }).linked p = true := by
    rw [State.linked, hport]
    exact hlinked
  have hmay : mayStart none e = true := by simp [mayStart]
  have hpick : pickFrame none [e] = some e := by simp [pickFrame, hmay]
  rw [State.send, if_pos hlinked, State.serve_some (e := e) hlinked' (by rw [hport]; exact hfree)
    (by rw [hport]; exact (congrArg (pickFrame · [e]) hnext).trans hpick)]
  rfl

theorem State.send_waits (hlinked : s.linked p = true) (hbusy : (nth s.up.ports p).tx ≠ none) :
    s.send p e = s.onPort p fun u => { u with queue := u.queue ++ [e] } := by
  rw [State.send, if_pos hlinked, State.serve_idle]
  rw [State.onPort_same (State.lt_ports hlinked)]
  exact hbusy

/-- Of the egress times of a domain, noting one at a port sets at most that port's. -/
theorem State.noteEgress_t3_cases : (nth (s.noteEgress p e).time.n x).t3 = (nth s.time.n x).t3 ∨
    ∃ v, (nth (s.noteEgress p e).time.n x).t3 = (nth s.time.n x).t3.set p v := by
  unfold State.noteEgress
  split
  next y _ _ =>
    split
    · rcases nth_modify_cases s.time.n y x fun n => { n with t3 := n.t3.set p (some (s.nNs y)) } with hkept | hset
      · exact Or.inl (by rw [Time.onN, hkept])
      · exact Or.inr ⟨_, by rw [Time.onN, hset]⟩
    · exact Or.inl rfl
  next => exact Or.inl rfl

theorem State.send_t3_cases : (nth (s.send p e).time.n x).t3 = (nth s.time.n x).t3 ∨
    ∃ v, (nth (s.send p e).time.n x).t3 = (nth s.time.n x).t3.set p v := by
  unfold State.send
  split
  · rcases (s.onPort p fun u => { u with queue := u.queue ++ [e] }).serve_cases p with hsame | ⟨-, -, b, -, hstart⟩
    · exact Or.inl (by rw [hsame]; rfl)
    · rw [hstart]
      exact State.noteEgress_t3_cases
  · exact Or.inl rfl

theorem State.send_t3_ne {q : Nat} (hq : q ≠ p) : nth (nth (s.send p e).time.n x).t3 q = nth (nth s.time.n x).t3 q := by
  rcases State.send_t3_cases (s := s) (p := p) (e := e) (x := x) with hkept | ⟨v, hset⟩
  · rw [hkept]
  · rw [hset, nth_set_ne _ hq]

theorem State.send_t3_length : (nth (s.send p e).time.n x).t3.length = (nth s.time.n x).t3.length := by
  rcases State.send_t3_cases (s := s) (p := p) (e := e) (x := x) with hkept | ⟨v, hset⟩
  · rw [hkept]
  · rw [hset, List.length_set]

/-- A Delay_Req that starts at once leaves its egress time. -/
theorem State.send_delayReq (hreq : isDelayReq e x seq) (hlinked : s.linked p = true) (hfree : (nth s.up.ports p).tx = none)
    (hempty : (nth s.up.ports p).queue = []) (hnext : s.nextLaunch p = none) (hseq : (nth s.time.n x).delaySeq = seq)
    (hx : x < s.time.n.length) (ht3 : p < (nth s.time.n x).t3.length) :
    nth (nth (s.send p e).time.n x).t3 p = some (s.nNs x) ∧ ∃ b, (nth (s.send p e).up.ports p).tx = some b ∧ isDelayReq b x seq := by
  obtain ⟨hprio, hin, hdelay⟩ := hreq
  have hp := State.lt_ports hlinked
  rw [State.send_starts hlinked hfree hempty hnext]
  refine ⟨?_, s.leaving e, ?_, ?_⟩
  · rw [State.noteEgress_t3 (s := (s.onPort p _).onPort p _) hdelay hseq hx]
    exact nth_set_same ht3 _
  · rw [State.noteEgress_up, State.onPort_same (by simpa using hp)]
    rfl
  · simp only [State.leaving, hin, hdelay]
    exact ⟨hprio, rfl, rfl⟩

/-- What the next launch on a port is follows from the clocks and the image in force. -/
theorem State.nextLaunch_of {t : State} (hn : ∀ y, (nth t.time.n y).acc = (nth s.time.n y).acc)
    (htime : t.time = { s.time with n := t.time.n }) (hport : t.port = s.port) : t.nextLaunch p = s.nextLaunch p := by
  have hg : t.gNs = s.gNs := by rw [State.gNs, State.gNs, htime]
  have hacts : t.time.acts = s.time.acts := by rw [htime]
  have htb (y : Nat) : t.tbNs y = s.tbNs y := by rw [State.tbNs, State.tbNs, State.nNs, State.nNs, hn, hg]
  simp only [State.nextLaunch, hport, hacts, htb]

theorem State.sendAll_delayReq (hp : p < 2) (hreq : isDelayReq e x seq) (hlinked : s.linked p = true)
    (hfree : (nth s.up.ports p).tx = none) (hempty : (nth s.up.ports p).queue = []) (hnext : s.nextLaunch p = none)
    (hseq : (nth s.time.n x).delaySeq = seq) (hx : x < s.time.n.length) (ht3 : p < (nth s.time.n x).t3.length) :
    nth (nth (s.sendAll e).time.n x).t3 p = some (s.nNs x) ∧
      ∃ b, (nth (s.sendAll e).up.ports p).tx = some b ∧ isDelayReq b x seq := by
  match p, hp with
  | 0, _ =>
    rw [State.sendAll, State.send_t3_ne (by decide), State.send_port_ne (by decide)]
    exact State.send_delayReq hreq hlinked hfree hempty hnext hseq hx ht3
  | 1, _ =>
    have hport : nth (s.send 0 e).up.ports 1 = nth s.up.ports 1 := State.send_port_ne (by decide)
    obtain ⟨htime, hlen, hn⟩ : SameClocks s (s.send 0 e) := (State.send_sends s 0 e).2
    have hnext' : (s.send 0 e).nextLaunch 1 = none := by
      rw [State.nextLaunch_of (fun y => by rw [hn]) htime (by simp), hnext]
    have hns : (s.send 0 e).nNs x = s.nNs x := by rw [State.nNs, State.nNs, hn]
    rw [State.sendAll, ← hns]
    exact State.send_delayReq hreq (by rw [State.send_linked]; exact hlinked) (by rw [hport]; exact hfree)
      (by rw [hport]; exact hempty) hnext' (by rw [hn]; exact hseq) (by rw [hlen]; exact hx) (by rw [State.send_t3_length]; exact ht3)

theorem State.sendAll_waits (hp : p < 2) (hlinked : s.linked p = true) (hbusy : (nth s.up.ports p).tx ≠ none) :
    nth (nth (s.sendAll e).time.n x).t3 p = nth (nth s.time.n x).t3 p ∧ e ∈ (nth (s.sendAll e).up.ports p).queue := by
  have hone (t : State) (hlinked : t.linked p = true) (hbusy : (nth t.up.ports p).tx ≠ none) :
      nth (nth (t.send p e).time.n x).t3 p = nth (nth t.time.n x).t3 p ∧ e ∈ (nth (t.send p e).up.ports p).queue := by
    rw [State.send_waits hlinked hbusy, State.onPort_same (State.lt_ports hlinked)]
    exact ⟨rfl, by simp⟩
  match p, hp with
  | 0, _ =>
    rw [State.sendAll, State.send_t3_ne (by decide), State.send_port_ne (by decide)]
    exact hone s hlinked hbusy
  | 1, _ =>
    have hport : nth (s.send 0 e).up.ports 1 = nth s.up.ports 1 := State.send_port_ne (by decide)
    obtain ⟨ht3, hmem⟩ := hone (s.send 0 e) (by rw [State.send_linked]; exact hlinked) (by rw [hport]; exact hbusy)
    exact ⟨ht3.trans (State.send_t3_ne (by decide)), hmem⟩

end

/-- Settles O52: a datagram's SEQ and time come from the one change of its client; a Delay_Req is followed to each port. -/
theorem datagramsGo : Obligations.DatagramsGo := by
  unfold Obligations.DatagramsGo
  refine ⟨fun p f s x c m hip hproto hc hport hfrom hmsg => ⟨_, rfl, ?_⟩,
    fun p f s x hip hproto hp hport hfrom => ⟨_, rfl, ?_⟩,
    fun dt c fs s e m p hentry hroute hready hc => ⟨_, rfl, ?_⟩,
    fun dt c s e m p hentry hroute hun hserved hroom hfrag hsilent hc => ⟨_, rfl, ?_⟩,
    fun dt x s id hon hdomain hx hmaster => ⟨_, rfl, ?_⟩⟩
  · rw [doControlDatagram_message hip hproto hport hfrom hmsg]
    have hserves := (s.learn_serves p.val (frameSrc f.bytes)).trans (doMessageAccept_serves c _)
    obtain ⟨hsends, hlen⟩ := hserves.trans (State.onClient_serves _ c _)
    refine ⟨?_, hsends⟩
    rw [State.arrive, State.onClient_same (by rw [hserves.2]; exact hc)]
  · have hframe : OnlyWrites [.up] s ((s.learn p.val (frameSrc f.bytes)).onPort p.val fun u => { u with unknown := u.unknown + 1 }) :=
      ⟨by simp, fun p hp => by cases p <;> simp_all [Part.same]⟩
    rw [doControlDatagram_unknown hip hproto hport hfrom]
    refine ⟨?_, hframe⟩
    rw [State.onPort_same (by rwa [State.learn_ports]), State.learn_ports]
  · have hframe := doStreamDatagram_frame dt c.val fs s
    rw [doStreamDatagram_ready fs hentry hroute hready] at hframe ⊢
    obtain ⟨g, hclients, hg⟩ :=
      State.emit_clients (s := (s.advance dt).readFindings c.val fs) (c := c.val) (p := p) (mac := m) (e := e) (l := none)
    have hup : ((s.advance dt).readFindings c.val fs).up = s.up := by simp
    have htime : ((s.advance dt).readFindings c.val fs).time = (s.advance dt).time := by simp only [State.readFindings_keeps]
    have hnow : ((s.advance dt).readFindings c.val fs).now = s.now + dt := by rw [State.now, htime]; exact s.advance_now dt
    rw [hup, hnow] at hg
    rw [hup] at hclients
    rw [hclients, nth_modify_same hc]
    exact ⟨(hg _).1, (hg _).2, fun i hi => nth_modify_ne _ hi g, hframe⟩
  · have hframe := doHeartbeat_frame dt c.val s
    rw [doHeartbeat_silent hentry hroute hun hserved hroom hfrag hsilent] at hframe ⊢
    obtain ⟨g, hclients, hg⟩ := State.emitIdle_clients (s := s.advance dt) (c := c.val) (p := p) (mac := m) (e := e) (l := none)
    rw [State.advance_now] at hg
    rw [hclients, advance_up, nth_modify_same hc]
    exact ⟨(hg _).1, (hg _).2, hframe.2 .cw (by simp), hframe⟩
  · have hframe := doPtpDelayReq_frame dt x.val s
    obtain ⟨t, e, heq, hreq, htime, hports, hpower, hstraps, hport⟩ := doPtpDelayReq_eq (dt := dt) hon hdomain hmaster
    have hxa : x.val < (s.advance dt).time.n.length := by rwa [State.advance_n_length]
    have hown : nth t.time.n x.val = { nth (s.advance dt).time.n x.val with
        delaySeq := (nth s.time.n x.val).delaySeq + 1, t3 := [none, none] } := by
      rw [htime]
      exact nth_modify_same hxa _
    have hacc (y : Nat) : (nth t.time.n y).acc = (nth (s.advance dt).time.n y).acc := by
      rw [htime]
      rcases nth_modify_cases (s.advance dt).time.n x.val y fun p =>
        { p with delaySeq := (nth s.time.n x.val).delaySeq + 1, t3 := [none, none] } with hkept | hset
      · exact congrArg Ptp.acc hkept
      · exact (congrArg Ptp.acc hset).trans rfl
    have hns : t.nNs x.val = (s.advance dt).nNs x.val := by rw [State.nNs, State.nNs, hacc]
    have hnext (p : Nat) : t.nextLaunch p = (s.advance dt).nextLaunch p :=
      State.nextLaunch_of hacc (by rw [htime]; rfl) hport
    have hlinked {p : Nat} (hlink : (nth s.up.ports p).link = true) : t.linked p = true := by
      rw [State.linked, State.uplinkOn_of hpower hstraps, hports, hon, hlink]
      rfl
    have hseq : (nth t.time.n x.val).delaySeq = (nth s.time.n x.val).delaySeq + 1 := by rw [hown]
    have ht3 : (nth t.time.n x.val).t3 = [none, none] := by rw [hown]
    have hxt : x.val < t.time.n.length := by
      rw [htime]
      simpa only [State.asksDelay, Time.onN, List.length_modify] using hxa
    obtain ⟨-, -, hclocks⟩ := (State.send_sends t 0 e).2.trans (State.send_sends (t.send 0 e) 1 e).2
    rw [heq] at hframe ⊢
    refine ⟨?_, fun p hp hlink hfree hempty hlaunch => ?_, fun p hp hlink hbusy => ?_, hframe⟩
    · rw [State.sendAll, hclocks x.val, hseq]
    · obtain ⟨hset, b, htx, hprio, -, hdelay⟩ := State.sendAll_delayReq p.isLt hreq (hlinked hlink) (by rw [hports]; exact hfree)
        (by rw [hports]; exact hempty) ((hnext _).trans hlaunch) hseq hxt (by rw [ht3]; exact p.isLt)
      exact ⟨hset.trans (congrArg some hns), b, htx, hprio, hdelay⟩
    · obtain ⟨hkept, hmem⟩ := State.sendAll_waits (e := e) (x := x.val) p.isLt (hlinked hlink) (by rw [hports]; exact hbusy)
      obtain ⟨hprio, -, hdelay⟩ := hreq
      refine ⟨hkept.trans ?_, e, hmem, hprio, hdelay⟩
      rw [ht3]
      match p with
      | 0 | 1 => rfl
end Sys2Proof.Machine
end

section
/-! PROOFS. The host ports (16_host_serial.md): what a response, a request and the end of an exchange do to their port. -/

namespace Sys2Proof.Machine

/-! ### One port changed -/

theorem State.onHost_same (s : State) (c : Nat) (f : Port → Port) : (s.onHost c f).hostPort c = f (s.hostPort c) := by
  unfold State.onHost State.hostPort
  split <;> rfl

/-- The other host port is the same in two states. -/
def State.keepsOther (c : Nat) (s t : State) : Prop := (c = 4 → t.tw = s.tw) ∧ (c ≠ 4 → t.hs = s.hs)

theorem State.keepsOther.refl (c : Nat) (s : State) : s.keepsOther c s := ⟨fun _ => rfl, fun _ => rfl⟩

theorem State.keepsOther.trans {c : Nat} {s t u : State} (h : s.keepsOther c t) (k : t.keepsOther c u) : s.keepsOther c u :=
  ⟨fun hc => (k.1 hc).trans (h.1 hc), fun hc => (k.2 hc).trans (h.2 hc)⟩

theorem State.onHost_keepsOther (s : State) (c : Nat) (f : Port → Port) : s.keepsOther c (s.onHost c f) := by
  refine ⟨fun hc => ?_, fun hc => ?_⟩
  · rw [State.onHost, if_pos hc]
  · rw [State.onHost, if_neg hc]

theorem State.keepsOther_of_same {c : Nat} {s t : State} (hhs : t.hs = s.hs) (htw : t.tw = s.tw) : s.keepsOther c t :=
  ⟨fun _ => htw, fun _ => hhs⟩

/-! ### What a delivery and a request change of a port -/

/-- From p to q only what a delivery moves has changed. -/
def Port.delivers (p q : Port) : Prop := q = { p with outFrag := q.outFrag, outMsg := q.outMsg, bufLines := q.bufLines }

/-- From p to q only what an accepted request leaves has changed. -/
def Port.latches (p q : Port) : Prop :=
  q = { p with result := q.result, nextOp := q.nextOp, asmWords := q.asmWords, asmNext := q.asmNext, asmN := q.asmN,
               asmAt := q.asmAt }

theorem Port.latches.refl (p : Port) : p.latches p := rfl

theorem Port.latches.trans {p q r : Port} (h : p.latches q) (k : q.latches r) : p.latches r := by
  unfold Port.latches at *
  rw [k, h]

theorem State.onClient_hostPort (s : State) (c d : Nat) (f : Client → Client) : (s.onClient d f).hostPort c = s.hostPort c := rfl

/-- A response in progress delivered: what moves at the port. -/
theorem State.takeResponse_port (s : State) (c k : Nat) : (s.hostPort c).delivers ((s.takeResponse c k).hostPort c) := by
  unfold State.takeResponse
  dsimp only
  split
  · rw [State.onHost_same]
    rfl
  · split
    · split
      · rw [State.onHost_same]
        split <;> rfl
      · rw [State.onHost_same]
        rfl
    · rfl

theorem State.takeResponse_keepsOther (s : State) (c k : Nat) : s.keepsOther c (s.takeResponse c k) := by
  unfold State.takeResponse
  dsimp only
  split
  · exact State.keepsOther.trans (State.keepsOther_of_same rfl rfl) (State.onHost_keepsOther _ c _)
  · split
    · split
      · split
        · exact State.keepsOther.trans (State.keepsOther_of_same rfl rfl) (State.onHost_keepsOther _ c _)
        · exact State.onHost_keepsOther _ c _
      · exact State.onHost_keepsOther _ c _
    · exact State.keepsOther.refl c s

/-- From s to t a request changes its port's command and message, and no other port. -/
def State.requests (c : Nat) (s t : State) : Prop := (s.hostPort c).latches (t.hostPort c) ∧ s.keepsOther c t

theorem State.requests.trans {c : Nat} {s t u : State} (h : s.requests c t) (k : t.requests c u) : s.requests c u :=
  ⟨h.1.trans k.1, h.2.trans k.2⟩

theorem State.onHost_requests (s : State) (c : Nat) {f : Port → Port} (hf : ∀ p : Port, p.latches (f p)) :
    s.requests c (s.onHost c f) :=
  ⟨by rw [State.onHost_same]; exact hf _, State.onHost_keepsOther s c f⟩

theorem State.arrive_requests (s : State) (c : Nat) (m : List Word) : s.requests c (s.arrive c m) :=
  ⟨rfl, State.keepsOther_of_same rfl rfl⟩

theorem State.takeFragment_requests (s : State) (c frag n : Nat) (ws : List Word) : s.requests c (s.takeFragment c frag n ws) := by
  have hset (t : State) (r : Nat) : t.requests c (t.onHost c fun p => { p with result := r }) := State.onHost_requests t c fun _ => rfl
  have hdrop : s.requests c (s.onHost c Port.dropPart) := State.onHost_requests s c fun _ => rfl
  unfold State.takeFragment
  dsimp only
  generalize (if frag = 0 then [] else (s.hostPort c).asmWords) = before
  split
  · exact hset s 4
  · split
    · exact hset s 6
    · split
      · exact hdrop.trans (hset _ 3)
      · split
        · exact hset s 6
        · split
          · exact (hdrop.trans (State.arrive_requests _ c _)).trans (hset _ 2)
          · refine State.requests.trans (State.onHost_requests s c ?_) (hset _ 1)
            exact fun _ => rfl

theorem State.latch_requests (s : State) (c : Nat) (req : List Word) : s.requests c (s.latch c req) := by
  have hset (op r : Nat) : s.requests c (s.onHost c fun p => { p with nextOp := op, result := r }) :=
    State.onHost_requests s c fun _ => rfl
  unfold State.latch
  dsimp only
  split
  · refine State.requests.trans (State.takeFragment_requests s c _ _ _) (State.onHost_requests _ c ?_)
    exact fun _ => rfl
  · split
    · exact hset 1 1
    · exact hset 0 5
  · exact hset 2 1
  · exact hset 0 0

/-! ### A port at rest (R442) -/

@[simp] theorem Port.off_rejected (p : Port) : p.off.rejected = p.rejected := by unfold Port.off; dsimp only; split <;> rfl
@[simp] theorem Port.off_rej (p : Port) : p.off.rej = p.rej := by unfold Port.off; dsimp only; split <;> rfl
@[simp] theorem Port.off_tout (p : Port) : p.off.tout = p.tout := by unfold Port.off; dsimp only; split <;> rfl
@[simp] theorem Port.off_result (p : Port) : p.off.result = p.result := by unfold Port.off; dsimp only; split <;> rfl
@[simp] theorem Port.off_rseq (p : Port) : p.off.rseq = p.rseq := by unfold Port.off; dsimp only; split <;> rfl
@[simp] theorem Port.off_shifted (p : Port) : p.off.shifted = p.shifted := by unfold Port.off; dsimp only; split <;> rfl

theorem Port.off_of_shut {p : Port} (h : p.isOpen = false) :
    p.off = { p.dropPart.shut with nextOp := 0, outFrag := 0, outMsg := [], again := none, riseAt := none } := by
  simp only [Port.off, h, Bool.false_eq_true, if_false]

theorem State.portRest_awake {s : State} (c : Nat) (h : s.inMode .layby = false) : s.portRest c = s := by
  simp only [State.portRest, h, Bool.false_and, Bool.false_eq_true, if_false]

theorem State.portRest_cases (s : State) (c : Nat) : s.portRest c = s ∨ s.portRest c = s.onHost c Port.off := by
  unfold State.portRest
  split
  · exact Or.inr rfl
  · exact Or.inl rfl

theorem State.portRest_keepsOther (s : State) (c : Nat) : s.keepsOther c (s.portRest c) := by
  rcases s.portRest_cases c with hsame | hoff
  · rw [hsame]
    exact State.keepsOther.refl c s
  · rw [hoff]
    exact State.onHost_keepsOther s c _

/-- A property that a port keeps as it goes off is kept as it comes to rest. -/
theorem State.portRest_port {s : State} {c : Nat} {P : Port → Prop} (hp : P (s.hostPort c)) (hoff : P (s.hostPort c).off) :
    P ((s.portRest c).hostPort c) := by
  rcases s.portRest_cases c with hsame | hrest
  · rw [hsame]
    exact hp
  · rw [hrest, State.onHost_same]
    exact hoff

/-! ### Lines of a delivery (R423) -/

theorem length_of_mem_chunks {α : Type} {n : Nat} {ws l : List α} (h : l ∈ chunks n ws) : l.length ≤ n := by
  have hfuel (f : Nat) : ∀ ws : List α, l ∈ chunksF n f ws → l.length ≤ n := by
    induction f with
    | zero => exact fun ws hl => nomatch hl
    | succ f ih =>
      intro ws hl
      rcases ws with _ | ⟨a, ws⟩
      · exact nomatch hl
      · rcases List.mem_cons.mp hl with heq | hrest
        · rw [heq]
          exact List.length_take_le n _
        · exact ih _ hrest
  exact hfuel _ ws h

/-- A delivery of at most n lines has at most n lines, of four words each. -/
theorem Causeway.linesF_small (f : Nat) : ∀ (cw : Causeway) (r mark n : Nat),
    (Causeway.linesF f cw r mark n).length ≤ n ∧ ∀ l ∈ Causeway.linesF f cw r mark n, l.length ≤ 4 := by
  induction f with
  | zero => exact fun cw r mark n => ⟨Nat.zero_le n, fun l hl => nomatch hl⟩
  | succ f ih =>
    intro cw r mark n
    have hline : ∀ l ∈ (chunks 4 (cw.itemWords r mark)).drop (cw.offset r), l.length ≤ 4 :=
      fun l hl => length_of_mem_chunks (List.mem_of_mem_drop hl)
    unfold Causeway.linesF
    split
    · exact ⟨Nat.zero_le n, fun l hl => nomatch hl⟩
    · dsimp only
      split
      · exact ⟨Nat.zero_le n, fun l hl => nomatch hl⟩
      · split
        · exact ⟨List.length_take_le n _, fun l hl => hline l (List.mem_of_mem_take hl)⟩
        next hmore =>
          obtain ⟨hlen, hmem⟩ := ih (cw.pass r) r mark (n - ((chunks 4 (cw.itemWords r mark)).drop (cw.offset r)).length)
          refine ⟨by rw [List.length_append]; omega, fun l hl => ?_⟩
          rcases List.mem_append.mp hl with hfirst | hrest
          · exact hline l hfirst
          · exact hmem l hrest

theorem length_flatten_le {α : Type} {k : Nat} {ls : List (List α)} (h : ∀ l ∈ ls, l.length ≤ k) :
    ls.flatten.length ≤ k * ls.length := by
  induction ls with
  | nil => simp
  | cons l ls ih =>
    have hl := h l List.mem_cons_self
    have hrest := ih fun x hx => h x (List.mem_cons_of_mem _ hx)
    rw [List.flatten_cons, List.length_append, List.length_cons, Nat.mul_succ]
    omega

theorem State.dataBody_lines (s : State) (c n : Nat) : (s.dataBody c n).ws.length ≤ 4 * n := by
  have hdelivered (m : Nat) : (s.cw.deliverLines c s.mark m).flatten.length ≤ 4 * m := by
    obtain ⟨hlen, hline⟩ := Causeway.linesF_small (m + 1) s.cw c s.mark m
    exact Nat.le_trans (length_flatten_le hline) (Nat.mul_le_mul_left 4 hlen)
  have hbody (m : Nat) (hm : m ≤ n) : (if (s.cw.deliverLines c s.mark m).isEmpty then Body.none_
      else { Body.none_ with content := 1, cont := s.cw.contLines c s.mark (s.cw.deliverLines c s.mark m).length
                             ws := (s.cw.deliverLines c s.mark m).flatten
                             took := Causeway.tookF ((s.cw.deliverLines c s.mark m).length + 1) s.cw c s.mark
                               (s.cw.deliverLines c s.mark m).length }).ws.length ≤ 4 * n := by
    split
    · exact Nat.zero_le _
    · exact Nat.le_trans (hdelivered m) (Nat.mul_le_mul_left 4 hm)
  unfold State.dataBody
  refine hbody _ ?_
  split
  · split
    · exact Nat.min_le_left n _
    · exact Nat.le_refl n
  · split
    · exact Nat.zero_le n
    · exact Nat.le_refl n

theorem length_padTo (n : Nat) (ws : List Word) (h : 0 < n) : (padTo n ws).length = ceilDiv ws.length n * n := by
  have hup : ws.length ≤ ceilDiv ws.length n * n := by
    have hlt := Nat.lt_div_mul_add h (a := ws.length + n - 1)
    unfold ceilDiv
    omega
  rw [padTo, List.length_append, List.length_replicate]
  omega

theorem State.frameWords_lines (s : State) : s.frameWords = 4 * ((s.frameWords - 4) / 4) + 4 := by
  unfold State.frameWords
  split <;> rfl

theorem State.msgBody_lines (s : State) (m : List Word) : (s.msgBody 4 m).ws.length ≤ 4 * ((s.frameWords - 4) / 4) := by
  have hwords := s.frameWords_lines
  have hfrag : s.fragWords 4 = s.frameWords - 4 := rfl
  have hpad (ws : List Word) (hws : ws.length ≤ s.frameWords - 4) : (padTo 4 ws).length ≤ 4 * ((s.frameWords - 4) / 4) := by
    rw [length_padTo 4 ws (by decide), ceilDiv]
    omega
  exact hpad _ (by rw [hfrag]; exact List.length_take_le _ _)

/-- A response of the clocked serial port fits its frame (R419, R423). -/
theorem State.nextBody_lines {s : State} (hagain : s.hs.again = none) :
    (s.nextBody 4 ((s.frameWords - 4) / 4)).ws.length / 4 ≤ (s.frameWords - 4) / 4 := by
  have hnone : s.again 4 = none := by
    have hport : (s.hostPort 4).again = none := hagain
    simp only [State.again, hport, Option.filter_none]
  have hdata : (if s.dataServed 4 && s.portServed 4 then (s.again 4).getD (s.dataBody 4 ((s.frameWords - 4) / 4))
      else Body.none_).ws.length ≤ 4 * ((s.frameWords - 4) / 4) := by
    split
    · rw [hnone]
      exact s.dataBody_lines 4 _
    · exact Nat.zero_le _
  refine Nat.div_le_of_le_mul ?_
  unfold State.nextBody
  dsimp only
  split
  · exact hdata
  · split
    · exact s.msgBody_lines _
    · exact hdata
  · exact Nat.zero_le _

/-! ### The response (R419) -/

section
variable {s : State} {dt : Nat} {fs : List LineFinding}

theorem State.readFindings_hs (s : State) (c : Nat) (fs : List LineFinding) : (s.readFindings c fs).hs = s.hs := by simp
theorem State.readFindings_tw (s : State) (c : Nat) (fs : List LineFinding) : (s.readFindings c fs).tw = s.tw := by simp

/-- A read that finds nothing has at most its spill page read (R320). -/
theorem State.readFindings_nil (s : State) (c : Nat) : OnlyWrites [.spill] s (s.readFindings c []) := by
  unfold State.readFindings State.findings State.fetchSpill
  rw [List.foldl_nil]
  split
  · split
    · split
      · exact ⟨rfl, fun p hp => by cases p <;> simp_all [Part.same]⟩
      · exact OnlyWrites.refl _ s
    · exact OnlyWrites.refl _ s
  · exact OnlyWrites.refl _ s

/-- What a response is read from: its reader's data where the port serves them (R420, R442). -/
def State.readFor (s : State) (c : Nat) (fs : List LineFinding) : State := if s.dataServed c then s.readFindings c fs else s

theorem State.readFor_nil (s : State) (c : Nat) : OnlyWrites [.spill] s (s.readFor c []) := by
  unfold State.readFor
  split
  · exact s.readFindings_nil c
  · exact OnlyWrites.refl _ s

theorem State.readFor_keeps (s : State) (c : Nat) (fs : List LineFinding) :
    (s.readFor c fs).hs = s.hs ∧ (s.readFor c fs).tw = s.tw ∧ (s.readFor c fs).straps = s.straps ∧ (s.readFor c fs).time = s.time ∧
    (s.readFor c fs).power = s.power := by
  unfold State.readFor
  split
  · exact ⟨by simp, by simp, by simp, by simp, by simp⟩
  · exact ⟨rfl, rfl, rfl, rfl, rfl⟩

theorem State.buildResponse_keepsOther (s : State) (c n : Nat) : s.keepsOther c (s.buildResponse c n) :=
  State.onHost_keepsOther s c _

/-- HSEL_N falls less than 1 µs after it rose (R428). -/
def State.fallsSoon (s : State) : Bool :=
  match s.hs.riseAt with
  | some t => decide (s.now < t + usPs 1)
  | none => false

theorem State.readFor_frameWords (s : State) (c : Nat) (fs : List LineFinding) : (s.readFor c fs).frameWords = s.frameWords := by
  obtain ⟨-, -, hstraps, -, -⟩ := s.readFor_keeps c fs
  simp only [State.frameWords, State.strap, hstraps]

theorem State.readFor_fallsSoon (s : State) (dt c : Nat) (fs : List LineFinding) :
    ((s.advance dt).readFor c fs).fallsSoon = s.hs.riseAt.elim false fun r => decide (s.now + dt < r + usPs 1) := by
  obtain ⟨hhs, -, -, htime, -⟩ := (s.advance dt).readFor_keeps c fs
  have hnow : ((s.advance dt).readFor c fs).now = s.now + dt := by rw [State.now, htime]; exact s.advance_now dt
  rw [State.fallsSoon, hhs, advance_hs]
  rcases s.hs.riseAt with _ | r
  · rfl
  · rw [Option.elim_some]
    exact decide_eq_decide.mpr (by rw [hnow])

theorem doHselFall_eq (hon : s.portOn 4 = true) (hshut : s.hs.isOpen = false) :
    doHselFall dt fs s =
      (((s.advance dt).readFor 4 fs).buildResponse 4 ((s.frameWords - 4) / 4)).onHost 4 fun p =>
        { p with tooSoon := ((s.advance dt).readFor 4 fs).fallsSoon, resp := padTo s.frameWords p.resp } := by
  have hcond : ((s.advance dt).portOn 4 && !(s.advance dt).hs.isOpen) = true := by
    have hon' : (s.advance dt).portOn 4 = true := hon
    rw [hon', advance_hs, hshut]
    rfl
  have hwords : ((s.advance dt).readFor 4 fs).frameWords = s.frameWords := State.readFor_frameWords _ 4 fs
  have hwords' (n : Nat) : (((s.advance dt).readFor 4 fs).buildResponse 4 n).frameWords = s.frameWords := hwords
  have hstep : doHselFall dt fs s =
      (((s.advance dt).readFor 4 fs).buildResponse 4 ((((s.advance dt).readFor 4 fs).frameWords - 4) / 4)).onHost 4 fun p =>
        { p with tooSoon := ((s.advance dt).readFor 4 fs).fallsSoon
                 resp := padTo (((s.advance dt).readFor 4 fs).buildResponse 4
                   ((((s.advance dt).readFor 4 fs).frameWords - 4) / 4)).frameWords p.resp } := by
    rw [doHselFall, if_pos hcond]
    rfl
  rw [hstep, hwords', hwords]

end

/-! ### The clocked serial port (R427–R431) -/

theorem OnlyWrites.drop {p : Part} {ps : List Part} {s t : State} (h : OnlyWrites (p :: ps) s t) (hp : p.same s t) :
    OnlyWrites ps s t := by
  refine ⟨h.1, fun q hq => ?_⟩
  by_cases hqp : q = p
  · rw [hqp]
    exact hp
  · exact h.2 q (by simp [hqp, hq])

/-- Whether a port is served follows from the power state, the straps and the image. -/
theorem State.portOn_of {s t : State} (hpower : t.power = s.power) (hstraps : t.straps = s.straps) (hport : t.port = s.port)
    (c : Nat) : t.portOn c = s.portOn c := by
  simp only [State.portOn, State.roleOf, State.clientEntry, State.strap, State.hostUp, State.twWoken, State.awake, State.full,
    State.inMode, State.running, hpower, hstraps, hport]

/-- Whether a port's data is served follows from the power state. -/
theorem State.dataServed_of {s t : State} (hpower : t.power = s.power) (c : Nat) : t.dataServed c = s.dataServed c := by
  simp only [State.dataServed, State.running, State.full, State.inMode, hpower]

theorem State.portServed_of {s t : State} (hpower : t.power = s.power) (hstraps : t.straps = s.straps) (hport : t.port = s.port)
    (htime : t.time = s.time) (hfuses : t.fuses = s.fuses) (c : Nat) : t.portServed c = s.portServed c := by
  simp only [State.portServed, State.roleOf, State.clientEntry, State.strap, State.serviceOpen,
    State.commissioning, hpower, hstraps, hport, htime, hfuses]

theorem State.hsDriven_of {s t : State} (hstraps : t.straps = s.straps) : t.hsDriven = s.hsDriven := by
  simp only [State.hsDriven, State.strap, hstraps]

/-- A response built from what is read has its own lines and the next RSEQ (R419). -/
theorem State.buildResponse_port (s : State) (c n : Nat) :
    (s.buildResponse c n).hostPort c =
      { s.hostPort c with
        rseq := (s.hostPort c).rseq + 1, resp := s.responseHead c (s.nextBody c n) ((s.hostPort c).rseq + 1) ++ (s.nextBody c n).ws,
        lines := (s.nextBody c n).ws.length / 4, content := (s.nextBody c n).content, msgLast := (s.nextBody c n).last,
        outMsg := if (s.nextBody c n).content = 2 then (s.nextBody c n).msg else (s.hostPort c).outMsg,
        outFrag := if (s.nextBody c n).content = 2 then (s.nextBody c n).frag else (s.hostPort c).outFrag,
        took := (s.nextBody c n).took, from_ := (nth s.cw.readers c).next, body := s.nextBody c n, isOpen := true } :=
  State.onHost_same s c _

section
variable {s : State} {dt edges : Nat} {fs : List LineFinding} {hsdi : List Bool}

theorem doHselFall_tw (hon : s.portOn 4 = true) (hshut : s.hs.isOpen = false) : (doHselFall dt fs s).tw = s.tw := by
  rw [doHselFall_eq hon hshut]
  exact ((s.advance dt).readFor_keeps 4 fs).2.1

theorem doHselFall_frame (hon : s.portOn 4 = true) (hshut : s.hs.isOpen = false) :
    OnlyWrites [.free, .time, .cw, .spill, .way, .hs, .age] s (doHselFall dt fs s) := by
  have hall : OnlyWrites [.tw, .free, .time, .cw, .spill, .way, .hs, .age] s (doHselFall dt fs s) :=
    ⟨by simp, fun p hp => by cases p <;> simp_all [Part.same]⟩
  exact hall.drop (doHselFall_tw hon hshut)

theorem onlyWrites_onHost4 (s : State) (f : Port → Port) : OnlyWrites [.hs] s (s.onHost 4 f) :=
  ⟨rfl, fun p hp => by cases p <;> simp_all [Part.same, State.onHost]⟩

theorem onlyWrites_onHost5 (s : State) (f : Port → Port) : OnlyWrites [.tw] s (s.onHost 5 f) :=
  ⟨rfl, fun p hp => by cases p <;> simp_all [Part.same, State.onHost]⟩

theorem doHselFall_nil (hon : s.portOn 4 = true) (hshut : s.hs.isOpen = false) :
    OnlyWrites [.time, .spill, .hs] s (doHselFall dt [] s) := by
  rw [doHselFall_eq hon hshut]
  have hread : OnlyWrites [.time, .spill] s ((s.advance dt).readFor 4 []) := (onlyWrites_advance s dt).trans (State.readFor_nil _ 4)
  have hbuilt : OnlyWrites [.hs] _ (((s.advance dt).readFor 4 []).buildResponse 4 ((s.frameWords - 4) / 4)) :=
    onlyWrites_onHost4 _ _
  exact ((hread.trans hbuilt).trans (onlyWrites_onHost4 _ _)).mono (by simp)

/-- The lines of a rejected frame come again where the cursor still stands where it stood for them (R429). -/
theorem State.nextBody_again {b : Body} {n : Nat} (hagain : s.hs.again = some b) (hdata : s.dataServed 4 = true)
    (hserved : s.portServed 4 = true) (hop : s.hs.nextOp = 0) (hfrom : (nth s.cw.readers 4).next = s.hs.from_)
    (hbefore : b.took.head?.map (·.before) = some (s.cw.offset 4)) : s.nextBody 4 n = b := by
  have hcond : ((nth s.cw.readers 4).next == s.hs.from_ && b.took.head?.map (·.before) == some (s.cw.offset 4)) = true := by
    rw [hfrom, hbefore]
    simp
  have hport : s.hostPort 4 = s.hs := rfl
  have hsame : s.again 4 = some b := by
    simp only [State.again, hport, hagain, Option.filter_some, hcond, if_true]
  simp only [State.nextBody, hport, hop, hdata, hserved, hsame, Bool.and_self, if_true, Option.getD_some]

/-- A port as its exchange ends, accepted or not (R428, R429). -/
def Port.ended (ok : Bool) (now : Nat) (driven : Bool) (hsdi : List Bool) (bits : Nat) (p : Port) : Port :=
  { p.shut with rejected := !ok, rej := if ok then p.rej else p.rej + 1, riseAt := some now
                again := if ok then none else if p.content = 1 then some p.body else p.again
                shifted := hsdoBits driven p.resp hsdi bits }

/-- The state before the exchange ends: with the frame taken where it is good (R428). -/
def State.framed (s : State) (hsdi : List Bool) (bits : Nat) : State :=
  if s.frameOk bits (s.hsReq hsdi bits) then s.takeFrame (s.hsReq hsdi bits) else s

theorem doHselRise_eq (hopen : s.hs.isOpen = true) :
    doHselRise dt edges hsdi s =
      (((s.advance dt).framed hsdi (s.hsdiBits edges)).onHost 4 (Port.ended (s.frameOk (s.hsdiBits edges)
        (s.hsReq hsdi (s.hsdiBits edges))) ((s.advance dt).framed hsdi (s.hsdiBits edges)).now
        ((s.advance dt).framed hsdi (s.hsdiBits edges)).hsDriven hsdi (s.hsdiBits edges))).portRest 4 := by
  have hopen' : (s.advance dt).hs.isOpen = true := hopen
  rw [doHselRise, if_pos hopen']
  rfl

theorem State.takeFrame_hs (s : State) (req : List Word) :
    (s.takeFrame req).hs =
      { s.hs with result := (s.takeFrame req).hs.result, nextOp := (s.takeFrame req).hs.nextOp,
                  asmWords := (s.takeFrame req).hs.asmWords, asmNext := (s.takeFrame req).hs.asmNext,
                  asmN := (s.takeFrame req).hs.asmN, asmAt := (s.takeFrame req).hs.asmAt,
                  outFrag := (s.takeFrame req).hs.outFrag, outMsg := (s.takeFrame req).hs.outMsg,
                  bufLines := (s.takeFrame req).hs.bufLines } := by
  have hdel : (s.takeResponse 4 s.hs.lines).hs = { s.hs with
      outFrag := (s.takeResponse 4 s.hs.lines).hs.outFrag, outMsg := (s.takeResponse 4 s.hs.lines).hs.outMsg
      bufLines := (s.takeResponse 4 s.hs.lines).hs.bufLines } := s.takeResponse_port 4 s.hs.lines
  have hlat : (s.takeResponse 4 s.hs.lines).hs.latches ((s.takeResponse 4 s.hs.lines).latch 4 req).hs :=
    ((s.takeResponse 4 s.hs.lines).latch_requests 4 req).1
  unfold State.takeFrame
  dsimp only
  split
  · rw [hdel]
  · rw [hlat, hdel]

theorem State.takeFrame_tw (s : State) (req : List Word) : (s.takeFrame req).tw = s.tw := by
  have hother := s.takeResponse_keepsOther 4 s.hs.lines
  unfold State.takeFrame
  dsimp only
  split
  · exact hother.1 rfl
  · exact ((hother.trans ((s.takeResponse 4 s.hs.lines).latch_requests 4 req).2).1 rfl)

theorem doHselRise_frame (dt edges : Nat) (hsdi : List Bool) (s : State) :
    OnlyWrites [.time, .cw, .hs, .clients] s (doHselRise dt edges hsdi s) := by
  have hall : OnlyWrites [.tw, .time, .cw, .hs, .clients] s (doHselRise dt edges hsdi s) :=
    ⟨by simp, fun p hp => by cases p <;> simp_all [Part.same]⟩
  refine hall.drop ?_
  unfold doHselRise
  dsimp only
  split
  · have hrest (t : State) (f : Port → Port) : ((t.onHost 4 f).portRest 4).tw = t.tw := (State.portRest_keepsOther _ 4).1 rfl
    refine (hrest _ _).trans ?_
    split
    · exact State.takeFrame_tw _ _
    · rfl
  · rfl

theorem State.framed_hs (s : State) (hsdi : List Bool) (bits : Nat) :
    (s.framed hsdi bits).hs.rej = s.hs.rej ∧ (s.framed hsdi bits).hs.resp = s.hs.resp := by
  unfold State.framed
  split
  · exact ⟨by rw [State.takeFrame_hs], by rw [State.takeFrame_hs]⟩
  · exact ⟨rfl, rfl⟩

/-- The port once its exchange has ended: what a rest in Layby keeps, and all of it outside Layby (R428, R442). -/
theorem doHselRise_port (hopen : s.hs.isOpen = true) :
    (doHselRise dt edges hsdi s).hs.isOpen = false ∧
    (doHselRise dt edges hsdi s).hs.rejected = !s.frameOk (s.hsdiBits edges) (s.hsReq hsdi (s.hsdiBits edges)) ∧
    (doHselRise dt edges hsdi s).hs.rej =
      (if s.frameOk (s.hsdiBits edges) (s.hsReq hsdi (s.hsdiBits edges)) then s.hs.rej else s.hs.rej + 1) ∧
    (doHselRise dt edges hsdi s).hs.result = ((s.advance dt).framed hsdi (s.hsdiBits edges)).hs.result ∧
    (doHselRise dt edges hsdi s).hs.shifted = hsdoBits s.hsDriven s.hs.resp hsdi (s.hsdiBits edges) ∧
    (s.frameOk (s.hsdiBits edges) (s.hsReq hsdi (s.hsdiBits edges)) = true → (doHselRise dt edges hsdi s).hs.again = none) ∧
    (s.inMode .layby = false → (doHselRise dt edges hsdi s).hs = Port.ended (s.frameOk (s.hsdiBits edges)
      (s.hsReq hsdi (s.hsdiBits edges))) (s.now + dt) s.hsDriven hsdi (s.hsdiBits edges)
        ((s.advance dt).framed hsdi (s.hsdiBits edges)).hs) := by
  have hstep := doHselRise_eq (dt := dt) (edges := edges) (hsdi := hsdi) hopen
  have hkeeps : ((s.advance dt).framed hsdi (s.hsdiBits edges)).now = s.now + dt ∧
      ((s.advance dt).framed hsdi (s.hsdiBits edges)).straps = s.straps ∧
      ((s.advance dt).framed hsdi (s.hsdiBits edges)).power = s.power := by
    unfold State.framed
    split
    · simp only [State.now, State.takeFrame_keeps]
      exact ⟨s.advance_now dt, rfl, rfl⟩
    · exact ⟨s.advance_now dt, rfl, rfl⟩
  obtain ⟨hnow, hstraps, hpower⟩ := hkeeps
  obtain ⟨hrej, hresp⟩ := (s.advance dt).framed_hs hsdi (s.hsdiBits edges)
  rw [hnow, State.hsDriven_of hstraps] at hstep
  generalize (s.advance dt).framed hsdi (s.hsdiBits edges) = f at hstep hpower hrej hresp ⊢
  generalize s.frameOk (s.hsdiBits edges) (s.hsReq hsdi (s.hsdiBits edges)) = ok at hstep ⊢
  have hport : (f.onHost 4 (Port.ended ok (s.now + dt) s.hsDriven hsdi (s.hsdiBits edges))).hostPort 4 =
      Port.ended ok (s.now + dt) s.hsDriven hsdi (s.hsdiBits edges) f.hs := State.onHost_same f 4 _
  have hrest {P : Port → Prop} (hp : P (Port.ended ok (s.now + dt) s.hsDriven hsdi (s.hsdiBits edges) f.hs))
      (hoff : P (Port.ended ok (s.now + dt) s.hsDriven hsdi (s.hsdiBits edges) f.hs).off) : P (doHselRise dt edges hsdi s).hs := by
    rw [hstep]
    exact State.portRest_port (c := 4) (P := P) (by rw [hport]; exact hp) (by rw [hport]; exact hoff)
  have hoff := Port.off_of_shut (p := Port.ended ok (s.now + dt) s.hsDriven hsdi (s.hsdiBits edges) f.hs) rfl
  refine ⟨hrest (P := fun p => p.isOpen = false) rfl (by rw [hoff]; rfl), hrest (P := fun p => p.rejected = !ok) rfl (by rw [hoff]; rfl),
    hrest (P := fun p => p.rej = if ok then s.hs.rej else s.hs.rej + 1) ?_ ?_,
    hrest (P := fun p => p.result = f.hs.result) rfl (by rw [hoff]; rfl),
    hrest (P := fun p => p.shifted = hsdoBits s.hsDriven s.hs.resp hsdi (s.hsdiBits edges)) ?_ ?_,
    fun hok => hrest (P := fun p => p.again = none) ?_ (by rw [hoff]), fun hmode => ?_⟩
  · exact congrArg (fun r : BitVec 8 => if ok then r else r + 1) hrej
  · rw [Port.off_rej]
    exact congrArg (fun r : BitVec 8 => if ok then r else r + 1) hrej
  · exact congrArg (fun r => hsdoBits s.hsDriven r hsdi (s.hsdiBits edges)) hresp
  · rw [Port.off_shifted]
    exact congrArg (fun r => hsdoBits s.hsDriven r hsdi (s.hsdiBits edges)) hresp
  · exact if_pos hok
  · have hmode' : (f.onHost 4 (Port.ended ok (s.now + dt) s.hsDriven hsdi (s.hsdiBits edges))).inMode .layby = false := by
      have hp : (f.onHost 4 (Port.ended ok (s.now + dt) s.hsDriven hsdi (s.hsdiBits edges))).power = s.power := hpower
      simpa only [State.inMode, hp] using hmode
    rw [hstep, State.portRest_awake 4 hmode']
    rfl

theorem doHselRise_driven (hopen : s.hs.isOpen = true) :
    (doHselRise dt edges hsdi s).hsdoDriven = (s.portOn 4 && s.hsDriven) := by
  obtain ⟨hshut, -⟩ := doHselRise_port (dt := dt) (edges := edges) (hsdi := hsdi) hopen
  obtain ⟨-, hparts⟩ := doHselRise_frame dt edges hsdi s
  rw [State.hsdoDriven, hshut, State.portOn_of (hparts .power (by simp)) (hparts .straps (by simp)) (hparts .port (by simp)),
    State.hsDriven_of (hparts .straps (by simp)), Bool.false_or]

theorem onlyWrites_portRest4 (s : State) : OnlyWrites [.hs] s (s.portRest 4) := by
  rcases s.portRest_cases 4 with hsame | hoff
  · rw [hsame]
    exact OnlyWrites.refl _ s
  · rw [hoff]
    exact onlyWrites_onHost4 s _

theorem State.takeFrame_cw (s : State) (req : List Word) : (s.takeFrame req).cw = (s.takeResponse 4 s.hs.lines).cw := by
  unfold State.takeFrame
  dsimp only
  split
  · rfl
  · simp

/-- In Layby the lines of the response are delivered and nothing latches (R442). -/
theorem State.takeFrame_layby {req : List Word} (h : s.inMode .layby = true) : s.takeFrame req = s.takeResponse 4 s.hs.lines := by
  have hmode : (s.takeResponse 4 s.hs.lines).inMode .layby = true := by
    simpa only [State.inMode, State.takeResponse_keeps] using h
  simp only [State.takeFrame, hmode, if_true]

theorem State.takeResponse_data {c k : Nat} (h : (s.hostPort c).content = 1) (hc : c < s.cw.readers.length) :
    nth (s.takeResponse c k).cw.readers c = (nth s.cw.readers c).delivers c s.mark (s.hostPort c) k := by
  simp only [State.takeResponse, h, if_true]
  have hcw (t : State) (f : Port → Port) : (t.onHost c f).cw = t.cw := by simp
  rw [hcw]
  exact nth_modify_same hc _

theorem Reader.delivers_here {rd : Reader} {r mark k : Nat} {p : Port} (h : rd.next = p.from_) :
    rd.delivers r mark p k = rd.takeLines r mark p.took k := by
  simp only [Reader.delivers, h, if_true]

theorem State.takeResponse_clients (s : State) (dt c k : Nat) :
    ((s.advance dt).takeResponse c k).clients = (s.takeResponse c k).clients := by
  have hclients (t : State) (f : Port → Port) : (t.onHost c f).clients = t.clients := by simp
  have hport : (s.advance dt).hostPort c = s.hostPort c := rfl
  unfold State.takeResponse
  simp only [hport, advance_clients]
  split
  · rw [hclients, hclients]
  · split
    · split
      · rw [hclients, hclients]
        split <;> rfl
      · rw [hclients, hclients]
        rfl
    · rfl

end

/-- The bits of a byte, most significant first (R427). -/
def byteBits (b : Byte) : List Bool := (List.range 8).map fun i => b.getLsbD (7 - i)

theorem getElem?_byteBits (b : Byte) (j : Fin 8) : (byteBits b)[j.val]? = some (b.getLsbD (7 - j.val)) := by
  rw [byteBits, List.getElem?_map, List.getElem?_range j.isLt, Option.map_some]

/-- Bit m of a word's k-th byte is bit 8 k + m of the word. -/
theorem getLsbD_byte (w : Word) (k m : Nat) (hm : m < 8) :
    (BitVec.ofNat 8 (w.toNat / 2 ^ (8 * k))).getLsbD m = w.getLsbD (8 * k + m) := by
  simp only [BitVec.getLsbD_ofNat, hm, decide_true, Bool.true_and, Nat.testBit_div_two_pow, BitVec.testBit_toNat]
  congr 1
  omega

theorem serialBits_word (w : Word) (i : Fin 4) (j : Fin 8) :
    (serialBits [w])[8 * i.val + j.val]? = some (w.getLsbD (8 * i.val + 7 - j.val)) := by
  have hbits : serialBits [w] = byteBits (BitVec.ofNat 8 (w.toNat / 2 ^ (8 * 0))) ++ (byteBits (BitVec.ofNat 8 (w.toNat / 2 ^ (8 * 1))) ++
      (byteBits (BitVec.ofNat 8 (w.toNat / 2 ^ (8 * 2))) ++ byteBits (BitVec.ofNat 8 (w.toNat / 2 ^ (8 * 3))))) := by
    simp [serialBits, bytesOfWords, bytesOf, byteBits]
  have hlen (b : Byte) : (byteBits b).length = 8 := by simp [byteBits]
  have hbyte (k : Nat) : (byteBits (BitVec.ofNat 8 (w.toNat / 2 ^ (8 * k))))[j.val]? = some (w.getLsbD (8 * k + 7 - j.val)) := by
    rw [getElem?_byteBits, getLsbD_byte w k _ (by omega)]
    congr 2
    omega
  have hskip (b : Byte) (rest : List Bool) (n : Nat) : (byteBits b ++ rest)[8 + n]? = rest[n]? := by
    rw [List.getElem?_append_right (by rw [hlen]; omega), hlen, Nat.add_sub_cancel_left]
  have hfirst (b : Byte) (rest : List Bool) : (byteBits b ++ rest)[j.val]? = (byteBits b)[j.val]? :=
    List.getElem?_append_left (by rw [hlen]; exact j.isLt)
  rw [hbits]
  match i with
  | 0 => rw [show 8 * (0 : Fin 4).val + j.val = j.val by simp, hfirst, hbyte]; rfl
  | 1 => rw [show 8 * (1 : Fin 4).val + j.val = 8 + j.val by rfl, hskip, hfirst, hbyte]; rfl
  | 2 => rw [show 8 * (2 : Fin 4).val + j.val = 8 + (8 + j.val) by
      change 16 + j.val = 8 + (8 + j.val)
      omega, hskip, hskip, hfirst, hbyte]; rfl
  | 3 => rw [show 8 * (3 : Fin 4).val + j.val = 8 + (8 + (8 + j.val)) by
      change 24 + j.val = 8 + (8 + (8 + j.val))
      omega, hskip, hskip, hskip, hbyte]; rfl

/-- Settles O53: an exchange begins with one response and ends in one of two ways, each an equation for its port. -/
theorem clockedSerialPort : Obligations.ClockedSerialPort := by
  unfold Obligations.ClockedSerialPort
  refine ⟨serialBits_word, fun dt fs s hon hshut hagain => ⟨_, rfl, ?_⟩,
    fun dt s b hon hshut hagain hdata hserved hop hfrom hbefore => ⟨_, rfl, ?_⟩,
    fun dt edges hsdi s hopen hok => ⟨_, rfl, ?_⟩, fun dt edges hsdi s hopen hbad => ⟨_, rfl, ?_⟩⟩
  · have hframe := doHselFall_frame (dt := dt) (fs := fs) hon hshut
    have hnil (h : fs = []) : OnlyWrites [.time, .spill, .hs] s (doHselFall dt fs s) := by
      rw [h]
      exact doHselFall_nil hon hshut
    obtain ⟨hhs, -, -, -, -⟩ := (s.advance dt).readFor_keeps 4 fs
    have hport : (doHselFall dt fs s).hs =
        { (((s.advance dt).readFor 4 fs).buildResponse 4 ((s.frameWords - 4) / 4)).hostPort 4 with
          tooSoon := ((s.advance dt).readFor 4 fs).fallsSoon
          resp := padTo s.frameWords ((((s.advance dt).readFor 4 fs).buildResponse 4 ((s.frameWords - 4) / 4)).hostPort 4).resp } := by
      rw [doHselFall_eq hon hshut]
      rfl
    have hlines := State.nextBody_lines (s := (s.advance dt).readFor 4 fs) (by rw [hhs]; exact hagain)
    rw [State.readFor_frameWords] at hlines
    change (doHselFall dt fs s).hs.isOpen = true ∧ (doHselFall dt fs s).hs.rseq = _ ∧ (doHselFall dt fs s).hs.lines ≤ _ ∧
      ((doHselFall dt fs s).hs.isOpen || _) = true ∧ (doHselFall dt fs s).hs.tooSoon = _ ∧ _
    rw [hport, State.buildResponse_port]
    refine ⟨rfl, ?_, hlines, rfl, State.readFor_fallsSoon s dt 4 fs, hnil, hframe⟩
    change ((s.advance dt).readFor 4 fs).hs.rseq + 1 = _
    rw [hhs]
    rfl
  · have hread := (s.advance dt).readFor_nil 4
    have hsame (p : Part) (hp : p ∉ [Part.spill]) : p.same (s.advance dt) ((s.advance dt).readFor 4 []) := hread.2 p hp
    have hhs : ((s.advance dt).readFor 4 []).hs = s.hs := hsame .hs (by simp)
    have hcw : ((s.advance dt).readFor 4 []).cw = s.cw := hsame .cw (by simp)
    have hbody : ((s.advance dt).readFor 4 []).nextBody 4 ((s.frameWords - 4) / 4) = b := by
      refine State.nextBody_again (by rw [hhs]; exact hagain) ?_ ?_ (by rw [hhs]; exact hop) (by rw [hhs, hcw]; exact hfrom)
        (by rw [hcw]; exact hbefore)
      · rw [State.dataServed_of (s := s.advance dt) (hsame .power (by simp))]
        exact hdata
      · rw [State.portServed_of (hsame .power (by simp)) (hsame .straps (by simp)) (hsame .port (by simp)) (hsame .time (by simp))
          (hsame .fuses (by simp))]
        exact hserved
    have hport : (doHselFall dt [] s).hs =
        { (((s.advance dt).readFor 4 []).buildResponse 4 ((s.frameWords - 4) / 4)).hostPort 4 with
          tooSoon := ((s.advance dt).readFor 4 []).fallsSoon
          resp := padTo s.frameWords ((((s.advance dt).readFor 4 []).buildResponse 4 ((s.frameWords - 4) / 4)).hostPort 4).resp } := by
      rw [doHselFall_eq hon hshut]
      rfl
    change (doHselFall dt [] s).hs.body = b ∧ (doHselFall dt [] s).hs.lines = _ ∧ _
    rw [hport, State.buildResponse_port, hbody]
    exact ⟨rfl, rfl, doHselFall_nil hon hshut⟩
  · obtain ⟨hshut, hrejected, hrej, hresult, hshifted, hagain, hport⟩ := doHselRise_port (dt := dt) (edges := edges) (hsdi := hsdi) hopen
    have htaken : (s.advance dt).framed hsdi (s.hsdiBits edges) = (s.advance dt).takeFrame (s.hsReq hsdi (s.hsdiBits edges)) :=
      if_pos hok
    have hrest (t : State) (f : Port → Port) : ((t.onHost 4 f).portRest 4).clients = t.clients ∧ ((t.onHost 4 f).portRest 4).cw = t.cw :=
      ⟨by simp, by simp⟩
    rw [hok] at hrejected hrej
    rw [htaken] at hresult
    refine ⟨hshut, hrejected, hrej, hagain hok, fun hmode => ?_, fun hmode => ⟨hresult.trans ?_, ?_⟩, hshifted,
      doHselRise_driven hopen, fun hdata hlen hfrom => ?_, doHselRise_frame dt edges hsdi s⟩
    · rw [hport hmode]
      rfl
    · rw [State.takeFrame_layby (s := s.advance dt) hmode]
      have hdel : (s.advance dt).hs.delivers ((s.advance dt).takeResponse 4 s.hs.lines).hs :=
        (s.advance dt).takeResponse_port 4 s.hs.lines
      rw [advance_hs, hdel]
      rfl
    · rw [doHselRise_eq hopen, (hrest _ _).1, htaken, State.takeFrame_layby (s := s.advance dt) hmode]
      exact State.takeResponse_clients s dt 4 _
    · rw [doHselRise_eq hopen, (hrest _ _).2, htaken, State.takeFrame_cw,
        State.takeResponse_data (s := s.advance dt) (c := 4) hdata hlen, State.advance_mark]
      exact Reader.delivers_here hfrom
  · obtain ⟨hshut, hrejected, hrej, hresult, hshifted, -, hport⟩ := doHselRise_port (dt := dt) (edges := edges) (hsdi := hsdi) hopen
    have hleft : (s.advance dt).framed hsdi (s.hsdiBits edges) = s.advance dt := by
      refine if_neg ?_
      rw [Bool.not_eq_true]
      exact hbad
    rw [hbad] at hrejected hrej
    rw [hleft] at hresult
    refine ⟨hshut, hrejected, hrej, hresult, fun hmode => ?_, hshifted, doHselRise_driven hopen, ?_⟩
    · rw [hport hmode, hleft, hbad]
      exact ⟨rfl, rfl, rfl⟩
    · have hall := doHselRise_eq (dt := dt) (edges := edges) (hsdi := hsdi) hopen
      rw [hleft] at hall
      change OnlyWrites [.time, .hs] s (doHselRise dt edges hsdi s)
      rw [hall]
      exact ((onlyWrites_advance s dt).trans (onlyWrites_onHost4 _ _)).trans (onlyWrites_portRest4 _)|>.mono (by simp)

end Sys2Proof.Machine
end

section
/-! PROOFS. The two-wire port and attention calls (16_host_serial.md R433–R441). -/

namespace Sys2Proof.Machine

/-! ### A transaction that ends (R435, R443) -/

@[simp] theorem State.twEnded_portOn (s : State) (c : Nat) : s.twEnded.portOn c = s.portOn c := rfl

theorem State.rest5_keeps (s : State) (f : Port → Port) :
    OnlyWrites [.tw] s ((s.onHost 5 f).portRest 5) := by
  rcases (s.onHost 5 f).portRest_cases 5 with hsame | hoff
  · rw [hsame]
    exact onlyWrites_onHost5 s f
  · rw [hoff]
    exact ((onlyWrites_onHost5 s f).trans (onlyWrites_onHost5 _ _)).mono (by simp)

theorem onlyWrites_twEnded (s : State) : OnlyWrites [.power] s s.twEnded :=
  ⟨rfl, fun p hp => by cases p <;> simp_all [Part.same, State.twEnded]⟩

theorem onlyWrites_discardTw (s : State) : OnlyWrites [.power, .tw] s s.discardTw :=
  ((State.rest5_keeps s _).trans (onlyWrites_twEnded _)).mono (by simp)

theorem State.discardTw_portOn (s : State) (c : Nat) : s.discardTw.portOn c = s.portOn c := by
  obtain ⟨-, hparts⟩ := State.rest5_keeps s fun p => { p.shut with rejected := true }
  rw [State.discardTw, State.twEnded_portOn,
    State.portOn_of (hparts .power (by simp)) (hparts .straps (by simp)) (hparts .port (by simp))]

theorem State.discardTw_twMine (s : State) (addr : BitVec 7) : s.discardTw.twMine addr = s.twMine addr := by
  have hstraps : s.discardTw.straps = s.straps := (onlyWrites_discardTw s).2 .straps (by simp)
  rw [State.twMine, State.twMine, State.discardTw_portOn]
  simp only [State.twAddr, State.strap, hstraps]

/-- What a port keeps as its exchange ends and it comes to rest, whatever the end. -/
theorem State.rest5_port {s : State} {f : Port → Port} {P : Port → Prop} (hp : P (f s.tw)) (hoff : P (f s.tw).off) :
    P ((s.onHost 5 f).portRest 5).twEnded.tw := by
  have hport : (s.onHost 5 f).hostPort 5 = f s.tw := State.onHost_same s 5 f
  exact State.portRest_port (s := s.onHost 5 f) (c := 5) (P := P) (by rw [hport]; exact hp) (by rw [hport]; exact hoff)

section
variable (s : State)

theorem State.discardTw_isOpen : s.discardTw.tw.isOpen = false := by
  refine State.rest5_port (P := fun p => p.isOpen = false) rfl ?_
  rw [Port.off_of_shut rfl]
  rfl

theorem State.discardTw_rejected : s.discardTw.tw.rejected = true :=
  State.rest5_port (P := fun p => p.rejected = true) rfl (by rw [Port.off_rejected])

theorem State.discardTw_result : s.discardTw.tw.result = s.tw.result :=
  State.rest5_port (P := fun p => p.result = s.tw.result) rfl (by rw [Port.off_result]; rfl)

theorem State.discardTw_rseq : s.discardTw.tw.rseq = s.tw.rseq :=
  State.rest5_port (P := fun p => p.rseq = s.tw.rseq) rfl (by rw [Port.off_rseq]; rfl)

theorem State.discardTw_tout : s.discardTw.tw.tout = s.tw.tout :=
  State.rest5_port (P := fun p => p.tout = s.tw.tout) rfl (by rw [Port.off_tout]; rfl)

theorem State.discardTw_nextOp (h : s.inMode .layby = false) : s.discardTw.tw.nextOp = s.tw.nextOp := by
  have hmode : (s.onHost 5 fun p => { p.shut with rejected := true }).inMode .layby = false := h
  rw [State.discardTw, State.portRest_awake 5 hmode]
  rfl

end

/-! ### Reads (R433, R434) -/

section
variable {s u : State} {dt n : Nat} {addr : BitVec 7} {e : TwEnd} {fs : List LineFinding}

theorem doTwRead_eq (hstart : (s.advance dt).twStart = u) (hmine : u.twMine addr = true) (hshut : u.tw.isOpen = false) :
    doTwRead dt addr n e fs s =
      ((u.readFor 5 fs).buildResponse 5 255).onHost 5 fun p => { p with bytesRead := n, ending := e, stretch := true } := by
  have hcond : (u.twMine addr && !u.tw.isOpen) = true := by rw [hmine, hshut]; rfl
  rw [doTwRead, hstart]
  exact if_pos hcond

/-- A read that the hub answers: its response, its length and its end. -/
theorem doTwRead_port (hstart : (s.advance dt).twStart = u) (hmine : u.twMine addr = true) (hshut : u.tw.isOpen = false) :
    (doTwRead dt addr n e fs s).tw.isOpen = true ∧ (doTwRead dt addr n e fs s).tw.stretch = true ∧
    (doTwRead dt addr n e fs s).tw.rseq = u.tw.rseq + 1 ∧ (doTwRead dt addr n e fs s).tw.bytesRead = n ∧
    (doTwRead dt addr n e fs s).tw.ending = e ∧ (doTwRead dt addr n e fs s).tw.rejected = u.tw.rejected := by
  obtain ⟨-, htw, -, -, -⟩ := u.readFor_keeps 5 fs
  have hport : (doTwRead dt addr n e fs s).tw =
      { ((u.readFor 5 fs).buildResponse 5 255).hostPort 5 with bytesRead := n, ending := e, stretch := true } := by
    rw [doTwRead_eq hstart hmine hshut]
    rfl
  rw [hport, State.buildResponse_port]
  refine ⟨rfl, rfl, ?_, rfl, rfl, ?_⟩
  · change (u.readFor 5 fs).tw.rseq + 1 = u.tw.rseq + 1
    rw [htw]
  · change (u.readFor 5 fs).tw.rejected = u.tw.rejected
    rw [htw]

theorem State.readFor_frame (u : State) (c : Nat) (fs : List LineFinding) :
    OnlyWrites [.free, .cw, .spill, .way, .age] u (u.readFor c fs) := by
  unfold State.readFor
  split
  · exact ⟨by simp, fun p hp => by cases p <;> simp_all [Part.same]⟩
  · exact OnlyWrites.refl _ u

theorem onlyWrites_readResponse (u : State) (fs : List LineFinding) (f : Port → Port) :
    OnlyWrites [.free, .cw, .spill, .way, .tw, .age] u (((u.readFor 5 fs).buildResponse 5 255).onHost 5 f) := by
  have hbuilt : OnlyWrites [.tw] (u.readFor 5 fs) ((u.readFor 5 fs).buildResponse 5 255) := onlyWrites_onHost5 _ _
  exact (((State.readFor_frame u 5 fs).trans hbuilt).trans (onlyWrites_onHost5 _ _)).mono (by simp)

/-- A read that finds nothing writes its port and the spill port. -/
theorem onlyWrites_readResponse_nil (u : State) (f : Port → Port) :
    OnlyWrites [.spill, .tw] u (((u.readFor 5 []).buildResponse 5 255).onHost 5 f) := by
  have hbuilt : OnlyWrites [.tw] (u.readFor 5 []) ((u.readFor 5 []).buildResponse 5 255) := onlyWrites_onHost5 _ _
  exact (((State.readFor_nil u 5).trans hbuilt).trans (onlyWrites_onHost5 _ _)).mono (by simp)

theorem twStart_shut (h : s.tw.isOpen = false) : (s.advance dt).twStart = s.advance dt := by
  simp [State.twStart, h]

theorem twStart_open (hopen : s.tw.isOpen = true) (hfree : s.tw.stretch = false) :
    (s.advance dt).twStart = (s.advance dt).discardTw := by
  simp [State.twStart, hopen, hfree]

/-! ### The end of a read (R434, R435) -/

theorem State.takeResponse_tw (s : State) (k : Nat) :
    (s.takeResponse 5 k).tw = { s.tw with
      outFrag := (s.takeResponse 5 k).tw.outFrag, outMsg := (s.takeResponse 5 k).tw.outMsg
      bufLines := (s.takeResponse 5 k).tw.bufLines } := s.takeResponse_port 5 k

theorem onlyWrites_takeResponse5 (s : State) (k : Nat) : OnlyWrites [.cw, .tw, .clients] s (s.takeResponse 5 k) := by
  have hall : OnlyWrites [.hs, .cw, .tw, .clients] s (s.takeResponse 5 k) :=
    ⟨by simp, fun p hp => by cases p <;> simp_all [Part.same]⟩
  exact hall.drop ((s.takeResponse_keepsOther 5 k).2 (by decide))

/-- Whole lines of a read, the header line left out (R434). -/
def Port.wholeLines (p : Port) : Nat := min p.lines ((p.bytesRead - 16) / 16)

/-- The port of a read that ended normally: its command is spent unless a message goes on (R425). -/
def Port.readEnded (spent : Bool) (p : Port) : Port :=
  { p.shut with rejected := false, nextOp := if spent then 0 else p.nextOp }

theorem State.finishRead_eq (s : State) : ∃ spent, s.finishRead =
    (((s.takeResponse 5 s.tw.wholeLines).onHost 5 (Port.readEnded spent)).portRest 5).twEnded := ⟨_, rfl⟩

theorem State.finishRead_port (s : State) :
    s.finishRead.tw.isOpen = false ∧ s.finishRead.tw.rejected = false ∧ s.finishRead.tw.stretch = false := by
  obtain ⟨spent, heq⟩ := s.finishRead_eq
  rw [heq]
  refine State.rest5_port (P := fun p => p.isOpen = false ∧ p.rejected = false ∧ p.stretch = false) ⟨rfl, rfl, rfl⟩ ?_
  rw [Port.off_of_shut rfl]
  exact ⟨rfl, rfl, rfl⟩

theorem State.finishRead_cw (s : State) : s.finishRead.cw = (s.takeResponse 5 s.tw.wholeLines).cw := by
  obtain ⟨spent, heq⟩ := s.finishRead_eq
  have hrest : ((((s.takeResponse 5 s.tw.wholeLines).onHost 5 (Port.readEnded spent)).portRest 5)).cw =
      (s.takeResponse 5 s.tw.wholeLines).cw := by simp
  rw [heq]
  exact hrest

theorem onlyWrites_finishRead (s : State) : OnlyWrites [.power, .cw, .tw, .clients] s s.finishRead := by
  obtain ⟨spent, heq⟩ := s.finishRead_eq
  rw [heq]
  exact (((onlyWrites_takeResponse5 s _).trans (State.rest5_keeps _ _)).trans (onlyWrites_twEnded _)).mono (by simp)

theorem doTwStretchEnd_ends (hopen : s.tw.isOpen = true) (hheld : s.tw.stretch = true)
    (hend : s.tw.ending = .stop ∨ s.tw.ending = .repeatedStart) : doTwStretchEnd dt s = (s.advance dt).finishRead := by
  rcases hend with hstop | hrep
  · simp [doTwStretchEnd, hopen, hheld, hstop]
  · simp [doTwStretchEnd, hopen, hheld, hrep]

theorem doTwStretchEnd_recovery (hopen : s.tw.isOpen = true) (hheld : s.tw.stretch = true) (hend : s.tw.ending = .recovery) :
    doTwStretchEnd dt s = (s.advance dt).discardTw := by
  simp [doTwStretchEnd, hopen, hheld, hend]

theorem doTwStretchEnd_open (hopen : s.tw.isOpen = true) (hheld : s.tw.stretch = true)
    (hend : s.tw.ending = .brokenAck ∨ ∃ i, s.tw.ending = .unfinished i) :
    doTwStretchEnd dt s = (s.advance dt).onHost 5 fun p => { p with stretch := false } := by
  rcases hend with hack | ⟨i, hbit⟩
  · simp [doTwStretchEnd, hopen, hheld, hack]
  · simp [doTwStretchEnd, hopen, hheld, hbit]

/-! ### Writes (R433, R435) -/

theorem doTwWrite_good {bytes : List Byte} (hmine : s.twMine addr = true) (hshut : s.tw.isOpen = false)
    (hend : e = .stop ∨ e = .repeatedStart) (hsome : bytes ≠ []) (hok : writeOk bytes = true) :
    doTwWrite dt addr bytes e s = ((s.advance dt).latch 5 (wordsOf bytes)).twEnded := by
  have hmine' : (s.advance dt).twMine addr = true := hmine
  have hend' : (e == .stop || e == .repeatedStart) = true := by
    rcases hend with hstop | hrep
    · rw [hstop]; rfl
    · rw [hrep]; rfl
  simp [doTwWrite, twStart_shut hshut, hmine', hshut, hend', hsome, hok]

theorem doTwWrite_bad {bytes : List Byte} (hmine : s.twMine addr = true) (hshut : s.tw.isOpen = false)
    (hend : e = .stop ∨ e = .repeatedStart) (hsome : bytes ≠ []) (hbad : writeOk bytes = false) :
    doTwWrite dt addr bytes e s = (s.advance dt).discardTw := by
  have hmine' : (s.advance dt).twMine addr = true := hmine
  have hend' : (e == .stop || e == .repeatedStart) = true := by
    rcases hend with hstop | hrep
    · rw [hstop]; rfl
    · rw [hrep]; rfl
  simp [doTwWrite, twStart_shut hshut, hmine', hshut, hend', hsome, hbad]

theorem onlyWrites_latch5 (s : State) (req : List Word) : OnlyWrites [.tw, .clients] s (s.latch 5 req) := by
  have hall : OnlyWrites [.hs, .tw, .clients] s (s.latch 5 req) :=
    ⟨by simp, fun p hp => by cases p <;> simp_all [Part.same]⟩
  exact hall.drop ((s.latch_requests 5 req).2.2 (by decide))

theorem State.latch_nothing {c : Nat} {req : List Word} (h : fld (nth req 0) 27 24 = 3) :
    s.latch c req = s.onHost c fun p => { p with nextOp := 2, result := 1 } := by
  simp only [State.latch, h]

end

theorem doFragmentTimeout_late {s : State} {dt c : Nat} (hpart : (s.hostPort c).asmN ≠ 0)
    (hlate : (s.hostPort c).asmAt + secPs 1 ≤ s.now + dt) :
    doFragmentTimeout dt c s = (s.advance dt).onHost c fun p => { p.dropPart with result := 3 } := by
  have hport : (s.advance dt).hostPort c = s.hostPort c := rfl
  have hcond : ((s.advance dt).hostPort c).asmN ≠ 0 ∧ ((s.advance dt).hostPort c).asmAt + secPs 1 ≤ (s.advance dt).now := by
    rw [hport, State.advance_now]
    exact ⟨hpart, hlate⟩
  exact if_pos hcond

/-- Settles O54: each end of a transaction is one of three changes of the port, stated once. -/
theorem twoWirePort : Obligations.TwoWirePort := by
  unfold Obligations.TwoWirePort
  refine ⟨fun dt addr n e fs s hmine hshut => ⟨_, rfl, ?_⟩, fun dt s hopen hheld hend => ⟨_, rfl, ?_⟩,
    fun dt s hopen hheld hend => ⟨_, rfl, ?_⟩, fun dt s hopen hheld hend => ⟨_, rfl, ?_⟩,
    fun dt addr n e s hmine hopen hfree => ⟨_, rfl, ?_⟩, fun dt addr bytes e s hmine hshut hend hsome => ⟨_, rfl, ?_⟩,
    fun s hopen hfree => ⟨_, rfl, ?_⟩, fun dt s hopen => ⟨_, rfl, ?_⟩, fun dt c s hpart hlate => ⟨_, rfl, ?_⟩⟩
  · have hstart := twStart_shut (dt := dt) hshut
    obtain ⟨hopen, hheld, hrseq, hread, hend, -⟩ := doTwRead_port (n := n) (e := e) (fs := fs) hstart hmine hshut
    have heq := doTwRead_eq (n := n) (e := e) (fs := fs) hstart hmine hshut
    refine ⟨hopen, hheld, hrseq, hread, hend, fun hnil => ?_, ?_⟩
    · rw [heq, hnil]
      exact ((onlyWrites_advance s dt).trans (onlyWrites_readResponse_nil _ _)).mono (by simp)
    · rw [heq]
      exact ((onlyWrites_advance s dt).trans (onlyWrites_readResponse _ fs _)).mono (by simp)
  · rw [doTwStretchEnd_ends hopen hheld hend]
    obtain ⟨hshut, hrejected, hfree⟩ := (s.advance dt).finishRead_port
    refine ⟨hshut, hrejected, hfree, fun hdata hlen hfrom => ?_,
      ((onlyWrites_advance s dt).trans (onlyWrites_finishRead _)).mono (by simp)⟩
    rw [State.finishRead_cw, State.takeResponse_data (s := s.advance dt) (c := 5) hdata hlen, State.advance_mark]
    exact Reader.delivers_here hfrom
  · rw [doTwStretchEnd_recovery hopen hheld hend]
    exact ⟨State.discardTw_isOpen _, State.discardTw_rejected _, State.discardTw_result _,
      ((onlyWrites_advance s dt).trans (onlyWrites_discardTw _)).mono (by simp)⟩
  · rw [doTwStretchEnd_open hopen hheld hend]
    exact ⟨rfl, ((onlyWrites_advance s dt).trans (onlyWrites_onHost5 _ _)).mono (by simp)⟩
  · have hstart := twStart_open (dt := dt) hopen hfree
    have hmine' : (s.advance dt).discardTw.twMine addr = true := by
      rw [State.discardTw_twMine]
      exact hmine
    obtain ⟨hopen', hheld, hrseq, -, -, hrejected⟩ :=
      doTwRead_port (n := n) (e := e) (fs := []) hstart hmine' (State.discardTw_isOpen _)
    refine ⟨hopen', hheld, hrejected.trans (State.discardTw_rejected _), hrseq.trans ?_, ?_⟩
    · rw [State.discardTw_rseq]
      rfl
    · rw [doTwRead_eq hstart hmine' (State.discardTw_isOpen _)]
      exact (((onlyWrites_advance s dt).trans (onlyWrites_discardTw _)).trans (onlyWrites_readResponse_nil _ _)).mono (by simp)
  · rcases hok : writeOk bytes with _ | _
    · rw [doTwWrite_bad hmine hshut hend hsome hok]
      have hframe := (onlyWrites_advance s dt).trans (onlyWrites_discardTw (s.advance dt))
      refine ⟨?_, nofun, fun _ => ⟨State.discardTw_result _, hframe.2 .clients (by simp), fun hmode => ?_⟩, hframe.mono (by simp)⟩
      · rw [State.discardTw_rejected]
        simp
      · exact State.discardTw_nextOp (s.advance dt) hmode
    · rw [doTwWrite_good hmine hshut hend hsome hok]
      have hlat : (s.advance dt).tw.latches ((s.advance dt).latch 5 (wordsOf bytes)).tw :=
        ((s.advance dt).latch_requests 5 (wordsOf bytes)).1
      refine ⟨?_, fun _ hop => ?_, nofun,
        (((onlyWrites_advance s dt).trans (onlyWrites_latch5 _ _)).trans (onlyWrites_twEnded _)).mono (by simp)⟩
      · change ((s.advance dt).latch 5 (wordsOf bytes)).tw.rejected = _
        rw [hlat]
        simp
      · rw [State.latch_nothing hop]
        exact ⟨rfl, rfl⟩
  · have heq : doTwRepeatedStart s = s.discardTw := by simp [doTwRepeatedStart, hopen, hfree]
    rw [heq]
    exact ⟨State.discardTw_isOpen _, State.discardTw_rejected _, State.discardTw_result _, onlyWrites_discardTw s⟩
  · have heq : doTwBusTimeout dt s = (s.advance dt).discardTw.onHost 5 fun p => { p with tout := p.tout + 1 } := by
      simp [doTwBusTimeout, hopen]
    rw [heq]
    refine ⟨State.discardTw_isOpen _, State.discardTw_rejected _, ?_,
      (((onlyWrites_advance s dt).trans (onlyWrites_discardTw _)).trans (onlyWrites_onHost5 _ _)).mono (by simp)⟩
    exact congrArg (· + 1) (State.discardTw_tout (s.advance dt))
  · rw [doFragmentTimeout_late hpart hlate]
    match c with
    | 0 => exact ⟨rfl, rfl, ((onlyWrites_advance s dt).trans (onlyWrites_onHost4 _ _)).mono (by simp)⟩
    | 1 => exact ⟨rfl, rfl, ((onlyWrites_advance s dt).trans (onlyWrites_onHost5 _ _)).mono (by simp)⟩

/-! ### Attention calls (R438–R441) -/

/-- A call that is made for the first time: its bytes and the next SEQ (R439). -/
def State.called (s : State) (k : Call) (a : Attn) : State :=
  { s with attn := { a with bytes := callBytes k (s.strap 2) s.attn.seq, seq := (s.attn.seq + 1) % 16 } }

section
variable {s : State} {dt n : Nat} {k : Call} {a : Attn} {im : Image} {out : CallOutcome}

theorem doAttentionCall_eq (hmay : s.mayCall = true) (hidle : s.attn.cur = none) (hpick : s.attn.pick = some (k, a)) :
    doAttentionCall dt out s = ((s.advance dt).called k a).tryCall k 0 out := by
  have hmay' : (s.advance dt).mayCall = true := hmay
  have hpick' : (s.advance dt).attn.pick = some (k, a) := hpick
  have hcond : ((s.advance dt).mayCall && (s.advance dt).attn.cur.isNone) = true := by rw [hmay', advance_attn, hidle]; rfl
  simp only [doAttentionCall, hcond, if_true, hpick']
  rfl

theorem doAttnRetry_eq (hmay : s.mayCall = true) (hcur : s.attn.cur = some (k, n)) (hdue : s.attn.retryAt ≤ s.now + dt) :
    doAttnRetry dt out s = (s.advance dt).tryCall k n out := by
  have hmay' : (s.advance dt).mayCall = true := hmay
  have hcur' : (s.advance dt).attn.cur = some (k, n) := hcur
  have hcond : ((s.advance dt).mayCall && decide ((s.advance dt).attn.retryAt ≤ (s.advance dt).now)) = true := by
    rw [hmay', State.advance_now]
    simp [hdue]
  simp only [doAttnRetry, hcur', hcond, if_true]

theorem State.tryCall_acknowledged (him : s.port.inForce = some im) :
    s.tryCall k n .acknowledged = { s with attn := { s.attn with cur := none, khz := s.attnKhz } } := by
  simp only [State.tryCall, him, beq_self_eq_true, if_true]

theorem State.tryCall_failed (him : s.port.inForce = some im) (hout : out ≠ .acknowledged) :
    s.tryCall k n out =
      if im.clients.attnTries ≤ n + 1 then
        { s with attn := { s.attn with cur := none, khz := s.attnKhz } }.onHost 5 fun p => { p with rej := p.rej + 1 }
      else { s with attn := { s.attn with cur := some (k, n + 1), khz := s.attnKhz,
                                          retryAt := s.now + callFreePs out + msPs im.clients.attnRetry } } := by
  have hfailed : (out == .acknowledged) = false := by simpa using hout
  simp only [State.tryCall, him, hfailed, Bool.false_eq_true, if_false]
  rfl

theorem onlyWrites_advance_attn (s : State) (dt : Nat) (a : Attn) : OnlyWrites [.time, .attn] s { s.advance dt with attn := a } :=
  ⟨rfl, fun p hp => by cases p <;> simp_all [Part.same]⟩

end

/-- Settles O55: an attempt ends in one of three ways, the same for a first one and for one made again. -/
theorem attentionCalls : Obligations.AttentionCalls := by
  unfold Obligations.AttentionCalls
  refine ⟨fun a k => ⟨fun h4 => ?_, fun h4 h3 => ?_, fun h4 h3 h1 => ?_, fun q h4 h3 h1 hq => ?_⟩,
    fun dt s k a im hmay hidle hpick him => ⟨_, rfl, ?_⟩, fun dt s k a im out hmay hidle hpick him hout htries => ⟨_, rfl, ?_⟩,
    fun dt s k n im hmay hcur hdue him => ⟨_, rfl, ?_⟩, fun dt s k n im out hmay hcur hdue him hout => ⟨_, rfl, ?_⟩⟩
  · simp only [Attn.pick, h4]
  · simp only [Attn.pick, h4, h3]
  · simp only [Attn.pick, h4, h3, h1]
  · simp only [Attn.pick, h4, h3, h1, hq]
  · rw [doAttentionCall_eq hmay hidle hpick, State.tryCall_acknowledged (s := (s.advance dt).called k a) him]
    exact ⟨rfl, onlyWrites_advance_attn s dt _⟩
  · rw [doAttentionCall_eq hmay hidle hpick, State.tryCall_failed (s := (s.advance dt).called k a) him hout, if_neg (by omega)]
    refine ⟨rfl, ?_, onlyWrites_advance_attn s dt _⟩
    exact congrArg (fun t => t + callFreePs out + msPs im.clients.attnRetry) (s.advance_now dt)
  · rw [doAttnRetry_eq hmay hcur hdue, State.tryCall_acknowledged (s := s.advance dt) him]
    exact ⟨rfl, onlyWrites_advance_attn s dt _⟩
  · rw [doAttnRetry_eq hmay hcur hdue, State.tryCall_failed (s := s.advance dt) him hout]
    split
    · exact ⟨rfl, rfl, ((onlyWrites_advance_attn s dt _).trans (onlyWrites_onHost5 _ _)).mono (by simp)⟩
    · exact ⟨rfl, rfl, (onlyWrites_advance_attn s dt _).mono (by simp)⟩

end Sys2Proof.Machine
end

section
/-! PROOFS. The Causeway's own commands (12_causeway.md): packets that open and close, and readers whose cursor a request moves. -/

namespace Sys2Proof.Machine

/-! ### Packets that open (R308) -/

@[simp] theorem State.writePackets_opens (s : State) (ps : List Packet) : (s.writePackets ps).cw.opens = s.cw.opens :=
  foldl_keep (fun s : State => s.cw.opens) State.writePacket State.writePacket_opens ps s

@[simp] theorem State.flushLost_opens (s : State) : s.flushLost.cw.opens = s.cw.opens := by
  unfold State.flushLost
  split
  · rfl
  · split
    · exact State.writePacket_opens _ _
    · rfl

@[simp] theorem State.writeRolls_opens (s : State) (l : List RollAcc) : (s.writeRolls l).cw.opens = s.cw.opens := by
  refine foldl_keep (fun s : State => s.cw.opens) _ (fun s a => ?_) l s
  split
  · rfl
  · rw [State.writePacket_opens, State.writePacket_opens]

@[simp] theorem State.flushRollsF_opens (f : Nat) (s : State) : (State.flushRollsF f s).cw.opens = s.cw.opens := by
  induction f generalizing s with
  | zero => rfl
  | succ f ih =>
    unfold State.flushRollsF
    split
    · rfl
    · rw [ih]
      exact State.writeRolls_opens _ _

@[simp] theorem State.settle_opens (s : State) : s.settle.cw.opens = s.cw.opens := by
  unfold State.settle State.flushRolls
  split
  · rw [State.flushRollsF_opens, State.flushLost_opens]
  · exact State.flushLost_opens s

/-- Nothing is left to settle where the allocator has taken nothing. -/
theorem State.settle_idle {s : State} (hlost : s.cw.lostDue = none) (hroll : s.cw.rollq = []) : s.settle = s := by
  have hflush : s.flushLost = s := by simp only [State.flushLost, hlost]
  have hnone (f : Nat) : State.flushRollsF f s = s := by
    rcases f with _ | f
    · rfl
    · simp only [State.flushRollsF, hroll]
  unfold State.settle State.flushRolls
  rw [hflush]
  split
  · exact hnone _
  · rfl

/-- The packet that a producer opens is the last of the open ones. -/
theorem State.openFor_opens {s : State} (hstores : s.storing = true) (p : Packet) :
    ∃ q, (s.openFor p).cw.opens = s.cw.opens ++ [q] ∧ q.tag = p.tag ∧ q.producer = p.producer ∧ q.lines = p.lines ∧
      q.words = p.words ∧ q.mark = p.mark := by
  simp only [State.openFor, hstores, if_true]
  split
  · exact ⟨_, rfl, rfl, rfl, rfl, rfl, rfl⟩
  · exact ⟨_, rfl, rfl, rfl, rfl, rfl, rfl⟩

theorem doPacketOpen_eq {q : OpenReq} {s : State} (hstores : s.storing = true) (hproducer : q.producer < 16) (hmin : 1 ≤ q.maxWords)
    (hmax : q.maxWords ≤ 16376) (hfree : s.cw.openOf q.tag = none) :
    doPacketOpen q s = (s.openFor (openPacket q.producer q.tag (s.fullMark q.mark) q.maxWords)).settle := by
  have hcond : (s.storing && decide (q.producer < 16) && decide (1 ≤ q.maxWords) && decide (q.maxWords ≤ 16376) &&
      (s.cw.openOf q.tag).isNone) = true := by simp [hstores, hproducer, hmin, hmax, hfree]
  exact if_pos hcond

theorem doPacketOpen_frame (q : OpenReq) (s : State) : OnlyWrites [.cw, .way] s (doPacketOpen q s) :=
  ⟨by simp, fun p hp => by cases p <;> simp_all [Part.same]⟩

/-! ### Packets that close (R308, R314) -/

@[simp] theorem Causeway.toRing_readers (cw : Causeway) (p : Packet) : (cw.toRing p).readers = cw.readers := rfl
@[simp] theorem Causeway.toRing_gmp (cw : Causeway) (p : Packet) : (cw.toRing p).gmp = cw.gmp := rfl
@[simp] theorem Causeway.toRing_opens (cw : Causeway) (p : Packet) : (cw.toRing p).opens = cw.opens := rfl
@[simp] theorem Causeway.debit_readers (cw : Causeway) (a n : Nat) : (cw.debit a n).readers = cw.readers := rfl
@[simp] theorem Causeway.debit_gmp (cw : Causeway) (a n : Nat) : (cw.debit a n).gmp = cw.gmp := rfl
@[simp] theorem Causeway.debit_opens (cw : Causeway) (a n : Nat) : (cw.debit a n).opens = cw.opens := rfl
@[simp] theorem Causeway.debit_closed (cw : Causeway) (a n : Nat) : (cw.debit a n).closed = cw.closed := rfl

@[simp] theorem Causeway.peaks_length (cw : Causeway) : cw.peaks.readers.length = cw.readers.length := by simp [Causeway.peaks]

/-- Bringing the peaks up to date changes them alone. -/
theorem Causeway.peaks_reader (cw : Causeway) (r : Nat) :
    nth cw.peaks.readers r = { nth cw.readers r with peak := (nth cw.peaks.readers r).peak } := by
  by_cases hr : r < cw.readers.length
  · rw [Causeway.peaks, nth_mapIdx hr]
  · have hnone (l : List Reader) (hl : l.length = cw.readers.length) : nth l r = default := by
      simp [nth, List.getD_eq_getElem?_getD, hl, hr]
    rw [hnone _ cw.peaks_length, hnone _ rfl]

section
variable (cw : Causeway) (adm : Nat → Bool) (p : Packet)

theorem Causeway.closeIn_gmp : (cw.closeIn adm p).gmp = cw.gmp + 1 := by
  unfold Causeway.closeIn
  dsimp only
  split <;> rfl

theorem Causeway.closeIn_opens : (cw.closeIn adm p).opens = cw.opens := by
  unfold Causeway.closeIn
  dsimp only
  split <;> rfl

theorem Causeway.closeIn_lostDue : (cw.closeIn adm p).lostDue = cw.lostDue := by
  unfold Causeway.closeIn
  dsimp only
  split <;> rfl

theorem Causeway.closeIn_rollq : (cw.closeIn adm p).rollq = cw.rollq := by
  unfold Causeway.closeIn
  dsimp only
  split <;> rfl

/-- A reader that admits the packet counts it, any other does not (R314). -/
theorem Causeway.closeIn_count {r : Nat} (hr : r < cw.readers.length) :
    (nth (cw.closeIn adm p).readers r).count = if adm r then (nth cw.readers r).count + 1 else (nth cw.readers r).count := by
  have hnext (l : List Reader) (i : Nat) : (nth (l.modify i fun rd => { rd with next := rd.count + 1 }) r).count = (nth l r).count := by
    rcases nth_modify_cases l i r fun rd => { rd with next := rd.count + 1 } with hkept | hset
    · rw [hkept]
    · rw [hset]
  have hup : (nth (countUp adm cw.readers) r).count = if adm r then (nth cw.readers r).count + 1 else (nth cw.readers r).count := by
    rw [countUp, nth_mapIdx hr]
    split <;> rfl
  unfold Causeway.closeIn
  dsimp only
  rw [hnext, hnext, Causeway.peaks_reader]
  split
  · exact hup
  · exact hup

end

/-- The milepost that a closing packet has at a reader is the reader's next one, where it admits the packet (R314). -/
theorem find?_newMps {adm : Nat → Bool} {rds : List Reader} {r : Nat} (hr : r < rds.length) :
    ((newMps adm rds).find? (·.1 == r)).map (·.2) = if adm r then some ((nth rds r).count + 1) else none := by
  have hrange (n : Nat) : ((List.range n).filterMap fun i => if adm i then some (i, (nth rds i).count + 1) else none).find? (·.1 == r) =
      if r < n ∧ adm r = true then some (r, (nth rds r).count + 1) else none := by
    induction n with
    | zero => rfl
    | succ n ih =>
      rw [List.range_succ, List.filterMap_append, List.find?_append, ih]
      by_cases hlt : r < n
      · by_cases hadm : adm r = true
        · rw [if_pos ⟨hlt, hadm⟩, if_pos ⟨by omega, hadm⟩]
          rfl
        · rw [if_neg fun h => hadm h.2, if_neg fun h => hadm h.2, Option.none_or]
          by_cases hn : adm n = true
          · simp [hn, Nat.ne_of_gt hlt]
          · simp [hn]
      · rw [if_neg fun h => hlt h.1, Option.none_or]
        by_cases hn : adm n = true
        · by_cases hrn : n = r
          · simp [hrn, hrn ▸ hn]
          · have hgt : ¬ r < n + 1 := by omega
            simp [hn, hrn, hgt]
        · by_cases hrn : r = n
          · simp [hrn, hn]
          · have hgt : ¬ r < n + 1 := by omega
            simp [hn, hgt]
  rw [newMps, hrange]
  by_cases hadm : adm r = true
  · rw [if_pos ⟨hr, hadm⟩, if_pos hadm]
    rfl
  · rw [if_neg fun h => hadm h.2, if_neg hadm]
    rfl

/-- Whether a reader admits a packet follows from the image, the straps, the mode and the plan, and from what the packet is. -/
theorem State.admits_of {s t : State} (hport : t.port = s.port) (hstraps : t.straps = s.straps) (hpower : t.power = s.power)
    (hplan : t.way.plan = s.way.plan) (r : Nat) (p : Packet) : t.admits r p = s.admits r p := by
  have hentry : t.planEntry = s.planEntry := by simp only [State.planEntry, hport, hplan]
  have hclient (c : Nat) : t.clientEntry c = s.clientEntry c := by simp only [State.clientEntry, hport]
  have hrole (c : Nat) : t.roleOf c = s.roleOf c := by simp only [State.roleOf, State.strap, hclient, hstraps]
  have hview (c v : Nat) : t.viewHas c v = s.viewHas c v := by simp only [State.viewHas, hport, hrole, hclient, hentry]
  have hhost (c : Nat) : t.hostAdmits c p = s.hostAdmits c p := by simp only [State.hostAdmits, hrole, hview]
  have hclass : t.packetClass p = s.packetClass p := by simp only [State.packetClass, State.classOf, hport]
  have hmode (m : Mode) : t.inMode m = s.inMode m := by rw [State.inMode, State.inMode, hpower]
  have hjobs : t.placedJobs = s.placedJobs := by rw [State.placedJobs, State.placedJobs, hentry, hmode, hmode]
  have hinput : t.jobInput p = s.jobInput p := by simp only [State.jobInput, hport, hjobs]
  have hrc : t.rcAdmits p = s.rcAdmits p := by simp only [State.rcAdmits, hinput]
  have hmirror : t.mirrored p = s.mirrored p := by simp only [State.mirrored, hport]
  simp only [State.admits, hhost, hclass, hrc, hmirror]

section
variable {s : State} {tag : Word} {p : Packet}

/-- A packet as it closes: flagged, short of its plan or not, with its own lines (R307, R308). -/
def Packet.closing (p : Packet) : Packet :=
  { p.flagged with gap := p.gap || decide (p.words.length < p.want), lines := linesOf p.words.length }

/-- The state without the open packet of a source tag. -/
def State.unopened (s : State) (tag : Word) : State := { s with cw := { s.cw with opens := s.cw.opens.filter (·.tag != tag) } }

/-- A closing packet as it stands in the Causeway (R314). -/
def State.closedAs (s : State) (p : Packet) : Packet :=
  { p.closing with gmp := s.cw.gmp + 1, mps := newMps (s.admits · p.closing) s.cw.readers, inCw := true }

theorem State.noteProd_keepsPlan (s : State) (p : Packet) : (s.noteProd p).way.plan = s.way.plan := by
  unfold State.noteProd
  split <;> rfl

theorem State.closePacket_eq (hfull : s.full = true) (hopen : s.cw.openOf tag = some p) (hwords : p.words ≠ []) :
    s.closePacket tag =
      { (s.unopened tag).noteProd p.closing with
        cw := ((s.unopened tag).cw.debit p.producer (b2n (p.words.length % 4 != 0))).closeIn (s.admits · p.closing) p.closing } := by
  have hnonempty : p.words.isEmpty = false := by simpa using hwords
  have hseats : ((s.unopened tag).noteProd p.closing).seats = true := by
    rw [State.noteProd_seats]
    exact State.seats_of_full (s := s.unopened tag) hfull
  have hadm (r : Nat) : ((s.unopened tag).noteProd p.closing).admits r p.closing = s.admits r p.closing :=
    State.admits_of (by simp [State.unopened]) (by simp [State.unopened]) (by simp [State.unopened]) (State.noteProd_keepsPlan _ _) r _
  have hcw : ((s.unopened tag).noteProd p.closing).cw = (s.unopened tag).cw := by simp
  have hstep : s.closePacket tag = if ((s.unopened tag).noteProd p.closing).seats then
      { (s.unopened tag).noteProd p.closing with
        cw := (((s.unopened tag).noteProd p.closing).cw.debit p.producer (b2n (p.words.length % 4 != 0))).closeIn
          (((s.unopened tag).noteProd p.closing).admits · p.closing) p.closing }
      else
        { (s.unopened tag).noteProd p.closing with
          cw := (((s.unopened tag).noteProd p.closing).cw.debit p.producer (b2n (p.words.length % 4 != 0))).closeRing
            (((s.unopened tag).noteProd p.closing).admits · p.closing) p.closing } := by
    simp only [State.closePacket, State.closeOpen, hopen, hnonempty, Bool.false_eq_true, if_false]
    rfl
  rw [hstep, if_pos hseats, hcw]
  simp only [hadm]

end


theorem State.onlyWrites_closePacket (s : State) (tag : Word) : OnlyWrites [.cw, .way] s (s.closePacket tag) :=
  ⟨by simp, fun p hp => by cases p <;> simp_all [Part.same]⟩

/-- Settles O40: opening and closing are stated as equations, and settling what the allocator took leaves the open packets. -/
theorem packetsOpenAndClose : Obligations.PacketsOpenAndClose := by
  unfold Obligations.PacketsOpenAndClose
  refine ⟨fun q s hstores hproducer hmin hmax hfree => ?_, fun tag s p hinto hopen hwords hlost hroll => ?_⟩
  · obtain ⟨p, hopens, htag, hprod, hlines, hempty, hmark⟩ :=
      State.openFor_opens hstores (openPacket q.producer q.tag (s.fullMark q.mark) q.maxWords)
    refine ⟨_, p, rfl, ?_, hprod, hlines, hempty, hmark, doPacketOpen_frame q s⟩
    rw [Causeway.openOf] at hfree ⊢
    rw [doPacketOpen_eq hstores hproducer hmin hmax hfree, State.settle_opens, hopens, List.find?_append, hfree, Option.none_or]
    have htag' : (p.tag == q.tag) = true := by rw [htag]; exact beq_self_eq_true _
    simp only [List.find?_cons, htag']
  · obtain ⟨hstoring, hfull⟩ := hinto
    have hclosed := State.closePacket_eq hfull hopen hwords
    have hcw : (s.closePacket tag).cw =
        ((s.unopened tag).cw.debit p.producer (b2n (p.words.length % 4 != 0))).closeIn (s.admits · p.closing) p.closing := by
      rw [hclosed]
    have hdo : doPacketClose tag s = s.closePacket tag := by
      rw [doPacketClose, if_pos hstoring]
      exact State.settle_idle (by rw [hcw, Causeway.closeIn_lostDue]; exact hlost) (by rw [hcw, Causeway.closeIn_rollq]; exact hroll)
    have htag : p.tag = tag := by simpa using List.find?_some hopen
    have hadm (r : Nat) : s.admits r (s.closedAs p) = s.admits r p.closing := rfl
    have hframe := s.onlyWrites_closePacket tag
    refine ⟨_, s.closedAs p, rfl, ?_⟩
    rw [hdo, hcw]
    refine ⟨?_, ?_, htag, rfl, rfl, Causeway.closeIn_gmp _ _ _, rfl, fun r hr => ?_, fun r hr => ?_, hframe⟩
    · rw [Causeway.openOf, Causeway.closeIn_opens]
      refine List.find?_eq_none.mpr fun x hx => ?_
      have hne := (List.mem_filter.mp hx).2
      simpa using hne
    · rw [Causeway.closeIn_closed]
      exact List.getLast?_concat
    · rw [hadm]
      exact Causeway.closeIn_count _ _ _ hr
    · rw [hadm]
      exact find?_newMps hr

/-! ### Readers that a request moves (R318–R323, R461) -/

theorem Causeway.peaks_pool (cw : Causeway) (r : Nat) : cw.peaks.pool r = cw.pool r := by
  unfold Causeway.pool
  rw [Causeway.peaks_reader]
  rfl

/-- The peaks are no part of a backlog. -/
theorem Causeway.peaks_backlog (cw : Causeway) (r : Nat) : cw.peaks.backlog r = cw.backlog r := by
  have hbegun : cw.peaks.begun r = cw.begun r := by
    unfold Causeway.begun
    rw [Causeway.peaks_reader, Causeway.peaks_pool]
  unfold Causeway.backlog Causeway.backlogRaw
  rw [Causeway.peaks_pool, hbegun, Causeway.peaks_reader]
  rfl

/-- After the peaks are brought up to date no backlog is above its peak (R318). -/
theorem Causeway.backlog_le_peak (cw : Causeway) {r : Nat} (hr : r < cw.readers.length) :
    cw.peaks.backlog r ≤ (nth cw.peaks.readers r).peak := by
  rw [Causeway.peaks_backlog, Causeway.peaks, nth_mapIdx hr]
  exact Nat.le_max_right _ _

@[simp] theorem State.emptyBuffer_cw (s : State) (r : Nat) : (s.emptyBuffer r).cw = s.cw := by simp

section
variable {s : State} {r : Nat} {q : PendReq} {m : Word}

theorem doRewindTakeEffect_eq (hpend : (nth s.cw.readers r).pend = some q) (hto : q.rewindTo = some m)
    (hat : s.atBoundary r = true) :
    doRewindTakeEffect r s = (({ s with
      cw := (s.cw.onReader r (·.rewound m)).peaks
      up := { s.up with clients := s.up.clients.modify r (·.rewound m) } } : State).emptyBuffer r).resolveResult q.client q.cmp
        0x03 0x00 [] := by
  simp only [doRewindTakeEffect, hpend, hto, hat, if_true]

theorem doFlushTakeEffect_eq (hpend : (nth s.cw.readers r).pend = some q) (hto : q.rewindTo = none) (hat : s.atBoundary r = true) :
    doFlushTakeEffect r s = (({ s with
      cw := s.cw.onReader r (·.flushed r (s.cw.backlogRaw r) s.mark) } : State).emptyBuffer r).resolveResult q.client q.cmp
        0x04 0x00 [] := by
  have hcond : (q.rewindTo.isNone && s.atBoundary r) = true := by rw [hto, hat]; rfl
  simp only [doFlushTakeEffect, hpend, hcond, if_true]

theorem doRewindTakeEffect_frame (r : Nat) (s : State) : OnlyWrites [.cw, .up, .hs, .tw, .clients] s (doRewindTakeEffect r s) :=
  ⟨by simp, fun p hp => by cases p <;> simp_all [Part.same]⟩

theorem doFlushTakeEffect_frame (r : Nat) (s : State) : OnlyWrites [.cw, .hs, .tw, .clients] s (doFlushTakeEffect r s) :=
  ⟨by simp, fun p hp => by cases p <;> simp_all [Part.same]⟩

end

/-- Settles O41: the cursor moves in one change of its reader; the reply touches no reader. -/
theorem readersMove : Obligations.ReadersMove := by
  unfold Obligations.ReadersMove
  refine ⟨fun r s q m hr hpend hto hat => ⟨_, rfl, ?_⟩, fun r s q hr hpend hto hat => ⟨_, rfl, ?_⟩⟩
  · have hcw : (doRewindTakeEffect r.val s).cw = (s.cw.onReader r.val (·.rewound m)).peaks := by
      rw [doRewindTakeEffect_eq hpend hto hat, (State.resolveResult_mails _ _ _ _ _ _).cw, State.emptyBuffer_cw]
    have hframe := doRewindTakeEffect_frame r.val s
    rw [hcw]
    have hself := Causeway.peaks_reader (s.cw.onReader r.val (·.rewound m)) r.val
    rw [Causeway.onReader_same hr] at hself
    refine ⟨by rw [hself]; rfl, by rw [hself]; rfl, by rw [hself]; rfl, fun i hi => ?_, fun i hi => ?_, rfl, hframe⟩
    · have hother := Causeway.peaks_reader (s.cw.onReader r.val (·.rewound m)) i
      rwa [Causeway.onReader_ne _ hi] at hother
    · exact Causeway.backlog_le_peak _ (by simpa using hi)
  · have hcw : (doFlushTakeEffect r.val s).cw = s.cw.onReader r.val (·.flushed r.val (s.cw.backlogRaw r.val) s.mark) := by
      rw [doFlushTakeEffect_eq hpend hto hat, (State.resolveResult_mails _ _ _ _ _ _).cw, State.emptyBuffer_cw]
    have hframe := doFlushTakeEffect_frame r.val s
    rw [hcw, Causeway.onReader_same hr]
    exact ⟨rfl, rfl, List.getLast?_concat, fun i hi => Causeway.onReader_ne _ hi _, rfl, hframe⟩

end Sys2Proof.Machine
end

section
/-! PROOFS. What a write leaves of the packets that closed before it (12_causeway.md R310, R314), and reduction jobs
(13_placement.md R349–R351). -/

namespace Sys2Proof.Machine

/-! ### Closed packets over a write (R310, R314) -/

/-- A closed packet later on: at most taken out of the Causeway, with its cause. -/
def Packet.ages (p q : Packet) : Prop := q = { p with inCw := q.inCw, lost := q.lost } ∧ (p.inCw = false → q = p)

theorem Packet.ages.refl (p : Packet) : p.ages p := ⟨rfl, fun _ => rfl⟩

theorem Packet.ages.trans {p q r : Packet} (h : p.ages q) (k : q.ages r) : p.ages r := by
  obtain ⟨hq, hout⟩ := h
  obtain ⟨hr, hout'⟩ := k
  refine ⟨by rw [hr, hq], fun hp => ?_⟩
  rw [hout' (by rw [hout hp]; exact hp), hout hp]

theorem Packet.overrun_ages {p : Packet} (pager : Bool) (hin : p.inCw = true) : p.ages (p.overrun pager) := by
  refine ⟨?_, fun hout => nomatch hin.symm.trans hout⟩
  unfold Packet.overrun
  split
  · rfl
  · split <;> rfl

/-- From c to d packets are written: those closed before stay, and any other one has a later global milepost. -/
def Causeway.writesOn (c d : Causeway) : Prop :=
  c.gmp ≤ d.gmp ∧ (∀ p ∈ c.closed, ∃ q ∈ d.closed, p.ages q) ∧
  ∀ q ∈ d.closed, (∃ p ∈ c.closed, p.ages q) ∨ c.gmp < q.gmp

theorem Causeway.writesOn.of_same {c d : Causeway} (hclosed : d.closed = c.closed) (hgmp : d.gmp = c.gmp) : c.writesOn d := by
  refine ⟨Nat.le_of_eq hgmp.symm, fun p hp => ⟨p, by rwa [hclosed], Packet.ages.refl p⟩, fun q hq => Or.inl ⟨q, ?_, Packet.ages.refl q⟩⟩
  rwa [← hclosed]

theorem Causeway.writesOn.refl (c : Causeway) : c.writesOn c := Causeway.writesOn.of_same rfl rfl

theorem Causeway.writesOn.trans {c d e : Causeway} (h : c.writesOn d) (k : d.writesOn e) : c.writesOn e := by
  obtain ⟨hgmp, hstay, hnew⟩ := h
  obtain ⟨hgmp', hstay', hnew'⟩ := k
  refine ⟨Nat.le_trans hgmp hgmp', fun p hp => ?_, fun q hq => ?_⟩
  · obtain ⟨x, hx, hages⟩ := hstay p hp
    obtain ⟨y, hy, hages'⟩ := hstay' x hx
    exact ⟨y, hy, hages.trans hages'⟩
  · rcases hnew' q hq with ⟨x, hx, hages⟩ | hlater
    · rcases hnew x hx with ⟨p, hp, hages'⟩ | hlater
      · exact Or.inl ⟨p, hp, hages'.trans hages⟩
      · exact Or.inr (by rw [hages.1]; exact hlater)
    · exact Or.inr (Nat.lt_of_le_of_lt hgmp hlater)

theorem Causeway.writesOn.foldl {α : Type} (l : List α) {f : State → α → State}
    (hf : ∀ (s : State) (x : α), s.cw.writesOn (f s x).cw) (s : State) : s.cw.writesOn (l.foldl f s).cw := by
  induction l generalizing s with
  | nil => exact Causeway.writesOn.refl _
  | cons x l ih => exact (hf s x).trans (ih _)

theorem Causeway.reserve_writesOn (cw : Causeway) (pager : Bool) (start n : Nat) : cw.writesOn (cw.reserve pager start n) := by
  have hone (p : Packet) : p.ages (if p.inCw && overlap start n p.start p.lines then p.overrun pager else p) := by
    split
    next htaken => exact Packet.overrun_ages pager (by simpa using (Bool.and_eq_true_iff.mp htaken).1)
    next => exact Packet.ages.refl p
  refine ⟨Nat.le_refl _, fun p hp => ⟨_, List.mem_map_of_mem hp, hone p⟩, fun q hq => Or.inl ?_⟩
  obtain ⟨p, hp, heq⟩ := List.mem_map.mp hq
  exact ⟨p, hp, heq ▸ hone p⟩

theorem Causeway.closeIn_writesOn (cw : Causeway) (adm : Nat → Bool) (p : Packet) : cw.writesOn (cw.closeIn adm p) := by
  refine ⟨by rw [Causeway.closeIn_gmp]; omega, fun x hx => ⟨x, ?_, Packet.ages.refl x⟩, fun q hq => ?_⟩
  · rw [Causeway.closeIn_closed]
    exact List.mem_append_left _ hx
  · rw [Causeway.closeIn_closed] at hq
    rcases List.mem_append.mp hq with hold | hnew
    · exact Or.inl ⟨q, hold, Packet.ages.refl q⟩
    · rw [List.mem_singleton.mp hnew]
      exact Or.inr (Nat.lt_succ_self _)

theorem State.writePacket_writesOn (s : State) (p : Packet) : s.cw.writesOn (s.writePacket p).cw := by
  unfold State.writePacket
  dsimp only
  split
  · have hcw (x : Packet) : (s.noteProd x).cw = s.cw := by simp
    split
    · rw [hcw]
      have hdebit (a n : Nat) : s.cw.writesOn (s.cw.debit a n) := Causeway.writesOn.of_same rfl rfl
      exact ((hdebit _ _).trans (Causeway.reserve_writesOn _ _ _ _)).trans (Causeway.closeIn_writesOn _ _ _)
    · rw [hcw]
      exact Causeway.writesOn.of_same rfl rfl
  · exact Causeway.writesOn.of_same rfl rfl

theorem State.writePackets_writesOn (s : State) (ps : List Packet) : s.cw.writesOn (s.writePackets ps).cw :=
  Causeway.writesOn.foldl ps State.writePacket_writesOn s

theorem State.writeError_writesOn (s : State) (code unit : Nat) (d0 d1 : Word) (count : Nat) :
    s.cw.writesOn (s.writeError code unit d0 d1 count).cw := State.writePacket_writesOn s _

theorem State.flushLost_writesOn (s : State) : s.cw.writesOn s.flushLost.cw := by
  unfold State.flushLost
  split
  · exact Causeway.writesOn.refl _
  · split
    · have hnone : s.cw.writesOn { s.cw with lostDue := none } := Causeway.writesOn.of_same rfl rfl
      exact hnone.trans (State.writeError_writesOn { s with cw := { s.cw with lostDue := none } } _ _ _ _ _)
    · exact Causeway.writesOn.refl _

theorem State.writeRolls_writesOn (s : State) (l : List RollAcc) : s.cw.writesOn (s.writeRolls l).cw := by
  refine Causeway.writesOn.foldl l (fun s a => ?_) s
  split
  · exact Causeway.writesOn.refl _
  · exact (State.writePacket_writesOn s _).trans (State.writePacket_writesOn _ _)

theorem State.flushRollsF_writesOn (f : Nat) (s : State) : s.cw.writesOn (State.flushRollsF f s).cw := by
  induction f generalizing s with
  | zero => exact Causeway.writesOn.refl _
  | succ f ih =>
    unfold State.flushRollsF
    split
    · exact Causeway.writesOn.refl _
    next p q _ =>
      have hone : s.cw.writesOn (({ s with cw := { s.cw with rollq := q } } : State).rollOne p).cw := by
        have hsame : s.cw.writesOn { s.cw with rollq := q, roll3 := (rollIn s.cw.roll3 p).1 } := Causeway.writesOn.of_same rfl rfl
        exact hsame.trans (State.writeRolls_writesOn
          { s with cw := { s.cw with rollq := q, roll3 := (rollIn s.cw.roll3 p).1 } } (rollIn s.cw.roll3 p).2)
      exact hone.trans (ih _)

theorem State.settle_writesOn (s : State) : s.cw.writesOn s.settle.cw := by
  unfold State.settle State.flushRolls
  split
  · exact (State.flushLost_writesOn s).trans (State.flushRollsF_writesOn _ _)
  · exact State.flushLost_writesOn s

/-! ### Reduction jobs (R349–R351) -/

/-- Two instances are of the same period of the same job. -/
def JobInst.sameJob (i j : JobInst) : Prop :=
  j.job = i.job ∧ j.first = i.first ∧ j.release = i.release ∧ j.deadline = i.deadline

/-- Free cores take instances: their number stays, and each of them is still there. -/
theorem dispatchF_keeps (f cores : Nat) : ∀ l : List JobInst, (dispatchF f cores l).length = l.length ∧
    ∀ i ∈ l, ∃ j ∈ dispatchF f cores l, i.sameJob j := by
  induction f with
  | zero => exact fun l => ⟨rfl, fun i hi => ⟨i, hi, rfl, rfl, rfl, rfl⟩⟩
  | succ f ih =>
    intro l
    unfold dispatchF
    split
    next c i _ _ =>
      obtain ⟨hlen, hmem⟩ := ih (l.map fun x => if x == i then { x with core := c } else x)
      refine ⟨hlen.trans (List.length_map _), fun x hx => ?_⟩
      obtain ⟨j, hj, hsame⟩ := hmem _ (List.mem_map_of_mem hx)
      refine ⟨j, hj, ?_⟩
      split at hsame
      · exact hsame
      · exact hsame
    next => exact ⟨rfl, fun i hi => ⟨i, hi, rfl, rfl, rfl, rfl⟩⟩

theorem State.dispatch_length (s : State) : s.dispatch.red.insts.length = s.red.insts.length := by
  have hlen := (dispatchF_keeps 7 s.jobCores (s.red.insts.map (·.within s.jobCores))).1
  exact hlen.trans (List.length_map _)

theorem State.dispatch_mem {s : State} {i : JobInst} (hi : i ∈ s.red.insts) : ∃ j ∈ s.dispatch.red.insts, i.sameJob j := by
  obtain ⟨j, hj, hsame⟩ := (dispatchF_keeps 7 s.jobCores (s.red.insts.map (·.within s.jobCores))).2 _ (List.mem_map_of_mem hi)
  refine ⟨j, hj, ?_⟩
  have hwithin : (i.within s.jobCores).job = i.job ∧ (i.within s.jobCores).first = i.first ∧
      (i.within s.jobCores).release = i.release ∧ (i.within s.jobCores).deadline = i.deadline := by
    unfold JobInst.within
    split <;> exact ⟨rfl, rfl, rfl, rfl⟩
  obtain ⟨hjob, hfirst, hrelease, hdeadline⟩ := hwithin
  obtain ⟨hjob', hfirst', hrelease', hdeadline'⟩ := hsame
  exact ⟨hjob'.trans hjob, hfirst'.trans hfirst, hrelease'.trans hrelease, hdeadline'.trans hdeadline⟩

@[simp] theorem State.dispatch_next (s : State) : s.dispatch.red.next = s.red.next := rfl

section
variable {s : State} {job first : Nat} {e : RedEntry} {fs : List LineFinding}

/-- What a release adds to the queue (R349). -/
def State.newInst (s : State) (job first : Nat) (e : RedEntry) : JobInst :=
  { job := job, entry := e, first := first, release := s.mark, deadline := s.mark + e.deadline, core := 0 }

/-- The instances and the next periods after a release, before free cores take any. -/
def State.released (s : State) (job first : Nat) (e : RedEntry) : Reduce :=
  { insts := s.red.insts ++ [s.newInst job first e]
    next := s.red.next.map fun (x : Nat × Nat) => if x.1 = job then (job, first + e.period * 1024) else x }

/-- What the reads for a run find (R325). -/
def State.jobReads (s : State) (e : RedEntry) (fs : List LineFinding) : State :=
  s.findings 1 (fun n p => ((s.inputsOf e)[n]?).any (·.gmp == p.gmp)) fs

theorem doReductionRelease_eq (hnext : s.red.next.find? (·.1 == job) = some (job, first)) (hentry : s.redEntry job = some e)
    (hfull : s.full = true) (hdue : first + e.period * 1024 ≤ s.mark) (hin : s.inputOwed e (first + e.period * 1024) = false) :
    doReductionRelease job fs s = ({ s.jobReads e fs with red := s.released job first e } : State).dispatch := by
  have hcond : (s.full && decide (first + e.period * 1024 ≤ s.mark) && !s.inputOwed e (first + e.period * 1024)) = true := by
    simp [hfull, hdue, hin]
  have hred : (s.jobReads e fs).red = s.red := by simp [State.jobReads]
  have hstep : doReductionRelease job fs s = ({ s.jobReads e fs with
      red := { insts := (s.jobReads e fs).red.insts ++ [s.newInst job first e]
               next := (s.jobReads e fs).red.next.map fun (x : Nat × Nat) =>
                 if x.1 = job then (job, first + e.period * 1024) else x } } : State).dispatch := by
    simp only [doReductionRelease, hnext, hentry, hcond, if_true]
    rfl
  rw [hstep, hred]
  rfl

theorem State.released_next (hnext : s.red.next.find? (·.1 == job) = some (job, first)) :
    (s.released job first e).next.find? (·.1 == job) = some (job, first + e.period * 1024) := by
  have hsame : ((fun x : Nat × Nat => x.1 == job) ∘ fun x : Nat × Nat => if x.1 = job then (job, first + e.period * 1024) else x) =
      fun x => x.1 == job := by
    funext x
    by_cases hx : x.1 = job
    · simp [hx]
    · simp [hx]
  simp only [State.released, List.find?_map, hsame, hnext, Option.map_some, if_true]

theorem doReductionRelease_frame (job : Nat) (fs : List LineFinding) (s : State) :
    OnlyWrites [.free, .cw, .red, .way, .age] s (doReductionRelease job fs s) :=
  ⟨by simp, fun p hp => by cases p <;> simp_all [Part.same]⟩

theorem onlyWrites_red (s : State) (r : Reduce) : OnlyWrites [.red] s { s with red := r } :=
  ⟨rfl, fun p hp => by cases p <;> simp_all [Part.same]⟩

theorem doReductionComplete_eq {i : JobInst} (hrun : (s.red.insts.find? fun i => i.running && i.job == job) = some i)
    (hfull : s.full = true) : doReductionComplete job s =
      ((({ s with red := { s.red with insts := s.red.insts.erase i } } : State).dispatch).writePacket (s.redPacket i)).settle := by
  simp only [doReductionComplete, hrun, hfull, if_true]

theorem doReductionComplete_frame (job : Nat) (s : State) : OnlyWrites [.cw, .red, .way] s (doReductionComplete job s) :=
  ⟨by simp, fun p hp => by cases p <;> simp_all [Part.same]⟩

end

/-- Settles O42: the product closes as a packet, and what is settled after it leaves closed packets as they are. -/
theorem jobsRun : Obligations.JobsRun := by
  unfold Obligations.JobsRun
  refine ⟨fun job fs s first e hnext hentry hfull hdue hin => ⟨_, rfl, ?_⟩, fun job s i hrun hfull => ⟨_, rfl, ?_⟩⟩
  · have hframe := doReductionRelease_frame job fs s
    have hnil (h : fs = []) : OnlyWrites [.red] s (doReductionRelease job fs s) := by
      rw [doReductionRelease_eq hnext hentry hfull hdue hin, h]
      exact (onlyWrites_red s _).trans (onlyWrites_red _ _)|>.mono (by simp)
    rw [doReductionRelease_eq hnext hentry hfull hdue hin] at hframe hnil ⊢
    obtain ⟨j, hj, hjob, hfirst, hrelease, hdeadline⟩ := State.dispatch_mem
      (s := { s.jobReads e fs with red := s.released job first e }) (i := s.newInst job first e) (by simp [State.released])
    refine ⟨?_, ⟨j, hj, hjob, hfirst, hrelease, hdeadline⟩, State.released_next hnext, hnil, hframe⟩
    rw [State.dispatch_length]
    simp [State.released]
  · have hframe := doReductionComplete_frame job s
    have hred : (doReductionComplete job s).red =
        (({ s with red := { s.red with insts := s.red.insts.erase i } } : State).dispatch).red := by
      rw [doReductionComplete_eq hrun hfull]
      simp
    have hmem : i ∈ s.red.insts := List.mem_of_find?_eq_some hrun
    change (doReductionComplete job s).red.insts.length + 1 = _ ∧ (doReductionComplete job s).red.next = _ ∧ _
    rw [hred, State.dispatch_length, State.dispatch_next]
    refine ⟨?_, rfl, fun hstores => ?_, hframe⟩
    · have hpos : 0 < s.red.insts.length := List.length_pos_of_mem hmem
      change (s.red.insts.erase i).length + 1 = _
      rw [List.length_erase_of_mem hmem]
      omega
    · obtain ⟨q, hlast, htag, hwords, hmark⟩ := State.writePacket_last
        (s := ({ s with red := { s.red with insts := s.red.insts.erase i } } : State).dispatch) ⟨hstores, hfull⟩ (s.redPacket i)
      obtain ⟨-, hstay, -⟩ := State.settle_writesOn
        ((({ s with red := { s.red with insts := s.red.insts.erase i } } : State).dispatch).writePacket (s.redPacket i))
      obtain ⟨r, hr, hages, -⟩ := hstay q (List.mem_of_getLast? hlast)
      refine ⟨r, ?_, ?_, ?_, ?_⟩
      · rw [doReductionComplete_eq hrun hfull]
        exact hr
      · rw [hages]
        exact htag
      · rw [hages]
        exact hmark
      · rw [hages]
        exact hwords

end Sys2Proof.Machine
end

section
/-! PROOFS. The spill pager (13_placement.md R355–R367): its descriptors, its pages and its roll-ups. -/

namespace Sys2Proof.Machine

/-! ### Descriptors (R367) -/

/-- Descriptors that the port executes in full from a held select on: each names the device whose select is held, and the last
one releases it. -/
def chained : Option Nat → List Desc → Prop
  | held, [] => held = none
  | held, d :: ds => (held = none ∨ held = some d.dev) ∧ chained (if d.cont then some d.dev else none) ds

theorem chained_append {held : Option Nat} {as bs : List Desc} (h : chained held as) (k : chained none bs) :
    chained held (as ++ bs) := by
  induction as generalizing held with
  | nil =>
    rw [show held = none from h]
    exact k
  | cons d ds ih => exact ⟨h.1, ih h.2⟩

theorem chained_flatMap {α : Type} {f : α → List Desc} (l : List α) (h : ∀ x ∈ l, chained none (f x)) :
    chained none (l.flatMap f) := by
  induction l with
  | nil => rfl
  | cons x l ih =>
    rw [List.flatMap_cons]
    exact chained_append (h x List.mem_cons_self) (ih fun y hy => h y (List.mem_cons_of_mem _ hy))

theorem Spill.run_next {sp : Spill} {d : Desc} (h : sp.sel = none ∨ sp.sel = some d.dev) :
    (sp.run d).descs = sp.descs ++ [d] ∧ (sp.run d).sel = if d.cont then some d.dev else none := by
  have hcond : (sp.sel.isSome && sp.sel != some d.dev) = false := by
    rcases h with hnone | hsome
    · simp [hnone]
    · simp [hsome]
  simp only [Spill.run, hcond, Bool.false_eq_true, if_false, and_self]

theorem Spill.foldl_run {ds : List Desc} : ∀ {sp : Spill}, chained sp.sel ds →
    (ds.foldl Spill.run sp).descs = sp.descs ++ ds ∧ (ds.foldl Spill.run sp).sel = none := by
  induction ds with
  | nil => exact fun h => ⟨by simp, h⟩
  | cons d ds ih =>
    intro sp h
    obtain ⟨hfits, hrest⟩ := h
    obtain ⟨hdescs, hsel⟩ := Spill.run_next hfits
    obtain ⟨hall, hnone⟩ := ih (sp := sp.run d) (by rw [hsel]; exact hrest)
    refine ⟨?_, hnone⟩
    rw [List.foldl_cons, hall, hdescs, List.append_assoc]
    rfl

/-- Executing descriptors changes the port alone. -/
theorem Spill.run_port (sp : Spill) (d : Desc) :
    sp.run d = { sp with descs := (sp.run d).descs, sel := (sp.run d).sel, selects := (sp.run d).selects } := by
  unfold Spill.run
  split <;> rfl

theorem Spill.foldl_run_port (ds : List Desc) : ∀ sp : Spill, ds.foldl Spill.run sp =
    { sp with descs := (ds.foldl Spill.run sp).descs, sel := (ds.foldl Spill.run sp).sel
              selects := (ds.foldl Spill.run sp).selects } := by
  induction ds with
  | nil => exact fun _ => rfl
  | cons d ds ih =>
    intro sp
    rw [List.foldl_cons, ih (sp.run d), sp.run_port d]

theorem Spill.execute_port (sp : Spill) (ds : List Desc) : sp.execute ds =
    { sp with descs := (sp.execute ds).descs, sel := (sp.execute ds).sel, selects := (sp.execute ds).selects } :=
  Spill.foldl_run_port ds { sp with descs := [], sel := none, selects := [] }

theorem Spill.execute_chained {ds : List Desc} (sp : Spill) (h : chained none ds) :
    (sp.execute ds).descs = ds ∧ (sp.execute ds).sel = none :=
  Spill.foldl_run (sp := { sp with descs := [], sel := none, selects := [] }) h

theorem chained_eraseDescs (sp : Spill) (blocks : List Nat) : chained none (sp.eraseDescs blocks) :=
  chained_flatMap _ fun _ _ => chained_flatMap _ fun _ _ => ⟨Or.inl rfl, Or.inl rfl, rfl⟩

theorem chained_commitDescs (pg : Page) : chained none (commitDescs pg) :=
  chained_append (chained_flatMap _ fun _ _ => ⟨Or.inl rfl, Or.inl rfl, rfl⟩)
    (chained_flatMap _ fun _ _ => ⟨Or.inl rfl, Or.inr rfl, Or.inl rfl, rfl⟩)

/-! ### A change of how full spill is (R355, R360) -/

@[simp] theorem State.storeFull_spill (s : State) (stage : Nat) : (s.storeFull stage).spill = s.spill := by
  simp [State.storeFull]

theorem State.storeFull_writesOn (s : State) (stage : Nat) : s.cw.writesOn (s.storeFull stage).cw := State.writePacket_writesOn s _

/-- From s to t at most the stages, the alarm and the stall of spill change, and records are written. -/
def State.refills (s t : State) : Prop :=
  t.spill = { s.spill with stages := t.spill.stages, alarm := t.spill.alarm, stalled := t.spill.stalled } ∧
  s.cw.writesOn t.cw

theorem State.refills.refl (s : State) : s.refills s := ⟨rfl, Causeway.writesOn.refl _⟩

theorem State.refills.trans {s t u : State} (h : s.refills t) (k : t.refills u) : s.refills u := by
  obtain ⟨hspill, hcw⟩ := h
  obtain ⟨hspill', hcw'⟩ := k
  exact ⟨by rw [hspill', hspill], hcw.trans hcw'⟩

theorem State.storeFull_refills (s : State) (stage : Nat) : s.refills (s.storeFull stage) :=
  ⟨by rw [State.storeFull_spill], State.storeFull_writesOn s stage⟩

/-- The alarm ends at 96 % (R355). -/
def State.alarmEnds (s : State) : State :=
  if s.spill.alarm && s.spill.atMost 96 then ({ s with spill := { s.spill with alarm := false } } : State).storeFull 3 else s

/-- The pager stalls at 100 % with no raw packet left, and goes on below it (R355). -/
def State.stalls (s : State) : State :=
  if (decide (0 < s.spill.usable) && s.spill.reached 100 && !(s.cw.closed.any Packet.rawInSpill)) && !s.spill.stalled then
    ({ s with spill := { s.spill with stalled := true } } : State).storeFull 2
  else if s.spill.stalled && !s.spill.reached 100 then { s with spill := { s.spill with stalled := false } }
  else s

theorem State.afterFill_eq (s : State) : s.afterFill = s.updateStages.alarmEnds.stalls := rfl

theorem State.alarmEnds_refills (s : State) : s.refills s.alarmEnds := by
  unfold State.alarmEnds
  split
  · have hoff : s.refills { s with spill := { s.spill with alarm := false } } := ⟨rfl, Causeway.writesOn.refl _⟩
    exact hoff.trans (State.storeFull_refills _ 3)
  · exact State.refills.refl s

theorem State.stalls_refills (s : State) : s.refills s.stalls := by
  unfold State.stalls
  split
  · have hon : s.refills { s with spill := { s.spill with stalled := true } } := ⟨rfl, Causeway.writesOn.refl _⟩
    exact hon.trans (State.storeFull_refills _ 2)
  · split
    · exact ⟨rfl, Causeway.writesOn.refl _⟩
    · exact State.refills.refl s

theorem State.afterFill_refills (s : State) : s.refills s.afterFill := by
  have hstages : s.refills s.updateStages := ⟨rfl, Causeway.writesOn.refl _⟩
  rw [State.afterFill_eq]
  exact (hstages.trans (State.alarmEnds_refills _)).trans (State.stalls_refills _)

/-! ### A page commit (R362–R365) -/

section
variable {s : State} {stream : Nat} {fs : List LineFinding}

/-- What the open page of a stream takes (R362). -/
def State.pageFill (s : State) (stream : Nat) : PageFill :=
  fillPage (carryFirst (nth s.spill.carry stream) (s.cw.toSpill stream)) (nth s.spill.carry stream) 1024

/-- The page of the circle that is programmed next (R365). -/
def Spill.next (sp : Spill) : Nat := sp.freePage sp.usable (sp.nextPage % max 1 sp.usable)

/-- The page that a commit programs (R363, R364). -/
def State.newPage (s : State) (stream : Nat) : Page :=
  { seq := s.spill.seq + 1, page := s.spill.next, stream := stream
    devmask := maskOf 4 fun d => (s.spill.erased (s.spill.eraseFor s.spill.next)).stripe.contains d
    npkt := (s.pageFill stream).npkt, first := (s.pageFill stream).first, tail := (s.pageFill stream).carry.map (·.1)
    checkpoint := checkAfter s.spill.check (s.pageFill stream).done }

/-- A packet whose last line a page holds is committed by it. -/
def Packet.commitTo (seq : Nat) (gs : List Nat) (p : Packet) : Packet :=
  if p.isHeld && p.page.isNone && gs.contains p.gmp then { p with page := some seq } else p

/-- Spill with a page more (R365). -/
def State.paged (s : State) (stream : Nat) : Spill :=
  { s.spill.erased (s.spill.eraseFor s.spill.next) with
    pages := s.spill.pages ++ [s.newPage stream]
    used := (s.spill.erased (s.spill.eraseFor s.spill.next)).used ++ [s.spill.next], seq := s.spill.seq + 1
    check := checkAfter s.spill.check (s.pageFill stream).done
    nextPage := (s.spill.next + 1) % max 1 (s.spill.erased (s.spill.eraseFor s.spill.next)).usable
    carry := s.spill.carry.set stream (s.pageFill stream).carry, laneRun := s.inMode .lane }

/-- The Causeway once the packets of a page are committed. -/
def State.pagedCw (s : State) (stream : Nat) : Causeway :=
  ({ s.cw with closed := s.cw.closed.map (Packet.commitTo (s.spill.seq + 1) ((s.pageFill stream).done.map (·.gmp))) } : Causeway).moveSp

/-- The state as a page is programmed, before the filling is looked at again. -/
def State.programmed (s : State) (stream : Nat) : State :=
  { s with
    cw := s.pagedCw stream
    spill := (s.paged stream).execute (s.spill.eraseDescs (s.spill.eraseFor s.spill.next) ++ commitDescs (s.newPage stream)) }

/-- The same, with what Lane makes of it (R361). -/
def State.committed (s : State) (stream : Nat) (b : Bool) : State :=
  { s.programmed stream with spill := { (s.programmed stream).spill with laneRun := b } }

/-- A page commit and its effect on the filling. -/
def State.filledAfter (s : State) (stream : Nat) (b : Bool) : State := (s.committed stream b).afterFill

theorem doSpillPageCommit_eq (hruns : s.pagerRuns = true) (hwaits : s.cw.toSpill stream ≠ []) :
    ∃ b, doSpillPageCommit stream fs s = (s.findings 1 noPacket fs).filledAfter stream b := by
  have hcond : (s.pagerRuns && !(s.cw.toSpill stream).isEmpty) = true := by
    have hsome : (s.cw.toSpill stream).isEmpty = false := by simpa using hwaits
    rw [hruns, hsome]
    rfl
  rw [doSpillPageCommit, if_pos hcond]
  exact ⟨_, rfl⟩

end

/-- Lines of a packet that the page before holds. -/
def carried (carry : Option (Nat × Nat)) (p : Packet) : Nat :=
  match carry with
  | some (g, n) => if g = p.gmp then n else 0
  | none => 0

/-- What a page commit leaves of spill once the filling is looked at again. -/
theorem State.programmed_filled (s : State) (stream : Nat) (b : Bool) :
    (s.filledAfter stream b).spill.pages = s.spill.pages ++ [s.newPage stream] ∧
    (s.filledAfter stream b).spill.seq = s.spill.seq + 1 ∧
    (s.filledAfter stream b).spill.used = (s.spill.erased (s.spill.eraseFor s.spill.next)).used ++ [s.spill.next] ∧
    (s.filledAfter stream b).spill.descs = s.spill.eraseDescs (s.spill.eraseFor s.spill.next) ++ commitDescs (s.newPage stream) ∧
    (s.filledAfter stream b).spill.sel = none := by
  obtain ⟨hspill, -⟩ := State.afterFill_refills (s.committed stream b)
  have hport := (s.paged stream).execute_port (s.spill.eraseDescs (s.spill.eraseFor s.spill.next) ++ commitDescs (s.newPage stream))
  have hprogrammed : (s.committed stream b).spill = { (s.paged stream).execute
      (s.spill.eraseDescs (s.spill.eraseFor s.spill.next) ++ commitDescs (s.newPage stream)) with laneRun := b } := rfl
  obtain ⟨hdescs, hsel⟩ := Spill.execute_chained (s.paged stream)
    (chained_append (chained_eraseDescs s.spill (s.spill.eraseFor s.spill.next)) (chained_commitDescs (s.newPage stream)))
  rw [State.filledAfter, hspill, hprogrammed]
  refine ⟨?_, ?_, ?_, hdescs, hsel⟩
  · rw [hport]
    rfl
  · rw [hport]
    rfl
  · rw [hport]
    rfl

theorem fillPage_done (p : Packet) (ps : List Packet) (carry : Option (Nat × Nat)) (room : Nat) :
    (fillPage (p :: ps) carry room).done =
      if room = 0 then [] else if room < p.lines - carried carry p then []
      else p :: (fillPage ps none (room - (p.lines - carried carry p))).done := by
  change (if room = 0 then _ else if room < p.lines - carried carry p then _ else _ : PageFill).done = _
  split
  · rfl
  · split <;> rfl

theorem fillPage_done_mem {ps : List Packet} : ∀ {carry : Option (Nat × Nat)} {room : Nat} {p : Packet},
    p ∈ (fillPage ps carry room).done → p ∈ ps := by
  induction ps with
  | nil => exact fun h => nomatch h
  | cons x ps ih =>
    intro carry room p h
    rw [fillPage_done] at h
    split at h
    · exact nomatch h
    · split at h
      · exact nomatch h
      · rcases List.mem_cons.mp h with heq | hrest
        · exact heq ▸ List.mem_cons_self
        · exact List.mem_cons_of_mem _ (ih hrest)

/-- A packet whose last line the page holds was waiting to be committed (R362). -/
theorem State.pageFill_done {s : State} {stream : Nat} {p : Packet} (h : p ∈ (s.pageFill stream).done) :
    p ∈ s.cw.closed ∧ p.isHeld = true ∧ p.page = none := by
  have hcands := fillPage_done_mem h
  have hwaits : p ∈ s.cw.toSpill stream := by
    rcases List.mem_append.mp hcands with hfirst | hrest
    · exact (List.mem_filter.mp hfirst).1
    · exact (List.mem_filter.mp hrest).1
  obtain ⟨hclosed, hcond⟩ := List.mem_filter.mp hwaits
  simp only [Bool.and_eq_true, Option.isNone_iff_eq_none] at hcond
  exact ⟨hclosed, hcond.1.1, hcond.1.2⟩

theorem State.pagedCw_committed {s : State} {stream : Nat} {p : Packet} (h : p ∈ (s.pageFill stream).done) :
    ∃ q ∈ (s.pagedCw stream).closed, q.gmp = p.gmp ∧ q.page = some (s.spill.seq + 1) := by
  obtain ⟨hclosed, hheld, hpage⟩ := State.pageFill_done h
  have hcond : (p.isHeld && p.page.isNone && ((s.pageFill stream).done.map (·.gmp)).contains p.gmp) = true := by
    simp only [hheld, hpage, Option.isNone_none, Bool.and_self, Bool.true_and, List.contains_eq_mem, decide_eq_true_eq]
    exact List.mem_map_of_mem h
  have hcommit : Packet.commitTo (s.spill.seq + 1) ((s.pageFill stream).done.map (·.gmp)) p = { p with page := some (s.spill.seq + 1) } :=
    if_pos hcond
  refine ⟨_, List.mem_map_of_mem hclosed, ?_, ?_⟩
  · rw [hcommit]
  · rw [hcommit]

theorem doSpillPageCommit_frame (stream : Nat) (fs : List LineFinding) (s : State) :
    OnlyWrites [.free, .cw, .spill, .way, .age] s (doSpillPageCommit stream fs s) :=
  ⟨by simp, fun p hp => by cases p <;> simp_all [Part.same]⟩

theorem State.onlyWrites_afterFill (s : State) : OnlyWrites [.cw, .spill, .way] s s.afterFill :=
  ⟨by simp, fun p hp => by cases p <;> simp_all [Part.same]⟩

theorem onlyWrites_cw_spill (s : State) (c : Causeway) (sp : Spill) : OnlyWrites [.cw, .spill] s { s with cw := c, spill := sp } :=
  ⟨rfl, fun p hp => by cases p <;> simp_all [Part.same]⟩

/-! ### Devices (R361, R366) -/

/-- A device that leaves the stripe set writes one record and changes spill's devices alone. -/
theorem State.dropDevice_spill (s : State) (dev cause : Nat) : (s.dropDevice dev cause).spill =
    { s.spill with devs := s.spill.devs.modify dev fun d => { d with state := 1 }, fault := true } := by
  simp [State.dropDevice]

theorem State.onlyWrites_dropDevice (s : State) (dev cause : Nat) : OnlyWrites [.cw, .spill, .way] s (s.dropDevice dev cause) :=
  ⟨by simp, fun p hp => by cases p <;> simp_all [Part.same]⟩

theorem doSpillDeviceFail_eq {s : State} {dev : Nat} (cause : Nat) (hdone : s.spill.done = true)
    (hin : (nth s.spill.devs dev).state = 0) (hfull : s.full = true) :
    doSpillDeviceFail dev cause s = (s.dropDevice dev cause).afterFill := by
  have hcond : (s.spill.done && (nth s.spill.devs dev).state == 0 && s.full) = true := by simp [hdone, hin, hfull]
  exact if_pos hcond

/-- What several devices that leave change: exactly their states, and the fault where there is one. -/
theorem State.foldl_dropDevice (l : List Nat) : ∀ s : State, (∀ i ∈ l, i < s.spill.devs.length) →
    (l.foldl (fun s i => s.dropDevice i 4) s).spill =
      { s.spill with devs := (l.foldl (fun s i => s.dropDevice i 4) s).spill.devs
                     fault := s.spill.fault || !l.isEmpty } ∧
    ∀ i, nth (l.foldl (fun s i => s.dropDevice i 4) s).spill.devs i =
      if i ∈ l then { nth s.spill.devs i with state := 1 } else nth s.spill.devs i := by
  induction l with
  | nil => exact fun s _ => ⟨by simp, fun i => rfl⟩
  | cons d l ih =>
    intro s hlen
    have hd := hlen d List.mem_cons_self
    have hspill := s.dropDevice_spill d 4
    obtain ⟨hrest, hdevs⟩ := ih (s.dropDevice d 4) fun i hi => by
      rw [hspill]
      simpa using hlen i (List.mem_cons_of_mem _ hi)
    refine ⟨?_, fun i => ?_⟩
    · rw [List.foldl_cons, hrest, hspill]
      simp
    · rw [List.foldl_cons, hdevs, hspill]
      by_cases hid : i = d
      · rw [hid, nth_modify_same hd, if_pos List.mem_cons_self]
        split <;> rfl
      · rw [nth_modify_ne _ hid]
        simp only [List.mem_cons, hid, false_or]

/-! ### Roll-ups (R355, R357) -/

theorem State.finding_gmp (s : State) (how : Nat) (sel : Nat → Packet → Bool) (f : LineFinding) :
    s.cw.gmp ≤ (s.finding how sel f).cw.gmp := by
  have hedit (c : Causeway) (ring : Bool) (on : Packet → Bool) (g : Packet → Packet) : (c.edit ring on g).gmp = c.gmp := by
    unfold Causeway.edit
    split <;> rfl
  have hlost (line : Nat) : s.cw.gmp ≤ (s.lostLine line how).cw.gmp := by
    unfold State.lostLine
    refine Nat.le_trans ?_ (State.writeError_writesOn _ _ _ _ _ _).1
    exact Nat.le_refl _
  have hspill (on : Packet → Bool) (k : Nat) : s.cw.gmp ≤ (s.lostInSpill how on k).cw.gmp := by
    unfold State.lostInSpill
    dsimp only
    split
    · refine Nat.le_trans ?_ (State.writeError_writesOn _ _ _ _ _ _).1
      exact Nat.le_of_eq (hedit s.cw false on (·.unread false k)).symm
    · exact Nat.le_refl _
  have hwrong (t : State) (line : Nat) : t.cw.gmp ≤ (t.wrongLine line).cw.gmp := by
    unfold State.wrongLine
    exact Nat.le_of_eq (hedit t.cw false _ _).symm
  unfold State.finding
  split
  · exact Nat.le_refl _
  · split <;> exact Nat.le_refl _
  · split
    · exact Nat.le_refl _
    · exact hwrong (s.corrected _) _
  · split
    · exact Nat.le_refl _
    · exact hlost _
  · exact Nat.le_refl _
  · exact hspill _ _
  · exact Nat.le_of_eq (hedit s.cw false _ _).symm
  · exact Nat.le_of_eq (hedit s.cw true _ _).symm
  · exact Nat.le_of_eq (hedit s.cw true _ _).symm
  · exact Nat.le_refl _
  · exact Nat.le_refl _

theorem State.findings_gmp (how : Nat) (sel : Nat → Packet → Bool) (fs : List LineFinding) :
    ∀ s : State, s.cw.gmp ≤ (s.findings how sel fs).cw.gmp := by
  induction fs with
  | nil => exact fun _ => Nat.le_refl _
  | cons f fs ih => exact fun s => Nat.le_trans (s.finding_gmp how sel f) (ih _)

/-- The packet of a global milepost is out of every store (R355, R357). -/
def Causeway.rolledUp (c : Causeway) (g : Nat) : Prop := (∀ q ∈ c.closed, q.gmp = g → q.lost = 1 ∧ q.inCw = false) ∧ g ≤ c.gmp

theorem Causeway.rolledUp.kept {c d : Causeway} {g : Nat} (h : c.rolledUp g) (k : c.writesOn d) : d.rolledUp g := by
  obtain ⟨hgone, hle⟩ := h
  obtain ⟨hgmp, -, hnew⟩ := k
  refine ⟨fun q hq hg => ?_, Nat.le_trans hle hgmp⟩
  rcases hnew q hq with ⟨p, hp, hages, hout⟩ | hlater
  · have hpg : p.gmp = g := by rw [← hg, hages]
    obtain ⟨hlost, hin⟩ := hgone p hp hpg
    rw [hout hin]
    exact ⟨hlost, hin⟩
  · omega

/-- A packet taken out of every store (R355). -/
def Packet.rollOut (g : Nat) (q : Packet) : Packet := if q.gmp == g then { q with inCw := false, lost := 1 } else q

theorem Causeway.rolledUp_out (c : Causeway) (seq : Nat) {g : Nat} (hg : g ≤ c.gmp) :
    (({ c with closed := c.closed.map (Packet.rollOut g) } : Causeway).carryOver seq).rolledUp g := by
  have hout : ∀ q ∈ c.closed.map (Packet.rollOut g), q.gmp = g → q.lost = 1 ∧ q.inCw = false := by
    intro q hq hqg
    obtain ⟨p, -, rfl⟩ := List.mem_map.mp hq
    by_cases hp : p.gmp = g
    · rw [Packet.rollOut, if_pos (by simpa using hp)]
      exact ⟨rfl, rfl⟩
    · rw [Packet.rollOut, if_neg (by simpa using hp)] at hqg
      exact absurd hqg hp
  unfold Causeway.carryOver
  split
  · exact ⟨hout, hg⟩
  · refine ⟨fun q hq hqg => ?_, hg⟩
    obtain ⟨p, hp, rfl⟩ := List.mem_map.mp hq
    split at hqg
    next hmove =>
      rw [if_pos hmove]
      exact hout p hp hqg
    next hstay =>
      rw [if_neg hstay]
      exact hout p hp hqg

section
variable {s : State}

/-- The state after the roll-up unit's read of a packet, whose findings are a free value (R325). -/
def State.rollFound (s : State) (q : Packet) : State :=
  ({ s with free := s.free + 1 } : State).findings 1 (fun _ p => p.gmp == q.gmp) (Config.freeFindings s.free)

/-- The packet rolled in and taken out of every store, before what closes is written. -/
def State.rolledIn (s : State) (p : Packet) : State :=
  { s with
    spill := { s.spill with accs := (rollIn s.spill.accs p).1 }
    cw := ({ s.cw with closed := s.cw.closed.map (Packet.rollOut p.gmp) } : Causeway).carryOver (p.page.getD 0) }

/-- What a roll-up of class 0 raises (R355). -/
def State.alarms (s : State) (p : Packet) : State :=
  if p.klass = 0 && !s.spill.alarm then ({ s with spill := { s.spill with alarm := true } } : State).storeFull 1 else s

theorem State.alarms_refills (s : State) (p : Packet) : s.refills (s.alarms p) := by
  unfold State.alarms
  split
  · have hon : s.refills { s with spill := { s.spill with alarm := true } } := ⟨rfl, Causeway.writesOn.refl _⟩
    exact hon.trans (State.storeFull_refills _ 1)
  · exact State.refills.refl s

theorem State.freePages_accs (s : State) (ds : List Desc) : (s.freePages ds).spill.accs = s.spill.accs := by
  simp only [State.freePages, Spill.erased]
  rw [Spill.execute_port]

theorem doSpillRollup_eq {k : Nat} {q : Packet} (hfull : s.full = true) (hdone : s.spill.done = true)
    (hpick : s.rollPick = some (k, q)) : ∃ reads,
    doSpillRollup s =
      (((((((s.rollFound q).rolledIn ((s.rollFound q).rollRead q)).writeRolls
        (rollIn (s.rollFound q).spill.accs ((s.rollFound q).rollRead q)).2).freePages reads).alarms
          ((s.rollFound q).rollRead q)).afterFill).settle) := by
  have hcond : (s.full && s.spill.done) = true := by rw [hfull, hdone]; rfl
  rw [doSpillRollup, if_pos hcond]
  simp only [hpick]
  exact ⟨_, rfl⟩

theorem State.rollRead_gmp (s : State) (p : Packet) : (s.rollRead p).gmp = p.gmp := by
  unfold State.rollRead
  rcases hfind : s.cw.closed.find? (·.gmp == p.gmp) with _ | x
  · rw [hfind]
    rfl
  · rw [hfind]
    simpa using List.find?_some hfind

theorem doSpillRollup_frame (s : State) : OnlyWrites [.free, .cw, .spill, .way, .age] s (doSpillRollup s) :=
  ⟨by simp, fun p hp => by cases p <;> simp_all [Part.same]⟩

/-- After a roll-up its packet is gone, and it is in the accumulators (R355, R357). -/
theorem doSpillRollup_rolled {k : Nat} {q : Packet} (hfull : s.full = true) (hdone : s.spill.done = true)
    (hpick : s.rollPick = some (k, q)) (hgmp : q.gmp ≤ s.cw.gmp) :
    (doSpillRollup s).spill.accs = (rollIn s.spill.accs ((s.rollFound q).rollRead q)).1 ∧ (doSpillRollup s).cw.rolledUp q.gmp := by
  obtain ⟨reads, heq⟩ := doSpillRollup_eq hfull hdone hpick
  have hspill : (s.rollFound q).spill = s.spill := by simp [State.rollFound]
  have hread := (s.rollFound q).rollRead_gmp q
  have hle : q.gmp ≤ (s.rollFound q).cw.gmp :=
    Nat.le_trans hgmp
      (State.findings_gmp 1 (fun _ p => p.gmp == q.gmp) (Config.freeFindings s.free) { s with free := s.free + 1 })
  rw [heq]
  generalize (s.rollFound q).rollRead q = p at hread ⊢
  have hout : ((s.rollFound q).rolledIn p).cw.rolledUp q.gmp := by
    rw [← hread]
    exact Causeway.rolledUp_out _ _ (by rw [hread]; exact hle)
  generalize hrolled : (s.rollFound q).rolledIn p = t at hout ⊢
  have haccs : t.spill.accs = (rollIn s.spill.accs p).1 := by rw [← hrolled, ← hspill]; rfl
  generalize (rollIn (s.rollFound q).spill.accs p).2 = out
  obtain ⟨hfill, hfillcw⟩ := ((State.alarms_refills ((t.writeRolls out).freePages reads) p).trans (State.afterFill_refills _))
  refine ⟨?_, ?_⟩
  · have hsettle (u : State) : u.settle.spill = u.spill := by simp
    have hrolls : (t.writeRolls out).spill = t.spill := by simp
    rw [hsettle, hfill]
    exact ((State.freePages_accs _ reads).trans (by rw [hrolls])).trans haccs
  · have hfree : (t.writeRolls out).cw.writesOn ((t.writeRolls out).freePages reads).cw := Causeway.writesOn.refl _
    exact hout.kept ((((State.writeRolls_writesOn t out).trans hfree).trans hfillcw).trans (State.settle_writesOn _))

end

/-! ### Discovery (R361, R365, R366) -/

section
variable {s : State} {devs : List SpillDev}

/-- The devices at the selects fitted as discovery finds them (R361). -/
def State.foundDevs (s : State) (devs : List SpillDev) : List SpillUnit :=
  (List.range 4).map fun i => if i < s.spillFitted then (nth s.spill.devs i).found (nth devs i) s.splCk else SpillUnit.none_

/-- The devices fitted that do not pass. -/
def State.failedDevs (s : State) (devs : List SpillDev) : List Nat :=
  (List.range s.spillFitted).filter fun i => !passes (nth devs i)

/-- Spill once the devices are found, before any is removed. -/
def State.discovering (s : State) (devs : List SpillDev) : State :=
  { s with spill := { s.spill with devs := s.foundDevs devs, done := true, drive := !s.running || s.full } }

theorem State.findDevices_eq (s : State) (devs : List SpillDev) :
    s.findDevices devs =
      { (s.failedDevs devs).foldl (fun s i => s.dropDevice i 4) (s.discovering devs) with
        spill := { ((s.failedDevs devs).foldl (fun s i => s.dropDevice i 4) (s.discovering devs)).spill with
          density := ((s.failedDevs devs).foldl (fun s i => s.dropDevice i 4) (s.discovering devs)).spill.leastDensity } } := rfl

theorem State.spillFitted_le (s : State) : s.spillFitted ≤ 4 := by
  unfold State.spillFitted
  split
  · assumption
  · split <;> omega

/-- What discovery leaves of spill and of each device. -/
theorem State.findDevices_spill (s : State) (devs : List SpillDev) :
    (s.findDevices devs).spill.done = true ∧
    (s.findDevices devs).spill.density = (s.findDevices devs).spill.leastDensity ∧
    (s.findDevices devs).spill.fault = (s.spill.fault || !(s.failedDevs devs).isEmpty) ∧
    ∀ i, i < 4 → nth (s.findDevices devs).spill.devs i =
      if i < s.spillFitted then
        (if passes (nth devs i) then (nth s.spill.devs i).found (nth devs i) s.splCk
          else { (nth s.spill.devs i).found (nth devs i) s.splCk with state := 1 })
      else SpillUnit.none_ := by
  have hfour := s.spillFitted_le
  have hlen : ∀ i ∈ s.failedDevs devs, i < (s.discovering devs).spill.devs.length := by
    intro i hi
    have hfit := List.mem_range.mp (List.mem_filter.mp hi).1
    simp only [State.discovering, State.foundDevs, List.length_map, List.length_range]
    omega
  obtain ⟨hspill, hdevs⟩ := State.foldl_dropDevice (s.failedDevs devs) (s.discovering devs) hlen
  rw [State.findDevices_eq]
  refine ⟨?_, rfl, ?_, fun i hi => ?_⟩
  · dsimp only
    rw [hspill]
    rfl
  · dsimp only
    rw [hspill]
    rfl
  · dsimp only
    rw [hdevs]
    have hfound : nth (s.discovering devs).spill.devs i =
        if i < s.spillFitted then (nth s.spill.devs i).found (nth devs i) s.splCk else SpillUnit.none_ :=
      nth_map_range hi fun i => if i < s.spillFitted then (nth s.spill.devs i).found (nth devs i) s.splCk else SpillUnit.none_
    have hfailed : i ∈ s.failedDevs devs ↔ i < s.spillFitted ∧ passes (nth devs i) = false := by
      simp [State.failedDevs]
    rw [hfound]
    by_cases hfit : i < s.spillFitted
    · rcases hpass : passes (nth devs i) with _ | _
      · rw [if_pos (hfailed.mpr ⟨hfit, hpass⟩), if_pos hfit, if_pos hfit]
        rfl
      · rw [if_neg (fun h => by simp [hpass] at hfailed; exact hfailed h), if_pos hfit, if_pos hfit]
        rfl
    · rw [if_neg fun h => hfit (hfailed.mp h).1, if_neg hfit, if_neg hfit]

/-- The pages of a journal that a start takes (R365). -/
def State.journalFound (s : State) (journal : List JournalEntry) : List (Page × Option (List Word)) :=
  if s.spill.stripe.isEmpty then [] else visiblePages none journal

/-- The density follows from the devices alone (R361). -/
theorem Spill.recover_leastDensity (sp : Spill) (vis : List Page) (check : List Word) (stages : List Bool) :
    ({ sp.recover vis check with stages := stages } : Spill).leastDensity = sp.leastDensity := rfl

theorem doSpillDiscoveryDone_spill (journal : List JournalEntry) (hacc : s.straps.accepted = true) (hnew : s.spill.done = false) :
    (doSpillDiscoveryDone devs journal s).spill =
      { (s.findDevices devs).spill.recover (((s.findDevices devs).journalFound journal).map (·.1))
          (startCheckpoint ((s.findDevices devs).journalFound journal)) with
        stages := (doSpillDiscoveryDone devs journal s).spill.stages } := by
  have hcond : (s.straps.accepted && !s.spill.done) = true := by rw [hacc, hnew]; rfl
  rw [doSpillDiscoveryDone, if_pos hcond]
  dsimp only
  split
  · rfl
  · rfl

theorem doSpillDiscoveryDone_frame (devs : List SpillDev) (journal : List JournalEntry) (s : State) :
    OnlyWrites [.cw, .spill, .way] s (doSpillDiscoveryDone devs journal s) :=
  ⟨by simp, fun p hp => by cases p <;> simp_all [Part.same]⟩

end

theorem passes_false {d : SpillDev} (h : d.answers = false ∨ d.octal = false ∨ d.density < 16384) : passes d = false := by
  rcases h with hdead | hplain | hsmall
  · simp [passes, hdead]
  · simp [passes, hplain]
  · simp [passes, hsmall]

/-- Discovery: each device found, failed or not fitted, and the pages of the journal (R361, R365, R366). -/
theorem doSpillDiscoveryDone_found {s : State} (devs : List SpillDev) (journal : List JournalEntry) (hacc : s.straps.accepted = true)
    (hnew : s.spill.done = false) :
    (doSpillDiscoveryDone devs journal s).spill.done = true ∧
    (∀ i, i < 4 → i < s.spillFitted → passes (nth devs i) = true →
      (nth (doSpillDiscoveryDone devs journal s).spill.devs i).state = 0 ∧
      (nth (doSpillDiscoveryDone devs journal s).spill.devs i).density = (nth devs i).density) ∧
    (∀ i, i < 4 → i < s.spillFitted →
      ((nth devs i).answers = false ∨ (nth devs i).octal = false ∨ (nth devs i).density < 16384) →
      (nth (doSpillDiscoveryDone devs journal s).spill.devs i).state = 1 ∧
      (doSpillDiscoveryDone devs journal s).spill.fault = true) ∧
    (∀ i, i < 4 → s.spillFitted ≤ i → (nth (doSpillDiscoveryDone devs journal s).spill.devs i).state = 2) ∧
    ((∃ i, i < 4 ∧ i < s.spillFitted ∧ passes (nth devs i) = true) →
      (doSpillDiscoveryDone devs journal s).spill.pages.map (·.seq) = (visiblePages none journal).map (·.1.seq)) ∧
    (doSpillDiscoveryDone devs journal s).spill.density = (doSpillDiscoveryDone devs journal s).spill.leastDensity ∧
    OnlyWrites [.cw, .spill, .way] s (doSpillDiscoveryDone devs journal s) := by
  obtain ⟨hdone, hdensity, hfault, hdevs⟩ := s.findDevices_spill devs
  have hframe := doSpillDiscoveryDone_frame devs journal s
  have hspill := doSpillDiscoveryDone_spill (devs := devs) journal hacc hnew
  generalize doSpillDiscoveryDone devs journal s = t at hspill hframe ⊢
  generalize (s.findDevices devs) = f at hdone hdensity hfault hdevs hspill
  have hfields : t.spill.done = f.spill.done ∧ t.spill.devs = f.spill.devs ∧ t.spill.fault = f.spill.fault ∧
      t.spill.density = f.spill.density ∧ t.spill.leastDensity = f.spill.leastDensity ∧
      t.spill.pages.map (·.seq) = (f.journalFound journal).map (·.1.seq) := by
    rw [hspill]
    refine ⟨rfl, rfl, rfl, rfl, rfl, ?_⟩
    change List.map (fun x : Page => x.seq) (List.map f.spill.kept (List.map (·.1) (f.journalFound journal))) = _
    rw [List.map_map, List.map_map]
    rfl
  obtain ⟨hdone', hdevs', hfault', hdensity', hleast', hpages'⟩ := hfields
  rw [hdone', hdevs', hfault', hdensity', hleast', hpages']
  refine ⟨hdone, fun i hi hfit hpass => ?_, fun i hi hfit hbad => ⟨?_, ?_⟩, fun i hi hfit => ?_, fun hsome => ?_, hdensity, hframe⟩
  · rw [hdevs i hi, if_pos hfit, if_pos hpass]
    exact ⟨rfl, rfl⟩
  · rw [hdevs i hi, if_pos hfit, passes_false hbad]
    rfl
  · have hmem : i ∈ s.failedDevs devs := by simp [State.failedDevs, hfit, passes_false hbad]
    have hnonempty : (s.failedDevs devs).isEmpty = false := by
      rw [List.isEmpty_eq_false_iff]
      exact List.ne_nil_of_mem hmem
    rw [hfault, hnonempty]
    simp
  · rw [hdevs i hi, if_neg (by omega)]
    rfl
  · obtain ⟨i, hi, hfit, hpass⟩ := hsome
    have hmem : i ∈ f.spill.stripe := by
      refine List.mem_filter.mpr ⟨List.mem_range.mpr hi, ?_⟩
      rw [hdevs i hi, if_pos hfit, if_pos hpass]
      rfl
    have hstripe : f.spill.stripe.isEmpty = false := by
      rw [List.isEmpty_eq_false_iff]
      exact List.ne_nil_of_mem hmem
    rw [State.journalFound, hstripe]
    rfl

/-- Without findings a page commit commits every packet whose last line the page holds, and writes no other part. -/
theorem State.filledAfter_nil {s : State} {stream : Nat} {fs : List LineFinding} {b : Bool} (hnil : fs = []) :
    (∀ p ∈ (s.pageFill stream).done, ∃ q ∈ ((s.findings 1 noPacket fs).filledAfter stream b).cw.closed,
      q.gmp = p.gmp ∧ q.page = some ((s.findings 1 noPacket fs).newPage stream).seq) ∧
    OnlyWrites [.cw, .spill, .way] s ((s.findings 1 noPacket fs).filledAfter stream b) := by
  have hsame : s.findings 1 noPacket fs = s := by rw [hnil]; rfl
  rw [hsame]
  refine ⟨fun p hp => ?_, ?_⟩
  · obtain ⟨q, hq, hgmp, hpage⟩ := State.pagedCw_committed hp
    obtain ⟨-, -, hstay, -⟩ := State.afterFill_refills (s.committed stream b)
    obtain ⟨r, hr, hages, -⟩ := hstay q hq
    refine ⟨r, hr, ?_, ?_⟩
    · rw [hages]
      exact hgmp
    · rw [hages]
      exact hpage
  · exact ((onlyWrites_cw_spill s _ _).trans (State.onlyWrites_afterFill (s.committed stream b))).mono (by simp)

/-- Settles O43: every command is an equation for spill and for the closed packets; what is written after it leaves both. -/
theorem spillWorks : Obligations.SpillWorks := by
  unfold Obligations.SpillWorks
  refine ⟨fun stream fs s hruns hwaits => ?_, fun dev cause s hmin hmax hdev hdone hin hfull => ⟨_, if_pos ⟨hmin, hmax⟩, ?_⟩,
    fun s k p hfull hdone hpick hgmp => ⟨_, rfl, fun hfree => ?_, ?_, doSpillRollup_frame s⟩,
    fun devs journal s hacc hnew => ⟨_, rfl, ?_⟩⟩
  · have hframe := doSpillPageCommit_frame stream.val fs s
    obtain ⟨b, heq⟩ := doSpillPageCommit_eq (fs := fs) hruns hwaits
    have hfound : (s.findings 1 noPacket fs).spill = s.spill := by simp
    have hpage : ((s.findings 1 noPacket fs).newPage stream.val).page = s.spill.next := congrArg Spill.next hfound
    refine ⟨_, (s.findings 1 noPacket fs).newPage stream.val, rfl, ?_⟩
    rw [heq] at hframe ⊢
    obtain ⟨hpages, hseq, hused, hdescs, hsel⟩ := State.programmed_filled (s.findings 1 noPacket fs) stream.val b
    rw [hpages, hseq, hused, hdescs, hsel, hfound]
    refine ⟨rfl, congrArg (· + 1) (congrArg Spill.seq hfound), rfl, rfl, hpage, ?_, ?_, rfl, fun hnil => ?_, hframe⟩
    · rw [hpage]
      exact List.mem_append_right _ List.mem_cons_self
    · rw [hpage]
    · exact State.filledAfter_nil hnil
  · have hframe : OnlyWrites [.cw, .spill, .way] s (s.dropDevice dev.val cause.val).afterFill :=
      ((State.onlyWrites_dropDevice s _ _).trans (State.onlyWrites_afterFill _)).mono (by simp)
    obtain ⟨hspill, -⟩ := State.afterFill_refills (s.dropDevice dev.val cause.val)
    rw [doSpillDeviceFail_eq cause.val hdone hin hfull, hspill, State.dropDevice_spill]
    refine ⟨?_, rfl, rfl, rfl, fun i hi => nth_modify_ne _ hi _, hframe⟩
    rw [nth_modify_same hdev]
  · rw [(doSpillRollup_rolled hfull hdone hpick hgmp).1]
    have hnil : s.rollFound p = { s with free := s.free + 1 } := by
      rw [State.rollFound, hfree]
      rfl
    rw [hnil]
    rfl
  · exact (doSpillRollup_rolled hfull hdone hpick hgmp).2.1
  · exact doSpillDiscoveryDone_found devs journal hacc hnew

end Sys2Proof.Machine
end

section
/-! PROOFS. The image port: bus release, image hold, load attempts and prepared islands (O44). -/

namespace Sys2Proof.Machine

/-! ### Bus release and image hold -/

theorem doBusRelease_idle (dt : Nat) (s : State) (hload : s.port.load = none) :
    OnlyWrites [.time, .port] s (doBusRelease dt s) ∧
    (doBusRelease dt s).port = { (if s.port.drive then (s.port.toPowerOn).float else s.port) with
      rel := false, riseAt := none } := by
  have hnone : ({ (if (s.advance dt).port.drive then ((s.advance dt).port.toPowerOn).float else (s.advance dt).port) with
      rel := false, riseAt := none } : ImagePort).load = none := by
    simp only [State.advance_keeps]
    split
    · simpa [ImagePort.float, ImagePort.leaveCont, ImagePort.toPowerOn] using hload
    · exact hload
  have heq : doBusRelease dt s = { s.advance dt with
      port := { (if s.port.drive then (s.port.toPowerOn).float else s.port) with rel := false, riseAt := none } } := by
    unfold doBusRelease
    dsimp only
    split
    · rename_i l hl
      exact absurd (hl.symm.trans hnone) (by simp)
    · simp only [State.advance_keeps]
  rw [heq]
  exact ⟨⟨by simp, fun p hp => by cases p <;> simp_all [Part.same]⟩, rfl⟩

/-- The state once IMGREL_N is low, before a load that still reads is abandoned (R95). -/
def State.busReleased (s : State) (dt : Nat) : State :=
  { s.advance dt with
    port := { (if s.port.drive then (s.port.toPowerOn).float else s.port) with rel := false, riseAt := none } }

theorem State.busReleased_port (s : State) (dt : Nat) :
    (s.busReleased dt).port.load = s.port.load ∧ (s.busReleased dt).port.inForce = s.port.inForce ∧
    (s.busReleased dt).port.rel = false := by
  simp only [State.busReleased]
  split <;> simp [ImagePort.float, ImagePort.leaveCont, ImagePort.toPowerOn]

theorem State.busReleased_frame (s : State) (dt : Nat) : OnlyWrites [.time, .port] s (s.busReleased dt) :=
  ⟨by simp [State.busReleased], fun p hp => by cases p <;> simp_all [Part.same, State.busReleased]⟩

theorem doBusRelease_reading {dt : Nat} {s : State} {l : Load} (hload : s.port.load = some l) (hstaged : l.staged = none) :
    doBusRelease dt s = (s.busReleased dt).abandonLoad 0x14 := by
  have hl : (s.busReleased dt).port.load = some l := (s.busReleased_port dt).1.trans hload
  have hbody : doBusRelease dt s = (match (s.busReleased dt).port.load with
      | some l => if l.staged.isNone then (s.busReleased dt).abandonLoad 0x14 else s.busReleased dt
      | none => s.busReleased dt) := rfl
  simp only [hbody, hl, hstaged, Option.isNone_none, if_true]

/-- A load that ends with no image in force: image hold, with MODE0 and MODE1 high (R83). -/
theorem State.endLoad_hold {s : State} (hin : s.port.inForce = none) (l : Load) (result : Nat) :
    s.endLoad l result = { s with
      port := { s.port.leaveCont with load := none, lastEnd := s.now, hold := true }
      power := { s.power with mode0 := true, mode1 := true } } := by
  simp [State.endLoad, hin]

theorem onlyWrites_abandonLoad {s : State} {l : Load} (hload : s.port.load = some l) (hstaged : l.staged = none)
    (hin : s.port.inForce = none) (result : Nat) :
    OnlyWrites [.power, .port, .cw, .way] s (s.abandonLoad result) ∧ (s.abandonLoad result).port.load = none ∧
    (s.abandonLoad result).port.hold = true ∧ (s.abandonLoad result).power.mode0 = true ∧
    (s.abandonLoad result).power.mode1 = true ∧ (s.abandonLoad result).port.rel = s.port.rel := by
  have hrel : ∀ p : ImagePort, p.leaveCont.rel = p.rel := fun p => by
    simp only [ImagePort.leaveCont]
    split <;> rfl
  have heq : s.abandonLoad result = (s.loadRecord result (s.loadSource l) l.trigger 0 none 0).endLoad l result := by
    simp [State.abandonLoad, hload, hstaged]
  rw [heq, State.endLoad_hold (by simpa using hin)]
  exact ⟨⟨by simp, fun p hp => by cases p <;> simp_all [Part.same]⟩, rfl, rfl, rfl, rfl, by simp [hrel]⟩

theorem doImgrelRise_low {dt : Nat} {s : State} (hrel : s.port.rel = false) :
    doImgrelRise dt s = { s.advance dt with port := { s.port with rel := true, riseAt := some (s.now + dt) } } := by
  simp [doImgrelRise, hrel, State.advance_now]

theorem doImageHoldRetry_due {dt : Nat} {s : State} (hhold : s.port.hold = true) (hload : s.port.load = none)
    (hdue : s.port.riseAt = none ∧ s.port.rel = true ∧ s.port.lastEnd + secPs 10 ≤ s.now + dt ∨
      ∃ r, s.port.riseAt = some r ∧ r + msPs 1 ≤ s.now + dt) :
    doImageHoldRetry dt s = { s.advance dt with port := { s.port with load := some (newLoad 3 none), riseAt := none } } := by
  rcases hdue with ⟨hrise, hrel, hend⟩ | ⟨r, hrise, hr⟩
  · simp [doImageHoldRetry, hhold, hload, hrise, hrel, hend, State.advance_now]
  · simp [doImageHoldRetry, hhold, hload, hrise, hr, State.advance_now]

/-! ### Load attempts -/

/-- A device whose image passes R85 answers, describes itself and is large enough (R92). -/
theorem devUsable_of_good {s : State} {dev : FlashDev} {im : Image} (hgood : s.validate dev = .good im) :
    devUsable dev = true := by
  by_cases hanswers : dev.answers = true
  · by_cases hsfdp : (!dev.sfdp || decide (dev.density < 16384)) = true
    · simp only [State.validate, hanswers, hsfdp, Bool.not_true, Bool.false_eq_true, if_false, if_true] at hgood
      nomatch hgood
    · simp only [Bool.or_eq_true, Bool.not_eq_true', decide_eq_true_eq, not_or, Bool.not_eq_false, Nat.not_lt] at hsfdp
      simp [devUsable, hanswers, hsfdp]
  · simp only [State.validate, hanswers, Bool.not_false, if_true] at hgood
    nomatch hgood

/-- The state once a source has been read (R92). -/
def State.sourceRead (s : State) (dt : Nat) (dev : FlashDev) : State :=
  { s.advance dt with port := s.port.afterRead s.imgCk dev }

/-- A load attempt that reads its source (R82, R92). -/
theorem doLoadAttempt_reads {dt src : Nat} {dev : FlashDev} {s : State} {l : Load} (hload : s.port.load = some l)
    (hstaged : l.staged = none) (haccepted : s.straps.accepted = true) (hsource : s.loadSource l = src)
    (hdrive : (s.advance dt).mayDrive = true) :
    doLoadAttempt dt src dev s = (match (s.advance dt).validate dev with
      | .bad result sect h detail => (s.sourceRead dt dev).sourceFailed l result sect h detail
      | .good im =>
        let t := { s.sourceRead dt dev with port :=
          { (s.sourceRead dt dev).port with load := some { l with src := src, staged := some im, ready := [] } } }
        match t.port.inForce with
        | some old => if rawSect im.raw 4 = rawSect old.raw 4 then t else t.stageRoads im
        | none => t) := by
  have hload' : (s.advance dt).port.load = some l := by simpa using hload
  have hcond : (l.staged.isNone && (s.advance dt).straps.accepted && (s.advance dt).loadSource l == src &&
      (s.advance dt).mayDrive) = true := by
    have : (s.advance dt).loadSource l = src := hsource
    simp [hstaged, haccepted, this, hdrive]
  simp only [doLoadAttempt, hload']
  rw [if_pos hcond]
  rfl

/-- The state once a source's image is staged, the roads as they were (R85, R89). -/
def State.imageStaged (s : State) (dt src : Nat) (dev : FlashDev) (l : Load) (im : Image) : State :=
  { s.sourceRead dt dev with port :=
    { (s.sourceRead dt dev).port with load := some { l with src := src, staged := some im, ready := [] } } }

theorem doLoadAttempt_good {dt src : Nat} {dev : FlashDev} {s : State} {l : Load} {im : Image}
    (hload : s.port.load = some l) (hstaged : l.staged = none) (haccepted : s.straps.accepted = true)
    (hsource : s.loadSource l = src) (hdrive : (s.advance dt).mayDrive = true)
    (hgood : (s.advance dt).validate dev = .good im) :
    OnlyWrites [.roads] (s.imageStaged dt src dev l im) (doLoadAttempt dt src dev s) := by
  rw [doLoadAttempt_reads hload hstaged haccepted hsource hdrive, hgood]
  change OnlyWrites [.roads] _ (match (s.imageStaged dt src dev l im).port.inForce with
        | some old => if rawSect im.raw 4 = rawSect old.raw 4 then s.imageStaged dt src dev l im
            else (s.imageStaged dt src dev l im).stageRoads im
        | none => s.imageStaged dt src dev l im)
  split
  · split
    · exact .refl _ _
    · exact ⟨by simp, fun p hp => by cases p <;> simp_all [Part.same]⟩
  · exact .refl _ _

theorem onlyWrites_imageStaged (s : State) (dt src : Nat) (dev : FlashDev) (l : Load) (im : Image) :
    OnlyWrites [.time, .port] s (s.imageStaged dt src dev l im) :=
  ⟨by simp [State.imageStaged, State.sourceRead],
    fun p hp => by cases p <;> simp_all [Part.same, State.imageStaged, State.sourceRead]⟩

theorem onlyWrites_sourceRead (s : State) (dt : Nat) (dev : FlashDev) : OnlyWrites [.time, .port] s (s.sourceRead dt dev) :=
  ⟨by simp [State.sourceRead], fun p hp => by cases p <;> simp_all [Part.same, State.sourceRead]⟩

/-- A source that fails while the order holds another: its record, and the next one is to be read (R82, R94, R99). -/
theorem State.sourceFailed_next {s : State} {l : Load} (hnext : l.tried + 1 < s.sourceOrder.length) (result sect : Nat)
    (h : Option Header) (detail : Nat) :
    s.sourceFailed l result sect h detail = { s.loadRecord result (s.loadSource l) l.trigger sect h detail with
      port := { s.port.leaveCont with load := some { l with tried := l.tried + 1, staged := none, ready := [] } } } := by
  have horder : (s.loadRecord result (s.loadSource l) l.trigger sect h detail).sourceOrder = s.sourceOrder := by
    simp [State.sourceOrder, State.strap]
  simp only [State.sourceFailed, horder, if_pos hnext, State.loadRecord_keeps]

theorem State.sourceFailed_next_spec {s : State} {l : Load} (hnext : l.tried + 1 < s.sourceOrder.length) (result sect : Nat)
    (h : Option Header) (detail : Nat) :
    (s.sourceFailed l result sect h detail).port.load =
        some { l with tried := l.tried + 1, staged := none, ready := [] } ∧
      (s.intoCauseway → ∃ q, (s.sourceFailed l result sect h detail).cw.closed.getLast? = some q ∧ q.tag = recTag 0x11 ∧
        nth q.words 0 = word (at_ result 24 + at_ (s.loadSource l) 16 + at_ l.trigger 8 + sect)) ∧
      (s.sourceFailed l result sect h detail).port.inForce = s.port.inForce ∧
      OnlyWrites [.port, .cw, .way] s (s.sourceFailed l result sect h detail) := by
  rw [State.sourceFailed_next hnext]
  refine ⟨rfl, fun hinto => ?_, ?_, by simp, fun p hp => by cases p <;> simp_all [Part.same]⟩
  · obtain ⟨q, hq, htag, hwords⟩ := State.writeRec_closedLast hinto 0x11 s.mark
      [word (at_ result 24 + at_ (s.loadSource l) 16 + at_ l.trigger 8 + sect),
       (match h with
        | some h => h.imageId
        | none => 0),
       word ((match h with
        | some h => at_ h.rollback 24 + b2n h.signed
        | none => 0) + at_ s.fuses.rollback 16 + at_ (b2n s.sealedOp) 1),
       word detail]
    exact ⟨q, hq, htag, by rw [hwords]; rfl⟩
  · simp only [ImagePort.leaveCont]
    split <;> rfl

/-! ### Prepared islands -/

/-- The islands have all reported, or not (R89). -/
theorem all_ready_iff (ready : List Nat) :
    (List.range 12).all (fun i => ready.contains i) = true ↔ ∀ i, i < 12 → i ∈ ready := by
  simp

/-- The commit mark that the steward names for a staged image (R89, R523). -/
theorem State.nameCommit_staged {s : State} {l : Load} {im : Image} (hload : s.port.load = some l)
    (hstaged : l.staged = some im) (hcommit : l.commit = none) :
    s.nameCommit = { s with port := { s.port with load := some { l with
        commit := if (∀ i, i < 12 → i ∈ l.ready) ∧
            (s.running = true ∨ s.power.memDone = true ∧ s.power.session.isSome = true) then some (s.mark + 2) else none } } } := by
  have hiff : (l.staged.isSome && l.commit.isNone && (List.range 12).all (fun i => l.ready.contains i) &&
      (s.running || (s.power.memDone && s.power.session.isSome))) = true ↔
      (∀ i, i < 12 → i ∈ l.ready) ∧ (s.running = true ∨ s.power.memDone = true ∧ s.power.session.isSome = true) := by
    rw [hstaged, hcommit]
    simp only [Option.isSome_some, Option.isNone_none, Bool.true_and, Bool.and_eq_true, Bool.or_eq_true, all_ready_iff]
  simp only [State.nameCommit, hload]
  by_cases hall : (∀ i, i < 12 → i ∈ l.ready) ∧ (s.running = true ∨ s.power.memDone = true ∧ s.power.session.isSome = true)
  · rw [if_pos (hiff.mpr hall), if_pos hall]
  · rw [if_neg (mt hiff.mp hall), if_neg hall]
    have hsame : { l with commit := none } = l := by rw [← hcommit]
    rw [hsame, ← hload]

theorem doIslandReady_staged {island : Nat} {s : State} {l : Load} {im : Image} (hload : s.port.load = some l)
    (hstaged : l.staged = some im) (hcommit : l.commit = none) (hnew : island ∉ l.ready)
    (hroads : island = 4 → s.roadsReady = true) :
    doIslandReady island true s =
      { s with port := { s.port with load := some { l with ready := l.ready ++ [island] } } }.nameCommit := by
  have hold : ¬ (island = 4 && !s.roadsReady) = true := by
    simpa using hroads
  simp only [doIslandReady, hload, hstaged, hcommit, State.imageReady]
  rw [if_neg (by simpa using hnew), if_neg (by simp), if_neg hold]

/-- Settles O44: one equation for each command of the loader, with the port's states named where two steps meet. -/
theorem imageLoads : Obligations.ImageLoads := by
  refine ⟨fun dt s hload => ?_, fun dt s l hload hstaged hin => ?_, fun dt s hrel => ?_, fun dt s hhold hload hdue => ?_,
    fun dt src dev s l im hload hstaged haccepted hsource hdrive hgood => ?_,
    fun dt src dev s l result sect h detail hload hstaged haccepted hsource hdrive hbad hnext => ?_,
    fun island s l im hload hstaged hcommit hnew hroads => ?_⟩
  · obtain ⟨hframe, hport⟩ := doBusRelease_idle dt s hload
    refine ⟨_, rfl, ?_, hframe⟩
    rw [hport]
    cases s.port.drive <;> rfl
  · obtain ⟨hl, hi, hr⟩ := s.busReleased_port dt
    obtain ⟨hframe, hnone, hhold, hmode0, hmode1, hrel⟩ :=
      onlyWrites_abandonLoad (hl.trans hload) hstaged (hi.trans hin) 0x14
    refine ⟨_, rfl, ?_⟩
    rw [doBusRelease_reading hload hstaged]
    exact ⟨hrel.trans hr, hnone, hhold, hmode0, hmode1, ((s.busReleased_frame dt).trans hframe).mono (by simp)⟩
  · refine ⟨_, rfl, ?_⟩
    rw [doImgrelRise_low hrel]
    exact ⟨rfl, by simp, fun p hp => by cases p <;> simp_all [Part.same]⟩
  · refine ⟨_, rfl, ?_⟩
    rw [doImageHoldRetry_due hhold hload hdue]
    exact ⟨rfl, by simp, fun p hp => by cases p <;> simp_all [Part.same]⟩
  · have hstep := doLoadAttempt_good hload hstaged haccepted hsource hdrive hgood
    have huse : devUsable dev = true := devUsable_of_good hgood
    have hport : (doLoadAttempt dt src.val dev s).port = (s.imageStaged dt src.val dev l im).port := hstep.2 .port (by simp)
    refine ⟨_, rfl, ?_⟩
    rw [hport]
    refine ⟨rfl, rfl, rfl, ?_, ?_, ?_, ((onlyWrites_imageStaged s dt _ dev l im).trans hstep).mono (by simp)⟩ <;>
      simp [State.imageStaged, State.sourceRead, ImagePort.afterRead, huse]
  · have hmem := State.sourceFailed_next_spec (s := s.sourceRead dt dev) (l := l) hnext result sect h detail
    obtain ⟨hl, hrec, hin, hframe⟩ := hmem
    refine ⟨_, rfl, ?_⟩
    rw [doLoadAttempt_reads hload hstaged haccepted hsource hdrive, hbad]
    refine ⟨hl, fun hinto => ?_, hin, ((onlyWrites_sourceRead s dt dev).trans hframe).mono (by simp)⟩
    rw [← hsource]
    exact hrec (State.intoCauseway_of_power hinto rfl)
  · refine ⟨_, rfl, ?_⟩
    rw [doIslandReady_staged hload hstaged hcommit hnew hroads,
      State.nameCommit_staged (l := { l with ready := l.ready ++ [island.val] }) rfl hstaged hcommit]
    exact ⟨rfl, by simp, fun p hp => by cases p <;> simp_all [Part.same]⟩

end Sys2Proof.Machine
end

section
/-! PROOFS. The periodic records (O46). -/

namespace Sys2Proof.Machine

/-- The counts of road errors stand at their start (R287). -/
def Road.uncounted (rd : Road) : Prop := rd.viol = 0 ∧ rd.hdrFail = 0 ∧ rd.missing = 0

theorem Road.newPeriod_uncounted (rd : Road) : rd.newPeriod.uncounted := ⟨rfl, rfl, rfl⟩

/-- One road's periodic record, after which its counts begin again (R287). -/
def State.roadPeriod (s : State) (r : Nat) : State := (s.roadReport r 1).onRoad r Road.newPeriod

theorem State.roadPeriod_same (s : State) (r : Nat) : ((s.roadPeriod r).road r).uncounted := by
  simp only [State.roadPeriod, State.road, State.onRoad, State.roadReport_keeps]
  by_cases hr : r < s.roads.length
  · rw [nth_modify_same hr]
    exact Road.newPeriod_uncounted _
  · rw [nth_of_le (by simpa using hr)]
    exact ⟨rfl, rfl, rfl⟩

theorem State.roadPeriod_ne (s : State) {r k : Nat} (h : r ≠ k) : (s.roadPeriod k).road r = s.road r := by
  simp only [State.roadPeriod, State.road, State.onRoad, State.roadReport_keeps]
  exact nth_modify_ne _ h _

/-- The periodic records of the roads below n (R287). -/
def State.roadPeriods (s : State) (n : Nat) : State := (List.range n).foldl State.roadPeriod s

theorem State.roadPeriods_succ (s : State) (n : Nat) : s.roadPeriods (n + 1) = (s.roadPeriods n).roadPeriod n := by
  simp [State.roadPeriods, List.range_succ]

theorem State.roadPeriods_uncounted (s : State) : ∀ n r, r < n → ((s.roadPeriods n).road r).uncounted
  | 0, _, h => absurd h (Nat.not_lt_zero _)
  | n + 1, r, h => by
    rw [State.roadPeriods_succ]
    rcases Nat.lt_succ_iff_lt_or_eq.mp h with hlt | rfl
    · rw [State.roadPeriod_ne _ (Nat.ne_of_lt hlt)]
      exact State.roadPeriods_uncounted s n r hlt
    · exact State.roadPeriod_same _ _

theorem State.roadPeriod_frame (s : State) (r : Nat) : OnlyWrites [.cw, .way, .roads] s (s.roadPeriod r) :=
  ⟨by simp [State.roadPeriod], fun p hp => by cases p <;> simp_all [Part.same, State.roadPeriod]⟩

theorem State.roadPeriod_uncorr (s : State) (r : Nat) : (s.roadPeriod r).cw.uncorr = s.cw.uncorr :=
  State.writePacket_uncorr s _

theorem State.roadPeriods_frame (s : State) : ∀ n, OnlyWrites [.cw, .way, .roads] s (s.roadPeriods n)
  | 0 => .refl _ _
  | n + 1 => by
    rw [State.roadPeriods_succ]
    exact ((State.roadPeriods_frame s n).trans (State.roadPeriod_frame _ n)).mono (by simp)

theorem State.roadPeriods_uncorr (s : State) : ∀ n, (s.roadPeriods n).cw.uncorr = s.cw.uncorr
  | 0 => rfl
  | n + 1 => by
    rw [State.roadPeriods_succ, State.roadPeriod_uncorr]
    exact State.roadPeriods_uncorr s n

theorem foldl_writeError_uncorr (l : List (Nat × Nat)) (s : State) :
    (l.foldl (fun (s : State) p => s.writeError 0x04 p.1 0 0 p.2) s).cw.uncorr = s.cw.uncorr :=
  foldl_keep (fun s : State => s.cw.uncorr) _ (fun s _ => State.writePacket_uncorr s _) l s

theorem State.cwPeriod_uncorr (s : State) : s.cwPeriod.cw.uncorr = 0 := by
  simp only [State.cwPeriod]
  exact (State.writePacket_uncorr _ _).trans (foldl_writeError_uncorr _ _)

/-- The state once the Causeway and the front end have reported (R259, R341). -/
def State.feReported (s : State) : State :=
  let t := { s with power := { s.power with reported := s.mark } }.cwPeriod
  { t.writePacket (t.feFault 1 0 t.mark) with fe := (t.writePacket (t.feFault 1 0 t.mark)).fe.newPeriod }

theorem State.feReported_frame (s : State) : OnlyWrites [.power, .cw, .way, .fe] s s.feReported :=
  ⟨by simp [State.feReported], fun p hp => by cases p <;> simp_all [Part.same, State.feReported]⟩

theorem State.feReported_power (s : State) : s.feReported.power = { s.power with reported := s.mark } := by
  simp [State.feReported]

theorem State.feReported_uncorr (s : State) : s.feReported.cw.uncorr = 0 :=
  (State.writePacket_uncorr _ _).trans (State.cwPeriod_uncorr _)

theorem timeWords_of_time {s t : State} (h : t.time = s.time) (hstraps : t.straps = s.straps) :
    t.timeWords 1 t.mark 0 = s.timeWords 1 s.mark 0 := by
  have hstate : t.gState = s.gState := by rw [State.gState, State.gState, State.strap, State.strap, hstraps, h]
  have hhold : t.holdS = s.holdS := by
    rw [State.holdS, State.holdS, State.holdover, State.holdover, State.now, State.now, State.strap, State.strap, hstraps, h]
  rw [State.timeWords, State.timeWords, hstate, hhold, State.mark, State.mark, h]

theorem State.writeTime_frame (s : State) (reason : Nat) : OnlyWrites [.cw, .way] s (s.writeTime reason) :=
  ⟨by simp, fun p hp => by cases p <;> simp_all [Part.same]⟩

/-- The state once every record but TIME-STATE is written (R341). -/
def State.roadsReported (s : State) : State := s.feReported.roadPeriods s.feReported.roadsEnabled

theorem doReportPeriod_due {s : State} (hstoring : s.storing = true) (hmark : s.mark % reportMarks = 0)
    (hnew : s.power.reported ≠ s.mark) :
    doReportPeriod s = s.roadsReported.writeTime 1 := by
  have hcond : (s.storing && s.mark % reportMarks == 0 && s.power.reported != s.mark) = true := by
    simp [hstoring, hmark, hnew]
  rw [doReportPeriod, if_pos hcond]
  rfl

theorem State.roadsReported_frame (s : State) : OnlyWrites [.power, .cw, .way, .fe, .roads] s s.roadsReported :=
  (s.feReported_frame.trans (s.feReported.roadPeriods_frame _)).mono (by simp)

theorem State.roadsReported_power (s : State) : s.roadsReported.power = { s.power with reported := s.mark } :=
  ((s.feReported.roadPeriods_frame s.feReported.roadsEnabled).2 .power (by simp)).trans s.feReported_power

theorem State.roadsReported_fe (s : State) : s.roadsReported.fe = s.feReported.fe :=
  (s.feReported.roadPeriods_frame s.feReported.roadsEnabled).2 .fe (by simp)

theorem State.roadsReported_road (s : State) {r : Nat} (hr : r < s.roadsEnabled) : (s.roadsReported.road r).uncounted := by
  have hstraps : s.feReported.straps = s.straps := s.feReported_frame.2 .straps (by simp)
  have hen : s.feReported.roadsEnabled = s.roadsEnabled := by
    rw [State.roadsEnabled, State.roadsEnabled, State.strap, State.strap, hstraps]
  exact State.roadPeriods_uncounted _ _ r (by rw [hen]; exact hr)

theorem State.roadsReported_intoCauseway {s : State} (h : s.intoCauseway) : s.roadsReported.intoCauseway :=
  have hset : ({ s with power := { s.power with reported := s.mark } } : State).intoCauseway := h
  State.intoCauseway_of_power hset s.roadsReported_power

theorem State.roadsReported_uncorr (s : State) : s.roadsReported.cw.uncorr = 0 :=
  (State.roadPeriods_uncorr _ _).trans s.feReported_uncorr

theorem State.writeTime_uncorr (s : State) (reason : Nat) : (s.writeTime reason).cw.uncorr = s.cw.uncorr :=
  State.writePacket_uncorr _ _

theorem State.feReported_fe (s : State) : s.feReported.fe.refused = 0 ∧ s.feReported.fe.clamps = List.replicate 48 0 :=
  ⟨rfl, rfl⟩

theorem State.roadsReported_time (s : State) : s.roadsReported.timeWords 1 s.roadsReported.mark 0 = s.timeWords 1 s.mark 0 :=
  timeWords_of_time (s.roadsReported_frame.2 .time (by simp)) (s.roadsReported_frame.2 .straps (by simp))

theorem State.writeTime_closedLast {s : State} (h : s.intoCauseway) (reason : Nat) :
    (s.writeTime reason).closedLast (recTag 0x18) (s.timeWords reason s.mark 0) :=
  State.writeRec_closedLast h _ _ _

/-- What the periodic records leave (R259, R287, R341, R393). -/
theorem State.roadsReported_writeTime {s : State} (hinto : s.intoCauseway) :
    (s.roadsReported.writeTime 1).power = { s.power with reported := s.mark } ∧
      (s.roadsReported.writeTime 1).fe.refused = 0 ∧ (s.roadsReported.writeTime 1).fe.clamps = List.replicate 48 0 ∧
      (s.roadsReported.writeTime 1).cw.uncorr = 0 ∧
      (∀ r, r < s.roadsEnabled → ((s.roadsReported.writeTime 1).road r).uncounted) ∧
      (s.roadsReported.writeTime 1).closedLast (recTag 0x18) (s.timeWords 1 s.mark 0) ∧
      OnlyWrites [.power, .cw, .way, .fe, .roads] s (s.roadsReported.writeTime 1) := by
  have hlast := s.roadsReported.writeTime_frame 1
  have hclosed := State.writeTime_closedLast (State.roadsReported_intoCauseway hinto) 1
  rw [s.roadsReported_time] at hclosed
  have hframe := (s.roadsReported_frame.trans hlast).mono (qs := [.power, .cw, .way, .fe, .roads]) (by simp)
  rw [State.writeTime_uncorr, s.roadsReported_uncorr]
  simp only [State.writeTime_keeps, s.roadsReported_power, s.roadsReported_fe, s.feReported_fe]
  refine ⟨trivial, trivial, trivial, trivial, fun r hr => ?_, hclosed, hframe⟩
  rw [State.road, hlast.2 .roads (by simp)]
  exact s.roadsReported_road hr

/-- Settles O46: the records before TIME-STATE touch neither the clocks nor whether packets are stored. -/
theorem periodReported : Obligations.PeriodReported := by
  intro s hinto hmark hnew
  obtain ⟨hpower, hrefused, hclamps, huncorr, hroad, hclosed, hframe⟩ := State.roadsReported_writeTime hinto
  refine ⟨s.roadsReported.writeTime 1, ?_, hpower, hrefused, hclamps, huncorr, hroad, hclosed, hframe⟩
  rw [← doReportPeriod_due hinto.1 hmark hnew]
  rfl

end Sys2Proof.Machine
end

section
/-! PROOFS. Scheduled actions, Layby and the wake sequence (O47, O48). -/

namespace Sys2Proof.Machine

/-! ### A launch leaves the schedule alone (R390, R415) -/

theorem State.send_acts (s : State) (p : Nat) (e : Egress) : (s.send p e).time.acts = s.time.acts := by
  obtain ⟨-, htime, -⟩ := State.send_sends s p e
  rw [htime]

section
variable (s : State) (c : Nat) (mac : List Byte) (p : Nat) (e : ClientEntry) (l : Option LaunchMark)

theorem State.emit_acts : (s.emit c mac p e l).time.acts = s.time.acts := by
  unfold State.emit
  dsimp only
  split <;> rw [State.send_acts] <;> simp

theorem State.emitIdle_acts : (s.emitIdle c mac p e l).time.acts = s.time.acts := by
  unfold State.emitIdle
  dsimp only
  rw [State.send_acts]
  simp

end

theorem State.launchN_acts (c : Nat) (m : List Byte) (p : Nat) (e : ClientEntry) (l : LaunchMark) :
    ∀ (n : Nat) (s : State), (State.launchN n s c m p e l).time.acts = s.time.acts
  | 0, _ => rfl
  | n + 1, s => by
    rw [State.launchN]
    split
    · rw [State.launchN_acts c m p e l n, State.emit_acts]
    · rfl

theorem State.launch_acts (s : State) (entry : Nat) (late : Option Nat) (alarm : Bool) :
    (s.launch entry late alarm).time.acts = s.time.acts := by
  unfold State.launch
  split
  · rfl
  · split
    · split
      · simp
      · dsimp only
        split
        · exact State.launchN_acts _ _ _ _ _ _ _
        · split
          · exact State.emitIdle_acts _ _ _ _ _ _
          · rfl
    · simp

theorem State.runAct_acts (s : State) {a : Action} (h : a.periodic = false) : (s.runAct a).time.acts = s.time.acts.erase a := by
  simp only [State.runAct, h, Bool.false_eq_true, if_false]
  exact State.launch_acts _ _ _ _

/-! ### A wake source (R508, R518, R519) -/

theorem maskOf_false (n : Nat) : maskOf n (fun _ => false) = 0 := by
  simp only [maskOf, b2n, Bool.false_eq_true, if_false, Nat.zero_mul, List.map_const', List.sum_replicate_nat, Nat.mul_zero]

theorem wakeSigs_allGood (s : State) : s.wakeSigs allGood = s.tap.sigs := by
  simp only [State.wakeSigs, allGood, List.find?_nil, Option.map_none, Option.getD_none]
  exact List.ext_getElem (by simp) (by simp)

theorem failedBanks_same (sigs : List Word) : failedBanks sigs sigs = 0 := by
  simp [failedBanks, maskOf_false]

/-- No bank failed and no reset is due: a wake loses nothing (R520). -/
theorem wakeLosses_none {s : State} (hfailed : s.power.failed = 0) (hreset : s.cw.resetDue ≠ 4) : s.wakeLosses = s := by
  have hbank : s.bankFailed = fun _ => false := by
    funext b
    simp [State.bankFailed, hfailed]
  simp [State.wakeLosses, hbank, hreset]

/-- The power state as a wake with every bank good leaves it (R519). -/
def State.wakePower (s : State) (src : Nat) : Power :=
  { s.power with waking := some src, wakeHeld := none, failed := 0, uncorr := 0, scrubDue := true,
                 die := if s.cw.dieRetired then .unpowered else .active }

theorem startWake_allGood {s : State} (src : Nat) (hreset : s.cw.resetDue ≠ 4) :
    s.startWake src allGood = { s with power := s.wakePower src }.wakeIslands := by
  have hlines : (if s.cw.dieRetired then [] else allGood.lines.filter inControl) = [] := by
    simp [allGood]
  have hpower : ({ s with power := s.wakePower src } : State).power.failed = 0 := rfl
  simp only [State.startWake, wakeSigs_allGood, failedBanks_same, hlines]
  rw [show State.findings _ 2 noPacket [] = _ from rfl]
  exact congrArg State.wakeIslands (wakeLosses_none hpower hreset)

/-- The state as a wake sequence begins: the hold of its source is in force (R508, R518). -/
def State.heldFrom (s : State) (src : Nat) (level : Mode) : State :=
  let t := s.addHold { src := src, level := level, ends := none }
  { t with power := { t.power with wakeAt := s.now } }

theorem wakeSource_startWake {s : State} (src : Nat) (level : Mode) (chk : WakeCheck) (hrun : s.running = true)
    (hlayby : s.inMode .layby = true) (hwaking : s.power.waking = none) (hentering : s.power.entering = none) :
    s.wakeSource src level none chk = (s.heldFrom src level).startWake src chk := by
  have hcond : ¬ (!((s.addHold { src := src, level := level, ends := none }).running &&
      (s.addHold { src := src, level := level, ends := none }).inMode .layby)) = true := by
    have hrun' : (s.addHold { src := src, level := level, ends := none }).running = true := hrun
    have hlayby' : (s.addHold { src := src, level := level, ends := none }).inMode .layby = true := hlayby
    simp [hrun', hlayby']
  have hwaking' : (s.addHold { src := src, level := level, ends := none }).power.waking = none := hwaking
  have hentering' : (s.addHold { src := src, level := level, ends := none }).power.entering = none := hentering
  unfold State.wakeSource
  dsimp only
  rw [if_neg hcond, if_neg (by rw [hwaking']; simp), if_neg (by rw [hentering']; simp)]
  rfl

/-- A wake source in Layby, with nothing under way, starts the wake sequence with its hold (R508, R518). -/
theorem wakeSource_starts {s : State} (src : Nat) (level : Mode) (hrun : s.running = true) (hlayby : s.inMode .layby = true)
    (hwaking : s.power.waking = none) (hentering : s.power.entering = none) (hreset : s.cw.resetDue ≠ 4) :
    ∃ p : Power, s.wakeSource src level none allGood = { s with power := p } ∧ p.waking = some src ∧
      { src := src, level := level, ends := none } ∈ p.holds ∧ p.scrubDue = true ∧ p.wakePad = s.power.wakePad := by
  have hreset' : (s.heldFrom src level).cw.resetDue ≠ 4 := hreset
  rw [wakeSource_startWake src level allGood hrun hlayby hwaking hentering, startWake_allGood src hreset']
  exact ⟨_, rfl, rfl, by simp [State.wakePower, State.heldFrom, State.addHold], rfl, rfl⟩

/-- Outside Layby a wake source is its hold (R508). -/
theorem wakeSource_holds {s : State} (src : Nat) (level : Mode) (ends : Option Nat) (chk : WakeCheck)
    (h : (s.running && s.inMode .layby) = false) :
    s.wakeSource src level ends chk = s.addHold { src := src, level := level, ends := ends } := by
  have hcond : (!((s.addHold { src := src, level := level, ends := ends }).running &&
      (s.addHold { src := src, level := level, ends := ends }).inMode .layby)) = true := by
    have h' : ((s.addHold { src := src, level := level, ends := ends }).running &&
      (s.addHold { src := src, level := level, ends := ends }).inMode .layby) = false := h
    rw [h']
    rfl
  unfold State.wakeSource
  dsimp only
  rw [if_pos hcond]

theorem State.mem_addHold (s : State) (h : Hold) : h ∈ (s.addHold h).power.holds := by
  simp [State.addHold]

theorem onlyWrites_power (s : State) (p : Power) : OnlyWrites [.power] s { s with power := p } :=
  ⟨rfl, fun p hp => by cases p <;> simp_all [Part.same]⟩

theorem State.wakes_frame {s u : State} {p : Power} {ps : List Part} (h : OnlyWrites ps s u) (hp : .power ∈ ps) :
    OnlyWrites ps s { u with power := p } :=
  (h.trans (onlyWrites_power u p)).mono (by simp [hp])

/-! ### Scheduled actions that are due (R389–R392, R508) -/

/-- The schedule with the alarm of the action at a place (R508). -/
def State.alarmed (s : State) (dt index : Nat) : State :=
  { s.advance dt with time := { (s.advance dt).time with
      acts := s.time.acts.modify index fun x => { x with alarm := true } } }

theorem State.advance_acts (s : State) (dt : Nat) : (s.advance dt).time.acts = s.time.acts := by
  unfold State.advance
  dsimp only
  split <;> rfl

theorem State.alarmed_frame (s : State) (dt index : Nat) : OnlyWrites [.time] s (s.alarmed dt index) :=
  ⟨by simp [State.alarmed], fun p hp => by cases p <;> simp_all [Part.same, State.alarmed]⟩

section
variable {dt index : Nat} {s : State} {a : Action} (chk : WakeCheck) (fs : List LineFinding)
  (hact : s.time.acts[index]? = some a)
include hact

theorem doScheduledActionDue_early (hlag : (s.advance dt).lag a < 0) : doScheduledActionDue dt index chk fs s = s.advance dt := by
  simp only [doScheduledActionDue, State.advance_acts, hact]
  exact if_neg (by omega)

/-- In Layby and in Footpath an action that is due is a TIME alarm (R508). -/
theorem doScheduledActionDue_alarm (hlag : 0 ≤ (s.advance dt).lag a) (hrun : s.running = true)
    (hmode : (s.inMode .layby || s.inMode .footpath) = true) :
    doScheduledActionDue dt index chk fs s = (s.alarmed dt index).wakeSource 2 .lane none chk := by
  have hcond : ((s.advance dt).running && ((s.advance dt).inMode .layby || (s.advance dt).inMode .footpath)) = true := by
    have hrun' : (s.advance dt).running = true := hrun
    have hmode' : ((s.advance dt).inMode .layby || (s.advance dt).inMode .footpath) = true := hmode
    rw [hrun', hmode']
    rfl
  simp only [doScheduledActionDue, State.advance_acts, hact]
  rw [if_pos hlag, if_pos hcond]
  rfl

/-- A launch that is due, on a free port and with no other one before it, executes (R390–R392). -/
theorem doScheduledActionDue_launch (hlag : 0 ≤ (s.advance dt).lag a) (hon : s.uplinkOn = true)
    (hfree : s.launching (s.actPort a) = false)
    (hfirst : ∀ b ∈ s.time.acts, s.actPort b = s.actPort a → (s.advance dt).lag b ≤ (s.advance dt).lag a ∧
      ((s.advance dt).lag b = (s.advance dt).lag a → a.entry ≤ b.entry)) :
    doScheduledActionDue dt index chk fs s = (((s.advance dt).launchFindings a.entry fs).runAct a).launchDone := by
  have hmode : ¬ ((s.advance dt).running && ((s.advance dt).inMode .layby || (s.advance dt).inMode .footpath)) = true := by
    have hon' : s.power.mode = some .highway ∨ s.power.mode = some .lane := by
      simp only [State.uplinkOn, State.full, State.inMode, Bool.and_eq_true, Bool.or_eq_true, beq_iff_eq] at hon
      exact hon.1.1
    rcases hon' with hm | hm <;> simp [State.inMode, hm]
  have hgo : ((s.advance dt).uplinkOn && !(s.advance dt).launching ((s.advance dt).actPort a) &&
      !(s.advance dt).time.acts.any fun b => (s.advance dt).actPort b == (s.advance dt).actPort a &&
        (decide ((s.advance dt).lag a < (s.advance dt).lag b) ||
          ((s.advance dt).lag a == (s.advance dt).lag b && decide (b.entry < a.entry)))) = true := by
    have hon' : (s.advance dt).uplinkOn = true := hon
    have hfree' : (s.advance dt).launching ((s.advance dt).actPort a) = false := hfree
    rw [hon', hfree', State.advance_acts, Bool.true_and, Bool.not_false, Bool.true_and, Bool.not_eq_true', List.any_eq_false]
    intro b hb hahead
    simp only [Bool.and_eq_true, beq_iff_eq, Bool.or_eq_true, decide_eq_true_eq] at hahead
    obtain ⟨hport, hlater⟩ := hahead
    obtain ⟨hle, htie⟩ := hfirst b hb hport
    rcases hlater with hlt | ⟨heq, hlt⟩
    · omega
    · have := htie heq.symm
      omega
  simp only [doScheduledActionDue, State.advance_acts, hact]
  rw [if_pos hlag, if_neg hmode]
  rw [← State.advance_acts s dt]
  exact if_pos hgo

end

theorem onlyWrites_runAct (s : State) (a : Action) : OnlyWrites [.time, .cw, .up] s (s.runAct a) :=
  ⟨by simp, fun p hp => by cases p <;> simp_all [Part.same]⟩

theorem onlyWrites_launchDone (s : State) : OnlyWrites [.power] s s.launchDone :=
  ⟨by simp, fun p hp => by cases p <;> simp_all [Part.same]⟩

theorem onlyWrites_launchFindings (s : State) (entry : Nat) (fs : List LineFinding) :
    OnlyWrites [.free, .cw, .spill, .way, .age] s (s.launchFindings entry fs) :=
  ⟨by simp, fun p hp => by cases p <;> simp_all [Part.same]⟩

theorem launchFindings_nil (s : State) (entry : Nat) : OnlyWrites [.spill] s (s.launchFindings entry []) := by
  unfold State.launchFindings
  split
  · exact State.readFindings_nil _ _
  · exact .refl _ _

theorem State.addHold_frame {s u : State} {ps : List Part} (h : OnlyWrites ps s u) (hp : .power ∈ ps) (x : Hold) :
    OnlyWrites ps s (u.addHold x) :=
  State.wakes_frame h hp

/-- Settles O48: an action that is due is a launch where UPLINK runs, and a wake source in Layby and in Footpath. -/
theorem actionsExecute : Obligations.ActionsExecute := by
  refine ⟨fun dt index fs s a hact hlag hon hfree hfirst => ?_,
    fun dt index fs s a hact hlag hrun hlayby hwaking hentering hreset => ?_,
    fun dt index chk fs s a hact hlag hrun hfoot => ?_, fun dt index chk fs s a hact hlag => ?_, fun s a => rfl⟩
  · have heq := doScheduledActionDue_launch allGood fs hact hlag hon hfree hfirst
    have hreads := onlyWrites_launchFindings (s.advance dt) a.entry fs
    have htail (u : State) : OnlyWrites [.time, .cw, .up, .power] u (u.runAct a).launchDone :=
      (onlyWrites_runAct u a).trans (onlyWrites_launchDone _)
    refine ⟨(((s.advance dt).launchFindings a.entry fs).runAct a).launchDone, congrArg Host.Outcome.next heq,
      fun hper => ?_, fun hnil => ?_, (((onlyWrites_advance s dt).trans hreads).trans (htail _)).mono (by simp)⟩
    · have htime : ((s.advance dt).launchFindings a.entry fs).time = (s.advance dt).time := hreads.2 .time (by simp)
      rw [State.launchDone_time, State.runAct_acts _ hper, htime, State.advance_acts]
    · subst hnil
      exact (((onlyWrites_advance s dt).trans (launchFindings_nil _ a.entry)).trans (htail _)).mono (by simp)
  · have heq := doScheduledActionDue_alarm (dt := dt) allGood fs hact hlag hrun (by rw [hlayby]; rfl)
    obtain ⟨p, hwake, hsrc, hhold, -, -⟩ :=
      wakeSource_starts (s := s.alarmed dt index) 2 .lane hrun hlayby hwaking hentering hreset
    exact ⟨{ s.alarmed dt index with power := p }, congrArg Host.Outcome.next (heq.trans hwake), hsrc, hhold, rfl,
      State.wakes_frame ((s.alarmed_frame dt index).mono (by simp)) (by simp)⟩
  · have heq := doScheduledActionDue_alarm (dt := dt) chk fs hact hlag hrun (by rw [hfoot, Bool.or_true])
    have hnot : ((s.alarmed dt index).running && (s.alarmed dt index).inMode .layby) = false := by
      have hfoot' : s.power.mode = some .footpath := by simpa [State.inMode] using hfoot
      have : (s.alarmed dt index).power.mode = some .footpath := hfoot'
      simp [State.inMode, this]
    have hwake := wakeSource_holds 2 .lane none chk hnot
    exact ⟨(s.alarmed dt index).addHold { src := 2, level := .lane, ends := none },
      congrArg Host.Outcome.next (heq.trans hwake), State.mem_addHold _ _, rfl, rfl,
      State.addHold_frame ((s.alarmed_frame dt index).mono (by simp)) (by simp) _⟩
  · exact congrArg Host.Outcome.next (doScheduledActionDue_early chk fs hact hlag)

end Sys2Proof.Machine
end

section
/-! PROOFS. The end of Layby entry, the wake sources, the wake sequence and the holds (O47). -/

namespace Sys2Proof.Machine

/-! ### Every open packet closes (R307, R517) -/

theorem Causeway.closeRing_opens (cw : Causeway) (adm : Nat → Bool) (p : Packet) : (cw.closeRing adm p).opens = cw.opens :=
  rfl

theorem State.closeOpen_opens (s : State) (tag : Word) (short : Bool) :
    (s.closeOpen tag short).cw.opens = s.cw.opens.filter (·.tag != tag) := by
  unfold State.closeOpen
  split
  next hnone =>
    symm
    refine List.filter_eq_self.mpr fun p hp => ?_
    have := List.find?_eq_none.mp hnone p hp
    simpa using this
  next p _ =>
    dsimp only
    split
    · rfl
    · split <;> simp [Causeway.closeIn_opens, Causeway.closeRing_opens]

theorem foldl_closeOpen_opens (short : Bool) : ∀ (tags : List Word) (s : State),
    (tags.foldl (fun s t => s.closeOpen t short) s).cw.opens = s.cw.opens.filter fun p => !tags.contains p.tag
  | [], s => (List.filter_eq_self.mpr fun _ _ => rfl).symm
  | t :: ts, s => by
    rw [List.foldl_cons, foldl_closeOpen_opens short ts, State.closeOpen_opens, List.filter_filter]
    congr 1
    funext p
    by_cases h : p.tag = t <;> simp [h]

theorem State.closeShort_opens (s : State) : (s.closeShort fun _ => true).cw.opens = [] := by
  rw [State.closeShort, foldl_closeOpen_opens, List.filter_eq_nil_iff]
  intro p hp
  simpa using ⟨p, hp, rfl⟩

/-! ### Layby entry ends (R517) -/

/-- The state as the islands enter retention, the triads still as they were (R517). -/
def State.feResting (s : State) : State :=
  let t := s.flushFe
  { t with
    fe := t.fe.halt t.mark
    mot := { t.mot with hist := List.replicate 8 [], robust := [false, false], dwell := [0, 0], last := none } }

theorem sensorsRest_eq (s : State) : s.sensorsRest = (((s.feResting).closeShort fun _ => true).settle).powerFor .layby := rfl

theorem sensorsRest_opens (s : State) : s.sensorsRest.cw.opens = [] := by
  rw [sensorsRest_eq]
  exact (State.settle_opens _).trans (State.closeShort_opens _)

theorem halt_converts (f : Fe) (mark : Nat) : ∀ c ∈ (f.halt mark).ch, c.conv = none ∧ c.old = [] := by
  intro c hc
  obtain ⟨d, -, rfl⟩ := List.mem_map.mp hc
  exact ⟨rfl, rfl⟩

theorem sensorsRest_converts (s : State) : ∀ c ∈ s.sensorsRest.fe.ch, c.conv = none ∧ c.old = [] := by
  have hfe : s.sensorsRest.fe = s.feResting.fe := by
    rw [sensorsRest_eq]
    simp
  rw [hfe]
  exact halt_converts _ _

theorem sensorsRest_unpowered (s : State) : ∀ x ∈ s.sensorsRest.mot.triads, x.powered = false := by
  intro x hx
  obtain ⟨i, hi, rfl⟩ := List.mem_mapIdx.mp hx
  rfl

/-- The state once the islands retain (R517). -/
def State.laybyEntered (s : State) (l : Nat) : State :=
  let t := s.sensorsRest
  { t with
    power := { t.power with entering := none, islands := (List.range 12).map (t.islandGoal .layby), die := t.dieIn .layby
                            mode0 := false, mode1 := false }
    spill := { t.spill with drive := false }
    tap := { t.tap with sigs := (List.range 17).map fun b => Config.retentionSignature (if b < 4 then b % 2 else b - 2) l } }

theorem doLaybyEntryDone_rests {dt : Nat} {s : State} {l : Nat} (chk : WakeCheck) (hentering : s.power.entering = some l)
    (hheld : s.power.wakeHeld = none) : doLaybyEntryDone dt chk s = (s.advance dt).laybyEntered l := by
  have hentering' : (s.advance dt).power.entering = some l := hentering
  have hheld' : ((s.advance dt).laybyEntered l).power.wakeHeld = none := by
    simpa [State.laybyEntered] using hheld
  have hbody : doLaybyEntryDone dt chk s = (match ((s.advance dt).laybyEntered l).power.wakeHeld with
      | some src => ((s.advance dt).laybyEntered l).startWake src chk
      | none => (s.advance dt).laybyEntered l) := by
    unfold doLaybyEntryDone
    dsimp only
    rw [hentering']
    rfl
  rw [hbody, hheld']

theorem laybyEntered_frame (s : State) (l : Nat) :
    OnlyWrites [.power, .cw, .spill, .mot, .way, .fe, .tap] s (s.laybyEntered l) :=
  ⟨by simp [State.laybyEntered], fun p hp => by cases p <;> simp_all [Part.same, State.laybyEntered]⟩

/-! ### WAKE and the holds (R508) -/

/-- The state with WAKE high (R508). -/
def State.wakeHigh (s : State) (dt : Nat) : State := { s.advance dt with power := { s.power with wakePad := true } }

theorem wakeHigh_frame (s : State) (dt : Nat) : OnlyWrites [.time, .power] s (s.wakeHigh dt) :=
  ⟨by simp [State.wakeHigh], fun p hp => by cases p <;> simp_all [Part.same, State.wakeHigh]⟩

theorem doWakePadRise_edge {dt high : Nat} {s : State} (chk : WakeCheck) (hphase : s.power.phase ≠ .inReset)
    (hhigh : 10000 ≤ high) : doWakePadRise dt high chk s = (s.wakeHigh dt).wakeSource 5 .footpath none chk := by
  have hcond : (s.power.phase != .inReset && decide (10000 ≤ high)) = true := by simp [hphase, hhigh]
  exact if_pos hcond

theorem phase_of_running {s : State} (h : s.running = true) : s.power.phase ≠ .inReset := by
  intro hphase
  simp [State.running, hphase] at h

theorem doWakePadFall_eq (dt : Nat) (s : State) : doWakePadFall dt s = { s.advance dt with power := { s.power with
    wakePad := false
    holds := s.power.holds.map fun h =>
      if h.src = 5 ∧ h.ends = none then { h with ends := some (s.now + dt + secPs 1) } else h } } := by
  simp only [doWakePadFall, State.advance_now, Option.isNone_iff_eq_none, State.advance_keeps]

/-- What a wake source that starts the wake sequence from a state leaves (R508, R518). -/
theorem wakeSource_leaves {s u : State} {ps : List Part} {src : Nat} {level : Mode} (hframe : OnlyWrites ps s u)
    (hp : .power ∈ ps) (hrun : u.running = true) (hlayby : u.inMode .layby = true) (hwaking : u.power.waking = none)
    (hentering : u.power.entering = none) (hreset : u.cw.resetDue ≠ 4) :
    (u.wakeSource src level none allGood).power.waking = some src ∧
      { src := src, level := level, ends := none } ∈ (u.wakeSource src level none allGood).power.holds ∧
      (u.wakeSource src level none allGood).power.scrubDue = true ∧
      (u.wakeSource src level none allGood).power.wakePad = u.power.wakePad ∧
      (u.wakeSource src level none allGood).tw = u.tw ∧ OnlyWrites ps s (u.wakeSource src level none allGood) := by
  obtain ⟨p, heq, hsrc, hhold, hscrub, hpad⟩ := wakeSource_starts src level hrun hlayby hwaking hentering hreset
  rw [heq]
  exact ⟨hsrc, hhold, hscrub, hpad, rfl, State.wakes_frame hframe hp⟩

theorem armed_running {s : State} {r : Nat} (h : s.armed r = true) : s.running = true ∧ s.inMode .layby = true := by
  simp only [State.armed, Bool.and_eq_true] at h
  exact h.1

theorem doDropComparator_armed {dt : Nat} {s : State} (chk : WakeCheck) (h : s.armed 2 = true) :
    doDropComparator dt chk s = (s.advance dt).wakeSource 3 .footpath none chk := if_pos h

theorem doCapsizeComparator_armed {dt : Nat} {s : State} (chk : WakeCheck) (h : s.armed 3 = true) :
    doCapsizeComparator dt chk s = (s.advance dt).wakeSource 4 .footpath none chk := if_pos h

/-! ### The two-wire port in Layby (R443) -/

theorem twStart_frame (s : State) : OnlyWrites [.power, .hs, .tw] s s.twStart :=
  ⟨by simp, fun p hp => by cases p <;> simp_all [Part.same]⟩

/-- What ends the open transaction leaves of the power state all but the holds (R435, R508). -/
theorem twStart_power (s : State) : s.twStart.power = { s.power with holds := s.twStart.power.holds } := by
  have hrest (t : State) : (t.portRest 5).power = t.power := by
    rcases t.portRest_cases 5 with h | h
    · rw [h]
    · rw [h]
      rfl
  unfold State.twStart
  split
  · have hdiscard : s.discardTw.power = { s.power with holds := s.discardTw.power.holds } := by
      simp only [State.discardTw, State.twEnded, hrest]
      rfl
    exact hdiscard
  · rfl

/-- The port once its transaction is discarded (R435, R442). -/
def Port.discarded (p : Port) (rests : Bool) : Port :=
  if rests then ({ p.shut with rejected := true } : Port).off else { p.shut with rejected := true }

theorem discardTw_tw (s : State) : s.discardTw.tw = s.tw.discarded (s.inMode .layby && s.power.waking.isNone) := by
  have hon (u : State) (f : Port → Port) : u.onHost 5 f = { u with tw := f u.tw } := rfl
  have hmode (u : State) (p : Port) : ({ u with tw := p } : State).inMode .layby = u.inMode .layby := rfl
  simp only [State.discardTw, State.twEnded, State.portRest, hon, hmode, Port.discarded]
  split <;> rfl

theorem twStart_tw_advance (s : State) (dt : Nat) : (s.advance dt).twStart.tw = s.twStart.tw := by
  have hdiscard : (s.advance dt).discardTw.tw = s.discardTw.tw := by
    rw [discardTw_tw, discardTw_tw]
    rfl
  have hcond : ((s.advance dt).tw.isOpen && !(s.advance dt).tw.stretch) = (s.tw.isOpen && !s.tw.stretch) := rfl
  simp only [State.twStart, hcond]
  split
  · exact hdiscard
  · rfl

/-- The state as the address matcher holds TWSCL (R443). -/
def State.matched (s : State) (dt : Nat) : State :=
  { (s.advance dt).twStart with tw := { (s.advance dt).twStart.tw with stretch := true } }

theorem matched_frame (s : State) (dt : Nat) : OnlyWrites [.time, .power, .hs, .tw] s (s.matched dt) := by
  have htw (u : State) (p : Port) : OnlyWrites [.tw] u { u with tw := p } :=
    ⟨rfl, fun p hp => by cases p <;> simp_all [Part.same]⟩
  exact (((onlyWrites_advance s dt).trans (twStart_frame _)).trans (htw _ _)).mono (by simp)

theorem doTwWakeMatch_layby {dt : Nat} {addr : BitVec 7} {s : State} (chk : WakeCheck) (hrun : s.running = true)
    (hlayby : s.inMode .layby = true) (hrole : (s.roleOf 5).isSome = true) (haddr : addr.toNat = s.twAddr) :
    doTwWakeMatch dt addr chk s = (s.matched dt).wakeSource 1 .footpath none chk := by
  have hp := twStart_power (s.advance dt)
  have hstraps : (s.advance dt).twStart.straps = s.straps := (twStart_frame (s.advance dt)).2 .straps (by simp)
  have hrun' : (s.advance dt).twStart.running = true := by
    rw [State.running, hp]
    exact hrun
  have hlayby' : (s.advance dt).twStart.inMode .layby = true := by
    rw [State.inMode, hp]
    exact hlayby
  have hrole' : ((s.advance dt).twStart.roleOf 5).isSome = true := by
    rw [← hrole, State.roleOf, State.roleOf, State.strap, State.strap, hstraps]
    rfl
  have haddr' : (addr.toNat == (s.advance dt).twStart.twAddr) = true := by
    rw [State.twAddr, State.strap, hstraps, beq_iff_eq]
    exact haddr
  have hcond : ((s.advance dt).twStart.running && (s.advance dt).twStart.inMode .layby &&
      ((s.advance dt).twStart.roleOf 5).isSome && addr.toNat == (s.advance dt).twStart.twAddr) = true := by
    rw [hrun', hlayby', hrole', haddr']
    rfl
  unfold doTwWakeMatch
  exact if_pos hcond

/-! ### The wake sequence completes (R509, R519, R521) -/

theorem islandRuns_frame (s : State) (i : Nat) : OnlyWrites [.power, .tw, .pin] s (s.islandRuns i) :=
  ⟨rfl, fun p hp => by cases p <;> simp_all [Part.same, State.islandRuns]⟩

theorem gate_islandRuns {m : List Word} (s : State) (i c : Nat) (htyp : msgType m = 5) :
    (s.islandRuns i).gate c m = s.gate c m := by
  unfold State.gate
  simp only [htyp]
  rfl

theorem voteOf_islandRuns (s : State) (i c : Nat) : (s.islandRuns i).voteOf c = s.voteOf c := by
  have hstep : (fun (v : Nat) (x : List Word × Nat) => if msgType x.1 = 5 then (match (s.islandRuns i).gate c x.1 with
      | .refuse _ => v
      | _ => fld (nth x.1 2) 1 0) else v) =
      fun v x => if msgType x.1 = 5 then (match s.gate c x.1 with
      | .refuse _ => v
      | _ => fld (nth x.1 2) 1 0) else v := by
    funext v x
    by_cases h : msgType x.1 = 5
    · rw [if_pos h, if_pos h, gate_islandRuns s i c h]
    · rw [if_neg h, if_neg h]
  exact congrArg (fun f => (nth s.clients c).work.foldl f (nth s.clients c).vote) hstep

/-- An island that runs changes nothing that the decision looks at (R509). -/
theorem wakeMode_islandRuns (s : State) (i : Nat) : (s.islandRuns i).wakeMode = s.wakeMode := by
  have hvotes : (s.islandRuns i).clientVotes = s.clientVotes := by
    simp only [State.clientVotes]
    congr 1
    funext c
    exact voteOf_islandRuns s i c
  simp only [State.wakeMode, State.want, hvotes]
  rfl

theorem doIslandRunning_runs {dt i : Nat} {s : State} (h : nth s.power.islands i = .waking) :
    doIslandRunning dt i s = (match s.power.waking with
      | some src => if ((s.advance dt).islandRuns i).power.islands.all (· != .waking)
          then ((s.advance dt).islandRuns i).wakeDone src else (s.advance dt).islandRuns i
      | none => (s.advance dt).islandRuns i) := by
  have hcond : (nth (s.advance dt).power.islands i == .waking) = true := by
    simpa using h
  rw [doIslandRunning]
  exact if_pos hcond

theorem waking_lt {l : List IslSt} {i : Nat} (h : nth l i = .waking) : i < l.length := by
  refine Decidable.byContradiction fun hlt => ?_
  simp [nth, List.getD_eq_getElem?_getD, List.getElem?_eq_none (Nat.not_lt.mp hlt)] at h
  exact absurd h (by decide)

/-- Every island of the mode to be entered runs once the last one does, and not before (R519). -/
theorem all_running_iff {l : List IslSt} {i : Nat} (hi : i < l.length) :
    (l.set i .running).all (· != .waking) = true ↔ ∀ j, j ≠ i → nth l j ≠ .waking := by
  constructor
  · intro hall j hne hj
    have hlt := waking_lt hj
    have hmem : l[j] ∈ l.set i .running := by
      have : (l.set i .running)[j]'(by simpa using hlt) = l[j] := by rw [List.getElem_set_ne (Ne.symm hne)]
      rw [← this]
      exact List.getElem_mem _
    have := List.all_eq_true.mp hall _ hmem
    rw [nth_of_lt hlt] at hj
    simp [hj] at this
  · intro hnone
    refine List.all_eq_true.mpr fun x hx => ?_
    obtain ⟨j, hj, rfl⟩ := List.getElem_of_mem hx
    by_cases h : j = i
    · subst h
      simp
    · have hlt : j < l.length := by simpa using hj
      have hne := hnone j h
      rw [nth_of_lt hlt] at hne
      rw [List.getElem_set_ne (Ne.symm h)]
      simpa using hne

theorem wakeDone_frame (s : State) (src : Nat) :
    OnlyWrites [.power, .cw, .spill, .red, .mot, .prod, .way, .fe, .roads] s (s.wakeDone src) :=
  ⟨by simp, fun p hp => by cases p <;> simp_all [Part.same]⟩

theorem setMode_power (s : State) (m : Mode) :
    (s.setMode m).power.waking = s.power.waking ∧ (s.setMode m).power.mode = some m := by
  cases m <;> exact ⟨rfl, rfl⟩

/-- The state as the wake sequence ends, before the mode that it enters is in force (R519). -/
def State.wakeEnds (s : State) : State :=
  { s with
    cw := { s.cw with preM0 := [] }
    power := { s.power with
      waking := none, snap := s.snapNow 4, ceiled := s.want.2
      holds := s.power.holds.map fun (h : Hold) =>
        if h.src = 3 ∨ h.src = 4 then { h with ends := some (s.now + s.comparatorHold h.src) } else h } }

/-- The mode entered by a wake is in force from its end on (R509, R519). -/
theorem wakeDone_power (s : State) (src : Nat) : (s.wakeDone src).power = (s.wakeEnds.setMode s.wakeMode).power := by
  unfold State.wakeDone
  dsimp only
  rw [(State.settlePlan_keeps _ _).2.2.1]
  split <;> simp <;> rfl

/-- The wake sequence completes with the last island: the mode that it enters is in force (R509, R519). -/
theorem wakeDone_mode (s : State) (src : Nat) :
    (s.wakeDone src).power.waking = none ∧ (s.wakeDone src).power.mode = some s.wakeMode := by
  rw [wakeDone_power]
  exact setMode_power _ _

/-- Settles O47: each wake source goes through one lemma about the start of the wake sequence. -/
theorem hubWakes : Obligations.HubWakes := by
  refine ⟨fun dt chk s l hentering hheld => ?_, fun dt addr rd s hrun hlayby hrole haddr hwaking hentering hreset => ?_,
    fun dt high s hrun hlayby hhigh hwaking hentering hreset => ?_, fun dt high chk s hphase hout hhigh => ?_,
    fun dt s harmed hwaking hentering hreset => ?_, fun dt s harmed hwaking hentering hreset => ?_,
    fun dt i s hi hother => ?_, fun dt i s src hi hlast hwaking => ?_, fun dt s => ?_, fun dt s => ?_⟩
  · have heq := doLaybyEntryDone_rests (dt := dt) chk hentering hheld
    have hpower : (s.advance dt).sensorsRest.power = s.power := by simp
    have hgoal : (s.advance dt).sensorsRest.islandGoal .layby = s.islandGoal .layby := by
      have hstraps : (s.advance dt).sensorsRest.straps = s.straps := by simp
      funext i
      rw [State.islandGoal, State.islandGoal, State.strap, State.strap, hstraps]
    refine ⟨(s.advance dt).laybyEntered l, congrArg Host.Outcome.next heq, rfl, ?_, rfl, rfl, ?_, rfl, sensorsRest_opens _,
      sensorsRest_converts _, sensorsRest_unpowered _,
      ((onlyWrites_advance s dt).trans (laybyEntered_frame _ l)).mono (by simp)⟩
    · exact congrArg (fun f => (List.range 12).map f) hgoal
    · have hholds : (s.advance dt).sensorsRest.power.holds = s.power.holds := by rw [hpower]
      exact hholds
  · have heq := doTwWakeMatch_layby (dt := dt) (addr := addr) allGood hrun hlayby hrole haddr
    have hp : (s.matched dt).power = { s.power with holds := (s.matched dt).power.holds } := twStart_power (s.advance dt)
    have hcw : (s.matched dt).cw = s.cw := (matched_frame s dt).2 .cw (by simp)
    have htw : (s.matched dt).tw = { s.twStart.tw with stretch := true } :=
      congrArg (fun p : Port => { p with stretch := true }) (twStart_tw_advance s dt)
    obtain ⟨hsrc, hhold, hscrub, -, htw', hframe⟩ := wakeSource_leaves (src := 1) (level := .footpath) (matched_frame s dt)
      (by simp) (by rw [State.running, hp]; exact hrun) (by rw [State.inMode, hp]; exact hlayby) (by rw [hp]; exact hwaking)
      (by rw [hp]; exact hentering) (by rw [hcw]; exact hreset)
    exact ⟨(s.matched dt).wakeSource 1 .footpath none allGood, congrArg Host.Outcome.next heq, hsrc, htw'.trans htw, hhold,
      hscrub, hframe⟩
  · have heq := doWakePadRise_edge (dt := dt) allGood (phase_of_running hrun) hhigh
    obtain ⟨hsrc, hhold, -, hpad, -, hframe⟩ := wakeSource_leaves (src := 5) (level := .footpath) (wakeHigh_frame s dt)
      (by simp) hrun hlayby hwaking hentering hreset
    exact ⟨(s.wakeHigh dt).wakeSource 5 .footpath none allGood, congrArg Host.Outcome.next heq, hsrc, hpad, hhold, hframe⟩
  · have heq := doWakePadRise_edge (dt := dt) chk hphase hhigh
    have hwake := wakeSource_holds (s := s.wakeHigh dt) 5 .footpath none chk hout
    exact ⟨(s.wakeHigh dt).addHold { src := 5, level := .footpath, ends := none },
      congrArg Host.Outcome.next (heq.trans hwake), rfl, State.mem_addHold _ _,
      State.addHold_frame (wakeHigh_frame s dt) (by simp) _⟩
  · obtain ⟨hrun, hlayby⟩ := armed_running harmed
    obtain ⟨hsrc, hhold, -, -, -, hframe⟩ := wakeSource_leaves (u := s.advance dt) (src := 3) (level := .footpath)
      ((onlyWrites_advance s dt).mono (qs := [.time, .power]) (by simp)) (by simp) hrun hlayby hwaking hentering hreset
    exact ⟨_, congrArg Host.Outcome.next (doDropComparator_armed allGood harmed), hsrc, hhold, hframe⟩
  · obtain ⟨hrun, hlayby⟩ := armed_running harmed
    obtain ⟨hsrc, hhold, -, -, -, hframe⟩ := wakeSource_leaves (u := s.advance dt) (src := 4) (level := .footpath)
      ((onlyWrites_advance s dt).mono (qs := [.time, .power]) (by simp)) (by simp) hrun hlayby hwaking hentering hreset
    exact ⟨_, congrArg Host.Outcome.next (doCapsizeComparator_armed allGood harmed), hsrc, hhold, hframe⟩
  · have hlt := waking_lt hi
    have hnot : ¬ ((s.advance dt).islandRuns i.val).power.islands.all (· != .waking) = true := by
      rw [show ((s.advance dt).islandRuns i.val).power.islands = s.power.islands.set i.val .running from rfl,
        all_running_iff hlt]
      obtain ⟨j, hne, hj⟩ := hother
      exact fun h => h j hne hj
    have heq : doIslandRunning dt i.val s = (s.advance dt).islandRuns i.val := by
      rw [doIslandRunning_runs hi]
      split
      · exact if_neg hnot
      · rfl
    have hpin : ((s.advance dt).islandRuns i.val).pin =
        if i.val = 9 then { s.pin with restartAt := some (s.mark + 1) } else s.pin := by
      simp only [State.islandRuns, State.advance_mark, State.advance_keeps]
    exact ⟨(s.advance dt).islandRuns i.val, congrArg Host.Outcome.next heq, nth_set_same hlt _, rfl, rfl,
      fun j hj => nth_set_ne _ hj _, rfl, hpin,
      ((onlyWrites_advance s dt).trans (islandRuns_frame _ i.val)).mono (by simp)⟩
  · have hlt := waking_lt hi
    have hall : ((s.advance dt).islandRuns i.val).power.islands.all (· != .waking) = true :=
      (all_running_iff hlt).mpr hlast
    have heq : doIslandRunning dt i.val s = ((s.advance dt).islandRuns i.val).wakeDone src := by
      rw [doIslandRunning_runs hi, hwaking]
      exact if_pos hall
    obtain ⟨hdone, hmode⟩ := wakeDone_mode ((s.advance dt).islandRuns i.val) src
    rw [wakeMode_islandRuns] at hmode
    exact ⟨_, congrArg Host.Outcome.next heq, hdone, hmode,
      (((onlyWrites_advance s dt).trans (islandRuns_frame _ i.val)).trans (wakeDone_frame _ src)).mono (by simp)⟩
  · exact ⟨_, congrArg Host.Outcome.next (doWakePadFall_eq dt s), rfl,
      State.wakes_frame ((onlyWrites_advance s dt).mono (by simp)) (by simp)⟩
  · exact ⟨_, rfl, rfl, State.wakes_frame ((onlyWrites_advance s dt).mono (by simp)) (by simp)⟩

end Sys2Proof.Machine
end

section
/-! PROOFS. What a grid mark leaves of the clocks: the CLK25 time and the marks issued move once, as the mark begins (20_modes.md
R510, R374). -/

namespace Sys2Proof.Machine

theorem foldl_beat {α : Type} (f : State → α → State)
    (h : ∀ b a, (f b a).time.ps = b.time.ps ∧ (f b a).time.issued = b.time.issued) (l : List α) (b : State) :
    (l.foldl f b).time.ps = b.time.ps ∧ (l.foldl f b).time.issued = b.time.issued :=
  ⟨foldl_keep (fun s : State => s.time.ps) f (fun b a => (h b a).1) l b,
    foldl_keep (fun s : State => s.time.issued) f (fun b a => (h b a).2) l b⟩

/-- What only sends leaves the CLK25 time and the marks issued. -/
theorem OnlySends.beat {ps : List Part} {s t : State} (h : OnlySends ps s t) :
    t.time.ps = s.time.ps ∧ t.time.issued = s.time.issued := by
  obtain ⟨-, htime, -⟩ := h
  rw [htime]
  exact ⟨rfl, rfl⟩

/-! ### The clients and the uplink -/

section
variable (s : State) (c : Nat)

@[simp] theorem State.sendControl_beat (slot : Bool) (msg : List Word) :
    (s.sendControl c slot msg).time.ps = s.time.ps ∧ (s.sendControl c slot msg).time.issued = s.time.issued :=
  (State.sendControl_sends s c slot msg).beat

@[simp] theorem State.pumpOne_beat : (s.pumpOne c).time.ps = s.time.ps ∧ (s.pumpOne c).time.issued = s.time.issued := by
  unfold State.pumpOne
  split
  · split <;> simp
  · simp

@[simp] theorem State.pump_beat : s.pump.time.ps = s.time.ps ∧ s.pump.time.issued = s.time.issued :=
  foldl_beat _ State.pumpOne_beat _ s

@[simp] theorem State.guestAtMark_beat :
    (s.guestAtMark c).time.ps = s.time.ps ∧ (s.guestAtMark c).time.issued = s.time.issued := by
  have hfold := foldl_beat (fun (s : State) (x : Nat × List Word) => s.sendControl c false x.2)
    (fun b x => b.sendControl_beat c false x.2)
  unfold State.guestAtMark
  exact hfold _ _

theorem State.clientsAtMark_beat : s.clientsAtMark.time.ps = s.time.ps ∧ s.clientsAtMark.time.issued = s.time.issued := by
  have hguests := foldl_beat State.guestAtMark State.guestAtMark_beat (List.range 6) s
  simpa [State.clientsAtMark] using hguests

end

/-! ### The schedule and the waymark passes -/

section
variable (s : State)

@[simp] theorem State.addAct_beat (a : Action) : (s.addAct a).time.ps = s.time.ps ∧ (s.addAct a).time.issued = s.time.issued :=
  ⟨rfl, rfl⟩

@[simp] theorem State.setOccurrence_beat (entry least : Nat) :
    (s.setOccurrence entry least).time.ps = s.time.ps ∧ (s.setOccurrence entry least).time.issued = s.time.issued := by
  unfold State.setOccurrence
  split
  · simp
  · split
    · dsimp only
      split
      · simp
      · split <;> simp
    · simp

theorem State.setOccurrences_beat :
    s.setOccurrences.time.ps = s.time.ps ∧ s.setOccurrences.time.issued = s.time.issued :=
  foldl_beat _ (fun b e => b.setOccurrence_beat e 0) _ s

@[simp] theorem State.actLaunch_beat (entry d : Nat) :
    (s.actLaunch entry d).time.ps = s.time.ps ∧ (s.actLaunch entry d).time.issued = s.time.issued := by
  unfold State.actLaunch
  split <;> simp

@[simp] theorem State.act_beat (c : ActCtx) (a : Word × Word) :
    (s.act c a).time.ps = s.time.ps ∧ (s.act c a).time.issued = s.time.issued := by
  unfold State.act
  dsimp only
  split <;> simp

@[simp] theorem State.engineStep_beat (w : Waymarks) (ev : Option (List Word)) (en : WmEngine) :
    (s.engineStep w ev en).time.ps = s.time.ps ∧ (s.engineStep w ev en).time.issued = s.time.issued := by
  unfold State.engineStep
  dsimp only
  split
  · simp
  · simpa using foldl_beat _ (fun b j => b.act_beat _ _) _ s

@[simp] theorem State.pass_beat (ev : Option (List Word)) :
    (s.pass ev).time.ps = s.time.ps ∧ (s.pass ev).time.issued = s.time.issued := by
  unfold State.pass
  split
  · simp
  · exact foldl_beat _ (fun b en => b.engineStep_beat _ ev en) _ s

@[simp] theorem doEventPass_beat : (doEventPass s).time.ps = s.time.ps ∧ (doEventPass s).time.issued = s.time.issued := by
  unfold doEventPass
  split
  · simp
  · dsimp only
    split
    · exact State.pass_beat _ _
    · simp

theorem State.offerWaiting_beat : s.offerWaiting.time.ps = s.time.ps ∧ s.offerWaiting.time.issued = s.time.issued :=
  foldl_beat _ (fun b _ => doEventPass_beat b) _ s

theorem State.markPass_beat : s.markPass.time.ps = s.time.ps ∧ s.markPass.time.issued = s.time.issued := by
  unfold State.markPass
  dsimp only
  split <;> simp

/-! ### TB-G and its sources -/

/-- What TB-G's discipline leaves: the CLK25 time, the marks issued and the index (R373–R378). -/
theorem Time.discipline_beat (t : Time) (order : List GSrc) (stepNs : Int) :
    (t.discipline order stepNs).ps = t.ps ∧ (t.discipline order stepNs).issued = t.issued ∧
      (t.discipline order stepNs).gIdx = t.gIdx := by
  have hsteer (u : Time) (g : GSrc) : (u.steer stepNs g).ps = u.ps ∧ (u.steer stepNs g).issued = u.issued ∧
      (u.steer stepNs g).gIdx = u.gIdx := by
    unfold Time.steer
    dsimp only
    split <;> exact ⟨rfl, rfl, rfl⟩
  unfold Time.discipline
  dsimp only
  split
  · exact hsteer _ _
  · split
    · exact ⟨rfl, rfl, rfl⟩
    · split <;> exact ⟨rfl, rfl, rfl⟩

theorem State.tbgAtMark_time : s.tbgAtMark.time = s.time.noteRates.discipline (gOrder (s.strap 5)) s.stepNs := by
  unfold State.tbgAtMark
  dsimp only
  split <;> simp

theorem State.tbgAtMark_beat :
    s.tbgAtMark.time.ps = s.time.ps ∧ s.tbgAtMark.time.issued = s.time.issued ∧ s.tbgAtMark.mark = s.mark := by
  rw [State.mark, State.tbgAtMark_time]
  exact Time.discipline_beat _ _ _

theorem State.afterStep_beat : s.afterStep.time.ps = s.time.ps ∧ s.afterStep.time.issued = s.time.issued := by
  unfold State.afterStep
  split <;> simp

@[simp] theorem State.dropLabel_beat : s.dropLabel.time.ps = s.time.ps ∧ s.dropLabel.time.issued = s.time.issued := by
  simp [State.dropLabel]

@[simp] theorem State.setPpsEdge_beat (falling : Bool) :
    (s.setPpsEdge falling).time.ps = s.time.ps ∧ (s.setPpsEdge falling).time.issued = s.time.issued := by
  unfold State.setPpsEdge
  dsimp only
  split <;> simp

theorem State.onN_beat (x : Nat) (f : Ptp → Ptp) :
    (s.onN x f).time.ps = s.time.ps ∧ (s.onN x f).time.issued = s.time.issued := by
  unfold State.onN
  dsimp only
  split <;> simp [Time.onN]

@[simp] theorem State.setDomains_beat : s.setDomains.time.ps = s.time.ps ∧ s.setDomains.time.issued = s.time.issued := by
  unfold State.setDomains
  refine foldl_beat _ (fun b x => ?_) _ s
  split
  · exact ⟨rfl, rfl⟩
  · exact State.onN_beat _ _ _

/-! ### The commit, the changeover and Layby entry -/

@[simp] theorem State.orphan_beat (c : Nat) : (s.orphan c).time.ps = s.time.ps ∧ (s.orphan c).time.issued = s.time.issued :=
  ⟨rfl, rfl⟩

@[simp] theorem State.resetUi_beat (c : Nat) :
    (s.resetUi c).time.ps = s.time.ps ∧ (s.resetUi c).time.issued = s.time.issued := by
  simp [State.resetUi]

@[simp] theorem State.commitClients_beat (old im : Image) :
    (s.commitClients old im).time.ps = s.time.ps ∧ (s.commitClients old im).time.issued = s.time.issued := by
  unfold State.commitClients
  refine foldl_beat _ (fun b c => ?_) _ s
  split <;> simp

@[simp] theorem State.commitOld_beat (old : Option Image) (im : Image) :
    (s.commitOld old im).time.ps = s.time.ps ∧ (s.commitOld old im).time.issued = s.time.issued := by
  unfold State.commitOld
  split
  · simp [State.dropOccurrences]
  · simp

@[simp] theorem State.commitIslands_beat (old : Option Image) (im : Image) :
    (s.commitIslands old im).time.ps = s.time.ps ∧ (s.commitIslands old im).time.issued = s.time.issued := by
  simp [State.commitIslands]

@[simp] theorem State.commitImage_beat (l : Load) (im : Image) :
    (s.commitImage l im).time.ps = s.time.ps ∧ (s.commitImage l im).time.issued = s.time.issued := by
  simp [State.commitImage, State.setOccurrences_beat]

theorem State.commitAtMark_beat : s.commitAtMark.time.ps = s.time.ps ∧ s.commitAtMark.time.issued = s.time.issued := by
  unfold State.commitAtMark
  split <;> simp

@[simp] theorem State.laybyAborts_beat : s.laybyAborts.time.ps = s.time.ps ∧ s.laybyAborts.time.issued = s.time.issued := by
  simp [State.laybyAborts]

@[simp] theorem State.enterLayby_beat : s.enterLayby.time.ps = s.time.ps ∧ s.enterLayby.time.issued = s.time.issued := by
  unfold State.enterLayby
  dsimp only
  split <;> simp

theorem State.changeover_beat : s.changeover.time.ps = s.time.ps ∧ s.changeover.time.issued = s.time.issued := by
  unfold State.changeover
  split
  · simp
  · split
    · split <;> simp
    · simp

/-! ### The passes of a mark (R510) -/

/-- The state once the changeover, the commit and the live straps of a mark are done (R510). -/
def State.markChanges (s : State) (chk : PointerCheck) (before : Nat) : State :=
  ((s.findings 1 noPacket chk.found).calAtMark before).changeover.commitAtMark.livesAtMark

/-- The work of a mark in a mode that samples, once the changes of the mark are done (R510). -/
def State.markServes (s : State) (chk : PointerCheck) : State :=
  let t := (s.causewayAtMark chk).clientsAtMark.setOccurrences.pinsAtMark
  (if t.inMode .lane then t.modePads .lane else t).markPass.offerWaiting.takeDecision.takeMoves

theorem State.markAwake_eq (chk : PointerCheck) (before : Nat) :
    s.markAwake chk before = if (s.markChanges chk before).awake
      then ((s.markChanges chk before).markServes chk).tbgAtMark.settle.pump else (s.markChanges chk before).tbgAtMark :=
  rfl

/-- What a state keeps of the clocks of another: the CLK25 time, the marks issued and the mark in progress. -/
def State.sameMark (s t : State) : Prop := t.time.ps = s.time.ps ∧ t.time.issued = s.time.issued ∧ t.mark = s.mark

variable {s} in
theorem State.sameMark.trans {t u : State} (h : s.sameMark t) (k : t.sameMark u) : s.sameMark u :=
  ⟨k.1.trans h.1, k.2.1.trans h.2.1, k.2.2.trans h.2.2⟩

theorem State.markChanges_sameMark (chk : PointerCheck) (before : Nat) : s.sameMark (s.markChanges chk before) := by
  refine ⟨?_, ?_, ?_⟩ <;>
    simp [State.mark, State.markChanges, State.commitAtMark_beat, State.changeover_beat]

theorem State.markServes_sameMark (chk : PointerCheck) : s.sameMark (s.markServes chk) := by
  refine ⟨?_, ?_, ?_⟩ <;>
    simp [State.mark, State.markServes, State.offerWaiting_beat, State.markPass_beat, State.setOccurrences_beat,
      State.clientsAtMark_beat]

theorem State.tbgEnds_sameMark : s.sameMark s.tbgAtMark.settle.pump := by
  refine ⟨?_, ?_, ?_⟩
  · simp [State.tbgAtMark_beat]
  · simp [State.tbgAtMark_beat]
  · have hmark : s.tbgAtMark.settle.pump.mark = s.tbgAtMark.mark := by simp [State.mark]
    exact hmark.trans s.tbgAtMark_beat.2.2

theorem State.markAwake_sameMark (chk : PointerCheck) (before : Nat) : s.sameMark (s.markAwake chk before) := by
  have hchanges := s.markChanges_sameMark chk before
  rw [State.markAwake_eq]
  split
  · exact (hchanges.trans (State.markServes_sameMark _ chk)).trans (State.tbgEnds_sameMark _)
  · exact hchanges.trans (State.tbgAtMark_beat _)

/-! ### The first commit (R523) -/

theorem State.firstCommit_sameMark (l : Load) (im : Image) : s.sameMark (s.firstCommit l im) := by
  refine ⟨?_, ?_, ?_⟩ <;> simp [State.mark, State.firstCommit]

/-- The work of the mark m0, once the first image is in force (R523). -/
def State.firstServes (s : State) (chk : PointerCheck) : State :=
  (s.causewayAtMark chk).clientsAtMark.setOccurrences.pinsAtMark.markPass.offerWaiting.takeDecision.takeMoves

theorem State.firstServes_sameMark (chk : PointerCheck) : s.sameMark (s.firstServes chk) := by
  refine ⟨?_, ?_, ?_⟩ <;>
    simp [State.mark, State.firstServes, State.offerWaiting_beat, State.markPass_beat, State.setOccurrences_beat,
      State.clientsAtMark_beat]

theorem State.markStarting_eq (chk : PointerCheck) : s.markStarting chk = (match s.commitDue with
    | some (l, im) => ((s.firstCommit l im).firstServes chk).tbgAtMark.settle.pump
    | none => if s.straps.accepted then ((List.range 6).foldl State.guestAtMark s).tbgAtMark else s) :=
  rfl

theorem State.markStarting_sameMark (chk : PointerCheck) : s.sameMark (s.markStarting chk) := by
  rw [State.markStarting_eq]
  split
  · exact ((State.firstCommit_sameMark _ _ _).trans (State.firstServes_sameMark _ chk)).trans (State.tbgEnds_sameMark _)
  · split
    · have hguests := foldl_beat State.guestAtMark State.guestAtMark_beat (List.range 6) s
      have hmark : ((List.range 6).foldl State.guestAtMark s).mark = s.mark := by simp [State.mark]
      exact State.sameMark.trans ⟨hguests.1, hguests.2, hmark⟩ (State.tbgAtMark_beat _)
    · exact ⟨rfl, rfl, rfl⟩

end

end Sys2Proof.Machine
end

section
/-! PROOFS. Grid marks: the commit, the first commit, the changeover and Layby (O45). -/

namespace Sys2Proof.Machine

/-! ### A commit whose mark has come (R20, R89, R511) -/

/-- The load of a state is to be committed at the mark in progress (R89). -/
def State.commits (s : State) (l : Load) (m : Nat) : Prop :=
  s.port.load = some l ∧ l.commit = some m ∧ markLe m s.mark = true

theorem State.commits.congr {s t : State} {l : Load} {m : Nat} (h : s.commits l m) (hload : t.port.load = s.port.load)
    (hmark : t.mark = s.mark) : t.commits l m := by
  obtain ⟨hl, hcommit, hle⟩ := h
  exact ⟨hload.trans hl, hcommit, by rw [hmark]; exact hle⟩

theorem State.commitDue_of {s : State} {l : Load} {im : Image} {m : Nat} (h : s.commits l m) (hstaged : l.staged = some im) :
    s.commitDue = some (l, im) := by
  obtain ⟨hl, hcommit, hle⟩ := h
  simp [State.commitDue, hl, hcommit, hstaged, hle]

/-- A load whose commit mark has come is not abandoned (R511). -/
theorem fallAbandon_commits {s : State} {l : Load} {m : Nat} (h : s.commits l m) : s.fallAbandon = s := by
  obtain ⟨hl, hcommit, hle⟩ := h
  simp [State.fallAbandon, hl, hcommit, hle]

theorem leaveCont_load (p : ImagePort) : p.leaveCont.load = p.load := by
  unfold ImagePort.leaveCont
  split <;> rfl

theorem floatImageBus_load (s : State) : s.floatImageBus.port.load = s.port.load := by
  unfold State.floatImageBus
  split
  · exact leaveCont_load _
  · rfl

/-- A fall leaves a load whose commit mark has come: the bus floats, and no more (R97, R511). -/
theorem fallFloat_load {l : Load} {m mark : Nat} (hcommit : l.commit = some m) (hle : markLe m mark = true) (t : State)
    (hload : t.port.load = some l) (hmark : t.time.gIdx = mark) : t.fallAbandon.floatImageBus.port.load = some l := by
  have ht : t.commits l m := ⟨hload, hcommit, by rw [State.mark, hmark]; exact hle⟩
  rw [floatImageBus_load, fallAbandon_commits ht]
  exact hload

theorem toFootpath_load {s : State} {l : Load} {m : Nat} (h : s.commits l m) : s.toFootpath.port.load = some l := by
  obtain ⟨hload, hcommit, hle⟩ := h
  have hfall := fallFloat_load hcommit hle
  simp only [State.toFootpath, State.raiseCall_keeps, State.settlePlan_keeps]
  refine hfall _ ?_ ?_
  · cases hin : s.port.inForce <;> simp [hin, hload]
  · cases hin : s.port.inForce <;> simp [hin, State.mark]

theorem enterLayby_load {s : State} {l : Load} {m : Nat} (h : s.commits l m) : s.enterLayby.port.load = some l := by
  obtain ⟨hload, hcommit, hle⟩ := h
  have hfall := fallFloat_load hcommit hle
  simp only [State.enterLayby, State.placeJobs_keeps, State.laybyClears_keeps, State.pauseJobs_keeps, State.uplinkOff_keeps,
    State.writeModeChange_keeps, State.settle_keeps]
  refine hfall _ ?_ ?_
  · cases hin : s.port.inForce <;> simp [hin, hload]
  · cases hin : s.port.inForce <;> simp [hin, State.mark]

theorem changeMode_load {s : State} {l : Load} {m : Nat} (h : s.commits l m) (dest : Mode) :
    (s.changeMode dest).port.load = some l := by
  unfold State.changeMode
  split
  · exact toFootpath_load h
  · split
    · simpa using h.1
    · simpa using h.1

/-- A changeover leaves a load whose commit mark has come (R511). -/
theorem changeover_commits {s : State} {l : Load} {m : Nat} (h : s.commits l m) : s.changeover.commits l m := by
  have hmark : s.changeover.mark = s.mark := by simp [State.mark]
  refine h.congr ?_ hmark
  rw [h.1]
  unfold State.changeover
  split
  · exact enterLayby_load h
  · split
    · split
      · exact changeMode_load h _
      · exact h.1
    · exact h.1

theorem commitImage_port (s : State) (l : Load) (im : Image) :
    (s.commitImage l im).port.inForce = some im ∧ (s.commitImage l im).port.load = none := by
  simp [State.commitImage, State.putInForce]

/-- The commit of a mark puts its image in force, and the rest of the mark leaves it (R89, R510). -/
theorem markChanges_commits {s : State} {l : Load} {im : Image} {m : Nat} (chk : PointerCheck) (before : Nat)
    (h : s.commits l m) (hstaged : l.staged = some im) :
    (s.markChanges chk before).port.inForce = some im ∧ (s.markChanges chk before).port.load = none := by
  have hcal : ((s.findings 1 noPacket chk.found).calAtMark before).commits l m :=
    h.congr (by simp) (by simp [State.mark])
  have hdue := State.commitDue_of (changeover_commits hcal) hstaged
  have hlive (t : State) : t.livesAtMark.port = t.port := by simp
  rw [State.markChanges, hlive, State.commitAtMark, hdue]
  exact commitImage_port _ l im

theorem markServes_port (s : State) (chk : PointerCheck) : (s.markServes chk).port = s.port := by
  simp [State.markServes]

theorem tbgEnds_keeps (s : State) : s.tbgAtMark.settle.pump.port = s.port ∧ s.tbgAtMark.settle.pump.power = s.power := by
  simp

theorem markAwake_commits {s : State} {l : Load} {im : Image} {m : Nat} (chk : PointerCheck) (before : Nat)
    (h : s.commits l m) (hstaged : l.staged = some im) :
    (s.markAwake chk before).port.inForce = some im ∧ (s.markAwake chk before).port.load = none := by
  have hchanges := markChanges_commits chk before h hstaged
  rw [State.markAwake_eq]
  split
  · rwa [(tbgEnds_keeps _).1, markServes_port]
  · have htbg (t : State) : t.tbgAtMark.port = t.port := by simp
    rwa [htbg]

/-! ### The first commit (R523) -/

theorem takeDecision_power (s : State) :
    s.takeDecision.power.phase = s.power.phase ∧ s.takeDecision.power.mode = s.power.mode := by
  refine ⟨?_, by simp⟩
  unfold State.takeDecision
  dsimp only
  split
  · rfl
  · split
    · rfl
    · split <;> rfl

theorem firstServes_keeps (s : State) (chk : PointerCheck) :
    (s.firstServes chk).port = s.port ∧ (s.firstServes chk).power.phase = s.power.phase ∧
      (s.firstServes chk).power.mode = s.power.mode := by
  simp [State.firstServes, takeDecision_power]

theorem setMode_phase (s : State) (m : Mode) : (s.setMode m).power.phase = s.power.phase := by
  cases m <;> rfl

/-- The first commit: its image and a mode are in force, and the hub runs (R523). -/
theorem firstCommit_spec (s : State) (l : Load) (im : Image) :
    (s.firstCommit l im).port.inForce = some im ∧ (s.firstCommit l im).power.phase = .running ∧
      (s.firstCommit l im).power.mode ≠ none := by
  refine ⟨?_, ?_, ?_⟩
  · simp [State.firstCommit, commitImage_port]
  · simp [State.firstCommit, setMode_phase]
  · simp [State.firstCommit, setMode_power]

/-! ### The changeover whose mark has come (R509, R510) -/

theorem changeMode_mode (s : State) (dest : Mode) : (s.changeMode dest).power.mode = some dest := by
  unfold State.changeMode
  split
  next hfoot =>
    have hdest : dest = .footpath := by simpa using hfoot
    simp [State.toFootpath, setMode_power, hdest]
  · split
    · cases hin : s.port.inForce <;> simp [State.fromFootpath, setMode_power, hin]
    · simp [setMode_power]

theorem changeover_mode {s : State} {m : Mode} {k : Nat} (hlayby : s.power.layby < 64) (hchange : s.power.change = some (m, k))
    (hle : markLe k s.mark = true) : s.changeover.power.mode = some m := by
  have heq : s.changeover = s.changeMode m := by
    rw [State.changeover, if_neg (by omega), hchange]
    exact if_pos hle
  rw [heq]
  exact changeMode_mode s m

theorem markChanges_mode {s : State} {m : Mode} {k : Nat} (chk : PointerCheck) (before : Nat) (hlayby : s.power.layby < 64)
    (hchange : s.power.change = some (m, k)) (hle : markLe k s.mark = true) :
    (s.markChanges chk before).power.mode = some m := by
  have hpower : ((s.findings 1 noPacket chk.found).calAtMark before).power = s.power := by simp
  have hmark : ((s.findings 1 noPacket chk.found).calAtMark before).mark = s.mark := by simp [State.mark]
  have hover := changeover_mode (s := (s.findings 1 noPacket chk.found).calAtMark before) (m := m) (k := k)
    (by rw [hpower]; exact hlayby) (by rw [hpower]; exact hchange) (by rw [hmark]; exact hle)
  simpa [State.markChanges] using hover

theorem modePads_mode (s : State) (m : Mode) : (s.modePads m).power.mode = s.power.mode := by simp

theorem markServes_mode (s : State) (chk : PointerCheck) : (s.markServes chk).power.mode = s.power.mode := by
  simp only [State.markServes, State.takeMoves_keeps, (takeDecision_power _).2, State.offerWaiting_keeps, State.markPass_keeps]
  split <;> simp

theorem tbgEnds_mode (s : State) : s.tbgAtMark.settle.pump.power.mode = s.power.mode := by simp

theorem tbgAtMark_mode (s : State) : s.tbgAtMark.power.mode = s.power.mode := by simp

theorem markAwake_mode {s : State} {m : Mode} {k : Nat} (chk : PointerCheck) (before : Nat) (hlayby : s.power.layby < 64)
    (hchange : s.power.change = some (m, k)) (hle : markLe k s.mark = true) : (s.markAwake chk before).power.mode = some m := by
  rw [State.markAwake_eq, ← markChanges_mode chk before hlayby hchange hle]
  generalize s.markChanges chk before = t
  split
  · exact (tbgEnds_mode _).trans (markServes_mode t chk)
  · exact tbgAtMark_mode t

/-! ### GRID_MARK -/

/-- The state as a grid mark begins: TB-G has come to it (R371, R374). -/
def State.markBegun (s : State) : State := ({ s with time := s.time.atMark } : State).afterStep

theorem doGridMark_clocked {s : State} (chk : PointerCheck) (h : s.clocked = true) :
    doGridMark chk s = (match s.markBegun.power.phase with
      | .running => if s.markBegun.awake then s.markBegun.markAwake chk s.mark else s.markBegun.tbgAtMark
      | .starting => s.markBegun.markStarting chk
      | _ => s.markBegun) :=
  if_pos h

theorem atMark_beat (t : Time) :
    t.atMark.ps = t.ps + t.toMark ∧ t.atMark.issued = t.issued + 1 ∧ t.atMark.gIdx = t.nextMark.1 :=
  ⟨rfl, rfl, rfl⟩

theorem markBegun_beat (s : State) : s.markBegun.time.ps = s.time.ps + s.time.toMark ∧
    s.markBegun.time.issued = s.time.issued + 1 ∧ s.markBegun.mark = s.time.nextMark.1 := by
  obtain ⟨hps, hissued⟩ := State.afterStep_beat ({ s with time := s.time.atMark } : State)
  have hmark : s.markBegun.mark = ({ s with time := s.time.atMark } : State).mark := by simp [State.markBegun, State.mark]
  exact ⟨hps, hissued, hmark⟩

theorem markBegun_keeps (s : State) : s.markBegun.port = s.port ∧ s.markBegun.power = s.power := by
  simp [State.markBegun]

theorem markBegun_frame (s : State) : OnlyWrites [.time, .cw, .mot, .way] s s.markBegun :=
  ⟨by simp [State.markBegun], fun p hp => by cases p <;> simp_all [Part.same, State.markBegun]⟩

/-- Without a step of TB-G the mark writes no record of one (R374). -/
theorem markBegun_plain {s : State} (h : s.time.stepDue = none) : s.markBegun = { s with time := s.time.atMark } := by
  have hprev : s.time.atMark.prevIdx = none := by simp [Time.atMark, h]
  unfold State.markBegun State.afterStep
  dsimp only
  rw [hprev]

theorem onlyWrites_tbgAtMark (s : State) : OnlyWrites [.time, .cw, .way] s s.tbgAtMark :=
  ⟨by simp, fun p hp => by cases p <;> simp_all [Part.same]⟩

theorem doGridMark_sameMark {s : State} (chk : PointerCheck) (h : s.clocked = true) :
    s.markBegun.sameMark (doGridMark chk s) := by
  rw [doGridMark_clocked chk h]
  split
  · split
    · exact State.markAwake_sameMark _ chk _
    · exact State.tbgAtMark_beat _
  · exact State.markStarting_sameMark _ chk
  · exact ⟨rfl, rfl, rfl⟩

section
variable {s : State} (chk : PointerCheck) (hclocked : s.clocked = true)
include hclocked

theorem doGridMark_awake (hrun : s.power.phase = .running) (hawake : s.awake = true) :
    doGridMark chk s = s.markBegun.markAwake chk s.mark := by
  have hphase : s.markBegun.power.phase = .running := by rw [(markBegun_keeps s).2, hrun]
  have hmode : s.markBegun.awake = true := by
    rw [← hawake]
    simp only [State.awake, State.full, State.inMode, (markBegun_keeps s).2]
  rw [doGridMark_clocked chk hclocked, hphase]
  exact if_pos hmode

theorem doGridMark_layby (hrun : s.power.phase = .running) (hlayby : s.power.mode = some .layby) :
    doGridMark chk s = s.markBegun.tbgAtMark := by
  have hphase : s.markBegun.power.phase = .running := by rw [(markBegun_keeps s).2, hrun]
  have hmode : ¬ s.markBegun.awake = true := by
    simp [State.awake, State.full, State.inMode, (markBegun_keeps s).2, hlayby]
  rw [doGridMark_clocked chk hclocked, hphase]
  exact if_neg hmode

theorem doGridMark_starting (hstart : s.power.phase = .starting) {l : Load} {im : Image} {m : Nat}
    (hload : s.port.load = some l) (hstaged : l.staged = some im) (hcommit : l.commit = some m)
    (hle : markLe m s.time.nextMark.1 = true) :
    doGridMark chk s = ((s.markBegun.firstCommit l im).firstServes chk).tbgAtMark.settle.pump := by
  have hphase : s.markBegun.power.phase = .starting := by rw [(markBegun_keeps s).2, hstart]
  have hdue := State.commitDue_of (s := s.markBegun) (m := m)
    ⟨by rw [(markBegun_keeps s).1, hload], hcommit, by rw [(markBegun_beat s).2.2]; exact hle⟩ hstaged
  rw [doGridMark_clocked chk hclocked, hphase]
  change s.markBegun.markStarting chk = _
  rw [State.markStarting_eq, hdue]

end

/-- Settles O45: the mark begins by one move of the clocks, and each clause follows the image port or the mode through the steps of
the mark. -/
theorem gridMarks : Obligations.GridMarks := by
  refine ⟨fun chk s hclocked => ?_, fun chk s l im m hclocked hrun hawake hload hstaged hcommit hle => ?_,
    fun chk s l im m hclocked hstart hload hstaged hcommit hle => ?_,
    fun chk s k m hclocked hrun hawake hlayby hchange hle => ?_, fun chk s hclocked hrun hlayby => ?_,
    fun chk s hclocked => ?_⟩
  · obtain ⟨hps, hissued, hmark⟩ := doGridMark_sameMark chk hclocked
    obtain ⟨hps0, hissued0, hmark0⟩ := markBegun_beat s
    exact ⟨_, rfl, hmark.trans hmark0, hps.trans hps0, hissued.trans hissued0, by simp, by simp⟩
  · have hcommits : s.markBegun.commits l m :=
      ⟨by rw [(markBegun_keeps s).1, hload], hcommit, by rw [(markBegun_beat s).2.2]; exact hle⟩
    exact ⟨_, congrArg Host.Outcome.next (doGridMark_awake chk hclocked hrun hawake),
      markAwake_commits chk s.mark hcommits hstaged⟩
  · obtain ⟨hin, hphase, hmode⟩ := firstCommit_spec s.markBegun l im
    obtain ⟨hport, hphase', hmode'⟩ := firstServes_keeps (s.markBegun.firstCommit l im) chk
    obtain ⟨htbgPort, htbgPower⟩ := tbgEnds_keeps ((s.markBegun.firstCommit l im).firstServes chk)
    refine ⟨_, congrArg Host.Outcome.next (doGridMark_starting chk hclocked hstart hload hstaged hcommit hle), ?_, ?_, ?_⟩
    · rw [htbgPort, hport, hin]
    · rw [htbgPower, hphase', hphase]
    · rw [htbgPower, hmode']
      exact hmode
  · have hpower := (markBegun_keeps s).2
    exact ⟨_, congrArg Host.Outcome.next (doGridMark_awake chk hclocked hrun hawake),
      markAwake_mode (k := k) chk s.mark (by rw [hpower]; exact hlayby) (by rw [hpower]; exact hchange)
        (by rw [(markBegun_beat s).2.2]; exact hle)⟩
  · refine ⟨_, congrArg Host.Outcome.next (doGridMark_layby chk hclocked hrun hlayby), fun hstep => ?_,
      ((markBegun_frame s).trans (onlyWrites_tbgAtMark _)).mono (by simp)⟩
    rw [markBegun_plain hstep]
    exact ((onlyWrites_time s s.time.atMark).trans (onlyWrites_tbgAtMark _)).mono (by simp)
  · exact congrArg Host.Outcome.next (if_neg (by simp [hclocked]))

end Sys2Proof.Machine
end

section
/-! PROOFS. Roads: what one road's commands leave of it and of the others (10_roads.md, 11_in_phase.md), and O37. -/

namespace Sys2Proof.Machine

/-! ### One road changes -/

/-- From s to t road r alone changes, and P relates its two states. -/
def State.moves (P : Road → Road → Prop) (r : Nat) (s t : State) : Prop :=
  (∀ i, i ≠ r → t.road i = s.road i) ∧ t.roads.length = s.roads.length ∧ P (s.road r) (t.road r)

section
variable {P Q : Road → Road → Prop} {r : Nat} {s t u : State}

theorem State.moves.trans (hP : ∀ {a b c}, P a b → P b c → P a c) (h : s.moves P r t) (k : t.moves P r u) : s.moves P r u :=
  ⟨fun i hi => (k.1 i hi).trans (h.1 i hi), k.2.1.trans h.2.1, hP h.2.2 k.2.2⟩

theorem State.moves.of_roads (hP : ∀ a, P a a) (h : t.roads = s.roads) : s.moves P r t := by
  have hroad (i : Nat) : t.road i = s.road i := by rw [State.road, State.road, h]
  exact ⟨fun i _ => hroad i, by rw [h], by rw [hroad]; exact hP _⟩

theorem State.moves.mono (hPQ : ∀ {a b}, P a b → Q a b) (h : s.moves P r t) : s.moves Q r t := ⟨h.1, h.2.1, hPQ h.2.2⟩

theorem State.moves.foldl {α : Type} (hrefl : ∀ a, P a a) (htrans : ∀ {a b c}, P a b → P b c → P a c) {f : State → α → State}
    (h : ∀ (s : State) (a : α), s.moves P r (f s a)) (l : List α) (s : State) : s.moves P r (l.foldl f s) := by
  induction l generalizing s with
  | nil => exact .of_roads hrefl rfl
  | cons a l ih => exact (h s a).trans htrans (ih _)

theorem State.onRoad_ne (s : State) (f : Road → Road) {i : Nat} (h : i ≠ r) : (s.onRoad r f).road i = s.road i :=
  nth_modify_ne _ h f

theorem State.onRoad_same (f : Road → Road) (h : r < s.roads.length) : (s.onRoad r f).road r = f (s.road r) :=
  nth_modify_same h f

theorem State.onRoad_moves {f : Road → Road} (hP : ∀ a, P a a) (h : ∀ a, P a (f a)) : s.moves P r (s.onRoad r f) := by
  refine ⟨fun i hi => State.onRoad_ne s f hi, by simp [State.onRoad], ?_⟩
  rcases nth_modify_cases s.roads r r f with hsame | hchanged
  · rw [State.road, State.road, State.onRoad, hsame]
    exact hP _
  · rw [State.road, State.road, State.onRoad, hchanged]
    exact h _

end

theorem onlyWrites_onRoad (s : State) (r : Nat) (f : Road → Road) : OnlyWrites [.roads] s (s.onRoad r f) :=
  ⟨rfl, fun p hp => by cases p <;> simp_all [Part.same]⟩

/-! ### A node of a road changes -/

theorem Road.admittedAt_pos {rd : Road} {p : Nat} {nd : Node} (h : rd.admittedAt p = some nd) : nd.pos = p := by
  have := List.find?_some h
  simp only [Bool.and_eq_true, beq_iff_eq] at this
  exact this.1

/-- A change of a node that keeps its position and admission is seen where it is admitted. -/
theorem Road.admittedAt_onNode (rd : Road) (p q : Nat) {f : Node → Node} (hpos : ∀ nd, (f nd).pos = nd.pos)
    (hadm : ∀ nd, (f nd).admitted = nd.admitted) :
    (rd.onNode p f).admittedAt q = (rd.admittedAt q).map fun nd => if nd.pos = p then f nd else nd := by
  have hpred : ((fun nd : Node => nd.pos == q && nd.admitted) ∘ fun nd => if nd.pos = p then f nd else nd) =
      fun nd => nd.pos == q && nd.admitted := by
    funext nd
    simp only [Function.comp_apply]
    split
    · rw [hpos, hadm]
    · rfl
  rw [Road.admittedAt, Road.onNode, List.find?_map, hpred]
  rfl

theorem Road.admittedAt_onNode_same {rd : Road} {p : Nat} {nd : Node} {f : Node → Node} (h : rd.admittedAt p = some nd)
    (hpos : ∀ nd, (f nd).pos = nd.pos) (hadm : ∀ nd, (f nd).admitted = nd.admitted) :
    (rd.onNode p f).admittedAt p = some (f nd) := by
  rw [Road.admittedAt_onNode rd p p hpos hadm, h, Option.map_some, if_pos (Road.admittedAt_pos h)]

/-! ### What staging leaves of a road (R271, R289, R294, R295) -/

/-- The measurement cycle and the EPOCH of two states of a road are the same. -/
def Road.sameCycle (a b : Road) : Prop := b.cycle = a.cycle ∧ b.epoch = a.epoch

/-- The cycle, the EPOCH, the lost positions and the admissions of two states of a road are the same. -/
def Road.stays (a b : Road) : Prop :=
  a.sameCycle b ∧ b.lostDecl = a.lostDecl ∧
    b.nodes.map (fun nd => (nd.pos, nd.admitted)) = a.nodes.map (fun nd => (nd.pos, nd.admitted))

theorem Road.sameCycle.refl (a : Road) : a.sameCycle a := ⟨rfl, rfl⟩

theorem Road.sameCycle.trans {a b c : Road} (h : a.sameCycle b) (k : b.sameCycle c) : a.sameCycle c :=
  ⟨k.1.trans h.1, k.2.trans h.2⟩

theorem Road.stays.refl (a : Road) : a.stays a := ⟨.refl a, rfl, rfl⟩

theorem Road.stays.trans {a b c : Road} (h : a.stays b) (k : b.stays c) : a.stays c :=
  ⟨h.1.trans k.1, k.2.1.trans h.2.1, k.2.2.trans h.2.2⟩

theorem Road.stays.of_eq {a b : Road} (hcycle : b.cycle = a.cycle) (hepoch : b.epoch = a.epoch)
    (hlost : b.lostDecl = a.lostDecl) (hnodes : b.nodes = a.nodes) : a.stays b :=
  ⟨⟨hcycle, hepoch⟩, hlost, by rw [hnodes]⟩

theorem Road.foldl_stays {α : Type} {f : Road → α → Road} (h : ∀ (rd : Road) (a : α), rd.stays (f rd a)) (l : List α) (rd : Road) :
    rd.stays (l.foldl f rd) := by
  induction l generalizing rd with
  | nil => exact .refl rd
  | cons a l ih => exact (h rd a).trans (ih _)

section
variable (rd : Road)

theorem Road.onNode_stays (p : Nat) {f : Node → Node} (hpos : ∀ nd, (f nd).pos = nd.pos)
    (hadm : ∀ nd, (f nd).admitted = nd.admitted) : rd.stays (rd.onNode p f) := by
  refine ⟨⟨rfl, rfl⟩, rfl, ?_⟩
  simp only [Road.onNode, List.map_map]
  congr 1
  funext nd
  simp only [Function.comp_apply]
  split
  · rw [hpos, hadm]
  · rfl

theorem Road.stage_stays (p : Nat) (c : Cmd) : rd.stays (rd.stage p c) := by
  have h : rd.stays (rd.onNode p (·.queueCmd c)) := rd.onNode_stays p (fun _ => rfl) (fun _ => rfl)
  exact h

theorem Road.stageLatch_stays (p : Nat) (l : Int) : rd.stays (rd.stageLatch p l) :=
  (rd.stage_stays p _).trans (Road.onNode_stays _ p (fun _ => rfl) (fun _ => rfl))

theorem Road.stageSlot_stays (p tx : Nat) : rd.stays (rd.stageSlot p tx) :=
  (rd.stage_stays p _).trans (Road.onNode_stays _ p (fun _ => rfl) (fun _ => rfl))

theorem Road.restageSlot_stays (nd : Node) : rd.stays (rd.restageSlot nd) := by
  unfold Road.restageSlot
  split
  · split
    · exact Road.stageSlot_stays _ _ _
    · exact .refl rd
  · exact .refl rd

theorem Road.restageNode_stays (all : Bool) (nd : Node) : rd.stays (Road.restageNode all rd nd) := by
  unfold Road.restageNode
  split
  · exact .refl rd
  · dsimp only
    split
    · exact (rd.stageLatch_stays _ _).trans (Road.restageSlot_stays _ nd)
    · exact rd.restageSlot_stays nd

theorem Road.restage_stays (all : Bool) : rd.stays (rd.restage all) :=
  Road.foldl_stays (fun a nd => a.restageNode_stays all nd) _ rd

theorem Road.newOffsets_stays (declared : Nat → Bool) : rd.stays (rd.newOffsets declared) := by
  unfold Road.newOffsets
  dsimp only
  exact (Road.stays.of_eq rfl rfl rfl rfl).trans (Road.restage_stays _ false)

theorem Road.applyOffsets_stays (declared : Nat → Bool) : rd.stays (rd.applyOffsets declared) := by
  unfold Road.applyOffsets
  split
  · have hset : rd.stays { rd with offsets := false } := .of_eq rfl rfl rfl rfl
    have hnew := hset.trans (Road.newOffsets_stays _ declared)
    refine hnew.trans ⟨⟨rfl, rfl⟩, rfl, ?_⟩
    simp
  · exact .refl rd

theorem Road.toggleFromMark_stays (n : Nat) : rd.stays (rd.toggleFromMark n) := .of_eq rfl rfl rfl rfl

theorem Road.defer_stays (offsets : Bool) (n : Nat) : rd.stays (rd.defer offsets n) := .of_eq rfl rfl rfl rfl

theorem Road.stageMaker_stays (nd : Node) (pay : List Byte) : rd.stays (rd.stageMaker nd pay) := by
  unfold Road.stageMaker
  split
  · exact .refl rd
  · split
    · exact rd.onNode_stays _ (fun _ => rfl) (fun _ => rfl)
    · exact (rd.stage_stays _ _).trans (Road.onNode_stays _ _ (fun _ => rfl) (fun _ => rfl))

end

/-! ### What the commands of a road leave of it -/

theorem State.moves.andStays {r : Nat} {s t u : State} (h : s.moves Road.stays r t) (k : t.moves Road.stays r u) :
    s.moves Road.stays r u :=
  ⟨fun i hi => (k.1 i hi).trans (h.1 i hi), k.2.1.trans h.2.1, h.2.2.trans k.2.2⟩

theorem State.moves.andCycle {r : Nat} {s t u : State} (h : s.moves Road.sameCycle r t) (k : t.moves Road.sameCycle r u) :
    s.moves Road.sameCycle r u :=
  ⟨fun i hi => (k.1 i hi).trans (h.1 i hi), k.2.1.trans h.2.1, h.2.2.trans k.2.2⟩

section
variable (s : State) (r : Nat)

theorem State.onRoad_stays {f : Road → Road} (h : ∀ rd : Road, rd.stays (f rd)) : s.moves Road.stays r (s.onRoad r f) :=
  State.onRoad_moves Road.stays.refl h

theorem State.moves_roads {t : State} (h : t.roads = s.roads) : s.moves Road.stays r t := .of_roads Road.stays.refl h

theorem State.stageNode_stays (nd : Node) : s.moves Road.stays r (s.stageNode r nd) := by
  unfold State.stageNode
  dsimp only
  refine State.onRoad_stays s r fun rd => Road.stays.trans ?_ (Road.toggleFromMark_stays _ _)
  refine Road.stays.trans ?_ (Road.stageMaker_stays _ _ _)
  refine Road.stays.trans ?_ (Road.foldl_stays (fun a c => a.stage_stays _ _) _ _)
  refine Road.stays.trans ?_ (Road.stageSlot_stays _ _ _)
  refine Road.stays.trans ?_ (Road.stageLatch_stays _ _ _)
  split
  · exact (Road.stays.of_eq rfl rfl rfl rfl).trans (Road.restage_stays _ true)
  · exact (Road.stays.of_eq rfl rfl rfl rfl).trans (Road.restage_stays _ false)

theorem State.catchUp_stays : s.moves Road.stays r (s.catchUp r) := by
  unfold State.catchUp
  split
  · exact s.moves_roads r rfl
  next n _ =>
    split
    · exact s.moves_roads r rfl
    · dsimp only
      refine State.moves.andStays (State.onRoad_stays s r fun rd => ?_)
        (State.moves.foldl Road.stays.refl Road.stays.trans (fun s nd => s.stageNode_stays r nd) _ _)
      have happly : rd.stays (({ rd with deferred := none } : Road).applyOffsets (s.declared r)) :=
        (Road.stays.of_eq rfl rfl rfl rfl).trans (Road.applyOffsets_stays _ _)
      split
      · exact happly.trans (Road.toggleFromMark_stays _ n)
      · exact happly

theorem State.stageSoon_stays (offsets : Bool) : s.moves Road.stays r (s.stageSoon r offsets) :=
  (State.onRoad_stays s r fun rd => rd.defer_stays offsets s.mark).andStays (State.catchUp_stays _ r)

theorem State.enumEnd_stays : s.moves Road.stays r (s.enumEnd r) := by
  have hset : s.moves Road.stays r (s.onRoad r fun rd =>
      { rd with enumPos := none, enumWait := false, enumRetry := false, unanswered := 0, tries := 0, midRun := false
                started := true }) := State.onRoad_stays s r fun rd => .of_eq rfl rfl rfl rfl
  unfold State.enumEnd
  dsimp only
  split
  · exact hset
  · have hreport (u : State) : u.moves Road.stays r (u.roadReport r 2) := u.moves_roads r (by simp)
    exact (hset.andStays (hreport _)).andStays (State.stageSoon_stays _ r true)

theorem State.onNode_stays (p : Nat) {f : Node → Node} (hpos : ∀ nd, (f nd).pos = nd.pos)
    (hadm : ∀ nd, (f nd).admitted = nd.admitted) : s.moves Road.stays r (s.onNode r p f) :=
  State.onRoad_stays s r fun rd => rd.onNode_stays p hpos hadm

theorem State.nodeTiming_stays (nd : Node) (reason cause a b : Nat) (prev : Int) :
    s.moves Road.stays r (s.nodeTiming r nd reason cause a b prev) := by
  unfold State.nodeTiming
  exact (s.moves_roads r (by simp)).andStays (State.onNode_stays _ r _ (fun _ => rfl) (fun _ => rfl))

/-! ### Cycles and toggles (R293–R299) -/

/-- A road keeps its cycle and its EPOCH where it stays. -/
theorem State.moves.cycle {s t : State} {r : Nat} (h : s.moves Road.stays r t) : s.moves Road.sameCycle r t :=
  h.mono fun h => h.1

theorem State.onRoad_sameCycle {f : Road → Road} (h : ∀ rd : Road, rd.sameCycle (f rd)) :
    s.moves Road.sameCycle r (s.onRoad r f) :=
  State.onRoad_moves Road.sameCycle.refl h

/-- A node that is declared lost (R299). -/
def Node.lose (nd : Node) : Node :=
  { nd with admitted := false, chans := [], staged := none, latch := none, latchSt := none, txoff := none, txoffSt := none
            queue := [], cur := none, adm := none, outRun := none, lateFrom := none, stepDue := false, mpay := [], join := 0
            justMode := [], got := [] }

/-- The state once the loss of a node is recorded (R299, R302). -/
def State.lossRecorded (nd : Node) (cause : Nat) : State :=
  let t := (s.stopNode r nd 2 (s.mark + 1)).onNode r nd.pos Node.lose
  t.nodeTiming r nd 1 cause nd.lastSlot (t.mark + 1) 0

/-- The image in force has an entry for a position of a road (R282). -/
def State.listed (p : Nat) : Bool :=
  match s.port.inForce with
  | some im => (im.nodeEntry r p).isSome
  | none => false

/-- A road once the node at a position is lost: fault bit 6 shows a declared one, and nothing is asked of it (R299). -/
def Road.forgets (declared : Bool) (p : Nat) (rd : Road) : Road :=
  { rd with lostDecl := if declared && !rd.lostDecl.contains p then rd.lostDecl ++ [p] else rd.lostDecl
            echoRetry := if rd.echoRetry == some p then none else rd.echoRetry
            ackPos := if rd.ackPos == some p then none else rd.ackPos }

/-- The state once a node is lost, before the enumeration that admitted it ends (R277, R299). -/
def State.nodeGone (nd : Node) (cause : Nat) : State :=
  (s.lossRecorded r nd cause).onRoad r (Road.forgets ((s.lossRecorded r nd cause).listed r nd.pos) nd.pos)

theorem State.loseNode_eq (nd : Node) (cause : Nat) : s.loseNode r nd cause =
    if ((s.nodeGone r nd cause).road r).admitNext = some nd.pos
    then ((s.nodeGone r nd cause).onRoad r fun rd => { rd with admitNext := none }).enumEnd r else s.nodeGone r nd cause :=
  rfl

/-- What ends the enumeration after a loss leaves (R277, R299). -/
theorem State.loseNode_stays (nd : Node) (cause : Nat) : (s.nodeGone r nd cause).moves Road.stays r (s.loseNode r nd cause) := by
  rw [State.loseNode_eq]
  split
  · refine State.moves.andStays (State.onRoad_stays _ r fun rd => ?_) (State.enumEnd_stays _ r)
    exact .of_eq rfl rfl rfl rfl
  · exact State.moves_roads _ r rfl

theorem State.lossRecorded_sameCycle (nd : Node) (cause : Nat) : s.moves Road.sameCycle r (s.lossRecorded r nd cause) := by
  have hstop : s.moves Road.sameCycle r (s.stopNode r nd 2 (s.mark + 1)) := .of_roads Road.sameCycle.refl (by simp)
  have hlose (u : State) : u.moves Road.sameCycle r (u.onNode r nd.pos Node.lose) :=
    State.onRoad_sameCycle u r fun rd => ⟨rfl, rfl⟩
  exact (hstop.andCycle (hlose _)).andCycle
    (State.nodeTiming_stays _ r nd 1 cause _ _ _).cycle

theorem State.loseNode_sameCycle (nd : Node) (cause : Nat) : s.moves Road.sameCycle r (s.loseNode r nd cause) := by
  have hforget (u : State) (b : Bool) : u.moves Road.sameCycle r (u.onRoad r (Road.forgets b nd.pos)) :=
    State.onRoad_sameCycle u r fun rd => ⟨rfl, rfl⟩
  exact ((s.lossRecorded_sameCycle r nd cause).andCycle (hforget _ _)).andCycle
    (s.loseNode_stays r nd cause).cycle

/-- The road once a cycle has ended, no node lost yet (R293). -/
def Road.cycleOver (rd : Road) (c : Nat) : Road :=
  { rd with cycle := c + 1, nodes := rd.nodes.map fun nd => if nd.admitted then nd.endCycle c else nd }

/-- The nodes that two cycles without a valid echo lose (R298). -/
def State.losesSilent : State :=
  ((s.road r).admitted.filter fun nd => decide (2 ≤ nd.noEcho)).foldl (fun s nd => s.loseNode r nd 3) s

theorem State.cycleEnd_eq : s.cycleEnd r =
    let t := (s.onRoad r fun rd => rd.cycleOver (s.road r).cycle).losesSilent r
    if (t.road r).started then t.onRoad r (·.defer true (1024 * ((s.road r).cycle + 2))) else t :=
  rfl

theorem State.cycleEnd_sameCycle :
    (s.onRoad r fun rd => rd.cycleOver (s.road r).cycle).moves Road.sameCycle r (s.cycleEnd r) := by
  have hloses (u : State) : u.moves Road.sameCycle r (u.losesSilent r) :=
    State.moves.foldl Road.sameCycle.refl Road.sameCycle.trans (fun s nd => s.loseNode_sameCycle r nd 3) _ _
  rw [State.cycleEnd_eq]
  dsimp only
  split
  · exact (hloses _).andCycle (State.onRoad_stays _ r fun rd => rd.defer_stays _ _).cycle
  · exact hloses _

/-- The channels that a toggle stops and resumes at a node are recorded and closed (R31, R271). -/
def State.toggleRecords (commit : Bool) (nd : Node) : State :=
  let n := s.mark
  let old := nd.chans
  let new := nd.staged.getD old
  let cause := if nd.join = 2 then 2 else if nd.join = 1 then (s.road r).cause else 3
  let s := (chansNotIn old new).foldl (fun s c =>
    (s.closeOpen (roadTag r nd.pos c) true).writeSampling 1 (if commit then 3 else cause) (roadTag r nd.pos c) n) s
  let s := (old.filter fun c => !new.contains c).foldl (fun s c => s.closeOpen (roadTag r nd.pos c) true) s
  (chansNotIn new old).foldl (fun s c => s.writeSampling 2 cause (roadTag r nd.pos c) n) s

/-- A node whose staged bank is in force (R271). -/
def Node.takeBank (old new : List ChanEntry) (nd : Node) : Node :=
  { nd with chans := new, staged := none, latch := nd.latchSt.or nd.latch, latchSt := none
            txoff := nd.txoffSt.or nd.txoff, txoffSt := none, lateFrom := if nd.stepDue then nd.lateFrom else none, join := 0
            justMode := nd.justMode ++ ((chansNew old new).filter (·.mode != 0)).map (·.ch) }

theorem State.toggleNode_eq (commit : Bool) (nd : Node) : s.toggleNode r commit nd =
    if nd.latch.isNone && nd.latchSt.isNone then s
    else
      let u := (s.toggleRecords r commit nd).onNode r nd.pos (Node.takeBank nd.chans (nd.staged.getD nd.chans))
      if nd.join = 2 then u.nodeTiming r nd 2 0 nd.joinMark s.mark 0 else u :=
  rfl

theorem State.toggleRecords_roads (commit : Bool) (nd : Node) : (s.toggleRecords r commit nd).roads = s.roads := by
  simp [State.toggleRecords]

theorem State.toggleNode_stays (commit : Bool) (nd : Node) : s.moves Road.stays r (s.toggleNode r commit nd) := by
  have htake : s.moves Road.stays r
      ((s.toggleRecords r commit nd).onNode r nd.pos (Node.takeBank nd.chans (nd.staged.getD nd.chans))) :=
    (s.moves_roads r (s.toggleRecords_roads r commit nd)).andStays
      (State.onNode_stays _ r nd.pos (fun _ => rfl) (fun _ => rfl))
  rw [State.toggleNode_eq]
  split
  · exact s.moves_roads r rfl
  · dsimp only
    split
    · exact htake.andStays (State.nodeTiming_stays _ r nd 2 0 _ _ 0)
    · exact htake

theorem State.clearLost_sameCycle : s.moves Road.sameCycle r (s.clearLost r) := by
  have hkeep (b : Bool) (rd : Road) : rd.sameCycle (if b then { rd with lostDecl := [] } else rd) := by
    cases b <;> exact ⟨rfl, rfl⟩
  exact State.onRoad_sameCycle s r fun rd => hkeep _ rd

/-- A road whose EPOCH toggles: its staged D_max is in force (R295). -/
def Road.toggled (rd : Road) : Road :=
  { rd with epoch := !rd.epoch, dmax := rd.dNext, dmaxSt := none, toggleFrom := none, imgCommit := none, dirty := false }

/-- The nodes of a road take their staged banks into force (R271). -/
def State.toggleNodes (commit : Bool) (l : List Node) : State := l.foldl (fun s nd => s.toggleNode r commit nd) s

theorem State.toggleNodes_stays (commit : Bool) (l : List Node) : s.moves Road.stays r (s.toggleNodes r commit l) :=
  State.moves.foldl Road.stays.refl Road.stays.trans (fun s nd => s.toggleNode_stays r commit nd) l s

theorem State.toggleRoad_due (h : (s.road r).toggleDue s.mark = true) :
    s.toggleRoad r = ((s.onRoad r Road.toggled).toggleNodes r (s.road r).imgCommit.isSome (s.road r).admitted).clearLost r :=
  if_pos h

/-- What a toggle leaves: the other roads, the cycle, and the EPOCH that it flips where it is due (R295). -/
theorem State.toggleRoad_moves (h : r < s.roads.length) : s.moves (fun a b => b.cycle = a.cycle ∧
    b.epoch = if a.toggleDue s.mark then !a.epoch else a.epoch) r (s.toggleRoad r) := by
  by_cases hdue : (s.road r).toggleDue s.mark = true
  · have hflip : (s.onRoad r Road.toggled).road r = (s.road r).toggled := State.onRoad_same _ h
    obtain ⟨hothers, hlen, hcycle, hepoch⟩ := ((State.toggleNodes_stays (s.onRoad r Road.toggled) r
      (s.road r).imgCommit.isSome (s.road r).admitted).cycle).andCycle (State.clearLost_sameCycle _ r)
    rw [hflip] at hcycle hepoch
    rw [State.toggleRoad_due s r hdue]
    refine ⟨fun i hi => (hothers i hi).trans (State.onRoad_ne s _ hi), hlen.trans (by simp [State.onRoad]), hcycle, ?_⟩
    rw [hepoch, if_pos hdue]
    rfl
  · rw [State.toggleRoad, if_neg hdue]
    exact ⟨fun _ _ => rfl, rfl, rfl, by rw [if_neg hdue]⟩

/-! ### ROAD_START and MARK_LAUNCH (R267, R277) -/

/-- What the end of a skipped cycle leaves: the other roads, and the cycle that has come (R374). -/
theorem State.cycleSkipped_moves (h : r < s.roads.length) : s.moves (fun a b => b.cycle = max a.cycle (s.mark / 1024) ∧
    (s.mark / 1024 ≤ a.cycle → b = a)) r (s.cycleSkipped r) := by
  unfold State.cycleSkipped
  split
  next hlt =>
    obtain ⟨hothers, hlen, -⟩ := s.cycleEnd_sameCycle r
    have hend : r < (s.cycleEnd r).roads.length := by
      rw [hlen]
      simpa [State.onRoad] using h
    refine ⟨fun i hi => ?_, ?_, ?_⟩
    · rw [State.onRoad_ne _ _ hi, hothers i hi, State.onRoad_ne _ _ hi]
    · simp only [State.onRoad, List.length_modify] at hlen ⊢
      exact hlen
    · rw [State.onRoad_same _ hend]
      exact ⟨(Nat.max_eq_right (Nat.le_of_lt hlt)).symm, fun hle => absurd hlt (Nat.not_lt.mpr hle)⟩
  next hge =>
    have hle : s.mark / 1024 ≤ (s.road r).cycle := Nat.not_lt.mp hge
    exact ⟨fun _ _ => rfl, rfl, (Nat.max_eq_left hle).symm, fun _ => rfl⟩

end

/-- Commands that are sent leave the EPOCH and the cycle (R272). -/
theorem Road.sendTo_sameCycle (rd : Road) (n p : Nat) : rd.sameCycle (rd.sendTo n p).1 := by
  unfold Road.sendTo
  split <;> exact ⟨rfl, rfl⟩

theorem Road.pickCmds_sameCycle (rd : Road) (n : Nat) : rd.sameCycle (rd.pickCmds n).1 := by
  have hfold (l : List Nat) (a : Road × List (List Byte)) : a.1.sameCycle (l.foldl
      (fun (a : Road × List (List Byte)) p => let (rd, f) := a.1.sendTo n p; (rd, a.2 ++ f)) a).1 := by
    induction l generalizing a with
    | nil => exact .refl _
    | cons p l ih => exact (a.1.sendTo_sameCycle n p).trans (ih _)
  unfold Road.pickCmds
  dsimp only
  split
  · exact (rd.sendTo_sameCycle n _).trans (hfold _ _)
  · exact hfold _ _

/-- What a launch makes of a road (R265, R267): the cycle and the EPOCH as they were, and a burst that begins with the MARK. -/
theorem Road.launch_spec (rd : Road) (r n markPs : Nat) : rd.sameCycle (rd.launch r n markPs) ∧
    (rd.launch r n markPs).launched = some n ∧ ∃ hold fs, (rd.launch r n markPs).burst =
      markFrame n (rd.launch r n markPs).epoch r ((rd.launch r n markPs).echoPos.getD 0xFF) hold :: fs := by
  have hpick := rd.pickCmds_sameCycle n
  unfold Road.launch
  dsimp only
  exact ⟨hpick, rfl, _, _, rfl⟩

section
variable {s : State} {r : Nat}

/-- A road as it starts to launch and to enumerate (R277). -/
theorem doRoadStart_due (hwanted : s.roadWanted r = true) (hoff : (s.road r).on = false)
    (hstop : (s.road r).stopAt + msPs 1050 ≤ s.now) : ∃ f : Road → Road, doRoadStart r s = s.onRoad r f ∧
      ∀ rd, (f rd).on = true ∧ (f rd).enumPos = some 0 ∧ (f rd).nodes = [] ∧ (f rd).started = false := by
  have hcond : (s.roadWanted r && !(s.road r).on && decide ((s.road r).stopAt + msPs 1050 ≤ s.now)) = true := by
    simp [hwanted, hoff, hstop]
  refine ⟨_, if_pos hcond, fun rd => ⟨rfl, rfl, rfl, rfl⟩⟩

/-- The state in which a mark's burst is formed (R267): the skipped cycle has ended, the toggle is done, and what waited is
staged. -/
def State.launchReady (s : State) (r : Nat) : State :=
  let t := ((s.cycleSkipped r).toggleRoad r).catchUp r
  if (t.road r).enumPos = some 64 ∧ (t.road r).admitNext = none then t.enumEnd r else t

theorem doMarkLaunch_due (hon : (s.road r).on = true) (hwanted : s.roadWanted r = true)
    (hnew : (s.road r).launched ≠ some s.mark) : doMarkLaunch r s =
      (s.launchReady r).onRoad r fun rd => rd.launch r (s.launchReady r).mark (s.launchReady r).markPs := by
  have hcond : ((s.road r).on && s.roadWanted r && (s.road r).launched != some s.mark) = true := by
    simp [hon, hwanted, hnew]
  exact if_pos hcond

theorem State.launchReady_time (s : State) (r : Nat) : (s.launchReady r).time = s.time := by
  unfold State.launchReady
  dsimp only
  split <;> simp

theorem doMarkLaunch_frame (r : Nat) (s : State) : OnlyWrites [.cw, .way, .roads] s (doMarkLaunch r s) :=
  ⟨by simp, fun p hp => by cases p <;> simp_all [Part.same]⟩

/-- What the launch finds of the road (R267, R295, R374). -/
theorem State.launchReady_moves (h : r < s.roads.length) : s.moves (fun a b => b.cycle = max a.cycle (s.mark / 1024) ∧
    (s.mark / 1024 ≤ a.cycle → b.epoch = if a.toggleDue s.mark then !a.epoch else a.epoch)) r (s.launchReady r) := by
  obtain ⟨hothers, hlen, hcycle, hsame⟩ := s.cycleSkipped_moves r h
  have hmark : (s.cycleSkipped r).mark = s.mark := by
    unfold State.cycleSkipped
    split <;> simp [State.mark]
  obtain ⟨hothers', hlen', hcycle', hepoch'⟩ := (s.cycleSkipped r).toggleRoad_moves r (by rw [hlen]; exact h)
  have hready : ((s.cycleSkipped r).toggleRoad r).moves Road.stays r (s.launchReady r) := by
    have hcatch := ((s.cycleSkipped r).toggleRoad r).catchUp_stays r
    unfold State.launchReady
    dsimp only
    split
    · exact hcatch.andStays (State.enumEnd_stays _ r)
    · exact hcatch
  obtain ⟨hothers'', hlen'', ⟨hcycle'', hepoch''⟩, -⟩ := hready
  refine ⟨fun i hi => ((hothers'' i hi).trans (hothers' i hi)).trans (hothers i hi), (hlen''.trans hlen').trans hlen,
    (hcycle''.trans hcycle').trans hcycle, fun hle => ?_⟩
  rw [hepoch'', hepoch', hmark, hsame hle]

/-! ### Replies of an enumeration (R277, R283) -/

/-- The one-way delay that a reply's arrival gives, in ps (R277). -/
def Road.replyDelay (rd : Road) (arrive : Nat) : Int :=
  (((arrive * 100 : Nat) : Int) - (rd.enumAt * 100 : Nat) - (rd.hold * 50000 : Nat)) / 2

/-- The channels of a position's entry, where a node takes them (R282, R283). -/
def takenChans (entry : Option NodeEntry) (withCh : Bool) : List ChanEntry :=
  if withCh then (match entry with
    | some e => e.chans
    | none => []) else []

/-- The node that a road admits at a position, among those at its sides (R276). -/
theorem Road.joinNode_spec (rd : Road) (p n : Nat) (rx : EnumIn) (delay : Int) (chans : List ChanEntry) :
    (rd.joinNode p n rx delay chans).admitNext = some p ∧
      ∃ nd, (rd.joinNode p n rx delay chans).admittedAt p = some nd ∧ nd.uid = rx.uid ∧ nd.delay = delay ∧
        nd.staged = some chans := by
  refine ⟨rfl, ?_⟩
  have hbelow : (rd.nodes.filter fun x => decide (x.pos < p)).find? (fun nd => nd.pos == p && nd.admitted) = none := by
    refine List.find?_eq_none.mpr fun x hx => ?_
    have := (List.mem_filter.mp hx).2
    simp only [decide_eq_true_eq] at this
    simp [Nat.ne_of_lt this]
  unfold Road.joinNode Road.admittedAt
  dsimp only
  rw [List.append_assoc, List.find?_append, hbelow, Option.none_or, List.singleton_append,
    List.find?_cons_of_pos (by simp)]
  exact ⟨_, rfl, rfl, rfl, rfl⟩

theorem State.enumGood_matches {p arrive : Nat} {rx : EnumIn} {withCh : Bool}
    (hdelay : (s.road r).replyDelay arrive ≤ 150000000)
    (hmatch : matchNode ((s.roadImage r).bind fun i => i.nodeEntry r p) rx.uid rx.maker.toNat rx.model.toNat rx.nch
      (rx.caps.toNat % 2 == 1) = (0, withCh)) :
    s.enumGood r p rx arrive = s.onRoad r fun rd => rd.joinNode p s.mark rx ((s.road r).replyDelay arrive)
      (takenChans ((s.roadImage r).bind fun i => i.nodeEntry r p) withCh) := by
  unfold State.enumGood
  dsimp only
  refine (if_neg (Int.not_lt.mpr hdelay)).trans ?_
  rw [hmatch]
  simp only [true_or, if_true]
  rfl

theorem doEnumReply_good {p : Nat} {rx : UpRx} {bs : List Byte} (hlaunched : s.launchedNow r = true)
    (hwait : (s.road r).enumWait = true) (hpos : (s.road r).enumPos = some p) (hread : readUp 3 18 rx = some (bs, true))
    (hp : upPos bs = p) (hlo : 9480000 ≤ rx.arrive) (hhi : rx.arrive ≤ 9610000) :
    doEnumReply r rx s = s.enumGood r p (enumIn bs) rx.arrive := by
  have hcond : (s.launchedNow r && (s.road r).enumWait) = true := by rw [hlaunched, hwait]; rfl
  unfold doEnumReply
  dsimp only
  rw [if_pos hcond, hpos, hread]
  exact (if_pos rfl).trans (if_pos ⟨hlo, hhi, hp⟩)

/-! ### Acknowledgements (R272, R273) -/

section
variable {before after arrive : Nat} {gs : List (BitVec 10)} {bs : List Byte}

/-- A road with the groups outside the burst of its echo window counted (R280). -/
def Road.strays (before after : Nat) (rd : Road) : Road := { rd with stray := rd.stray + before + after }

/-- What an ACK in the echo window does (R273). -/
theorem doAckFrame_inside {good : Bool} (hlaunched : s.launchedNow r = true) (hlo : 9480000 ≤ arrive)
    (hhi : arrive ≤ 9720000) (hread : readUp 0 5 ⟨gs, arrive⟩ = some (bs, good)) :
    doAckFrame r before ⟨gs, arrive⟩ after s = if good then
      (match ((s.onRoad r (Road.strays before after)).road r).admittedAt (upPos bs) with
        | some nd =>
          if ((s.onRoad r (Road.strays before after)).road r).ackPos = some (upPos bs)
          then (s.onRoad r (Road.strays before after)).onRoad r fun rd => rd.acked nd (nth bs 1).toNat (nth bs 2)
          else s.onRoad r (Road.strays before after)
        | none => s.onRoad r (Road.strays before after))
      else (s.onRoad r (Road.strays before after)).onRoad r fun rd => { rd with hdrFail := rd.hdrFail + 1 } := by
  have hinside : (decide (9480000 ≤ arrive) && decide (arrive ≤ 9720000)) = true := by simp [hlo, hhi]
  unfold doAckFrame
  rw [if_pos hlaunched]
  simp only [hinside, if_true, hread, Nat.add_zero]
  rfl

theorem doAckFrame_good {nd : Node} (hlaunched : s.launchedNow r = true) (hlen : r < s.roads.length) (hlo : 9480000 ≤ arrive)
    (hhi : arrive ≤ 9720000) (hread : readUp 0 5 ⟨gs, arrive⟩ = some (bs, true))
    (hnd : (s.road r).admittedAt (upPos bs) = some nd) (hack : (s.road r).ackPos = some (upPos bs)) :
    doAckFrame r before ⟨gs, arrive⟩ after s =
      (s.onRoad r (Road.strays before after)).onRoad r fun rd => rd.acked nd (nth bs 1).toNat (nth bs 2) := by
  have hroad : (s.onRoad r (Road.strays before after)).road r = (s.road r).strays before after := State.onRoad_same _ hlen
  have hnd' : ((s.road r).strays before after).admittedAt (upPos bs) = some nd := hnd
  rw [doAckFrame_inside hlaunched hlo hhi hread, if_pos rfl, hroad, hnd']
  exact if_pos hack

theorem doAckFrame_bad (hlaunched : s.launchedNow r = true) (hlo : 9480000 ≤ arrive) (hhi : arrive ≤ 9720000)
    (hread : readUp 0 5 ⟨gs, arrive⟩ = some (bs, false)) : doAckFrame r before ⟨gs, arrive⟩ after s =
      (s.onRoad r (Road.strays before after)).onRoad r fun rd => { rd with hdrFail := rd.hdrFail + 1 } := by
  rw [doAckFrame_inside hlaunched hlo hhi hread, if_neg (by simp)]

end

/-- An ACK that shows the SEQ of the outstanding command ends it, and a refused one counts (R272, R273). -/
theorem Road.acked_done {rd : Road} {nd : Node} {p ack k m : Nat} {c : Cmd} (stat : BitVec 8) (h : rd.admittedAt p = some nd)
    (hcur : nd.cur = some (c, ack, k, m)) : (rd.acked nd ack stat).admittedAt p = some { nd with acked := ack, cur := none } ∧
      (rd.acked nd ack stat).refused = rd.refused + b2n (bitOf stat.toNat 4) ∧ (rd.acked nd ack stat).stray = rd.stray := by
  have hp : nd.pos = p := Road.admittedAt_pos h
  subst hp
  have hack := Road.admittedAt_onNode_same (f := fun nd => { nd with acked := ack }) h (fun _ => rfl) (fun _ => rfl)
  have hdone := Road.admittedAt_onNode_same (f := fun nd => { nd with cur := none }) hack (fun _ => rfl) (fun _ => rfl)
  unfold Road.acked
  dsimp only
  rw [hcur]
  dsimp only
  rw [if_pos rfl]
  exact ⟨hdone, rfl, rfl⟩

/-! ### The end of the echo window (R273, R277) -/

/-- An ENUM that got no reply, while the enumeration goes on (R277). -/
theorem State.enumMiss_goesOn (hlen : r < s.roads.length) (hstarted : (s.road r).started = false)
    (hmiss : (s.road r).unanswered < 3) (htries : (s.road r).tries < 15) :
    s.enumMiss r false = s.onRoad r fun rd =>
      { rd with enumWait := false, unanswered := rd.unanswered + 1, tries := rd.tries + 1 } := by
  have hroad : (s.onRoad r fun rd => { rd with enumWait := false, unanswered := rd.unanswered + 1, tries := rd.tries + 1 }).road r =
      { s.road r with enumWait := false, unanswered := (s.road r).unanswered + 1, tries := (s.road r).tries + 1 } :=
    State.onRoad_same _ hlen
  unfold State.enumMiss
  simp only [Bool.false_eq_true, if_false, hroad, hstarted, Bool.false_and]
  exact if_neg (by simp; omega)

/-- A road whose echo window has ended without the reply to an ENUM (R277). -/
def Road.unreplied (rd : Road) : Road :=
  { rd with enumWait := false, unanswered := rd.unanswered + 1, tries := rd.tries + 1 }

theorem doEchoWindowEnd_unreplied (hlen : r < s.roads.length) (hlaunched : s.launchedNow r = true)
    (hwait : (s.road r).enumWait = true) (hstarted : (s.road r).started = false) (hmiss : (s.road r).unanswered < 3)
    (htries : (s.road r).tries < 15) (hecho : (s.road r).echoPos = none)
    (hkeep : ∀ nd ∈ (s.road r).nodes, nd.givesUp s.mark = false) :
    doEchoWindowEnd r s = (s.onRoad r Road.unreplied).onRoad r fun rd => { rd with ackPos := none } := by
  have hroad : (s.onRoad r Road.unreplied).road r = (s.road r).unreplied := State.onRoad_same _ hlen
  have hgone : ((s.onRoad r Road.unreplied).road r).admitted.filter (·.givesUp (s.onRoad r Road.unreplied).mark) = [] := by
    rw [hroad]
    refine List.filter_eq_nil_iff.mpr fun nd hnd => ?_
    have hmem : nd ∈ (s.road r).nodes := (List.mem_filter.mp hnd).1
    have := hkeep nd hmem
    simpa [State.mark] using this
  have hmiss' : s.enumMiss r false = s.onRoad r Road.unreplied := State.enumMiss_goesOn hlen hstarted hmiss htries
  unfold doEchoWindowEnd
  rw [if_pos hlaunched]
  simp only [hwait, if_true, hmiss', hecho, Option.bind_none, hgone, List.foldl_nil]

end

/-- Settles O37: each command is a change of its road alone, through the relations that say what a step leaves of a road. -/
theorem roadsEnumerate : Obligations.RoadsEnumerate := by
  refine ⟨fun r s hlen hwanted hoff hstop => ?_, fun r s hlen hwanted hon hnew => ?_,
    fun r rx s p bs withCh hlen hlaunched hwait hpos hread hp hlo hhi hdelay hmatch => ?_,
    fun r before gs arrive after s bs nd c k m hlen hlaunched hlo hhi hread hnd hack hcur => ?_,
    fun r before gs arrive after s bs hlen hlaunched hlo hhi hread => ?_,
    fun r s hlen hlaunched hwait hstarted hmiss htries hecho hkeep => ?_⟩
  · obtain ⟨f, heq, hf⟩ := doRoadStart_due hwanted hoff hstop
    obtain ⟨h1, h2, h3, h4⟩ := hf (s.road r.val)
    have hroad := State.onRoad_same f hlen
    exact ⟨s.onRoad r.val f, congrArg Host.Outcome.next heq, by rw [hroad]; exact h1, by rw [hroad]; exact h2,
      by rw [hroad]; exact h3, by rw [hroad]; exact h4, fun i hi => State.onRoad_ne s f hi, onlyWrites_onRoad s _ f⟩
  · obtain ⟨hothers, hlen', hcycle, hepoch⟩ := State.launchReady_moves hlen
    have hmark : (s.launchReady r.val).mark = s.mark := by rw [State.mark, State.launchReady_time]; rfl
    have heq := doMarkLaunch_due hon hwanted hnew
    have hroad := State.onRoad_same (s := s.launchReady r.val)
      (fun rd => rd.launch r.val (s.launchReady r.val).mark (s.launchReady r.val).markPs) (by rw [hlen']; exact hlen)
    obtain ⟨⟨hc, he⟩, hl, hburst⟩ :=
      ((s.launchReady r.val).road r.val).launch_spec r.val (s.launchReady r.val).mark (s.launchReady r.val).markPs
    have hframe := doMarkLaunch_frame r.val s
    rw [heq] at hframe
    refine ⟨_, congrArg Host.Outcome.next heq, ?_, ?_, fun hle => ?_, ?_, fun i hi => ?_, hframe⟩
    · rw [hroad, hl, hmark]
    · rw [hroad, hc, hcycle]
    · rw [hroad, he, hepoch hle]
    · rw [hroad]
      rw [hmark] at hburst ⊢
      exact hburst
    · rw [State.onRoad_ne _ _ hi, hothers i hi]
  · have heq := (doEnumReply_good hlaunched hwait hpos hread hp hlo hhi).trans (State.enumGood_matches hdelay hmatch)
    obtain ⟨hnext, nd, hnd, huid, hd, hstaged⟩ := (s.road r.val).joinNode_spec p s.mark (enumIn bs)
      ((s.road r.val).replyDelay rx.arrive) (takenChans ((s.roadImage r.val).bind fun i => i.nodeEntry r.val p) withCh)
    have hroad := State.onRoad_same (s := s) (fun rd => rd.joinNode p s.mark (enumIn bs)
      ((s.road r.val).replyDelay rx.arrive) (takenChans ((s.roadImage r.val).bind fun i => i.nodeEntry r.val p) withCh)) hlen
    refine ⟨_, congrArg Host.Outcome.next heq, by rw [hroad]; exact hnext,
      ⟨nd, by rw [hroad]; exact hnd, huid, hd, fun im e him he hch => ?_⟩, fun i hi => State.onRoad_ne s _ hi,
      onlyWrites_onRoad s _ _⟩
    rw [hstaged, him, hch]
    simp [takenChans, he]
  · have heq := doAckFrame_good (before := before) (after := after) hlaunched hlen hlo hhi hread hnd hack
    have hroad : (s.onRoad r.val (Road.strays before after)).road r.val = (s.road r.val).strays before after :=
      State.onRoad_same _ hlen
    have hroad' := State.onRoad_same (s := s.onRoad r.val (Road.strays before after))
      (fun rd => rd.acked nd (nth bs 1).toNat (nth bs 2)) (by simpa [State.onRoad] using hlen)
    rw [hroad] at hroad'
    have hnd' : ((s.road r.val).strays before after).admittedAt (upPos bs) = some nd := hnd
    obtain ⟨hadm, hrefused, hstray⟩ := Road.acked_done (nth bs 2) hnd' hcur
    exact ⟨_, congrArg Host.Outcome.next heq, by rw [hroad']; exact hadm, by rw [hroad']; exact hrefused,
      by rw [hroad']; exact hstray, fun i hi => (State.onRoad_ne _ _ hi).trans (State.onRoad_ne s _ hi),
      ((onlyWrites_onRoad s _ _).trans (onlyWrites_onRoad _ _ _)).mono (by simp)⟩
  · have heq := doAckFrame_bad (before := before) (after := after) hlaunched hlo hhi hread
    have hroad' := State.onRoad_same (s := s.onRoad r.val (Road.strays before after))
      (fun rd => { rd with hdrFail := rd.hdrFail + 1 }) (by simpa [State.onRoad] using hlen)
    rw [State.onRoad_same (s := s) (Road.strays before after) hlen] at hroad'
    exact ⟨_, congrArg Host.Outcome.next heq, hroad', fun i hi => (State.onRoad_ne _ _ hi).trans (State.onRoad_ne s _ hi),
      ((onlyWrites_onRoad s _ _).trans (onlyWrites_onRoad _ _ _)).mono (by simp)⟩
  · have heq := doEchoWindowEnd_unreplied hlen hlaunched hwait hstarted hmiss htries hecho hkeep
    have hroad' := State.onRoad_same (s := s.onRoad r.val Road.unreplied) (fun rd => { rd with ackPos := none })
      (by simpa [State.onRoad] using hlen)
    rw [State.onRoad_same (s := s) Road.unreplied hlen] at hroad'
    exact ⟨_, congrArg Host.Outcome.next heq, by rw [hroad']; rfl, by rw [hroad']; rfl, by rw [hroad']; rfl,
      by rw [hroad'], fun i hi => (State.onRoad_ne _ _ hi).trans (State.onRoad_ne s _ hi),
      ((onlyWrites_onRoad s _ _).trans (onlyWrites_onRoad _ _ _)).mono (by simp)⟩

end Sys2Proof.Machine
end

section
/-! PROOFS. Roads: slots, echoes, lost nodes and measurement cycles (O38, O39). -/

namespace Sys2Proof.Machine

/-! ### Slots (R279, R280) -/

/-- An acknowledgement changes at a node what it has acknowledged, and in the counts the refused ones (R272, R273). -/
theorem Road.acked_keeps {rd : Road} {x : Node} (nd : Node) (ack : Nat) (stat : BitVec 8)
    (h : rd.admittedAt nd.pos = some x) :
    (∃ y, (rd.acked nd ack stat).admittedAt nd.pos = some y ∧ y.empty = x.empty ∧ y.lastSlot = x.lastSlot ∧ y.delay = x.delay) ∧
      (rd.acked nd ack stat).missing = rd.missing ∧ (rd.acked nd ack stat).hdrFail = rd.hdrFail ∧
      (rd.acked nd ack stat).stray = rd.stray ∧ (rd.acked nd ack stat).viol = rd.viol := by
  have hack := Road.admittedAt_onNode_same (f := fun nd => { nd with acked := ack }) h (fun _ => rfl) (fun _ => rfl)
  have hdone := Road.admittedAt_onNode_same (f := fun nd => { nd with cur := none }) hack (fun _ => rfl) (fun _ => rfl)
  unfold Road.acked
  dsimp only
  split
  · split
    · exact ⟨⟨_, hdone, rfl, rfl, rfl⟩, rfl, rfl, rfl, rfl⟩
    · exact ⟨⟨_, hack, rfl, rfl, rfl⟩, rfl, rfl, rfl, rfl⟩
  · exact ⟨⟨_, hack, rfl, rfl, rfl⟩, rfl, rfl, rfl, rfl⟩

/-- A node as its slot has been seen (R298). -/
def Node.slotCame (present : Bool) (n : Nat) (nd : Node) : Node :=
  if present then { nd with empty := 0, lastSlot := n } else { nd with empty := nd.empty + 1 }

theorem Node.slotCame_spec (present : Bool) (n : Nat) (nd : Node) : (nd.slotCame present n).pos = nd.pos ∧
    (nd.slotCame present n).admitted = nd.admitted ∧ (nd.slotCame present n).delay = nd.delay ∧
    (nd.slotCame present n).empty = (if present then 0 else nd.empty + 1) ∧
    (nd.slotCame present n).lastSlot = if present then n else nd.lastSlot := by
  cases present <;> exact ⟨rfl, rfl, rfl, rfl, rfl⟩

/-- The counts of R280 with those of a slot. -/
def Road.slotCounted (rd : Road) (rx : SlotIn) : Road :=
  let good := rx.present && rx.crcGood
  { rd with
    viol := rd.viol + (rx.samples.map fun (x : BitVec 24 × Nat) => x.2).sum
    hdrFail := rd.hdrFail + b2n (rx.present && !rx.crcGood), missing := rd.missing + b2n (!rx.present)
    stray := rd.stray + rx.stray
    epochLate := rd.epochLate + b2n (good && bitOf rx.stat.toNat 5 != rd.epoch)
    nfault := rd.nfault + b2n (good && bitOf rx.stat.toNat 6) }

theorem Road.slotSeen_eq (rd : Road) (nd : Node) (rx : SlotIn) (n : Nat) : rd.slotSeen nd rx n =
    if rx.present && rx.crcGood
    then ((rd.slotCounted rx).onNode nd.pos (Node.slotCame rx.present n)).acked nd rx.ack rx.stat
    else (rd.slotCounted rx).onNode nd.pos (Node.slotCame rx.present n) :=
  rfl

/-- What R280 counts of a slot, and how the node has been heard. -/
theorem Road.slotSeen_spec {rd : Road} {nd : Node} (rx : SlotIn) (n : Nat) (h : rd.admittedAt nd.pos = some nd) :
    ((rd.slotSeen nd rx n).missing = rd.missing + b2n (!rx.present) ∧
      (rd.slotSeen nd rx n).hdrFail = rd.hdrFail + b2n (rx.present && !rx.crcGood) ∧
      (rd.slotSeen nd rx n).stray = rd.stray + rx.stray ∧
      (rd.slotSeen nd rx n).viol = rd.viol + (rx.samples.map (·.2)).sum) ∧
      ∃ y, (rd.slotSeen nd rx n).admittedAt nd.pos = some y ∧ y.empty = (if rx.present then 0 else nd.empty + 1) ∧
        y.lastSlot = (if rx.present then n else nd.lastSlot) ∧ y.delay = nd.delay := by
  obtain ⟨-, -, hdelay, hempty, hlast⟩ := Node.slotCame_spec rx.present n nd
  have hcame : ((rd.slotCounted rx).onNode nd.pos (Node.slotCame rx.present n)).admittedAt nd.pos =
      some (nd.slotCame rx.present n) :=
    Road.admittedAt_onNode_same (rd := rd.slotCounted rx) h (fun x => (Node.slotCame_spec rx.present n x).1)
      (fun x => (Node.slotCame_spec rx.present n x).2.1)
  rw [Road.slotSeen_eq]
  split
  · obtain ⟨⟨y, hy, hyempty, hylast, hydelay⟩, hmissing, hfail, hstray, hviol⟩ := Road.acked_keeps nd rx.ack rx.stat hcame
    exact ⟨⟨hmissing, hfail, hstray, hviol⟩, y, hy, hyempty.trans hempty, hylast.trans hlast, hydelay.trans hdelay⟩
  · exact ⟨⟨rfl, rfl, rfl, rfl⟩, _, hcame, hempty, hlast, hdelay⟩

section
variable {s : State} {r p : Nat} {nd : Node}

/-- A node without the channels due in a slot among those whose mode has just changed (R301). -/
def Node.modesSeen (due : List ChanEntry) (nd : Node) : Node :=
  { nd with justMode := nd.justMode.filter fun ch => !(due.any fun c => c.ch == ch) }

/-- The road's own state once a slot has been seen (R280, R301). -/
def State.slotHeard (s : State) (r p : Nat) (nd : Node) (rx : SlotRx) : State :=
  let due := nd.chans.filter (·.dueIn s.mark)
  (s.onRoad r fun rd => rd.slotSeen nd (readSlot rx due.length) s.mark).onNode r p (Node.modesSeen due)

theorem doSlotFrame_slot (rx : SlotRx) (hlaunched : s.launchedNow r = true) (hnd : (s.road r).admittedAt p = some nd)
    (hslot : nd.hasSlot = true) : (doSlotFrame r p rx s).roads = (s.slotHeard r p nd rx).roads := by
  unfold doSlotFrame
  rw [if_pos hlaunched, hnd]
  dsimp only
  rw [if_pos hslot]
  exact foldl_roads _ (fun b x => by simp) _ _

theorem doSlotFrame_frame (rx : SlotRx) : OnlyWrites [.cw, .way, .roads] s (doSlotFrame r p rx s) :=
  ⟨by simp, fun p hp => by cases p <;> simp_all [Part.same]⟩

/-- What a slot makes of its road: the counts, and the node at its position (R280, R298). -/
theorem State.slotHeard_spec (rx : SlotRx) (hlen : r < s.roads.length) (hnd : (s.road r).admittedAt p = some nd) :
    let f := readSlot rx (nd.chans.filter (·.dueIn s.mark)).length
    ((((s.slotHeard r p nd rx).road r).missing = (s.road r).missing + b2n (!f.present) ∧
      ((s.slotHeard r p nd rx).road r).hdrFail = (s.road r).hdrFail + b2n (f.present && !f.crcGood) ∧
      ((s.slotHeard r p nd rx).road r).stray = (s.road r).stray + f.stray ∧
      ((s.slotHeard r p nd rx).road r).viol = (s.road r).viol + (f.samples.map (·.2)).sum) ∧
      ∃ y, ((s.slotHeard r p nd rx).road r).admittedAt p = some y ∧ y.empty = (if f.present then 0 else nd.empty + 1) ∧
        y.lastSlot = (if f.present then s.mark else nd.lastSlot) ∧ y.delay = nd.delay) ∧
      ∀ i, i ≠ r → (s.slotHeard r p nd rx).road i = s.road i := by
  dsimp only
  have hp : nd.pos = p := Road.admittedAt_pos hnd
  subst hp
  obtain ⟨hcounts, y, hy, hempty, hlast, hdelay⟩ :=
    Road.slotSeen_spec (readSlot rx (nd.chans.filter (·.dueIn s.mark)).length) s.mark hnd
  have hroad : (s.slotHeard r nd.pos nd rx).road r = ((s.road r).slotSeen nd
      (readSlot rx (nd.chans.filter (·.dueIn s.mark)).length) s.mark).onNode nd.pos
        (Node.modesSeen (nd.chans.filter (·.dueIn s.mark))) := by
    rw [State.slotHeard, State.onNode, State.onRoad_same _ (by simpa [State.onRoad] using hlen), State.onRoad_same _ hlen]
  have hmodes := Road.admittedAt_onNode_same (f := Node.modesSeen (nd.chans.filter (·.dueIn s.mark))) hy
    (fun _ => rfl) (fun _ => rfl)
  rw [hroad]
  exact ⟨⟨hcounts, _, hmodes, hempty, hlast, hdelay⟩,
    fun i hi => (State.onRoad_ne _ _ hi).trans (State.onRoad_ne s _ hi)⟩

/-! ### Echoes (R275, R290, R292) -/

section
variable {rx : UpRx} {bs : List Byte} (hlaunched : s.launchedNow r = true) (hecho : (s.road r).echoPos = some p)
  (hnd : (s.road r).admittedAt p = some nd) (hrun : nd.outRun = none) (hadm : nd.adm = none)
include hlaunched hecho hnd hrun hadm

/-- A planned echo with a bad CRC is asked for again (R275). -/
theorem doEchoFrame_bad (hread : readUp 2 4 rx = some (bs, false)) : doEchoFrame r rx s =
    (s.onRoad r fun rd => { rd with echoPos := none, hdrFail := rd.hdrFail + 1 }).onRoad r
      fun rd => { rd with echoRetry := some p } := by
  unfold doEchoFrame
  rw [if_pos hlaunched, hecho, hread]
  dsimp only
  rw [hnd]
  exact if_pos (by simp [hrun, hadm])

/-- A valid planned echo that is no outlier counts in the cycle (R292, R293). -/
theorem doEchoFrame_good (hread : readUp 2 4 rx = some (bs, true)) (hvalid : echoValid bs rx.arrive p s.mark = true)
    (hin : nd.outlier ((s.road r).echoDelay rx) = false) : doEchoFrame r rx s =
    (s.onRoad r fun rd => { rd with echoPos := none, hdrFail := rd.hdrFail + 0 }).onNode r nd.pos
      fun x => { x with echoed := true, got := (s.road r).echoDelay rx :: x.got, agree := s.mark } := by
  unfold doEchoFrame
  rw [if_pos hlaunched, hecho, hread]
  dsimp only
  rw [hnd]
  refine (if_neg (by simp)).trans ?_
  simp only [hvalid, State.echoResult, hrun, hadm, State.plannedEcho, hin, Bool.true_and, if_true, Bool.false_eq_true, if_false]
  rfl

end

end

/-- Settles O38. -/
theorem roadsReceive : Obligations.RoadsReceive := by
  refine ⟨fun r pos rx s nd hlen hlaunched hnd hslot => ?_,
    fun r rx s p bs nd hlen hlaunched hecho hnd hrun hadm hread => ?_,
    fun r rx s p bs nd hlen hlaunched hecho hnd hrun hadm hread hvalid hin => ?_⟩
  · have hroads := doSlotFrame_slot rx hlaunched hnd hslot
    have hroad (i : Nat) : (doSlotFrame r.val pos.val rx s).road i = (s.slotHeard r.val pos.val nd rx).road i := by
      rw [State.road, State.road, hroads]
    obtain ⟨⟨⟨hmissing, hfail, hstray, hviol⟩, hnode⟩, hothers⟩ := State.slotHeard_spec rx hlen hnd
    refine ⟨_, rfl, ?_, fun i hi => (hroad i).trans (hothers i hi), doSlotFrame_frame rx⟩
    rw [hroad]
    exact ⟨hmissing, hfail, hstray, hviol, hnode⟩
  · have heq := doEchoFrame_bad hlaunched hecho hnd hrun hadm hread
    have hroad := State.onRoad_same
      (s := s.onRoad r.val fun rd => { rd with echoPos := none, hdrFail := rd.hdrFail + 1 })
      (fun rd => { rd with echoRetry := some p }) (by simpa [State.onRoad] using hlen)
    rw [State.onRoad_same (s := s) _ hlen] at hroad
    exact ⟨_, congrArg Host.Outcome.next heq, hroad, fun i hi => (State.onRoad_ne _ _ hi).trans (State.onRoad_ne s _ hi),
      ((onlyWrites_onRoad s _ _).trans (onlyWrites_onRoad _ _ _)).mono (by simp)⟩
  · have heq := doEchoFrame_good hlaunched hecho hnd hrun hadm hread hvalid hin
    have hp : nd.pos = p := Road.admittedAt_pos hnd
    have hroad := State.onRoad_same
      (s := s.onRoad r.val fun rd => { rd with echoPos := none, hdrFail := rd.hdrFail + 0 })
      (·.onNode nd.pos fun x => { x with echoed := true, got := (s.road r.val).echoDelay rx :: x.got, agree := s.mark })
      (by simpa [State.onRoad] using hlen)
    rw [State.onRoad_same (s := s) _ hlen] at hroad
    have hnd' : ({ s.road r.val with echoPos := none, hdrFail := (s.road r.val).hdrFail + 0 } : Road).admittedAt p = some nd := hnd
    have hnode := Road.admittedAt_onNode_same
      (f := fun x => { x with echoed := true, got := (s.road r.val).echoDelay rx :: x.got, agree := s.mark }) hnd'
      (fun _ => rfl) (fun _ => rfl)
    rw [← hp] at hnode ⊢
    refine ⟨_, congrArg Host.Outcome.next heq, ?_, ?_, fun i hi => (State.onRoad_ne _ _ hi).trans (State.onRoad_ne s _ hi),
      ((onlyWrites_onRoad s _ _).trans (onlyWrites_onRoad _ _ _)).mono (by simp)⟩
    · rw [State.onNode, hroad]
      exact hnode
    · rw [State.onNode, hroad]
      rfl

/-! ### Lost nodes (R298, R299) -/

/-- Whether a position is admitted shows in the positions and admissions of the nodes. -/
theorem Road.admittedAt_eq_none {rd : Road} {p : Nat} :
    rd.admittedAt p = none ↔ (p, true) ∉ rd.nodes.map fun nd => (nd.pos, nd.admitted) := by
  simp [Road.admittedAt]

theorem Road.stays.admittedAt {a b : Road} {p : Nat} (h : a.stays b) (hnone : a.admittedAt p = none) : b.admittedAt p = none := by
  obtain ⟨-, -, hseats⟩ := h
  rw [Road.admittedAt_eq_none] at hnone ⊢
  rwa [hseats]

theorem Road.admittedAt_lose (rd : Road) (p : Nat) : (rd.onNode p Node.lose).admittedAt p = none := by
  rw [Road.admittedAt_eq_none]
  intro hmem
  obtain ⟨x, hx, heq⟩ := List.mem_map.mp hmem
  obtain ⟨nd, -, rfl⟩ := List.mem_map.mp hx
  by_cases h : nd.pos = p
  · simp [h, Node.lose] at heq
  · simp [h] at heq

section
variable (s : State) (r : Nat) (nd : Node) (cause : Nat)

theorem State.lossRecorded_gone (hlen : r < s.roads.length) : ((s.lossRecorded r nd cause).road r).admittedAt nd.pos = none := by
  have hstop : (s.stopNode r nd 2 (s.mark + 1)).roads = s.roads := by simp
  have hlose : (((s.stopNode r nd 2 (s.mark + 1)).onNode r nd.pos Node.lose).road r).admittedAt nd.pos = none := by
    rw [State.onNode, State.onRoad_same _ (by rw [hstop]; exact hlen)]
    exact Road.admittedAt_lose _ _
  exact (State.nodeTiming_stays _ r nd 1 cause _ _ _).2.2.admittedAt hlose

theorem State.lossRecorded_port : (s.lossRecorded r nd cause).port = s.port := by simp [State.lossRecorded, State.onNode, State.onRoad]

/-- The loss of a node takes it out of the admitted ones, and of a declared one puts its position among those that fault bit 6
shows (R299). -/
theorem State.loseNode_spec (hlen : r < s.roads.length) : ((s.loseNode r nd cause).road r).admittedAt nd.pos = none ∧
    (s.listed r nd.pos = true → nd.pos ∈ ((s.loseNode r nd cause).road r).lostDecl) := by
  have hlen' : r < (s.lossRecorded r nd cause).roads.length := by
    rw [(s.lossRecorded_sameCycle r nd cause).2.1]
    exact hlen
  have hroad : (s.nodeGone r nd cause).road r =
      ((s.lossRecorded r nd cause).road r).forgets ((s.lossRecorded r nd cause).listed r nd.pos) nd.pos :=
    State.onRoad_same _ hlen'
  have hlisted : (s.lossRecorded r nd cause).listed r nd.pos = s.listed r nd.pos := by
    rw [State.listed, State.listed, State.lossRecorded_port]
  have hgone : ((s.nodeGone r nd cause).road r).admittedAt nd.pos = none := by
    rw [hroad]
    exact s.lossRecorded_gone r nd cause hlen
  obtain ⟨-, -, hstays⟩ := s.loseNode_stays r nd cause
  refine ⟨hstays.admittedAt hgone, fun hdecl => ?_⟩
  rw [hstays.2.1, hroad, hlisted, hdecl]
  simp only [Road.forgets, Bool.true_and]
  split
  · simp
  next h => simpa using h

/-! ### The record of a loss (R302) -/

variable {s r nd cause} in
theorem State.enumEnd_writesOn (t : State) : t.cw.writesOn (t.enumEnd r).cw := by
  have hsoon (u : State) : (u.stageSoon r true).cw = u.cw := by simp
  unfold State.enumEnd
  dsimp only
  split
  · exact Causeway.writesOn.refl _
  · rw [hsoon]
    exact State.writePacket_writesOn (t.onRoad r _) _

variable {s r nd cause} in
theorem State.nodeTiming_record (hinto : s.intoCauseway) (reason a b : Nat) (prev : Int) :
    ∃ q ∈ (s.nodeTiming r nd reason cause a b prev).cw.closed, q.tag = recTag 0x16 := by
  obtain ⟨q, hq, htag, -⟩ := State.writeRec_closedLast hinto 0x16 s.mark
    [word (at_ reason 24 + at_ r 21 + at_ nd.pos 15 + at_ cause 12), wordI nd.pred, word a, word b, wordI prev,
     wordI (s.road r).dmax, word (at_ (satN 16 nd.outliers) 16), 0]
  exact ⟨q, List.mem_of_getLast? hq, htag⟩

/-- A packet stays under its tag where a state goes on writing (R307). -/
theorem Causeway.writesOn.tag {c d : Causeway} (h : c.writesOn d) {tag : Word} (hmem : ∃ q ∈ c.closed, q.tag = tag) :
    ∃ q ∈ d.closed, q.tag = tag := by
  obtain ⟨p, hp, htag⟩ := hmem
  obtain ⟨-, hkept, -⟩ := h
  obtain ⟨q, hq, hages, -⟩ := hkept p hp
  exact ⟨q, hq, by rw [hages]; exact htag⟩

/-- The loss of a node is recorded (R302). -/
theorem State.loseNode_record (hinto : s.intoCauseway) : ∃ q ∈ (s.loseNode r nd cause).cw.closed, q.tag = recTag 0x16 := by
  have hpower : (s.stopNode r nd 2 (s.mark + 1)).power = s.power := by simp
  have hstop : ((s.stopNode r nd 2 (s.mark + 1)).onNode r nd.pos Node.lose).intoCauseway :=
    State.intoCauseway_of_power hinto hpower
  have hrecorded : ∃ q ∈ (s.nodeGone r nd cause).cw.closed, q.tag = recTag 0x16 := State.nodeTiming_record hstop 1 _ _ _
  rw [State.loseNode_eq]
  split
  · exact (State.enumEnd_writesOn ((s.nodeGone r nd cause).onRoad r _)).tag hrecorded
  · exact hrecorded

end

/-! ### Measurement cycles (R293, R298) -/

theorem Node.endCycle_few (nd : Node) (c : Nat) (h : nd.got.length < 4) : (nd.endCycle c).pred = nd.pred := by
  unfold Node.endCycle
  rw [if_neg (Nat.not_le.mpr h)]

theorem Node.endCycle_mean {nd : Node} {c : Nat} (h : 4 ≤ nd.got.length) :
    (nd.endCycle c).pred = (match nd.means.find? (fun x => x.1 + 4 == c) with
      | some (_, old) => meanPs nd.got + (meanPs nd.got - old) / 2
      | none => meanPs nd.got) := by
  unfold Node.endCycle
  rw [if_pos h] <;> rfl

theorem Node.endCycle_seat (nd : Node) (c : Nat) : (nd.endCycle c).pos = nd.pos ∧ (nd.endCycle c).admitted = nd.admitted := by
  unfold Node.endCycle
  dsimp only
  split <;> exact ⟨rfl, rfl⟩

section
variable {s : State} {r : Nat}

/-- No node falls silent at the end of a cycle: none is lost (R298). -/
theorem State.losesSilent_heard (hlen : r < s.roads.length)
    (hheard : ∀ nd ∈ (s.road r).nodes, nd.admitted = true → (nd.endCycle (s.road r).cycle).noEcho < 2) :
    (s.onRoad r fun rd => rd.cycleOver (s.road r).cycle).losesSilent r =
      s.onRoad r fun rd => rd.cycleOver (s.road r).cycle := by
  have hnone : (((s.onRoad r fun rd => rd.cycleOver (s.road r).cycle).road r).admitted.filter
      fun nd => decide (2 ≤ nd.noEcho)) = [] := by
    rw [State.onRoad_same _ hlen]
    refine List.filter_eq_nil_iff.mpr fun x hx => ?_
    obtain ⟨hmem, hadm⟩ := List.mem_filter.mp hx
    obtain ⟨nd, hnd, rfl⟩ := List.mem_map.mp hmem
    by_cases h : nd.admitted = true
    · have := hheard nd hnd h
      simp only [h, if_true, decide_eq_true_eq]
      omega
    · simp [h] at hadm
  rw [State.losesSilent, hnone, List.foldl_nil]

/-- A cycle in which no node falls silent ends on its road alone (R293, R294). -/
theorem State.cycleEnd_heard (hlen : r < s.roads.length)
    (hheard : ∀ nd ∈ (s.road r).nodes, nd.admitted = true → (nd.endCycle (s.road r).cycle).noEcho < 2) :
    ((s.cycleEnd r).road r).cycle = (s.road r).cycle + 1 ∧
      ((s.cycleEnd r).road r).nodes = ((s.road r).cycleOver (s.road r).cycle).nodes ∧
      (∀ i, i ≠ r → (s.cycleEnd r).road i = s.road i) ∧ OnlyWrites [.roads] s (s.cycleEnd r) := by
  have hover := State.onRoad_same (s := s) (fun rd => rd.cycleOver (s.road r).cycle) hlen
  rw [State.cycleEnd_eq, State.losesSilent_heard hlen hheard]
  dsimp only
  split
  · have hdefer := State.onRoad_same (s := s.onRoad r fun rd => rd.cycleOver (s.road r).cycle)
      (·.defer true (1024 * ((s.road r).cycle + 2))) (by simpa [State.onRoad] using hlen)
    rw [hover] at hdefer
    rw [hdefer]
    exact ⟨rfl, rfl, fun i hi => (State.onRoad_ne _ _ hi).trans (State.onRoad_ne s _ hi),
      ((onlyWrites_onRoad s _ _).trans (onlyWrites_onRoad _ _ _)).mono (by simp)⟩
  · rw [hover]
    exact ⟨rfl, rfl, fun i hi => State.onRoad_ne s _ hi, onlyWrites_onRoad s _ _⟩

theorem doNodeLost_silent {p : Nat} {nd : Node} (hnd : (s.road r).admittedAt p = some nd) (hslot : nd.hasSlot = true)
    (hempty : 64 ≤ nd.empty) : doNodeLost r p s = s.loseNode r nd 1 := by
  have hcond : (nd.hasSlot && decide (64 ≤ nd.empty)) = true := by simp [hslot, hempty]
  unfold doNodeLost
  rw [hnd]
  exact if_pos hcond

theorem doDelayCycleEnd_due (hon : (s.road r).on = true) (hmark : s.mark % 1024 = 1023)
    (hcycle : (s.road r).cycle = s.mark / 1024) : doDelayCycleEnd r s = s.cycleEnd r := by
  have hcond : ((s.road r).on && s.mark % 1024 == 1023 && (s.road r).cycle == s.mark / 1024) = true := by
    simp [hon, hmark, hcycle]
  exact if_pos hcond

theorem doNodeLost_frame (r p : Nat) (s : State) : OnlyWrites [.cw, .way, .roads] s (doNodeLost r p s) :=
  ⟨by simp, fun q hq => by cases q <;> simp_all [Part.same]⟩

end

/-- Settles O39. -/
theorem roadsLoseAndPredict : Obligations.RoadsLoseAndPredict := by
  refine ⟨fun r pos s nd hlen hnd hslot hempty => ?_, fun r s hlen hon hmark hcycle hheard => ?_,
    fun nd c => ⟨nd.endCycle_few c, fun hgot hmeans => ?_, fun x hgot hfind => ?_⟩⟩
  · have heq := doNodeLost_silent hnd hslot hempty
    have hp : nd.pos = pos.val := Road.admittedAt_pos hnd
    obtain ⟨hgone, hlost⟩ := s.loseNode_spec r.val nd 1 hlen
    rw [hp] at hgone hlost
    have hframe := doNodeLost_frame r.val pos.val s
    rw [heq] at hframe
    refine ⟨_, congrArg Host.Outcome.next heq, hgone, fun im e him he => hlost ?_, s.loseNode_record r.val nd 1,
      (s.loseNode_sameCycle r.val nd 1).1, hframe⟩
    rw [State.listed, him]
    exact Option.isSome_iff_exists.mpr ⟨e, he⟩
  · have heq := doDelayCycleEnd_due hon hmark hcycle
    rw [← hcycle] at hheard
    obtain ⟨hc, hnodes, hothers, hframe⟩ := State.cycleEnd_heard hlen hheard
    refine ⟨_, congrArg Host.Outcome.next heq, by rw [hc, hcycle], ?_, hothers, hframe⟩
    rw [hnodes, hcycle]
    simp only [Road.cycleOver, List.map_map]
    rfl
  · have hnone : nd.means.find? (fun x => x.1 + 4 == c) = none := by
      refine List.find?_eq_none.mpr fun x hx => ?_
      simpa using hmeans x hx
    rw [Node.endCycle_mean hgot, hnone]
  · rw [Node.endCycle_mean hgot, hfind]

end Sys2Proof.Machine
end

section
/-! PROOFS. The requests of the front end: blanking, calibration steps, triggers, compliance trips and clamps (O26). -/

namespace Sys2Proof.Machine

/-! ### What each request writes -/

theorem doFeBlankAssert_frame (dt : Nat) (s : State) : OnlyWrites [.time, .fe] s (doFeBlankAssert dt s) :=
  ⟨by simp, fun p hp => by cases p <;> simp_all [Part.same]⟩

theorem doFeBlankRelease_frame (dt : Nat) (s : State) : OnlyWrites [.time, .fe] s (doFeBlankRelease dt s) :=
  ⟨by simp, fun p hp => by cases p <;> simp_all [Part.same]⟩

theorem doBlankGuardEnd_frame (dt : Nat) (s : State) : OnlyWrites [.time, .fe] s (doBlankGuardEnd dt s) :=
  ⟨by simp, fun p hp => by cases p <;> simp_all [Part.same]⟩

theorem doFeCalStepDue_frame (dt ch : Nat) (gain : Bool) (s : State) :
    OnlyWrites [.time, .fe] s (doFeCalStepDue dt ch gain s) :=
  ⟨by simp, fun p hp => by cases p <;> simp_all [Part.same]⟩

theorem doFeTrigEdge_frame (dt : Nat) (s : State) : OnlyWrites [.time, .fe] s (doFeTrigEdge dt s) :=
  ⟨by simp, fun p hp => by cases p <;> simp_all [Part.same]⟩

theorem doComplianceTrip_frame (dt ch : Nat) (s : State) : OnlyWrites [.time, .fe] s (doComplianceTrip dt ch s) :=
  ⟨by simp, fun p hp => by cases p <;> simp_all [Part.same]⟩

theorem doClampEvent_frame (pin na : Nat) (s : State) : OnlyWrites [.fe] s (doClampEvent pin na s) :=
  ⟨by simp, fun p hp => by cases p <;> simp_all [Part.same]⟩

/-! ### One channel -/

theorem State.onFe_same {s : State} {ch : Nat} (h : ch < s.fe.ch.length) (f : FeCh → FeCh) :
    nth (s.onFe ch f).fe.ch ch = f (nth s.fe.ch ch) := nth_modify_same h f

theorem State.onFe_ne (s : State) {ch i : Nat} (h : i ≠ ch) (f : FeCh → FeCh) :
    nth (s.onFe ch f).fe.ch i = nth s.fe.ch i := nth_modify_ne _ h f

@[simp] theorem State.onFe_length (s : State) (ch : Nat) (f : FeCh → FeCh) :
    (s.onFe ch f).fe.ch.length = s.fe.ch.length := List.length_modify ..

/-! ### Triggers (R247, R248) -/

/-- The injections of the last second: those that INJ_MAX counts. -/
def Fe.recentInj (f : Fe) (mark : Nat) : List Nat := f.inj.filter fun m => decide (mark < m + 1024)

/-- A trigger that is taken: its channel waits for an injected conversion. -/
def State.takeTrig (s : State) (ch src engine : Nat) : State :=
  { s with fe := { s.fe with inj := s.mark :: s.fe.recentInj s.mark } }.onFe ch fun c => { c with pend := some (s.now, src, engine) }

theorem State.trigger_taken {s : State} {ch : Nat} {r : Recipe} {f : FrontEnd} (src engine : Nat)
    (hr : s.recipe ch = some r) (hf : s.feOf = some f) (hruns : s.feRuns r = true)
    (hmax : (s.fe.recentInj s.mark).length < f.injMax) (hpend : (nth s.fe.ch ch).pend = none) :
    s.trigger ch src engine = s.takeTrig ch src engine := by
  have hmax : ¬ f.injMax ≤ (s.fe.inj.filter fun m => decide (s.mark < m + 1024)).length := Nat.not_le.mpr hmax
  unfold State.trigger
  rw [hr, hf]
  simp only [hruns, hpend, hmax, Bool.not_true, decide_false, Bool.or_self, Bool.false_eq_true, if_false, Option.isSome_none]
  rfl

theorem State.trigger_overrun {s : State} {ch : Nat} {r : Recipe} {f : FrontEnd} (src engine : Nat)
    (hr : s.recipe ch = some r) (hf : s.feOf = some f) (hruns : s.feRuns r = true)
    (hmax : (s.fe.recentInj s.mark).length < f.injMax) (hpend : (nth s.fe.ch ch).pend ≠ none) :
    s.trigger ch src engine = s.onFe ch fun c => { c with overrun := c.overrun + 1 } := by
  have hmax : ¬ f.injMax ≤ (s.fe.inj.filter fun m => decide (s.mark < m + 1024)).length := Nat.not_le.mpr hmax
  have hpend : (nth s.fe.ch ch).pend.isSome = true := Option.isSome_iff_ne_none.mpr hpend
  unfold State.trigger
  rw [hr, hf]
  simp only [hruns, hpend, hmax, Bool.not_true, decide_false, Bool.or_self, Bool.false_eq_true, if_false, if_true]

theorem State.takeTrig_recentInj (s : State) (ch src engine : Nat) :
    (s.takeTrig ch src engine).fe.recentInj s.mark = s.mark :: s.fe.recentInj s.mark := by
  have hnow : decide (s.mark < s.mark + 1024) = true := decide_eq_true (by omega)
  change (s.mark :: s.fe.recentInj s.mark).filter (fun m => decide (s.mark < m + 1024)) = s.mark :: s.fe.recentInj s.mark
  rw [List.filter_cons, if_pos hnow, Fe.recentInj, List.filter_filter]
  simp

/-- Triggers of channels that all run and do not wait: each one waits from then on, no other channel changes, and each counts
against INJ_MAX (R247, R248). -/
theorem State.triggers_taken {f : FrontEnd} (src engine : Nat) (l : List Nat) (hnodup : l.Nodup) (s : State)
    (hf : s.feOf = some f)
    (hl : ∀ ch ∈ l, ch < s.fe.ch.length ∧ (nth s.fe.ch ch).pend = none ∧ ∃ r, s.recipe ch = some r ∧ s.feRuns r = true)
    (hmax : (s.fe.recentInj s.mark).length + l.length ≤ f.injMax) :
    let t := l.foldl (fun s ch => s.trigger ch src engine) s
    t.fe.lastTrig = s.fe.lastTrig ∧ (∀ ch ∈ l, (nth t.fe.ch ch).pend = some (s.now, src, engine)) ∧
      (∀ ch, ch ∉ l → nth t.fe.ch ch = nth s.fe.ch ch) ∧ (t.fe.recentInj s.mark).length = (s.fe.recentInj s.mark).length + l.length ∧
      t.fe.refused = s.fe.refused := by
  induction l generalizing s with
  | nil => exact ⟨rfl, by simp, fun _ _ => rfl, rfl, rfl⟩
  | cons ch l ih =>
    obtain ⟨hnot, hnodup⟩ := List.nodup_cons.mp hnodup
    obtain ⟨hlen, hpend, r, hr, hruns⟩ := hl ch List.mem_cons_self
    rw [List.length_cons] at hmax
    have hinj := congrArg List.length (s.takeTrig_recentInj ch src engine)
    rw [List.length_cons] at hinj
    have hmark : (s.takeTrig ch src engine).mark = s.mark := rfl
    have hother : ∀ i, i ≠ ch → nth (s.takeTrig ch src engine).fe.ch i = nth s.fe.ch i := fun i hi =>
      nth_modify_ne _ hi _
    have hrest : ∀ i ∈ l, i < (s.takeTrig ch src engine).fe.ch.length ∧
        (nth (s.takeTrig ch src engine).fe.ch i).pend = none ∧
        ∃ r, (s.takeTrig ch src engine).recipe i = some r ∧ (s.takeTrig ch src engine).feRuns r = true := by
      intro i hi
      have hne : i ≠ ch := fun h => hnot (h ▸ hi)
      obtain ⟨hilen, hipend, hirun⟩ := hl i (List.mem_cons_of_mem _ hi)
      exact ⟨(List.length_modify ..).symm ▸ hilen, by rw [hother i hne]; exact hipend, hirun⟩
    obtain ⟨hlast, hin, hout, hcount, hrefused⟩ := ih hnodup (s.takeTrig ch src engine) hf hrest
      (by rw [hmark]; omega)
    rw [hmark] at hcount
    rw [List.foldl_cons, s.trigger_taken src engine hr hf hruns (by omega) hpend]
    refine ⟨hlast, ?_, ?_, by rw [hcount, hinj, List.length_cons]; omega, hrefused⟩
    · intro i hi
      rcases List.mem_cons.mp hi with rfl | hi
      · rw [hout i hnot]
        exact congrArg FeCh.pend (nth_modify_same hlen _)
      · exact hin i hi
    · intro i hi
      obtain ⟨hne, hi⟩ := not_or.mp fun h => hi (List.mem_cons.mpr h)
      rw [hout i hi, hother i hne]

/-- The state at an edge of FE_TRIG, before its triggers. -/
def State.atTrig (s : State) (dt : Nat) : State :=
  { s.advance dt with fe := { (s.advance dt).fe with lastTrig := some (s.now + dt) } }

theorem State.atTrig_mark (s : State) (dt : Nat) : (s.atTrig dt).mark = s.mark := s.advance_mark dt

theorem State.atTrig_now (s : State) (dt : Nat) : (s.atTrig dt).now = s.now + dt := s.advance_now dt

/-- An edge of FE_TRIG 1 µs or more after the one before triggers every channel of TRIGMASK (R247). -/
theorem doFeTrigEdge_due {dt : Nat} {s : State} {f : FrontEnd} (hf : s.feOf = some f)
    (hlate : ∀ l, s.fe.lastTrig = some l → l + usPs 1 ≤ s.now + dt) :
    doFeTrigEdge dt s = (setBits 32 f.trigMask.toNat).foldl (fun s ch => s.trigger ch 1 0) (s.atTrig dt) := by
  unfold doFeTrigEdge
  dsimp only
  have hfeOf : (s.advance dt).feOf = some f := hf
  have hfe : (s.advance dt).fe.lastTrig = s.fe.lastTrig := rfl
  simp only [State.advance_now, hfe]
  cases hl : s.fe.lastTrig with
  | none => simp only [State.feOf] at hfeOf ⊢; rw [hfeOf]; rfl
  | some l =>
    have hlate := hlate l hl
    have hearly : decide (s.now + dt < l + usPs 1) = false := decide_eq_false (by omega)
    simp only [State.feOf, hearly] at hfeOf ⊢
    rw [hfeOf]
    rfl

theorem nodup_setBits (n m : Nat) : (setBits n m).Nodup := List.nodup_range.filter _

/-! ### Blanking, calibration steps and clamps -/

/-- A falling FE_BLANK lets each guard run on from there (R125, R258). -/
theorem doFeBlankRelease_due {dt : Nat} {s : State} {f : FrontEnd} {im : Image} (hblank : s.fe.blank = true)
    (hf : s.feOf = some f) (him : s.port.inForce = some im) :
    (doFeBlankRelease dt s).fe = { s.fe with
      blank := false
      blankEnd := if f.fblankGuard = 0 then none else some (s.now + dt + guardPs f.fblankGuard)
      magEnd := if im.inertial.blankGuard = 0 then none else some (s.now + dt + guardPs im.inertial.blankGuard) } := by
  have hblank : (s.advance dt).fe.blank = true := hblank
  have hf : (s.advance dt).feOf = some f := hf
  have him : (s.advance dt).port.inForce = some im := him
  unfold doFeBlankRelease
  dsimp only
  rw [if_pos hblank, hf, him]
  simp only [State.advance_now]
  rfl

/-- A calibration step that is due waits from now (R144). -/
theorem doFeCalStepDue_due {dt ch : Nat} {gain : Bool} {s : State} {r : Recipe} {e : ScanEntry}
    (hr : s.recipe ch = some r) (he : s.scan ch = some e) (hruns : s.feRuns r = true) (hnocal : e.nocal = false)
    (henable : bitOf s.calBlock.enable (if gain then 5 else 4) = true)
    (hdue : (s.advance dt).stepIsDue (nth s.fe.ch ch) gain = true) :
    doFeCalStepDue dt ch gain s = (s.advance dt).onFe ch fun c =>
      if gain then { c with dueGain := true, gainAt := some s.mark } else { c with dueOff := true, offAt := some s.mark } := by
  have hr : (s.advance dt).recipe ch = some r := hr
  have he : (s.advance dt).scan ch = some e := he
  have hcond : ((s.advance dt).feRuns r && !e.nocal && bitOf (s.advance dt).calBlock.enable (if gain then 5 else 4) &&
      (s.advance dt).stepIsDue (nth (s.advance dt).fe.ch ch) gain) = true := by
    rw [hnocal, show (s.advance dt).feRuns r = true from hruns,
      show bitOf (s.advance dt).calBlock.enable (if gain then 5 else 4) = true from henable,
      show (s.advance dt).stepIsDue (nth (s.advance dt).fe.ch ch) gain = true from hdue]
    rfl
  unfold doFeCalStepDue
  dsimp only
  rw [hr, he]
  dsimp only
  rw [if_pos hcond, State.advance_mark]

theorem doFeCalStepDue_idle {dt ch : Nat} {gain : Bool} {s : State}
    (hdue : (s.advance dt).stepIsDue (nth s.fe.ch ch) gain = false) : doFeCalStepDue dt ch gain s = s.advance dt := by
  have hdue : (s.advance dt).stepIsDue (nth (s.advance dt).fe.ch ch) gain = false := hdue
  unfold doFeCalStepDue
  dsimp only
  split
  · rw [hdue, Bool.and_false]
    rfl
  · rfl

/-- What a clamp current marks (R231). -/
theorem doClampEvent_fe {pin na : Nat} {s : State} (h : 2000 < na) :
    (doClampEvent pin na s).fe.clamps = s.fe.clamps.modify pin (fun n => min 255 (n + 1)) ∧
      (doClampEvent pin na s).fe.ch = s.fe.ch.map (·.onConvs fun v =>
        if 1000000 < na || (v.rolePins s.gPos).contains pin then { v with clamped := true } else v) := by
  rw [doClampEvent, if_pos h]
  exact ⟨rfl, rfl⟩

/-- Settles O26: each clause follows from its request's equation; the triggers of an edge by induction over TRIGMASK. -/
theorem feRequests : Obligations.FeRequests := by
  unfold Obligations.FeRequests
  refine ⟨fun dt s => ?assert, fun dt s f im hblank hf him => ?release, fun dt s b hb => ?guard,
    fun dt ch gain s r e hr he hruns hnocal henable hlen hdue => ?due, fun dt ch gain s hdue => ?idle,
    fun dt s f hf hlate hl hmax => ?edge, fun dt s f ch r hf hmask hr hruns hlate hlen hmax hpend => ?overrun,
    fun dt ch s hlen => ?trip, fun pin na s hna hlen => ?clamp, fun pin na s hna => ?small⟩
  case assert =>
    exact ⟨_, rfl, rfl, rfl, rfl, fun ch hch => nth_map hch _, doFeBlankAssert_frame dt s⟩
  case release =>
    have hfe := doFeBlankRelease_due (dt := dt) hblank hf him
    exact ⟨_, rfl, by rw [hfe], by rw [hfe], by rw [hfe], by rw [hfe], doFeBlankRelease_frame dt s⟩
  case guard =>
    refine ⟨_, rfl, ?_, rfl, rfl, doBlankGuardEnd_frame dt s⟩
    have hb : (s.advance dt).fe.blankEnd = some b := hb
    simp only [doBlankGuardEnd, hb, State.advance_now]
  case due =>
    have heq := doFeCalStepDue_due (dt := dt) hr he hruns hnocal henable hdue
    have hframe := doFeCalStepDue_frame dt ch.val gain s
    rw [heq] at hframe
    exact ⟨_, congrArg Host.Outcome.next heq, (s.advance dt).onFe_same hlen _, fun i hi => (s.advance dt).onFe_ne hi _, hframe⟩
  case idle => exact congrArg Host.Outcome.next (doFeCalStepDue_idle hdue)
  case edge =>
    have heq := doFeTrigEdge_due hf hlate
    have hframe := doFeTrigEdge_frame dt s
    have hmax : ((s.atTrig dt).fe.recentInj (s.atTrig dt).mark).length + (setBits 32 f.trigMask.toNat).length ≤ f.injMax := by
      rw [s.atTrig_mark]
      exact hmax
    obtain ⟨hlast, hin, hout, hcount, hrefused⟩ := State.triggers_taken 1 0 (setBits 32 f.trigMask.toNat)
      (nodup_setBits _ _) (s.atTrig dt) hf hl hmax
    rw [← heq] at hlast hin hout hcount hrefused
    rw [s.atTrig_now] at hin
    rw [s.atTrig_mark] at hcount
    exact ⟨_, rfl, hlast, hin, hout, hcount, hrefused, hframe⟩
  case overrun =>
    have hmax : ((s.atTrig dt).fe.recentInj (s.atTrig dt).mark).length < f.injMax := by
      rw [s.atTrig_mark]
      exact hmax
    have heq : doFeTrigEdge dt s = (s.atTrig dt).onFe ch fun c => { c with overrun := c.overrun + 1 } := by
      rw [doFeTrigEdge_due hf hlate, hmask]
      exact State.trigger_overrun (s := s.atTrig dt) 1 0 hr hf hruns hmax hpend
    have hframe := doFeTrigEdge_frame dt s
    rw [heq] at hframe
    have hch := (s.atTrig dt).onFe_same hlen fun c => { c with overrun := c.overrun + 1 }
    exact ⟨_, congrArg Host.Outcome.next heq, (congrArg FeCh.pend hch).trans rfl, (congrArg FeCh.overrun hch).trans rfl, rfl,
      hframe⟩
  case trip =>
    exact ⟨_, rfl, (s.advance dt).onFe_same hlen _, fun i hi => (s.advance dt).onFe_ne hi _,
      doComplianceTrip_frame dt ch.val s⟩
  case clamp =>
    obtain ⟨hclamps, hch⟩ := doClampEvent_fe (pin := pin.val) (s := s) hna
    refine ⟨_, rfl, ?_, fun ch hchlen => ?_, doClampEvent_frame pin.val na s⟩
    · rw [hclamps]
      exact nth_modify_same (by omega) _
    · rw [hch, nth_map hchlen]
      simp only [Bool.or_eq_true, decide_eq_true_eq, List.contains_iff_mem]
  case small =>
    exact congrArg Host.Outcome.next (if_neg (Nat.not_lt.mpr hna))

end Sys2Proof.Machine
end

section
/-! PROOFS. Conversions of the front end: their start, their end and the words they give (O27). -/

namespace Sys2Proof.Machine

/-! ### What a conversion's end leaves alone -/

/-- A channel with the same conversions, the same words and the same gain. -/
def FeCh.sameCourse (c d : FeCh) : Prop := d.conv = c.conv ∧ d.old = c.old ∧ d.words = c.words ∧ d.gain = c.gain

/-- A front end with the same guards, whose channels have the same conversions, words and gains. -/
def Fe.sameCourse (f g : Fe) : Prop :=
  g.guards = f.guards ∧ g.poweredAt = f.poweredAt ∧ g.ch.length = f.ch.length ∧ ∀ i, (nth f.ch i).sameCourse (nth g.ch i)

theorem FeCh.sameCourse.refl (c : FeCh) : c.sameCourse c := ⟨rfl, rfl, rfl, rfl⟩

theorem FeCh.convs_congr {c d : FeCh} (hconv : d.conv = c.conv) (hold : d.old = c.old) : d.convs = c.convs := by
  rw [FeCh.convs, hconv, hold, FeCh.convs]

theorem FeCh.sameCourse.convs {c d : FeCh} (h : c.sameCourse d) : d.convs = c.convs := by
  obtain ⟨hconv, hold, -, -⟩ := h
  exact FeCh.convs_congr hconv hold

theorem Fe.sameCourse.of_eq {f g : Fe} (h : g = f) : f.sameCourse g := by
  subst h
  exact ⟨rfl, rfl, rfl, fun i => .refl _⟩

theorem Fe.sameCourse.trans {f g k : Fe} (h : f.sameCourse g) (h' : g.sameCourse k) : f.sameCourse k := by
  obtain ⟨hguards, hpow, hlen, hch⟩ := h
  obtain ⟨hguards', hpow', hlen', hch'⟩ := h'
  refine ⟨hguards'.trans hguards, hpow'.trans hpow, hlen'.trans hlen, fun i => ?_⟩
  obtain ⟨hconv, hold, hwords, hgain⟩ := hch i
  obtain ⟨hconv', hold', hwords', hgain'⟩ := hch' i
  exact ⟨hconv'.trans hconv, hold'.trans hold, hwords'.trans hwords, hgain'.trans hgain⟩

theorem State.onFe_course (s : State) (ch : Nat) {f : FeCh → FeCh} (hf : ∀ c : FeCh, c.sameCourse (f c)) :
    s.fe.sameCourse (s.onFe ch f).fe := by
  refine ⟨rfl, rfl, List.length_modify .., fun i => ?_⟩
  rcases nth_modify_cases s.fe.ch ch i f with hkept | hset
  · rw [onFe_fe, hkept]
    exact .refl _
  · rw [onFe_fe, hset]
    exact hf _

/-! ### Words (R253, R258) -/

theorem markAcc_pos : 0 < markAcc := by
  unfold markAcc
  omega

/-- The newest word is kept first. -/
theorem keepWords_head (x : FeWord) (l : List FeWord) : (keepWords (x :: l)).head? = some x := by
  obtain ⟨n, hn⟩ : ∃ n, n = 4096 * markAcc := ⟨_, rfl⟩
  have hpos : 0 < n := hn ▸ Nat.mul_pos (Nat.succ_pos _) markAcc_pos
  rw [keepWords, ← hn]
  simp [List.partition_eq_filter_filter, hpos]

/-- The word of a conversion follows from the words that the channels keep, the calibration terms and the time at which the die
was powered. -/
theorem State.feWord_congr {s t : State} (w : FeWait) (hwords : ∀ i, (nth t.fe.ch i).words = (nth s.fe.ch i).words)
    (hpow : t.fe.poweredAt = s.fe.poweredAt) (hmot : t.mot = s.mot) : t.feWord w = s.feWord w := by
  simp only [State.feWord, State.feCurve, State.assignedValue, State.assigned, State.fePowering, repeated, hwords, hmot, hpow]

theorem State.feWord_pos (s : State) (w : FeWait) :
    (s.feWord w).pos = w.conv.ref ∧ (s.feWord w).rfp = w.conv.recipe.rfp := by
  unfold State.feWord
  dsimp only
  split <;> exact ⟨rfl, rfl⟩

theorem State.feWrite_course (s : State) (ch : Nat) (v : Conv) (x : Word) : s.fe.sameCourse (s.feWrite ch v x).fe := by
  unfold State.feWrite
  cases v.kind with
  | injected =>
    simp only [State.writePacket_keeps]
    exact s.onFe_course ch fun c => ⟨rfl, rfl, rfl, rfl⟩
  | grid => exact .of_eq (by simp)
  | calOffset => exact .of_eq (by simp)
  | calGain => exact .of_eq (by simp)

theorem State.feWrite_waiting (s : State) (ch : Nat) (v : Conv) (x : Word) : (s.feWrite ch v x).fe.waiting = s.fe.waiting := by
  unfold State.feWrite
  cases v.kind <;> simp

/-- A word that is formed is the newest of its channel. -/
theorem State.feFinish_spec {s : State} {w : FeWait} (hch : w.ch < s.fe.ch.length) :
    (nth (s.feFinish w).fe.ch w.ch).words.head? = some (s.feWord w) ∧
      (nth (s.feFinish w).fe.ch w.ch).conv = (nth s.fe.ch w.ch).conv ∧
      (nth (s.feFinish w).fe.ch w.ch).old = (nth s.fe.ch w.ch).old ∧
      (nth (s.feFinish w).fe.ch w.ch).gain = (nth s.fe.ch w.ch).gain ∧
      (s.feFinish w).fe.guards = s.fe.guards ∧ (s.feFinish w).fe.waiting = s.fe.waiting := by
  have hnote := s.onFe_same hch fun c => c.note w (s.feWord w)
  obtain ⟨hguards, -, -, hcourse⟩ := (s.onFe w.ch fun c => c.note w (s.feWord w)).feWrite_course w.ch w.conv (s.feWord w).word
  obtain ⟨hconv, hold, hwords, hgain⟩ := hcourse w.ch
  rw [hnote] at hconv hold hwords hgain
  unfold State.feFinish
  simp only [State.closeTaken_keeps]
  refine ⟨?_, hconv, hold, hgain, hguards, State.feWrite_waiting ..⟩
  rw [hwords]
  exact keepWords_head _ _

theorem State.feFinish_frame (s : State) (w : FeWait) : OnlyWrites [.cw, .way, .fe] s (s.feFinish w) :=
  ⟨by simp, fun p hp => by cases p <;> simp_all [Part.same]⟩

/-- With no word that waits, nothing is formed. -/
theorem State.settleFe_empty {s : State} (h : s.fe.waiting = []) : s.settleFe = s := by
  rw [State.settleFe, h]
  rfl

/-- A word that waits alone for nothing is formed. -/
theorem State.settleFe_ready {s : State} {w : FeWait} (h : s.fe.waiting = [w]) (hready : s.refPending w.conv = false) :
    s.settleFe = { s with fe := { s.fe with waiting := [] } }.feFinish w := by
  have hfind : s.readyWait = some w := by simp [State.readyWait, h, hready]
  rw [State.settleFe, h, List.length_singleton, State.drainFe, hfind]
  simp only [h, List.erase_cons_head]
  rfl

/-- A word that waits alone for another one goes on waiting (R253). -/
theorem State.settleFe_held {s : State} {w : FeWait} (h : s.fe.waiting = [w]) (hheld : s.refPending w.conv = true) :
    s.settleFe = s := by
  have hfind : s.readyWait = none := by simp [State.readyWait, h, hheld]
  rw [State.settleFe, h, List.length_singleton, State.drainFe, hfind]

theorem State.settleFe_frame (s : State) : OnlyWrites [.cw, .way, .fe] s s.settleFe :=
  ⟨by simp, fun p hp => by cases p <;> simp_all [Part.same]⟩

/-- A conversion that was blanked, or that uses no assigned word, waits for none (R253, R258). -/
theorem State.refPending_free (s : State) {v : Conv} (h : v.blanked = true ∨ v.refs = []) : s.refPending v = false := by
  unfold State.refPending
  rcases h with hblank | hrefs
  · rw [hblank]
    rfl
  · rw [hrefs, List.any_nil, Bool.and_false]

/-- A conversion waits where an assigned channel still converts an output at or before its own (R253). -/
theorem State.refPending_of {s : State} {v u : Conv} {a : Nat × Word} (hblank : v.blanked = false) (ha : a ∈ v.refs)
    (hu : u ∈ (nth s.fe.ch a.1).convs) (hout : u.isOutput = true) (hkept : u.dropped = false) (href : u.ref ≤ v.ref) :
    s.refPending v = true := by
  have hany : v.refs.any (fun a => (nth s.fe.ch a.1).convs.any (fun u => u.isOutput && !u.dropped && decide (u.ref ≤ v.ref)) ||
      s.fe.waiting.any fun w => w.ch == a.1 && decide (w.conv.ref ≤ v.ref)) = true := by
    refine List.any_eq_true.mpr ⟨a, ha, Bool.or_eq_true_iff.mpr (.inl (List.any_eq_true.mpr ⟨u, hu, ?_⟩))⟩
    simp [hout, hkept, href]
  rw [State.refPending, hblank, hany]
  rfl

/-! ### Start of a conversion (R237, R249, R250) -/

theorem doFeConversionStart_frame (dt ch : Nat) (kind : ConvKind) (s : State) :
    OnlyWrites [.time, .cw, .way, .fe] s (doFeConversionStart dt ch kind s) :=
  ⟨by simp, fun p hp => by cases p <;> simp_all [Part.same]⟩

/-- A channel that runs and whose modulator is free starts what is asked for. -/
theorem doFeConversionStart_free {dt ch : Nat} {kind : ConvKind} {s : State} {r : Recipe} {e : ScanEntry}
    (hr : s.recipe ch = some r) (he : s.scan ch = some e) (hruns : s.feRuns r = true) (hbusy : s.modBusy r e = false)
    (hidle : (nth s.fe.ch ch).conv = none) :
    doFeConversionStart dt ch kind s = (s.advance dt).startConv ch kind r e := by
  have hr : (s.advance dt).recipe ch = some r := hr
  have he : (s.advance dt).scan ch = some e := he
  have hcond : (!(s.advance dt).feRuns r || (s.advance dt).modBusy r e || (nth (s.advance dt).fe.ch ch).conv.isSome) = false := by
    rw [show (s.advance dt).feRuns r = true from hruns, show (s.advance dt).modBusy r e = false from hbusy,
      show (nth (s.advance dt).fe.ch ch).conv = none from hidle]
    rfl
  unfold doFeConversionStart
  dsimp only
  rw [hr, he]
  exact if_neg (by rw [hcond]; exact Bool.false_ne_true)

/-- A grid-driven output that runs begins its conversion (R237, R250). -/
theorem State.startGrid_runs {s : State} {ch ref : Nat} {r : Recipe} {e : ScanEntry} (href : gridOutput r e s.gPos = some ref)
    (htrig : e.trigOnly = false) (hblank : (r.blank && s.feBlanked) = false) :
    s.startGrid ch r e = s.onFe ch fun c => { gainUp r c with conv := some (s.gridConv r e (gainUp r c) ref) } := by
  rw [State.startGrid, href]
  simp only [htrig, hblank, Bool.false_eq_true, if_false]

/-- The word of a grid-driven output that the blank interval holds (R258). -/
def State.blankWait (s : State) (ch : Nat) (r : Recipe) (e : ScanEntry) (ref : Nat) : FeWait :=
  { ch := ch, conv := { s.gridConv r e (nth s.fe.ch ch) ref with blanked := true }, meas := default, ow := (nth s.fe.ch ch).ow }

/-- A blanked output runs no conversion, and its word is formed at once where none waits (R258). -/
theorem State.startGrid_blanked {s : State} {ch ref : Nat} {r : Recipe} {e : ScanEntry} (href : gridOutput r e s.gPos = some ref)
    (htrig : e.trigOnly = false) (hblank : (r.blank && s.feBlanked) = true) (hwait : s.fe.waiting = []) :
    s.startGrid ch r e = s.feFinish (s.blankWait ch r e ref) := by
  rw [State.startGrid, href]
  simp only [htrig, hblank, Bool.false_eq_true, if_false, if_true, hwait, List.nil_append]
  rw [State.settleFe_ready rfl (State.refPending_free _ (.inl rfl)), ← hwait]
  rfl

/-- The reference position of a grid-driven output splits into its mark and the offset from it (R16, R238). -/
theorem State.gridConv_ref (s : State) (r : Recipe) (e : ScanEntry) (c : FeCh) (ref : Nat) :
    (s.gridConv r e c ref).ref = ref := by
  have hle : outMark ref * markAcc ≤ ref :=
    Nat.le_trans (Nat.div_mul_le_self _ _) (Nat.sub_le _ _)
  exact Nat.add_sub_cancel' hle

theorem State.blankWait_word (s : State) (ch : Nat) (r : Recipe) (e : ScanEntry) (ref : Nat) :
    (s.feWord (s.blankWait ch r e ref)).word = sampleWord (repeated (nth s.fe.ch ch) r) 0x30 := rfl

/-! ### What a conversion leaves in the analog path (R213, R216, R224) -/

/-- A channel without a conversion that has ended, as that one left its path. -/
def FeCh.left (c : FeCh) (v : Conv) (m : Meas) : FeCh :=
  let c := { c.drop v with held := heldLevels v m }
  if v.stale then c else { c with gain := m.gain, pre := m.bus.getLast?.getD c.pre }

theorem FeCh.drop_spec (c : FeCh) (v : Conv) : (c.drop v).words = c.words ∧ (c.drop v).ow = c.ow ∧
    (c.drop v).owClean = c.owClean ∧ (c.drop v).rev = c.rev := by
  unfold FeCh.drop
  split <;> exact ⟨rfl, rfl, rfl, rfl⟩

theorem FeCh.left_spec (c : FeCh) (v : Conv) (m : Meas) : (c.left v m).convs = (c.drop v).convs ∧
    (c.left v m).words = c.words ∧ (c.left v m).ow = c.ow ∧ (c.left v m).owClean = c.owClean ∧ (c.left v m).rev = c.rev ∧
    (v.stale = false → (c.left v m).gain = m.gain) := by
  obtain ⟨hwords, how, hclean, hrev⟩ := c.drop_spec v
  unfold FeCh.left
  cases hstale : v.stale
  · exact ⟨rfl, hwords, how, hclean, hrev, fun _ => rfl⟩
  · exact ⟨rfl, hwords, how, hclean, hrev, fun h => absurd h (by decide)⟩

/-- What a conversion leaves of the front end. -/
theorem State.leavePath_spec {s : State} {ch : Nat} (h : ch < s.fe.ch.length) (v : Conv) (m : Meas) :
    nth (s.leavePath ch v m).fe.ch ch = (nth s.fe.ch ch).left v m ∧
      (∀ i, i ≠ ch → nth (s.leavePath ch v m).fe.ch i = nth s.fe.ch i) ∧
      (s.leavePath ch v m).fe.ch.length = s.fe.ch.length ∧
      (s.leavePath ch v m).fe.guards = s.guardsAfter v.recipe m.last ∧
      (s.leavePath ch v m).fe.waiting = s.fe.waiting ∧ (s.leavePath ch v m).fe.poweredAt = s.fe.poweredAt :=
  ⟨nth_modify_same h fun c : FeCh => c.left v m, fun _ hi => nth_modify_ne _ hi fun c : FeCh => c.left v m,
    List.length_modify .., rfl, rfl, rfl⟩

/-! ### The end of an output (R144, R253, R255) -/

/-- The update of a calibration channel leaves the front end alone. -/
theorem State.bracket_course (s : State) (ch : Nat) (r : Recipe) (x : Option Int) :
    s.fe.sameCourse (s.bracket ch r x).fe ∧ (s.bracket ch r x).fe.waiting = s.fe.waiting := by
  unfold State.bracket
  dsimp only
  rw [foldl_fe _ (by simp)]
  exact ⟨s.onFe_course ch fun c => ⟨rfl, rfl, rfl, rfl⟩, rfl⟩

/-- An output that brackets no offset step leaves the calibration alone (R144). -/
theorem State.bracket_mot {s : State} {ch : Nat} (h : (nth s.fe.ch ch).rev = []) (r : Recipe) (x : Option Int) :
    (s.bracket ch r x).mot = s.mot := by
  unfold State.bracket
  rw [h]
  rfl

/-- Whether a channel is flagged open wire after an output (R255). -/
def FeCh.owAfterOutput (c : FeCh) (v : Conv) : Bool := if v.recipe.ow then (owAfter c.ow v.tripped c.owClean).1 else c.ow

/-- The open-wire flag and the clean run of a channel after an output of the recipe in force (R255). -/
def State.noteWire (s : State) (ch : Nat) (same ow : Bool) (clean : Nat) : State :=
  if same then s.onFe ch fun c => { c with ow := ow, owClean := clean } else s

/-- An output of the recipe in force brackets the offset steps before it (R144). -/
def State.bracketed (s : State) (ch : Nat) (v : Conv) (m : Meas) (same : Bool) : State :=
  if same && v.kind == .grid then s.bracket ch v.recipe (if v.blanked then none else m.volts.head?) else s

theorem State.noteWire_spec (s : State) (ch : Nat) (same ow : Bool) (clean : Nat) :
    s.fe.sameCourse (s.noteWire ch same ow clean).fe ∧ (s.noteWire ch same ow clean).fe.waiting = s.fe.waiting ∧
      (nth (s.noteWire ch same ow clean).fe.ch ch).rev = (nth s.fe.ch ch).rev ∧ (s.noteWire ch same ow clean).mot = s.mot := by
  cases same with
  | false => exact ⟨.of_eq rfl, rfl, rfl, rfl⟩
  | true =>
    refine ⟨s.onFe_course ch fun c => ⟨rfl, rfl, rfl, rfl⟩, rfl, ?_, rfl⟩
    rcases nth_modify_cases s.fe.ch ch ch fun c => { c with ow := ow, owClean := clean } with hkept | hset
    · exact congrArg FeCh.rev hkept
    · exact (congrArg FeCh.rev hset).trans rfl

theorem State.bracketed_spec (s : State) (ch : Nat) (v : Conv) (m : Meas) (same : Bool) :
    s.fe.sameCourse (s.bracketed ch v m same).fe ∧ (s.bracketed ch v m same).fe.waiting = s.fe.waiting ∧
      ((v.kind = .injected ∨ (nth s.fe.ch ch).rev = []) → (s.bracketed ch v m same).mot = s.mot) := by
  unfold State.bracketed
  split
  next hgrid =>
    obtain ⟨hcourse, hwait⟩ := s.bracket_course ch v.recipe (if v.blanked then none else m.volts.head?)
    refine ⟨hcourse, hwait, fun hrev => ?_⟩
    rcases hrev with hinj | hrev
    · rw [hinj] at hgrid
      exact absurd hgrid (by simp)
    · exact State.bracket_mot hrev ..
  next => exact ⟨.of_eq rfl, rfl, fun _ => rfl⟩

/-- The end of an output in its steps: the flag, the bracket, the word that waits and the FE-FAULT record. -/
theorem State.endOutput_eq (s : State) (ch : Nat) (v : Conv) (m : Meas) :
    ∃ same ow clean reason, ow = (nth s.fe.ch ch).owAfterOutput v ∧ s.endOutput ch v m =
      (let t := (s.noteWire ch same ow clean).bracketed ch v m same
       let t := { t with fe := { t.fe with waiting := t.fe.waiting ++ [FeWait.mk ch v m ow] } }
       if same && reason != 0 then t.writePacket (t.feFault reason ch t.mark) else t) := by
  unfold State.endOutput FeCh.owAfterOutput
  cases how : v.recipe.ow
  · exact ⟨_, _, _, _, rfl, rfl⟩
  · exact ⟨_, _, _, _, rfl, rfl⟩

/-- The word of an output waits from its end on, and the conversions, words and gains stay as the path was left (R253). -/
theorem State.endOutput_spec (s : State) (ch : Nat) (v : Conv) (m : Meas) :
    s.fe.sameCourse (s.endOutput ch v m).fe ∧
      (s.endOutput ch v m).fe.waiting = s.fe.waiting ++ [FeWait.mk ch v m ((nth s.fe.ch ch).owAfterOutput v)] ∧
      ((v.kind = .injected ∨ (nth s.fe.ch ch).rev = []) → (s.endOutput ch v m).mot = s.mot) := by
  obtain ⟨same, ow, clean, reason, how, heq⟩ := s.endOutput_eq ch v m
  obtain ⟨hcourse, hwait, hrev, hmot⟩ := s.noteWire_spec ch same ow clean
  obtain ⟨hcourse', hwait', hmot'⟩ := (s.noteWire ch same ow clean).bracketed_spec ch v m same
  have hfe : (s.endOutput ch v m).fe = { ((s.noteWire ch same ow clean).bracketed ch v m same).fe with
      waiting := ((s.noteWire ch same ow clean).bracketed ch v m same).fe.waiting ++ [FeWait.mk ch v m ow] } := by
    rw [heq]
    dsimp only
    split <;> simp only [State.writePacket_keeps]
  refine ⟨?_, ?_, fun hno => ?_⟩
  · rw [hfe]
    exact hcourse.trans hcourse'
  · rw [hfe, ← how, hwait', hwait]
  · rw [hrev, hmot] at hmot'
    rw [← hmot' hno, heq]
    dsimp only
    split <;> simp only [State.writePacket_keeps]

theorem State.endOutput_frame (s : State) (ch : Nat) (v : Conv) (m : Meas) :
    OnlyWrites [.cw, .way, .fe, .mot] s (s.endOutput ch v m) :=
  ⟨by simp, fun p hp => by cases p <;> simp_all [Part.same]⟩

/-! ### The end of a calibration step (R144, R146, R255, R258) -/

/-- A trip in a calibration step flags the recipe open wire, with its FE-FAULT record (R255). -/
def State.noteTrip (s : State) (ch : Nat) (v : Conv) : State :=
  let trip := v.recipe.ow && v.tripped
  let onset := trip && !(nth s.fe.ch ch).ow
  let s := if trip then s.onFe ch fun c => { c with ow := true, owClean := 0 } else s
  if onset then s.writePacket (s.feFault 2 ch s.mark) else s

/-- What a calibration step that was not blanked brings. -/
def State.stepEnds (s : State) (ch : Nat) (v : Conv) (m : Meas) (gain : Bool) : State :=
  if v.tripped || m.cm || v.clamped || m.above then s.feCal ch v.recipe gain none
  else if gain then s.gainStep ch v m
  else s.offsetStep ch v m

/-- A calibration step that was blanked falls due again (R258). -/
def FeCh.dueAgain (c : FeCh) (gain : Bool) : FeCh := if gain then { c with dueGain := true } else { c with dueOff := true }

theorem State.endCal_eq (s : State) (ch : Nat) (v : Conv) (m : Meas) (gain : Bool) : s.endCal ch v m gain =
    if v.blanked then (s.noteTrip ch v).onFe ch (·.dueAgain gain) else (s.noteTrip ch v).stepEnds ch v m gain := rfl

theorem State.noteTrip_frame (s : State) (ch : Nat) (v : Conv) : OnlyWrites [.cw, .way, .fe] s (s.noteTrip ch v) := by
  unfold State.noteTrip
  exact ⟨by simp, fun p hp => by cases p <;> simp_all [Part.same]⟩

theorem State.noteTrip_course (s : State) (ch : Nat) (v : Conv) :
    s.fe.sameCourse (s.noteTrip ch v).fe ∧ (s.noteTrip ch v).fe.waiting = s.fe.waiting := by
  have hflag := s.onFe_course ch (f := fun c => { c with ow := true, owClean := 0 }) fun c => ⟨rfl, rfl, rfl, rfl⟩
  unfold State.noteTrip
  dsimp only
  cases v.recipe.ow && v.tripped
  · exact ⟨.of_eq rfl, rfl⟩
  · split
    · simp only [State.writePacket_keeps]
      exact ⟨hflag, rfl⟩
    · exact ⟨hflag, rfl⟩

theorem FeCh.schedule_course (c : FeCh) (d : Int) (mark : Nat) (srcs : List Int) :
    c.sameCourse { c.schedule d mark with srcs := srcs } := by
  unfold FeCh.schedule
  generalize (if d.natAbs < 100 then c.calmFrom else mark) = n
  dsimp only
  by_cases hfast : 200 < d.natAbs
  · rw [if_pos hfast]
    exact ⟨rfl, rfl, rfl, rfl⟩
  · rw [if_neg hfast]
    split <;> exact ⟨rfl, rfl, rfl, rfl⟩

theorem State.gainStep_course (s : State) (ch : Nat) (v : Conv) (m : Meas) :
    s.fe.sameCourse (s.gainStep ch v m).fe ∧ (s.gainStep ch v m).fe.waiting = s.fe.waiting := by
  have hcal : s.fe.sameCourse (s.feCal ch v.recipe true
      (some (ratio (Config.factoryRatio v.recipe.exaSrc v.gain) (nth m.volts 0)))).fe := .of_eq (by simp)
  refine ⟨hcal.trans ?_, ?_⟩
  · exact State.onFe_course _ ch fun c => c.schedule_course _ _ _
  · simp only [State.gainStep, State.measureDrift, onFe_fe, State.feCal_keeps]

theorem State.offsetStep_course (s : State) (ch : Nat) (v : Conv) (m : Meas) :
    s.fe.sameCourse (s.offsetStep ch v m).fe ∧ (s.offsetStep ch v m).fe.waiting = s.fe.waiting := by
  unfold State.offsetStep
  split
  · exact ⟨.of_eq (by simp), by simp⟩
  · split
    · exact ⟨s.onFe_course ch fun c => ⟨rfl, rfl, rfl, rfl⟩, rfl⟩
    · exact ⟨.of_eq (by simp), by simp⟩

theorem State.stepEnds_course (s : State) (ch : Nat) (v : Conv) (m : Meas) (gain : Bool) :
    s.fe.sameCourse (s.stepEnds ch v m gain).fe ∧ (s.stepEnds ch v m gain).fe.waiting = s.fe.waiting := by
  unfold State.stepEnds
  split
  · exact ⟨.of_eq (by simp), by simp⟩
  · split
    · exact s.gainStep_course ch v m
    · exact s.offsetStep_course ch v m

/-- A calibration step ends without a word. -/
theorem State.endCal_course (s : State) (ch : Nat) (v : Conv) (m : Meas) (gain : Bool) :
    s.fe.sameCourse (s.endCal ch v m gain).fe ∧ (s.endCal ch v m gain).fe.waiting = s.fe.waiting := by
  obtain ⟨hcourse, hwait⟩ := s.noteTrip_course ch v
  rw [s.endCal_eq ch v m gain]
  split
  · refine ⟨hcourse.trans ?_, hwait⟩
    exact State.onFe_course _ ch fun c => by cases gain <;> exact ⟨rfl, rfl, rfl, rfl⟩
  · obtain ⟨hcourse', hwait'⟩ := (s.noteTrip ch v).stepEnds_course ch v m gain
    exact ⟨hcourse.trans hcourse', hwait'.trans hwait⟩

/-- A calibration step that was blanked is due again, and nothing else comes of it (R258). -/
theorem State.endCal_blanked {s : State} {ch : Nat} {v : Conv} (m : Meas) (gain : Bool) (h : ch < s.fe.ch.length)
    (hblank : v.blanked = true) : (∃ c, nth (s.endCal ch v m gain).fe.ch ch = FeCh.dueAgain c gain) ∧
      (s.endCal ch v m gain).mot = s.mot ∧ (s.endCal ch v m gain).age = s.age := by
  obtain ⟨⟨-, -, hlen, -⟩, -⟩ := s.noteTrip_course ch v
  obtain ⟨-, hframe⟩ := s.noteTrip_frame ch v
  rw [s.endCal_eq ch v m gain, if_pos hblank]
  exact ⟨⟨_, State.onFe_same (hlen ▸ h) _⟩, hframe .mot (by decide), hframe .age (by decide)⟩

/-- An offset step writes no source and no drift. -/
theorem State.endCal_offset_frame (s : State) (ch : Nat) (v : Conv) (m : Meas) :
    OnlyWrites [.cw, .way, .fe, .mot] s (s.endCal ch v m false) := by
  have hstep : OnlyWrites [.cw, .way, .fe, .mot] (s.noteTrip ch v) ((s.noteTrip ch v).stepEnds ch v m false) := by
    unfold State.stepEnds
    exact ⟨by simp, fun p hp => by cases p <;> simp_all [Part.same]⟩
  have hdue : OnlyWrites [.cw, .way, .fe, .mot] (s.noteTrip ch v) ((s.noteTrip ch v).onFe ch (·.dueAgain false)) :=
    ⟨rfl, fun p hp => by cases p <;> simp_all [Part.same]⟩
  rw [s.endCal_eq ch v m false]
  split
  · exact ((s.noteTrip_frame ch v).trans hdue).mono (by simp)
  · exact ((s.noteTrip_frame ch v).trans hstep).mono (by simp)

/-- An offset sample goes into the estimate (R144). -/
theorem State.feCal_est {s : State} {ch : Nat} (r : Recipe) (x : Int) (h : 7 + ch < s.mot.cal.length)
    (hskip : (nth s.mot.cal (7 + ch)).skips s.mark = false) :
    (nth (s.feCal ch r false (some x)).mot.cal (7 + ch)).est = estAfter (nth s.mot.cal (7 + ch)).est [] false x := by
  unfold State.feCal
  dsimp only
  rw [hskip]
  simp only [Bool.false_eq_true, if_false, State.writePacket_keeps, State.onCal]
  rw [nth_modify_same h]
  rfl

/-- The offset sample of a TRIGONLY recipe: half of its normal and its reversed reading (R144, R244). -/
theorem State.endCal_est {s : State} {ch : Nat} {v : Conv} {m : Meas} (h : 7 + ch < s.mot.cal.length)
    (hblank : v.blanked = false) (htrip : v.tripped = false) (hclamp : v.clamped = false) (htrig : v.scan.trigOnly = true)
    (hcm : m.cm = false) (habove : m.above = false) (hskip : (nth s.mot.cal (7 + ch)).skips s.mark = false) :
    (nth (s.endCal ch v m false).mot.cal (7 + ch)).est =
      estAfter (nth s.mot.cal (7 + ch)).est [] false ((nth m.volts 0 + nth m.volts 1) / 2) := by
  have hnote : s.noteTrip ch v = s := by
    rw [State.noteTrip, htrip, Bool.and_false]
    rfl
  rw [s.endCal_eq ch v m false, hnote, hblank, State.stepEnds, htrip, hcm, hclamp, habove, State.offsetStep, htrig]
  exact State.feCal_est v.recipe _ h hskip

end Sys2Proof.Machine
end

section
/-! PROOFS. The end of a front-end conversion (O27). -/

namespace Sys2Proof.Machine

/-- What the windows of a conversion give at the end of its occupancy. -/
def State.measured (s : State) (v : Conv) (x : ConvResult) : Meas := measure v.recipe v.scan s.time.gRate v.gain x.windows

/-- The state in which a conversion's occupancy has ended, before what it brings. -/
def State.afterPath (s : State) (dt ch : Nat) (x : ConvResult) (v : Conv) : State :=
  (s.advance dt).leavePath ch v (s.measured v x)

theorem State.afterPath_frame (s : State) (dt ch : Nat) (x : ConvResult) (v : Conv) :
    OnlyWrites [.time, .fe] s (s.afterPath dt ch x v) := by
  unfold State.afterPath
  exact ⟨by simp, fun p hp => by cases p <;> simp_all [Part.same]⟩

/-- The conversion whose occupancy ends next is the one that ends (R261). -/
theorem doFeConversionEnd_eq {dt ch : Nat} {x : ConvResult} {s : State} {v : Conv}
    (hending : (nth s.fe.ch ch).ending = some v) :
    doFeConversionEnd dt ch x s = ((s.afterPath dt ch x v).endConv ch v (s.measured v x)).settleFe := by
  have hending : (nth (s.advance dt).fe.ch ch).ending = some v := hending
  unfold doFeConversionEnd
  dsimp only
  rw [hending]
  dsimp only
  rw [State.advance_gRate]
  rfl

section
variable {s : State} {dt ch : Nat} {x : ConvResult} {v : Conv}

/-- What the end of an occupancy leaves: the conversion is gone, with its path as it brought it, and the words stay. -/
theorem State.afterPath_spec (h : ch < s.fe.ch.length) :
    (nth (s.afterPath dt ch x v).fe.ch ch).convs = ((nth s.fe.ch ch).drop v).convs ∧
      (∀ i, i ≠ ch → nth (s.afterPath dt ch x v).fe.ch i = nth s.fe.ch i) ∧
      (∀ i, (nth (s.afterPath dt ch x v).fe.ch i).words = (nth s.fe.ch i).words) ∧
      (v.stale = false → (nth (s.afterPath dt ch x v).fe.ch ch).gain = (s.measured v x).gain) ∧
      (nth (s.afterPath dt ch x v).fe.ch ch).rev = (nth s.fe.ch ch).rev ∧
      (nth (s.afterPath dt ch x v).fe.ch ch).owAfterOutput v = (nth s.fe.ch ch).owAfterOutput v := by
  have hadv : ch < (s.advance dt).fe.ch.length := h
  obtain ⟨hch, hother, -⟩ := State.leavePath_spec hadv v (s.measured v x)
  obtain ⟨hconvs, hwords, how, hclean, hrev, hgain⟩ := (nth (s.advance dt).fe.ch ch).left_spec v (s.measured v x)
  rw [← hch] at hconvs hwords how hclean hrev hgain
  refine ⟨hconvs, hother, fun i => ?_, hgain, hrev, ?_⟩
  · by_cases hi : i = ch
    · subst hi
      exact hwords
    · exact congrArg FeCh.words (hother i hi)
  · rw [State.afterPath, FeCh.owAfterOutput, how, hclean]
    rfl

/-- Where nothing waits, the end of a conversion without a word takes it from its channel, whose words stay. -/
theorem State.ends_wordless {t : State} (h : ch < s.fe.ch.length) (hwait : s.fe.waiting = [])
    (hcourse : (s.afterPath dt ch x v).fe.sameCourse t.fe) (hkept : t.fe.waiting = (s.afterPath dt ch x v).fe.waiting) :
    t.settleFe = t ∧ (nth t.fe.ch ch).convs = ((nth s.fe.ch ch).drop v).convs ∧
      (nth t.fe.ch ch).words = (nth s.fe.ch ch).words := by
  obtain ⟨hconvs, -, hwords, -⟩ := s.afterPath_spec (dt := dt) (x := x) (v := v) h
  obtain ⟨-, -, -, hch⟩ := hcourse
  obtain ⟨-, -, hsame, -⟩ := hch ch
  exact ⟨State.settleFe_empty (hkept.trans hwait), (hch ch).convs.trans hconvs, hsame.trans (hwords ch)⟩

/-- The word of an output that has ended. -/
def State.outputWait (s : State) (ch : Nat) (x : ConvResult) (v : Conv) : FeWait :=
  FeWait.mk ch v (s.measured v x) ((nth s.fe.ch ch).owAfterOutput v)

/-- The state in which an output has ended, before its word is formed. -/
def State.outputEnded (s : State) (dt ch : Nat) (x : ConvResult) (v : Conv) : State :=
  (s.afterPath dt ch x v).endOutput ch v (s.measured v x)

/-- The word of an output that ends waits alone where none waited. -/
theorem State.outputEnded_waiting (h : ch < s.fe.ch.length) (hwait : s.fe.waiting = []) :
    (s.outputEnded dt ch x v).fe.waiting = [s.outputWait ch x v] := by
  obtain ⟨-, -, -, -, -, how⟩ := s.afterPath_spec (dt := dt) (x := x) (v := v) h
  obtain ⟨-, hadded, -⟩ := (s.afterPath dt ch x v).endOutput_spec ch v (s.measured v x)
  rw [State.outputEnded, hadded, how, show (s.afterPath dt ch x v).fe.waiting = [] from hwait]
  rfl

theorem State.outputEnded_frame : OnlyWrites [.time, .cw, .way, .fe, .mot] s (s.outputEnded dt ch x v) :=
  ((s.afterPath_frame dt ch x v).trans (State.endOutput_frame _ ch v _)).mono (by simp)

theorem State.outputEnded_spec (h : ch < s.fe.ch.length) :
    (nth (s.outputEnded dt ch x v).fe.ch ch).convs = ((nth s.fe.ch ch).drop v).convs ∧
      (∀ i, (nth (s.outputEnded dt ch x v).fe.ch i).words = (nth s.fe.ch i).words) ∧
      (v.stale = false → (nth (s.outputEnded dt ch x v).fe.ch ch).gain = (s.measured v x).gain) ∧
      (s.outputEnded dt ch x v).fe.guards = s.guardsAfter v.recipe (s.measured v x).last ∧
      (s.outputEnded dt ch x v).fe.poweredAt = s.fe.poweredAt ∧
      (s.outputEnded dt ch x v).fe.ch.length = s.fe.ch.length ∧
      ((v.kind = .injected ∨ (nth s.fe.ch ch).rev = []) → (s.outputEnded dt ch x v).mot = s.mot) := by
  obtain ⟨hconvs, -, hwords, hgain, hrev, -⟩ := s.afterPath_spec (dt := dt) (x := x) (v := v) h
  obtain ⟨⟨hguards, hpow, hlen, hch⟩, -, hmot⟩ := (s.afterPath dt ch x v).endOutput_spec ch v (s.measured v x)
  rw [hrev] at hmot
  obtain ⟨-, hpath⟩ := s.afterPath_frame dt ch x v
  refine ⟨(hch ch).convs.trans hconvs, fun i => ?_, fun hstale => ?_, hguards, hpow,
    hlen.trans (List.length_modify ..), fun hno => (hmot hno).trans (hpath .mot (by decide))⟩
  · obtain ⟨-, -, hsame, -⟩ := hch i
    exact hsame.trans (hwords i)
  · obtain ⟨-, -, -, hsame⟩ := hch ch
    exact hsame.trans (hgain hstale)

/-- An output with no word to wait for gives its word at its end. -/
theorem State.output_written (h : ch < s.fe.ch.length) (hwait : s.fe.waiting = []) (hfree : v.blanked = true ∨ v.refs = []) :
    (s.outputEnded dt ch x v).settleFe =
      State.feFinish { s.outputEnded dt ch x v with fe := { (s.outputEnded dt ch x v).fe with waiting := [] } }
        (s.outputWait ch x v) :=
  State.settleFe_ready (State.outputEnded_waiting h hwait) (State.refPending_free _ hfree)

end

theorem State.endConv_output {s : State} {ch : Nat} {v : Conv} (m : Meas) (hout : v.isOutput = true)
    (hkept : v.dropped = false) : s.endConv ch v m = s.endOutput ch v m := by
  have hdropped : ¬ v.dropped = true := by rw [hkept]; exact Bool.false_ne_true
  rw [State.endConv, if_neg hdropped]
  rw [Conv.isOutput] at hout
  cases hkind : v.kind
  · rfl
  · rfl
  · rw [hkind] at hout
    exact absurd hout (by decide)
  · rw [hkind] at hout
    exact absurd hout (by decide)

theorem State.endConv_calOffset {s : State} {ch : Nat} {v : Conv} (m : Meas) (hkind : v.kind = .calOffset)
    (hkept : v.dropped = false) : s.endConv ch v m = s.endCal ch v m false := by
  have hdropped : ¬ v.dropped = true := by rw [hkept]; exact Bool.false_ne_true
  rw [State.endConv, if_neg hdropped, hkind]

theorem State.endConv_calGain {s : State} {ch : Nat} {v : Conv} (m : Meas) (hkind : v.kind = .calGain)
    (hkept : v.dropped = false) : s.endConv ch v m = s.endCal ch v m true := by
  have hdropped : ¬ v.dropped = true := by rw [hkept]; exact Bool.false_ne_true
  rw [State.endConv, if_neg hdropped, hkind]

section
variable {dt ch : Nat} {x : ConvResult} {s : State} {v : Conv} (hending : (nth s.fe.ch ch).ending = some v)
  (hkept : v.dropped = false) (hwait : s.fe.waiting = []) (h : ch < s.fe.ch.length)
include hending hkept

theorem doFeConversionEnd_output (hout : v.isOutput = true) :
    doFeConversionEnd dt ch x s = (s.outputEnded dt ch x v).settleFe := by
  rw [doFeConversionEnd_eq hending, State.endConv_output _ hout hkept]
  rfl

theorem doFeConversionEnd_output_frame (hout : v.isOutput = true) :
    OnlyWrites [.time, .cw, .way, .fe, .mot] s (doFeConversionEnd dt ch x s) := by
  rw [doFeConversionEnd_output hending hkept hout]
  exact (State.outputEnded_frame.trans (State.settleFe_frame _)).mono (by simp)

include hwait h

/-- An output with no word to wait for: its channel keeps the word, and the path stands where it brought it (R216, R228,
R253). -/
theorem feConversionEnd_written (hout : v.isOutput = true) (hfree : v.blanked = true ∨ v.refs = []) :
    let t := doFeConversionEnd dt ch x s
    (nth t.fe.ch ch).convs = ((nth s.fe.ch ch).drop v).convs ∧ t.fe.waiting = [] ∧
      (∃ w, (nth t.fe.ch ch).words.head? = some w ∧ w.pos = v.ref ∧ w.rfp = v.recipe.rfp ∧
        ((v.kind = .injected ∨ (nth s.fe.ch ch).rev = []) → t.mot = s.mot ∧
          w = (s.advance dt).feWord (s.outputWait ch x v))) ∧
      (v.stale = false → (nth t.fe.ch ch).gain = (s.measured v x).gain) ∧
      t.fe.guards = s.guardsAfter v.recipe (s.measured v x).last := by
  dsimp only
  rw [doFeConversionEnd_output hending hkept hout, State.output_written h hwait hfree]
  obtain ⟨hconvs, hwords, hgain, hguards, hpow, hlen, hmot⟩ := s.outputEnded_spec (dt := dt) (x := x) (v := v) h
  generalize hu : { s.outputEnded dt ch x v with fe := { (s.outputEnded dt ch x v).fe with waiting := [] } } = u
  have hfe : u.fe = { (s.outputEnded dt ch x v).fe with waiting := [] } := by rw [← hu]
  have humot : u.mot = (s.outputEnded dt ch x v).mot := by rw [← hu]
  have hch : u.fe.ch = (s.outputEnded dt ch x v).fe.ch := by rw [hfe]
  have hin : (s.outputWait ch x v).ch < u.fe.ch.length := by
    rw [hch, hlen]
    exact h
  obtain ⟨hhead, hconv, hold, hfinal, hfinalGuards, hempty⟩ := State.feFinish_spec (w := s.outputWait ch x v) hin
  obtain ⟨-, hfinish⟩ := u.feFinish_frame (s.outputWait ch x v)
  obtain ⟨hpos, hrfp⟩ := u.feWord_pos (s.outputWait ch x v)
  refine ⟨?_, by rw [hempty, hfe], ⟨_, hhead, hpos, hrfp, fun hno => ⟨?_, ?_⟩⟩, fun hstale => ?_, ?_⟩
  · rw [← hconvs, ← hch]
    exact FeCh.convs_congr hconv hold
  · exact (hfinish .mot (by decide)).trans (humot.trans (hmot hno))
  · refine State.feWord_congr _ (fun i => ?_) ?_ ?_
    · rw [hch]
      exact hwords i
    · rw [hfe]
      exact hpow
    · exact humot.trans (hmot hno)
  · rw [← hgain hstale, ← hch]
    exact hfinal
  · rw [hfinalGuards, hfe]
    exact hguards

/-- An output whose word an assigned channel holds back waits, and its channel keeps its words as they are (R253). -/
theorem feConversionEnd_held {u : Conv} {a : Nat × Word} (hout : v.isOutput = true) (hblank : v.blanked = false)
    (ha : a ∈ v.refs) (hne : a.1 ≠ ch) (hu : u ∈ (nth s.fe.ch a.1).convs) (huout : u.isOutput = true)
    (hukept : u.dropped = false) (href : u.ref ≤ v.ref) :
    let t := doFeConversionEnd dt ch x s
    (nth t.fe.ch ch).convs = ((nth s.fe.ch ch).drop v).convs ∧ t.fe.waiting.map (·.conv) = [v] ∧
      (nth t.fe.ch ch).words = (nth s.fe.ch ch).words := by
  obtain ⟨hconvs, hwords, -⟩ := s.outputEnded_spec (dt := dt) (x := x) (v := v) h
  obtain ⟨-, hother, -⟩ := s.afterPath_spec (dt := dt) (x := x) (v := v) h
  obtain ⟨⟨-, -, -, hch⟩, -⟩ := (s.afterPath dt ch x v).endOutput_spec ch v (s.measured v x)
  have halone := s.outputEnded_waiting (dt := dt) (x := x) (v := v) h hwait
  have hthere : u ∈ (nth (s.outputEnded dt ch x v).fe.ch a.1).convs := by
    rw [State.outputEnded, (hch a.1).convs, hother a.1 hne]
    exact hu
  have hheld := State.settleFe_held halone (State.refPending_of hblank ha hthere huout hukept href)
  dsimp only
  rw [doFeConversionEnd_output hending hkept hout, hheld]
  exact ⟨hconvs, by rw [halone]; rfl, hwords ch⟩

end

section
variable {dt ch : Nat} {x : ConvResult} {s : State} {v : Conv} (hending : (nth s.fe.ch ch).ending = some v)
  (hwait : s.fe.waiting = []) (h : ch < s.fe.ch.length)
include hending hwait h

/-- A calibration step ends without a word: what it brings is the whole effect. -/
theorem feConversionEnd_step {gain : Bool}
    (hstep : ∀ t : State, t.endConv ch v (s.measured v x) = t.endCal ch v (s.measured v x) gain) :
    doFeConversionEnd dt ch x s = (s.afterPath dt ch x v).endCal ch v (s.measured v x) gain ∧
      (nth (doFeConversionEnd dt ch x s).fe.ch ch).convs = ((nth s.fe.ch ch).drop v).convs ∧
      (nth (doFeConversionEnd dt ch x s).fe.ch ch).words = (nth s.fe.ch ch).words := by
  obtain ⟨hcourse, hsame⟩ := (s.afterPath dt ch x v).endCal_course ch v (s.measured v x) gain
  obtain ⟨hsettle, hconvs, hwords⟩ := State.ends_wordless h hwait hcourse hsame
  rw [doFeConversionEnd_eq hending, hstep, hsettle]
  exact ⟨rfl, hconvs, hwords⟩

/-- A calibration step that was blanked is due again (R258). -/
theorem feConversionEnd_blanked {gain : Bool}
    (hstep : ∀ t : State, t.endConv ch v (s.measured v x) = t.endCal ch v (s.measured v x) gain) (hblank : v.blanked = true) :
    (∃ c, nth (doFeConversionEnd dt ch x s).fe.ch ch = FeCh.dueAgain c gain) ∧ (doFeConversionEnd dt ch x s).mot = s.mot ∧
      (doFeConversionEnd dt ch x s).age = s.age := by
  obtain ⟨heq, -, -⟩ := feConversionEnd_step (dt := dt) hending hwait h hstep
  have hlen : ch < (s.afterPath dt ch x v).fe.ch.length := (List.length_modify ..).symm ▸ h
  obtain ⟨hdue, hmot, hage⟩ := State.endCal_blanked (s.measured v x) gain hlen hblank
  obtain ⟨-, hpath⟩ := s.afterPath_frame dt ch x v
  rw [heq]
  exact ⟨hdue, hmot.trans (hpath .mot (by decide)), hage.trans (hpath .age (by decide))⟩

/-- A conversion that a changed plan has dropped leaves no word (R20, R260, R261). -/
theorem feConversionEnd_dropped (hdropped : v.dropped = true) :
    (nth (doFeConversionEnd dt ch x s).fe.ch ch).convs = ((nth s.fe.ch ch).drop v).convs ∧
      (nth (doFeConversionEnd dt ch x s).fe.ch ch).words = (nth s.fe.ch ch).words ∧
      OnlyWrites [.time, .cw, .way, .fe] s (doFeConversionEnd dt ch x s) := by
  have hend : (s.afterPath dt ch x v).endConv ch v (s.measured v x) = (s.afterPath dt ch x v).closeTaken ch v.recipe :=
    if_pos hdropped
  have hclose : OnlyWrites [.cw, .way] (s.afterPath dt ch x v) ((s.afterPath dt ch x v).closeTaken ch v.recipe) :=
    ⟨by simp, fun p hp => by cases p <;> simp_all [Part.same]⟩
  have hfe : ((s.afterPath dt ch x v).closeTaken ch v.recipe).fe = (s.afterPath dt ch x v).fe := by simp
  obtain ⟨hsettle, hconvs, hwords⟩ := State.ends_wordless h hwait (.of_eq hfe) (by rw [hfe])
  rw [doFeConversionEnd_eq hending, hend, hsettle]
  exact ⟨hconvs, hwords, ((s.afterPath_frame dt ch x v).trans hclose).mono (by simp)⟩

/-- The offset sample of a TRIGONLY recipe that nothing spoils (R144, R244). -/
theorem feConversionEnd_est (hstep : ∀ t : State, t.endConv ch v (s.measured v x) = t.endCal ch v (s.measured v x) false)
    (hcal : 7 + ch < s.mot.cal.length) (hblank : v.blanked = false) (htrip : v.tripped = false) (hclamp : v.clamped = false)
    (htrig : v.scan.trigOnly = true) (hcm : (s.measured v x).cm = false) (habove : (s.measured v x).above = false)
    (hskip : (nth s.mot.cal (7 + ch)).skips s.mark = false) :
    (nth (doFeConversionEnd dt ch x s).mot.cal (7 + ch)).est = estAfter (nth s.mot.cal (7 + ch)).est [] false
      ((nth (s.measured v x).volts 0 + nth (s.measured v x).volts 1) / 2) := by
  obtain ⟨heq, -, -⟩ := feConversionEnd_step (dt := dt) hending hwait h hstep
  have hskip : (nth (s.afterPath dt ch x v).mot.cal (7 + ch)).skips (s.afterPath dt ch x v).mark = false := by
    rw [show (s.afterPath dt ch x v).mark = s.mark from s.advance_mark dt]
    exact hskip
  rw [heq]
  exact State.endCal_est (s := s.afterPath dt ch x v) hcal hblank htrip hclamp htrig hcm habove hskip

end

theorem doFeConversionEnd_frame (dt ch : Nat) (x : ConvResult) (s : State) :
    OnlyWrites [.free, .time, .cw, .way, .fe, .mot, .age] s (doFeConversionEnd dt ch x s) :=
  ⟨by simp, fun p hp => by cases p <;> simp_all [Part.same]⟩

/-- Settles O27: the two starts follow from what a channel that is free starts, and each end from what the conversion's kind
brings after its path has been left. -/
theorem feConverts : Obligations.FeConverts := by
  unfold Obligations.FeConverts
  refine ⟨fun dt ch s r e ref hr he hruns hbusy hidle href htrig hblank hlen => ?grid,
    fun dt ch s r e ref hr he hruns hbusy hidle href htrig hblank hwait hlen => ?blanked,
    fun dt ch x s v hending hout hkept hwait hfree hlen => ?written,
    fun dt ch x s v u a hending hout hkept hwait hblank ha hne hu huout hukept huref hlen => ?held,
    fun dt ch x s v hending hkind hkept hwait hlen hcal => ?offset,
    fun dt ch x s v hending hkind hkept hwait hlen => ?gain,
    fun dt ch x s v hending hdropped hwait hlen => ?dropped,
    fun dt ch x s v hending hstale hlen hout hkept hwait hfree => ?path⟩
  case grid =>
    have heq : doFeConversionStart dt ch.val .grid s = (s.advance dt).onFe ch.val fun c =>
        { gainUp r c with conv := some ((s.advance dt).gridConv r e (gainUp r c) ref) } :=
      (doFeConversionStart_free hr he hruns hbusy hidle).trans (State.startGrid_runs href htrig hblank)
    exact ⟨_, congrArg Host.Outcome.next heq, (s.advance dt).onFe_same hlen _, fun i hi => (s.advance dt).onFe_ne hi _,
      rfl, fun p hp => by cases p <;> simp_all [Part.same]⟩
  case blanked =>
    have heq : doFeConversionStart dt ch.val .grid s = (s.advance dt).feFinish ((s.advance dt).blankWait ch.val r e ref) :=
      (doFeConversionStart_free hr he hruns hbusy hidle).trans (State.startGrid_blanked href htrig hblank hwait)
    have hframe := doFeConversionStart_frame dt ch.val .grid s
    obtain ⟨hhead, hconv, -⟩ := State.feFinish_spec (s := s.advance dt) (w := (s.advance dt).blankWait ch.val r e ref) hlen
    obtain ⟨hpos, hrfp⟩ := (s.advance dt).feWord_pos ((s.advance dt).blankWait ch.val r e ref)
    rw [heq] at hframe
    exact ⟨_, congrArg Host.Outcome.next heq, hconv.trans hidle, ⟨_, hhead,
      hpos.trans ((s.advance dt).gridConv_ref r e (nth s.fe.ch ch.val) ref), hrfp, (s.advance dt).blankWait_word ch.val r e ref⟩, hframe⟩
  case written =>
    obtain ⟨hconvs, hempty, hword, -, -⟩ := feConversionEnd_written (dt := dt) (x := x) hending hkept hwait hlen hout hfree
    exact ⟨_, rfl, hconvs, hempty, hword, doFeConversionEnd_output_frame hending hkept hout⟩
  case held =>
    obtain ⟨hconvs, hwaits, hwords⟩ :=
      feConversionEnd_held (dt := dt) (x := x) hending hkept hwait hlen hout hblank ha hne hu huout hukept huref
    exact ⟨_, rfl, hconvs, hwaits, hwords, doFeConversionEnd_output_frame hending hkept hout⟩
  case offset =>
    have hstep := fun t : State => t.endConv_calOffset (ch := ch.val) (s.measured v x) hkind hkept
    obtain ⟨heq, hconvs, hwords⟩ := feConversionEnd_step (dt := dt) hending hwait hlen hstep
    refine ⟨_, rfl, hconvs, hwords, fun hblank => ?_, fun hblank htrip hclamp htrig hcm habove hskip => ?_, ?_⟩
    · obtain ⟨⟨c, hdue⟩, hmot, -⟩ := feConversionEnd_blanked (dt := dt) hending hwait hlen hstep hblank
      exact ⟨by rw [hdue]; rfl, hmot⟩
    · exact feConversionEnd_est hending hwait hlen hstep hcal hblank htrip hclamp htrig hcm habove hskip
    · rw [heq]
      exact ((s.afterPath_frame dt ch.val x v).trans (State.endCal_offset_frame _ ch.val v _)).mono (by simp)
  case gain =>
    have hstep := fun t : State => t.endConv_calGain (ch := ch.val) (s.measured v x) hkind hkept
    obtain ⟨-, hconvs, hwords⟩ := feConversionEnd_step (dt := dt) hending hwait hlen hstep
    refine ⟨_, rfl, hconvs, hwords, fun hblank => ?_, doFeConversionEnd_frame dt ch.val x s⟩
    obtain ⟨⟨c, hdue⟩, hrest⟩ := feConversionEnd_blanked (dt := dt) hending hwait hlen hstep hblank
    exact ⟨by rw [hdue]; rfl, hrest⟩
  case dropped =>
    exact ⟨_, rfl, feConversionEnd_dropped hending hwait hlen hdropped⟩
  case path =>
    obtain ⟨-, -, -, hgain, hguards⟩ := feConversionEnd_written (dt := dt) (x := x) hending hkept hwait hlen hout hfree
    exact ⟨_, rfl, hgain hstale, hguards⟩

end Sys2Proof.Machine
end

section
/-! PROOFS. Ageing (O15): the ERROR record of an uncorrectable line may be written over that very line. -/

namespace Sys2Proof.Machine

/-- A hub that runs in Highway after reset, with the write pointer of the Causeway at line 0. -/
def atLineZero : State :=
  { State.reset with power := { Power.init with phase := .running, resetN := true, memDone := true, mode := some .highway } }

/-- The scrub finds line 0 uncorrectable for the first time. -/
def lineZeroLost : LineFinding := { place := .die 0, errors := 2, caught := false }

/-- The ERROR record of line 0 reserves the lines at the write pointer, which takes line 0 off the lines found uncorrectable
(R308, R310, R326). -/
theorem doScrub_lineZeroLost : (doScrub [lineZeroLost] atLineZero).cw.badLines = [] := by
  decide

/-- Refutes O15: an uncorrectable line that the scrub finds at the write pointer does not stay among the lines found uncorrectable,
because the ERROR record that reports it is written over it. -/
theorem not_ageingRecorded : ¬ Obligations.AgeingRecorded := by
  unfold Obligations.AgeingRecorded
  rintro ⟨-, -, -, -, -, -, -, -, -, hlost, -⟩
  obtain ⟨t, hexec, -, hin, -⟩ := hlost 0 atLineZero (by decide) (by decide) (by decide) (by decide)
  have ht : doScrub [lineZeroLost] atLineZero = t := by
    injection hexec
  rw [← ht, doScrub_lineZeroLost] at hin
  exact absurd hin List.not_mem_nil

end Sys2Proof.Machine
end
